-- ==== Sys2Proof/Word.lean ====
section
/-!
DEFINITION. The word types of the ONG-8256 model and the two-sided pair that its doubled parts share.

Registers are 32 bits wide and are read and written only whole (R3), so a register is a `Word`.
Everything that comes twice (masters and control links A and B, feeders and cages A and B) is indexed by `AB`.
-/

namespace Sys2Proof

/-- A 32-bit register value (R3). -/
abbrev Word := BitVec 32

/-- One byte. -/
abbrev Byte := BitVec 8

/-- The two sides of a doubled part: master or control link A or B (R103), feeder or cage A or B. -/
inductive AB where
  | a
  | b
deriving DecidableEq, Repr

/-- The other side. -/
def AB.other : AB → AB
  | .a => .b
  | .b => .a

/-- 0 for A, 1 for B: the instance number of a doubled page. -/
def AB.num : AB → Nat
  | .a => 0
  | .b => 1

/-- One value for each side. -/
structure Pair (α : Type) where
  /-- The value of side A. -/
  a : α
  /-- The value of side B. -/
  b : α
deriving DecidableEq, Repr

/-- The value of one side. -/
def Pair.get {α : Type} (p : Pair α) : AB → α
  | .a => p.a
  | .b => p.b

/-- Replace the value of one side. -/
def Pair.set {α : Type} (p : Pair α) (x : AB) (v : α) : Pair α :=
  match x with
  | .a => { p with a := v }
  | .b => { p with b := v }

/-- The same value on both sides. -/
def Pair.both {α : Type} (v : α) : Pair α := ⟨v, v⟩

end Sys2Proof
end

