-- ==== Sys2Proof/Syntax.lean ====
section
/-!
DEFINITION. The commands of the ONG-8256 block: one constructor of `Instr` for each row of spec/opcode_table.json.

A command is something that reaches the terminal from outside or from its own engines: a pin event, a received frame or
record, a register write by a master, a timer that runs out, an instruction that a sequencer executes.
What the outside supplies (levels, received bytes, measured values) are the command's operands.
Well-formedness of operands is checked in WellFormed.lean; a meaning takes an ill-formed operand modulo its field width.
-/

namespace Sys2Proof

/-- A received control frame (Table 2-1). `area` is the record area as received; `size` counts from DA through FCS. -/
structure RxFrame where
  da : Nat
  sa : Nat
  /-- The frame carries a VLAN tag (R41). -/
  tagged : Bool
  etype : Nat
  /-- The Ethernet FCS is good (R39). -/
  fcsOk : Bool
  size : Nat
  ver : Nat
  epoch : Nat
  kind : Nat
  flags : Nat
  seq : Nat
  ack : Nat
  len : Nat
  area : List Byte
  crc : Nat
  /-- Edge FIFO 12 or 13 has no room for it (R182). -/
  fifoFull : Bool
  /-- Records whose target does not complete in time (R66): the offset of each in the record area, and the word that does not. -/
  slow : List (Nat × Nat)
deriving DecidableEq, Repr

/-- A record of Table 2-3 that a master sends. -/
inductive Request where
  | read (tag addr count : Nat) (fixed : Bool)
  | write (tag addr : Nat) (fixed : Bool) (data : List Word)
  | masked (tag addr : Nat) (mask value : Word)
  | dataTx (tag slice : Nat) (first last : Bool) (total : Nat) (desc : List Word) (bytes : List Byte)
  | omciUp (msg : List Byte)
deriving DecidableEq, Repr

/-- How a master writes ACQ: by a WRITE, or by a MASKED_WRITE record with a TAG, whose response shows the old word (R107). -/
inductive AcqForm where
  | write
  | masked (tag : Nat)
deriving DecidableEq, Repr

/-- An ACQ write, and the other master's ACQ write of the same semaphore where one starts in the same handshake (R107). -/
structure AcqIn where
  form : AcqForm
  rival : Option AcqForm
deriving DecidableEq, Repr

/-- A record that a master sends but for its TAG and address. -/
inductive RecForm where
  | read (count : Nat) (fixed : Bool)
  | write (fixed : Bool) (data : List Word)
  | masked (mask value : Word)
  | dataTx (slice : Nat) (first last : Bool) (total : Nat) (desc : List Word) (bytes : List Byte)
  | omciUp (msg : List Byte)
deriving DecidableEq, Repr

/-- The record with a TAG and address; a DATA_TX has no address, and an OMCI_UP has neither (Table 2-3). -/
def requestOf (x : RecForm) (tag addr : Nat) : Request :=
  match x with
  | .read count fixed => .read tag addr count fixed
  | .write fixed data => .write tag addr fixed data
  | .masked mask value => .masked tag addr mask value
  | .dataTx slice first last total desc bytes => .dataTx tag slice first last total desc bytes
  | .omciUp msg => .omciUp msg

/-- What the PMBus regulator answers in the start-up exchange (Table 6-7, R192). -/
structure PmbStart where
  revision : Nat
  voutMode : Nat
  readVout : Nat
deriving DecidableEq, Repr

/-- What the terminal finds at LOGIC_READY: the step's duration, what the regulator answers at each start-up exchange (none: nothing; the
first at LOGIC_READY, the later ones at the retries of STALLED; assumption 47) and the VBAT measurement. -/
structure StartIn where
  us : Nat
  pmb : List (Option PmbStart)
  vbatMv : Nat
deriving DecidableEq, Repr

/-- The three values that PMBUS_POLL reads (Table 6-7). -/
inductive PollKind where
  | vout | iout | temp
deriving DecidableEq, Repr

/-- The three registers of R203. -/
inductive LoopReg where
  | ctrl | limits | fixed
deriving DecidableEq, Repr

/-- A frame that a client port receives: its bytes from the destination address up to, not including, the FCS, the checks of
Table 12-2 that the bytes do not carry, and whether the receive edge FIFO had no room for it (R182). -/
structure ClientFrame where
  bytes : List Byte
  preambleOk : Bool
  alignOk : Bool
  fcsOk : Bool
  fifoFull : Bool
deriving DecidableEq, Repr

/-- The registers that hold a rate or a burst size (R421): word 0 to 3 of a node are CIR, PIR, CBS and PBS, word 0 and 1 of a
policer are RATE and BURST; `host` is HOST_RATE. -/
inductive ShaperReg where
  | node (slice node d : Nat)
  | policer (slice policer d : Nat)
  | host
deriving DecidableEq, Repr

/-- A burst profile (R304): the rate as BTX_PROFILE.RATE, the guard time and the PSBu length in bits, the preamble and delimiter patterns
and whether the burst carries FEC. -/
structure Profile where
  rate : Nat
  guardBits : Nat
  psbuBits : Nat
  preamble : List Byte
  delimiter : List Byte
  fec : Bool
deriving DecidableEq, Repr

/-- A PLOAM message from the head end, by what the named standards carry in it (Table 9-2). A serial number is a vendor ID and a
vendor-specific number; none stands for every terminal. -/
inductive PloamBody where
  | burstProfile (index : Nat) (p : Profile)
  | assignOnuId (vendor vssn onuId : Nat)
  | rangingTime (eqd : Nat)
  | deactivate
  | disableSn (enable : Bool) (sn : Option (Nat × Nat))
  | requestRegistration
  | assignAllocId (alloc : Nat) (assign : Bool)
  | keyControl
  | sleepAllow (allow : Bool)
  | other
deriving DecidableEq, Repr

/-- A PLOAMd message: ONU-ID field, sequence number, whether its MIC checks (R282), its contents and its 48 bytes. -/
structure Ploam where
  onuId : Nat
  seq : Nat
  micOk : Bool
  body : PloamBody
  bytes : List Byte
deriving DecidableEq, Repr

/-- The HEC check of an XGEM header: syndrome zero, one bit in error, or neither (R242). -/
inductive HecRes where
  | good | oneBit | bad
deriving DecidableEq, Repr

/-- An XGEM header as it stands at a position of an FS payload, with the payload behind it. A position of the payload at which no
header is listed holds a misfit. -/
structure XHdr where
  pos : Nat
  hec : HecRes
  /-- The header touches an uncorrectable codeword (R240). -/
  damaged : Bool
  pli : Nat
  key : Nat
  port : Nat
  lf : Bool
  payload : List Byte
  /-- The payload touches an uncorrectable codeword. -/
  payDamaged : Bool
deriving DecidableEq, Repr

/-- What an allocation of a BWmap asks for. -/
inductive GrantKind where
  /-- An allocation to an Alloc-ID. -/
  | alloc (id : Nat)
  /-- A serial-number grant. -/
  | serial
  /-- A ranging grant directed to an ONU-ID. -/
  | ranging (onuId : Nat)
deriving DecidableEq, Repr

/-- An allocation of a BWmap; times in ns within its upstream frame. -/
structure Grant where
  kind : GrantKind
  hecOk : Bool
  profile : Nat
  start : Nat
  air : Nat
  size : Nat
  dbru : Bool
  ploamu : Bool
deriving DecidableEq, Repr

/-- What arrives at a downstream PSBd position (R238 to R241): how many PSync bits differ, the instant within the present
microsecond in 2^−32 ns, the SFC and its check, the FEC counts of the frame, its PLOAM messages, its BWmap and the headers of its
FS payload. -/
structure Psbd where
  errors : Nat
  frac : Nat
  sfcOk : Bool
  sfc : Nat
  cw : Nat
  cwCorr : Nat
  cwUncorr : Nat
  bitsCorr : Nat
  ploams : List Ploam
  forcedWake : Bool
  grants : List Grant
  payLen : Nat
  headers : List XHdr
deriving DecidableEq, Repr

/-- The clock data recovery and RX_LOS conditions of R265. -/
inductive LosBy where
  | pin | clock
deriving DecidableEq, Repr

/-- The identity bytes of a module: whether every byte was acknowledged, A0h bytes 0 to 95 (Table 11-1), and whether the stored record
of its key passes its CRC at load (R337). -/
structure IdImage where
  acked : Bool
  a0 : List Byte
  recordOk : Bool
deriving DecidableEq, Repr

/-- The ring registers of a Skim ring that RING_CFG_WRITE writes (R416). -/
inductive RingReg where
  | ctrl | base
deriving DecidableEq, Repr

/-- The outcome of LPDDR4X training (R548): the rate reached, the size and the ranks found, or the step that failed; and how long it
took in ms. -/
inductive TrainOut where
  | done (rate mib : Nat) (twoRanks : Bool) (ms : Nat)
  | fail (step ms : Nat)
deriving DecidableEq, Repr

/-- A single-bit or wider error that the scrubber finds in a row: the word and the bits in error. -/
structure RowErr where
  word : Nat
  bits : List Nat
deriving DecidableEq, Repr

/-- A row that fails its test at start-up: memory, bank and row. -/
structure BadRow where
  mem : Nat
  bank : Nat
  row : Nat
deriving DecidableEq, Repr

/-- The commands, in the order of spec/opcode_table.json. -/
inductive Instr where
  | wake
  | powerOn
  | regReady (us : Nat)
  | oscReady (us : Nat)
  | memReady (us : Nat) (rows : List BadRow) (spares : List (Nat × Nat))
  | logicReady (i : StartIn)
  | startupStepTimeout
  | startupRetry
  | resetPin
  | pgoodLoss
  | resetCmd (m : AB)
  | hostReset
  | shutdown (m : AB)
  | reattach (m : AB)
  | thermal
  | powerdownComplete
  | mainPowerLoss
  | vioLoss
  | vauxLow
  | vauxRestore
  | refclkLoss
  | paceWindow (units : List (Nat × Nat))
  | loopPeriod
  | vstepAck (readVout statusWord : Nat)
  | stepSettleTimeout
  | pmbusRetry
  | stalledRetry
  | pmbAlert (statusWord : Nat)
  | pmbusPoll (k : PollKind) (v : Nat)
  | loopConfigWrite (m : AB) (r : LoopReg) (v : Word)
  | handshakeStuck (page unit : Nat)
  | dataFrameReceive (l : AB) (f : RxFrame)
  | ackonlyReceive (l : AB) (f : RxFrame)
  | resyncReceive (l : AB) (f : RxFrame)
  | resyncAckReceive (l : AB) (f : RxFrame)
  | ackTimeout (l : AB)
  | resyncStart (l : AB)
  | resyncRepeat (l : AB)
  | ackDelayExpiry (l : AB)
  | packDelayExpiry (l : AB)
  | linkLoss (l : AB)
  | linkdownExpiry (l : AB)
  | linkReturn (l : AB)
  | txnTimeout (m : AB) (x : RecForm) (tag addr done : Nat)
  | read (m : AB) (tag addr count : Nat) (fixed : Bool)
  | write (m : AB) (tag addr : Nat) (fixed : Bool) (data : List Word)
  | maskedWrite (m : AB) (tag addr : Nat) (mask value : Word)
  | dataTx (m : AB) (tag slice : Nat) (first last : Bool) (total : Nat) (desc : List Word) (bytes : List Byte)
  | omciUp (m : AB) (msg : List Byte)
  | ctlResyncCmd (m : AB)
  | ctlMacWrite (m : AB) (hi : Bool) (v : Word)
  | regWrite (m : AB) (addr : Nat) (v : Word)
  | blockEnable (m : AB) (page : Nat)
  | blockDrain (m : AB) (page : Nat) (byEnable : Bool)
  | blockReset (m : AB) (page : Nat)
  | blockResetDone (page : Nat)
  | localHoldRelease (m : AB) (page : Nat)
  | faultDetailRead (m : AB) (page : Nat)
  | selftestStart (m : AB) (page unit : Nat)
  | selftestDone (page : Nat) (pass : Bool) (detail : Nat)
  | intClear (m : AB) (page : Nat) (v : Word)
  | counterHiRead (m : AB) (page i : Nat)
  | rtcHiRead (m : AB)
  | sfcHiRead (m f : AB)
  | tsuTimeRead (m : AB)
  | semAcquire (m : AB) (n : Nat) (x : AcqIn)
  | semRelease (m : AB) (n : Nat)
  | leaseExpiry (n : Nat)
  | malfWindowEnd
  | releaseA (m : AB)
  | releaseB (m : AB)
  | mbxDataWrite (m : AB) (ch k : Nat) (v : Word)
  | mbxDoorbell (m : AB) (ch len : Nat)
  | mbxTake (m : AB) (ch : Nat)
  | keeperTake (m : AB)
  | info (m : AB)
  | echo (m : AB)
  | captureStatus (m : AB)
  | captureRead (m : AB)
  | captureFree (m : AB)
  | keeperReply (m : AB)
  | fwOpen (m : AB)
  | fwClose (m : AB)
  | fwLoad (m : AB)
  | fwCheckDone
  | fwWriteDone (readBackOk : Bool)
  | fwCommit (m : AB) (restart : Bool)
  | fwRom (m : AB) (restart : Bool)
  | fwRestart (m : AB)
  | fwConfirm (m : AB)
  | keeperWatchdog
  | ownerMaskWrite (m : AB) (slice mask : Nat)
  | xpermitWrite (m : AB) (i : Nat) (v : Word)
  | sliceAllocWrite (m : AB) (slice off : Nat) (v : Word)
  | drainQueuesEmpty (page : Nat)
  | drainLimitExpiry (page : Nat)
  | flushDone (page : Nat)
  | backupPowerUp
  | vbatMeasure (mv : Nat)
  | rtcLineLoad
  | rtcSet (m : AB) (v : Word)
  | sealPulse (before after strap : Bool)
  | sealPeriodWrite (m : AB) (v : Word)
  | sealAck (m : AB)
  | presencePress
  | pressWindowExpiry
  | prsClose (m : AB)
  | tamperClear (m : AB)
  | backupRecordWrite
  | nvsCheckpoint
  | psbdArrival (f : AB) (p : Psbd)
  | rateDwellExpiry (f : AB)
  | xgemFrameReceive (f : AB) (fifoFull : Bool)
  | losDeclare (f : AB) (by_ : LosBy)
  | losClear (f : AB)
  | sdSecond (f : AB)
  | portIdWrite (m f : AB) (e : Nat) (v : Word)
  | rateModeWrite (m f : AB) (v : Word)
  | keyLoad (f : AB) (slot : Nat) (key : List Byte)
  | burstProfile (f : AB)
  | assignOnuId (f : AB)
  | rangingTime (f : AB)
  | deactivateOnuId (f : AB)
  | disableSerialNumber (f : AB)
  | requestRegistration (f : AB)
  | assignAllocId (f : AB)
  | keyControl (f : AB)
  | sleepAllow (f : AB)
  | unsupportedPloam (f : AB)
  | eqdApply (f : AB)
  | to1Expiry (f : AB)
  | to2Expiry (f : AB)
  | dozeEnter
  | watch
  | lowPowerStart
  | wakeCmd (m f : AB)
  | sleepEnWrite (m f : AB) (on : Bool)
  | gateReacqTimeout
  | rerangeTimeout
  | allocPrefetch (f : AB)
  | benAssert (f : AB) (late : Option Nat)
  | burstEnd (f : AB)
  | nodeMapWrite (m f : AB) (n : Nat) (v : Word)
  | switchComplete
  | pswClear (m : AB)
  | pswManual (m f : AB)
  | pswForce (m f : AB)
  | pswLockout (m : AB) (lockA lockB : Bool)
  | wtrExpiry
  | moduleInsert (c : AB)
  | moduleRemove (c : AB)
  | idReadStart (c : AB)
  | idReadDone (c : AB) (i : IdImage)
  | idReadRetry (c : AB)
  | diagPoll (c : AB) (bytes : Option (List Byte))
  | laserSecond (c : AB)
  | lifeRecordWrite (c : AB)
  | lifeLimitWrite (m c : AB) (v : Word)
  | txCtrlWrite (m c : AB) (v : Word)
  | clientFrameReceive (n : Nat) (f : ClientFrame)
  | pauseExpiry (n pri : Nat)
  | xoffRefresh (n pri : Nat)
  | linkChange (n : Nat) (lock fec localFault remoteFault : Bool)
  | macModeWrite (m : AB) (n : Nat) (v : Word)
  | frameTransmit (n : Nat) (poisoned fifo14Full : Bool)
  | tsqPop (m : AB) (n : Nat)
  | laneLookup (n : Nat)
  | churnPass
  | ruleRead (m : AB) (k : Nat)
  | ruleWrite (m : AB) (k : Nat)
  | ruleClear (m : AB) (k : Nat)
  | puntCapture
  | laneStall (n : Nat)
  | bucketReturn (b : Nat)
  | schedRelease (pn : Nat)
  | skimRecordWrite
  | ringCfgWrite (m : AB) (k : Nat) (r : RingReg) (v : Word)
  | ringRdWrite (m : AB) (k : Nat) (v : Word)
  | shaperWrite (m : AB) (r : ShaperReg) (v : Word)
  | bufPeakRead (m : AB) (k : Nat)
  | armLoad (m f : AB)
  | slewDone
  | holdoverLimit
  | calStart (m : AB) (seconds : Nat)
  | calDone
  | ppsOutEdge
  | ppsOutFall
  | todOutSend
  | ppsInEdge (frac : Nat)
  | todInMessage (msg : List Byte)
  | ppsInLoss
  | synceSquelchEnd
  | hostAdjust (m : AB) (v : Word)
  | timeSet (m : AB) (v : Word)
  | add (n : Nat) (rd ra rb : BitVec 5)
  | sub (n : Nat) (rd ra rb : BitVec 5)
  | and (n : Nat) (rd ra rb : BitVec 5)
  | or (n : Nat) (rd ra rb : BitVec 5)
  | xor (n : Nat) (rd ra rb : BitVec 5)
  | shl (n : Nat) (rd ra rb : BitVec 5)
  | shr (n : Nat) (rd ra rb : BitVec 5)
  | sra (n : Nat) (rd ra rb : BitVec 5)
  | sltu (n : Nat) (rd ra rb : BitVec 5)
  | slt (n : Nat) (rd ra rb : BitVec 5)
  | mul (n : Nat) (rd ra rb : BitVec 5)
  | mulhu (n : Nat) (rd ra rb : BitVec 5)
  | addi (n : Nat) (rd ra : BitVec 5) (imm : BitVec 16)
  | andi (n : Nat) (rd ra : BitVec 5) (imm : BitVec 16)
  | ori (n : Nat) (rd ra : BitVec 5) (imm : BitVec 16)
  | xori (n : Nat) (rd ra : BitVec 5) (imm : BitVec 16)
  | shli (n : Nat) (rd ra : BitVec 5) (imm : BitVec 16)
  | shri (n : Nat) (rd ra : BitVec 5) (imm : BitVec 16)
  | lui (n : Nat) (rd : BitVec 5) (imm : BitVec 16)
  | sltiu (n : Nat) (rd ra : BitVec 5) (imm : BitVec 16)
  | lw (n : Nat) (rd ra : BitVec 5) (imm : BitVec 16)
  | lh (n : Nat) (rd ra : BitVec 5) (imm : BitVec 16)
  | lb (n : Nat) (rd ra : BitVec 5) (imm : BitVec 16)
  | sw (n : Nat) (rs ra : BitVec 5) (imm : BitVec 16)
  | sh (n : Nat) (rs ra : BitVec 5) (imm : BitVec 16)
  | sb (n : Nat) (rs ra : BitVec 5) (imm : BitVec 16)
  | ldx (n : Nat) (rd ra : BitVec 5) (imm : BitVec 16)
  | ldxReturn (n : Nat)
  | stx (n : Nat) (rs ra : BitVec 5) (imm : BitVec 16)
  | beq (n : Nat) (a b : BitVec 5) (off : BitVec 16)
  | bne (n : Nat) (a b : BitVec 5) (off : BitVec 16)
  | bltu (n : Nat) (a b : BitVec 5) (off : BitVec 16)
  | bgeu (n : Nat) (a b : BitVec 5) (off : BitVec 16)
  | jal (n : Nat) (rd : BitVec 5) (off : BitVec 21)
  | jalr (n : Nat) (rd ra : BitVec 5) (imm : BitVec 16)
  | rdtime (n : Nat) (rd : BitVec 5) (imm : BitVec 16)
  | tset (n : Nat) (ra : BitVec 5) (imm : BitVec 16)
  | wait (n : Nat) (rd : BitVec 5) (imm : BitVec 16)
  | waitReturn (n : Nat)
  | wdog (n : Nat)
  | evt (n : Nat) (imm : BitVec 16)
  | cnt (n : Nat) (ra : BitVec 5) (imm : BitVec 16)
  | fsend (n : Nat) (rd ra rb : BitVec 5)
  | rxhead (n : Nat) (rd : BitVec 5)
  | rxfree (n : Nat)
  | cstart (n : Nat) (ra : BitVec 5) (imm : BitVec 16)
  | cfeed (n : Nat) (ra : BitVec 5) (imm : BitVec 16)
  | cres (n : Nat) (rd : BitVec 5) (imm : BitVec 16)
  | cresReturn (n : Nat)
  | halt (n : Nat)
  | illegalInstruction (n : Nat) (w : Word)
  | icacheFill (n : Nat)
  | seqTimerFire (n t : Nat)
  | seqWatchdog (n : Nat)
  | seqRestart (m : AB) (n : Nat)
  | seqInv (m : AB) (n : Nat)
  | dmemDataRead (m : AB) (n : Nat)
  | dmemDataWrite (m : AB) (n : Nat) (v : Word)
  | chkStart (m : AB) (n : Nat) (fold : Bool)
  | chkFeedByte (m : AB) (n : Nat) (v : Word)
  | chkFeedHalf (m : AB) (n : Nat) (v : Word)
  | chkFeedWord (m : AB) (n : Nat) (v : Word)
  | chkResultRead (m : AB) (n : Nat)
  | scrubRow (slice : Nat) (errs : List RowErr)
  | targetedSelftestDone (pass : Bool)
  | flipArm (m : AB) (v : Word)
  | nvsCommit
  | trainComplete (o : TrainOut)
  | retrain (m : AB)
  | twoWireRetry (c : AB)
  | thermalWarn (tj : Nat)
deriving DecidableEq, Repr

end Sys2Proof
end

