-- ==== Sys2Proof/Decode.lean ====
section
/-!
DEFINITION. Words and commands.

No row of the opcode table gives bits, so no word spells a command of the block itself.
The sequencers' own instruction words (Tables 16-2 and 16-3) are data of the block: their decoder and encoder stand here too.
-/

namespace Sys2Proof

/-- The command that a word spells by the table's bits: the table gives none. -/
def decodeTableWord (_nbits _w : Nat) : Option Instr := none

/-! ### Sequencer instruction words (R460, Tables 16-2 and 16-3) -/

/-- A five-bit register field whose lowest bit is `lo`. -/
def regField (w lo : Nat) : BitVec 5 := BitVec.ofNat 5 (w / 2 ^ lo)

/-- The FN table of OP 0. -/
def decodeFn (n fn : Nat) (rd ra rb : BitVec 5) : Option Instr :=
  match fn with
  | 0x00 => some (.add n rd ra rb)
  | 0x01 => some (.sub n rd ra rb)
  | 0x02 => some (.and n rd ra rb)
  | 0x03 => some (.or n rd ra rb)
  | 0x04 => some (.xor n rd ra rb)
  | 0x05 => some (.shl n rd ra rb)
  | 0x06 => some (.shr n rd ra rb)
  | 0x07 => some (.sra n rd ra rb)
  | 0x08 => some (.sltu n rd ra rb)
  | 0x09 => some (.slt n rd ra rb)
  | 0x0A => some (.mul n rd ra rb)
  | 0x0B => some (.mulhu n rd ra rb)
  | _ => none

/-- `some i` when the fields that the format leaves unused are 0. -/
def unused (ok : Bool) (i : Instr) : Option Instr := if ok then some i else none

/-- The instruction of sequencer `n` that a word holds; none for a reserved OP or FN, for a field that must be 0 and is not, and
for a WAIT with mask 0 or a CFEED with width 3. -/
def seqDecode (n w : Nat) : Option Instr :=
  let rd := regField w 21
  let ra := regField w 16
  let rb := regField w 11
  let imm := BitVec.ofNat 16 w
  let i := imm.toNat
  let nd := rd.toNat == 0
  let na := ra.toNat == 0
  match w / 2 ^ 26 with
  | 0x00 => if w / 64 % 32 = 0 then decodeFn n (w % 64) rd ra rb else none
  | 0x01 => some (.addi n rd ra imm)
  | 0x02 => some (.andi n rd ra imm)
  | 0x03 => some (.ori n rd ra imm)
  | 0x04 => some (.xori n rd ra imm)
  | 0x05 => unused (i / 32 == 0) (.shli n rd ra imm)
  | 0x06 => unused (i / 32 == 0) (.shri n rd ra imm)
  | 0x07 => unused na (.lui n rd imm)
  | 0x08 => some (.sltiu n rd ra imm)
  | 0x10 => some (.lw n rd ra imm)
  | 0x11 => some (.lh n rd ra imm)
  | 0x12 => some (.lb n rd ra imm)
  | 0x13 => some (.sw n rd ra imm)
  | 0x14 => some (.sh n rd ra imm)
  | 0x15 => some (.sb n rd ra imm)
  | 0x16 => some (.ldx n rd ra imm)
  | 0x17 => some (.stx n rd ra imm)
  | 0x20 => some (.beq n rd ra imm)
  | 0x21 => some (.bne n rd ra imm)
  | 0x22 => some (.bltu n rd ra imm)
  | 0x23 => some (.bgeu n rd ra imm)
  | 0x24 => some (.jal n rd (BitVec.ofNat 21 w))
  | 0x25 => some (.jalr n rd ra imm)
  | 0x30 => unused (na && decide (i ≤ 2)) (.rdtime n rd imm)
  | 0x31 => unused (nd && i / 32 == 0 && i / 4 % 4 == 0) (.tset n ra imm)
  | 0x32 => unused (na && decide (1 ≤ i) && decide (i < 64)) (.wait n rd imm)
  | 0x33 => unused (w % 2 ^ 26 == 0) (.wdog n)
  | 0x34 => unused (nd && na) (.evt n imm)
  | 0x35 => unused (nd && decide (i < 8)) (.cnt n ra imm)
  | 0x38 => unused (w % 2 ^ 11 == 0) (.fsend n rd ra rb)
  | 0x39 => unused (na && i == 0) (.rxhead n rd)
  | 0x3A => unused (w % 2 ^ 26 == 0) (.rxfree n)
  | 0x3C => unused (nd && decide (i < 16)) (.cstart n ra imm)
  | 0x3D => unused (nd && i / 64 == 0 && i / 8 % 2 == 0 && i / 16 != 3) (.cfeed n ra imm)
  | 0x3E => unused (na && decide (i < 16)) (.cres n rd imm)
  | 0x3F => unused (w % 2 ^ 26 == 0) (.halt n)
  | _ => none

/-- A word of the R and F formats. -/
def encR (op fn : Nat) (rd ra rb : BitVec 5) : Nat :=
  op * 2 ^ 26 + rd.toNat * 2 ^ 21 + ra.toNat * 2 ^ 16 + rb.toNat * 2 ^ 11 + fn

/-- A word of the I and B formats. -/
def encI (op : Nat) (rd ra : BitVec 5) (imm : BitVec 16) : Nat := op * 2 ^ 26 + rd.toNat * 2 ^ 21 + ra.toNat * 2 ^ 16 + imm.toNat

/-- The instruction word of a sequencer instruction; none for every other command. -/
def seqEncode : Instr → Option Nat
  | .add _ rd ra rb => some (encR 0 0x00 rd ra rb)
  | .sub _ rd ra rb => some (encR 0 0x01 rd ra rb)
  | .and _ rd ra rb => some (encR 0 0x02 rd ra rb)
  | .or _ rd ra rb => some (encR 0 0x03 rd ra rb)
  | .xor _ rd ra rb => some (encR 0 0x04 rd ra rb)
  | .shl _ rd ra rb => some (encR 0 0x05 rd ra rb)
  | .shr _ rd ra rb => some (encR 0 0x06 rd ra rb)
  | .sra _ rd ra rb => some (encR 0 0x07 rd ra rb)
  | .sltu _ rd ra rb => some (encR 0 0x08 rd ra rb)
  | .slt _ rd ra rb => some (encR 0 0x09 rd ra rb)
  | .mul _ rd ra rb => some (encR 0 0x0A rd ra rb)
  | .mulhu _ rd ra rb => some (encR 0 0x0B rd ra rb)
  | .addi _ rd ra imm => some (encI 0x01 rd ra imm)
  | .andi _ rd ra imm => some (encI 0x02 rd ra imm)
  | .ori _ rd ra imm => some (encI 0x03 rd ra imm)
  | .xori _ rd ra imm => some (encI 0x04 rd ra imm)
  | .shli _ rd ra imm => some (encI 0x05 rd ra imm)
  | .shri _ rd ra imm => some (encI 0x06 rd ra imm)
  | .lui _ rd imm => some (encI 0x07 rd 0 imm)
  | .sltiu _ rd ra imm => some (encI 0x08 rd ra imm)
  | .lw _ rd ra imm => some (encI 0x10 rd ra imm)
  | .lh _ rd ra imm => some (encI 0x11 rd ra imm)
  | .lb _ rd ra imm => some (encI 0x12 rd ra imm)
  | .sw _ rs ra imm => some (encI 0x13 rs ra imm)
  | .sh _ rs ra imm => some (encI 0x14 rs ra imm)
  | .sb _ rs ra imm => some (encI 0x15 rs ra imm)
  | .ldx _ rd ra imm => some (encI 0x16 rd ra imm)
  | .stx _ rs ra imm => some (encI 0x17 rs ra imm)
  | .beq _ a b off => some (encI 0x20 a b off)
  | .bne _ a b off => some (encI 0x21 a b off)
  | .bltu _ a b off => some (encI 0x22 a b off)
  | .bgeu _ a b off => some (encI 0x23 a b off)
  | .jal _ rd off => some (0x24 * 2 ^ 26 + rd.toNat * 2 ^ 21 + off.toNat)
  | .jalr _ rd ra imm => some (encI 0x25 rd ra imm)
  | .rdtime _ rd imm => some (encI 0x30 rd 0 imm)
  | .tset _ ra imm => some (encI 0x31 0 ra imm)
  | .wait _ rd imm => some (encI 0x32 rd 0 imm)
  | .wdog _ => some (encI 0x33 0 0 0)
  | .evt _ imm => some (encI 0x34 0 0 imm)
  | .cnt _ ra imm => some (encI 0x35 0 ra imm)
  | .fsend _ rd ra rb => some (encR 0x38 0 rd ra rb)
  | .rxhead _ rd => some (encI 0x39 rd 0 0)
  | .rxfree _ => some (encI 0x3A 0 0 0)
  | .cstart _ ra imm => some (encI 0x3C 0 ra imm)
  | .cfeed _ ra imm => some (encI 0x3D 0 ra imm)
  | .cres _ rd imm => some (encI 0x3E rd 0 imm)
  | .halt _ => some (encI 0x3F 0 0 0)
  | _ => none

end Sys2Proof
end

