-- ==== Sys2Proof/Config.lean ====
section
/-!
DEFINITION. What one implementation fixes and the free values: the values that the spec leaves open.

A free value is an opaque constant: no proof can see what it is, so a claim about it holds whatever it is.
Functions that the named standards define and the spec does not restate (ciphers, signatures, integrity codes) stand here too.
-/

namespace Sys2Proof.Config

/-- The contents of an LPDDR4X byte that nothing has written since LPDDR4X last became undefined (R179): by how often it has
become so, and by address. -/
opaque freeByte : Nat → Nat → Byte

/-- A byte of a sequencer's memory after an inconsistent instruction (R469): by the free value that stands for the memory's contents, and
by address. -/
opaque seqByte : Nat → Nat → Byte

/-- A value that the spec leaves undefined, fresh for each use: the counter is a field of State. -/
opaque freeWord : Nat → Word

/-- Where the time base of sequencer timers started (R463): by how often it has started. -/
opaque timerBase : Nat → Nat

/-- The lane target while no lane is in service, where R186 divides by nothing: by REQ and MARGIN. -/
opaque laneTarget : Nat → Nat → Nat

/-- Whether the Ed25519 signature of a Govar image verifies under the release key (R132). -/
opaque signatureOk : List Byte → Bool

/-- The counter-mode decryption of an XGEM payload under a key slot's contents, by the key, the superframe count, the
position of the frame and the payload (R256). -/
opaque decrypt : List Byte → Nat → Nat → List Byte → List Byte

/-- The message integrity code of an OMCI or PLOAM message under a key (R262, R263). -/
opaque mic : List Byte → List Byte → List Byte

/-- A byte of an upstream PLOAM message as the named standards lay it out (R283): by message type, contents and position. -/
opaque ploamByte : Nat → List Nat → Nat → Byte

/-- The ROM image's VERSION (Table 4-11). The spec calls it fixed and gives no number (assumption 6). -/
def romVersion : Word := 0x01000000#32

end Sys2Proof.Config
end

