-- ==== Sys2Proof/Machine/Bits.lean ====
section
/-!
DEFINITION. Bit fields, byte order and sparse tables: the plain helpers that every later file uses.

A bit range [m:n] of the spec includes both ends (R3); here a field is named by its lowest bit and its width.
A `Tbl` is a sparse table in one canonical form: keys strictly rising, no entry equal to what an unlisted key reads as.
-/

namespace Sys2Proof.Machine

/-! ### Bit fields -/

/-- The field of `w` bits whose lowest bit is `lo` (R3). -/
def bits (v : Word) (lo w : Nat) : Nat := (v.extractLsb' lo w).toNat

/-- One bit. -/
def bit (v : Word) (i : Nat) : Bool := v.getLsbD i

/-- The ones of a field of `w` bits at `lo`. -/
def fieldMask (lo w : Nat) : Word := ((BitVec.allOnes w).setWidth 32) <<< lo

/-- `v` with the field of `w` bits at `lo` replaced by `n` modulo 2^w. -/
def setBits (v : Word) (lo w n : Nat) : Word :=
  (v &&& ~~~ fieldMask lo w) ||| (((BitVec.ofNat w n).setWidth 32) <<< lo)

/-- A word whose field at `lo` is `n` modulo 2^w and whose other bits are 0. -/
def field (lo w n : Nat) : Word := ((BitVec.ofNat w n).setWidth 32) <<< lo

/-- A word from a natural number, modulo 2^32. -/
def word (n : Nat) : Word := BitVec.ofNat 32 n

/-- 0 or 1. -/
def b2n (b : Bool) : Nat := if b then 1 else 0

/-- The two's complement value of a field of `w` bits. -/
def signedOf (w n : Nat) : Int := if n < 2 ^ (w - 1) then Int.ofNat n else Int.ofNat n - Int.ofNat (2 ^ w)

/-- The two's complement bit pattern of an integer in `w` bits. -/
def toSigned (w : Nat) (i : Int) : Nat := (i % Int.ofNat (2 ^ w)).toNat

/-- An integer held between two bounds. -/
def clampInt (lo hi i : Int) : Int := if i < lo then lo else if i > hi then hi else i

/-- A count that stops at its largest value. -/
def satAdd (top n k : Nat) : Nat := if n + k > top then top else n + k

/-- Serial-number order of the spec: `a` precedes `b` when (b − a) mod 2^w lies between 1 and 2^(w−1) − 1. -/
def precedes (w a b : Nat) : Bool :=
  let d := (b + 2 ^ w - a % 2 ^ w) % 2 ^ w
  decide (1 ≤ d ∧ d < 2 ^ (w - 1))

/-- The number of bits set among the lowest `w`. -/
def popCount (w n : Nat) : Nat := ((List.range w).filter (fun i => n.testBit i)).length

/-! ### Bytes, most significant first (R44) -/

/-- The number that bytes spell, the first one most significant. -/
def beNat : List Byte → Nat
  | [] => 0
  | x :: t => x.toNat * 256 ^ t.length + beNat t

/-- `n` as `k` bytes, most significant first. -/
def beBytes : Nat → Nat → List Byte
  | 0, _ => []
  | k + 1, n => BitVec.ofNat 8 (n / 256 ^ k) :: beBytes k n

/-- The word that the first four bytes spell; missing bytes read 0. -/
def beWord (l : List Byte) : Word :=
  word (beNat ((l ++ [0, 0, 0, 0]).take 4))

/-- Bytes in words of four, most significant first, the last word filled up with zero bytes. -/
def bytesToWords : Nat → List Byte → List Word
  | 0, _ => []
  | _ + 1, [] => []
  | k + 1, l => beWord l :: bytesToWords k (l.drop 4)

/-- All of the bytes in words, padded to a multiple of four. -/
def padWords (l : List Byte) : List Word := bytesToWords (l.length + 1) l

/-- Words as bytes. -/
def wordsToBytes (l : List Word) : List Byte := l.flatMap (fun w => beBytes 4 w.toNat)

/-- The number in `k` bytes at offset `o`; bytes beyond the end read 0. -/
def beAt (l : List Byte) (o k : Nat) : Nat :=
  beNat (((l.drop o) ++ List.replicate k 0).take k)

/-- One byte at an offset; 0 beyond the end. -/
def byteAt (l : List Byte) (o : Nat) : Nat := ((l.drop o).headD 0).toNat

/-- `l` with the bytes `v` written over it from offset `o`. -/
def putBytes (l : List Byte) (o : Nat) (v : List Byte) : List Byte :=
  l.take o ++ v ++ l.drop (o + v.length)

/-! ### Lists by index -/

/-- `l` with its element `i` replaced. -/
def setAt {α : Type} (l : List α) (i : Nat) (v : α) : List α := l.set i v

/-- `l` cut to its last `n` elements: a bounded queue that drops its oldest entry. -/
def keepLast {α : Type} (n : Nat) (l : List α) : List α := l.drop (l.length - n)

/-! ### Sparse tables -/

/-- A sparse table: entries in rising key order, none equal to the default. -/
abbrev Tbl (V : Type) := List (Nat × V)

/-- What key `k` holds; `d` where nothing is listed. -/
def tblGet {V : Type} (d : V) (k : Nat) : Tbl V → V
  | [] => d
  | (j, v) :: t => if j = k then v else tblGet d k t

/-- Insert an entry in key order. -/
def tblInsert {V : Type} (k : Nat) (v : V) : Tbl V → Tbl V
  | [] => [(k, v)]
  | (j, u) :: t => if k ≤ j then (k, v) :: (j, u) :: t else (j, u) :: tblInsert k v t

/-- The table without key `k`. -/
def tblErase {V : Type} (k : Nat) : Tbl V → Tbl V
  | [] => []
  | (j, v) :: t => if j = k then tblErase k t else (j, v) :: tblErase k t

/-- Key `k` set to `v`. Setting the default removes the entry, so that equal tables are equal data. -/
def tblSet {V : Type} [DecidableEq V] (d : V) (k : Nat) (v : V) (t : Tbl V) : Tbl V :=
  if v = d then tblErase k t else tblInsert k v (tblErase k t)

/-- The canonical form: keys strictly rising above `lo`, no entry equal to its default. -/
def tblWfFrom {V : Type} [DecidableEq V] (d : Nat → V) : Nat → Tbl V → Bool
  | _, [] => true
  | lo, (k, v) :: t => decide (lo ≤ k) && decide (v ≠ d k) && tblWfFrom d (k + 1) t

/-- The canonical form of a whole table, each key with its own default. -/
def tblWf {V : Type} [DecidableEq V] (d : Nat → V) (t : Tbl V) : Bool := tblWfFrom d 0 t

end Sys2Proof.Machine
end

