-- ==== Sys2Proof/Machine/Pages.lean ====
section
/-!
DEFINITION. The register pages: which block a page belongs to, its fixed header bits, and the form of a register table.

The page index is Table 3-3 (R91), the slice window slots are Table 3-4 (R92), the fixed capability bits are Table 3-7 (R558).
The register tables themselves stand in RegTables.lean.
-/

namespace Sys2Proof.Machine

/-- The blocks of Table 3-3, with a block's global page and its slice pages told apart. -/
inductive Blk where
  | pwr | bkp | prs | nvs | flt | log | ecc | mem | ctl | sem | mbx
  | lfr | act | btx | psw | cry | opt | tsu | mac | seg | cls
  | chuG | bufG | schG | polG | drpG | slcG | seq | chk
  | slcS | drpS | bufS | chuS | clsS | polS | schS
deriving DecidableEq, Repr

/-- The numeric block code of Table 3-3. -/
def blkCode : Blk → Nat
  | .pwr => 0x01 | .bkp => 0x02 | .prs => 0x03 | .nvs => 0x04 | .flt => 0x05 | .log => 0x06 | .ecc => 0x07 | .mem => 0x08
  | .ctl => 0x10 | .sem => 0x11 | .mbx => 0x12
  | .lfr => 0x20 | .act => 0x21 | .btx => 0x22 | .psw => 0x23 | .cry => 0x24 | .opt => 0x25 | .tsu => 0x26
  | .mac => 0x30 | .seg => 0x31 | .cls => 0x40 | .clsS => 0x40
  | .chuG => 0x41 | .chuS => 0x41 | .bufG => 0x42 | .bufS => 0x42 | .schG => 0x43 | .schS => 0x43
  | .polG => 0x44 | .polS => 0x44 | .drpG => 0x45 | .drpS => 0x45 | .slcG => 0x46 | .slcS => 0x46
  | .seq => 0x50 | .chk => 0x51

/-- The scope of a page's OWNER register (Table 3-3): 0 device, 1 slice, 2 assignable, 3 master. -/
def blkScope : Blk → Nat
  | .ctl => 3
  | .mac | .seq | .chk => 2
  | .slcS | .drpS | .bufS | .chuS | .clsS | .polS | .schS => 1
  | _ => 0

/-- What a device page is: its block, its number within the block and its subpage. -/
structure PageInfo where
  /-- The block. -/
  blk : Blk
  /-- The INSTANCE field of PAGE_ID (Table 3-2). -/
  inst : Nat
  /-- The SUBPAGE field of PAGE_ID. -/
  sub : Nat
deriving DecidableEq, Repr

/-- The slice page of slot `k` below 0x40 (Table 3-4); `none` for a reserved slot. -/
def sliceSlot (s k : Nat) : Option PageInfo :=
  if k = 0 then some ⟨.slcS, s, 0⟩
  else if k ≤ 3 then some ⟨.drpS, s, k - 1⟩
  else if k = 4 then some ⟨.bufS, s, 0⟩
  else if k = 5 then some ⟨.chuS, s, 0⟩
  else if k < 8 then none
  else if k < 0x18 then some ⟨.clsS, s, k - 8⟩
  else if k < 0x28 then some ⟨.polS, s, k - 0x18⟩
  else if k < 0x40 then some ⟨.schS, s, k - 0x28⟩
  else none

/-- The low pages of Table 3-3, as rows (first page, count, block). -/
def lowPages : List (Nat × Nat × Blk) :=
  [(0x000, 1, .pwr), (0x001, 1, .bkp), (0x002, 1, .prs), (0x003, 1, .nvs), (0x004, 1, .flt), (0x005, 1, .log),
   (0x006, 1, .ecc), (0x007, 1, .mem), (0x010, 2, .ctl), (0x012, 1, .sem), (0x013, 6, .mbx), (0x020, 2, .lfr),
   (0x022, 2, .act), (0x024, 2, .btx), (0x026, 1, .psw), (0x027, 1, .cry), (0x028, 2, .opt), (0x02A, 1, .tsu),
   (0x030, 8, .mac), (0x038, 1, .seg), (0x040, 16, .cls), (0x050, 1, .chuG), (0x051, 1, .bufG), (0x052, 1, .schG),
   (0x053, 1, .polG), (0x054, 1, .drpG), (0x055, 1, .slcG), (0x060, 8, .seq), (0x068, 8, .chk)]

/-- The blocks whose global page carries INSTANCE 0xFF because they also have slice pages (Table 3-2). -/
def hasSlicePages : Blk → Bool
  | .chuG | .bufG | .schG | .polG | .drpG | .slcG => true
  | _ => false

/-- The first row of the page index that holds page `p`. -/
def findLow (p : Nat) : List (Nat × Nat × Blk) → Option PageInfo
  | [] => none
  | (f, n, b) :: t =>
    if f ≤ p ∧ p < f + n then some ⟨b, if hasSlicePages b then 0xFF else p - f, 0⟩ else findLow p t

/-- The page index of Table 3-3; `none` for a page that it does not list (R81, R91). -/
def pageInfo (p : Nat) : Option PageInfo :=
  if p < 0x800 then findLow p lowPages
  else if p < 0xC00 then sliceSlot ((p - 0x800) / 0x40) ((p - 0x800) % 0x40)
  else none

/-! ### Page numbers by name -/

def pPwr : Nat := 0x000
def pBkp : Nat := 0x001
def pPrs : Nat := 0x002
def pNvs : Nat := 0x003
def pFlt : Nat := 0x004
def pLog : Nat := 0x005
def pEcc : Nat := 0x006
def pMem : Nat := 0x007
def pSem : Nat := 0x012
def pPsw : Nat := 0x026
def pCry : Nat := 0x027
def pTsu : Nat := 0x02A
def pSeg : Nat := 0x038
def pChu : Nat := 0x050
def pBuf : Nat := 0x051
def pSch : Nat := 0x052
def pPol : Nat := 0x053
def pDrp : Nat := 0x054
def pSlc : Nat := 0x055
/-- The CTL page of a control link. -/
def pCtl (l : AB) : Nat := 0x010 + l.num
/-- Mailbox page of channel `i` (Table 4-4). -/
def pMbx (i : Nat) : Nat := 0x013 + i
def pLfr (f : AB) : Nat := 0x020 + f.num
def pAct (f : AB) : Nat := 0x022 + f.num
def pBtx (f : AB) : Nat := 0x024 + f.num
def pOpt (f : AB) : Nat := 0x028 + f.num
def pMac (n : Nat) : Nat := 0x030 + n
/-- The page of classifier lane `n`. -/
def pLane (n : Nat) : Nat := 0x040 + n
def pSeq (n : Nat) : Nat := 0x060 + n
def pChk (n : Nat) : Nat := 0x068 + n
/-- Slot `k` of slice `s` as a device page (Table 3-4). -/
def pSlice (s k : Nat) : Nat := 0x800 + 0x40 * s + k

/-- The byte address of an offset in a device page (Table 3-1). -/
def regAddr (p off : Nat) : Nat := p * 0x1000 + off

/-! ### Fixed capability bits (R558, Table 3-7) -/

/-- DRAIN_SUP. -/
def drainSup : Blk → Bool
  | .btx | .mac | .seg | .cls | .seq | .chk | .slcS | .chuS | .polS | .schS => true
  | _ => false

/-- RESET_SUP. -/
def resetSup : Blk → Bool
  | .mbx | .lfr | .act | .btx | .opt | .mac | .seg | .cls | .schG | .polG | .seq | .chk => true
  | _ => false

/-- HOLD_SUP. -/
def holdSup : Blk → Bool
  | .pwr | .opt => true
  | _ => false

/-- TEST_SUP. -/
def testSup : Blk → Bool
  | .cls | .bufG | .seq | .chk => true
  | _ => false

/-- MIRRORED. -/
def mirrored : Blk → Bool
  | .mac | .seq | .chk | .slcS | .drpS | .bufS | .chuS | .clsS | .polS | .schS => true
  | _ => false

/-! ### The form of a register table -/

/-- The access codes of Table 0-2. -/
inductive Acc where
  | rw | ro | wo | w1c | rc | rwp | rws
deriving DecidableEq, Repr

/-- What a field holds after a reset that reaches it (R5): a value, its old value, or what the non-volatile store holds
(with the factory value). -/
inductive Rst where
  | val (n : Nat)
  | keep
  | nvs (factory : Nat)
deriving DecidableEq, Repr

/-- The legal values of a field (R95). -/
inductive Legal where
  | any
  /-- From `lo` to `hi`. -/
  | rng (lo hi : Nat)
  /-- A multiple of `m` from `lo` to `hi`. -/
  | mul (m lo hi : Nat)
  /-- Two's complement from `lo` to `hi`. -/
  | srng (lo hi : Int)
  /-- One range or the other. -/
  | rng2 (lo hi lo' hi' : Nat)
deriving DecidableEq, Repr

/-- One field of a register table. `act` marks a field whose stored value is always 0 because writing 1 starts an action. -/
structure Fld where
  lo : Nat
  w : Nat
  acc : Acc
  act : Bool
  rst : Rst
  legal : Legal
deriving DecidableEq, Repr

/-- One register, or `cnt` registers `stride` bytes apart. -/
structure Reg where
  off : Nat
  cnt : Nat
  stride : Nat
  flds : List Fld
deriving DecidableEq, Repr

/-- The value `n` of a field of `w` bits is legal (R95). -/
def legalOk (l : Legal) (w n : Nat) : Bool :=
  match l with
  | .any => true
  | .rng lo hi => decide (lo ≤ n ∧ n ≤ hi)
  | .mul m lo hi => decide (lo ≤ n ∧ n ≤ hi ∧ n % m = 0)
  | .srng lo hi => decide (lo ≤ signedOf w n ∧ signedOf w n ≤ hi)
  | .rng2 lo hi lo' hi' => decide ((lo ≤ n ∧ n ≤ hi) ∨ (lo' ≤ n ∧ n ≤ hi'))

/-- A field that a write can change. -/
def Fld.writable (f : Fld) : Bool :=
  match f.acc with
  | .rw | .rwp | .rws | .wo | .w1c => true
  | _ => false

/-- The register of a table that offset `off` names. -/
def findReg (off : Nat) : List Reg → Option Reg
  | [] => none
  | r :: t =>
    if r.off ≤ off ∧ off < r.off + r.cnt * r.stride ∧ (off - r.off) % r.stride = 0 then some r else findReg off t

/-- The range check of R95 over the whole written value. -/
def fieldsOutOfRange (fs : List Fld) (v : Word) : Bool :=
  fs.any (fun f => f.writable && f.acc != .w1c && !legalOk f.legal f.w (bits v f.lo f.w))

/-- A register's value after a plain write of `v`: each field by its access code (Table 0-2). -/
def mergeFields (fs : List Fld) (old v : Word) : Word :=
  fs.foldl (fun acc f =>
    match f.acc with
    | .rw | .rwp | .rws => if f.act then acc else setBits acc f.lo f.w (bits v f.lo f.w)
    | .w1c => setBits acc f.lo f.w (bits (old &&& ~~~ v) f.lo f.w)
    | .ro | .rc => setBits acc f.lo f.w (bits old f.lo f.w)
    | .wo => acc) 0

/-- The old value as MASKED_WRITE merges it: WO, W1C and RC fields count as 0 (R48). -/
def maskedOld (fs : List Fld) (old : Word) : Word :=
  fs.foldl (fun acc f =>
    match f.acc with
    | .wo | .w1c | .rc => setBits acc f.lo f.w 0
    | _ => acc) old

/-- A written value asks something of a field: it stores the field, or writes 1 to an action field. -/
def Fld.asked (f : Fld) (v : Word) : Bool := f.writable && (!f.act || bits v f.lo f.w != 0)

/-- A write touches a field of a gated access code (Table 0-2): every such field of the register but an action field that is written 0
while the value asks something of another field, so that REATTACH alone is no write to SHUTDOWN (assumption 21). -/
def touches (code : Acc) (fs : List Fld) (v : Word) : Bool :=
  fs.any (fun f => f.acc == code && (f.asked v || !fs.any (fun g => g.asked v)))

/-- A register's value at the first start, with the factory values of the non-volatile store. -/
def initWord (fs : List Fld) : Word :=
  fs.foldl (fun acc f =>
    match f.rst with
    | .val n => setBits acc f.lo f.w n
    | .nvs n => setBits acc f.lo f.w n
    | .keep => acc) 0

/-- A register's value after a reset (R5, R179): reset values, kept fields, and the committed value of NVS fields. -/
def resetFields (fs : List Fld) (old committed : Word) : Word :=
  fs.foldl (fun acc f =>
    match f.rst with
    | .val n => setBits acc f.lo f.w n
    | .nvs _ => setBits acc f.lo f.w (bits committed f.lo f.w)
    | .keep => setBits acc f.lo f.w (bits old f.lo f.w)) 0

/-- The register holds a field of the non-volatile store. -/
def hasNvs (fs : List Fld) : Bool :=
  fs.any (fun f => match f.rst with | .nvs _ => true | _ => false)

/-- The register holds a field that a reset leaves alone. -/
def hasKeep (fs : List Fld) : Bool := fs.any (fun f => f.rst == .keep)

/-! ### Short forms for the tables -/

def fRW (lo w n : Nat) (l : Legal := .any) : Fld := ⟨lo, w, .rw, false, .val n, l⟩
def fRO (lo w n : Nat) : Fld := ⟨lo, w, .ro, false, .val n, .any⟩
def fROkeep (lo w : Nat) : Fld := ⟨lo, w, .ro, false, .keep, .any⟩
def fROnvs (lo w n : Nat) : Fld := ⟨lo, w, .ro, false, .nvs n, .any⟩
def fWO (lo w : Nat) (l : Legal := .any) : Fld := ⟨lo, w, .wo, true, .val 0, l⟩
def fW1C (lo w : Nat) : Fld := ⟨lo, w, .w1c, false, .val 0, .any⟩
def fRC (lo w : Nat) : Fld := ⟨lo, w, .rc, false, .val 0, .any⟩
def fRWP (lo w n : Nat) (l : Legal := .any) : Fld := ⟨lo, w, .rwp, false, .val n, l⟩
def fRWPact (lo w : Nat) : Fld := ⟨lo, w, .rwp, true, .val 0, .any⟩
def fRWPnvs (lo w n : Nat) (l : Legal := .any) : Fld := ⟨lo, w, .rwp, false, .nvs n, l⟩
def fRWPkeep (lo w : Nat) (l : Legal := .any) : Fld := ⟨lo, w, .rwp, false, .keep, l⟩
def fRWS (lo w n : Nat) (l : Legal := .any) : Fld := ⟨lo, w, .rws, false, .val n, l⟩
def fRWSact (lo w : Nat) : Fld := ⟨lo, w, .rws, true, .val 0, .any⟩
def fRWSnvs (lo w n : Nat) (l : Legal := .any) : Fld := ⟨lo, w, .rws, false, .nvs n, l⟩
/-- One register. -/
def reg1 (off : Nat) (fs : List Fld) : Reg := ⟨off, 1, 4, fs⟩
/-- `cnt` registers, `stride` bytes apart. -/
def regN (off cnt stride : Nat) (fs : List Fld) : Reg := ⟨off, cnt, stride, fs⟩

end Sys2Proof.Machine
end

