-- ==== Sys2Proof/Machine/RegTables.lean ====
section
/-!
DEFINITION. The register tables: every block register of the spec with its fields, access codes, resets and legal values.

One list per block, in the order of the block's table. The common page header (Table 3-2) is not in these lists: Hdr holds it.
A register whose value the terminal computes from other state is listed as RO here and read through its view (Access.lean).
-/

namespace Sys2Proof.Machine

/-- Tables 1-6, 6-10 and 20-12 (page 0x000). -/
def regsPwr : List Reg :=
  [ reg1 0x100 [fRO 0 3 1, fRO 4 4 1, fRO 8 8 3],
    reg1 0x104 [fRWPact 0 1, fRWSact 1 1],
    reg1 0x108 [fROkeep 0 4, fROkeep 8 8],
    reg1 0x10C [fRO 0 32 0],
    reg1 0x110 [fROkeep 0 4, fROkeep 8 4, fROkeep 12 2],
    regN 0x114 4 4 [fROkeep 0 16],
    reg1 0x124 [fROkeep 0 4, fROkeep 16 16],
    reg1 0x128 [fRWPact 0 1],
    reg1 0x12C [fROkeep 0 32],
    reg1 0x130 [fROkeep 0 10, fROkeep 16 10],
    reg1 0x134 [fROkeep 0 8, fROkeep 8 8, fROkeep 16 16],
    reg1 0x138 [fRWS 0 2 0 (.rng 0 2), fRWS 4 1 0],
    reg1 0x13C [fRWS 0 10 600 (.mul 10 600 950), fRWS 16 10 950 (.mul 10 600 950)],
    reg1 0x140 [fRWS 0 10 800 (.mul 10 600 950)],
    reg1 0x144 [fRWS 0 14 1000 (.rng 100 10000)],
    reg1 0x148 [fRWS 0 8 10 (.rng 5 50), fRWS 8 8 6 (.rng 3 30), fRWS 16 16 100 (.rng 1 10000)],
    reg1 0x14C [fRWS 0 10 100 (.rng 10 1000)],
    reg1 0x150 [fRO 0 3 0, fRO 4 1 0, fRO 5 1 0, fRO 6 1 0],
    reg1 0x154 [fRO 0 16 0],
    reg1 0x158 [fRWPnvs 0 7 0x40, fRWS 8 1 1, fRWS 9 1 0, fRWS 12 2 3 (.rng 1 3)],
    reg1 0x15C [fRWS 0 16 2000 (.rng 100 10000), fRWS 16 8 8 (.rng 2 20)],
    reg1 0x160 [fRO 0 16 0, fRO 16 8 0, fRO 24 8 0],
    reg1 0x164 [fRO 0 16 0, fRO 16 16 0],
    reg1 0x168 [fRWS 0 8 10 (.rng 1 255), fRWS 8 8 100 (.rng 1 255), fRWS 16 8 10 (.rng 1 255)],
    reg1 0x16C [fRWPnvs 0 1 0, fRWPnvs 1 1 0, fRWPnvs 2 1 0],
    reg1 0x180 [fRW 0 12 0],
    reg1 0x184 [fRW 0 12 0],
    reg1 0x188 [fROkeep 0 12],
    reg1 0x18C [fRW 0 8 10 (.rng 1 255)],
    regN 0x200 32 4 [fROkeep 0 32],
    regN 0x300 32 4 [fROkeep 0 32],
    regN 0x380 16 4 [fRO 0 16 0, fRO 16 16 0],
    regN 0x3C0 3 4 [fRO 0 16 0, fRO 16 16 0],
    regN 0x3D0 4 4 [fRO 0 16 0],
    regN 0x400 15 4 [fRO 0 32 0] ]

/-- Table 7-4 and BKP_WAKE_FILTER of Table 20-12 (page 0x001). -/
def regsBkp : List Reg :=
  [ reg1 0x100 [fROkeep 0 1, fROkeep 1 2, fROkeep 3 1, fROkeep 4 1, ⟨5, 1, .w1c, false, .keep, .any⟩, fRO 6 1 0, fRO 8 2 0,
      fRO 10 1 0],
    regN 0x104 3 4 [fROkeep 0 32],
    reg1 0x110 [fRWP 0 32 0],
    reg1 0x114 [fRWP 0 32 0],
    reg1 0x118 [fRWPkeep 0 10 (.rng 50 1000)],
    reg1 0x11C [fRWPact 0 1],
    reg1 0x120 [fRO 0 12 0],
    regN 0x124 4 4 [fROkeep 0 32],
    reg1 0x134 [fROkeep 0 32],
    reg1 0x138 [fROkeep 0 4],
    reg1 0x13C [fRWPact 0 1],
    reg1 0x140 [⟨0, 8, .rw, false, .keep, .rng 1 255⟩],
    regN 0x200 32 4 [fROkeep 0 32],
    regN 0x400 16 4 [fROkeep 0 32] ]

/-- Table 7-5 (page 0x002). -/
def regsPrs : List Reg :=
  [ reg1 0x100 [fRO 0 1 0, fRO 1 2 0, fRO 8 7 0],
    reg1 0x104 [fRWP 0 7 30 (.rng 5 120)],
    reg1 0x108 [fWO 0 1],
    reg1 0x10C [fRWPnvs 0 1 1, fRWPnvs 8 8 50 (.rng 10 200)],
    reg1 0x110 [fRO 0 32 0],
    reg1 0x114 [fRO 0 32 0] ]

/-- Tables 4-11 and 19-3 (page 0x003). -/
def regsNvs : List Reg :=
  [ reg1 0x100 [fROkeep 0 32],
    reg1 0x104 [fWO 0 1, fWO 1 1, fWO 2 1, fWO 3 1],
    reg1 0x108 [fRW 0 19 0 (.mul 64 192 393216)],
    reg1 0x10C [fRWPact 0 1, fRWPact 1 1, fRWPact 2 1],
    reg1 0x110 [fROkeep 0 32],
    reg1 0x114 [fROkeep 0 32],
    reg1 0x118 [fROkeep 0 32],
    reg1 0x11C [fRO 0 13 0],
    reg1 0x140 [fRO 0 32 0],
    reg1 0x144 [fROkeep 0 20],
    reg1 0x148 [fROkeep 0 20],
    reg1 0x14C [fRO 0 6 0, fRO 8 5 0],
    reg1 0x150 [fRO 0 32 0] ]

/-- Table 3-6 and the Keeper counters of the FLT page (page 0x004). -/
def regsFlt : List Reg :=
  [ regN 0x100 8 4 [fRO 0 32 0], regN 0x120 2 4 [fRO 0 32 0] ]

/-- The LOG page (page 0x005). -/
def regsLog : List Reg :=
  [ regN 0x100 2 4 [fRO 0 32 0],
    reg1 0x108 [fRW 0 9 0],
    reg1 0x10C [fRW 0 6 0],
    regN 0x200 8 4 [fROkeep 0 32],
    regN 0x300 8 4 [fROkeep 0 32] ]

/-- Table 18-6 (page 0x006). -/
def regsEcc : List Reg :=
  [ reg1 0x100 [fRWS 0 8 6 (.rng 1 168), fRWS 8 1 1],
    reg1 0x104 [fRO 24 8 0, fRO 12 12 0, fRO 8 4 0],
    reg1 0x108 [fRO 0 32 0],
    reg1 0x10C [fROkeep 0 20],
    reg1 0x110 [fRWS 0 8 3 (.rng 2 255), fRWS 8 16 24 (.rng 1 8760)],
    reg1 0x120 [fRW 0 8 0, fRW 8 4 0, fRW 16 1 0],
    regN 0x124 2 4 [fRW 0 32 0],
    reg1 0x12C [fRW 0 8 0],
    reg1 0x130 [fRW 0 8 0, fRW 8 8 0],
    reg1 0x134 [fROkeep 0 4, fROkeep 8 4],
    reg1 0x1F0 [fW1C 0 8],
    regN 0x200 16 4 [fRO 0 32 0] ]

/-- Table 20-13 (page 0x007). -/
def regsMem : List Reg :=
  [ reg1 0x100 [fRO 0 2 0, fRO 4 1 0, fRO 8 3 0, fRO 16 4 0],
    reg1 0x104 [fRO 0 13 0],
    reg1 0x108 [⟨0, 3, .rw, false, .nvs 4, .rng 1 4⟩],
    reg1 0x10C [fWO 0 1],
    reg1 0x110 [fRWS 0 12 0],
    reg1 0x114 [fRWS 0 13 0 (.rng 0 4096)],
    reg1 0x118 [fRO 0 16 0] ]

/-- Table 2-4 (pages 0x010 and 0x011). The factory link addresses are the model's (assumption 4). -/
def regsCtl (inst : Nat) : List Reg :=
  [ reg1 0x100 [fRO 0 2 0, fRO 4 4 0, fRO 8 4 4],
    reg1 0x104 [fRW 0 7 20 (.rng 5 100)],
    reg1 0x108 [fRW 0 10 20 (.rng 20 1000)],
    reg1 0x10C [fRW 0 17 1000 (.rng 10 100000)],
    reg1 0x110 [fRW 0 7 5 (.rng 0 100)],
    reg1 0x114 [fRW 0 14 1000 (.rng 100 10000)],
    reg1 0x118 [fRWPnvs 0 16 0x0200],
    reg1 0x11C [fRWPnvs 0 32 (if inst = 0 then 0x00000A00 else 0x00000B00)],
    regN 0x120 2 4 [fRO 0 32 0],
    reg1 0x128 [fRWP 0 1 0, fRO 8 1 0],
    reg1 0x12C [fWO 0 1, fRW 1 1 0, fRW 2 1 0],
    regN 0x200 16 4 [fRO 0 32 0],
    regN 0x300 128 4 [fRW 0 32 0] ]

/-- Tables 4-1, 4-3 and 4-6 (page 0x012). -/
def regsSem : List Reg :=
  [ regN 0x100 32 4 [fRO 0 2 0, fRO 2 1 0, fWO 8 1, fWO 9 1, fRO 16 16 0],
    regN 0x180 32 4 [fRW 0 16 0 (.rng 0 60000)],
    regN 0x200 2 4 [fRO 0 32 0],
    regN 0x208 2 4 [fRW 0 32 0],
    reg1 0x210 [fRO 0 1 0],
    regN 0x400 40 4 [fRO 0 32 0],
    regN 0x500 40 4 [fRO 0 32 0],
    reg1 0x600 [fWO 0 1, fWO 1 1],
    reg1 0x604 [fRWP 0 10 16 (.rng 1 1023)],
    reg1 0x608 [fRWP 0 16 1000 (.rng 10 60000)],
    reg1 0x60C [fRO 0 16 0, fRO 16 16 0] ]

/-- Table 4-5 (pages 0x013 to 0x018). -/
def regsMbx : List Reg :=
  [ reg1 0x100 [fRO 0 1 0, fRO 8 5 0, fRO 16 16 0],
    reg1 0x104 [fWO 0 5 (.rng 1 16)],
    reg1 0x108 [fRO 0 32 0],
    regN 0x140 16 4 [fRW 0 32 0] ]

/-- Table 5-5 (page 0x055). -/
def regsSlcG : List Reg :=
  [ reg1 0x100 [fRWPnvs 0 2 3],
    regN 0x104 15 4 [fRWPnvs 0 2 0],
    regN 0x140 2 4 [fRO 0 32 0],
    reg1 0x148 [fRW 0 20 10000 (.rng 100 1000000)],
    reg1 0x14C [fRO 0 32 0],
    regN 0x200 32 4 [fRWPnvs 0 1 0, fRWPnvs 4 4 0, fRWPnvs 8 4 0, fRWPnvs 16 1 0],
    regN 0x300 32 4 [fRO 0 32 0] ]

/-- Table 5-6 (slot 0x00 of each slice). -/
def regsSlcS : List Reg :=
  [ reg1 0x100 [fRWS 0 1 0],
    reg1 0x104 [fRWS 0 20 10000 (.rng 100 1000000)],
    reg1 0x108 [fRWS 0 8 0, fRWS 8 1 0],
    reg1 0x10C [fRWS 0 8 0, fRWS 16 9 0 (.rng 0 256)],
    reg1 0x110 [fRWS 0 7 0, fRWS 8 8 0 (.rng 0 128)],
    reg1 0x114 [fRWS 0 8 0, fRWS 8 9 0 (.rng 0 256)],
    reg1 0x118 [fRWS 0 19 0],
    reg1 0x11C [fRWS 0 19 0],
    reg1 0x120 [fRWS 0 8 0],
    reg1 0x124 [fRWS 0 8 0],
    reg1 0x128 [fRWS 0 12 0],
    reg1 0x12C [fRWS 0 13 0 (.rng 0 4096)],
    reg1 0x180 [fRO 0 4 0, fRO 8 8 0, fRO 16 16 0],
    regN 0x184 2 4 [fRO 0 32 0],
    reg1 0x190 [fRO 0 20 0, fRO 31 1 0],
    reg1 0x194 [fRO 0 32 0] ]

/-- Table 12-5 (pages 0x030 to 0x037). -/
def regsMac : List Reg :=
  [ reg1 0x100 [fRW 0 2 0, fRW 4 1 0, fRW 5 1 0],
    reg1 0x104 [fRO 0 1 0, fRO 1 1 0, fRO 2 1 0, fRO 3 1 0, fRO 4 1 0, fRO 8 8 0, fRO 16 1 0],
    reg1 0x108 [fRW 0 14 9600 (.rng 1518 9600)],
    reg1 0x10C [fRW 0 2 0 (.rng 0 2), fRW 2 1 1, fRW 3 1 0, fRW 16 16 0xFFFF (.rng 1 65535)],
    reg1 0x110 [fRW 0 24 0xFAC688],
    reg1 0x114 [fRW 0 3 0],
    reg1 0x118 [fRW 0 19 512 (.rng 1 262143)],
    reg1 0x11C [fRW 0 19 256 (.rng 0 262142)],
    reg1 0x120 [fRW 0 16 0],
    reg1 0x124 [fRW 0 32 0],
    reg1 0x160 [fRO 0 7 0, fRO 16 16 0],
    regN 0x164 4 4 [fRO 0 32 0],
    regN 0x180 3 4 [fW1C 0 32],
    regN 0x200 144 4 [fRO 0 32 0] ]

/-- The SEG registers of chapter 12 (page 0x038). -/
def regsSeg : List Reg :=
  [ regN 0x100 3 4 [fRO 0 32 0], reg1 0x10C [fRO 0 4 0, fRO 8 4 0, fRO 16 16 0] ]

/-- The lane pages 0x040 to 0x04F, with the dispatcher registers of Table 13-6. -/
def regsCls : List Reg :=
  [ reg1 0x130 [fW1C 0 3],
    regN 0x200 6 4 [fRO 0 32 0],
    reg1 0x400 [fRO 0 16 0xFFFF, fRO 16 5 16],
    reg1 0x404 [fRO 0 16 0],
    reg1 0x408 [fRW 0 7 2 (.rng 1 100)],
    regN 0x40C 2 4 [fRO 0 32 0],
    regN 0x500 8 4 [fRO 0 32 0] ]

/-- The global CHU page (0x050). -/
def regsChuG : List Reg := [ reg1 0x100 [fRO 0 32 0] ]

/-- The CHU slice page (slot 0x05). -/
def regsChuS : List Reg :=
  [ reg1 0x100 [fRWS 0 16 0 (.rng 0 40000)],
    reg1 0x104 [fRWS 0 13 64 (.rng 1 4096)],
    reg1 0x130 [fW1C 0 3],
    regN 0x200 6 4 [fRO 0 32 0] ]

/-- The BUF page of Table 14-4 (0x051). -/
def regsBufG : List Reg :=
  [ regN 0x100 3 4 [fRO 0 19 262144], reg1 0x10C [fRO 0 19 0], reg1 0x110 [fRO 0 20 0], reg1 0x114 [fRO 0 1 0],
    regN 0x118 2 4 [fRO 0 32 0xFFFFFFFF] ]

/-- The BUF slice page of Table 14-5 (slot 0x04). -/
def regsBufS : List Reg :=
  [ reg1 0x100 [fRO 0 19 0], reg1 0x104 [fRC 0 19], reg1 0x108 [fRO 0 19 0] ]

/-- The SCH page of Table 14-4 (0x052); the OVH defaults are those of Table 14-1. -/
def regsSchG : List Reg :=
  [ regN 0x100 32 4 [fRWS 0 8 8 (.srng (-64) 63)],
    regN 0x180 8 4 [fRWS 0 8 20 (.srng (-64) 63)],
    reg1 0x1A0 [fRWS 0 8 0 (.srng (-64) 63)],
    reg1 0x1B0 [fRWS 0 23 1125000 (.rng 1 6250000)] ]

/-- Table 14-6: nodes in subpages 0 to 7 of the SCH slice pages, queues in subpages 8 to 23. -/
def regsSchS (sub : Nat) : List Reg :=
  if sub < 8 then
    [ regN 0x100 32 0x20 [fRWS 0 6 0x3F (.rng2 0 40 63 63), fRWS 8 4 0 (.rng 0 8), fRWS 16 8 1 (.rng 1 255), fRWS 24 2 0],
      regN 0x104 32 0x20 [fRWS 0 23 0 (.rng 0 6250000)],
      regN 0x108 32 0x20 [fRWS 0 23 0 (.rng 0 6250000)],
      regN 0x10C 32 0x20 [fRWS 0 24 16384 (.rng 9664 16777215)],
      regN 0x110 32 0x20 [fRWS 0 24 16384 (.rng 9664 16777215)],
      regN 0x114 32 0x20 [fRWS 0 12 0, fRWS 16 1 0],
      regN 0x118 32 0x20 [fRO 0 19 0] ]
  else
    [ regN 0x100 128 16 [fRWS 0 19 262143, fRWS 24 8 24 (.rng 1 255)],
      regN 0x104 128 16 [fRWS 0 16 0 (.rng 0 65534), fRWS 16 16 0 (.rng 0 65534)],
      regN 0x108 128 16 [fRO 0 19 0],
      regN 0x10C 128 16 [fRO 0 32 0] ]

/-- Table 14-6: policers in the POL slice pages. -/
def regsPolS : List Reg :=
  [ regN 0x100 256 12 [fRWS 0 23 0 (.rng 0 6250000), fRWS 24 1 0],
    regN 0x104 256 12 [fRWS 0 24 0, fRWS 24 8 0 (.srng (-64) 63)],
    regN 0x108 256 12 [fRO 0 32 0] ]

/-- The DRP page of Table 14-4 (0x054). -/
def regsDrpG : List Reg :=
  [ reg1 0x100 [fRO 0 32 0], regN 0x130 2 4 [fW1C 0 32], regN 0x400 128 4 [fRO 0 32 0] ]

/-- The DRP slice pages of Table 14-5 (slots 0x01 to 0x03). -/
def regsDrpS (sub : Nat) : List Reg :=
  if sub = 0 then
    [ reg1 0x100 [fRWS 0 16 0],
      regN 0x104 2 4 [fRWS 0 32 0],
      reg1 0x10C [fRWS 0 1 0, fRWS 1 2 0 (.rng 0 2), fRWS 12 4 0 (.rng 0 10)],
      reg1 0x110 [fRWS 0 32 0],
      reg1 0x114 [fRO 0 32 0],
      reg1 0x118 [fRWS 0 32 0],
      regN 0x11C 3 4 [fRO 0 32 0],
      regN 0x200 22 4 [fW1C 0 32] ]
  else if sub = 1 then [ regN 0x100 880 4 [fRO 0 32 0] ]
  else [ regN 0x100 528 4 [fRO 0 32 0] ]

/-- Tables 13-4 and 13-5 and the rule counters (slots 0x08 to 0x17). -/
def regsClsS (sub : Nat) : List Reg :=
  if sub = 0 then
    [ reg1 0x100 [fRWS 0 13 0],
      reg1 0x104 [fWO 0 2 (.rng 1 3)],
      regN 0x140 19 4 [fRWS 0 32 0],
      regN 0x1C0 19 4 [fRWS 0 32 0],
      regN 0x240 4 4 [fRWS 0 32 0],
      regN 0x300 20 4 [fRWS 0 32 0],
      regN 0x380 20 4 [fRWS 0 32 0],
      regN 0x400 20 4 [fRWS 0 32 0],
      regN 0x480 20 4 [fRWS 0 32 0] ]
  else if sub = 1 then [ regN 0x100 512 4 [fRWS 0 8 0, fRWS 8 3 0, fRWS 16 1 0] ]
  else if sub < 10 then [ regN 0x800 512 4 [fRO 0 32 0] ]
  else []

/-- Table 15-4 (page 0x02A). The factory calibration is the model's (assumption 5). -/
def regsTsu : List Reg :=
  [ reg1 0x100 [fRO 0 3 0, fROkeep 4 1, fRO 5 1 0, fRO 6 1 0],
    reg1 0x104 [fRWS 0 2 0, fRWS 2 1 0, fRWS 16 16 1000],
    reg1 0x108 [fRWS 0 16 1000 (.rng 1 50000)],
    reg1 0x10C [fRWS 0 20 86400 (.rng 1 1000000)],
    regN 0x110 4 4 [fROkeep 0 32],
    reg1 0x120 [fRO 0 32 0],
    reg1 0x124 [fRW 0 16 37],
    reg1 0x128 [fRO 0 32 0],
    reg1 0x130 [fW1C 0 8],
    regN 0x140 2 0x20 [fRW 0 19 0],
    regN 0x144 2 0x20 [fRW 0 32 0],
    regN 0x148 2 0x20 [fRW 0 16 0],
    regN 0x14C 2 0x20 [fRW 0 32 0],
    regN 0x150 2 0x20 [fRW 0 30 0],
    regN 0x154 2 0x20 [fRW 0 32 0],
    regN 0x158 2 0x20 [fRW 0 1 0, fRO 1 1 0],
    regN 0x15C 2 0x20 [fRO 0 32 0],
    regN 0x180 4 8 [fRWSnvs 0 32 0],
    regN 0x184 4 8 [fRWSnvs 0 16 0],
    reg1 0x1A0 [fWO 0 1, fRWS 8 8 64 (.rng 4 255)],
    reg1 0x1A4 [fRO 0 16 0, fRO 16 8 0, fRO 31 1 0],
    reg1 0x1A8 [fRO 0 16 0],
    reg1 0x1B0 [fRWS 0 32 0],
    reg1 0x1B4 [fWO 0 32],
    reg1 0x1B8 [fRWS 0 1 0],
    regN 0x1BC 2 4 [fWO 0 32],
    reg1 0x1C4 [fWO 0 30 (.rng 0 999999999)],
    reg1 0x1C8 [fRW 0 1 0, fRW 1 1 1, fRW 16 10 100 (.rng 1 900)],
    reg1 0x1CC [fRW 0 16 0],
    reg1 0x1D0 [fRW 0 1 0, fRW 1 2 0 (.rng 0 2), fRW 16 10 100 (.rng 10 900)],
    reg1 0x1D4 [fRW 0 1 0, fRW 1 1 0, fRW 2 2 0 (.rng 0 2), fRW 8 8 1 (.rng 1 255)],
    regN 0x1D8 3 4 [fRO 0 32 0],
    reg1 0x1F0 [fRW 0 1 0, fRW 1 2 0 (.rng 0 2), fRO 3 1 1],
    regN 0x200 8 8 [fRW 0 1 0, fRW 1 1 0, fRW 2 1 0],
    regN 0x204 8 8 [fRW 0 16 0, fRW 16 16 0],
    regN 0x300 16 4 [fRO 0 32 0] ]

/-- Table 8-1 (pages 0x020 and 0x021). -/
def regsLfr : List Reg :=
  [ reg1 0x100 [fRW 0 2 0 (.rng 0 2), fRO 4 2 0, fRW 16 16 500 (.rng 100 10000)],
    reg1 0x104 [fRO 0 2 0, fRO 4 2 0, fRO 8 1 0, fRO 9 1 1, fRO 10 1 0, fRO 11 1 0],
    reg1 0x108 [fRW 0 4 2 (.rng 1 8), fRW 4 4 3 (.rng 1 8), fRW 8 3 2 (.rng 0 4)],
    reg1 0x10C [fRW 0 4 2 (.rng 1 8), fRW 8 5 4 (.rng 1 16), fRW 16 16 8 (.rng 1 8000)],
    reg1 0x110 [fRW 0 8 10 (.rng 1 255), fRW 8 1 1],
    reg1 0x114 [fRW 0 16 10 (.rng 1 65535)],
    reg1 0x118 [fRO 0 16 0, fRO 16 1 0],
    reg1 0x11C [fRO 0 19 0],
    reg1 0x120 [fRO 0 32 0],
    reg1 0x124 [fRO 0 16 0],
    reg1 0x130 [fW1C 0 17],
    regN 0x200 34 4 [fRO 0 32 0],
    regN 0x800 512 4 [fRW 0 16 0, fRW 16 4 0, fRW 20 1 0, fRW 21 1 0, fRW 22 1 0] ]

/-- Table 8-4 (page 0x027). -/
def regsCry : List Reg :=
  [ reg1 0x100 [fRO 0 5 0, fRO 8 5 0], regN 0x104 2 4 [fRO 0 32 0], regN 0x200 16 4 [fRO 0 32 0] ]

/-- Table 9-4 (pages 0x022 and 0x023). The vendor-specific serial number is the model's (assumption 11). -/
def regsAct : List Reg :=
  [ reg1 0x100 [fRO 0 4 1, fRO 4 4 0, fRO 8 8 1, fRO 16 10 0, fRO 31 1 0],
    reg1 0x104 [fRO 0 32 0x5753544E],
    reg1 0x108 [fRO 0 32 1],
    reg1 0x10C [fRO 0 32 0],
    reg1 0x110 [fRO 0 16 0, fRO 16 1 0],
    reg1 0x114 [fRO 0 16 35000],
    reg1 0x118 [fRW 0 16 10000 (.rng 1000 60000)],
    reg1 0x11C [fRW 0 14 100 (.rng 10 10000)],
    reg1 0x120 [fRW 0 8 2 (.rng 1 100)],
    reg1 0x124 [fRW 0 16 10000 (.rng 100 60000)],
    reg1 0x130 [fW1C 0 12],
    regN 0x140 9 4 [fRWS 0 32 0],
    reg1 0x180 [fRWS 0 1 0, fWO 1 1, fRO 4 1 0, fRO 5 1 0],
    reg1 0x184 [fRWS 0 16 20 (.rng 1 1000)],
    reg1 0x188 [fRWS 0 16 10 (.rng 1 1000)],
    reg1 0x18C [fRWS 0 16 100 (.rng 0 60000)],
    reg1 0x190 [fRWS 0 12 0, fRO 16 12 0],
    reg1 0x194 [fRO 0 16 0, fRO 16 12 0],
    regN 0x198 2 4 [fRO 0 32 0],
    regN 0x200 24 4 [fRO 0 32 0],
    regN 0x400 256 4 [fRO 0 32 0] ]

/-- Table 10-3 (pages 0x024 and 0x025). -/
def regsBtx : List Reg :=
  [ reg1 0x100 [fRO 0 4 0, fRO 4 2 0, fRO 16 12 0],
    reg1 0x104 [fRO 0 16 0],
    reg1 0x108 [fRW 0 8 40 (.rng 0 200), fRW 8 8 8 (.rng 0 100)],
    reg1 0x10C [fRW 0 8 64 (.mul 4 16 252), fRW 16 6 20 (.rng 10 60)],
    reg1 0x110 [fRO 0 1 0, fRO 1 1 1],
    reg1 0x130 [fW1C 0 12],
    regN 0x180 32 4 [fRO 0 14 0, fRO 16 1 0, fRO 17 1 0],
    regN 0x200 32 4 [fRWS 0 14 0, fRWS 16 1 0],
    regN 0x300 32 4 [fRO 0 24 0],
    regN 0x400 24 4 [fRO 0 32 0] ]

/-- Table 10-4 (page 0x026). -/
def regsPsw : List Reg :=
  [ reg1 0x100 [fRO 0 1 0, fRO 4 2 0, fRO 8 2 0, fRO 12 1 0, fRO 16 4 0],
    reg1 0x104 [fRO 0 8 0xFF, fRO 8 8 0xFF],
    reg1 0x108 [fRWS 0 3 0 (.rng 0 4), fRWS 4 1 0, fRWS 5 1 0],
    reg1 0x10C [fRWS 0 1 0, fRWS 1 1 0, fRWS 16 12 300 (.rng 1 3600)],
    reg1 0x110 [fRO 0 1 0, fRO 1 1 0],
    reg1 0x114 [fRO 0 32 0],
    reg1 0x118 [fRO 0 8 0],
    reg1 0x11C [fRO 0 16 0, fRO 16 12 0] ]

/-- Table 11-3 (pages 0x028 and 0x029). OPT_LIFE_CFG is one register; its home is cage A's page. -/
def regsOpt : List Reg :=
  [ reg1 0x100 [fRO 0 1 0, fRO 1 1 0, fRO 2 1 0, fRO 3 1 0, fRO 4 1 0, fRO 8 2 0, fRO 12 2 0, fRO 16 4 0],
    reg1 0x104 [fRW 0 1 0, fRW 1 1 1],
    reg1 0x108 [fRW 0 2 0],
    reg1 0x10C [fRW 0 16 1000 (.rng 100 60000)],
    reg1 0x110 [fRWPnvs 0 19 100000 (.rng 1000 500000)],
    reg1 0x114 [fRW 0 8 20 (.rng 1 255)],
    reg1 0x118 [fRW 0 10 300 (.rng 50 1000)],
    regN 0x120 4 4 [fRO 0 32 0],
    regN 0x130 4 4 [fRO 0 32 0],
    regN 0x140 4 4 [fRO 0 32 0],
    reg1 0x150 [fRO 0 32 0],
    regN 0x160 2 4 [fRO 0 16 0, fRO 16 16 0],
    reg1 0x168 [fRO 0 16 0],
    reg1 0x16C [fRO 0 16 0, fRO 16 16 0],
    regN 0x180 16 4 [fRO 0 32 0],
    reg1 0x1C0 [fRO 0 16 0],
    reg1 0x1C4 [fRO 0 9 0, fRO 12 4 0, fROkeep 16 16],
    reg1 0x1C8 [fRW 0 8 0],
    regN 0x200 16 4 [fRO 0 32 0] ]

/-- Table 16-5 (pages 0x060 to 0x067). -/
def regsSeq : List Reg :=
  [ reg1 0x100 [fRO 0 3 0, fRO 8 4 0, fRO 16 3 0],
    reg1 0x104 [fRO 0 32 0],
    reg1 0x108 [fRO 0 32 0],
    reg1 0x10C [fRWS 0 25 0],
    reg1 0x110 [fRWS 0 32 0],
    reg1 0x114 [fRWS 0 25 0 (.rng 0 16777216)],
    reg1 0x118 [fRWS 0 24 100000 (.rng 100 10000000), fRWS 31 1 0],
    reg1 0x11C [fWO 0 1, fWO 1 1],
    reg1 0x120 [fRO 0 16 0, fRO 16 16 0],
    reg1 0x124 [fRW 2 11 0],
    reg1 0x128 [fRW 0 32 0],
    regN 0x130 4 4 [fRW 0 13 0, fRW 16 1 0, fRW 17 1 0],
    regN 0x140 32 4 [fRO 0 32 0],
    reg1 0x1C0 [fRO 0 4 0, fRO 4 4 0, fRO 8 6 0],
    reg1 0x1D0 [fW1C 0 15],
    regN 0x200 30 4 [fRO 0 32 0] ]

/-- Table 17-1 (pages 0x068 to 0x06F); channel 0 is fixed (R479). -/
def regsChk (inst : Nat) : List Reg :=
  (if inst = 0 then [ reg1 0x100 [fRO 0 32 0x1EDC6F41], reg1 0x104 [fRO 0 32 0x720], reg1 0x108 [fRO 0 32 0xFFFFFFFF] ]
   else
    [ reg1 0x100 [fRWS 0 32 0x1EDC6F41],
      reg1 0x104 [fRWS 0 6 32 (.rng 8 32), fRWS 8 1 1, fRWS 9 1 1, fRWS 10 1 1],
      reg1 0x108 [fRWS 0 32 0xFFFFFFFF] ]) ++
  [ reg1 0x10C [fRWS 0 16 0],
    reg1 0x110 [fRW 0 32 0],
    reg1 0x114 [fWO 0 1, fWO 1 1],
    reg1 0x120 [fWO 0 8],
    reg1 0x124 [fWO 0 16],
    reg1 0x128 [fWO 0 32],
    reg1 0x130 [fRO 0 32 0],
    reg1 0x134 [fRO 0 2 0, fRO 2 1 0, fRO 3 1 0, fRO 4 4 0, fRO 16 16 0],
    reg1 0x1F0 [fW1C 0 5],
    regN 0x200 10 4 [fRO 0 32 0] ]


/-- The register table of a page. -/
def blkRegs (i : PageInfo) : List Reg :=
  match i.blk with
  | .pwr => regsPwr | .bkp => regsBkp | .prs => regsPrs | .nvs => regsNvs | .flt => regsFlt | .log => regsLog
  | .ecc => regsEcc | .mem => regsMem | .ctl => regsCtl i.inst | .sem => regsSem | .mbx => regsMbx
  | .lfr => regsLfr | .act => regsAct | .btx => regsBtx | .psw => regsPsw | .cry => regsCry | .opt => regsOpt
  | .tsu => regsTsu | .mac => regsMac | .seg => regsSeg | .cls => regsCls
  | .chuG => regsChuG | .bufG => regsBufG | .schG => regsSchG | .polG => [] | .drpG => regsDrpG | .slcG => regsSlcG
  | .seq => regsSeq | .chk => regsChk i.inst
  | .slcS => regsSlcS | .drpS => regsDrpS i.sub | .bufS => regsBufS | .chuS => regsChuS | .clsS => regsClsS i.sub
  | .polS => regsPolS | .schS => regsSchS i.sub

/-- The fields of the register at an offset of a page; none at a reserved offset (R82). -/
def fieldsAt (p off : Nat) : List Fld :=
  match pageInfo p with
  | none => []
  | some i => match findReg off (blkRegs i) with
    | none => []
    | some r => r.flds

/-- The value of a register at the first start, by device byte address. -/
def resetWord (a : Nat) : Word := initWord (fieldsAt (a / 0x1000) (a % 0x1000))

end Sys2Proof.Machine
end

