-- ==== Sys2Proof/Machine/State.lean ====
section
/-!
DEFINITION. The state of the terminal, as plain data, and the machine right after reset.

Registers stand in one sparse table keyed by device byte address; what a typed part below holds is read through a view and
stands in no register entry, so that every value has one home.
The parts follow the chapters of the spec: power, backup domain, non-volatile store, control links, masters, mailboxes and
Keeper, slices, line, activation, upstream, optics, ports, classification, buffer, time, sequencers, check units, memories.
-/

namespace Sys2Proof.Machine

/-! ### Outcomes and statuses -/

/-- The reasons a step can stop with a fault. -/
inductive Fault where
  /-- No command raises it: every command of the spec has an effect. It keeps the type inhabited; safe. -/
  | unreachable
deriving DecidableEq, Repr

/-- The reasons a command can be refused. -/
inductive Refusal where
  /-- Raised by exec's arm of a command that has no meaning yet; safe. -/
  | notModelled (mnemonic : String)
deriving DecidableEq, Repr

/-- The outcome type of this machine. -/
abbrev Result (σ : Type) := Host.Outcome σ Fault Refusal

/-- Transaction status codes (Table 0-3). -/
inductive Status where
  | ok | range | denied | frozen | timeout | poison | busy | unconfirmed
deriving DecidableEq, Repr

/-- The STATUS byte of a response record. -/
def Status.code : Status → Nat
  | .ok => 0 | .range => 1 | .denied => 2 | .frozen => 3 | .timeout => 4 | .poison => 5 | .busy => 6 | .unconfirmed => 7

/-- Causes of a DENIED status (Table 3-6). -/
inductive Cause where
  | none | ownership | presence | semaphore | emptySlot
deriving DecidableEq, Repr

/-- The CAUSE code of Table 3-6. -/
def Cause.code : Cause → Nat
  | .none => 0 | .ownership => 1 | .presence => 2 | .semaphore => 3 | .emptySlot => 4

/-- The last single-word transaction a master ran: its status, its data, and the cause of a DENIED. The model's own field. -/
structure Txn where
  status : Status
  data : Word
  cause : Cause
deriving DecidableEq, Repr

/-! ### The common page header (Table 3-2) -/

/-- PAGE_STATE.STATE. -/
inductive PageState where
  | idle | active | draining | flushing | resetting | fenced
deriving DecidableEq, Repr

/-- The STATE code. -/
def PageState.code : PageState → Nat
  | .idle => 0 | .active => 1 | .draining => 2 | .flushing => 3 | .resetting => 4 | .fenced => 5

/-- SELFTEST_RESULT.STATUS. -/
inductive TestStatus where
  | none | running | pass | fail
deriving DecidableEq, Repr

/-- The STATUS code of SELFTEST_RESULT. -/
def TestStatus.code : TestStatus → Nat
  | .none => 0 | .running => 1 | .pass => 2 | .fail => 3

/-- What a page header holds beside its fixed bits. -/
structure Hdr where
  state : PageState
  enable : Bool
  drain : Bool
  localHold : Bool
  testing : Bool
  intRaw : Word
  intEnable : Word
  faultCode : Nat
  faultMore : Nat
  faultDetail : Word
  testUnit : Nat
  testStatus : TestStatus
  testAuto : Bool
  testResUnit : Nat
  testDetail : Nat
  lockSem : Nat
  lockBound : Bool
  /-- Time in µs since the drain of this page was started. -/
  drainUs : Nat
  /-- A drain has been started since the page was last enabled or reset (Table 5-4). -/
  stopped : Bool
  /-- The limit of the present drain has expired (Table 5-6). -/
  limited : Bool
deriving DecidableEq, Repr

/-- A page header after reset (Table 3-2, R558): scope 0 and 3 pages are ACTIVE with ENABLE 1, scope 1 and 2 pages IDLE. -/
def hdrReset (p : Nat) : Hdr :=
  let b := (pageInfo p).map PageInfo.blk
  let on := match b with
    | some k => decide (blkScope k = 0 ∨ blkScope k = 3)
    | none => false
  { state := if on then .active else .idle, enable := on, drain := false,
    localHold := match b with | some k => holdSup k | none => false,
    testing := false, intRaw := 0, intEnable := 0, faultCode := 0, faultMore := 0, faultDetail := 0, testUnit := 0xFF,
    testStatus := .none, testAuto := false, testResUnit := 0, testDetail := 0, lockSem := 0, lockBound := false,
    drainUs := 0, stopped := false, limited := false }

/-! ### Modes (Table 1-3) -/

/-- The sub-states of ATTACH. -/
inductive AttachSub where
  | o1 | o23 | o4 | o7
deriving DecidableEq, Repr

/-- The sub-states of SERVICE. -/
inductive ServSub where
  | normal | doze | pswitch | rerange
deriving DecidableEq, Repr

/-- The sub-states of HOLDOVER. -/
inductive HoldSub where
  | lost | regain
deriving DecidableEq, Repr

/-- The four modes with their sub-states. -/
inductive Mode where
  | dormant
  | attach (sub : AttachSub)
  | service (sub : ServSub)
  | holdover (sub : HoldSub)
deriving DecidableEq, Repr

/-- The MODE code of Table 1-3. -/
def Mode.code : Mode → Nat
  | .dormant => 0 | .attach _ => 1 | .service _ => 2 | .holdover _ => 3

/-- The SUB code of Table 1-3. -/
def Mode.sub : Mode → Nat
  | .dormant => 0
  | .attach .o1 => 1 | .attach .o23 => 2 | .attach .o4 => 4 | .attach .o7 => 7
  | .service .normal => 0 | .service .doze => 1 | .service .pswitch => 2 | .service .rerange => 3
  | .holdover .lost => 0 | .holdover .regain => 1

/-! ### Power and start-up (chapter 6) -/

/-- Where the terminal stands between no power and running logic. -/
inductive Phase where
  /-- No main power, or VIO lost: only the backup domain runs. -/
  | unpowered
  /-- MAIN_EN deasserted: DORMANT. -/
  | dormant
  /-- The start-up sequencer is in step 1, 2, 3 or 4 of Table 6-2. -/
  | step1 | step2 | step3 | step4
  /-- A step failed; the sequencer waits 100 ms (R176). -/
  | failed
  /-- LOGIC_READY. -/
  | running
  /-- The controlled power-down of Table 6-9 is under way. -/
  | powerDown
deriving DecidableEq, Repr

/-- Why VCORE is being moved: the REASON of Table 6-11. -/
inductive VReason where
  | start | short | headroom | floor | ceil | host | recover
deriving DecidableEq, Repr

/-- The REASON code of Table 6-11. -/
def VReason.code : VReason → Nat
  | .start => 1 | .short => 2 | .headroom => 3 | .floor => 4 | .ceil => 5 | .host => 6 | .recover => 7

/-- A voltage step that waits for its acknowledgement (R193). -/
structure VStep where
  target : Nat
  up : Bool
  reason : VReason
  /-- The unit that caused it, coded as in Table 6-11. -/
  unit : Nat
  /-- Times it has been sent again (R194). -/
  retries : Nat
  /-- The command has been sent; false while it waits for PMBUS_RETRY. -/
  sent : Bool
  /-- Its FAILED entry has been written (R191). -/
  told : Bool
deriving DecidableEq, Repr

/-- Power, start-up and the voltage loop. -/
structure PowerSt where
  phase : Phase
  mode : Mode
  lastCause : Nat
  /-- The transition cause that the wake entry will record (Table 1-5). -/
  wakeCause : Nat
  /-- The PWR_RESET_CAUSE code of the start under way (Table 6-3). -/
  resetCause : Nat
  /-- Failed attempts of this start so far (R176). -/
  tries : Nat
  /-- The start failure record of the backup domain: step and attempts (R176, R205). -/
  failRec : Nat × Nat
  /-- Main power or VIO was lost without a controlled stop, and no wake has recorded it yet (R30). -/
  lossUnrecorded : Bool
  /-- The master whose accepted RESET_CMD waits for its response to leave (R181). -/
  hostReset : Option AB
  /-- The outstanding voltage step. -/
  step : Option VStep
  stalled : Bool
  /-- The start-up exchange of Table 6-7 has succeeded since LOGIC_READY (R192, R194). -/
  pmbUp : Bool
  /-- What the regulator answers at the start-up exchanges to come; none left: nothing (assumption 47). -/
  pmbNext : List (Option PmbStart)
  /-- Retries so far of the present command that belongs to no step (R194). -/
  cmdRetries : Nat
  /-- Consecutive periods in headroom (R187). -/
  headRun : Nat
  /-- The last acknowledged step had reason SHORT, and no PACE window has ended since: the next one that still shows a shortfall
  brings the next request at once (R187). -/
  chase : Bool
  /-- Units that have been short, with VSET at the ceiling or the loop STALLED, since the last period ended (R202). -/
  shortRun : List Nat
  /-- The last period raised PACE_SHORT (R202). -/
  paceShort : Bool
  /-- Index of the next PWR_VHIST entry. -/
  vhist : Nat
  /-- Writes of R203 that wait for the outstanding step. -/
  deferred : List (Nat × Word)
  /-- The values at which the GPIO and LED pads are held: levels and drive enables (R197). -/
  pads : Word × Word
  vauxLow : Bool
  refclkAbsent : Bool
deriving DecidableEq, Repr

/-! ### Backup domain (chapter 7) -/

/-- The live part of the backup domain that is no register. -/
structure BackupSt where
  /-- TAI seconds of the RTC (R210). -/
  rtcSec : Nat
  /-- The RTC fraction, in units of 1 / 32 768 s. -/
  rtcSub : Nat
  /-- Microseconds counted toward the next RTC fraction, times 32 768 (model's own). -/
  rtcAcc : Nat
  /-- Consecutive sample pairs that were not good, counted up to two: a break is declared (R214). -/
  badRun : Nat
  /-- The strap has been sampled since the backup domain powered up (R217). -/
  strapSeen : Bool
  /-- Microseconds left in the press window (R218); 0 when none is open. -/
  pressUs : Nat
  /-- SEQ of the next tamper entry (Table 7-2). -/
  tamperSeq : Nat
  /-- A tamper entry was written while the logic domain was off (R223). -/
  tamperOff : Bool
  /-- The seal state changed while the logic domain was off (R233). -/
  sealOff : Bool
  /-- The contents of the backup record have changed since it was last written (R225). -/
  dirty : Bool
  /-- What R226 has added to WAKES, LOSSES, TAMPERS and PRESSES since the backup domain powered up. -/
  base : List Nat
deriving DecidableEq, Repr

/-! ### Non-volatile store (chapter 19) -/

/-- What waits for the write cap of R522. -/
inductive NvItem where
  /-- A register field whose reset value is NVS, by device address. -/
  | reg (addr : Nat)
  /-- COMMITTED, CONFIRMED, TRIAL and TRIES of the firmware (R135). -/
  | firmware
  /-- The life record of one cage's module (R336). -/
  | life (cage : Nat)
  /-- The oldest record of a module that has left a cage (R336). -/
  | left (cage : Nat)
  /-- The hourly checkpoint of the backup counters and life records (R229). -/
  | checkpoint
  /-- The spare map of one bank (R504). -/
  | spares (mem bank : Nat)
deriving DecidableEq, Repr

/-- The firmware fields that the non-volatile store holds (R135). Images: 0 ROM, 1 slot 1, 2 slot 2. -/
structure FwNv where
  committed : Nat
  confirmed : Nat
  trial : Bool
  tries : Nat
deriving DecidableEq, Repr

/-- A module life record (Table 11-2); the CRC of its word 15 is computed. -/
structure LifeRec where
  sn : List Byte
  vendor : List Byte
  laserOn : Nat
  bursts : Nat
  inserts : Nat
  tmax : Int
  tmin : Int
  life : Nat
  firstSeen : Nat
  lastSeen : Nat
  gen : Nat
deriving DecidableEq, Repr

/-- The non-volatile store. -/
structure NvsSt where
  /-- Committed values of NVS registers, by device address; the default is the factory value. -/
  committed : Tbl Word
  /-- Deferred and pending writes, oldest first (R522). -/
  pend : List NvItem
  /-- Stored history entries, oldest first, at most 16 (R29). -/
  hist : List (Word × Word)
  /-- History entries waiting, oldest first, at most 16 (R522). -/
  histQ : List (Word × Word)
  /-- Committed firmware choice. -/
  fw : FwNv
  /-- Stored life records, at most 256 (R335). -/
  life : List LifeRec
  /-- The key of the module last recorded for each cage (R338). -/
  cageKey : Pair (List Byte)
  /-- The last checkpoint of WAKES, LOSSES, TAMPERS and PRESSES (R229). -/
  checkpoint : List Nat
  /-- Committed spare maps: spares used, keyed by 256 × MEM_ID + bank (R504). -/
  spares : Tbl Nat
  /-- The stored ring of log entries, oldest first, at most 64 (R512). -/
  logRing : List (List Word)
  /-- The packet count of R180, marked unused; `none` once it is used. -/
  stopLoss : Option Nat
  /-- Clock times, in µs, of the block writes of the last 60 s (R522). -/
  stamps : List Nat
  /-- DEFERRING has been raised for the current deferral (R522). -/
  deferring : Bool
  /-- Writes of each block of the store since it was first programmed; which block the wear levelling picks is a free value. -/
  wear : Tbl Nat
deriving DecidableEq, Repr

/-! ### Control links (chapter 2) -/

/-- CTL_LINK_STATE.STATE. -/
inductive LinkState where
  | down | resync | up
deriving DecidableEq, Repr

/-- The STATE code of Table 2-4. -/
def LinkState.code : LinkState → Nat
  | .down => 0 | .resync => 1 | .up => 2

/-- A record that the terminal sends: TYPE, STATUS or FLAGS, and the words after word 0 (Table 2-3). `ring` is the slice whose Skim
ring a CENSUS record was copied from, 0 in every other record; it is not sent (R412). -/
structure Rec where
  ty : Nat
  st : Nat
  body : List Word
  ring : Nat
deriving DecidableEq, Repr

/-- A frame that the terminal sends on a control link (Table 2-1): its fields, and its bytes from DA through the pad, as they leave. -/
structure TxFrame where
  da : Nat
  sa : Nat
  epoch : Nat
  kind : Nat
  flags : Nat
  seq : Nat
  ack : Nat
  recs : List Rec
  bytes : List Byte
deriving DecidableEq, Repr

/-- A queued EVENT record (R68), kept open until it leaves. -/
structure Ev where
  page : Nat
  summary : Bool
  seq : Nat
  pend : Word
  sec : Word
  ns : Word
deriving DecidableEq, Repr

/-- An open DATA_TX chain (R71). `refused` holds the status of a send that was refused at an earlier record. -/
structure Chain where
  slice : Nat
  total : Nat
  desc : List Word
  bytes : List Byte
  refused : Option Status
  /-- A record after FIRST carried a descriptor (Table 12-4, cause 2). -/
  late : Bool
deriving DecidableEq, Repr

/-- One control link. -/
structure LinkSt where
  /-- PCS block lock is present and no fault persists (R57). -/
  lock : Bool
  state : LinkState
  epoch : Nat
  cause : Nat
  /-- The peer address (R42, R43). -/
  peer : Option Nat
  /-- EPOCH and source address of the RESET RESYNC that opened the present epoch (R59). -/
  opener : Option (Nat × Nat)
  /-- A frame of the present epoch other than RESYNC has been received since it opened (R59). -/
  heard : Bool
  /-- The terminal initiated the re-synchronisation and waits for RESYNC_ACK (R58). -/
  waiting : Bool
  /-- The RESYNC under way is the one that follows a reset (R58). -/
  afterReset : Bool
  /-- The link was up or re-synchronising when CTL_LINKDOWN ran out, so that its return has cause LINK_DOWN (R79). -/
  fell : Bool
  /-- The next SEQ that the terminal will use (R51). -/
  nextSeq : Nat
  /-- The next SEQ that the terminal expects (R52). -/
  expSeq : Nat
  /-- Last SEQ delivered in the old epoch: the ACK of RESYNC and RESYNC_ACK (Table 2-2). -/
  oldAck : Nat
  /-- When UP was last left: the oldest unacknowledged SEQ and how many frames were unacknowledged (R53, R62). The model's own. -/
  oldWin : Option (Nat × Nat)
  /-- Unacknowledged DATA frames, oldest first: SEQ and records (R51). -/
  replay : List (Nat × List Rec)
  replayRun : Nat
  /-- Old-epoch responses and ERROR records that had not been seen acknowledged, each with the SEQ of its frame; none for one that
  had not been sent (R62). -/
  unconf : List (Option Nat × Rec)
  /-- Responses and ERROR records waiting to be sent. -/
  resp : List Rec
  events : List Ev
  omci : List Rec
  rx : List Rec
  census : List Rec
  evtSeq : Nat
  chain : Option Chain
  /-- A re-synchronisation with cause HOST_CMD follows once this many responses have left (R57). -/
  hostResync : Option Nat
  /-- Link addresses that were replaced, each with the number of responses after which it is no longer used (R41). -/
  macOld : List (Nat × Nat)
  /-- Delivered frames have not been acknowledged yet (R54). -/
  ackOwed : Bool
  /-- The expected value for which the last NAK went out, and when (R52). -/
  nak : Option (Nat × Nat)
  /-- The terminal is stalled under R51. -/
  stalled : Bool
deriving DecidableEq, Repr

/-! ### Masters (chapter 4) -/

/-- One semaphore (Table 4-1). `lease` is the time left in ms; `none` when no lease runs. -/
structure Sem where
  holder : Option AB
  expired : Bool
  gen : Nat
  leaseUs : Option Nat
deriving DecidableEq, Repr

/-- A semaphore after reset. -/
def Sem.free : Sem := ⟨none, false, 0, none⟩

/-- One queued write of a freeze record (R115). -/
structure QWrite where
  tag : Nat
  type : Nat
  hi : Nat
  lo : Nat
deriving DecidableEq, Repr

/-- A master's freeze record (Table 4-3). -/
structure Freeze where
  frozen : Bool
  cause : Nat
  freezes : Nat
  addr : Nat
  type : Nat
  slice : Nat
  tag : Nat
  seq : Nat
  sec : Word
  ns : Word
  discarded : Nat
  refused : Nat
  queued : List QWrite
deriving DecidableEq, Repr

/-- A freeze record after reset. -/
def Freeze.clear : Freeze := ⟨false, 0, 0, 0, 0, 0, 0, 0, 0, 0, 0, 0, []⟩

/-- Semaphores, ties, freezes and malformed counts. -/
structure MastersSt where
  sems : Tbl Sem
  /-- SEM_TIE.NEXT. -/
  tie : AB
  frz : Pair Freeze
  malf : Pair Nat
  /-- The window length in force, in µs (R113). -/
  malfWin : Nat
  /-- Microseconds until the present window ends. -/
  malfLeft : Nat
deriving DecidableEq, Repr

/-- A mailbox channel's status (Table 4-5); its data words are registers. -/
structure Mbx where
  full : Bool
  len : Nat
  sent : Nat
deriving DecidableEq, Repr

/-- An empty mailbox. -/
def Mbx.empty : Mbx := ⟨false, 0, 0⟩

/-- A capture entry of the Keeper (R128). -/
structure Capture where
  seq : Nat
  bytes : List Byte
  len : Nat
  slice : Nat
  srcPort : Nat
  rule : Nat
  second : Bool
  sec : Word
  ns : Word
deriving DecidableEq, Repr

/-- The Keeper. -/
structure KeeperSt where
  /-- The Keeper has started since the last reset. -/
  started : Bool
  /-- Seconds since the last Keeper start, and the µs toward the next. -/
  upSec : Nat
  upUs : Nat
  /-- Keeper starts since the last reset (Table 4-8). -/
  starts : Nat
  /-- Requests taken and not yet answered, in order, by master (R127). -/
  taken : Pair (List (List Word))
  /-- Replies held while the channel is FULL, at most four (R129). -/
  held : Pair (List (List Word))
  capture : List Capture
  /-- SEQ of the next capture entry. -/
  capSeq : Nat
  /-- Punted packets waiting for the Keeper (R378). -/
  puntQ : List Capture
  /-- Clock times, in µs, of the watchdog restarts of the last 10 min (R178). -/
  restarts : List Nat
deriving DecidableEq, Repr

/-- NVS_FW_STATE.LOAD. -/
inductive FwLoad where
  | idle | checking | writing | loaded | bad
deriving DecidableEq, Repr

/-- The LOAD code of Table 4-11. -/
def FwLoad.code : FwLoad → Nat
  | .idle => 0 | .checking => 1 | .writing => 2 | .loaded => 3 | .bad => 4

/-- The firmware part of the NVS block (Table 4-11). -/
structure FwSt where
  running : Nat
  nv : FwNv
  load : FwLoad
  badCause : Nat
  target : Nat
  /-- Bytes of the image that the present or last load names (R134). -/
  len : Nat
  stager : Option AB
  /-- The image bytes in slots 1 and 2; empty when erased. -/
  slot1 : List Byte
  slot2 : List Byte
  ver1 : Word
  ver2 : Word
  /-- The Keeper stopped on a watchdog expiry while it ran the trial image (R136). -/
  trialDied : Bool
deriving DecidableEq, Repr

/-! ### Packets, ports, classification and buffer (chapters 12 to 14) -/

/-- A word of an on-chip memory (Table 18-1). -/
structure MemLoc where
  mem : Nat
  bank : Nat
  row : Nat
  word : Nat
deriving DecidableEq, Repr

/-- The state of a packet's cells: clean, an error that stands in a word of one of them and that nothing has read yet, or poisoned
there (R491, R496). -/
inductive CellErr where
  | clean
  | upset (l : MemLoc) (bits : List Nat)
  | poisoned (l : MemLoc)
deriving DecidableEq, Repr

/-- The cells are poisoned. -/
def CellErr.bad : CellErr → Bool
  | .poisoned _ => true
  | _ => false

/-- A packet inside the terminal: its bytes from the destination address up to, not including, the FCS, and what travels
with it. -/
structure Pkt where
  bytes : List Byte
  slice : Nat
  /-- SRC_PORT: 0 to 7 client, 8 line, 9 host, 10 sequencer (Table 2-3). -/
  src : Nat
  /-- The second, Churn pass (R381). -/
  second : Bool
  /-- The priority: the PCP of the outer tag until a rule sets it (R375). -/
  pri : Nat
  /-- The PCP of the outer tag as received; none for an untagged frame (R354). -/
  pcp : Option Nat
  sec : Word
  ns : Word
  frac : Nat
  /-- The key of the parser, words W0 to W18 (Table 13-2). -/
  key : List Word
  /-- The inner headers of a VXLAN packet as key words W1 to W18, kept for an INNER pass (R386). -/
  inner : Option (List Word)
  /-- The dispatcher CRC of R387. -/
  flow : Word
  /-- Absolute index of the rule that queued it (R401). -/
  rule : Option Nat
  /-- TS_ID of a send that asked for a transmit timestamp (R361). -/
  tsId : Option Nat
  /-- Built by segmentation (Table 12-7). -/
  segment : Bool
  /-- The buffer banks of its cells, first cell first (R397). -/
  banks : List Nat
  /-- The worst state of its cells (R496). -/
  cell : CellErr
  /-- The target node, relative to its slice, and queue, once decided (Table 14-3). -/
  target : Option (Nat × Nat)
  /-- A bound sequencer has already copied it, or it came from that sequencer (R467). -/
  fromSeq : Option Nat
deriving DecidableEq, Repr

/-- The length L of R397: destination address through FCS, a short host frame counted with its padding. -/
def Pkt.len (p : Pkt) : Nat := (if p.bytes.length < 60 then 60 else p.bytes.length) + 4

/-- The cells that a packet of its length takes (R397). -/
def Pkt.cells (p : Pkt) : Nat := (p.len + 127) / 128

/-- An installed rule (R373): key, mask and action words, and the DST of its permit when it was installed (R155). -/
structure Rule where
  key : List Word
  mask : List Word
  act : List Word
  dst : Nat
deriving DecidableEq, Repr

/-- An entry that nobody has written reads as zeros. -/
def Rule.zero : Rule := ⟨List.replicate 19 0, List.replicate 19 0, List.replicate 4 0, 0⟩

/-- A packet that waits for its second pass (R381), with the permit and the DST of a pass that crosses (R382). -/
structure Pass where
  pkt : Pkt
  permit : Option (Nat × Nat)
deriving DecidableEq, Repr

/-- A classifier lane: its packets, the first up to 8 in flight and the rest in its input queue (R389). -/
structure Lane where
  q : List Pkt
  /-- The lane has left the spread (R388). -/
  out : Bool
deriving DecidableEq, Repr

/-- A transmit timestamp entry (Table 12-6). -/
structure TsEntry where
  id : Nat
  secHi : Nat
  sec : Word
  ns : Word
  frac : Nat
deriving DecidableEq, Repr

/-- What a client port holds beside its registers. -/
structure MacPort where
  /-- Frames that the scheduler has released and that have not left yet. -/
  txq : List Pkt
  tsq : List TsEntry
  /-- The priorities for which XOFF stands, one bit each; bit 8 for 802.3x pause (R354). -/
  xoff : Nat
  /-- Quanta of the received pauses in effect, by priority; key 8 for 802.3x pause (R353). -/
  quanta : Tbl Nat
  /-- The PCS has block lock or alignment and auto-negotiation, where it runs, has completed (R347). -/
  lock : Bool
deriving DecidableEq, Repr

/-- An idle client port. -/
def MacPort.empty : MacPort := ⟨[], [], 0, [], false⟩

/-- A sampled discard that waits for LPDDR4X (R416): its slice and words 1 to 7 of its record. -/
structure SkimWait where
  slice : Nat
  body : List Word
deriving DecidableEq, Repr

/-- Classification. -/
structure ClsSt where
  rules : Tbl Rule
  lanes : Tbl Lane
  /-- The lane of each of the 64 buckets (R388). -/
  buckets : List Nat
  /-- Packets admitted to the Churn that wait for their second pass. -/
  churnQ : List Pass
  /-- Packets that the dispatcher holds, in their order: the lane of their bucket is full, or packets of the bucket are still on the
  lane that it has left (R387, R389). -/
  waiting : List Pkt
deriving DecidableEq, Repr

/-- Buffer, scheduler, policers and Skim sampling. -/
structure BufSt where
  /-- Service queues by 8 × absolute node + queue. -/
  queues : Tbl (List Pkt)
  /-- The bank that takes the next cell (R397). -/
  rot : Nat
  /-- Banks that are fenced (R508). -/
  fenced : List Nat
  /-- Committed and peak credit of each absolute node, in milli-bytes (R403). -/
  credC : Tbl Int
  credP : Tbl Int
  /-- Node deficits by 2 × absolute node + class (R405). -/
  nodeDef : Tbl Nat
  /-- Queue deficits by 8 × absolute node + queue (R406). -/
  queueDef : Tbl Nat
  /-- The node that each port node visits, by 2 × port node + class, plus 1. -/
  nodeCur : Tbl Nat
  /-- The queue that each node visits, plus 1. -/
  queueCur : Tbl Nat
  hostCredit : Int
  /-- Policer credits by absolute policer, in milli-bytes or milli-packets (R409). -/
  polCred : Tbl Int
  /-- Churn credits by slice, in milli-packets, below full (R384). -/
  churnSpent : Tbl Nat
  /-- Sample counts by slice (R415). -/
  samples : Tbl Nat
  skimQ : List SkimWait
  /-- Packets pulled from their queues for a grant, whose cells R307 still holds. -/
  line : List Pkt
deriving DecidableEq, Repr

/-! ### The line (chapters 8 to 11) -/

/-- Where a delineated frame goes: to the OMCI path or to a Port-ID entry, which it carries as it stood when the header was
delineated (R271). -/
inductive XDest where
  | omci
  | entry (e : Nat) (w : Word)
  /-- No frame: a misfit has skipped the rest of a payload here, which breaks every chain (R245, R250). -/
  | gap
  /-- No frame: the synchroniser has left FSYNC here. -/
  | lost
  /-- No frame: the chain of an entry is broken here by a write of its entry (R271); `keep` says that the entry goes on with the same
  Port-ID, so that the rest of the SDU is still to come. -/
  | cut (e : Nat) (keep : Bool)
deriving DecidableEq, Repr

/-- A delineated XGEM frame on its way to the fabric, with the key of the slot it names (R272). -/
structure XFrame where
  dest : XDest
  keyIdx : Nat
  lf : Bool
  payload : List Byte
  damaged : Bool
  /-- The slot it needs (0 to 3) and the key that the slot held. -/
  key : Option (List Byte)
  sfc : Nat
  pos : Nat
  /-- Time of its header's arrival, in units of TsuSt.time (R438). -/
  at_ : Nat
deriving DecidableEq, Repr

/-- A reassembly (R250): the slice of its entry when it was opened, the bytes so far, the time of its first header, and whether
the rest is discarded through LF = 1 (R251, R275). -/
structure Sdu where
  slice : Nat
  bytes : List Byte
  at_ : Nat
  dead : Bool
  /-- The rest is discarded without any count, whatever befalls it (R251, R275, R411). -/
  quiet : Bool
  /-- Poison has entered it through edge FIFO 0 or 1 (R497). -/
  bad : Bool
deriving DecidableEq, Repr

/-- The FS payload of one frame, with the SFC and the arrival of its PSBd. -/
structure FsPay where
  headers : List XHdr
  len : Nat
  sfc : Nat
  at_ : Nat
deriving DecidableEq, Repr

/-- One line framer, beside its registers. -/
structure LfrSt where
  /-- MODE in force: a write takes effect at the next dwell boundary (R274). -/
  mode : Nat
  /-- The rate last held in FSYNC since reset; 0 for none (R237). -/
  held : Nat
  /-- Consecutive matches in FPRESYNC, consecutive misses in FSYNC (R238). -/
  matches_ : Nat
  misses : Nat
  /-- Consecutive fits in PRESYNC, the misfit run in SYNC, FS frames spent in FSYNC outside SYNC (R244 to R246). -/
  fits : Nat
  misfits : Nat
  outFrames : Nat
  /-- In PRESYNC: the FS payloads from the candidate's on, to which a misfit may return, and the candidate's position (R244). -/
  past : List FsPay
  candPos : Nat
  /-- An SFC has passed since reset. -/
  sfcKnown : Bool
  /-- Arrival of the last PSBd, in units of TsuSt.time. -/
  arrival : Option Nat
  /-- Uncorrectable codewords of the present second, and consecutive seconds below SD_UNCORR (R267). -/
  secUncorr : Nat
  goodSecs : Nat
  /-- Open reassemblies by entry; 512 is the OMCI context. -/
  sdus : Tbl (Option Sdu)
  /-- Delineated frames that the fabric has not taken yet. -/
  xq : List XFrame
deriving DecidableEq, Repr

/-- A framer after reset. -/
def LfrSt.reset : LfrSt := ⟨0, 0, 0, 0, 0, 0, 0, [], 0, false, none, 0, 0, [], []⟩

/-- An upstream PLOAM message (Table 9-2). -/
inductive Ploamu where
  /-- The Keeper's 36 bytes from ACT_REG_ID (R286). -/
  | registration (id : List Byte)
  | keyReport
  /-- Whether it carries the completion code of an unsupported message (R283). -/
  | acknowledge (supported : Bool) (seq : Nat)
  | sleepRequest
  | serialNumber (vendor vssn delayNs : Nat)
deriving DecidableEq, Repr

/-- The upstream gate of a watch (R293): the last SFC that passed since the receiver came on, and whether the watch ends the
sleep. -/
structure Gate where
  last : Option Nat
  ending : Bool
deriving DecidableEq, Repr

/-- One activation block, beside its registers. -/
structure ActSt where
  /-- Accepted messages toward the Keeper, oldest first, each with its PLOAM log index (R281, R284). -/
  queue : List (Ploam × Nat)
  /-- Messages that wait to be sent: the 4-entry queue, then those that wait in the Keeper (R283). -/
  up : List Ploamu
  /-- Sequence number of the directed message before (R282). -/
  lastSeq : Option Nat
  /-- The Acknowledge that answered it, by whether it told of a supported message; none when it got none (R282, R283). -/
  lastAck : Option Bool
  /-- The Keeper has been told of a lost key slot and asks the head end for a new key (R260). -/
  keyAsk : Bool
  /-- Next entry of the PLOAM log. -/
  logNext : Nat
  /-- An EqD written and not applied yet, and the EqD in use (R288). -/
  eqdNew : Option Nat
  eqdUse : Nat
  /-- The ranging response that RERANGE waits to be followed has been sent (R295, R302). -/
  answered : Bool
  /-- DOZE: the upstream gate of the present watch; none in a low-power interval and in the aware period after the gate. -/
  gate : Option Gate
  /-- The reference of R291: SFC and arrival of the last good PSBd. -/
  refSfc : Nat
  refAt : Nat
  /-- The transmitter waits for the Sleep_Request to leave before it goes off (R290). -/
  sleepSent : Bool
deriving DecidableEq, Repr

/-- An activation block after reset. -/
def ActSt.reset : ActSt := ⟨[], [], none, none, false, 0, none, 0, false, none, 0, 0, false⟩

/-- What fills an allocation (R308). -/
inductive UpItem where
  | dbru (units : Nat)
  | ploamu (p : Ploamu)
  | omci (port : Nat) (bytes : List Byte)
  /-- An XGEM frame with `len` payload bytes of a packet from offset `off`, from a node's queue, with its Port-ID, the
  last-fragment flag, and whether the Port-ID's entry requires encryption. -/
  | sdu (p : Pkt) (node queue off len port : Nat) (lf enc : Bool)
  /-- An XGEM frame of a packet of `len` payload bytes whose poisoned cell was met after the frame had started: these bytes, then
  zeros, with the Ethernet FCS inverted (R496). -/
  | spoiled (bytes : List Byte) (len port : Nat)
  | idle (bytes : Nat)
deriving DecidableEq, Repr

/-- An allocation that the transmitter acts on, from its BWmap to the end of its burst. -/
structure Burst where
  grant : Grant
  /-- The EqD in use when it was scheduled, which it keeps (R288). -/
  eqd : Nat
  /-- The default Alloc-ID (R310). -/
  dflt : Bool
  node : Option Nat
  filled : Bool
  started : Bool
  items : List UpItem
deriving DecidableEq, Repr

/-- The rest of a fragmented SDU of a port node (R308): the packet, its node and queue, and the bytes sent. -/
structure Remain where
  pkt : Pkt
  node : Nat
  queue : Nat
  off : Nat
deriving DecidableEq, Repr

/-- One burst transmitter, beside its registers. -/
structure BtxSt where
  /-- Allocations acted on whose burst has not ended, in order. -/
  bursts : List Burst
  remain : Tbl (Option Remain)
  /-- Held profiles by index (R304). -/
  profiles : Tbl (Option Profile)
  /-- No new burst starts: the feeder is being switched away from (R318). -/
  out : Bool
deriving DecidableEq, Repr

/-- A burst transmitter after reset. -/
def BtxSt.reset : BtxSt := ⟨[], [], [], false⟩

/-- A switch in progress: the new feeder, the cause as PSW_STATE.LAST_CAUSE, and the clock at the cause (R316, R317). -/
structure Switch where
  dst : AB
  cause : Nat
  since : Nat
deriving DecidableEq, Repr

/-- The protection switch, beside its registers. -/
structure PswSt where
  sw : Option Switch
  /-- Arrival of B minus arrival of A at the last EqD application, in units of TsuSt.time (R314). -/
  refAB : Int
  /-- The WTR count runs (R321). -/
  wtr : Bool
  /-- The feeder that last left O1.1 (R278). -/
  lastLeft : AB
  /-- The feeder of HOLDOVER REGAIN (R22). -/
  regain : Option AB
  /-- The downstream rate of the last feeder to reach O5, as LFR_RATE.RATE; 0 before the first (R185). -/
  o5Rate : Nat
  /-- The departure of each feeder as measured at its last PSBd as the standby, in 1/16 ns (R314). -/
  depart : Pair Int
  /-- The standby has drifted and is silent until the head end ranges it again (R314). -/
  drifted : Pair Bool
  /-- RERANGE_STUCK has been raised in the present RERANGE (R296). -/
  stuck : Bool
deriving DecidableEq, Repr

/-- One cage, beside its registers. -/
structure OptSt where
  /-- The live life record of the seated module (R336). -/
  live : Option LifeRec
  /-- The insertion was seen while the logic domain was on (R338). -/
  seen : Bool
  /-- An identity read is in progress. -/
  reading : Bool
  /-- The records of modules that have left the cage, or were seated at a reset, and wait to be written, oldest first (R336). -/
  leaving : List LifeRec
  /-- Retries so far of a diagnostic poll that has failed (R332). -/
  twoWire : Option Nat
deriving DecidableEq, Repr

/-- A cage after reset. -/
def OptSt.reset : OptSt := ⟨none, false, false, [], none⟩

/-! ### Time (chapter 15) -/

/-- TSU_STATE.STATE (Table 15-1). -/
inductive TsuState where
  | free | line | lineFreq | holdover | external | host
deriving DecidableEq, Repr

/-- The STATE code of Table 15-1. -/
def TsuState.code : TsuState → Nat
  | .free => 0 | .line => 1 | .lineFreq => 2 | .holdover => 3 | .external => 4 | .host => 5

/-- A calibration under way (R442): edges still to come and the errors found, in 1/16 ns. -/
structure Cal where
  left : Nat
  errs : List Int
deriving DecidableEq, Repr

/-- The time unit. -/
structure TsuSt where
  state : TsuState
  valid : Bool
  ref : AB
  /-- The time, in units of 2^−32 ns since the PTP epoch (R426, R427). -/
  time : Nat
  /-- What is left to slew, in the same unit (R433). -/
  slew : Int
  /-- No load has applied since reset or since the last period in FREE (R427). -/
  firstLoad : Bool
  /-- A load has applied on the reference feeder since it became the reference (R429). -/
  loaded : Bool
  /-- Microseconds spent in HOLDOVER (R430). -/
  holdUs : Nat
  cal : Option Cal
  /-- Time of the last accepted PPS_IN edge, in units of 2^−32 ns of the time. -/
  edge : Option Nat
  /-- Consecutive edges 1 s apart, each with a good message (R445). -/
  goodEdges : Nat
  /-- S of the last belonging message. -/
  lastS : Option Nat
  /-- The last edge has a belonging message. -/
  edgeTold : Bool
  extValid : Bool
  /-- PPS_OUT is high. -/
  ppsHigh : Bool
  /-- Microseconds since the last PPS_OUT edge, none before the first (R443). -/
  ppsAge : Option Nat
  /-- TAI seconds of the PPS_OUT edge that TOD_OUT still has to describe (R444). -/
  todEdge : Option Nat
  /-- SEC_HI and SEC_LO as written to TSU_SET. -/
  setHi : Word
  setLo : Word
  /-- SYNCE_OUT waits out the 100 ms after a change of reference (R446). -/
  squelchHold : Bool
deriving DecidableEq, Repr

/-- CHK_STATUS.STATE (R480). -/
inductive ChkState where
  | none | open | complete | invalid
deriving DecidableEq, Repr

/-- The STATE code of R480. -/
def ChkState.code : ChkState → Nat
  | .none => 0 | .open => 1 | .complete => 2 | .invalid => 3

/-- The computation of a check channel (R480, R481). `starter` is coded as STARTER. -/
structure Chk where
  crc : Nat
  state : ChkState
  read : Bool
  reject : Bool
  starter : Nat
  count : Nat
deriving DecidableEq, Repr

/-- A channel with no computation. -/
def Chk.none : Chk := ⟨0, .none, false, false, 0, 0⟩

/-! ### Sequencers (chapter 16) -/

/-- SEQ_STATUS.RUN. -/
inductive SeqRun where
  | stopped | running | waiting | halted | faulted
deriving DecidableEq, Repr

/-- The RUN code of Table 16-5. -/
def SeqRun.code : SeqRun → Nat
  | .stopped => 0 | .running => 1 | .waiting => 2 | .halted => 3 | .faulted => 4

/-- What a sequencer's present instruction waits for. -/
inductive SeqWait where
  /-- WAIT: rd and mask. -/
  | event (rd mask : Nat)
  /-- LDX: rd and the LPDDR4X byte address. -/
  | load (rd addr : Nat)
  /-- CRES of a result: rd and channel. -/
  | check (rd ch : Nat)
deriving DecidableEq, Repr

/-- A sequencer timer (R463): its period or delay, and the µs left until it fires. -/
structure SeqTimer where
  armed : Bool
  periodic : Bool
  period : Nat
  left : Nat
deriving DecidableEq, Repr

/-- A timer that is not armed. -/
def SeqTimer.off : SeqTimer := ⟨false, false, 0, 0⟩

/-- One byte memory of a sequencer: written bytes, and what an unlisted byte reads as: 0, or the free value of its contents
after an inconsistent instruction (R469). -/
structure SeqMem where
  bytes : Tbl (Option Byte)
  era : Option Nat
deriving DecidableEq, Repr

/-- A memory filled with zeros. -/
def SeqMem.zero : SeqMem := ⟨[], none⟩

/-- One sequencer. -/
structure Seq where
  run : SeqRun
  lastFault : Nat
  pc : Nat
  faultPc : Nat
  /-- g1 to g31; g0 reads 0. -/
  g : Tbl Word
  dmem : SeqMem
  txbuf : SeqMem
  rxbuf : SeqMem
  /-- Receive slots that hold a frame, oldest first: slot and stored length. -/
  slots : List (Nat × Nat)
  timers : Tbl SeqTimer
  /-- Latched event bits 0 to 3. -/
  events : Nat
  /-- Microseconds since the watchdog was last restarted. -/
  wdogUs : Nat
  wait : Option SeqWait
  /-- Cached lines, most recently used first: line number (offset / 64) and bytes. -/
  cache : List (Nat × List Byte)
deriving DecidableEq, Repr

/-- A sequencer after reset. -/
def Seq.reset : Seq :=
  { run := .stopped, lastFault := 0, pc := 0, faultPc := 0, g := [], dmem := SeqMem.zero, txbuf := SeqMem.zero,
    rxbuf := SeqMem.zero, slots := [], timers := [], events := 0, wdogUs := 0, wait := none, cache := [] }

/-! ### Memory integrity (chapter 18) -/

/-- An error that stands in a word and has not been read: the bits in error (one or more), and the slice whose entry it
lies in for the memories that each slice has of its own. -/
structure Upset where
  loc : MemLoc
  slice : Nat
  bits : List Nat
deriving DecidableEq, Repr

/-- Memory integrity: standing errors, poisoned words, row self-tests under way, recent corrected errors and spares. -/
structure EccSt where
  upsets : List Upset
  poison : List MemLoc
  /-- Rows under a targeted self-test, oldest first (R502, R515). -/
  tests : List MemLoc
  /-- Corrected errors by row and clock time in µs (R503). -/
  ces : List (MemLoc × Nat)
  /-- Spares used, keyed by 256 × MEM_ID + bank (R504). -/
  spares : Tbl Nat
  /-- Spares that failed the start-up test, keyed in the same way. -/
  failed : Tbl Nat
  /-- Rows left in the present scrub pass have been visited up to ECC_SCRUB_POS; microseconds since the pass started. -/
  passUs : Nat
deriving DecidableEq, Repr

/-- What leaves the terminal, newest first. The model's own record. -/
inductive Output where
  /-- A frame on a control link, with its FCS inverted or not (R497). -/
  | frame (l : AB) (f : TxFrame) (badFcs : Bool)
  /-- An Ethernet frame on a client port, with its FCS inverted or not. -/
  | client (port : Nat) (bytes : List Byte) (badFcs : Bool)
  /-- A PMBus command: the regulator's address, the code, and the bytes of a write, low byte first (Table 6-7). -/
  | pmbus (addr code : Nat) (data : List Byte)
  /-- A PAUSE or a PFC frame that a client port sends of itself (R355). -/
  | pause (port : Nat) (bytes : List Byte)
  | pfc (port : Nat) (bytes : List Byte)
  /-- The level of PPS_OUT. -/
  | pps (high : Bool)
  /-- A message on TOD_OUT (R444). -/
  | tod (msg : List Char)
  /-- The content of an allocation sent on a feeder, with its burst profile and EqD (R288, R304); aborted after the first `n` items
  (R306, R318). -/
  | burst (f : AB) (profile : Option Profile) (eqd : Nat) (items : List UpItem) (aborted : Option Nat)
  /-- A serial-number or a ranging response (Table 9-1). -/
  | serialResponse (f : AB) (p : Ploamu)
  | rangingResponse (f : AB) (onuId eqd : Nat)
deriving DecidableEq, Repr

/-- The event log (R512): the live entries, oldest first, at most 512. -/
structure LogSt where
  entries : List (List Word)
deriving DecidableEq, Repr

/-- A frame that segmentation has built and not handed over yet (R358, R367): the slice of its send, the descriptor, its number in the
send and its bytes. -/
structure SegFrame where
  slice : Nat
  desc : List Word
  num : Nat
  bytes : List Byte
deriving DecidableEq, Repr

/-- Memory by byte address, in one canonical form: addresses strictly rising. What an unlisted address reads as is a free value, so
no listed byte is known to equal it, and every written byte stays listed (assumption 15). -/
abbrev Memory := List Host.Cell

/-- The whole state. -/
structure State where
  /-- Commands that wait, first in, first out. -/
  pending : List Instr
  /-- Registers by device byte address. -/
  regs : Tbl Word
  /-- Counters wider than 32 bits, by the address of their HI word (R269). -/
  ctrs : Tbl Nat
  /-- Each master's snapshots, by register address (R557). -/
  snaps : Pair (Tbl (Option Word))
  /-- Page headers by page number. -/
  hdrs : Tbl Hdr
  last : Txn
  out : List Output
  /-- How many free values have been taken (model's own). -/
  free : Nat
  /-- Microseconds since reset (model's own). -/
  clock : Nat
  /-- How often LPDDR4X has lost its contents (model's own; R179). -/
  era : Nat
  /-- LPDDR4X bytes written since then, by byte address. -/
  dram : Memory
  power : PowerSt
  backup : BackupSt
  nvs : NvsSt
  links : Pair LinkSt
  masters : MastersSt
  mbx : Tbl Mbx
  keeper : KeeperSt
  fw : FwSt
  log : LogSt
  cls : ClsSt
  buf : BufSt
  mac : Tbl MacPort
  /-- The frames that segmentation still has to hand over, in their order. -/
  seg : List SegFrame
  tsu : TsuSt
  chk : Tbl Chk
  seqs : Tbl Seq
  ecc : EccSt
  lfr : Pair LfrSt
  act : Pair ActSt
  btx : Pair BtxSt
  psw : PswSt
  opt : Pair OptSt
  /-- Line keys by 8 × feeder + slot (Line crypto). -/
  keys : Tbl (List Byte)
  /-- OMCI_UP messages that wait for the default Alloc-ID (R263). -/
  omciUpQ : List (List Byte)
deriving DecidableEq, Repr

/-! ### Reset -/

/-- A control link right after a reset, without block lock (R43, R78, Table 2-4). -/
def LinkSt.reset : LinkSt :=
  { lock := false, state := .down, epoch := 0, cause := 4, peer := none, opener := none, heard := false, waiting := false,
    afterReset := true, fell := false, nextSeq := 0, expSeq := 0, oldAck := 0xFFFF, oldWin := none, replay := [], replayRun := 0, unconf := [],
    resp := [], events := [], omci := [], rx := [], census := [], evtSeq := 0, chain := none, hostResync := none, macOld := [],
    ackOwed := false, nak := none, stalled := false }

/-- Registers that a reset leaves alone and whose values at the first start differ from 0 (assumptions 2 and 3). -/
def resetRegs : Tbl Word :=
  [ (0x000108, 0x00000001),            -- PWR_HIST_PTR: one entry written
    (0x000110, 0x0000000F),            -- PWR_SEQ: every ready signal
    (0x000124, 0x00000003),            -- PWR_RESET_CAUSE: PIN
    (0x00012C, 0xFFFFFFFF),            -- PWR_RESET_LOSS: unknown
    (0x000130, 0x03200320),            -- PWR_VOLT: 800 mV
    (0x000200, 0x00030119),            -- PWR_HIST entry 0: RESET
    (0x001100, 0x00000024),            -- BKP_STATUS: SEAL UNKNOWN, BATT_LOST
    (0x001118, 0x000000FA),            -- BKP_SEAL_CFG: 250 ms
    (0x00112C, 0x00000001),            -- TAMPERS
    (0x001138, 0x00000001),            -- BKP_TAMPER_PTR
    (0x001140, 0x00000014),            -- BKP_WAKE_FILTER: 20 ms
    (0x001200, 0x80000010) ]           -- tamper entry 0: BATT_LOST

/-- Firmware fields of a part as shipped. -/
def FwNv.factory : FwNv := ⟨0, 0, false, 0⟩

/-- The machine right after reset: LOGIC_READY reached, ATTACH O1, both control links without block lock. -/
def State.reset : State :=
  { pending := [], regs := resetRegs, ctrs := [], snaps := Pair.both [], hdrs := [(0, { hdrReset 0 with intRaw := 1 })],
    last := ⟨.ok, 0, .none⟩, out := [], free := 0, clock := 0, era := 0, dram := [],
    power :=
      { phase := .running, mode := .attach .o1, lastCause := 3, wakeCause := 3, resetCause := 3, tries := 0,
        failRec := (0, 0), lossUnrecorded := false, hostReset := none, step := none, stalled := false,
        pmbUp := false, pmbNext := [], cmdRetries := 0, headRun := 0,
        chase := false, shortRun := [], paceShort := false, vhist := 0, deferred := [], pads := (0, 0), vauxLow := false, refclkAbsent := false },
    backup :=
      { rtcSec := 0, rtcSub := 0, rtcAcc := 0, badRun := 0, strapSeen := false, pressUs := 0, tamperSeq := 1,
        tamperOff := false, sealOff := false, dirty := false, base := [0, 0, 0, 0] },
    nvs :=
      { committed := [], pend := [], hist := [], histQ := [], fw := FwNv.factory, life := [], cageKey := Pair.both [], checkpoint := [0, 0, 0, 0],
        spares := [], logRing := [], stopLoss := none, stamps := [], deferring := false, wear := [] },
    links := Pair.both LinkSt.reset,
    masters :=
      { sems := [], tie := .a, frz := Pair.both Freeze.clear, malf := Pair.both 0, malfWin := 1000, malfLeft := 1000 },
    mbx := [],
    keeper :=
      { started := true, upSec := 0, upUs := 0, starts := 1, taken := Pair.both [], held := Pair.both [], capture := [],
        capSeq := 0, puntQ := [], restarts := [] },
    fw :=
      { running := 0, nv := FwNv.factory, load := .idle, badCause := 0, target := 0, len := 0, stager := none, slot1 := [],
        slot2 := [], ver1 := 0, ver2 := 0, trialDied := false },
    log := ⟨[]⟩,
    cls := { rules := [], lanes := [], buckets := (List.range 64).map (fun b => b % 16), churnQ := [], waiting := [] },
    buf :=
      { queues := [], rot := 0, fenced := [], credC := [], credP := [], nodeDef := [], queueDef := [], nodeCur := [],
        queueCur := [], hostCredit := 0, polCred := [], churnSpent := [], samples := [], skimQ := [],
        line := [] },
    mac := [],
    seg := [],
    tsu :=
      { state := .free, valid := false, ref := .a, time := 0, slew := 0, firstLoad := true, loaded := false, holdUs := 0,
        cal := none, edge := none, goodEdges := 0, lastS := none, edgeTold := false, extValid := false, ppsHigh := false,
        ppsAge := none, todEdge := none, setHi := 0, setLo := 0, squelchHold := false },
    chk := [], seqs := [],
    ecc := { upsets := [], poison := [], tests := [], ces := [], spares := [], failed := [], passUs := 0 },
    lfr := Pair.both LfrSt.reset, act := Pair.both ActSt.reset, btx := Pair.both BtxSt.reset,
    psw := ⟨none, 0, false, .a, none, 0, Pair.both 0, Pair.both false, false⟩, opt := Pair.both OptSt.reset, keys := [], omciUpQ := [] }

end Sys2Proof.Machine
end

