-- ==== Sys2Proof/Machine/Ops.lean ====
section
/-!
DEFINITION. The named operations over the register file, page headers, wide counters, LPDDR4X and time.

Every meaning reads and writes the machine through these.
-/

namespace Sys2Proof.Machine

/-! ### The register file -/

/-- A register, by device byte address. -/
def State.rd (s : State) (a : Nat) : Word := tblGet (resetWord a) a s.regs

/-- Write a register. -/
def State.wr (s : State) (a : Nat) (v : Word) : State := { s with regs := tblSet (resetWord a) a v s.regs }

/-- A field of a register. -/
def State.fld (s : State) (a lo w : Nat) : Nat := bits (s.rd a) lo w

/-- Set a field of a register. -/
def State.setFld (s : State) (a lo w n : Nat) : State := s.wr a (setBits (s.rd a) lo w n)

/-- One bit of a register. -/
def State.flag (s : State) (a i : Nat) : Bool := bit (s.rd a) i

/-- Set one bit of a register. -/
def State.setFlag (s : State) (a i : Nat) (b : Bool) : State := s.setFld a i 1 (b2n b)

/-- Add to a 32-bit counter register, which wraps to 0. -/
def State.bump (s : State) (a k : Nat) : State := s.wr a (s.rd a + word k)

/-- Add to a counter field of a register, which wraps to 0. -/
def State.bumpFld (s : State) (a lo w k : Nat) : State := s.setFld a lo w (s.fld a lo w + k)

/-- A register of page `p`. -/
def State.rp (s : State) (p off : Nat) : Word := s.rd (regAddr p off)

/-- Write a register of page `p`. -/
def State.wp (s : State) (p off : Nat) (v : Word) : State := s.wr (regAddr p off) v

/-! ### Page headers -/

/-- The header of page `p`. -/
def State.hdr (s : State) (p : Nat) : Hdr := tblGet (hdrReset p) p s.hdrs

/-- Replace the header of page `p`. -/
def State.setHdr (s : State) (p : Nat) (h : Hdr) : State := { s with hdrs := tblSet (hdrReset p) p h s.hdrs }

/-- The STATE of page `p`. -/
def State.pstate (s : State) (p : Nat) : PageState := (s.hdr p).state

/-! ### Wide counters (R269) -/

/-- The value of the counter whose HI word stands at address `a`. -/
def State.ctr (s : State) (a : Nat) : Nat := tblGet 0 a s.ctrs

/-- Set a wide counter. -/
def State.setCtr (s : State) (a n : Nat) : State := { s with ctrs := tblSet 0 a n s.ctrs }

/-! ### LPDDR4X -/

/-- The canonical form from an address on. -/
def Memory.wfFrom : Nat → Memory → Bool
  | _, [] => true
  | lo, (a, _) :: t => decide (lo ≤ a) && Memory.wfFrom (a + 1) t

/-- The canonical form: addresses strictly rising. -/
def Memory.wf (m : Memory) : Bool := Memory.wfFrom 0 m

/-- The byte that an address lists. -/
def Memory.find (a : Nat) : Memory → Option Byte
  | [] => none
  | (j, b) :: t => if j = a then some b else Memory.find a t

/-- A byte written at an address. -/
def Memory.put (a : Nat) (b : Byte) (m : Memory) : Memory := tblInsert a b (tblErase a m)

/-- A byte of LPDDR4X: what was written, or the free value of its contents. -/
def State.dramByte (s : State) (a : Nat) : Byte := (s.dram.find a).getD (Config.freeByte s.era a)

/-- Write a byte of LPDDR4X. -/
def State.setDramByte (s : State) (a : Nat) (b : Byte) : State := { s with dram := Memory.put a b s.dram }

/-- The bytes of LPDDR4X from an address on. -/
def State.dramBytes (s : State) (a : Nat) : Nat → List Byte
  | 0 => []
  | k + 1 => s.dramByte a :: s.dramBytes (a + 1) k

/-- Write bytes to LPDDR4X from an address on. -/
def State.setDramBytes (s : State) (a : Nat) : List Byte → State
  | [] => s
  | b :: t => (s.setDramByte a b).setDramBytes (a + 1) t

/-- A 32-bit word of LPDDR4X, most significant byte at the lowest address (R44, R454; assumption 7). -/
def State.dramWord (s : State) (a : Nat) : Word := beWord (s.dramBytes a 4)

/-- Write a 32-bit word of LPDDR4X. -/
def State.setDramWord (s : State) (a : Nat) (w : Word) : State := s.setDramBytes a (beBytes 4 w.toNat)

/-! ### Links, snapshots, output -/

/-- One control link. -/
def State.link (s : State) (l : AB) : LinkSt := s.links.get l

/-- Replace a control link. -/
def State.setLink (s : State) (l : AB) (k : LinkSt) : State := { s with links := s.links.set l k }

/-- Record something that leaves the terminal. -/
def State.emit (s : State) (o : Output) : State := { s with out := o :: s.out }

/-- A master's snapshot of a register, when it has taken one (R557). -/
def State.snap (s : State) (m : AB) (a : Nat) : Option Word := tblGet none a (s.snaps.get m)

/-- Take a snapshot of a register for one master. -/
def State.setSnap (s : State) (m : AB) (a : Nat) (v : Word) : State :=
  { s with snaps := s.snaps.set m (tblSet none a (some v) (s.snaps.get m)) }

/-- Take a free value: one that nothing constrains. -/
def State.takeFree (s : State) : Word × State := (Config.freeWord s.free, { s with free := s.free + 1 })

/-! ### Time (R426, R560) -/

/-- One nanosecond in the unit of TsuSt.time. -/
def nsUnit : Nat := 2 ^ 32

/-- TAI seconds of the time unit. -/
def State.nowSec (s : State) : Nat := s.tsu.time / nsUnit / 1000000000

/-- Nanoseconds within the second. -/
def State.nowNs (s : State) : Nat := s.tsu.time / nsUnit % 1000000000

/-- FRAC: 16 bits below the nanosecond. -/
def State.nowFrac (s : State) : Nat := s.tsu.time / 2 ^ 16 % 2 ^ 16

/-- Seconds [31:0] as records report them. -/
def State.secWord (s : State) : Word := word s.nowSec

/-- Nanoseconds as records report them. -/
def State.nsWord (s : State) : Word := word s.nowNs

/-! ### Slices and ownership (R144, R148) -/

/-- The owner mask of a slice: bit 0 master A, bit 1 master B. -/
def State.ownerMask (s : State) (k : Nat) : Nat := s.fld (regAddr pSlc (0x100 + 4 * k)) 0 2

/-- A slice's owner mask names a master. -/
def State.ownsSlice (s : State) (m : AB) (k : Nat) : Bool := (s.ownerMask k).testBit m.num

/-- A register of a slice's own SLC page. -/
def State.slc (s : State) (k off : Nat) : Word := s.rp (pSlice k 0) off

/-- Slices that hold a unit, read from the bit map register at `off` of each SLC page. -/
def State.holders (s : State) (off n : Nat) : List Nat :=
  (List.range 16).filter (fun k => bit (s.slc k off) n)

/-- The slice that client port `n` is assigned to. -/
def State.portSlice (s : State) (n : Nat) : Option Nat := (s.holders 0x108 n).head?

/-- The slice that sequencer `n` is assigned to. -/
def State.seqSlice (s : State) (n : Nat) : Option Nat := (s.holders 0x120 n).head?

/-- The slice that check channel `n` is assigned to. -/
def State.chkSlice (s : State) (n : Nat) : Option Nat := (s.holders 0x124 n).head?

/-- The slice to which an assignable page is assigned. -/
def State.unitSlice (s : State) (i : PageInfo) : Option Nat :=
  match i.blk with
  | .mac => s.portSlice i.inst
  | .seq => s.seqSlice i.inst
  | .chk => s.chkSlice i.inst
  | _ => none

/-- OWNER.MASTERS of a page (Table 3-2, R144): the masters that may access it. -/
def State.mastersOf (s : State) (i : PageInfo) : Nat :=
  match blkScope i.blk with
  | 1 => s.ownerMask i.inst
  | 2 => match s.unitSlice i with
    | some k => s.ownerMask k
    | none => 3
  | 3 => 2 ^ i.inst
  | _ => 3

/-- A master may read page `p` (Table 3-5). -/
def State.mayRead (s : State) (m : AB) (p : Nat) : Bool :=
  match pageInfo p with
  | none => false
  | some i => if blkScope i.blk = 3 then true else (s.mastersOf i).testBit m.num

/-- The LPDDR4X region of a slice: base and size in bytes. -/
def State.region (s : State) (k : Nat) : Nat × Nat :=
  (bits (s.slc k 0x128) 0 12 * 2 ^ 20, bits (s.slc k 0x12C) 0 13 * 2 ^ 20)

/-- First subscriber node and node count of a slice. -/
def State.nodes (s : State) (k : Nat) : Nat × Nat := (bits (s.slc k 0x10C) 0 8, bits (s.slc k 0x10C) 16 9)

/-- First rule and rule count of a slice. -/
def State.ruleRange (s : State) (k : Nat) : Nat × Nat :=
  (bits (s.slc k 0x110) 0 7 * 64, bits (s.slc k 0x110) 8 8 * 64)

/-- First policer and policer count of a slice. -/
def State.polRange (s : State) (k : Nat) : Nat × Nat :=
  (bits (s.slc k 0x114) 0 8 * 16, bits (s.slc k 0x114) 8 9 * 16)

/-- The state of a slice: the state of its SLC page. -/
def State.sliceState (s : State) (k : Nat) : PageState := s.pstate (pSlice k 0)

/-- The installed LPDDR4X size in bytes (R83). -/
def State.memSize (s : State) : Nat := s.fld (regAddr pMem 0x104) 0 13 * 2 ^ 20

/-- The reserved region: base and size in bytes (R550). -/
def State.reserved (s : State) : Nat × Nat :=
  (s.fld (regAddr pMem 0x110) 0 12 * 2 ^ 20, s.fld (regAddr pMem 0x114) 0 13 * 2 ^ 20)

/-! ### Presence (R219, R220) -/

/-- A strap token is valid. -/
def State.strapToken (s : State) : Bool :=
  s.flag (regAddr pBkp 0x100) 4 && s.fld (regAddr pBkp 0x100) 1 2 == 0 && s.flag (regAddr pPrs 0x10C) 0

/-- A press window is open. -/
def State.pressOpen (s : State) : Bool := decide (0 < s.backup.pressUs)

/-- A presence token is valid. -/
def State.present (s : State) : Bool := s.pressOpen || s.strapToken

/-! ### Semaphores -/

/-- Semaphore `n`. -/
def State.sem (s : State) (n : Nat) : Sem := tblGet Sem.free n s.masters.sems

/-- Replace semaphore `n`. -/
def State.setSem (s : State) (n : Nat) (x : Sem) : State :=
  { s with masters := { s.masters with sems := tblSet Sem.free n x s.masters.sems } }

/-- A master holds the semaphore that page `p` is bound to, or the page is not bound (R86). -/
def State.lockOk (s : State) (m : AB) (p : Nat) : Bool :=
  !(s.hdr p).lockBound || (s.sem (s.hdr p).lockSem).holder == some m

/-! ### Mailboxes, queues and small parts -/

/-- Mailbox channel `i`. -/
def State.box (s : State) (i : Nat) : Mbx := tblGet Mbx.empty i s.mbx

/-- Replace a mailbox channel. -/
def State.setBox (s : State) (i : Nat) (b : Mbx) : State := { s with mbx := tblSet Mbx.empty i b s.mbx }

/-- Client port `n`. -/
def State.port (s : State) (n : Nat) : MacPort := tblGet MacPort.empty n s.mac

/-- Replace a client port. -/
def State.setPort (s : State) (n : Nat) (x : MacPort) : State := { s with mac := tblSet MacPort.empty n x s.mac }

/-- Service queue `k` = 8 × absolute node + queue. -/
def State.queue (s : State) (k : Nat) : List Pkt := tblGet [] k s.buf.queues

/-- Replace a service queue. -/
def State.setQueue (s : State) (k : Nat) (q : List Pkt) : State :=
  { s with buf := { s.buf with queues := tblSet [] k q s.buf.queues } }

/-- Lane `n`. -/
def State.lane (s : State) (n : Nat) : Lane := tblGet ⟨[], false⟩ n s.cls.lanes

/-- Replace lane `n`. -/
def State.setLane (s : State) (n : Nat) (x : Lane) : State :=
  { s with cls := { s.cls with lanes := tblSet ⟨[], false⟩ n x s.cls.lanes } }

/-- The rule at an absolute index. -/
def State.ruleAt (s : State) (i : Nat) : Rule := tblGet Rule.zero i s.cls.rules

/-- Install a rule at an absolute index. -/
def State.setRule (s : State) (i : Nat) (r : Rule) : State :=
  { s with cls := { s.cls with rules := tblSet Rule.zero i r s.cls.rules } }

/-- The mode. -/
def State.mode (s : State) : Mode := s.power.mode

/-- The logic domain runs: after LOGIC_READY and before the next stop. -/
def State.running (s : State) : Bool := s.power.phase == .running

/-- The logic domain is on: from LOGIC_READY to the last step of a controlled power-down (Table 6-9). -/
def State.logicOn (s : State) : Bool := s.running || s.power.phase == .powerDown

/-- What a command of the logic domain does: nothing while the logic domain is off or held in reset. -/
def whenOn (s : State) (r : Result State) : Result State := if s.running then r else .next s

end Sys2Proof.Machine
end

