-- ==== Sys2Proof/Machine/Flags.lean ====
section
/-!
DEFINITION. Interrupt flags and EVENT records, half-range bits of wide counters, fault records and the event log.

Raising an interrupt, counting and recording a fault each happen in one operation here, so that the EVENT record of R68,
the half-range bit of R269 and the log entry of R511 can never be forgotten by a meaning.
-/

namespace Sys2Proof.Machine

/-! ### Interrupts and EVENT records (R68, R69) -/

/-- INT_PEND: INT_RAW AND INT_ENABLE (Table 3-2). -/
def Hdr.pend (h : Hdr) : Word := h.intRaw &&& h.intEnable

/-- The route bit of page `p` on link `l` (CTL_EVT_ROUTE, Table 2-4). -/
def State.routed (s : State) (l : AB) (p : Nat) : Bool := s.flag (regAddr (pCtl l) (0x300 + 4 * (p / 32))) (p % 32)

/-- R68 allows an EVENT for page `p` on link `l`. -/
def State.eventAllowed (s : State) (l : AB) (p : Nat) : Bool :=
  s.routed l p && s.flag (regAddr (pCtl l) 0x12C) 1 && s.mayRead l p

/-- Queue an EVENT record for a page on a link; a record that still waits is brought up to date instead (R68). -/
def queueEvent (l : AB) (p : Nat) (summary : Bool) (s : State) : State :=
  let k := s.link l
  let pend := (s.hdr p).pend
  if k.events.any (fun e => e.page == p) then
    s.setLink l { k with events := k.events.map (fun e =>
      if e.page = p then { e with pend := pend, sec := s.secWord, ns := s.nsWord } else e) }
  else
    s.setLink l { k with
      events := k.events ++ [⟨p, summary, k.evtSeq, pend, s.secWord, s.nsWord⟩]
      evtSeq := (k.evtSeq + 1) % 65536 }

/-- Bring a waiting EVENT record of a page up to date (R68). -/
def refreshEvent (l : AB) (p : Nat) (s : State) : State :=
  if (s.link l).events.any (fun e => e.page == p) then queueEvent l p false s else s

/-- What follows a change of INT_PEND of page `p` from `old`: EVENT records where a bit was gained (R68). -/
def pendChanged (p : Nat) (old : Word) (s : State) : State :=
  let new := (s.hdr p).pend
  let one := fun (l : AB) (s : State) =>
    if new &&& ~~~ old ≠ 0 ∧ s.eventAllowed l p = true then queueEvent l p false s else refreshEvent l p s
  if new = old then s else one .b (one .a s)

/-- Set bit `i` of a page's INT_RAW. -/
def raise (p i : Nat) (s : State) : State :=
  let h := s.hdr p
  pendChanged p h.pend (s.setHdr p { h with intRaw := h.intRaw ||| field i 1 1 })

/-- IRQ_x_N is low (asserted): some page routed to the link has a pending interrupt, and the pads are released: they are from
LOGIC_READY until the last step of a controlled power-down (R69, Tables 6-8 and 6-9). -/
def State.irqLow (s : State) (l : AB) : Bool :=
  s.logicOn && s.hdrs.any (fun e => s.routed l e.1 && e.2.pend != 0)

/-! ### Wide counters with half-range bits (R269) -/

/-- Add `k` to the counter of width `w` at HI address `a`; `half` names its half-range bit, `intr` the page and bit of its
COUNTER_HALF. -/
def countWide (a w k : Nat) (half : Option (Nat × Nat)) (intr : Option (Nat × Nat)) (s : State) : State :=
  let old := s.ctr a
  let new := (old + k) % 2 ^ w
  let s := s.setCtr a new
  if old < 2 ^ (w - 1) ∧ 2 ^ (w - 1) ≤ new then
    let s := match half with
      | some (h, i) => s.setFlag h i true
      | none => s
    match intr with
    | some (p, i) => raise p i s
    | none => s
  else s

/-- Counter `i` of a page whose counters stand at `base`, with HALF at `hoff` and COUNTER_HALF at bit `ib`. -/
def countAt (p base hoff ib w i k : Nat) (s : State) : State :=
  countWide (regAddr p (base + 8 * i)) w k (some (regAddr p (hoff + 4 * (i / 32)), i % 32)) (some (p, ib)) s

/-! ### The event log (R512, Table 18-5) -/

/-- Log entry types. -/
inductive LogType where
  | fault | freeze | selftest | remap | fence | ret
deriving DecidableEq, Repr

/-- The TYPE code of Table 18-5. -/
def LogType.code : LogType → Nat
  | .fault => 1 | .freeze => 2 | .selftest => 3 | .remap => 4 | .fence => 5 | .ret => 6

/-- The entry types of the fault codes: a remap, a fence and a return have types of their own (Table 18-5). -/
def logTypeOf (code : Nat) : LogType :=
  if code = 0x0105 then .remap else if code = 0x0302 then .fence else if code = 0x0303 then .ret else .fault

/-- Append an entry to the event log; entries that R512 names also go to the stored ring. -/
def addLog (t : LogType) (page code : Nat) (detail w5 : Word) (s : State) : State :=
  let seq := s.rp pLog 0x100
  let e := [seq, word (t.code * 2 ^ 28 + page * 2 ^ 16 + code), detail, s.secWord, s.nsWord, w5, 0, 0]
  let s := if s.log.entries.length < 512 then s else s.bump (regAddr pLog 0x104) 1
  let s := { s with log := { entries := keepLast 512 (s.log.entries ++ [e]) } }
  let s := s.bump (regAddr pLog 0x100) 1
  if code = 0x0105 ∨ code = 0x0106 ∨ code = 0x0302 ∨ code = 0x0304 then
    { s with nvs := { s.nvs with logRing := keepLast 64 (s.nvs.logRing ++ [e]) } }
  else s

/-! ### Faults (R511, Table 18-3) -/

/-- Record a fault in a page's header, write its log entry and raise FAULT, bit 31: each fault raises it, also one that finds MORE
at its largest count (assumption 16). -/
def recordFault (p code : Nat) (detail : Word) (w5 : Word) (s : State) : State :=
  let old := s.hdr p
  let h := if old.faultCode = 0 then { old with faultCode := code, faultDetail := detail }
    else { old with faultMore := satAdd 255 old.faultMore 1 }
  raise p 31 (addLog (logTypeOf code) p code detail w5 (s.setHdr p h))

/-! ### The non-volatile store's waiting list (R522, R523) -/

/-- A write to the non-volatile store waits to be committed; a write of the same state merges with one that waits. -/
def nvQueue (x : NvItem) (s : State) : State :=
  if s.nvs.pend.contains x then s else { s with nvs := { s.nvs with pend := s.nvs.pend ++ [x] } }

/-- A stored history entry waits to be committed; the oldest of more than 16 is lost (R522). -/
def nvQueueHist (e : Word × Word) (s : State) : State :=
  if s.nvs.histQ.length < 16 then { s with nvs := { s.nvs with histQ := s.nvs.histQ ++ [e] } }
  else
    raise pNvs 9 ((({ s with nvs := { s.nvs with histQ := s.nvs.histQ.drop 1 ++ [e] } } : State)).bump
      (regAddr pNvs 0x150) 1)

/-! ### The supply loop's limit -/

/-- A unit that is short gets no step: VSET is at the ceiling or the loop is STALLED (R202). -/
def paceLimited (s : State) : Bool :=
  s.power.stalled || decide (s.fld (regAddr pPwr 0x13C) 16 10 ≤ s.fld (regAddr pPwr 0x130) 0 10)

/-! ### Mode transitions (R27 to R31, R560) -/

/-- A mode entry takes its seconds from the RTC (R560). -/
def State.fromRtc (s : State) : Bool := !s.running || s.tsu.state == .free

/-- Word 1 of a history entry: RTC seconds, 0 while the RTC is marked invalid, or time unit seconds (R560). -/
def histSec (rtc : Bool) (s : State) : Word :=
  if rtc then (if s.flag (regAddr pBkp 0x100) 0 then word s.backup.rtcSec else 0) else s.secWord

/-- Write a history entry, then PWR_HIST_PTR (R27), and store it when FROM and TO differ (R29). -/
def writeHist (src dst : Mode) (cause : Nat) (rtc : Bool) (s : State) : State :=
  let i := s.fld (regAddr pPwr 0x108) 0 4
  let seq := (s.fld (regAddr pPwr 0x108) 8 8 + 1) % 256
  let w0 := word (src.code + b2n rtc * 8 + dst.code * 16 + dst.sub * 256 + cause * 2 ^ 16 + seq * 2 ^ 24)
  let w1 := histSec rtc s
  let s := (s.wp pPwr (0x200 + 8 * i) w0).wp pPwr (0x204 + 8 * i) w1
  let s := s.wp pPwr 0x108 (word ((i + 1) % 16 + seq * 256))
  if src.code = dst.code then s
  else nvQueueHist (setBits w0 7 1 1, w1) s

/-- A transition of Table 1-5: its history entry, the new mode, the DOZE count and the MODE interrupt (R27, R28). -/
def transition (dst : Mode) (cause : Nat) (s : State) : State :=
  let s := writeHist s.power.mode dst cause s.fromRtc s
  let s := if cause = 0x30 then s.bump (regAddr pPwr 0x10C) 1 else s
  raise pPwr 0 { s with power := { s.power with mode := dst, lastCause := cause } }

end Sys2Proof.Machine
end

