-- ==== Sys2Proof/Machine/Census.lean ====
section
/-!
DEFINITION. The drop census: every discard is counted once, by reason, slice and port, and may leave a Skim record.

R411 to R416, with the Separator's own record of a refused reference (R150).
-/

namespace Sys2Proof.Machine

/-- The drop reasons of Table 14-2. -/
inductive Reason where
  | noSlice | edgeOvf | modeBlock | noLine | sliceDown | portDown | flush | sepRef | sepXslice | quotaFull | sharedFull
  | queueFull | policed | nodePoliced | polDown | macPreamble | macAlign | macRunt | macOversize | macFcs | macLength
  | macCtrl | linkDown | lineFec | lineReasm | lineOversize | lineFcs | lineStandby | lineKey | lineClear | burstAbort
  | noRule | ruleDrop | spreadEmpty | puntQfull | churnLoop | churnCap | laneFault | noLane | hostDenied | hostFrozen
  | hostChain | segBad | ctlResync | ctlDown | omciMic | omciQfull | poison
deriving DecidableEq, Repr

/-- The code of a drop reason (Table 14-2). -/
def Reason.code : Reason → Nat
  | .noSlice => 0x01 | .edgeOvf => 0x02 | .modeBlock => 0x03 | .noLine => 0x04 | .sliceDown => 0x05 | .portDown => 0x06
  | .flush => 0x07 | .sepRef => 0x08 | .sepXslice => 0x09 | .quotaFull => 0x0A | .sharedFull => 0x0B
  | .queueFull => 0x0C | .policed => 0x0D | .nodePoliced => 0x0E | .polDown => 0x0F | .macPreamble => 0x10
  | .macAlign => 0x11 | .macRunt => 0x12 | .macOversize => 0x13 | .macFcs => 0x14 | .macLength => 0x15
  | .macCtrl => 0x16 | .linkDown => 0x17 | .lineFec => 0x18 | .lineReasm => 0x19 | .lineOversize => 0x1A
  | .lineFcs => 0x1B | .lineStandby => 0x1C | .lineKey => 0x1D | .lineClear => 0x1E | .burstAbort => 0x1F
  | .noRule => 0x20 | .ruleDrop => 0x21 | .spreadEmpty => 0x22 | .puntQfull => 0x23 | .churnLoop => 0x24
  | .churnCap => 0x25 | .laneFault => 0x26 | .noLane => 0x27 | .hostDenied => 0x28 | .hostFrozen => 0x29
  | .hostChain => 0x2A | .segBad => 0x2B | .ctlResync => 0x2C | .ctlDown => 0x2D | .omciMic => 0x2E
  | .omciQfull => 0x2F | .poison => 0x30

/-- HI address of the census counter of a reason, slice and port (Table 14-5). -/
def censusAddr (k r q : Nat) : Nat :=
  if r < 0x28 then regAddr (pSlice k 2) (0x100 + 88 * r + 8 * q) else regAddr (pSlice k 3) (0x100 + 88 * (r - 0x28) + 8 * q)

/-- HI address of the unowned counter of a reason (Table 14-4). -/
def unownedAddr (r : Nat) : Nat := regAddr pDrp (0x400 + 8 * r)

/-- Words 1 to 7 of a Skim record (Table 14-3). -/
def skimBody (r : Reason) (k q : Nat) (p : Option Pkt) (detail : Nat) (s : State) : List Word :=
  match p with
  | none => [word (r.code + k * 2 ^ 8 + q * 2 ^ 12), 0, s.secWord, s.nsWord, 0, 0, word detail]
  | some p =>
    let t := match p.target with
      | some (n, c) => n * 2 ^ 16 + c * 2 ^ 24 + 2 ^ 27
      | none => 0
    let rl := match p.rule with
      | some i => i * 2 ^ 16 + 2 ^ 29
      | none => 0
    let w0 := p.key.headD 0
    let w4 := (p.key.drop 4).headD 0
    [ word (r.code + k * 2 ^ 8 + q * 2 ^ 12 + t), word (p.len % 2 ^ 14 + rl + b2n p.second * 2 ^ 30), s.secWord, s.nsWord,
      p.flow, word (bits w4 16 16 + bits w4 0 12 * 2 ^ 16 + bits w0 24 3 * 2 ^ 28), word detail ]

/-- Sample a discard of a slice for its Skim ring (R415, R416). -/
def skimSample (r : Reason) (k q : Nat) (p : Option Pkt) (detail : Nat) (s : State) : State :=
  let n := bits (s.rp (pSlice k 1) 0x100) 0 16
  let on := if r.code < 32 then bit (s.rp (pSlice k 1) 0x104) r.code else bit (s.rp (pSlice k 1) 0x108) (r.code - 32)
  if !on || n = 0 then s
  else
    let c := tblGet 0 k s.buf.samples + 1
    if c < n then { s with buf := { s.buf with samples := tblSet 0 k c s.buf.samples } }
    else
      let s := { s with buf := { s.buf with samples := tblSet 0 k 0 s.buf.samples } }
      if !(bit (s.rp (pSlice k 1) 0x10C) 0) then s
      else if s.buf.skimQ.length < 64 then
        { s with buf := { s.buf with skimQ := s.buf.skimQ ++ [⟨k, skimBody r k q p detail s⟩] } }
      else raise (pSlice k 1) 3 (s.bump (regAddr (pSlice k 1) 0x120) 1)

/-- EN of a slice's Skim ring clears: its records that wait for LPDDR4X are discarded and counted in RING_MISSED (R423). -/
def ringStop (k : Nat) (s : State) : State :=
  let p := pSlice k 1
  let n := (s.buf.skimQ.filter (fun x => x.slice == k)).length
  let s := { s with buf := { s.buf with skimQ := s.buf.skimQ.filter (fun x => x.slice != k) } }
  let s := s.setFlag (regAddr p 0x10C) 0 false
  if n = 0 then s else raise p 3 (s.bump (regAddr p 0x120) n)

/-- Discard something of slice `k` at census port `q` (R411, R412): the one place where an owned discard is counted. -/
def dropAt (r : Reason) (k q : Nat) (p : Option Pkt) (detail : Nat) (s : State) : State :=
  let i := 11 * r.code + q
  let s := countWide (censusAddr k r.code q) 40 1 (some (regAddr (pSlice k 1) (0x200 + 4 * (i / 32)), i % 32))
    (some (pSlice k 1, 0)) s
  let s := (s.bump (regAddr (pSlice k 1) 0x124) 1).bump (regAddr pDrp 0x100) 1
  skimSample r k q p detail s

/-- A discard whose slice is unknown or not owned by the requester (R413). -/
def dropUnowned (r : Reason) (s : State) : State :=
  let s := countWide (unownedAddr r.code) 40 1 (some (regAddr pDrp (0x130 + 4 * (r.code / 32)), r.code % 32))
    (some (pDrp, 0)) s
  s.bump (regAddr pDrp 0x100) 1

/-- Discard a packet at its source port. -/
def dropSrc (r : Reason) (p : Pkt) (detail : Nat) (s : State) : State := dropAt r p.slice p.src (some p) detail s

/-- Repeat a discard `n` times. -/
def dropMany (r : Reason) (k q : Nat) : Nat → State → State
  | 0, s => s
  | n + 1, s => dropMany r k q n (dropAt r k q none 0 s)

/-- The Separator's record of a reference refused at use (R150): SLC_SEP_LAST, SLC_SEP_VALUE, the counts and SEP_REF. -/
def sepRecord (k ref blk idx : Nat) (value : Word) (s : State) : State :=
  let p := pSlice k 0
  let s := (s.wp p 0x180 (word (ref + blk * 2 ^ 8 + idx * 2 ^ 16))).wp p 0x184 value
  raise p 1 ((s.bump (regAddr p 0x188) 1).bump (regAddr pSlc 0x14C) 1)

/-- A packet whose reference fails at use is dropped with reason SEP_REF (R150). -/
def dropSepRef (k ref blk idx : Nat) (value : Word) (p : Pkt) (s : State) : State :=
  dropAt .sepRef k p.src (some p) ref (sepRecord k ref blk idx value s)

/-- A packet whose permit no longer covers it is dropped with reason SEP_XSLICE, counted in SRC (R155). -/
def dropXslice (p : Pkt) (s : State) : State :=
  let pg := pSlice p.slice 0
  let s := raise pg 2 ((s.bump (regAddr pg 0x188) 1).bump (regAddr pSlc 0x14C) 1)
  dropAt .sepXslice p.slice p.src (some p) 0 s

end Sys2Proof.Machine
end

