-- ==== Sys2Proof/Machine/Crc.lean ====
section
/-!
DEFINITION. The check-value arithmetic of R477, and the CRC-32C that the terminal itself uses.
-/

namespace Sys2Proof.Machine

/-- The parameters of a check value (Table 17-1). -/
structure CrcParam where
  width : Nat
  poly : Nat
  init : Nat
  refin : Bool
  refout : Bool
  finv : Bool
deriving DecidableEq, Repr

/-- A number reflected over its low `w` bits. -/
def reflect : Nat → Nat → Nat
  | 0, _ => 0
  | w + 1, n => (n % 2) * 2 ^ w + reflect w (n / 2)

/-- One bit into the register (R477). -/
def crcBit (c : CrcParam) (r : Nat) (b : Bool) : Nat :=
  let x := xor (r.testBit (c.width - 1)) b
  let r := r * 2 % 2 ^ c.width
  if x then r ^^^ c.poly else r

/-- The low `k` bits of `n`, most significant first, into the register. -/
def crcBits (c : CrcParam) : Nat → Nat → Nat → Nat
  | 0, _, r => r
  | k + 1, n, r => crcBits c k n (crcBit c r (n.testBit k))

/-- One byte into the register (R477). -/
def crcByte (c : CrcParam) (r : Nat) (b : Byte) : Nat :=
  crcBits c 8 (if c.refin then reflect 8 b.toNat else b.toNat) r

/-- Bytes into the register, in order. -/
def crcBytes (c : CrcParam) (r : Nat) (l : List Byte) : Nat := l.foldl (crcByte c) r

/-- The result of a register's value (R477). -/
def crcResult (c : CrcParam) (r : Nat) : Nat :=
  let r := if c.refout then reflect c.width r else r
  if c.finv then r ^^^ (2 ^ c.width - 1) else r

/-- The parameters of check channel 0: CRC-32C (R479). -/
def crc32cParam : CrcParam := ⟨32, 0x1EDC6F41, 0xFFFFFFFF, true, true, true⟩

/-- CRC-32C over bytes, with a context word folded in first when one is given (R481). -/
def crc32c (context : Option Word) (l : List Byte) : Nat :=
  let r := match context with
    | some w => crcBytes crc32cParam 0xFFFFFFFF (beBytes 4 w.toNat)
    | none => 0xFFFFFFFF
  crcResult crc32cParam (crcBytes crc32cParam r l)

end Sys2Proof.Machine
end

