-- ==== Sys2Proof/Machine/Parse.lean ====
section
/-!
DEFINITION. The packet parser (R370, R371): from the bytes of a frame to the 19 words of the key (Table 13-2).

The headers are those of Table 13-1; the lengths of headers that the table only names are those of their standards
(assumption 8).
A header's fields enter the key once the whole header fits in the frame and in the first 256 bytes.
-/

namespace Sys2Proof.Machine

/-- A parse under way over the frame `l` (destination address up to, not including, the FCS). -/
structure Parse where
  l : List Byte
  /-- Offset of the next header. -/
  o : Nat
  /-- 0, or 3 while the inner headers of a VXLAN packet are read. -/
  base : Nat
  layer : Nat
  vlans : Nat
  labels : Nat
  /-- The reason the parser goes no further, once there is one. -/
  stop : Option Nat
  words : List Word
deriving DecidableEq, Repr

/-- STOP codes of R371. -/
def stopComplete : Nat := 0
def stopUnknown : Nat := 1
def stopDepth : Nat := 2
def stopWindow : Nat := 3
def stopFragment : Nat := 4
def stopMalformed : Nat := 5

/-- Replace the field of `w` bits at `lo` of key word `i`. -/
def Parse.put (i lo w n : Nat) (p : Parse) : Parse :=
  { p with words := p.words.set i (setBits (p.words.getD i 0) lo w n) }

/-- Stop the parse; the first reason stands. -/
def Parse.halt (r : Nat) (p : Parse) : Parse :=
  match p.stop with
  | none => { p with stop := some r }
  | some _ => p

/-- `k` bytes at offset `d` of the next header, as a number. -/
def Parse.at (d k : Nat) (p : Parse) : Nat := beAt p.l (p.o + d) k

/-- Go on past a header of `n` bytes with `f`, or stop: MALFORMED when it extends beyond the frame, WINDOW when it reaches
beyond byte 255 (R371). -/
def Parse.header (n : Nat) (f : Parse → Parse) (p : Parse) : Parse :=
  match p.stop with
  | some _ => p
  | none =>
    if p.l.length < p.o + n then p.halt stopMalformed
    else if 256 < p.o + n then p.halt stopWindow
    else f p

/-- Skip bytes. -/
def Parse.skip (n : Nat) (p : Parse) : Parse := { p with o := p.o + n }

/-- Complete a layer. -/
def Parse.done (n : Nat) (p : Parse) : Parse := { p with layer := p.base + n }

/-- The tags that follow the addresses; `left` more are within the limit. The parse stands at a Length/Type field. A stop inside the
tags has not reached the ETYPE that follows them, which stays 0 (R370, R371). -/
def parseTags : Nat → Nat → Parse → Parse
  | 0, _, p => if p.at 0 2 = 0x8100 ∨ p.at 0 2 = 0x88A8 then p.halt stopDepth else p
  | left + 1, n, p =>
    if p.at 0 2 = 0x8100 ∨ p.at 0 2 = 0x88A8 then
      let q := p.skip 2 |>.header 4 (fun p =>
        let p := if n = 0 then p.put 4 0 16 (p.at 0 2) else p.put 5 16 16 (p.at 0 2)
        { p.skip 2 with vlans := n + 1 })
      match q.stop with
      | some _ => q
      | none => parseTags left (n + 1) q
    else p

/-- Ethernet and its tags: the parse ends behind the Length/Type field, which stands in W4. -/
def parseEther (tags : Nat) (p : Parse) : Parse :=
  p.header 14 (fun p =>
    let p := ((p.put 1 0 32 (p.at 0 4)).put 2 0 32 (p.at 4 4)).put 3 0 32 (p.at 8 4)
    let p := parseTags tags 0 (p.skip 12)
    match p.stop with
    | some _ => p
    | none =>
      let q := (p.put 4 16 16 (p.at 0 2)).skip 2
      if p.at 0 2 < 0x0600 then q.halt stopUnknown else q)

/-- The MPLS labels that follow; `left` more are within the limit. -/
def parseLabels : Nat → Parse → Parse
  | 0, p => p.halt stopDepth
  | left + 1, p =>
    let q := p.header 4 (fun p =>
      let p := if p.labels = 0 then p.put 6 9 23 (p.at 0 4 / 2 ^ 9) else p
      { p.skip 4 with labels := p.labels + 1 })
    match q.stop with
    | some _ => q
    | none => if (p.at 2 1) % 2 = 1 then q else parseLabels left q

/-- TCP, UDP or ICMP; the parse stops behind it unless a VXLAN header follows. -/
def parseTransport (proto : Nat) (v6 : Bool) (p : Parse) : Parse :=
  if proto = 6 then
    p.header 20 (fun p => (((p.put 18 0 32 (p.at 0 4)).put 7 16 8 (p.at 13 1)).done 4).halt stopComplete)
  else if proto = 17 then
    p.header 8 (fun p =>
      let d := p.at 2 2
      let q := ((p.put 18 0 32 (p.at 0 4)).done 4).skip 8
      if p.base = 0 ∧ d = 4789 then q
      else if p.base = 0 ∧ (d = 319 ∨ d = 320) then
        q.header 34 (fun q => (q.put 7 24 4 (q.at 0 1)).halt stopComplete)
      else q.halt stopComplete)
  else if (proto = 1 ∧ v6 = false) ∨ (proto = 58 ∧ v6 = true) then
    p.header 4 (fun p => ((p.put 7 24 8 (p.at 0 1)).done 4).halt stopComplete)
  else p.halt stopUnknown

/-- The extension headers of an IPv6 packet; `left` more are within the limit. PROTO ends as the last next header read. -/
def parseExt : Nat → Nat → Parse → Parse
  | left, nh, p =>
    let p := p.put 5 8 8 nh
    if nh = 0 ∨ nh = 43 ∨ nh = 44 ∨ nh = 60 then
      match left with
      | 0 => p.halt stopDepth
      | left + 1 =>
        if nh = 44 then
          let q := p.header 8 (fun p => (p.put 6 8 1 1).skip 8)
          match q.stop with
          | some _ => q
          | none =>
            if p.at 2 2 / 8 = 0 then parseExt left (p.at 0 1) q else (q.put 5 8 8 (p.at 0 1)).halt stopFragment
        else
          let q := (p.header 2 (fun q => q)).header ((p.at 1 1 + 1) * 8) (fun p => p.skip ((p.at 1 1 + 1) * 8))
          match q.stop with
          | some _ => q
          | none => parseExt left (p.at 0 1) q
    else parseTransport nh true p

/-- IPv4. -/
def parseIpv4 (p : Parse) : Parse :=
  p.header 1 (fun p =>
    let ihl := p.at 0 1 % 16
    if p.at 0 1 / 16 ≠ 4 ∨ ihl < 5 then p.halt stopMalformed
    else p.header (4 * ihl) (fun p =>
      let fr := p.at 6 2
      let proto := p.at 9 1
      let q := (((p.put 5 8 8 proto).put 5 0 8 (p.at 1 1)).put 6 0 8 (p.at 8 1)).put 6 8 1
        (b2n (decide (fr % 2 ^ 13 ≠ 0 ∨ fr / 2 ^ 13 % 2 = 1)))
      let q := (((q.put 13 0 32 (p.at 12 4)).put 17 0 32 (p.at 16 4)).done 3).skip (4 * ihl)
      if fr % 2 ^ 13 ≠ 0 then q.halt stopFragment else parseTransport proto false q))

/-- IPv6; `ext` extension headers are within the limit. -/
def parseIpv6 (ext : Nat) (p : Parse) : Parse :=
  p.header 1 (fun p =>
    if p.at 0 1 / 16 ≠ 6 then p.halt stopMalformed
    else p.header 40 (fun p =>
      let q := ((p.put 5 0 8 (p.at 0 2 / 16)).put 9 0 20 (p.at 0 4)).put 6 0 8 (p.at 7 1)
      let q := (List.range 4).foldl (fun q i =>
        (q.put (10 + i) 0 32 (p.at (8 + 4 * i) 4)).put (14 + i) 0 32 (p.at (24 + 4 * i) 4)) q
      parseExt ext (p.at 6 1) ((q.done 3).skip 40)))

/-- ARP: SRC and DST only when PTYPE is 0x0800 and PLEN is 4 (R371). -/
def parseArp (p : Parse) : Parse :=
  p.header 8 (fun p =>
    let h := p.at 4 1
    let n := p.at 5 1
    p.header (8 + 2 * h + 2 * n) (fun p =>
      let q := (p.put 7 24 8 (p.at 7 1)).done 3
      if p.at 2 2 ≠ 0x0800 ∨ n ≠ 4 then q.halt stopUnknown
      else ((q.put 13 0 32 (p.at (8 + h) 4)).put 17 0 32 (p.at (12 + 2 * h) 4)).halt stopComplete))

/-- The layer above Ethernet that an ETYPE selects. -/
def parseNetwork (etype : Nat) (p : Parse) : Parse :=
  if etype = 0x0800 then parseIpv4 p
  else if etype = 0x86DD then parseIpv6 (if p.base = 0 then 2 else 0) p
  else if p.base = 0 ∧ etype = 0x0806 then parseArp p
  else if p.base = 0 ∧ etype = 0x88F7 then
    p.header 34 (fun p => ((p.put 7 24 4 (p.at 0 1)).done 3).halt stopComplete)
  else if p.base = 0 ∧ etype = 0x8902 then
    p.header 4 (fun p => ((p.put 7 24 8 (p.at 1 1)).done 3).halt stopComplete)
  else p.halt stopUnknown

/-- Everything up to the transport layer, or up to a VXLAN header. -/
def parseOuter (p : Parse) : Parse :=
  let p := parseEther (if p.base = 0 then 2 else 1) p
  match p.stop with
  | some _ => p
  | none =>
    let etype := bits (p.words.getD 4 0) 16 16
    if p.base = 0 ∧ (etype = 0x8847 ∨ etype = 0x8848) then
      let p := parseLabels 4 p
      match p.stop with
      | some _ => p
      | none =>
        let p := p.done 2
        if p.l.length ≤ p.o then p.halt stopComplete
        else
          p.header 1 (fun p =>
            if p.at 0 1 / 16 = 4 then parseIpv4 p
            else if p.at 0 1 / 16 = 6 then parseIpv6 2 p
            else p.halt stopUnknown)
    else parseNetwork etype (p.done 2)

/-- W0 of the key: SRC_PORT, PASS 0, LAYER, STOP, VLANS, LABELS and META 0. -/
def keyHead (src layer stop vlans labels : Nat) : Word :=
  word (src % 16 * 2 ^ 28 + layer % 8 * 2 ^ 24 + stop % 8 * 2 ^ 21 + vlans % 4 * 2 ^ 19 + labels % 8 * 2 ^ 16)

/-- The first-pass key of a frame from source `src`, and the inner view of a VXLAN packet whose inner Ethernet layer was
completed, as words W1 to W18. -/
def parseFrame (src : Nat) (l : List Byte) : List Word × Option (List Word) :=
  let z := List.replicate 19 (0 : Word)
  let p := parseOuter ⟨l, 0, 0, 0, 0, 0, none, z⟩
  match p.stop with
  | some r => (p.words.set 0 (keyHead src p.layer r p.vlans p.labels), none)
  | none =>
    let v := p.header 8 (fun p => (p.put 8 8 24 (p.at 4 3)).skip 8)
    match v.stop with
    | some r => (v.words.set 0 (keyHead src v.layer r v.vlans v.labels), none)
    | none =>
      let q := parseOuter ⟨l, v.o, 3, v.layer, 0, 0, none, z⟩
      (v.words.set 0 (keyHead src q.layer (q.stop.getD 0) v.vlans v.labels),
        if 5 ≤ q.layer then some (q.words.drop 1) else none)

/-- LAYER of a key. -/
def keyLayer (key : List Word) : Nat := bits (key.headD 0) 24 3

/-- The PCP of the outer tag: the first priority of a packet; 0 when it has none (R375). -/
def keyPri (key : List Word) : Nat := bits (key.getD 4 0) 13 3

end Sys2Proof.Machine
end

