-- ==== Sys2Proof/Machine/Frames.lean ====
section
/-!
DEFINITION. Frames as bytes: padding and FCS (R356), Internet checksums, and a packet made from received bytes.
-/

namespace Sys2Proof.Machine

/-- The Ethernet FCS of IEEE 802.3, as CRC parameters. -/
def fcsParam : CrcParam := ⟨32, 0x04C11DB7, 0xFFFFFFFF, true, true, true⟩

/-- The four bytes of a frame's FCS, in the order in which they are sent. -/
def fcsBytes (l : List Byte) : List Byte :=
  (beBytes 4 (crcResult fcsParam (crcBytes fcsParam 0xFFFFFFFF l))).reverse

/-- A frame shorter than 60 bytes is padded with zeros to 60 (R356). -/
def padFrame (l : List Byte) : List Byte := l ++ List.replicate (60 - l.length) 0

/-- The whole frame of a packet: padded, with its FCS. -/
def frameBytes (l : List Byte) : List Byte := padFrame l ++ fcsBytes (padFrame l)

/-- The sum of the 16-bit words of a byte string; an odd last byte is followed by a zero byte. -/
def sum16 : List Byte → Nat
  | [] => 0
  | [a] => a.toNat * 256
  | a :: b :: t => a.toNat * 256 + b.toNat + sum16 t

/-- One's complement folding of a sum into 16 bits. -/
def fold16 (n : Nat) : Nat :=
  let a := n / 65536 + n % 65536
  let b := a / 65536 + a % 65536
  b / 65536 + b % 65536

/-- The Internet checksum of a sum. -/
def csum16 (n : Nat) : Nat := 65535 - fold16 n

/-- The dispatcher CRC of R387: W0[31:28] as a whole word, W1 to W5, W8 and W10 to W18. -/
def flowCrc (key : List Word) : Word :=
  let w := fun i => key.getD i (0 : Word)
  word (crc32c none (wordsToBytes
    ((w 0 &&& 0xF0000000) :: ((List.range 5).map (fun i => w (1 + i)) ++ w 8 :: (List.range 9).map (fun i => w (10 + i))))))

/-- The time of arrival and everything else of a packet that enters from source `src` for slice `k` (R381, R375). -/
def mkPkt (src k : Nat) (l : List Byte) (s : State) : Pkt :=
  let r := parseFrame src l
  { bytes := l, slice := k, src := src, second := false, pri := keyPri r.1,
    pcp := if bits (r.1.headD 0) 19 2 = 0 then none else some (keyPri r.1),
    sec := s.secWord, ns := s.nsWord, frac := s.nowFrac, key := r.1, inner := r.2, flow := flowCrc r.1, rule := none,
    tsId := none, segment := false, banks := [], cell := .clean, target := none, fromSeq := none }

end Sys2Proof.Machine
end

