-- ==== Sys2Proof/Machine/Cells.lean ====
section
/-!
DEFINITION. The cells of the packet buffer: table entries, reserves and quotas (R397 to R400), and pause frames (R354, R355).
-/

namespace Sys2Proof.Machine

/-! ### Entries of the node, queue and policer tables (Table 14-6)

An entry belongs to an absolute node, queue or policer; a slice page shows it at its relative index. Its home is the address
at which slice 0's pages would show it if that slice held the whole table. -/

/-- Home address of word `d` of absolute node `a`. -/
def nodeAddr (a d : Nat) : Nat := regAddr (pSlice 0 (0x28 + a / 32)) (0x100 + 0x20 * (a % 32) + d)

/-- Home address of word `d` of queue `q` of absolute node `a`. -/
def queueAddr (a q d : Nat) : Nat := regAddr (pSlice 0 (0x30 + a / 16)) (0x100 + 16 * ((8 * a + q) % 128) + d)

/-- Home address of word `d` of absolute policer `j`. -/
def polAddr (j d : Nat) : Nat := regAddr (pSlice 0 (0x18 + j / 256)) (0x100 + 12 * (j % 256) + d)

/-- PARENT of an absolute node. -/
def nodeParent (a : Nat) (s : State) : Nat := s.fld (nodeAddr a 0) 0 6

/-- The slice that holds absolute node `a`, and its relative number there. -/
def nodeOwner (a : Nat) (s : State) : Option (Nat × Nat) :=
  ((List.range 16).find? (fun k => decide ((s.nodes k).1 ≤ a ∧ a < (s.nodes k).1 + (s.nodes k).2))).map
    (fun k => (k, a - (s.nodes k).1))

/-! ### Counters of a client port (Table 12-7) -/

/-- Add to counter `i` of client port `n`. -/
def macCount (n i k : Nat) (s : State) : State :=
  countAt (pMac n) 0x200 0x180 2 (if i = 0 ∨ i = 1 ∨ i = 32 then 48 else 40) i k s

/-! ### Cells -/

/-- Every packet that holds cells: queued, released toward a client port, or pulled for a grant. -/
def buffered (s : State) : List Pkt :=
  s.buf.queues.flatMap (fun e => e.2) ++ s.mac.flatMap (fun e => e.2.txq) ++ s.buf.line

/-- The cells of some packets. -/
def cellsOf (l : List Pkt) : Nat := (l.map Pkt.cells).sum

/-- BUF_USED of a slice. -/
def usedCells (k : Nat) (s : State) : Nat := cellsOf ((buffered s).filter (fun p => p.slice == k))

/-- DEPTH of a service queue. -/
def queueDepth (a q : Nat) (s : State) : Nat := cellsOf (s.queue (8 * a + q))

/-- DEPTH of a node: the cells of its eight queues. -/
def nodeDepth (a : Nat) (s : State) : Nat := ((List.range 8).map (fun q => queueDepth a q s)).sum

/-- The cells in service (R399). -/
def cellsInService (s : State) : Nat := 4096 * (64 - s.buf.fenced.length)

/-- Sum of SLC_BUF_RESERVE over all slices. -/
def reserveSum (s : State) : Nat := ((List.range 16).map (fun k => bits (s.slc k 0x118) 0 19)).sum

/-- RESERVE_CUT (R399). -/
def reserveCut (s : State) : Bool := decide (cellsInService s < reserveSum s)

/-- RESERVE_CUT is raised when it sets (R399). -/
def cutCheck (old s : State) : State := if !reserveCut old && reserveCut s then raise pBuf 0 s else s

/-- The effective reserve of a slice (R399). -/
def effReserve (k : Nat) (s : State) : Nat :=
  let r := bits (s.slc k 0x118) 0 19
  if reserveCut s then r * cellsInService s / reserveSum s else r

/-- The size of the shared pool (R399). -/
def sharedPool (s : State) : Nat := cellsInService s - ((List.range 16).map (fun k => effReserve k s)).sum

/-- The cells of the shared pool in use: those of each slice above its effective reserve (R399). -/
def sharedUsed (s : State) : Nat := ((List.range 16).map (fun k => usedCells k s - effReserve k s)).sum

/-- The banks for `n` cells, in rotation over the banks in service, from bank `r`; and the bank after them (R397). -/
def takeBanks (fenced : List Nat) : Nat → Nat → Nat → List Nat × Nat
  | 0, _, r => ([], r)
  | _, 0, r => ([], r)
  | n + 1, fuel + 1, r =>
    if fenced.contains r then takeBanks fenced (n + 1) fuel ((r + 1) % 64)
    else
      let t := takeBanks fenced n fuel ((r + 1) % 64)
      (r :: t.1, t.2)

/-! ### Pause and priority flow control (R353 to R355, R366) -/

/-- The held cells of port `n`; with `pri` those of one priority (R354). -/
def heldCells (n : Nat) (pri : Option Nat) (s : State) : Nat :=
  cellsOf ((buffered s).filter (fun p => p.src == n &&
    match pri with
    | none => true
    | some x => p.pcp.getD (s.fld (regAddr (pMac n) 0x114) 0 3) == x))

/-- LINK of a client port. -/
def macLink (n : Nat) (s : State) : Bool := s.flag (regAddr (pMac n) 0x104) 0

/-- Queue `q` of a node on client port `n` is held by a received pause (R353, R407). -/
def queueHeld (n q : Nat) (s : State) : Bool :=
  let st := s.rp (pMac n) 0x104
  bit st 4 || bit st (8 + bits (s.rp (pMac n) 0x110) (3 * q) 3)

/-- A PAUSE frame (`pri` 8) or a PFC frame that sets one priority, without its FCS (R355): destination 01-80-C2-00-00-01, source
MAC_ADDR, no VLAN tag. -/
def pauseFrame (n pri quanta : Nat) (s : State) : List Byte :=
  padFrame (beBytes 6 0x0180C2000001 ++ beBytes 2 (s.fld (regAddr (pMac n) 0x120) 0 16) ++ beBytes 4 (s.rp (pMac n) 0x124).toNat ++
    beBytes 2 0x8808 ++
    (if pri = 8 then beBytes 2 0x0001 ++ beBytes 2 quanta
     else beBytes 2 0x0101 ++ beBytes 2 (2 ^ pri) ++ (List.range 8).flatMap (fun p => beBytes 2 (if p = pri then quanta else 0))))

/-- Send a PAUSE frame (`pri` 8) or a PFC frame for one priority, and count it (R355). -/
def sendPause (n pri quanta : Nat) (s : State) : State :=
  if pri = 8 then macCount n 38 1 (s.emit (.pause n (pauseFrame n pri quanta s)))
  else macCount n (64 + pri) 1 (macCount n 39 1 (s.emit (.pfc n (pauseFrame n pri quanta s))))

/-- The priorities that flow control of port `n` watches: 8 stands for 802.3x pause. -/
def pauseKinds (n : Nat) (s : State) : List Nat :=
  match s.fld (regAddr (pMac n) 0x10C) 0 2 with
  | 1 => [8]
  | 2 => List.range 8
  | _ => []

/-- Set or clear XOFF for one kind on port `n`; XOFF is raised when XOFF_SENT sets. -/
def setXoff (n pri : Nat) (on : Bool) (s : State) : State :=
  let x := s.port n
  let xs := if on then x.xoff + 2 ^ pri else x.xoff - 2 ^ pri
  let s := s.setPort n { x with xoff := xs }
  if x.xoff = 0 ∧ xs ≠ 0 then raise (pMac n) 5 s else s

/-- What R354 does for one kind on port `n` when the held cells may have changed. -/
def pauseOne (n pri : Nat) (s : State) : State :=
  let held := heldCells n (if pri = 8 then none else some pri) s
  let on := (s.port n).xoff.testBit pri
  if !on && decide (s.fld (regAddr (pMac n) 0x118) 0 19 ≤ held) then
    sendPause n pri (s.fld (regAddr (pMac n) 0x10C) 16 16) (setXoff n pri true s)
  else if on && decide (held ≤ s.fld (regAddr (pMac n) 0x11C) 0 19) then
    sendPause n pri 0 (setXoff n pri false s)
  else s

/-- Flow control of client port `n` after a change of its held cells (R354, R366). -/
def pauseCheck (n : Nat) (s : State) : State :=
  if decide (n < 8) && macLink n s && s.flag (regAddr (pMac n) 0x10C) 3 then
    (pauseKinds n s).foldl (fun s p => pauseOne n p s) s
  else s

/-- Free the cells of packets that leave: the ports on which they arrived look at their held cells again. -/
def freed (l : List Pkt) (s : State) : State := l.foldl (fun s p => pauseCheck p.src s) s

/-- The index of a bad cell in bank `b`: cell c lies in bank c mod 64 (Table 18-1). Its row is a free value, because the spec gives
no order in which the cells of a bank are taken. -/
def badCell (b : Nat) (s : State) : Nat × State :=
  let f := s.takeFree
  (f.1.toNat % 4096 * 64 + b, f.2)

/-- The census port of frames on a node: its egress port (R412). -/
def egressPort (a : Nat) (p : Pkt) (s : State) : Nat :=
  let n := nodeParent a s
  if n < 32 then 8 else if n < 40 then n - 32 else if n = 40 then 9 else p.src

end Sys2Proof.Machine
end

