-- ==== Sys2Proof/Machine/Ecc.lean ====
section
/-!
DEFINITION. Memory integrity (R491 to R509): what a read of a word in error does, the effects of Table 18-1 on table entries, and
where an armed flip lands.

The register file holds the corrected contents of every word; an error that has not been read yet stands beside it as an
`Upset` (assumption 10).
-/

namespace Sys2Proof.Machine

/-! ### Where a memory belongs -/

/-- The device page that owns a memory (Table 18-3). -/
def memPage (mem bank : Nat) : Nat :=
  if mem < 0x40 then pBuf
  else if mem < 0x50 then pLane 0
  else if mem < 0x60 then pLane (mem - 0x50)
  else if mem < 0x62 then pSch
  else if mem = 0x62 then pPol
  else if mem = 0x68 then 0x020 + bank % 2
  else if mem = 0x69 then pCry
  else if mem = 0x6A then 0x024 + bank % 2
  else if 0x70 ≤ mem ∧ mem < 0x78 then pSeq (mem - 0x70)
  else if 0x80 ≤ mem ∧ mem < 0x82 then 0x020 + (mem - 0x80)
  else if 0x82 ≤ mem ∧ mem < 0x84 then 0x024 + (mem - 0x82)
  else if 0x84 ≤ mem ∧ mem < 0x8C then pMac (mem - 0x84)
  else if 0x8C ≤ mem ∧ mem < 0x8E then 0x010 + (mem - 0x8C)
  else if mem = 0x8E then pTsu
  else if 0x90 ≤ mem ∧ mem < 0x98 then pMac (mem - 0x90)
  else if 0x98 ≤ mem ∧ mem < 0x9C then 0x010 + mem % 2
  else if mem = 0x9C then pMbx (bank % 6)
  else if mem = 0x9D then pMac (bank % 8)
  else if mem = 0x9E then 0x022 + bank % 2
  else if mem = 0xB0 then pFlt
  else if mem = 0xC0 then pLog
  else if mem = 0xD0 then pNvs
  else pEcc

/-- The rows of a scrubbed memory: banks, rows per bank and words per row (Table 18-1); none for a memory that the scrubber does
not visit. -/
def memShape (mem : Nat) : Option (Nat × Nat × Nat) :=
  if mem < 0x40 then some (1, 4096, 17)
  else if mem < 0x48 then some (1, 1024, 21)
  else if mem = 0x48 then some (16, 64, 8)
  else if mem = 0x49 then some (8, 128, 2)
  else if 0x50 ≤ mem ∧ mem < 0x60 then some (1, 256, 8)
  else if mem = 0x60 then some (4, 64, 4)
  else if mem = 0x61 then some (8, 256, 2)
  else if mem = 0x62 then some (4, 1024, 2)
  else if mem = 0x68 then some (2, 64, 4)
  else if mem = 0x69 then some (2, 8, 2)
  else if mem = 0x6A then some (2, 16, 4)
  else if 0x70 ≤ mem ∧ mem < 0x78 then some (1, 480, 8)
  else if mem = 0xB0 then some (1, 4096, 8)
  else if mem = 0xC0 then some (1, 256, 8)
  else none

/-- The flip scopes of Table 18-1. -/
inductive FlipScope where
  | slice | shared | none
deriving DecidableEq, Repr

/-- The flip scope of a memory; `none` also for a MEM_ID that Table 18-1 does not list. -/
def flipScope (mem : Nat) : FlipScope :=
  if mem < 0x4A then .slice
  else if 0x50 ≤ mem ∧ mem < 0x60 then .shared
  else if 0x60 ≤ mem ∧ mem < 0x63 then .slice
  else if mem = 0x68 ∨ mem = 0x6A then .shared
  else if 0x70 ≤ mem ∧ mem < 0x78 then .slice
  else if 0x80 ≤ mem ∧ mem < 0x9F then .shared
  else .none

/-- Relative number of an absolute entry in the slice that holds it, by the slices' ranges. -/
def entryOwner (range : Nat → State → Nat × Nat) (i : Nat) (s : State) : Option (Nat × Nat) :=
  ((List.range 16).find? (fun k => decide ((range k s).1 ≤ i ∧ i < (range k s).1 + (range k s).2))).map
    (fun k => (k, i - (range k s).1))

/-- The page that holds the entry in a word: where MEM_POISON_USE is recorded (R495). -/
def entryPage (l : MemLoc) (slice : Nat) (s : State) : Nat :=
  let own := memPage l.mem l.bank
  if 0x40 ≤ l.mem ∧ l.mem < 0x48 then
    match entryOwner (fun k s => s.ruleRange k) (1024 * (l.mem - 0x40) + l.row) s with
    | some (k, _) => pSlice k 8
    | none => own
  else if l.mem = 0x48 then pSlice slice 9
  else if l.mem = 0x49 then pSlice slice (0xA + l.bank)
  else if l.mem = 0x60 then
    match nodeOwner (64 * l.bank + l.row) s with
    | some (k, m) => pSlice k (0x28 + m / 32)
    | none => own
  else if l.mem = 0x61 then
    match nodeOwner ((256 * l.bank + l.row) / 8) s with
    | some (k, m) => pSlice k (0x30 + m / 16)
    | none => own
  else if l.mem = 0x62 then
    match entryOwner (fun k s => s.polRange k) (1024 * l.bank + l.row) s with
    | some (k, j) => pSlice k (0x18 + j / 256)
    | none => own
  else own

/-- The DETAIL of a memory location (Table 18-4). -/
def locWord (l : MemLoc) (bit : Nat) : Word := word (l.mem * 2 ^ 24 + l.row * 2 ^ 12 + l.word % 32 * 2 ^ 7 + bit % 128)

/-- Count in ECC counter `i`. -/
def eccCount (i k : Nat) (s : State) : State := countAt pEcc 0x200 0x1F0 5 40 i k s

/-! ### Self-tests of rows (R502) -/

/-- Set the SELFTEST_RESULT of a page. -/
def setTest (p : Nat) (st : TestStatus) (auto : Bool) (unit detail : Nat) (s : State) : State :=
  s.setHdr p { s.hdr p with testStatus := st, testAuto := auto, testResUnit := unit, testDetail := detail }

/-- SELFTEST_RESULT of a page (Table 3-2). -/
def testWord (h : Hdr) : Word :=
  word (h.testStatus.code + b2n h.testAuto * 4 + h.testResUnit % 256 * 2 ^ 8 + h.testDetail % 65536 * 2 ^ 16)

/-- The UNIT of a row test: the bank; a memory of one bank among several of its kind is that bank. -/
def testUnitOf (l : MemLoc) : Nat := if l.mem < 0x40 then l.mem else l.bank

/-- Start the targeted self-test of a row, once while one of it is under way (R502, R515). -/
def startRowTest (l : MemLoc) (s : State) : State :=
  if s.ecc.tests.any (fun t => t.mem == l.mem && t.bank == l.bank && t.row == l.row) then s
  else
    let s := { s with ecc := { s.ecc with tests := s.ecc.tests ++ [l] } }
    eccCount 6 1 (setTest (memPage l.mem l.bank) .running true (testUnitOf l) l.row s)

/-- The automatic self-test of a whole unit starts (R389, R471, R490, R506). -/
def startUnitTest (p unit : Nat) (s : State) : State :=
  let s := eccCount 6 1 (setTest p .running true unit 0 s)
  s.setHdr p { s.hdr p with testing := true }

/-! ### Effects on table entries (Table 18-1) -/

/-- A packet is counted once with reason POISON at its egress port; the detail is the index of a cell of it (Table 14-3). -/
def poisoned (e : Nat) (p : Pkt) (s : State) : State :=
  let c := badCell (p.banks.headD 0) s
  dropAt .poison p.slice e (some p) c.1 c.2

/-- The deficits of queues that have become empty, and those of a node whose queues have, return to 0 (R405, R406). -/
def settleEmpty (a : Nat) (s : State) : State :=
  let empty := (List.range 8).filter (fun q => (s.queue (8 * a + q)).isEmpty)
  let qd := empty.foldl (fun t q => tblSet 0 (8 * a + q) 0 t) s.buf.queueDef
  let nd := if empty.length = 8 then tblSet 0 (2 * a) 0 (tblSet 0 (2 * a + 1) 0 s.buf.nodeDef) else s.buf.nodeDef
  { s with buf := { s.buf with queueDef := qd, nodeDef := nd } }

/-- The packets of a service queue are freed with reason POISON. -/
def poisonQueue (a q : Nat) (s : State) : State :=
  let l := s.queue (8 * a + q)
  freed l (settleEmpty a ((l.foldl (fun s p => poisoned (egressPort a p s) p s) s).setQueue (8 * a + q) []))

/-- A packet with a poisoned cell never leaves (R496): the poison is met at use in the egress block, and the packet counts once with
reason POISON. -/
def dropPoison (page e : Nat) (p : Pkt) (s : State) : State :=
  let l := match p.cell with
    | .poisoned l => l
    | .upset l _ => l
    | .clean => ⟨0, 0, 0, 0⟩
  let s := recordFault page 0x0104 (locWord l 0x7F) 0 (eccCount 3 1 s)
  dropAt .poison p.slice e (some p) (l.row * 64 + l.mem) s

/-- Empty a key slot and tell of it; the Keeper asks the head end for a new key (R260). Rows beyond the five slots hold nothing. -/
def loseKey (feeder slot : Nat) (s : State) : State :=
  if 5 ≤ slot then s
  else
    let f := if feeder = 0 then AB.a else .b
    let s := s.setFlag (regAddr pCry 0x100) (slot + 8 * feeder) false
    let s := { s with keys := tblSet [] (8 * feeder + slot) [] s.keys, act := s.act.set f { s.act.get f with keyAsk := true } }
    raise pCry 1 (recordFault pCry 0x0701 (word (slot + feeder * 256)) 0 s)

/-! ### Chains of the line (R250, R271, R275) -/

/-- A mark in the line of delineated frames. -/
def pushMark (f : AB) (d : XDest) (s : State) : State :=
  let x := s.lfr.get f
  { s with lfr := s.lfr.set f { x with xq := x.xq ++ [⟨d, 0, false, [], false, none, 0, 0, 0⟩] } }

/-- The reassembly of context `e`. -/
def sduOf (f : AB) (e : Nat) (s : State) : Option Sdu := tblGet none e (s.lfr.get f).sdus

/-- Set the reassembly of a context. -/
def setSdu (f : AB) (e : Nat) (x : Option Sdu) (s : State) : State :=
  { s with lfr := s.lfr.set f { s.lfr.get f with sdus := tblSet none e x (s.lfr.get f).sdus } }

/-- What is left of a broken SDU is discarded through LF = 1. -/
def deaden (f : AB) (e k : Nat) (quiet lf : Bool) (s : State) : State :=
  setSdu f e (if lf then none else some ⟨k, [], 0, true, quiet, false⟩) s

/-- The partial SDU of a context is dropped once with reason LINE_REASM (R250, R271). A context whose rest is being discarded goes on
doing so (R275). -/
def dropSdu (f : AB) (e : Nat) (s : State) : State :=
  match sduOf f e s with
  | none => s
  | some x => if x.dead then s else dropAt .lineReasm x.slice 8 none 0 (setSdu f e none s)

/-- A chain is broken by a change of its entry; the rest of its SDU is discarded when the entry goes on. -/
def cutSdu (f : AB) (e : Nat) (keep : Bool) (s : State) : State :=
  match sduOf f e s with
  | none => s
  | some x => if keep then deaden f e x.slice true false (dropSdu f e s) else setSdu f e none (dropSdu f e s)

/-- The entry of a chain is invalidated or changed: the frames delineated before are taken as they stand (R271). -/
def cutChain (f : AB) (e : Nat) (keep : Bool) (s : State) : State :=
  if (s.lfr.get f).xq.isEmpty then cutSdu f e keep s else pushMark f (.cut e keep) s

/-- The effect of Table 18-1 on the entry in a poisoned word. -/
def memEffect (l : MemLoc) (slice : Nat) (s : State) : State :=
  if 0x40 ≤ l.mem ∧ l.mem < 0x48 then
    let i := 1024 * (l.mem - 0x40) + l.row
    let r := s.ruleAt i
    s.setRule i { r with act := r.act.set 0 (setBits (r.act.headD 0) 31 1 0) }
  else if l.mem = 0x48 then s.setFlag (regAddr (pSlice slice 9) (0x100 + 4 * (8 * l.row + l.word))) 16 false
  else if l.mem = 0x49 then s.setCtr (regAddr (pSlice slice (0xA + l.bank)) (0x800 + 16 * l.row + 8 * (l.word % 2))) 0
  else if l.mem = 0x60 then s.setFld (nodeAddr (64 * l.bank + l.row) 0) 0 6 63
  else if l.mem = 0x61 then
    let i := 256 * l.bank + l.row
    poisonQueue (i / 8) (i % 8) (s.setFld (queueAddr (i / 8) (i % 8) 0) 0 19 0)
  else if l.mem = 0x62 then
    let j := 1024 * l.bank + l.row
    (s.setFld (polAddr j 0) 0 23 0).setFld (polAddr j 4) 0 24 0
  else if l.mem = 0x68 then
    let e := 8 * l.row + 2 * l.word
    let p := 0x020 + l.bank % 2
    let f := if l.bank % 2 = 0 then AB.a else .b
    let s := cutChain f (e + 1) false (cutChain f e false s)
    (s.setFlag (regAddr p (0x800 + 4 * e)) 20 false).setFlag (regAddr p (0x804 + 4 * e)) 20 false
  else if l.mem = 0x69 then loseKey (l.bank % 2) l.row s
  else if l.mem = 0x6A then s.setFlag (regAddr (0x024 + l.bank % 2) (0x200 + 4 * (2 * l.row + l.word / 2))) 16 false
  else s

/-- Whether poison in this memory is acted on through `memEffect`. -/
def isTable (mem : Nat) : Bool :=
  decide ((0x40 ≤ mem ∧ mem < 0x4A) ∨ (0x60 ≤ mem ∧ mem < 0x63) ∨ (0x68 ≤ mem ∧ mem < 0x6B))

/-- Poison met at use in a table entry: the effect, which clears the poison, the count and the fault (R494, R495). -/
def poisonUse (l : MemLoc) (slice : Nat) (s : State) : State :=
  let p := entryPage l slice s
  let s := memEffect l slice { s with ecc := { s.ecc with poison := s.ecc.poison.filter (fun x => x != l) } }
  recordFault p 0x0104 (locWord l 0x7F) 0 (eccCount 3 1 s)

/-- A word is poisoned by a read on demand or by the scrubber: a UE (R492, R501). A second UE in a row that is already poisoned
starts no new test (R515). -/
def foundUe (l : MemLoc) (scrub : Bool) (s : State) : State :=
  let again := s.ecc.poison.any (fun x => x.mem == l.mem && x.bank == l.bank && x.row == l.row)
  let s := { s with ecc := { s.ecc with poison := s.ecc.poison ++ [l] } }
  let s := raise pEcc 1 (eccCount (if scrub then 2 else 1) 1 s)
  let s := recordFault (memPage l.mem l.bank) (if scrub then 0x0103 else 0x0102) (locWord l 0x7F) 0 s
  if again then s else startRowTest l s

/-- A single-bit error is corrected (R491); the key store keeps no slot in which any error has been found (R260). -/
def foundCe (l : MemLoc) (bit : Nat) (s : State) : State :=
  let s := raise pEcc 0 (eccCount 0 1 s)
  let s := { s with ecc := { s.ecc with ces := s.ecc.ces ++ [(l, s.clock)] } }
  let s := startRowTest l (recordFault (memPage l.mem l.bank) 0x0101 (locWord l bit) 0 s)
  if l.mem = 0x69 then loseKey (l.bank % 2) l.row s else s

/-- A UE that the scrubber finds: the effect of Table 18-1 on the table entries of slices alone (R501), and on a key slot (R260). -/
def scrubEffect (l : MemLoc) (slice : Nat) (s : State) : State :=
  if isTable l.mem && flipScope l.mem == .slice then poisonUse l slice s
  else if l.mem = 0x69 then
    loseKey (l.bank % 2) l.row { s with ecc := { s.ecc with poison := s.ecc.poison.filter (fun x => x != l) } }
  else s

/-- Take the standing errors of a word away. -/
def clearUpset (u : Upset) (s : State) : State := { s with ecc := { s.ecc with upsets := s.ecc.upsets.filter (fun x => x != u) } }

/-- One standing error is read: one bit is a CE, more are a UE (R491). A demand read uses the entry at once. -/
def readUpset (scrub : Bool) (u : Upset) (s : State) : State :=
  let s := clearUpset u s
  match u.bits with
  | [b] => foundCe u.loc b s
  | _ =>
    let s := foundUe u.loc scrub s
    if scrub then scrubEffect u.loc u.slice s else if isTable u.loc.mem then poisonUse u.loc u.slice s else s

/-- A demand read of a row of a table: its standing errors are found and poison in it is met (R491 to R495). `slice` tells the
entries of slices apart in the memories that each slice has of its own. -/
def readRow (mem bank row slice : Nat) (s : State) : State :=
  let here := fun (l : MemLoc) => l.mem == mem && l.bank == bank && l.row == row
  let s := (s.ecc.upsets.filter (fun u => here u.loc && (mem != 0x49 || u.slice == slice))).foldl (fun s u => readUpset false u s) s
  (s.ecc.poison.filter here).foldl (fun s l => if isTable l.mem then poisonUse l slice s else s) s

/-! ### Flips (R509) -/

/-- The bits that the flip mask names, data bits first. -/
def flipBits (s : State) : List Nat :=
  (List.range 72).filter (fun i =>
    if i < 32 then s.flag (regAddr pEcc 0x124) i
    else if i < 64 then s.flag (regAddr pEcc 0x128) (i - 32)
    else s.flag (regAddr pEcc 0x12C) (i - 64))

/-- A whole code word is written on behalf of a slice: it clears poison there (R492), and an armed flip of that memory lands. -/
def wroteWord (l : MemLoc) (slice : Nat) (s : State) : State :=
  let s := { s with ecc := { s.ecc with
    poison := s.ecc.poison.filter (fun x => x != l),
    upsets := s.ecc.upsets.filter (fun u => !(u.loc == l && u.slice == slice)) } }
  let r := s.rp pEcc 0x120
  if bit r 16 && bits r 0 8 == l.mem && (flipScope l.mem == .shared || bits r 8 4 == slice) then
    let s := { s with ecc := { s.ecc with upsets := s.ecc.upsets ++ [Upset.mk l slice (flipBits s)] } }
    raise pEcc 6 (s.setFlag (regAddr pEcc 0x120) 16 false)
  else s

/-- A 32-bit register that shares its code word with the register at address `sib` is written: a write of part of a poisoned word
sets the rest of it to 0 and counts POISON_CLEARED (R492). -/
def wrotePart (l : MemLoc) (slice sib : Nat) (s : State) : State :=
  let cut := fun (s : State) =>
    if l.mem = 0x68 then cutChain (if l.bank % 2 = 0 then .a else .b) ((sib % 0x1000 - 0x800) / 4) false s else s
  let s := if s.ecc.poison.contains l then eccCount 4 1 ((cut s).wr sib 0) else s
  wroteWord l slice s

/-- The read of one word by a master (R494): its standing error is found and poison in it is met. True when the word was poisoned.
The words of a memory that each slice has of its own are told apart by `slice`. -/
def readLoc (l : MemLoc) (slice : Nat) (s : State) : State × Bool :=
  match s.ecc.upsets.find? (fun u => u.loc == l && (l.mem != 0x49 || u.slice == slice)) with
  | some u => (readUpset false u s, decide (1 < u.bits.length))
  | none =>
    if s.ecc.poison.contains l then (if isTable l.mem then poisonUse l slice s else s, true)
    else (s, false)

/-- Something passes through a transit memory (R493, R497): a flip armed for it lands and is read at once. True when what passed
is poisoned. The row is a free value. -/
def transit (mem : Nat) (s : State) : Bool × State :=
  let r := s.rp pEcc 0x120
  if bit r 16 && bits r 0 8 == mem then
    let f := s.takeFree
    let l := MemLoc.mk mem 0 (f.1.toNat % 4096) 0
    let s := raise pEcc 6 (f.2.setFlag (regAddr pEcc 0x120) 16 false)
    match flipBits s with
    | [x] => (false, foundCe l x s)
    | _ =>
      let s := foundUe l false s
      (true, { s with ecc := { s.ecc with poison := s.ecc.poison.filter (fun x => x != l) } })
  else (false, s)

/-- The word of a node entry that register word `d` lies in. -/
def nodeLoc (a d : Nat) : MemLoc := ⟨0x60, a / 64, a % 64, d / 8⟩

/-- The word of a queue entry. -/
def queueLoc (a q d : Nat) : MemLoc := ⟨0x61, (8 * a + q) / 256, (8 * a + q) % 256, d / 8⟩

/-- The word of a policer. -/
def polLoc (j : Nat) : MemLoc := ⟨0x62, j / 1024, j % 1024, 0⟩

/-- The row of a rule; word 0 stands for the entry. -/
def ruleLoc (i : Nat) : MemLoc := ⟨0x40 + i / 1024, 0, i % 1024, 0⟩

end Sys2Proof.Machine
end

