-- ==== Sys2Proof/Machine/Operands.lean ====
section
/-!
DEFINITION. The operand forms of a transaction: the control address map, the access checks of R94, freezes, and the one
operation that runs a single-word write or read.

A block gives a register's behaviour as a `Handler`; the checks, the refusal records (R96) and the freezes (R114) are the same
for every register and stand here once.
-/

namespace Sys2Proof.Machine

/-! ### The control address map (R81, Table 3-1) -/

/-- What a control address names. -/
inductive Target where
  /-- A register offset of a device page, reached directly or through a slice window. -/
  | reg (win : Option Nat) (p off : Nat)
  /-- A window slot whose unit is not assigned to the window's slice (R93). -/
  | emptySlot (win : Nat)
  /-- A byte address of LPDDR4X, word aligned. -/
  | mem (a : Nat)
deriving DecidableEq, Repr

/-- The device page that a window slot from 0x40 to 0x57 presents (Table 3-4). -/
def unitPage (k : Nat) : Nat :=
  if k < 0x48 then pMac (k - 0x40) else if k < 0x50 then pSeq (k - 0x48) else pChk (k - 0x50)

/-- The target of an address; `none` outside the map (R81, R50). -/
def resolve (addr : Nat) (s : State) : Option Target :=
  if addr < 0x1000000 then
    match pageInfo (addr / 0x1000) with
    | none => none
    | some _ => some (.reg none (addr / 0x1000) (addr % 0x1000))
  else if addr < 0x2000000 then
    let w := (addr - 0x1000000) / 0x100000
    let k := addr / 0x1000 % 0x100
    if k < 0x40 then
      match sliceSlot w k with
      | none => none
      | some _ => some (.reg (some w) (pSlice w k) (addr % 0x1000))
    else if k < 0x58 then
      match (pageInfo (unitPage k)).bind (fun i => s.unitSlice i) with
      | some o => if o = w then some (.reg (some w) (unitPage k) (addr % 0x1000)) else some (.emptySlot w)
      | none => some (.emptySlot w)
    else none
  else if 0x100000000 ≤ addr ∧ addr < 0x100000000 + s.memSize then some (.mem (addr - 0x100000000))
  else none

/-- A word at LPDDR4X address `a` lies in a region of a slice that the master owns (R84). -/
def inOwnRegion (m : AB) (a : Nat) (s : State) : Bool :=
  (List.range 16).any (fun k =>
    let r := s.region k
    decide (r.1 ≤ a ∧ a + 4 ≤ r.1 + r.2) && s.ownsSlice m k)

/-- A word at LPDDR4X address `a` lies in the reserved region (R550). -/
def inReserved (a : Nat) (s : State) : Bool :=
  decide ((s.reserved).1 ≤ a ∧ a + 4 ≤ (s.reserved).1 + (s.reserved).2)

/-- The aperture access that R84 admits. -/
def memAllowed (m : AB) (a : Nat) (s : State) : Bool :=
  inOwnRegion m a s ||
    (inReserved a s && s.fw.stager == some m && s.fw.load != .checking && s.fw.load != .writing)

/-- A mailbox channel's sender and receiver (Table 4-4); `none` for the Keeper. -/
def mbxSender (i : Nat) : Option AB :=
  match i with
  | 0 => some .a | 1 => some .b | 4 => some .a | 5 => some .b | _ => none

/-- The receiver of a mailbox channel; `none` for the Keeper. -/
def mbxReceiver (i : Nat) : Option AB :=
  match i with
  | 2 => some .a | 3 => some .b | 4 => some .b | 5 => some .a | _ => none

/-- R121: the read of a mailbox data word that is refused. -/
def mbxReadRefused (m : AB) (i off : Nat) : Bool :=
  decide (0x140 ≤ off ∧ off < 0x180) && !(mbxSender i == some m || mbxReceiver i == some m)

/-- R121: the write of a mailbox page that is refused. -/
def mbxWriteRefused (m : AB) (i off : Nat) : Bool :=
  if off = 0x008 ∨ off = 0x014 ∨ off = 0x01C ∨ off = 0x028 then mbxReceiver i != some m
  else if off = 0x104 ∨ (0x140 ≤ off ∧ off < 0x180) then mbxSender i != some m
  else false

/-- Step 2 of R94 for a read (Table 3-5, R87, R121). -/
def readDenied (m : AB) (t : Target) (s : State) : Option Cause :=
  match t with
  | .emptySlot w => if s.ownsSlice m w then none else some .ownership
  | .mem a => if memAllowed m a s then none else some .ownership
  | .reg (some w) p off =>
    if !s.ownsSlice m w then some .ownership
    else if (off = 0 ∨ off = 4 ∨ off = 0x30) then none
    else if s.mayRead m p then none else some .ownership
  | .reg none p off =>
    match pageInfo p with
    | none => some .ownership
    | some i =>
      if off = 0 ∨ off = 4 ∨ off = 0x30 then none
      else if !s.mayRead m p then some .ownership
      else if i.blk = .mbx ∧ mbxReadRefused m i.inst off = true then some .ownership
      else none

/-- Step 2 of R94 for a write. -/
def writeDenied (m : AB) (t : Target) (s : State) : Option Cause :=
  match t with
  | .emptySlot w => if s.ownsSlice m w then some .emptySlot else some .ownership
  | .mem a => if memAllowed m a s then none else some .ownership
  | .reg win p off =>
    match win with
    | some w => if !s.ownsSlice m w then some .ownership
        else match pageInfo p with
          | none => some .ownership
          | some i => if (s.mastersOf i).testBit m.num then none else some .ownership
    | none =>
      match pageInfo p with
      | none => some .ownership
      | some i =>
        if !(s.mastersOf i).testBit m.num then some .ownership
        else if i.blk = .mbx ∧ mbxWriteRefused m i.inst off = true then some .ownership
        else none

/-- A write refused with cause OWNERSHIP here is the violation FOREIGN_SLICE (Table 4-2, R112). -/
def foreignSlice (t : Target) (s : State) : Bool :=
  match t with
  | .emptySlot _ => true
  | .mem a => !inReserved a s
  | .reg (some _) _ _ => true
  | .reg none p _ =>
    match pageInfo p with
    | none => false
    | some i => blkScope i.blk == 1 || (blkScope i.blk == 2 && (s.unitSlice i).isSome)

/-! ### Freezes (R112 to R119) -/

/-- What identifies the violating request in a freeze record (Table 4-3). -/
structure Req where
  type : Nat
  tag : Nat
  addr : Nat
  slice : Nat
deriving DecidableEq, Repr

/-- A master's freeze record. -/
def State.frz (s : State) (m : AB) : Freeze := s.masters.frz.get m

/-- Replace a freeze record. -/
def State.setFrz (s : State) (m : AB) (f : Freeze) : State :=
  { s with masters := { s.masters with frz := s.masters.frz.set m f } }

/-- A master is frozen. -/
def State.isFrozen (s : State) (m : AB) : Bool := (s.frz m).frozen

/-- SEQ of the frame that the last delivered request came in. -/
def State.lastSeq (s : State) (m : AB) : Nat := ((s.link m).expSeq + 65535) % 65536

/-- Freeze a master (R114): the record, FREEZE_x, the forced EVENT, the log entry and the staging window (R133). -/
def freezeMaster (m : AB) (cause : Nat) (q : Req) (s : State) : State :=
  let old := s.frz m
  let noAddr := decide (q.type = 0x10 ∨ q.type = 0x20 ∨ cause = 4)
  let f : Freeze :=
    { frozen := true, cause := cause, freezes := satAdd 255 old.freezes 1, addr := if noAddr then 0 else q.addr,
      type := q.type, slice := q.slice, tag := q.tag, seq := s.lastSeq m, sec := s.secWord, ns := s.nsWord,
      discarded := 0, refused := 0, queued := [] }
  let s := s.setFrz m f
  let s := raise pSem m.num s
  let s := queueEvent m pSem false s
  let s := addLog .freeze pSem 0 0 (word (m.num + cause * 16 + f.freezes * 256 + q.tag % 65536 * 65536)) s
  if s.fw.stager = some m then { s with fw := { s.fw with stager := none } } else s

/-- Count a request answered FROZEN (R116). -/
def countRefused (m : AB) (s : State) : State :=
  let f := s.frz m
  s.setFrz m { f with refused := satAdd 65535 f.refused 1 }

/-- List and count a queued write (R115). -/
def countQueued (m : AB) (w : QWrite) (s : State) : State :=
  let f := s.frz m
  s.setFrz m { f with discarded := satAdd 65535 f.discarded 1,
                      queued := if f.queued.length < 16 then f.queued ++ [w] else f.queued }

/-! ### Refusal records (R96, Table 3-6) -/

/-- The first refusal register of a master. -/
def accBase (m : AB) : Nat := regAddr pFlt (0x100 + 0x10 * m.num)

/-- Count a refused write and overwrite the master's last-refusal record. -/
def recordRefusal (m : AB) (st : Status) (c : Cause) (addr : Nat) (s : State) : State :=
  let s := s.bump (accBase m + (if st = .range then 0 else 4)) 1
  let s := s.wr (accBase m + 8) (word (addr / 2 ^ 32 % 256 + st.code * 256 + c.code * 2 ^ 12))
  s.wr (accBase m + 12) (word addr)

/-- End a transaction: its status, data and cause become the model's record of the last one. -/
def ended (st : Status) (d : Word) (c : Cause) (s : State) : State := { s with last := ⟨st, d, c⟩ }

/-- End a refused write: DENIED and RANGE are recorded; DENIED may freeze the master (Table 4-2). -/
def refuseWrite (m : AB) (st : Status) (c : Cause) (freeze : Option Nat) (q : Req) (s : State) : State :=
  let s := if st = .range ∨ st = .denied then recordRefusal m st c q.addr s else s
  let s := if c = .presence then s.bump (regAddr pPrs 0x114) 1 else s
  let s := match freeze with
    | some k => freezeMaster m k q s
    | none => s
  ended st 0 c s

/-! ### Handlers -/

/-- What a block adds to the generic treatment of a register write. -/
structure Handler where
  /-- A refusal with cause OWNERSHIP of the block's own, which freezes nobody (R106, R112, R133). -/
  own : AB → Word → State → Bool
  /-- A refusal with cause SEMAPHORE of the block's own (R104 to R106). -/
  sem : AB → Word → State → Bool
  /-- A RANGE refusal beyond the legal values of the fields (R95). -/
  range : AB → Word → State → Bool
  /-- The effect of an accepted write. -/
  run : AB → Word → State → State
  /-- What a RANGE refusal leaves behind beyond the refusal record (R482). -/
  onRange : State → State

/-- Store a written value by the fields' access codes (Table 0-2). -/
def storeFields (p off : Nat) (v : Word) (s : State) : State :=
  s.wp p off (mergeFields (fieldsAt p off) (s.rp p off) v)

/-- Store, and queue the commit of a register that the non-volatile store holds (R523). -/
def storeReg (p off : Nat) (v : Word) (s : State) : State :=
  let s := storeFields p off v s
  if hasNvs (fieldsAt p off) then nvQueue (.reg (regAddr p off)) s else s

/-- The treatment of a register without behaviour of its own. -/
def plain (p off : Nat) : Handler :=
  { own := fun _ _ _ => false, sem := fun _ _ _ => false, range := fun _ _ _ => false,
    run := fun _ v s => storeReg p off v s, onRange := fun s => s }

/-- Step 1 of R94 for a write: a frozen master's write is refused but for the release write of R118. -/
def frozenWrite (m : AB) (p off : Nat) (s : State) : Bool :=
  s.isFrozen m &&
    !(p == pSem && off == 0x600 && s.isFrozen m.other && s.present)

/-- Page states in which block offsets answer BUSY (R98). -/
def busyState (st : PageState) : Bool :=
  match st with
  | .draining | .flushing | .resetting => true
  | _ => false

/-- A register that its block table declares accessible in any page state: SLC_SLICE_CTRL (R98). -/
def anyStateReg (p off : Nat) : Bool :=
  match pageInfo p with
  | some i => i.blk == .slcS && off == 0x100
  | none => false

/-- Step 5 of R94 (R98). -/
def writeBusy (p off : Nat) (v : Word) (s : State) : Bool :=
  busyState (s.pstate p) &&
    ((decide (0x100 ≤ off) && !anyStateReg p off) || (off == 0x008 && !bit v 2))

/-- One single-word write of a register: the checks of R94 in their order, then the effect. -/
def runWrite (m : AB) (q : Req) (win : Option Nat) (p off : Nat) (fs : List Fld) (h : Handler) (v : Word) (s : State) :
    State :=
  if frozenWrite m p off s then ended .frozen 0 .none (countRefused m s)
  else match writeDenied m (.reg win p off) s with
    | some c => refuseWrite m .denied c (if c = .ownership ∧ foreignSlice (.reg win p off) s = true then some 2 else none) q s
    | none =>
      if h.own m v s then refuseWrite m .denied .ownership none q s
      else if touches .rwp fs v && !s.present then refuseWrite m .denied .presence (some 3) q s
      else if h.sem m v s then refuseWrite m .denied .semaphore none q s
      else if (touches .rws fs v || touches .rwp fs v) && !s.lockOk m p then
        refuseWrite m .denied .semaphore
          (if (s.sem (s.hdr p).lockSem).holder = some m.other then some 1 else none) q s
      else if writeBusy p off v s then refuseWrite m .busy .none none q s
      else if fieldsOutOfRange fs v || h.range m v s then
        refuseWrite m .range .none none q (h.onRange s)
      else
        let s := if touches .rwp fs v then s.bump (regAddr pPrs 0x110) 1 else s
        ended .ok 0 .none (h.run m v s)

/-- A master's write of a register of a device page, with the register's own fields. -/
def writeReg (m : AB) (p off : Nat) (h : Handler) (v : Word) (s : State) : State :=
  runWrite m ⟨0x02, 0, regAddr p off, 0⟩ none p off (fieldsAt p off) h v s

end Sys2Proof.Machine
end

