-- ==== Sys2Proof/Machine/Masters.lean ====
section
/-!
DEFINITION. Two masters (chapter 4): semaphores, the malformed window, releases from a freeze, and the mailboxes.
-/

namespace Sys2Proof.Machine

/-! ### Semaphores (R104 to R111, R559) -/

/-- The watch bit of semaphore `n` in a master's SEM_WATCH. -/
def watches (m : AB) (n : Nat) (s : State) : Bool := s.flag (regAddr pSem (0x208 + 4 * m.num)) n

/-- Raise FREED for the masters that watch semaphore `n` (R559). -/
def raiseFreed (n : Nat) (s : State) : State :=
  let s := if watches .a n s then raise pSem 4 s else s
  if watches .b n s then raise pSem 5 s else s

/-- The lease of semaphore `n` in µs; none where it has none (R106). -/
def leaseOf (n : Nat) (s : State) : Option Nat :=
  let ms := s.fld (regAddr pSem (0x180 + 4 * n)) 0 16
  if ms = 0 then none else some (ms * 1000)

/-- What an ACQ write by `m` does to semaphore `n` (R104). -/
def semAcq (m : AB) (n : Nat) (s : State) : State :=
  let x := s.sem n
  match x.holder with
  | none => s.setSem n ⟨some m, false, (x.gen + 1) % 65536, leaseOf n s⟩
  | some h => if h = m then s.setSem n { x with leaseUs := leaseOf n s } else s

/-- Free semaphore `n`, by REL or by lease expiry (R105, R106). -/
def semFree (n : Nat) (expired : Bool) (s : State) : State :=
  let x := s.sem n
  match x.holder with
  | none => s
  | some _ => raiseFreed n (s.setSem n { x with holder := none, expired := expired, leaseUs := none })

/-- SEM_STATE_n (R104, R105). -/
def semStateHandler (n : Nat) : Handler :=
  { plain pSem (0x100 + 4 * n) with
    sem := fun m v s => bit v 9 && (s.sem n).holder == some m.other
    range := fun _ v _ => bit v 8 && bit v 9
    run := fun m v s => if bit v 8 then semAcq m n s else if bit v 9 then semFree n false s else s }

/-- SEM_LEASE_n (R106): refused while the other master holds the semaphore. -/
def semLeaseHandler (n : Nat) : Handler :=
  { plain pSem (0x180 + 4 * n) with sem := fun m _ s => (s.sem n).holder == some m.other }

/-- SEM_WATCH_A and SEM_WATCH_B: writable by their own master only. -/
def semWatchHandler (x : AB) : Handler :=
  { plain pSem (0x208 + 4 * x.num) with own := fun m _ _ => m != x }

/-- SEM_STATE_n as a master reads it (Table 4-1). -/
def semStateWord (n : Nat) (s : State) : Word :=
  let x := s.sem n
  let h := match x.holder with
    | none => 0 | some .a => 1 | some .b => 2
  word (h + b2n x.expired * 4 + x.gen * 65536)

/-- SEM_HELD_x. -/
def semHeldWord (m : AB) (s : State) : Word :=
  word (((List.range 32).filter (fun n => (s.sem n).holder == some m)).foldl (fun a n => a + 2 ^ n) 0)

/-- SEM_RELEASE: a write of REL = 1. -/
def execSemRelease (m : AB) (n : Nat) (s : State) : Result State := whenOn s <|
  let n := n % 32
  .next (writeReg m pSem (0x100 + 4 * n) (semStateHandler n) (field 9 1 1) s)

/-- LEASE_EXPIRY: the lease of semaphore `n` runs out (R106). -/
def execLeaseExpiry (n : Nat) (s : State) : Result State := whenOn s <|
  let n := n % 32
  match (s.sem n).holder, (s.sem n).leaseUs with
  | some _, some _ => .next (raise pSem 6 (semFree n true s))
  | _, _ => .next s

/-! ### The malformed window (R113) -/

/-- Count a malformed record of a master: MALFORMED, the window count, and the freeze when it passes the threshold
(R50, R113). -/
def countMalformed (m : AB) (q : Req) (s : State) : State :=
  let s := s.bump (regAddr (pCtl m) 0x238) 1
  let n := satAdd 65535 (s.masters.malf.get m) 1
  let passed := decide (s.masters.malf.get m ≤ s.fld (regAddr pSem 0x604) 0 10 ∧ s.fld (regAddr pSem 0x604) 0 10 < n)
  let s := { s with masters := { s.masters with malf := s.masters.malf.set m n } }
  if passed && !s.isFrozen m then freezeMaster m 4 q s else s

/-- A SEM_MALF_WIN window ends: both counts return to 0 and a new window length applies. -/
def malfWindow (s : State) : State :=
  let w := s.fld (regAddr pSem 0x608) 0 16
  { s with masters := { s.masters with malf := Pair.both 0, malfWin := w, malfLeft := w } }

/-- MALF_WINDOW_END. -/
def execMalfWindowEnd (s : State) : Result State := whenOn s <| .next (malfWindow s)

/-! ### Releases (R117, R118) -/

/-- Release a frozen master; one that is not frozen stays as it is. -/
def release (m : AB) (s : State) : State :=
  if s.isFrozen m then raise pSem (2 + m.num) (s.setFrz m { s.frz m with frozen := false }) else s

/-- SEM_FRZ_CTRL. A write by a frozen master reaches here only under R118; one by an unfrozen master releases the other
master, and naming a master who is not frozen changes nothing (R117). -/
def frzCtrlHandler : Handler :=
  { plain pSem 0x600 with
    run := fun _ v s =>
      let s := if bit v 0 then release .a s else s
      if bit v 1 then release .b s else s }

/-- RELEASE_A: a write of REL_A = 1 by master `m`. -/
def execReleaseA (m : AB) (s : State) : Result State := whenOn s <| .next (writeReg m pSem 0x600 frzCtrlHandler (field 0 1 1) s)

/-- RELEASE_B: a write of REL_B = 1 by master `m`. -/
def execReleaseB (m : AB) (s : State) : Result State := whenOn s <| .next (writeReg m pSem 0x600 frzCtrlHandler (field 1 1 1) s)

/-- A word of a freeze record (Table 4-3), by offset from the record base. -/
def freezeWord (f : Freeze) (off : Nat) : Word :=
  if off = 0x00 then word (b2n f.frozen + f.cause * 16 + f.freezes * 256)
  else if off = 0x04 then word (f.addr / 2 ^ 32 % 256 + f.type * 256 + f.slice * 65536)
  else if off = 0x08 then word f.addr
  else if off = 0x0C then word (f.seq + f.tag * 65536)
  else if off = 0x10 then f.sec
  else if off = 0x14 then f.ns
  else if off = 0x18 then word (f.discarded + f.refused * 65536)
  else if off < 0x20 then 0
  else match f.queued[(off - 0x20) / 8]? with
    | none => 0
    | some w => if (off - 0x20) % 8 = 0 then word (w.hi + w.type * 256 + w.tag * 65536) else word w.lo

/-! ### Mailboxes (R121 to R124, R142) -/

/-- The page on which PEER_TAKEN rises when a channel's message is taken (Table 4-4). -/
def peerPage (i : Nat) : Nat :=
  match i with
  | 0 => 2 | 1 => 3 | 2 => 0 | 3 => 1 | 4 => 5 | _ => 4

/-- The message of channel `i` is taken: FULL and LEN clear, PEER_TAKEN rises on the sender's own page (R123). -/
def mbxTaken (i : Nat) (s : State) : State :=
  let b := s.box i
  raise (pMbx (peerPage i)) 1 (s.setBox i { b with full := false, len := 0 })

/-- A message of `len` words is sent on channel `i` (R122). -/
def mbxSend (i len : Nat) (s : State) : State :=
  let b := s.box i
  raise (pMbx i) 0 (s.setBox i ⟨true, len, (b.sent + 1) % 65536⟩)

/-- The code word that holds data word `k` of channel `i`. -/
def mbxLoc (i k : Nat) : MemLoc := ⟨0x9C, i, k / 2, 0⟩

/-- MBX_DATA: RANGE while FULL (R122). -/
def mbxDataHandler (i k : Nat) : Handler :=
  { plain (pMbx i) (0x140 + 4 * k) with
    range := fun _ _ s => (s.box i).full
    run := fun _ v s =>
      wrotePart (mbxLoc i k) 0 (regAddr (pMbx i) (0x140 + 4 * (k / 2 * 2 + 1 - k % 2))) (storeReg (pMbx i) (0x140 + 4 * k) v s) }

/-- MBX_DOORBELL: RANGE while FULL (R122); the legal lengths stand in the table. -/
def mbxDoorbellHandler (i : Nat) : Handler :=
  { plain (pMbx i) 0x104 with
    range := fun _ _ s => (s.box i).full
    run := fun _ v s => mbxSend i (bits v 0 5) s }

/-- MBX_STATUS (Table 4-5). -/
def mbxStatusWord (i : Nat) (s : State) : Word :=
  let b := s.box i
  word (b2n b.full + b.len * 256 + b.sent * 65536)

/-- The effect of a read of data word `k` of channel `i` (R123): the receiver's read of the last word takes the message. -/
def mbxReadEffect (m : AB) (i k : Nat) (s : State) : State :=
  let b := s.box i
  if b.full && b.len == k + 1 && mbxReceiver i == some m then mbxTaken i s else s

/-- A block reset of a mailbox page discards a waiting message (R142). -/
def mbxBlockReset (i : Nat) (s : State) : State :=
  if (s.box i).full then (s.setBox i Mbx.empty).bump (regAddr (pMbx i) 0x108) 1 else s.setBox i Mbx.empty

/-- MBX_DATA_WRITE. -/
def execMbxDataWrite (m : AB) (i k : Nat) (v : Word) (s : State) : Result State := whenOn s <|
  let i := i % 6
  let k := k % 16
  .next (writeReg m (pMbx i) (0x140 + 4 * k) (mbxDataHandler i k) v s)

/-- MBX_DOORBELL. -/
def execMbxDoorbell (m : AB) (i len : Nat) (s : State) : Result State := whenOn s <|
  let i := i % 6
  .next (writeReg m (pMbx i) 0x104 (mbxDoorbellHandler i) (word (len % 32)) s)

/-- A read touches a master's own freeze record, which it may read while frozen. -/
def ownFreeze (m : AB) (p off : Nat) : Bool := p == pSem && decide (0x400 + 0x100 * m.num ≤ off ∧ off < 0x4A0 + 0x100 * m.num)

/-- One single-word read of a register, reached directly or through a slice window: the checks of R94 in their order; `pre` reads
the memory that holds the register and tells whether the word is poisoned (R494); then the value and what the read does. -/
def runReadAt (m : AB) (win : Option Nat) (p off : Nat) (pre : State → State × Bool) (v : State → Word) (eff : State → State)
    (s : State) : State :=
  if s.isFrozen m && !ownFreeze m p off then ended .frozen 0 .none (countRefused m s)
  else match readDenied m (.reg win p off) s with
    | some c => ended .denied 0 c (s.bump (accBase m + 4) 1)
    | none =>
      if busyState (s.pstate p) && decide (0x100 ≤ off) && !anyStateReg p off then ended .busy 0 .none s
      else if (pre s).2 then ended .poison 0 .none (pre s).1
      else ended .ok (v (pre s).1) .none (eff (pre s).1)

/-- A master's read of a register of a device page that no protected memory holds. -/
def runRead (m : AB) (p off : Nat) (v : Word) (eff : State → State) (s : State) : State :=
  runReadAt m none p off (fun s => (s, false)) (fun _ => v) eff s

/-- A master's read of data word `k` of channel `i` (R121, R123, R497). -/
def mbxDataRead (m : AB) (i k : Nat) (win : Option Nat) (s : State) : State :=
  runReadAt m win (pMbx i) (0x140 + 4 * k) (readLoc (mbxLoc i k) 0) (fun s => s.rp (pMbx i) (0x140 + 4 * k))
    (mbxReadEffect m i k) s

/-- MBX_TAKE: the receiver reads the last word of the waiting message; on an empty channel it reads word 0. -/
def execMbxTake (m : AB) (i : Nat) (s : State) : Result State := whenOn s <|
  let i := i % 6
  let k := (s.box i).len - 1
  .next (mbxDataRead m i k none s)

end Sys2Proof.Machine
end

