-- ==== Sys2Proof/Machine/Nvs.lean ====
section
/-!
DEFINITION. The non-volatile store (chapter 19): block writes, the write cap, commits, life records and the checkpoint.
-/

namespace Sys2Proof.Machine

/-! ### Block writes and wear (R521, R522) -/

/-- Replace the store. -/
def State.setNvs (s : State) (x : NvsSt) : State := { s with nvs := x }

/-- The write count of the most written block. -/
def wearMax (s : State) : Nat := s.nvs.wear.foldl (fun n e => if n < e.2 then e.2 else n) 0

/-- The mean write count of all blocks. -/
def wearMean (s : State) : Nat := (s.nvs.wear.map Prod.snd).sum / 16384

/-- One block is written: the block is picked by the wear levelling. -/
def wearBlock (s : State) : State :=
  let v := s.takeFree
  let b := v.1.toNat % 16384
  let old := wearMax s
  let s := v.2.setNvs { v.2.nvs with wear := tblSet 0 b (tblGet 0 b v.2.nvs.wear + 1) v.2.nvs.wear }
  let s := s.bump (regAddr pNvs 0x140) 1
  if old < 800000 ∧ 800000 ≤ wearMax s then raise pNvs 8 s else s

/-- The writes of the last 60 s. -/
def recentWrites (s : State) : List Nat := s.nvs.stamps.filter (fun t => decide (s.clock < t + 60000000))

/-- The cap of 24 blocks per second over 60 s leaves room for a write. -/
def capOpen (s : State) : Bool := decide ((recentWrites s).length < 1440)

/-- A block write that counts toward the cap. -/
def cappedWrite (s : State) : State := wearBlock (s.setNvs { s.nvs with stamps := recentWrites s ++ [s.clock] })

/-! ### Life records (R335 to R337) -/

/-- Two records have the same key. -/
def sameKey (a b : LifeRec) : Bool := a.sn == b.sn && a.vendor == b.vendor

/-- Words 0 to 14 of a record (Table 11-2). -/
def lifeBody (r : LifeRec) : List Word :=
  bytesToWords 4 r.sn ++ bytesToWords 4 r.vendor ++
    [ word r.laserOn, word r.bursts, word (r.bursts / 2 ^ 32 % 2 ^ 16 + r.inserts % 2 ^ 16 * 2 ^ 16),
      word (toSigned 8 r.tmax + toSigned 8 r.tmin * 2 ^ 8 + r.life % 4 * 2 ^ 16), word r.firstSeen, word r.lastSeen, word r.gen ]

/-- The sixteen words of a record. -/
def lifeWords (r : LifeRec) : List Word := lifeBody r ++ [word (crc32c none (wordsToBytes (lifeBody r)))]

/-- A record is in use by a cage. -/
def lifeInUse (r : LifeRec) (s : State) : Bool :=
  let one := fun (c : AB) => (s.opt.get c).live.any (sameKey r) || (s.opt.get c).leaving.any (sameKey r)
  one .a || one .b

/-- The record with the earliest LAST_SEEN of those that no cage uses. -/
def oldestLife : List LifeRec → State → Option LifeRec
  | [], _ => none
  | r :: t, s =>
    match oldestLife t s with
    | none => if lifeInUse r s then none else some r
    | some x => if !lifeInUse r s && decide (r.lastSeen ≤ x.lastSeen) then some r else some x

/-- Put a record into the store: over its own earlier copy, beside the others, or over the oldest (R335, R337). -/
def storeLife (r : LifeRec) (s : State) : State :=
  let l := s.nvs.life
  if l.any (sameKey r) then s.setNvs { s.nvs with life := l.map (fun x => if sameKey r x then r else x) }
  else if l.length < 256 then s.setNvs { s.nvs with life := l ++ [r] }
  else match oldestLife l s with
    | none => s
    | some o =>
      let s := s.setNvs { s.nvs with life := l.map (fun x => if sameKey o x then r else x) }
      s.bumpFld (regAddr (pOpt .a) 0x1C4) 16 16 1

/-- A record as it is written: GEN counts the write, LAST_SEEN is the RTC. -/
def stampLife (r : LifeRec) (s : State) : LifeRec :=
  { r with gen := (r.gen + 1) % 2 ^ 32, lastSeen := s.backup.rtcSec % 2 ^ 32 }

/-- Write the live copy of one cage. -/
def writeLife (c : AB) (s : State) : State :=
  let x := s.opt.get c
  match x.live with
  | some r =>
    let r := stampLife r s
    let t := storeLife r s
    { t with opt := t.opt.set c { x with live := some r } }
  | none => s

/-- Write the oldest record of the modules that have left a cage. -/
def writeLeft (c : AB) (s : State) : State :=
  let x := s.opt.get c
  match x.leaving with
  | r :: t => { storeLife (stampLife r s) s with opt := s.opt.set c { x with leaving := t } }
  | [] => s

/-! ### Image blocks (R134) -/

/-- The image bytes of a slot. -/
def slotImage (k : Nat) (s : State) : List Byte := if k = 1 then s.fw.slot1 else s.fw.slot2

/-- Replace a slot's image and VERSION. -/
def setSlot (k : Nat) (l : List Byte) (v : Word) (s : State) : State :=
  if k = 1 then { s with fw := { s.fw with slot1 := l, ver1 := v } }
  else { s with fw := { s.fw with slot2 := l, ver2 := v } }

/-- A load is writing, and blocks of its image are still to be written. -/
def imageWaits (s : State) : Bool := s.fw.load == .writing && decide ((slotImage s.fw.target s).length < s.fw.len)

/-- The next 64 bytes of the staged image go into the target slot. -/
def writeImageBlock (s : State) : State :=
  let l := slotImage s.fw.target s
  let s := setSlot s.fw.target (l ++ s.dramBytes ((s.reserved).1 + l.length) 64) 0 s
  s.wp pNvs 0x11C (word (l.length / 64 + 1))

/-! ### Commits (R522, R523) -/

/-- WAKES, LOSSES, TAMPERS and PRESSES as they stand (Table 7-3). -/
def backupCounts (s : State) : List Nat := (List.range 4).map (fun i => (s.rp pBkp (0x124 + 4 * i)).toNat)

/-- The new contents of a block. -/
def commitItem (x : NvItem) (s : State) : State :=
  match x with
  | .reg a => s.setNvs { s.nvs with committed := tblSet (resetWord a) a (s.rd a) s.nvs.committed }
  | .firmware => s.setNvs { s.nvs with fw := s.fw.nv }
  | .life c => writeLife (if c = 0 then .a else .b) s
  | .left c => writeLeft (if c = 0 then .a else .b) s
  | .checkpoint => s.setNvs { s.nvs with checkpoint := backupCounts s }
  | .spares m b =>
    let k := 256 * m + b
    s.setNvs { s.nvs with spares := tblSet 0 k (tblGet 0 k s.ecc.spares) s.nvs.spares }

/-- Store a history entry; the newest 16 are kept (R29). -/
def commitHist (e : Word × Word) (s : State) : State :=
  let l := s.nvs.hist ++ [e]
  s.setNvs { s.nvs with hist := l.drop (l.length - 16) }

/-- A write is deferred: DEFERRING tells of the first. -/
def deferred (s : State) : State :=
  if s.nvs.deferring then s else raise pNvs 10 (s.setNvs { s.nvs with deferring := true })

/-- Write one block now, or let it wait when the cap is reached. -/
def writeOrDefer (x : NvItem) (s : State) : State :=
  if capOpen s then commitItem x (cappedWrite (s.setNvs { s.nvs with pend := s.nvs.pend.erase x })) else deferred (nvQueue x s)

/-- NVS_COMMIT: the oldest waiting block is written, or the oldest history entry when no block waits. With nothing waiting it is a block
of the image that a load writes, which has the share of the cap that other writes leave (R134). -/
def execNvsCommit (s : State) : Result State := whenOn s <|
  match s.nvs.pend, s.nvs.histQ with
  | [], [] => if imageWaits s && capOpen s then .next (writeImageBlock (cappedWrite s)) else .next s
  | x :: t, _ =>
    if capOpen s then
      .next (commitItem x (cappedWrite (s.setNvs { s.nvs with pend := t, deferring := s.nvs.deferring && !t.isEmpty })))
    else .next (deferred s)
  | [], e :: t => if capOpen s then .next (commitHist e (cappedWrite (s.setNvs { s.nvs with histQ := t }))) else .next (deferred s)

/-- Each record of the modules that have left a cage is written, or waits. -/
def saveLeft (c : AB) (s : State) : State :=
  (s.opt.get c).leaving.foldl (fun s _ => writeOrDefer (.left c.num) s) s

/-- NVS_CHECKPOINT: the life records of both cages and the backup counters are written (R229). -/
def execNvsCheckpoint (s : State) : Result State := whenOn s <|
  let one := fun (c : AB) (s : State) =>
    let s := saveLeft c s
    if (s.opt.get c).live.isSome then writeOrDefer (.life c.num) s else s
  .next (writeOrDefer .checkpoint (one .b (one .a s)))

/-- Every waiting write, outside the cap: step 3 of the controlled power-down (R522). -/
def flushNvs (s : State) : State :=
  let s := s.nvs.pend.foldl (fun s x => commitItem x (wearBlock s)) s
  let s := s.nvs.histQ.foldl (fun s e => commitHist e (wearBlock s)) s
  s.setNvs { s.nvs with pend := [], histQ := [], deferring := false }

end Sys2Proof.Machine
end

