-- ==== Sys2Proof/Machine/Keeper.lean ====
section
/-!
DEFINITION. The Keeper (chapter 4): its mailbox services, its capture store, and Govar updates.
-/

namespace Sys2Proof.Machine

/-! ### Requests and replies (R125 to R129) -/

/-- OP of a message's word 0 (R126). -/
def msgOp (w : List Word) : Nat := bits (w.headD 0) 24 8

/-- Word 0 of the reply to a request: OP and CORR copied, STATUS set (R126). -/
def replyHead (w : List Word) (status : Nat) : Word := word (bits (w.headD 0) 16 16 * 2 ^ 16 + status * 2 ^ 8)

/-- Write a reply into the Keeper-to-master channel and send it. -/
def putReply (m : AB) (w : List Word) (s : State) : State :=
  let i := 2 + m.num
  let s := (w.zipIdx).foldl (fun s x =>
    wrotePart (mbxLoc i x.2) 0 (regAddr (pMbx i) (0x140 + 4 * (x.2 / 2 * 2 + 1 - x.2 % 2)))
      (s.wp (pMbx i) (0x140 + 4 * x.2) x.1)) s
  mbxSend i w.length s

/-- A Keeper-to-master channel takes a reply: it is not FULL, and no block reset of its page is in progress (assumption 77). -/
def replyOpen (m : AB) (s : State) : Bool := !(s.box (2 + m.num)).full && s.pstate (pMbx (2 + m.num)) != .resetting

/-- Send a reply, hold it while the channel takes none, or drop it when four are held (R127, R129). -/
def sendReply (m : AB) (w : List Word) (s : State) : State :=
  let h := s.keeper.held.get m
  if replyOpen m s && h.isEmpty then putReply m w s
  else if h.length < 4 then { s with keeper := { s.keeper with held := s.keeper.held.set m (h ++ [w]) } }
  else s.bump (regAddr pFlt 0x120) 1

/-- The Keeper offers a service with this OP (Table 4-8). -/
def knownOp (op : Nat) : Bool := op == 0x01 || op == 0x02 || op == 0x20 || op == 0x21 || op == 0x22

/-- Answer the requests at the head of the list whose OP no service has, in order (R127). UNKNOWN_OP wins over a reserved bit that is
not 0, which Table 4-9 leaves open (assumption 77). -/
def answerUnknown : Nat → AB → State → State
  | 0, _, s => s
  | k + 1, m, s =>
    match s.keeper.taken.get m with
    | [] => s
    | w :: t =>
      if knownOp (msgOp w) then s
      else answerUnknown k m
        (sendReply m [replyHead w 0x01] { s with keeper := { s.keeper with taken := s.keeper.taken.set m t } })

/-- The words of the message that waits on channel `i`. -/
def mbxWords (i : Nat) (s : State) : List Word :=
  (List.range (s.box i).len).map (fun k => s.rp (pMbx i) (0x140 + 4 * k))

/-- The Keeper reads the first `n` words of channel `i`; true when a poisoned word was among them (R497). -/
def keeperReads (i : Nat) : Nat → State → State × Bool
  | 0, s => (s, false)
  | n + 1, s =>
    let r := keeperReads i n s
    let x := readLoc (mbxLoc i n) 0 r.1
    (x.1, r.2 || x.2)

/-- KEEPER_TAKE: the Keeper takes the waiting message of a master's channel and dispatches it by OP; one whose OP no
service has is answered at once, behind the requests before it. A message with a poisoned word is discarded (R497, R142). R130 lets the
Keeper write INT_ENABLE, INT_CLEAR and PAGE_CTRL of this page and names no moment: it never does (assumption 77). -/
def execKeeperTake (m : AB) (s : State) : Result State := whenOn s <|
  let i := m.num
  if s.keeper.started && s.running && (s.box i).full then
    let r := keeperReads i (s.box i).len s
    let w := mbxWords i r.1
    if r.2 then .next (mbxBlockReset i r.1)
    else
    let s := mbxTaken i r.1
    let t := s.keeper.taken.get m ++ [w]
    .next (answerUnknown t.length m { s with keeper := { s.keeper with taken := s.keeper.taken.set m t } })
  else .next s

/-- Serve the oldest taken request when its OP is `op`. Its reserved bits are tested, its STATUS byte, for which Table 4-9 has no answer
of its own, is not (assumption 77). `f` gives the status, the words after word 0, and the state. -/
def serve (m : AB) (op : Nat) (f : List Word → State → Nat × List Word × State) (s : State) : State :=
  match s.keeper.taken.get m with
  | [] => s
  | w :: t =>
    if msgOp w ≠ op then s
    else
      let r := if bits (w.headD 0) 0 8 = 0 then f w s else (0x04, [], s)
      let s := { r.2.2 with keeper := { r.2.2.keeper with taken := r.2.2.keeper.taken.set m t } }
      let s := sendReply m (replyHead w r.1 :: (if r.1 = 0 then r.2.1 else [])) s
      answerUnknown t.length m s

/-- VERSION of the running Govar image. -/
def runningVersion (s : State) : Word :=
  match s.fw.running with
  | 1 => s.fw.ver1
  | 2 => s.fw.ver2
  | _ => Config.romVersion

/-- INFO (Table 4-8). -/
def execInfo (m : AB) (s : State) : Result State := whenOn s <|
  .next (serve m 0x01 (fun w s =>
    if w.length = 1 then (0, [runningVersion s, word s.fw.running, word s.keeper.upSec, word s.keeper.starts], s)
    else (0x04, [], s)) s)

/-- ECHO (Table 4-8). -/
def execEcho (m : AB) (s : State) : Result State := whenOn s <| .next (serve m 0x02 (fun w s => (0, w.drop 1, s)) s)

/-- The capture entries of slices that a master owns. -/
def ownCaptures (m : AB) (s : State) : List Capture := s.keeper.capture.filter (fun c => s.ownsSlice m c.slice)

/-- CAPTURE_STATUS (Table 4-8). -/
def execCaptureStatus (m : AB) (s : State) : Result State := whenOn s <|
  .next (serve m 0x20 (fun w s =>
    let c := ownCaptures m s
    let oldest := match c.head? with
      | some e => word e.seq
      | none => 0
    let newest := match c.getLast? with
      | some e => word e.seq
      | none => 0
    if w.length = 1 then (0, [word c.length, oldest, newest, s.rp (pLane 0) 0x410], s) else (0x04, [], s)) s)

/-- The reply words of a CAPTURE_READ from entry `e` at byte offset `o` (Table 4-8). -/
def captureWords (e : Capture) (o : Nat) : List Word :=
  [ word (e.len % 65536 + e.slice * 2 ^ 16 + e.srcPort * 2 ^ 20), word (e.rule + b2n e.second * 2 ^ 16), e.sec, e.ns ] ++
    (List.range 11).map (fun k => word (beAt e.bytes (o + 4 * k) 4))

/-- CAPTURE_READ (Table 4-8). -/
def execCaptureRead (m : AB) (s : State) : Result State := whenOn s <|
  .next (serve m 0x21 (fun w s =>
    let o := ((w.drop 2).headD 0).toNat
    if w.length ≠ 3 ∨ o % 4 ≠ 0 ∨ 256 ≤ o then (0x04, [], s)
    else match s.keeper.capture.find? (fun e => word e.seq == (w.drop 1).headD 0) with
      | none => (0x03, [], s)
      | some e => if s.ownsSlice m e.slice then (0, captureWords e o, s) else (0x02, [], s)) s)

/-- CAPTURE_FREE (Table 4-8). -/
def execCaptureFree (m : AB) (s : State) : Result State := whenOn s <|
  .next (serve m 0x22 (fun w s =>
    let q := ((w.drop 1).headD 0).toNat
    if w.length ≠ 2 then (0x04, [], s)
    else (0, [], { s with keeper := { s.keeper with
      capture := s.keeper.capture.filter (fun e => !((precedes 32 e.seq q || e.seq % 2 ^ 32 == q) && s.ownsSlice m e.slice)) } })) s)

/-- KEEPER_REPLY: a held reply is written once the channel is no longer FULL. -/
def execKeeperReply (m : AB) (s : State) : Result State := whenOn s <|
  match s.keeper.held.get m with
  | [] => .next s
  | w :: t =>
    if !replyOpen m s then .next s
    else .next (putReply m w { s with keeper := { s.keeper with held := s.keeper.held.set m t } })

/-- PUNT_CAPTURE: the Keeper takes the oldest punted packet into its store, or discards it when the store is full
(R128, R378). -/
def execPuntCapture (s : State) : Result State := whenOn s <|
  match s.keeper.puntQ with
  | [] => .next s
  | c :: t =>
    let s := { s with keeper := { s.keeper with puntQ := t } }
    if s.keeper.capture.length < 64 then
      .next { s with keeper := { s.keeper with
        capture := s.keeper.capture ++ [{ c with seq := s.keeper.capSeq }], capSeq := (s.keeper.capSeq + 1) % 2 ^ 32 } }
    else .next (s.bump (regAddr (pLane 0) 0x410) 1)

/-! ### Govar images (R132 to R138) -/

/-- The check of an image of length `n` under R132: 0 when it is valid, else the first cause of Table 4-11. A VERSION of 0 has no
cause of its own and counts with cause 1. -/
def imageCheck (l : List Byte) (n : Nat) : Nat :=
  let body := beAt l 8 4
  if beAt l 0 4 ≠ 0x47565231 ∨ beAt l 4 4 = 0 ∨ beAt l 20 44 ≠ 0 then 1
  else if body % 64 ≠ 0 ∨ body < 64 ∨ 393088 < body ∨ 128 + body ≠ n then 2
  else if crc32c (some (word (beAt l 4 4))) ((l.drop 64).take body) ≠ beAt l 16 4 then 3
  else if !Config.signatureOk l then 4
  else if Config.romVersion.toNat < beAt l 12 4 then 5
  else 0

/-- The image that a load names, in the reserved region. -/
def stagedImage (s : State) : List Byte := s.dramBytes (s.reserved).1 s.fw.len

/-- The lower-numbered slot that is none of RUNNING, COMMITTED and CONFIRMED (R134). -/
def freeSlot (s : State) : Option Nat :=
  [1, 2].find? (fun k => k != s.fw.running && k != s.fw.nv.committed && k != s.fw.nv.confirmed)

/-- A load ends BAD (R134). -/
def loadBad (c : Nat) (s : State) : State := raise pNvs 1 { s with fw := { s.fw with load := .bad, badCause := c } }

/-- LOAD = 1 is refused with RANGE (R134). -/
def loadRefused (s : State) : Bool :=
  let n := s.fld (regAddr pNvs 0x108) 0 19
  s.fw.stager == none || s.fw.load == .checking || s.fw.load == .writing ||
    !(decide (192 ≤ n ∧ n ≤ 393216 ∧ n % 64 = 0))

/-- NVS_FW_CTRL: OPEN, CLOSE, LOAD and CONFIRM (R133, R134, R137). -/
def fwCtrlHandler : Handler :=
  { plain pNvs 0x104 with
    own := fun m v s => (bit v 1 || bit v 2) && s.fw.stager == some m.other
    range := fun _ v s =>
      (bit v 0 && (s.fw.stager != none || s.fld (regAddr pMem 0x100) 0 2 != 2 || s.fld (regAddr pMem 0x114) 0 13 == 0)) ||
      (bit v 1 && (s.fw.load == .checking || s.fw.load == .writing)) ||
      (bit v 2 && loadRefused s) ||
      (bit v 3 && !(s.fw.nv.trial && s.fw.running == s.fw.nv.committed))
    run := fun m v s =>
      let s := if bit v 0 then { s with fw := { s.fw with stager := some m } } else s
      let s := if bit v 1 && s.fw.stager == some m then { s with fw := { s.fw with stager := none } } else s
      let s := if bit v 2 then { s with fw := { s.fw with load := .checking, len := s.fld (regAddr pNvs 0x108) 0 19 } } else s
      if bit v 3 then
        raise pNvs 3 (nvQueue .firmware
          { s with fw := { s.fw with nv := { s.fw.nv with confirmed := s.fw.nv.committed, trial := false } } })
      else s }

/-- NVS_FW_LEN: only the stager writes it while a window is open (R133). -/
def fwLenHandler : Handler :=
  { plain pNvs 0x108 with own := fun m _ s => s.fw.stager == some m.other }

/-- Choose and check the image that a Keeper start runs (R136): the image, the fields and whether FW_REVERT is raised. -/
def chooseImage (s : State) : Nat × FwNv × Bool :=
  let n := s.fw.nv
  let valid := fun (k : Nat) =>
    if k = 0 then true
    else
      let l := slotImage k s
      imageCheck l l.length == 0
  let c : Nat × FwNv × Bool :=
    if !n.trial then (n.committed, n, false)
    else if n.tries < 2 && !s.fw.trialDied then (n.committed, { n with tries := n.tries + 1 }, false)
    else (n.confirmed, { n with committed := n.confirmed, trial := false }, true)
  if valid c.1 then c
  else if valid n.confirmed then (n.confirmed, c.2.1, true)
  else (0, c.2.1, true)

/-- A Keeper start: the image, and an empty Keeper (R128, R136, R525). The packets of the punt queue, which no rule empties, wait on
(assumption 77). -/
def keeperStart (s : State) : State :=
  let c := chooseImage s
  let lost := (s.keeper.held.get .a).length + (s.keeper.held.get .b).length
  let s := s.bump (regAddr pFlt 0x120) lost
  let changed := decide (c.2.1 ≠ s.fw.nv)
  let s := { s with
    fw := { s.fw with running := c.1, nv := c.2.1, trialDied := false }
    keeper := { s.keeper with
      started := true, upSec := 0, upUs := 0, starts := s.keeper.starts + 1,
      taken := Pair.both [], held := Pair.both [], capture := [], capSeq := 0 } }
  let s := if changed then nvQueue .firmware s else s
  if c.2.2 then raise pNvs 2 s else s

/-- NVS_FW_COMMIT (R135). -/
def fwCommitHandler : Handler :=
  { plain pNvs 0x10C with
    range := fun _ v s => (bit v 0 && s.fw.load != .loaded) || (bit v 0 && bit v 2)
    run := fun _ v s =>
      let s := if bit v 0 then
          nvQueue .firmware { s with fw := { s.fw with load := .idle, nv :=
            { s.fw.nv with committed := s.fw.target, trial := true, tries := 0 } } }
        else s
      let s := if bit v 2 then
          nvQueue .firmware { s with fw := { s.fw with nv := { s.fw.nv with committed := 0, confirmed := 0, trial := false } } }
        else s
      if bit v 1 then keeperStart s else s }

/-- NVS_FW_STATE (Table 4-11). -/
def fwStateWord (s : State) : Word :=
  let f := s.fw
  let st := match f.stager with
    | none => 0 | some .a => 1 | some .b => 2
  word (f.running + f.nv.committed * 4 + f.nv.confirmed * 16 + b2n f.nv.trial * 64 + f.nv.tries * 256 +
    f.load.code * 2 ^ 12 + f.badCause * 2 ^ 16 + f.target * 2 ^ 20 + st * 2 ^ 24)

/-- FW_OPEN. -/
def execFwOpen (m : AB) (s : State) : Result State := whenOn s <| .next (writeReg m pNvs 0x104 fwCtrlHandler (field 0 1 1) s)

/-- FW_CLOSE. -/
def execFwClose (m : AB) (s : State) : Result State := whenOn s <| .next (writeReg m pNvs 0x104 fwCtrlHandler (field 1 1 1) s)

/-- FW_LOAD. -/
def execFwLoad (m : AB) (s : State) : Result State := whenOn s <| .next (writeReg m pNvs 0x104 fwCtrlHandler (field 2 1 1) s)

/-- FW_CONFIRM. -/
def execFwConfirm (m : AB) (s : State) : Result State := whenOn s <| .next (writeReg m pNvs 0x104 fwCtrlHandler (field 3 1 1) s)

/-- FW_CHECK_DONE: the check of the staged image ends: BAD with its cause, or a slot is chosen and erased and writing
starts (R134). -/
def execFwCheckDone (s : State) : Result State := whenOn s <|
  if s.fw.load ≠ .checking then .next s
  else
    let l := stagedImage s
    let c := imageCheck l l.length
    if c ≠ 0 then .next (loadBad c s)
    else match freeSlot s with
      | none => .next (loadBad 6 s)
      | some k =>
        let s := setSlot k [] 0 { s with fw := { s.fw with load := .writing, target := k } }
        .next (s.wp pNvs 0x11C 0)

/-- FW_WRITE_DONE: every block of the image stands in its slot, and the slot has been read back (R134). `readBackOk` false is a slot
that reads back otherwise than it was written. Before the last block nothing has ended. -/
def execFwWriteDone (readBackOk : Bool) (s : State) : Result State := whenOn s <|
  if s.fw.load ≠ .writing ∨ imageWaits s = true then .next s
  else
    let l := slotImage s.fw.target s
    if readBackOk && imageCheck l l.length == 0 then
      .next (raise pNvs 0 (setSlot s.fw.target l (word (beAt l 4 4)) { s with fw := { s.fw with load := .loaded } }))
    else .next (loadBad 7 s)

/-- FW_COMMIT: COMMIT = 1, with RESTART when named. -/
def execFwCommit (m : AB) (restart : Bool) (s : State) : Result State := whenOn s <|
  .next (writeReg m pNvs 0x10C fwCommitHandler (word (1 + 2 * b2n restart)) s)

/-- FW_ROM: ROM = 1, with RESTART when named. -/
def execFwRom (m : AB) (restart : Bool) (s : State) : Result State := whenOn s <|
  .next (writeReg m pNvs 0x10C fwCommitHandler (word (4 + 2 * b2n restart)) s)

/-- FW_RESTART: RESTART = 1. -/
def execFwRestart (m : AB) (s : State) : Result State := whenOn s <| .next (writeReg m pNvs 0x10C fwCommitHandler (field 1 1 1) s)

end Sys2Proof.Machine
end

