-- ==== Sys2Proof/Machine/Buffer.lean ====
section
/-!
DEFINITION. The packet buffer: policers (R408 to R410), admission (R398) and the one operation that puts a packet on a service
queue.
-/

namespace Sys2Proof.Machine

/-! ### Policers (R408 to R410) -/

/-- The cost of a packet at a policer (R409). -/
def polCost (j : Nat) (p : Pkt) (s : State) : Int :=
  if s.flag (polAddr j 0) 24 then 1000
  else 1000 * (Int.ofNat p.len + signedOf 8 (s.fld (polAddr j 4) 24 8))

/-- The credit of a policer. -/
def polCredit (j : Nat) (s : State) : Int := tblGet 0 j s.buf.polCred

/-- A policer whose RATE and BURST are both 0 drops every packet (R410). -/
def polShut (j : Nat) (s : State) : Bool := s.fld (polAddr j 0) 0 23 == 0 && s.fld (polAddr j 4) 0 24 == 0

/-- No packet of this cost conforms, whatever the credit (R410): RATE and BURST are both 0, or in byte mode the cost is above the burst. -/
def polOver (j : Nat) (cost : Int) (s : State) : Bool :=
  polShut j s || (!s.flag (polAddr j 0) 24 && decide (1000 * Int.ofNat (s.fld (polAddr j 4) 0 24) < cost))

/-- Set the credit of a policer. -/
def setPolCredit (j : Nat) (c : Int) (s : State) : State :=
  { s with buf := { s.buf with polCred := tblSet 0 j c s.buf.polCred } }

/-- Meter a packet at relative policer `r` of slice `k` (R409): the state, and the reason when it is dropped. The reference is
checked at use (reference 3); `blk` and `idx` identify what names the policer. -/
def meter (k r blk idx : Nat) (node : Bool) (p : Pkt) (s : State) : State × Bool :=
  let rg := s.polRange k
  if rg.2 ≤ r then (dropSepRef k 3 blk idx (word r) p s, false)
  else if (s.hdr (pSlice k (0x18 + r / 256))).stopped then (dropAt .polDown k p.src (some p) 0 s, false)
  else
    let j := rg.1 + r
    let s := readRow 0x62 (j / 1024) (j % 1024) 0 s
    let cost := polCost j p s
    if !polOver j cost s && decide (cost ≤ polCredit j s) then (setPolCredit j (polCredit j s - cost) s, true)
    else (dropAt (if node then .nodePoliced else .policed) k p.src (some p) j (s.bump (polAddr j 8) 1), false)

/-! ### Admission and queueing -/

/-- The reason for which the buffer refuses a packet of `n` cells on queue `q` of absolute node `a` of slice `k`, in the
order of R398. -/
def admission (k a q n : Nat) (s : State) : Option Reason :=
  let used := usedCells k s
  let eff := effReserve k s
  if s.fld (queueAddr a q 0) 0 19 < queueDepth a q s + n then some .queueFull
  else if bits (s.slc k 0x11C) 0 19 < used + n then some .quotaFull
  else if used + n ≤ eff then none
  else if sharedPool s < sharedUsed s + ((used + n - eff) - (used - eff)) then some .sharedFull
  else none

/-- The parent port node of a node belongs to its slice (reference 6 of Table 5-2). -/
def parentOk (k p : Nat) (s : State) : Bool :=
  if p < 32 then true
  else if p < 40 then bit (s.slc k 0x108) (p - 32)
  else decide (p = 40) && bit (s.slc k 0x108) 8

/-- A cell of bank `n` is written for slice `k`: an armed flip of that bank lands in it, in a word that a free value picks, because
the spec gives no order in which the words of a cell are written. -/
def wroteCell (n k : Nat) (s : State) : Option CellErr × State :=
  let r := s.rp pEcc 0x120
  if bit r 16 && bits r 0 8 == n && bits r 8 4 == k then
    let c := badCell n s
    let f := c.2.takeFree
    (some (.upset ⟨n, 0, c.1 / 64, f.1.toNat % 17⟩ (flipBits s)), raise pEcc 6 (f.2.setFlag (regAddr pEcc 0x120) 16 false))
  else (none, s)

/-- Poison that a packet brings from an edge FIFO or a sequencer stands in its first cell (R497). -/
def poisonHome (banks : List Nat) (c : CellErr) (s : State) : CellErr × State :=
  match c with
  | .poisoned _ =>
    let b := badCell (banks.headD 0) s
    (.poisoned ⟨b.1 % 64, 0, b.1 / 64, 0⟩, b.2)
  | _ => (c, s)

/-- Put an admitted packet on its queue (R397, R400): its cells are taken, BUF_PEAK and QUOTA_REACHED follow. -/
def place (k a q : Nat) (p : Pkt) (s : State) : State :=
  let old := usedCells k s
  let b := takeBanks s.buf.fenced p.cells (64 * (p.cells + 1)) s.buf.rot
  let s := { s with buf := { s.buf with rot := b.2 } }
  let h := poisonHome b.1 p.cell s
  let f := b.1.foldl (fun (x : CellErr × State) n => let y := wroteCell n k x.2; (if x.1.bad then x.1 else y.1.getD x.1, y.2)) h
  let s := f.2
  let s := s.setQueue (8 * a + q) (s.queue (8 * a + q) ++ [{ p with banks := b.1, cell := f.1 }])
  let used := usedCells k s
  let s := if s.fld (regAddr (pSlice k 4) 0x104) 0 19 < used then s.wp (pSlice k 4) 0x104 (word used) else s
  let quota := bits (s.slc k 0x11C) 0 19
  let s := if old < quota ∧ quota ≤ used then raise (pSlice k 4) 0 s else s
  pauseCheck p.src s

/-- Queue a packet on relative node `m`, queue `q` of its slice: the state, and whether it was queued. `ref` is the absolute
rule that named the node (0 where none did), `meterNode` false leaves out the node policer. Ingress is refused as Table 5-3,
Table 5-4, R17, R150 and R401 say, then R408 and R398 apply. -/
def enqueue (m q ref : Nat) (meterNode : Bool) (p : Pkt) (s : State) : State × Bool :=
  let k := p.slice
  let nd := s.nodes k
  let a := nd.1 + m
  let s := if m < nd.2 then readRow 0x61 ((8 * a + q) / 256) ((8 * a + q) % 256) 0 (readRow 0x60 (a / 64) (a % 64) 0 s) else s
  let p := { p with target := some (m % 256, q) }
  if s.sliceState k ≠ .active then (dropAt .sliceDown k p.src (some p) 0 s, false)
  else if nd.2 ≤ m then (dropSepRef k 2 0x40 ref (word m) p s, false)
  else if (s.hdr (pSlice k (0x28 + m / 32))).stopped || (s.hdr (pSlice k (0x30 + m / 16))).stopped then
    (dropAt .sliceDown k p.src (some p) 0 s, false)
  else
    let parent := nodeParent a s
    if !parentOk k parent s then (dropSepRef k 6 0x43 m (word parent) p s, false)
    else if parent < 32 ∧ s.mode.code = 1 then (dropAt .noLine k p.src (some p) 0 s, false)
    else
      let r := if meterNode && s.flag (nodeAddr a 0x14) 16 then meter k (s.fld (nodeAddr a 0x14) 0 12) 0x43 m true p s
        else (s, true)
      if !r.2 then (r.1, false)
      else
        match admission k a q p.cells r.1 with
        | some e =>
          let s := if p.src < 8 then macCount p.src 25 1 r.1 else r.1
          (dropAt e k p.src (some p) p.cells s, false)
        | none => (place k a q p r.1, true)

end Sys2Proof.Machine
end

