-- ==== Sys2Proof/Machine/Records.lean ====
section
/-!
DEFINITION. The records that the terminal's data path queues on the control links (Table 2-3): DATA_RX, OMCI_DOWN and CENSUS.

A record for a link whose STATE is DOWN is waiting while the link is lost, and is lost at once (R64).
-/

namespace Sys2Proof.Machine

/-- A DATA_RX record of a packet (Table 2-3). -/
def dataRxRec (p : Pkt) : Rec :=
  let l := frameBytes p.bytes
  ⟨0x91, 0, word (p.rule.getD 0 % 8192 * 65536 + p.slice * 4096 + p.src % 16 * 256) :: word l.length :: p.sec :: p.ns ::
    padWords l, 0⟩

/-- Queue a DATA_RX record on a link (R377, R64); a full queue drops it for that link, and a poisoned packet never leaves (R496). -/
def queueDataRx (l : AB) (p : Pkt) (s : State) : State :=
  let k := s.link l
  if p.cell.bad then dropPoison pBuf 9 p s
  else if k.state = .down then dropAt .ctlDown p.slice 9 (some p) 0 s
  else if k.rx.length < 256 then s.setLink l { k with rx := k.rx ++ [dataRxRec p] }
  else dropAt .puntQfull p.slice p.src (some p) 0 s

/-- A punt to one master (R376, R169, reference 5 of Table 5-2). `idx` is the absolute rule or the node that names it. -/
def puntTo (m : AB) (blk idx : Nat) (p : Pkt) (s : State) : State :=
  if s.ownsSlice m p.slice then queueDataRx m p s
  else dropSepRef p.slice 5 blk idx (word (2 ^ m.num)) p s

/-- The links that a two-bit field names, A first. -/
def namedLinks (n : Nat) : List AB := (if n % 2 = 1 then [.a] else []) ++ (if n / 2 % 2 = 1 then [.b] else [])

/-- The link that carries OMCI (R72). -/
def omciLink (s : State) : AB := if s.ownsSlice .a 0 then .a else .b

/-- Queue an OMCI message for the master (R72, R264): at most 32 wait. -/
def queueOmci (msg : List Byte) (s : State) : State :=
  let l := omciLink s
  let k := s.link l
  if k.state = .down then dropAt .ctlDown 0 9 none 0 s
  else if k.omci.length < 32 then
    s.setLink l { k with omci := k.omci ++ [⟨0xA0, 0, word msg.length :: padWords msg, 0⟩] }
  else dropAt .omciQfull 0 9 none 0 s

/-- Queue a CENSUS record of Skim records from the ring of slice `k` on a link (R73, R418). -/
def queueCensus (l : AB) (k : Nat) (recs : List Word) (s : State) : State :=
  let x := s.link l
  s.setLink l { x with census := x.census ++ [⟨0xA8, 0, word (recs.length / 8) :: recs, k⟩] }

end Sys2Proof.Machine
end

