-- ==== Sys2Proof/Machine/Schedule.lean ====
section
/-!
DEFINITION. The scheduler (R401 to R407): classes, deficit round robin over nodes and queues, and the release of a frame.
-/

namespace Sys2Proof.Machine

/-! ### Credits and classes (R402 to R404) -/

/-- The counted length of a packet at a port node (R402). -/
def countedLen (pn : Nat) (p : Pkt) (s : State) : Nat :=
  let n := Int.ofNat p.len + signedOf 8 (s.fld (regAddr pSch (0x100 + 4 * pn)) 0 8)
  if n < 1 then 1 else n.toNat

/-- Committed credit of an absolute node, in milli-bytes. -/
def credC (a : Nat) (s : State) : Int := tblGet 0 a s.buf.credC

/-- Peak credit of an absolute node, in milli-bytes. -/
def credP (a : Nat) (s : State) : Int := tblGet 0 a s.buf.credP

/-- Set both credits of a node. -/
def setCred (a : Nat) (c p : Int) (s : State) : State :=
  { s with buf := { s.buf with credC := tblSet 0 a c s.buf.credC, credP := tblSet 0 a p s.buf.credP } }

/-- The class of a node by its credits (R404): 0 COMMITTED, 1 EXCESS. -/
def nodeClass (a : Nat) (s : State) : Option Nat :=
  if s.fld (nodeAddr a 8) 0 23 = 0 ∨ credP a s ≤ 0 then none
  else if 0 < credC a s then some 0 else some 1

/-- The queues of a node that hold frames. -/
def fullQueues (a : Nat) (s : State) : List Nat := (List.range 8).filter (fun q => !(s.queue (8 * a + q)).isEmpty)

/-- The queues of a node whose frames are not held (R407). -/
def openQueues (pn a : Nat) (s : State) : List Nat :=
  (fullQueues a s).filter (fun q => !(decide (32 ≤ pn ∧ pn < 40) && queueHeld (pn - 32) q s))

/-! ### Deficit round robin (R405, R406) -/

/-- The candidate that follows `cur` in increasing order, cyclically. -/
def nextCand (cands : List Nat) (cur : Option Nat) : Option Nat :=
  match cur with
  | none => cands.head?
  | some c =>
    match cands.find? (fun x => decide (c < x)) with
    | some x => some x
    | none => cands.head?

/-- One choice by deficit round robin: a visit adds the quantum, and a candidate is taken while its next frame fits its
deficit. `key` names a candidate's deficit in the table `d`. -/
def drr (key quantum cost : Nat → Nat) (cands : List Nat) : Nat → Option Nat → Tbl Nat → Option (Nat × Tbl Nat)
  | 0, _, _ => none
  | fuel + 1, cur, d =>
    let fits := match cur with
      | some c => cands.contains c && decide (cost c ≤ tblGet 0 (key c) d)
      | none => false
    match cur with
    | some c =>
      if fits then some (c, tblSet 0 (key c) (tblGet 0 (key c) d - cost c) d)
      else match nextCand cands cur with
        | none => none
        | some n => drr key quantum cost cands fuel (some n) (tblSet 0 (key n) (tblGet 0 (key n) d + quantum n) d)
    | none => match nextCand cands none with
      | none => none
      | some n => drr key quantum cost cands fuel (some n) (tblSet 0 (key n) (tblGet 0 (key n) d + quantum n) d)

/-- The next frame of a queue costs this much at a port node. -/
def headCost (pn a q : Nat) (s : State) : Nat :=
  match s.queue (8 * a + q) with
  | [] => 0
  | p :: _ => countedLen pn p s

/-- The queue that a node serves next, with the queue deficits and the visited queue after the choice (R406): service by strict
priority leaves both as they are. -/
def pickQueue (pn a : Nat) (s : State) : Option (Nat × Tbl Nat × Nat) :=
  let sp := s.fld (nodeAddr a 0) 8 4
  let qs := openQueues pn a s
  let cur := tblGet 0 a s.buf.queueCur
  match (qs.filter (fun q => decide (8 ≤ q + sp))).getLast? with
  | some q => some (q, s.buf.queueDef, cur)
  | none =>
    (drr (fun q => 8 * a + q) (fun q => 64 * s.fld (queueAddr a q 0) 24 8) (fun q => headCost pn a q s)
      qs (qs.length * 160 + 2) (if cur = 0 then none else some (cur - 1)) s.buf.queueDef).map
        (fun r => (r.1, r.2, r.1 + 1))

/-- A node's deficits return to 0 when its queues are empty or when it has left the class; one whose queues are all held keeps
them (R405, R407). -/
def settleDeficit (pn a : Nat) (s : State) : State :=
  let zero := fun (c : Nat) (s : State) =>
    { s with buf := { s.buf with nodeDef := tblSet 0 (2 * a + c) 0 s.buf.nodeDef } }
  if (fullQueues a s).isEmpty then zero 1 (zero 0 s)
  else if (openQueues pn a s).isEmpty then s
  else match nodeClass a s with
    | some 0 => zero 1 s
    | some _ => zero 0 s
    | none => zero 1 (zero 0 s)

/-- The nodes of a port node that hold frames and belong to a slice whose queues are served (Table 5-3), in increasing
order. -/
def portNodes (pn : Nat) (s : State) : List Nat :=
  (List.range 256).filter (fun a =>
    !(fullQueues a s).isEmpty && nodeParent a s == pn &&
    (match nodeOwner a s with
      | some (k, _) => s.sliceState k == .active || s.sliceState k == .draining
      | none => false))

/-- The buffer reads the cells of a packet for egress (R491, R496): a single-bit error that stands in one is corrected, a wider one
is a UE and poisons the cell. -/
def readCells (p : Pkt) (s : State) : Pkt × State :=
  match p.cell with
  | .upset l [b] => ({ p with cell := .clean }, foundCe l b s)
  | .upset l _ =>
    ({ p with cell := .poisoned l }, startRowTest l (recordFault pBuf 0x0102 (locWord l 0x7F) 0 (raise pEcc 1 (eccCount 1 1 s))))
  | _ => (p, s)

/-- The poisoned word is the cell's header word, so that the next-packet link is lost (R496). -/
def linkLost (p : Pkt) : Bool :=
  match p.cell with
  | .poisoned l => l.word == 16
  | _ => false

/-- The place of the poisoned cell within its packet. -/
def badIndex (p : Pkt) : Nat :=
  match p.cell with
  | .poisoned l => p.banks.idxOf l.mem
  | _ => 0

/-- A frame that the scheduler has taken from its queue. -/
structure Taken where
  pkt : Pkt
  node : Nat
  queue : Nat

/-- Take the next frame of port node `pn` among the nodes that `ok` admits: COMMITTED nodes before EXCESS nodes, deficit round
robin within a class, then the node's queues; the buckets are debited (R404 to R406). -/
def takeFrame (pn : Nat) (ok : Nat → Bool) (s : State) : Option (Taken × State) :=
  let nodes := (portNodes pn s).filter ok
  let s := nodes.foldl (fun s a => settleDeficit pn a s) s
  let able := nodes.filter (fun a => !(openQueues pn a s).isEmpty)
  let inClass := fun c => able.filter (fun a => nodeClass a s == some c)
  let c := if (inClass 0).isEmpty then 1 else 0
  let cands := inClass c
  let cost := fun a => match pickQueue pn a s with
    | some (q, _) => headCost pn a q s
    | none => 0
  let cur := tblGet 0 (2 * pn + c) s.buf.nodeCur
  match drr (fun a => 2 * a + c) (fun a => 512 * s.fld (nodeAddr a 0) 16 8) cost cands (cands.length * 24 + 2)
      (if cur = 0 then none else some (cur - 1)) s.buf.nodeDef with
  | none => none
  | some (a, nd) =>
    match pickQueue pn a s with
    | none => none
    | some (q, qd, qc) =>
      match s.queue (8 * a + q) with
      | [] => none
      | p :: t =>
        let n : Int := 1000 * Int.ofNat (countedLen pn p s)
        let s := { s with buf := { s.buf with
          nodeDef := nd, nodeCur := tblSet 0 (2 * pn + c) (a + 1) s.buf.nodeCur,
          queueDef := if t.isEmpty then tblSet 0 (8 * a + q) 0 qd else qd,
          queueCur := tblSet 0 a qc s.buf.queueCur } }
        let s := setCred a (if c = 0 then credC a s - n else credC a s) (credP a s - n) (s.setQueue (8 * a + q) t)
        let r := readCells p s
        let s := if r.1.cell.bad && linkLost r.1 then poisonQueue a q r.2 else r.2
        some (⟨r.1, a, q⟩, settleDeficit pn a s)

/-! ### Discards from a queue -/

/-- Flush the packets of one queue (R158, R163, R364): each is counted FLUSH at its egress port and in FLUSHED. -/
def flushQueue (a q : Nat) (s : State) : State :=
  let l := s.queue (8 * a + q)
  let one := fun (s : State) (p : Pkt) =>
    let e := egressPort a p s
    let s := dropAt .flush p.slice e (some p) 0 (s.bump (queueAddr a q 12) 1)
    if e < 8 then macCount e 49 1 s else s
  freed l (settleEmpty a ((l.foldl one s).setQueue (8 * a + q) []))

/-- Flush every queue of a node. -/
def flushNode (a : Nat) (s : State) : State := (List.range 8).foldl (fun s q => flushQueue a q s) s

/-- A packet that is flushed after it has left its queue counts in the FLUSHED of that queue too (R158). -/
def countFlushed (p : Pkt) (s : State) : State :=
  match p.target with
  | some (m, q) => s.bump (queueAddr ((s.nodes p.slice).1 + m) q 12) 1
  | none => s

/-- Flush the packets that the scheduler has released toward client port `n` and that have not left, of one slice. -/
def flushPort (n k : Nat) (s : State) : State :=
  let x := s.port n
  let l := x.txq.filter (fun p => p.slice == k)
  let s := l.foldl (fun s p => macCount n 49 1 (dropAt .flush k n (some p) 0 (countFlushed p s))) s
  freed l (s.setPort n { s.port n with txq := x.txq.filter (fun p => p.slice != k) })

/-! ### SCHED_RELEASE -/

/-- A frame released toward client port `n` (R347). -/
def releaseClient (n : Nat) (p : Pkt) (s : State) : State :=
  if p.cell.bad then freed [p] (dropPoison (pMac n) n p s)
  else if macLink n s then s.setPort n { s.port n with txq := (s.port n).txq ++ [p] }
  else freed [p] (macCount n 54 1 (dropAt .linkDown p.slice n (some p) 0 s))

/-- A frame released by port node 40 (R401): one DATA_RX record on each link that HLINK names. -/
def releaseHost (a : Nat) (p : Pkt) (s : State) : State :=
  if p.cell.bad then freed [p] (dropPoison pBuf 9 p s)
  else
    let one := fun (s : State) (l : AB) =>
      if !s.ownsSlice l p.slice then dropSepRef p.slice 5 0x43 a (word (2 ^ l.num)) p s
      else if (s.link l).state ≠ .up then dropAt .ctlDown p.slice 9 (some p) 0 s
      else queueDataRx l p s
    freed [p] ((namedLinks (s.fld (nodeAddr a 0) 24 2)).foldl one s)

/-- Every link that a node names has room, or is not UP (Table 14-1, R401). -/
def hostRoom (s : State) (a : Nat) : Bool :=
  (namedLinks (s.fld (nodeAddr a 0) 24 2)).all (fun l =>
    (s.link l).state != .up || decide ((s.link l).rx.length < 256))

/-- SCHED_RELEASE: client port node 32 to 39 or host port node 40 releases one frame. An Alloc-ID port node is pulled by its
grants (Table 14-1), so the command finds nothing to release there. -/
def execSchedRelease (pn : Nat) (s : State) : Result State := whenOn s <|
  if 32 ≤ pn ∧ pn < 40 then
    match takeFrame pn (fun _ => true) s with
    | none => .next s
    | some (t, s) => .next (releaseClient (pn - 32) t.pkt s)
  else if pn = 40 ∧ 0 < s.buf.hostCredit then
    match takeFrame 40 (hostRoom s) s with
    | none => .next s
    | some (t, s) =>
      let s := { s with buf := { s.buf with
        hostCredit := s.buf.hostCredit - 1000 * Int.ofNat (countedLen 40 t.pkt s) } }
      .next (releaseHost t.node t.pkt s)
  else .next s

/-! ### Register writes of the scheduler and the policers (Table 14-6, R421) -/

/-- A node's buckets are full (Table 14-6). -/
def fillNode (a : Nat) (s : State) : State :=
  setCred a (1000 * Int.ofNat (s.fld (nodeAddr a 12) 0 24)) (1000 * Int.ofNat (s.fld (nodeAddr a 16) 0 24)) s

/-- The treatment of the registers of slice `k`'s node page that shows relative node `m`, word `d`. -/
def nodeHandler (k m d : Nat) : Handler :=
  let p := pSlice k (0x28 + m / 32)
  let off := 0x100 + 0x20 * (m % 32) + d
  let home := fun (s : State) => nodeAddr ((s.nodes k).1 + m) d
  { plain p off with
    range := fun _ v s =>
      decide ((s.nodes k).2 ≤ m) ||
      (if d = 0 then
        let parent := bits v 0 6
        (decide (parent ≠ 63) && !parentOk k parent s) ||
          (decide (parent = 40) && (bits v 24 2 == 0 || (bits v 24 2 % 2 == 1 && !s.ownsSlice .a k) ||
            (bits v 24 2 / 2 == 1 && !s.ownsSlice .b k)))
      else if d = 4 then decide (s.fld (nodeAddr ((s.nodes k).1 + m) 8) 0 23 < bits v 0 23)
      else if d = 8 then decide (bits v 0 23 < s.fld (nodeAddr ((s.nodes k).1 + m) 4) 0 23)
      else if d = 0x14 then bit v 16 && decide ((s.polRange k).2 ≤ bits v 0 12)
      else false)
    run := fun _ v s =>
      let a := (s.nodes k).1 + m
      let old := nodeParent a s
      let s := wroteWord (nodeLoc a d) k (s.wr (home s) (mergeFields (fieldsAt p off) (s.rd (home s)) v))
      let s := if d = 0 ∧ nodeParent a s ≠ old then
          { s with buf := { s.buf with nodeDef := tblSet 0 (2 * a) 0 (tblSet 0 (2 * a + 1) 0 s.buf.nodeDef) } }
        else s
      if d = 4 ∨ d = 8 then fillNode a s else s }

/-- The treatment of the registers of queue `q` of relative node `m`, word `d`. -/
def queueHandler (k m q d : Nat) : Handler :=
  let p := pSlice k (0x30 + m / 16)
  let off := 0x100 + 16 * ((8 * m + q) % 128) + d
  { plain p off with
    range := fun _ _ s => decide ((s.nodes k).2 ≤ m)
    run := fun _ v s =>
      let a := (s.nodes k).1 + m
      let h := queueAddr a q d
      wroteWord (queueLoc a q d) k (s.wr h (mergeFields (fieldsAt p off) (s.rd h) v)) }

/-- The treatment of the registers of relative policer `j`, word `d`. -/
def policerHandler (k j d : Nat) : Handler :=
  let p := pSlice k (0x18 + j / 256)
  let off := 0x100 + 12 * (j % 256) + d
  { plain p off with
    range := fun _ v s => decide ((s.polRange k).2 ≤ j) || (decide (d = 0) && bit v 24 && decide (50000 < bits v 0 23))
    run := fun _ v s =>
      let a := (s.polRange k).1 + j
      let h := polAddr a d
      wroteWord (polLoc a) k (s.wr h (mergeFields (fieldsAt p off) (s.rd h) v)) }

/-- The eight registers that a SHAPER_WRITE can name: rates and burst sizes (R421). -/
def shaperWrite (m : AB) (r : ShaperReg) (v : Word) (s : State) : State :=
  match r with
  | .node k n d =>
    let k := k % 16
    let n := n % 256
    let d := if d % 4 = 0 then 4 else if d % 4 = 1 then 8 else if d % 4 = 2 then 12 else 16
    writeReg m (pSlice k (0x28 + n / 32)) (0x100 + 0x20 * (n % 32) + d) (nodeHandler k n d) v s
  | .policer k j d =>
    let k := k % 16
    let j := j % 4096
    let d := if d % 2 = 0 then 0 else 4
    writeReg m (pSlice k (0x18 + j / 256)) (0x100 + 12 * (j % 256) + d) (policerHandler k j d) v s
  | .host => writeReg m pSch 0x1B0 (plain pSch 0x1B0) v s

/-- SHAPER_WRITE: a write of a rate or burst size. -/
def execShaperWrite (m : AB) (r : ShaperReg) (v : Word) (s : State) : Result State := whenOn s <| .next (shaperWrite m r v s)

/-! ### Refills (R403, R409, R384) -/

/-- One microsecond of a node's buckets (R403). -/
def refillNode (a : Nat) (s : State) : State :=
  let cap := fun (off : Nat) => 1000 * Int.ofNat (s.fld (nodeAddr a off) 0 24)
  let add := fun (c : Int) (rate burst : Nat) =>
    let n := c + Int.ofNat (s.fld (nodeAddr a rate) 0 23)
    if cap burst < n then cap burst else n
  setCred a (add (credC a s) 4 12) (add (credP a s) 8 16) s

/-- One microsecond of a policer's bucket (R409). -/
def refillPolicer (j : Nat) (s : State) : State :=
  let cap := 1000 * Int.ofNat (s.fld (polAddr j 4) 0 24)
  let n := polCredit j s + Int.ofNat (s.fld (polAddr j 0) 0 23)
  setPolCredit j (if cap < n then cap else n) s

/-- The absolute nodes and policers with a register that differs from its reset value: the only ones whose credit can rise. -/
def shaped (s : State) : List Nat × List Nat :=
  let pages := s.regs.filterMap (fun e =>
    if pSlice 0 0x18 * 0x1000 ≤ e.1 ∧ e.1 < pSlice 0 0x30 * 0x1000 then some e.1 else none)
  let node := pages.filterMap (fun a =>
    if pSlice 0 0x28 * 0x1000 ≤ a ∧ 0x100 ≤ a % 0x1000 then
      some ((a / 0x1000 - pSlice 0 0x28) * 32 + (a % 0x1000 - 0x100) / 0x20) else none)
  let pol := pages.filterMap (fun a =>
    if a < pSlice 0 0x28 * 0x1000 ∧ 0x100 ≤ a % 0x1000 then
      some ((a / 0x1000 - pSlice 0 0x18) * 256 + (a % 0x1000 - 0x100) / 12) else none)
  (node.eraseDups, pol.eraseDups)

/-- One microsecond of every bucket of the scheduler and the policers. The host port node has a burst of 16 384 bytes of its
own (assumption 9). -/
def refillBuckets (s : State) : State :=
  let x := shaped s
  let s := (x.1 ++ s.buf.credC.map Prod.fst ++ s.buf.credP.map Prod.fst).eraseDups.foldl (fun s a => refillNode a s) s
  let s := (x.2 ++ s.buf.polCred.map Prod.fst).eraseDups.foldl (fun s j => refillPolicer j s) s
  let h := s.buf.hostCredit + Int.ofNat (s.fld (regAddr pSch 0x1B0) 0 23)
  { s with buf := { s.buf with hostCredit := if 16384000 < h then 16384000 else h } }

end Sys2Proof.Machine
end

