-- ==== Sys2Proof/Machine/SeqCore.lean ====
section
/-!
DEFINITION. Sequencers (chapter 16): their memories, when they run, starting and stopping them (R457, R458), and receive copies
(R467).
-/

namespace Sys2Proof.Machine

/-- Sequencer `n`. -/
def State.seq (s : State) (n : Nat) : Seq := tblGet Seq.reset n s.seqs

/-- Replace sequencer `n`. -/
def State.setSeq (s : State) (n : Nat) (q : Seq) : State := { s with seqs := tblSet Seq.reset n q s.seqs }

/-- A byte of a sequencer memory. -/
def SeqMem.get (m : SeqMem) (a : Nat) : Byte :=
  match tblGet none a m.bytes, m.era with
  | some b, _ => b
  | none, none => 0
  | none, some e => Config.seqByte e a

/-- Write a byte of a sequencer memory. -/
def SeqMem.put (m : SeqMem) (a : Nat) (b : Byte) : SeqMem :=
  { m with bytes := if m.era = none ∧ b = 0 then tblErase a m.bytes else tblSet none a (some b) m.bytes }

/-- Bytes of a sequencer memory from an address on. -/
def SeqMem.read (m : SeqMem) (a : Nat) : Nat → List Byte
  | 0 => []
  | k + 1 => m.get a :: m.read (a + 1) k

/-- Write bytes from an address on. -/
def SeqMem.write (m : SeqMem) (a : Nat) : List Byte → SeqMem
  | [] => m
  | b :: t => (m.put a b).write (a + 1) t

/-- Count in SEQ counter `i`. -/
def seqCount (n i k : Nat) (s : State) : State :=
  countAt (pSeq n) 0x200 0x1D0 5 (if i = 0 then 48 else 40) i k s

/-- A sequencer runs: its page is ACTIVE, its slice is ACTIVE or DRAINING, and in ATTACH the slice is LOCAL_OK (R457, R26). A
code size of 0 leaves it unable to start (Table 16-5). -/
def seqMayRun (n : Nat) (s : State) : Bool :=
  s.pstate (pSeq n) == .active && s.fld (regAddr (pSeq n) 0x114) 0 25 != 0 &&
    match s.seqSlice n with
    | none => false
    | some k => (s.sliceState k == .active || s.sliceState k == .draining) &&
        (s.mode.code != 1 || bit (s.slc k 0x100) 0)

/-- A start at the entry point (R457). -/
def seqStart (n : Nat) (s : State) : State :=
  let q := s.seq n
  s.setSeq n { q with
    run := .running, pc := s.fld (regAddr (pSeq n) 0x10C) 0 25, g := [], timers := [], events := 0, slots := [],
    txbuf := SeqMem.zero, cache := [], wait := none, wdogUs := 0 }

/-- A stop at an instruction boundary (R158, R458, R472): a WAIT or a CRES is abandoned, a load in progress completes. -/
def seqStop (n : Nat) (s : State) : State :=
  let q := s.seq n
  let q := match q.wait with
    | some (.load rd a) => if rd = 0 then q else { q with g := tblSet 0 rd (s.dramWord a) q.g }
    | _ => q
  match q.run with
  | .running => s.setSeq n { q with run := .stopped, wait := none }
  | .waiting => s.setSeq n { q with run := .stopped, wait := none }
  | _ => s

/-- After a change from `old`, each sequencer that has come to run starts at its entry point and each that may no longer run
stops (R457, R458, Table 5-3, Table 5-4). -/
def seqSync (old s : State) : State :=
  (List.range 8).foldl (fun s n =>
    if !seqMayRun n old && seqMayRun n s then seqStart n s
    else if seqMayRun n old && !seqMayRun n s then seqStop n s
    else s) s

/-- The 20 bytes of metadata of a receive copy (R467). -/
def rxMeta (k : Nat) (p : Pkt) (s : State) : List Byte :=
  wordsToBytes [ word (p.len % 65536 + p.src % 16 * 65536),
    word ((p.rule.getD 0 - (s.ruleRange k).1) % 8192 + b2n p.second * 65536), p.sec, p.ns, word (p.frac % 65536) ]

/-- The lowest free receive slot. -/
def freeSlotOf (q : Seq) : Option Nat := (List.range 4).find? (fun i => !q.slots.any (fun x => x.1 == i))

/-- Sequencer `n` takes a copy of a packet (R467). -/
def rxCopy (n k : Nat) (p : Pkt) (s : State) : State :=
  let q := s.seq n
  match freeSlotOf q with
  | none => raise (pSeq n) 4 (seqCount n 5 1 s)
  | some i =>
    let l := (frameBytes p.bytes).take 992
    let m := (q.rxbuf.write (0x400 * i) l).write (0x400 * i + 0x3E0) (rxMeta k p s)
    seqCount n 4 1 (s.setSeq n { q with rxbuf := m, slots := q.slots ++ [(i, l.length)] })

/-- A VALID SEQ_RX_BIND entry of sequencer `n` names the packet's rule, and SKIP_SEQ does not exclude it (R467). -/
def bound (n k : Nat) (p : Pkt) (s : State) : Bool :=
  (List.range 4).any (fun i =>
    let r := s.rp (pSeq n) (0x130 + 4 * i)
    bit r 16 && p.rule == some ((s.ruleRange k).1 + bits r 0 13) && !(bit r 17 && p.src == 10))

/-- The receive copies of a packet whose rule has been chosen in slice `k` (R467). -/
def rxCopies (k : Nat) (p : Pkt) (s : State) : State :=
  (List.range 8).foldl (fun s n =>
    if s.seqSlice n == some k && bound n k p s then rxCopy n k p s else s) s

end Sys2Proof.Machine
end

