-- ==== Sys2Proof/Machine/Classify.lean ====
section
/-!
DEFINITION. Classification (chapter 13): dispatch over buckets and lanes, lookup, the actions of a rule, load spreading, the Churn,
and the rule window.
-/

namespace Sys2Proof.Machine

/-! ### Lanes and buckets (R387 to R391) -/

/-- Lane `n` is in service. -/
def laneIn (n : Nat) (s : State) : Bool := !(s.lane n).out

/-- The lanes in service. -/
def lanesIn (s : State) : List Nat := (List.range 16).filter (fun n => laneIn n s)

/-- The number of buckets that lane `n` holds. -/
def laneBuckets (n : Nat) (b : List Nat) : Nat := (b.filter (fun x => x == n)).length

/-- The lane in service that holds the fewest buckets, the lowest-numbered at a tie (R388). -/
def fewest (lanes b : List Nat) : Option Nat :=
  lanes.foldl (fun best n =>
    match best with
    | none => some n
    | some m => if laneBuckets n b < laneBuckets m b then some n else some m) none

/-- Reassign the buckets of `from`, in increasing order (R388). -/
def moveBuckets (lanes : List Nat) (src : Nat) : List Nat → List Nat → List Nat
  | [], b => b
  | i :: t, b =>
    if b.getD i 0 = src then
      match fewest lanes b with
      | some n => moveBuckets lanes src t (b.set i n)
      | none => moveBuckets lanes src t b
    else moveBuckets lanes src t b

/-- The bucket of a packet (R387). -/
def bucketOf (p : Pkt) : Nat := p.flow.toNat % 64

/-- What a lane holds at most: 8 packets in flight and an input queue of 64 (R389). -/
def laneRoom : Nat := 72

/-- Packets of bucket `b` are still on a lane other than `n`. -/
def elsewhere (b n : Nat) (s : State) : Bool :=
  (List.range 16).any (fun m => m != n && (s.lane m).q.any (fun p => bucketOf p == b))

/-- Hand packets to the lanes of their buckets; those of the buckets `held`, of a bucket that still has packets on another lane, and of
a full lane stay in their order. -/
def handOver : List Pkt → List Nat → State → List Pkt × State
  | [], _, s => ([], s)
  | p :: t, held, s =>
    let b := bucketOf p
    let n := s.cls.buckets.getD b 0
    if held.contains b || elsewhere b n s || decide (laneRoom ≤ (s.lane n).q.length) then
      let r := handOver t (b :: held) s
      (p :: r.1, r.2)
    else handOver t held (s.setLane n { s.lane n with q := (s.lane n).q ++ [p] })

/-- The packets that the dispatcher holds. -/
def State.setWaiting (s : State) (l : List Pkt) : State := { s with cls := { s.cls with waiting := l } }

/-- The dispatcher goes on with the packets that it holds: to their lanes, or to NO_LANE when none is in service (R387, R391). -/
def settleWaiting (s : State) : State :=
  if s.cls.waiting.isEmpty then s
  else if (lanesIn s).isEmpty then s.cls.waiting.foldl (fun s p => dropSrc .noLane p 0 s) (s.setWaiting [])
  else
    let r := handOver s.cls.waiting [] s
    r.2.setWaiting r.1

/-- A lane leaves service: its buckets move to other lanes (R388). -/
def laneRemove (n : Nat) (s : State) : State :=
  if !laneIn n s then s
  else
    let s := s.setLane n { s.lane n with out := true }
    settleWaiting { s with cls := { s.cls with buckets := moveBuckets (lanesIn s) n (List.range 64) s.cls.buckets } }

/-- A lane returns to service. A bucket that stood on a lane out of service is placed at once; the others come back by
BUCKET_RETURN (R388). -/
def laneReturn (n : Nat) (s : State) : State :=
  if laneIn n s then s
  else
    let s := s.setLane n { s.lane n with out := false }
    let out := (List.range 16).filter (fun m => !laneIn m s)
    settleWaiting { s with cls := { s.cls with
      buckets := out.foldl (fun b m => moveBuckets (lanesIn s) m (List.range 64) b) s.cls.buckets } }

/-- Dispatch a packet to the lane of its bucket, behind the packets that the dispatcher holds (R387, R391). -/
def dispatch (p : Pkt) (s : State) : State := settleWaiting (s.setWaiting (s.cls.waiting ++ [p]))

/-- The packets that are on lane `n` are dispatched again, in their order and ahead of those that the dispatcher holds (R389). -/
def redispatch (n : Nat) (s : State) : State :=
  (s.setWaiting ((s.lane n).q ++ s.cls.waiting)).setLane n { s.lane n with q := [] }

/-- Ingress of a frame to classification (R156, R17, R166, R370): from a client port, the line, the host port or a sequencer. -/
def ingress (src k : Nat) (l : List Byte) (f : Pkt → Pkt) (s : State) : State :=
  let p := f (mkPkt src k l s)
  if s.sliceState k ≠ .active then dropSrc .sliceDown p 0 s
  else if (src < 8 ∨ src = 9) ∧ s.mode.code = 1 ∧ bit (s.slc k 0x100) 0 = false then dropSrc .modeBlock p 0 s
  else dispatch p s

/-- Packets that the lane has in flight: at most 8 (R389). -/
def inFlight (n : Nat) (s : State) : List Pkt := (s.lane n).q.take 8

/-- A lane fails (R389): its packets in flight are dropped, it leaves service, its queue is dispatched again, and its self-test
starts. -/
def laneFault (n : Nat) (s : State) : State :=
  let fl := inFlight n s
  let s := s.setLane n { s.lane n with q := (s.lane n).q.drop 8 }
  let s := fl.foldl (fun s p => dropSrc .laneFault p n s) s
  let s := s.bump (regAddr (pLane 0) 0x40C) fl.length
  let s := countAt (pLane n) 0x200 0x130 3 40 2 fl.length s
  let s := settleWaiting (laneRemove n (redispatch n s))
  startUnitTest (pLane n) 0xFF (recordFault (pLane n) 0x0501 (word fl.length) 0 (raise (pLane n) 0 s))

/-- LANE_STALL: a lane in service that holds work has accepted nothing for CLS_LANE_STALL µs. -/
def execLaneStall (n : Nat) (s : State) : Result State := whenOn s <|
  let n := n % 16
  if laneIn n s && !(s.lane n).q.isEmpty then .next (laneFault n s) else .next s

/-- The lane to which bucket `b` moves back: the one in service that holds the fewest buckets, while that is a returning lane, which
holds at least two fewer than the bucket's lane, and while no packet of the bucket is on a lane (R388, assumption 79). -/
def returnLane (b : Nat) (s : State) : Option Nat :=
  let busy := (List.range 16).any (fun n => (s.lane n).q.any (fun p => bucketOf p == b))
  match fewest (lanesIn s) s.cls.buckets with
  | none => none
  | some n =>
    if !busy && decide (laneBuckets n s.cls.buckets + 2 ≤ laneBuckets (s.cls.buckets.getD b 0) s.cls.buckets) then some n else none

/-- BUCKET_RETURN: bucket `b` moves back to a returning lane, in increasing bucket order (R388). -/
def execBucketReturn (b : Nat) (s : State) : Result State := whenOn s <|
  let b := b % 64
  match returnLane b s with
  | none => .next s
  | some n =>
    if (List.range b).any (fun c => (returnLane c s).isSome) then .next s
    else .next (settleWaiting { s with cls := { s.cls with buckets := s.cls.buckets.set b n } })

/-! ### Rules (Tables 13-2 and 13-3) -/

/-- Word `i` of a rule's action. -/
def Rule.a (r : Rule) (i : Nat) : Word := r.act.getD i 0

/-- ACT0.VALID. -/
def Rule.valid (r : Rule) : Bool := bit (r.a 0) 31

/-- DISP. -/
def Rule.disp (r : Rule) : Nat := bits (r.a 0) 28 3

/-- The permit that a rule names. -/
def Rule.permit (r : Rule) : Nat := bits (r.a 0) 16 5

/-- A rule matches a key (R372). -/
def Rule.matches (r : Rule) (key : List Word) : Bool :=
  (List.range 19).all (fun i => (key.getD i 0 &&& r.mask.getD i 0) == (r.key.getD i 0 &&& r.mask.getD i 0))

/-- The lowest valid rule of slice `k` that matches a key, with its absolute index (R372). A rule that is read in error becomes
invalid and the search goes on (R495). -/
def lookup (k : Nat) (key : List Word) : List (Nat × Rule) → State → Option (Nat × Rule) × State
  | [], s => (none, s)
  | (i, r) :: t, s =>
    let rg := s.ruleRange k
    if rg.1 ≤ i ∧ i < rg.1 + rg.2 ∧ r.valid = true ∧ r.matches key = true then
      let s := readRow (0x40 + i / 1024) 0 (i % 1024) 0 s
      if (s.ruleAt i).valid then (some (i, r), s) else lookup k key t s
    else lookup k key t s

/-- Permit `i` covers a crossing from `src` to `dst` (R153). -/
def permitOk (i src dst : Nat) (mirror : Bool) (s : State) : Bool :=
  let r := s.rp pSlc (0x200 + 4 * i)
  bit r 0 && bits r 4 4 == src && bits r 8 4 == dst && (mirror || !bit r 16)

/-- A packet crosses under a permit: it becomes a packet of DST and is counted (R154); a permit that does not cover it any more
drops it (R155). -/
def cross (i dst : Nat) (mirror : Bool) (p : Pkt) (s : State) : Option Pkt × State :=
  if permitOk i p.slice dst mirror s then (some { p with slice := dst }, s.bump (regAddr pSlc (0x300 + 4 * i)) 1)
  else (none, dropXslice p s)

/-! ### Load spreading (R379, R380) -/

/-- The hash of a key under a profile of slice `k` (R379). -/
def spreadHash (k prof : Nat) (key : List Word) (s : State) : Nat :=
  let h := fun i => s.rp (pSlice k 8) (0x300 + 0x80 * prof + 4 * i)
  crc32c (some (h 19)) (wordsToBytes ((List.range 19).map (fun i => key.getD i 0 &&& h i)))

/-- The indirection entry that a key selects (R380). -/
def spreadEntry (k prof : Nat) (key : List Word) (s : State) : Nat := spreadHash k prof key s % 512

/-! ### The Churn (R381 to R386) -/

/-- Milli-packets left in the Churn bucket of slice `k` (R384). -/
def churnCredit (k : Nat) (s : State) : Nat :=
  1000 * s.fld (regAddr (pSlice k 5) 0x104) 0 13 - tblGet 0 k s.buf.churnSpent

/-- Count in CHU counter `i` of slice `k`. -/
def churnCount (k i : Nat) (s : State) : State := countAt (pSlice k 5) 0x200 0x130 0 40 i 1 s

/-- The key of a second pass (R381, R386). -/
def churnKey (p : Pkt) (r : Rule) : List Word :=
  let inner := match p.inner with
    | some w => if bit (r.a 1) 27 && decide (5 ≤ keyLayer p.key) then
        (((p.key.headD 0 :: w).set 6 0).set 8 (p.key.getD 8 0)) else p.key
    | none => p.key
  let w0 := p.key.headD 0
  let m := (bits w0 0 16 &&& (65535 - bits (r.a 3) 16 16)) ||| (bits (r.a 3) 0 16 &&& bits (r.a 3) 16 16)
  inner.set 0 (setBits (setBits w0 27 1 1) 0 16 m)

/-- A packet whose rule names CHURN (R381 to R384). -/
def toChurn (r : Rule) (p : Pkt) (s : State) : State :=
  let k := p.slice
  if p.second then dropSrc .churnLoop p 0 (churnCount k 2 s)
  else if (s.hdr (pSlice k 5)).stopped then dropSrc .sliceDown p 0 s
  else if churnCredit k s < 1000 then dropSrc .churnCap p 0 (churnCount k 1 s)
  else
    let key := churnKey p r
    let s := churnCount k 0 s
    let pass : Pass := ⟨{ p with second := true, key := key, flow := flowCrc key },
      if bit (r.a 0) 15 then some (r.permit, r.dst) else none⟩
    { s with
      buf := { s.buf with churnSpent := tblSet 0 k (tblGet 0 k s.buf.churnSpent + 1000) s.buf.churnSpent }
      cls := { s.cls with churnQ := s.cls.churnQ ++ [pass] } }

/-- CHURN_PASS: the oldest admitted packet re-enters dispatch for its second pass, in the permit's DST when its rule crosses
(R382, R392). -/
def execChurnPass (s : State) : Result State := whenOn s <|
  match s.cls.churnQ with
  | [] => .next s
  | c :: t =>
    let s := { s with cls := { s.cls with churnQ := t } }
    match c.permit with
    | none => .next (dispatch c.pkt s)
    | some (i, dst) =>
      match cross i dst false c.pkt s with
      | (some p, s) => .next (dispatch p s)
      | (none, s) => .next s

/-! ### Actions (R375, R376) -/

/-- Rewrite the outer PCP of a tagged frame (R375). -/
def remark (pri : Nat) (p : Pkt) : Pkt :=
  if bits (p.key.headD 0) 19 2 = 0 then p
  else { p with bytes := putBytes p.bytes 14 [BitVec.ofNat 8 (byteAt p.bytes 14 % 32 + pri * 32)] }

/-- Add a packet to a rule counter (R375). -/
def ruleCount (k c : Nat) (p : Pkt) (s : State) : State :=
  let a := regAddr (pSlice k (0xA + c / 128)) (0x800 + 16 * (c % 128))
  let s := readRow 0x49 (c / 128) (c % 128) k s
  countWide (a + 8) 48 p.len none none (countWide a 40 1 none none s)

/-- A packet punted to the Keeper (R376, R377). -/
def puntKeeper (p : Pkt) (s : State) : State :=
  if s.keeper.puntQ.length < 32 then
    let l := frameBytes p.bytes
    let c : Capture := { seq := 0, bytes := l.take 256, len := l.length, slice := p.slice, srcPort := p.src,
                         rule := p.rule.getD 0, second := p.second, sec := p.sec, ns := p.ns }
    { s with keeper := { s.keeper with puntQ := s.keeper.puntQ ++ [c] } }
  else dropSrc .puntQfull p 0 s

/-- What the Separator refuses at use: a reference of Table 5-2, as SLC_SEP_LAST and SLC_SEP_VALUE show it, or a crossing that no
permit covers. -/
inductive TargetBad where
  | sep (ref blk idx value : Nat)
  | xslice
deriving DecidableEq, Repr

/-- A node that a rule names as a target is read on demand. -/
def touchNode (k m : Nat) (s : State) : State :=
  if m < (s.nodes k).2 then readRow 0x60 (((s.nodes k).1 + m) / 64) (((s.nodes k).1 + m) % 64) 0 s else s

/-- Relative node `m` of slice `k` as a target (references 2, 4, 6 and 3 of Table 5-2): `out` is the answer where the slice does not
have it. A slice or an SCH page that takes no packets uses no reference of the node; `police` says whether the node policer is used. -/
def nodeRefused (k m : Nat) (out : TargetBad) (police : Bool) (s : State) : Option TargetBad :=
  let a := (s.nodes k).1 + m
  if (s.nodes k).2 ≤ m then some out
  else if s.sliceState k ≠ .active ∨ (s.hdr (pSlice k (0x28 + m / 32))).stopped = true ∨
      (s.hdr (pSlice k (0x30 + m / 16))).stopped = true then none
  else if !parentOk k (nodeParent a s) s then some (.sep 6 0x43 m (nodeParent a s))
  else if police && s.flag (nodeAddr a 0x14) 16 && decide ((s.polRange k).2 ≤ s.fld (nodeAddr a 0x14) 0 12) then
    some (.sep 3 0x43 m (s.fld (nodeAddr a 0x14) 0 12))
  else none

/-- The node that the disposition of a rule queues the original on, with the answer where it lies outside: FORWARD's own, or the one of
a VALID entry of the indirection table. -/
def targetNode (i : Nat) (r : Rule) (k e : Nat) (s : State) : Option (Nat × TargetBad) :=
  let ent := s.rp (pSlice k 9) (0x100 + 4 * e)
  if r.disp = 0 then some (bits (r.a 1) 0 8, .sep 2 0x40 i (bits (r.a 1) 0 8))
  else if r.disp = 1 ∧ bit ent 16 = true then some (bits ent 0 8, .sep 4 0x40 e (bits ent 0 8))
  else none

/-- The slice that a rule's forward, spread or Churn target lies in. -/
def fwdSlice (r : Rule) (k : Nat) : Nat := if bit (r.a 0) 15 then r.dst else k

/-- The slice that a rule's mirror target lies in. -/
def mirSlice (r : Rule) (k : Nat) : Nat := if bit (r.a 0) 14 then r.dst else k

/-- The entries that hold a rule's targets are read on demand (R494). -/
def touchTargets (i : Nat) (r : Rule) (k e : Nat) (s : State) : State :=
  let s := if r.disp = 1 then readRow 0x48 k (e / 8) k s else s
  let s := if bit (r.a 0) 27 then touchNode (mirSlice r k) (bits (r.a 1) 16 8) s else s
  match targetNode i r k e s with
  | some (m, _) => touchNode (fwdSlice r k) m s
  | none => s

/-- The first target of a rule that the Separator refuses at use (R150, R151, R155, R376), the mirror's before the disposition's; with
MASTER naming a master outside the owner mask the whole punt is refused (reference 5). -/
def targetRefused (i : Nat) (r : Rule) (k e : Nat) (s : State) : Option TargetBad :=
  let mirrorBad :=
    if !bit (r.a 0) 27 then none
    else if bit (r.a 0) 14 && !permitOk r.permit k r.dst true s then some .xslice
    else nodeRefused (mirSlice r k) (bits (r.a 1) 16 8) (.sep 2 0x40 i (bits (r.a 1) 16 8)) false s
  match mirrorBad with
  | some b => some b
  | none =>
    if bit (r.a 0) 15 && (r.disp == 0 || r.disp == 1 || r.disp == 5) && !permitOk r.permit k r.dst false s then some .xslice
    else if r.disp = 3 ∧ bits (r.a 0) 12 2 &&& (3 - s.ownerMask k) ≠ 0 then some (.sep 5 0x40 i (bits (r.a 0) 12 2))
    else match targetNode i r k e s with
      | some (m, out) => nodeRefused (fwdSlice r k) m out true s
      | none => none

/-- A packet that the Separator refuses is dropped whole (R150, R155). -/
def dropTarget (b : TargetBad) (p : Pkt) (s : State) : State :=
  match b with
  | .sep ref blk idx v => dropSepRef p.slice ref blk idx (word v) p s
  | .xslice => dropXslice p s

/-- The mirror copy of step 4 (R375): neither policed nor timestamped. -/
def mirror (r : Rule) (p : Pkt) (s : State) : State :=
  let c := { p with tsId := none }
  let go := fun (c : Pkt) (s : State) => (enqueue (bits (r.a 1) 16 8) (bits (r.a 1) 24 3) (p.rule.getD 0) false c s).1
  if bit (r.a 0) 14 then
    match cross r.permit r.dst true c s with
    | (some c, s) => go c s
    | (none, s) => s
  else go c s

/-- Queue the original on a node (R376, R380), after a crossing when XFWD is 1 (R154). -/
def forward (r : Rule) (node queue : Nat) (p : Pkt) (s : State) : State :=
  let q := if bit (r.a 1) 11 then p.pri else queue
  if bit (r.a 0) 15 then
    match cross r.permit r.dst false p s with
    | (some p, s) => (enqueue node q (p.rule.getD 0) true p s).1
    | (none, s) => s
  else (enqueue node q (p.rule.getD 0) true p s).1

/-- Dispose of the original (R376); `e` is the indirection entry of a SPREAD. -/
def dispose (r : Rule) (e : Nat) (p : Pkt) (s : State) : State :=
  if r.disp = 0 then forward r (bits (r.a 1) 0 8) (bits (r.a 1) 8 3) p s
  else if r.disp = 1 then
    let ent := s.rp (pSlice p.slice 9) (0x100 + 4 * e)
    if bit ent 16 then forward r (bits ent 0 8) (bits ent 8 3) p s else dropSrc .spreadEmpty p 0 s
  else if r.disp = 2 then dropSrc .ruleDrop p 0 s
  else if r.disp = 3 then
    (namedLinks (bits (r.a 0) 12 2)).foldl (fun s m => puntTo m 0x40 (p.rule.getD 0) p s) s
  else if r.disp = 4 then puntKeeper p s
  else if r.disp = 5 then toChurn r p s
  else dropSrc .ruleDrop p 0 s

/-- Apply the actions of the chosen rule in their order (R375); a target that the Separator refuses leaves none of them from the mirror
on (R376). -/
def applyRule (i : Nat) (r : Rule) (p : Pkt) (s : State) : State :=
  let k := p.slice
  let p := { p with rule := some i }
  let s := if bit (r.a 0) 25 then ruleCount k (bits (r.a 2) 16 10) p s else s
  let pri := bits (r.a 0) 21 3
  let p := if bit (r.a 0) 24 then (if bit (r.a 0) 11 then remark pri { p with pri := pri } else { p with pri := pri }) else p
  let s := rxCopies k p s
  let m := if bit (r.a 0) 26 then meter k (bits (r.a 2) 0 12) 0x40 i false p s else (s, true)
  if !m.2 then m.1
  else
    let s := m.1
    let e := spreadEntry k (bits (r.a 1) 12 2) p.key s
    let s := touchTargets i r k e s
    match targetRefused i r k e s with
    | some b => dropTarget b p s
    | none => dispose r e p (if bit (r.a 0) 27 then mirror r p s else s)

/-- Classify a packet in its slice (R372). A packet whose slice has left ACTIVE has not been queued yet (R157, R164). -/
def classify (p : Pkt) (s : State) : State :=
  if s.sliceState p.slice ≠ .active then dropSrc .sliceDown p 0 s
  else
    match lookup p.slice p.key s.cls.rules s with
    | (none, s) => dropSrc .noRule p 0 s
    | (some (i, r), s) => applyRule i r p s

/-- A lane works in its memory (R509): an armed flip of it lands. The row is a free value. -/
def laneWrote (n : Nat) (s : State) : State :=
  let r := s.rp pEcc 0x120
  if bit r 16 && bits r 0 8 == 0x50 + n then
    let f := s.takeFree
    wroteWord ⟨0x50 + n, 0, f.1.toNat % 256, 0⟩ 0 f.2
  else s

/-- A lane reads its memory: what stands in error there is found. True when it meets poison (Table 18-1). -/
def laneRead (n : Nat) (s : State) : Bool × State :=
  let mine := fun (l : MemLoc) => l.mem == 0x50 + n
  let s := (s.ecc.upsets.filter (fun u => mine u.loc)).foldl (fun s u => readUpset false u s) s
  match s.ecc.poison.filter mine with
  | [] => (false, s)
  | l :: _ =>
    let s := { s with ecc := { s.ecc with poison := s.ecc.poison.filter (fun x => !mine x) } }
    (true, recordFault (pLane n) 0x0104 (locWord l 0x7F) 0 (eccCount 3 1 s))

/-! ### The rule window (R373, R374) -/

/-- The absolute index that CLS_RULE_SEL names. -/
def ruleIndex (k : Nat) (s : State) : Nat := (s.ruleRange k).1 + s.fld (regAddr (pSlice k 8) 0x100) 0 13

/-- Words of the rule window from an offset. -/
def windowWords (k off n : Nat) (s : State) : List Word := (List.range n).map (fun i => s.rp (pSlice k 8) (off + 4 * i))

/-- The rule that the window spells. -/
def windowRule (k : Nat) (s : State) : Rule :=
  let act := windowWords k 0x240 4 s
  ⟨windowWords k 0x140 19 s, windowWords k 0x1C0 19 s, act,
    bits (s.rp pSlc (0x200 + 4 * bits (act.headD 0) 16 5)) 8 4⟩

/-- The reserved bits of key word `i` (Table 13-2). -/
def keyReserved (i : Nat) : Word :=
  if i = 7 then 0x0000FFFF else if i = 8 then 0x000000FF else if i = 9 then 0xFFF00000 else 0

/-- The reserved bits of action word `i` (Table 13-3). -/
def actReserved (i : Nat) : Word :=
  if i = 0 then 0x000007FF else if i = 1 then 0xF000C000 else if i = 2 then 0xFC00F000 else 0

/-- The second condition of R374. -/
def ruleBitsBad (r : Rule) : Bool :=
  (List.range 19).any (fun i => (r.key.getD i 0 &&& ~~~ r.mask.getD i 0) != 0 || (r.key.getD i 0 &&& keyReserved i) != 0) ||
    (List.range 4).any (fun i => (r.a i &&& actReserved i) != 0)

/-- The conditions of R374 that a WRITE with VALID 1 adds. -/
def ruleTargetsBad (k : Nat) (r : Rule) (s : State) : Bool :=
  let fwd := if bit (r.a 0) 15 then r.dst else k
  let mir := if bit (r.a 0) 14 then r.dst else k
  decide (5 < r.disp) || (bit (r.a 0) 26 && r.disp == 2) ||
    (r.disp == 3 && (bits (r.a 0) 12 2 == 0 || decide (bits (r.a 0) 12 2 &&& (3 - s.ownerMask k) ≠ 0))) ||
    (r.disp == 0 && decide ((s.nodes fwd).2 ≤ bits (r.a 1) 0 8)) ||
    (bit (r.a 0) 27 && decide ((s.nodes mir).2 ≤ bits (r.a 1) 16 8)) ||
    (bit (r.a 0) 26 && decide ((s.polRange k).2 ≤ bits (r.a 2) 0 12)) ||
    (bit (r.a 0) 15 && !permitOk r.permit k r.dst false s) ||
    (bit (r.a 0) 14 && !permitOk r.permit k r.dst true s)

/-- CLS_RULE_CMD of slice `k` (R373, R374). A READ meets poison in the rule as any use of it does (R494). -/
def ruleCmdHandler (k : Nat) : Handler :=
  { plain (pSlice k 8) 0x104 with
    range := fun _ v s =>
      let r := windowRule k s
      decide ((s.ruleRange k).2 ≤ s.fld (regAddr (pSlice k 8) 0x100) 0 13) ||
        (bits v 0 2 == 2 && (ruleBitsBad r || (r.valid && ruleTargetsBad k r s)))
    run := fun _ v s =>
      let i := ruleIndex k s
      if bits v 0 2 = 2 then wroteWord (ruleLoc i) k (s.setRule i (windowRule k s))
      else if bits v 0 2 = 3 then wroteWord (ruleLoc i) k (s.setRule i Rule.zero)
      else
        let s := readRow (0x40 + i / 1024) 0 (i % 1024) k s
        let r := s.ruleAt i
        let put := fun (off : Nat) (l : List Word) (s : State) =>
          l.zipIdx.foldl (fun s x => s.wp (pSlice k 8) (off + 4 * x.2) x.1) s
        put 0x240 r.act (put 0x1C0 r.mask (put 0x140 r.key s)) }

/-- An indirection entry (R380): a VALID entry's node lies in the slice, or in the DST of an enabled permit of the slice. -/
def indirectionHandler (k e : Nat) : Handler :=
  { plain (pSlice k 9) (0x100 + 4 * e) with
    range := fun _ v s =>
      bit v 16 && decide ((s.nodes k).2 ≤ bits v 0 8) &&
        !(List.range 32).any (fun i =>
          let r := s.rp pSlc (0x200 + 4 * i)
          bit r 0 && bits r 4 4 == k && !bit r 16 && decide (bits v 0 8 < (s.nodes (bits r 8 4)).2))
    run := fun _ v s => wroteWord ⟨0x48, k, e / 8, e % 8⟩ k (storeReg (pSlice k 9) (0x100 + 4 * e) v s) }

/-- CHU_RATE of a slice. -/
def churnRate (k : Nat) (s : State) : Nat := s.fld (regAddr (pSlice k 5) 0x100) 0 16

/-- The sum of CHU_RATE over all slices, which the global CHU page shows (R384). -/
def churnRateSum (s : State) : Nat := ((List.range 16).map (fun k => churnRate k s)).sum

/-- CHU_RATE of slice `k`: the sum over all slices stays within 40 000 kpps (R384). -/
def churnRateHandler (k : Nat) : Handler :=
  { plain (pSlice k 5) 0x100 with
    range := fun _ v s => decide (40000 < churnRateSum s - churnRate k s + bits v 0 16) }

/-- CHU_BURST: the credit keeps its value, capped at the new burst (R421). -/
def churnBurstHandler (k : Nat) : Handler :=
  { plain (pSlice k 5) 0x104 with
    run := fun _ v s =>
      let c := churnCredit k s
      let s := storeReg (pSlice k 5) 0x104 v s
      let full := 1000 * s.fld (regAddr (pSlice k 5) 0x104) 0 13
      { s with buf := { s.buf with churnSpent := tblSet 0 k (full - c) s.buf.churnSpent } } }

/-- One microsecond of the Churn buckets (R384). -/
def refillChurn (s : State) : State :=
  { s with buf := { s.buf with churnSpent := s.buf.churnSpent.filterMap (fun e =>
      let n := e.2 - s.fld (regAddr (pSlice e.1 5) 0x100) 0 16
      if n = 0 then none else some (e.1, n)) } }

/-- A write of OP to the rule window of slice `k`. -/
def ruleCmd (m : AB) (k op : Nat) (s : State) : State :=
  writeReg m (pSlice k 8) 0x104 (ruleCmdHandler k) (word op) s

/-- RULE_READ. -/
def execRuleRead (m : AB) (k : Nat) (s : State) : Result State := whenOn s <| .next (ruleCmd m (k % 16) 1 s)

/-- RULE_WRITE. -/
def execRuleWrite (m : AB) (k : Nat) (s : State) : Result State := whenOn s <| .next (ruleCmd m (k % 16) 2 s)

/-- RULE_CLEAR. -/
def execRuleClear (m : AB) (k : Nat) (s : State) : Result State := whenOn s <| .next (ruleCmd m (k % 16) 3 s)

end Sys2Proof.Machine
end

