-- ==== Sys2Proof/Machine/LineCore.lean ====
section
/-!
DEFINITION. What the blocks of the line share: the accessors of framer, activation, transmitter and cage, the laser, the active
feeder, the WARM conditions and the guard limit (R278, R294, R314, R315, R320, R333).
-/

namespace Sys2Proof.Machine

/-! ### Accessors -/

/-- Replace the framer of a feeder. -/
def State.setLfr (s : State) (f : AB) (x : LfrSt) : State := { s with lfr := s.lfr.set f x }

/-- Replace the activation block of a feeder. -/
def State.setActSt (s : State) (f : AB) (x : ActSt) : State := { s with act := s.act.set f x }

/-- Replace the burst transmitter of a feeder. -/
def State.setBtx (s : State) (f : AB) (x : BtxSt) : State := { s with btx := s.btx.set f x }

/-- Replace a cage. -/
def State.setOpt (s : State) (c : AB) (x : OptSt) : State := { s with opt := s.opt.set c x }

/-- ACT_STATE.STATE. -/
def actState (f : AB) (s : State) : Nat := s.fld (regAddr (pAct f) 0x100) 0 4

/-- Codes of Table 9-1. -/
def aOff : Nat := 0
def aO11 : Nat := 1
def aO12 : Nat := 2
def aO23 : Nat := 3
def aO4 : Nat := 4
def aO5 : Nat := 5
def aO6 : Nat := 6
def aO7 : Nat := 7

/-- The assigned ONU-ID, while ID_VALID is 1. -/
def onuId (f : AB) (s : State) : Option Nat :=
  if s.flag (regAddr (pAct f) 0x100) 31 then some (s.fld (regAddr (pAct f) 0x100) 16 10) else none

/-- ACT_EQD_STATE.VALID. -/
def eqdValid (f : AB) (s : State) : Bool := s.flag (regAddr (pAct f) 0x110) 16

/-- Downstream SYNC: the frame synchroniser is in FSYNC (R239). -/
def inSync (f : AB) (s : State) : Bool := s.fld (regAddr (pLfr f) 0x104) 0 2 == 2

/-- LOS is declared. -/
def losNow (f : AB) (s : State) : Bool := s.flag (regAddr (pLfr f) 0x104) 8

/-- LOF is declared. -/
def lofNow (f : AB) (s : State) : Bool := s.flag (regAddr (pLfr f) 0x104) 9

/-- The receiver of a feeder is off for a low-power interval (R291). -/
def rxOff (f : AB) (s : State) : Bool := s.flag (regAddr (pAct f) 0x180) 5

/-- A module is seated in a cage, and VAUX is there to tell of it (R552). -/
def modPresent (c : AB) (s : State) : Bool := s.flag (regAddr (pOpt c) 0x100) 0 && !s.power.vauxLow

/-- The seated module has been accepted. -/
def modAccepted (c : AB) (s : State) : Bool := s.flag (regAddr (pOpt c) 0x100) 1

/-- The cage is released (Table 6-8). -/
def cageFree (c : AB) (s : State) : Bool := s.running && !(s.hdr (pOpt c)).localHold

/-- TXDIS_x is low (R333). -/
def txOn (c : AB) (s : State) : Bool :=
  cageFree c s && modPresent c s && modAccepted c s && s.flag (regAddr (pOpt c) 0x104) 0 &&
    actState c s != aOff && actState c s != aO7

/-- LIFE of the seated module (R339). -/
def lifeLevel (c : AB) (s : State) : Nat := s.fld (regAddr (pOpt c) 0x100) 8 2

/-! ### Commands and preference (R320, Table 10-2) -/

/-- The feeder that a standing FORCE names. -/
def forced (s : State) : Option AB :=
  match s.fld (regAddr pPsw 0x108) 0 3 with
  | 3 => some .a
  | 4 => some .b
  | _ => none

/-- A feeder is locked out. -/
def lockedOut (f : AB) (s : State) : Bool := s.flag (regAddr pPsw 0x108) (4 + f.num)

/-- PSW_CFG.PREF. -/
def prefFeeder (s : State) : AB := if s.flag (regAddr pPsw 0x10C) 0 then .b else .a

/-- The module of the preferred feeder has reached 95 % of its life limit and the other feeder's module has not (R320). -/
def lifeOverride (s : State) : Bool :=
  let p := prefFeeder s
  (forced s).isNone && decide (2 ≤ lifeLevel p s) && (s.opt.get p.other).live.isSome && decide (lifeLevel p.other s < 2)

/-- The effective preference (R320); a feeder that a FORCE names is taken as preferred. -/
def effPref (s : State) : AB :=
  match forced s with
  | some f => f
  | none => if lifeOverride s then (prefFeeder s).other else prefFeeder s

/-- A feeder may not become active: it is locked out, or a FORCE names the other one. -/
def barred (f : AB) (s : State) : Bool := lockedOut f s || forced s == some f.other

/-! ### The active feeder -/

/-- PSW_STATE.ACTIVE. -/
def pswActive (s : State) : AB := if s.flag (regAddr pPsw 0x100) 0 then .b else .a

/-- Set PSW_STATE.ACTIVE. -/
def setPswActive (f : AB) (s : State) : State := s.setFlag (regAddr pPsw 0x100) 0 (f == .b)

/-- The active feeder in ATTACH (R278): the one that last left O1.1, or with both feeders in O1.1 the effectively preferred one; the
other when that is locked out (R320). A feeder in OFF, which has no sub-state of its own, counts as one in O1.1. -/
def attachFeeder (s : State) : AB :=
  let f := if actState .a s ≤ aO11 ∧ actState .b s ≤ aO11 then effPref s else s.psw.lastLeft
  if lockedOut f s then f.other else f

/-- The active feeder; none in DORMANT. -/
def activeFeeder (s : State) : Option AB :=
  match s.power.mode with
  | .dormant => none
  | .attach _ => some (attachFeeder s)
  | _ => some (pswActive s)

/-- The feeder that carries traffic: the active feeder in SERVICE. -/
def carrier (s : State) : Option AB :=
  match s.power.mode with
  | .service _ => some (pswActive s)
  | _ => none

/-- The sub-state of ATTACH that a feeder's activation shows (R278). -/
def attachSubOf (st : Nat) : AttachSub :=
  match st with
  | 3 => .o23
  | 4 => .o4
  | 7 => .o7
  | _ => .o1

/-- In ATTACH the sub-state follows the active feeder, with no history entry (R278). -/
def syncAttach (s : State) : State :=
  match s.power.mode with
  | .attach _ => { s with power := { s.power with mode := .attach (attachSubOf (actState (attachFeeder s) s)) } }
  | _ => s

/-! ### Rates and times of the upstream (R287, R288, R304) -/

/-- An upstream line rate of BTX_PROFILE.RATE in kb/s. -/
def upRate (r : Nat) : Nat :=
  match r with
  | 1 => 24883200
  | 2 => 12441600
  | 3 => 9953280
  | _ => 0

/-- The upstream rate in use on a feeder. -/
def upRateOf (f : AB) (s : State) : Nat := upRate (s.fld (regAddr (pBtx f) 0x100) 4 2)

/-- `n` bit periods of the upstream rate in use, in units of 2^−32 ns; 0 while there is no rate. -/
def upBits (f : AB) (n : Nat) (s : State) : Nat := if upRateOf f s = 0 then 0 else n * 1000000 * nsUnit / upRateOf f s

/-- The guard limit of a feeder in 1/16 ns (R294). -/
def guardLimit (f : AB) (s : State) : Nat :=
  let l := s.fld (regAddr (pAct f) 0x190) 0 12
  if l ≠ 0 then l
  else if upRateOf f s = 0 then 0
  else s.fld (regAddr (pAct f) 0x190) 16 12 * 8 * 1000000 / upRateOf f s

/-- One downstream frame in units of 2^−32 ns. -/
def frameTime : Nat := 125000 * nsUnit

/-- An interval in units of 2^−32 ns, rounded to the nearest 1/16 ns. -/
def sixteenths (d : Int) : Int := (d + 2 ^ 27) / 2 ^ 28

/-- A difference of arrivals brought to the nearest frame: between −62.5 µs and 62.5 µs. -/
def nearFrame (d : Int) : Int :=
  let t : Int := Int.ofNat frameTime
  let m := d % t
  if m * 2 < t then m else m - t

/-- The arrival of B's PSBd minus that of A's nearest PSBd (R314). -/
def arrivalDiff (s : State) : Option Int :=
  match s.lfr.a.arrival, s.lfr.b.arrival with
  | some x, some y => some (nearFrame (Int.ofNat y - Int.ofNat x))
  | _, _ => none

/-- The departure of a feeder from its reference as the arrivals stand, in 1/16 ns (R314). -/
def departNow (f : AB) (s : State) : Int :=
  match arrivalDiff s with
  | none => 0
  | some d =>
    let x := sixteenths (nearFrame (d - s.psw.refAB))
    if f = .b then x else -x

/-- The departure of a standby feeder, as measured at its last PSBd (R314). -/
def departure (f : AB) (s : State) : Int := s.psw.depart.get f

/-! ### Port nodes and keys -/

/-- BTX_MAP_n names this Alloc-ID. -/
def mapOf (f : AB) (n : Nat) (s : State) : Option Nat :=
  if s.flag (regAddr (pBtx f) (0x200 + 4 * n)) 16 then some (s.fld (regAddr (pBtx f) (0x200 + 4 * n)) 0 14) else none

/-- An Alloc-ID stands in the feeder's BTX_ALLOC list, and is not the default one. -/
def assigned (f : AB) (id : Nat) (s : State) : Bool :=
  (List.range 32).any (fun n =>
    let r := s.rp (pBtx f) (0x180 + 4 * n)
    bit r 16 && !bit r 17 && bits r 0 14 == id)

/-- Port node `n` is served on a feeder (R311). -/
def servedOn (f : AB) (n : Nat) (s : State) : Bool :=
  match mapOf f n s with
  | some id => assigned f id s
  | none => false

/-- The port node that an Alloc-ID is mapped to. -/
def nodeFor (f : AB) (id : Nat) (s : State) : Option Nat := (List.range 32).find? (fun n => mapOf f n s == some id)

/-- The key in a slot, while CRY_KEY_STATE shows it held. -/
def keyIn (f : AB) (slot : Nat) (s : State) : Option (List Byte) :=
  if s.flag (regAddr pCry 0x100) (slot + 8 * f.num) then some (tblGet [] (8 * f.num + slot) s.keys) else none

/-- Empty every key slot of a feeder (R259). -/
def dropKeys (f : AB) (s : State) : State :=
  let s := s.setFld (regAddr pCry 0x100) (8 * f.num) 5 0
  { s with keys := (List.range 5).foldl (fun t k => tblSet [] (8 * f.num + k) [] t) s.keys }

/-! ### WARM (R315, Table 10-1) -/

/-- The misses of a feeder, by the bits of Table 10-1. While no feeder carries traffic there is no standby, and bits 5 and 6 show
a miss, as the reset value of PSW_WARM_MISS does. -/
def warmMiss (f : AB) (s : State) : Nat :=
  let key := s.fld (regAddr pCry 0x100) (8 * f.num) 5
  let st := s.rp (pLfr f) 0x104
  let m5 := match carrier s with
    | none => true
    | some c => c != f &&
      (s.pstate (pBtx f) != .active || (List.range 32).any (fun n => servedOn c n s && !servedOn f n s))
  let m6 := match carrier s with
    | none => true
    | some c => c != f && decide (guardLimit f s < (departure f s).natAbs)
  b2n (!(modPresent f s && cageFree f s)) +
    2 * b2n (!(bits st 0 2 == 2 && bits st 4 2 == 2)) +
    4 * b2n (actState f s != aO5) +
    8 * b2n (!eqdValid f s) +
    16 * b2n (!(key % 4 != 0 && key.testBit 4)) +
    32 * b2n m5 + 64 * b2n m6 + 128 * b2n (bit st 8 || bit st 9)

/-- A standby feeder is WARM. -/
def warm (f : AB) (s : State) : Bool := carrier s != some f && warmMiss f s == 0

/-- STATE_A and STATE_B of PSW_STATE: 0 COLD, 1 WARM, 2 ACTIVE. -/
def pswCode (f : AB) (s : State) : Nat := if carrier s = some f then 2 else if warm f s then 1 else 0

/-- PSW_STATE (Table 10-4). -/
def pswStateWord (s : State) : Word :=
  setBits (setBits (setBits (s.rp pPsw 0x100) 4 2 (pswCode .a s)) 8 2 (pswCode .b s)) 12 1 (b2n s.psw.sw.isSome)

/-- PSW_WARM_MISS. -/
def warmMissWord (s : State) : Word := word (warmMiss .a s + 256 * warmMiss .b s)

/-- PSW_EFF_PREF. -/
def effPrefWord (s : State) : Word := word ((effPref s).num + 2 * b2n (lifeOverride s))

/-- PSW_SB_OFFSET: the departure and guard limit of the standby feeder (R314). -/
def sbOffsetWord (s : State) : Word :=
  let f := (pswActive s).other
  word (toSigned 16 (clampInt (-32768) 32767 (departure f s)) + guardLimit f s % 4096 * 65536)

end Sys2Proof.Machine
end

