-- ==== Sys2Proof/Machine/Btx.lean ====
section
/-!
DEFINITION. The burst transmitters (chapter 10): PLOAM log, grants, filling, bursts, aborts and the node map.

Each allocation acted on is one burst (assumption 12). How much of a burst has left when it is aborted is a free value, since the
model does not place an abort within a burst.
-/

namespace Sys2Proof.Machine

/-- Count in BTX counter `i`. -/
def btxCount (f : AB) (i k : Nat) (s : State) : State :=
  countAt (pBtx f) 0x400 0x130 4 (if i = 7 then 48 else 40) i k s

/-- Count in ACT counter `i`. -/
def actCount (f : AB) (i : Nat) (s : State) : State := countAt (pAct f) 0x200 0x130 10 40 i 1 s

/-! ### Upstream PLOAM messages (R283 to R286) -/

/-- The message type of an upstream message in the named standards (assumption 13). -/
def ploamuType : Ploamu → Nat
  | .serialNumber .. => 0x01
  | .registration _ => 0x02
  | .keyReport => 0x05
  | .acknowledge .. => 0x09
  | .sleepRequest => 0x10

/-- What an upstream message tells, as numbers for the standard's layout. -/
def ploamuArgs : Ploamu → List Nat
  | .serialNumber v n d => [v, n, d]
  | .registration _ => []
  | .keyReport => []
  | .acknowledge b q => [b2n b, q]
  | .sleepRequest => []

/-- The 48 bytes of an upstream message as the log shows it: four header bytes, 36 bytes of contents, zeros in place of the MIC; the
contents of a Key_Report are blanked whole (R284, assumption 13). -/
def ploamuBytes (p : Ploamu) : List Byte :=
  let std := fun (a n : Nat) => (List.range n).map (fun i => Config.ploamByte (ploamuType p) (ploamuArgs p) (a + i))
  let body := match p with
    | .registration id => (id ++ List.replicate 36 0).take 36
    | .keyReport => List.replicate 36 0
    | _ => std 4 36
  std 0 4 ++ body ++ List.replicate 8 0

/-- A message enters the PLOAM log (R284, Table 9-6): its 48 bytes, blanked, its direction and type. -/
def logPloam (f : AB) (up : Bool) (ty : Nat) (bytes : List Byte) (s : State) : State :=
  let a := s.act.get f
  let b := 0x400 + 64 * (a.logNext % 16)
  let ws := (bytesToWords 12 bytes ++ List.replicate 12 0).take 12
  let s := (ws.zipIdx).foldl (fun s x => s.wp (pAct f) (b + 4 * x.2) x.1) s
  let s := s.wp (pAct f) (b + 48) (word (b2n up + ty % 256 * 256))
  let s := s.wp (pAct f) (b + 52) (s.rp (pLfr f) 0x120)
  raise (pAct f) 1 (s.setActSt f { a with logNext := (a.logNext + 1) % 16 })

/-- An upstream message leaves: it is counted and logged. -/
def sentPloamu (f : AB) (p : Ploamu) (s : State) : State :=
  let s := logPloam f true (ploamuType p) (ploamuBytes p) (actCount f 5 s)
  if p = .sleepRequest then s.setActSt f { s.act.get f with sleepSent := true } else s

/-! ### Packets pulled for a grant -/

/-- A packet is pulled from its queue for a grant; it keeps its cells. -/
def holdLine (p : Pkt) (s : State) : State := { s with buf := { s.buf with line := s.buf.line ++ [p] } }

/-- A packet that was pulled gives its cells back (R307). -/
def freeLine (p : Pkt) (s : State) : State := freed [p] { s with buf := { s.buf with line := s.buf.line.erase p } }

/-- A packet that was pulled and has not started goes back to the head of its queue (R318). -/
def requeue (p : Pkt) (a q : Nat) (s : State) : State :=
  let s := { s with buf := { s.buf with line := s.buf.line.erase p } }
  s.setQueue (8 * a + q) (p :: s.queue (8 * a + q))

/-- The remainder of port node `n`. -/
def remainOf (f : AB) (n : Nat) (s : State) : Option Remain := tblGet none n (s.btx.get f).remain

/-- Set the remainder of port node `n`. -/
def setRemain (f : AB) (n : Nat) (r : Option Remain) (s : State) : State :=
  s.setBtx f { s.btx.get f with remain := tblSet none n r (s.btx.get f).remain }

/-- Every remainder of a feeder is dropped: the rest of an SDU cannot complete on the other feeder (R318). -/
def dropRemains (f : AB) (s : State) : State :=
  let rs := (s.btx.get f).remain.filterMap (fun e => e.2)
  let s := s.setBtx f { s.btx.get f with remain := [] }
  rs.foldl (fun s r => freeLine r.pkt (dropAt .burstAbort r.pkt.slice 8 (some r.pkt) 0 s)) s

/-! ### Sizes (R308, R309) -/

/-- Rounded up to a multiple of 4. -/
def pad4 (n : Nat) : Nat := (n + 3) / 4 * 4

/-- An XGEM frame with `n` payload bytes. -/
def xgemSize (n : Nat) : Nat := 8 + pad4 n

/-- The bytes that an item of an allocation takes. -/
def UpItem.size : UpItem → Nat
  | .dbru _ => 4
  | .ploamu _ => 48
  | .omci _ l => xgemSize l.length
  | .sdu _ _ _ _ n _ _ _ => xgemSize n
  | .spoiled _ n _ => xgemSize n
  | .idle n => n

/-- The Port-ID that a queue names for a feeder (Table 14-6). -/
def queuePort (f : AB) (a q : Nat) (s : State) : Nat := s.fld (queueAddr a q 4) (16 * f.num) 16

/-- The Port-ID's entry on a feeder requires encryption (R308). -/
def portEnc (f : AB) (port : Nat) (s : State) : Bool :=
  (List.range 512).any (fun e =>
    let r := s.rp (pLfr f) (0x800 + 4 * e)
    bit r 20 && bits r 0 16 == port && bit r 21)

/-- The bytes still queued on port node `n` of a feeder, each SDU with its header and padded (R309). -/
def reportBytes (f : AB) (n : Nat) (s : State) : Nat :=
  let nodes := (List.range 256).filter (fun a => nodeParent a s == n)
  let pkts := nodes.flatMap (fun a => (List.range 8).flatMap (fun q => s.queue (8 * a + q)))
  (pkts.map (fun p => xgemSize p.len)).sum +
    match remainOf f n s with
    | some r => xgemSize (r.pkt.len - r.off)
    | none => 0

/-- The DBRu value: units of 4 bytes rounded up, saturating at 0xFF_FFFE (R309). -/
def reportUnits (f : AB) (n : Nat) (s : State) : Nat :=
  let u := (reportBytes f n s + 3) / 4
  if u > 0xFFFFFE then 0xFFFFFE else u

/-! ### Filling (R307, R308, R313) -/

/-- The SDU item of part of a packet. -/
def sduItem (f : AB) (p : Pkt) (a q off len : Nat) (s : State) : UpItem :=
  let port := queuePort f a q s
  .sdu p a q off len port (decide (p.len ≤ off + len)) (portEnc f port s)

/-- Steps 4 and 5 of R308: whole SDUs in the order that the scheduler releases them, then a first fragment. -/
def fillSdus (f : AB) (n : Nat) : Nat → Nat → State → List UpItem × State
  | 0, _, s => ([], s)
  | fuel + 1, space, s =>
    match takeFrame n (fun _ => true) s with
    | none => ([], s)
    | some (t, s2) =>
      if t.pkt.cell.bad then
        let s3 := freed [t.pkt] (dropPoison (pBtx f) 8 t.pkt s2)
        let i := badIndex t.pkt
        if 0 < i ∧ xgemSize t.pkt.len ≤ space then
          let r := fillSdus f n fuel (space - xgemSize t.pkt.len) s3
          (.spoiled (t.pkt.bytes.take (128 * i)) t.pkt.len (queuePort f t.node t.queue s) :: r.1, r.2)
        else fillSdus f n fuel space s3
      else if xgemSize t.pkt.len ≤ space then
        let r := fillSdus f n fuel (space - xgemSize t.pkt.len) (holdLine t.pkt s2)
        (sduItem f t.pkt t.node t.queue 0 t.pkt.len s :: r.1, r.2)
      else if s.fld (regAddr (pBtx f) 0x10C) 0 8 ≤ space ∧ 12 ≤ space then
        let len := (space - 8) / 4 * 4
        ([sduItem f t.pkt t.node t.queue 0 len s],
          setRemain f n (some ⟨t.pkt, t.node, t.queue, len⟩) (holdLine t.pkt s2))
      else ([], s)

/-- Whole OMCI messages that fit. -/
def fillOmci (port : Nat) : Nat → List (List Byte) → List UpItem × List (List Byte)
  | _, [] => ([], [])
  | space, l :: t =>
    if xgemSize l.length ≤ space then
      let r := fillOmci port (space - xgemSize l.length) t
      (.omci port l :: r.1, r.2)
    else ([], l :: t)

/-- Step 4 and 5 of R308 with the OMCI messages that wait: they go ahead of the port node's SDUs (assumption 78). -/
def fillFresh (f : AB) (n space : Nat) (s : State) : List UpItem × State :=
  let r := fillOmci (s.fld (regAddr (pLfr f) 0x118) 0 16) space s.omciUpQ
  let left := space - (r.1.map UpItem.size).sum
  let x := fillSdus f n (left / 8 + 1) left { s with omciUpQ := r.2 }
  (r.1 ++ x.1, x.2)

/-- Steps 3 to 5 of R308 for a mapped port node. A remainder that does not fit is fragmented again when FRAG_MIN bytes remain, and
no other SDU goes before it. -/
def fillPort (f : AB) (n space : Nat) (s : State) : List UpItem × State :=
  match remainOf f n s with
  | none => fillFresh f n space s
  | some r =>
    let left := r.pkt.len - r.off
    if xgemSize left ≤ space then
      let x := fillFresh f n (space - xgemSize left) (setRemain f n none s)
      (sduItem f r.pkt r.node r.queue r.off left s :: x.1, x.2)
    else if s.fld (regAddr (pBtx f) 0x10C) 0 8 ≤ space ∧ 12 ≤ space then
      let len := (space - 8) / 4 * 4
      ([sduItem f r.pkt r.node r.queue r.off len s], setRemain f n (some { r with off := r.off + len }) s)
    else ([], s)

/-- The Alloc-ID of a grant. -/
def allocOf (g : Grant) : Nat :=
  match g.kind with
  | .alloc id => id
  | _ => 0

/-- The port node that an allocation serves when it is filled: the one it was accepted for, while its entry still names the Alloc-ID and
the Alloc-ID is still assigned (R311, R324). -/
def nodeNow (f : AB) (b : Burst) (s : State) : Option Nat :=
  b.node.filter (fun n => mapOf f n s == some (allocOf b.grant) && assigned f (allocOf b.grant) s)

/-- The content of an allocation (R308 to R311, R313, R324). The default Alloc-ID carries a PLOAMu or idle content only. The report is
recorded when the allocation carries it. -/
def fillBurst (f : AB) (b : Burst) (s : State) : Burst × State :=
  let s := if b.node.isSome && (nodeNow f b s).isNone && assigned f (allocOf b.grant) s then btxCount f 1 1 s else s
  let b := { b with node := nodeNow f b s }
  let act := carrier s == some f && !(s.btx.get f).out
  let hasDbru := b.grant.dbru && decide (4 ≤ b.grant.size)
  let space := b.grant.size - (if hasDbru then 4 else 0)
  let a := s.act.get f
  let pl : List UpItem × State :=
    match a.up with
    | [] => ([], s)
    | p :: t => if b.grant.ploamu && decide (48 ≤ space) then ([.ploamu p], s.setActSt f { a with up := t }) else ([], s)
  let s := pl.2
  let space := space - 48 * pl.1.length
  let body : List UpItem × State :=
    if !act || b.dflt then ([], s)
    else match b.node with
      | some n => fillPort f n space s
      | none => ([], s)
  let s := body.2
  let left := space - (body.1.map UpItem.size).sum
  let units := match b.node with
    | some n => if act then reportUnits f n s else 0
    | none => 0
  let s := match b.node with
    | some n => if hasDbru then s.wp (pBtx f) (0x300 + 4 * n) (word units) else s
    | none => s
  let items := (if hasDbru then [UpItem.dbru units] else []) ++ pl.1 ++ body.1 ++ (if 8 ≤ left then [UpItem.idle left] else [])
  ({ b with filled := true, items := items }, s)

/-! ### Accounting, recall and abort (R318) -/

/-- Count one item that has been sent in full; an SDU whose last byte has left frees its cells. -/
def accountItem (f : AB) (s : State) (i : UpItem) : State :=
  match i with
  | .dbru _ => btxCount f 10 1 s
  | .ploamu p => sentPloamu f p (btxCount f 11 1 s)
  | .idle _ => btxCount f 8 1 s
  | .omci _ l => btxCount f 7 (xgemSize l.length) (btxCount f 6 1 s)
  | .spoiled _ n _ => btxCount f 7 (xgemSize n) (btxCount f 6 1 s)
  | .sdu p _ _ off n _ lf _ =>
    let s := btxCount f 7 (xgemSize n) (btxCount f 6 1 s)
    let s := if off = 0 ∧ lf = true then s else btxCount f 9 1 s
    if lf then freeLine p s else s

/-- Content that has not started goes back where it came from, the last item first. -/
def recallItem (f : AB) (node : Option Nat) (i : UpItem) (s : State) : State :=
  match i with
  | .ploamu p => s.setActSt f { s.act.get f with up := p :: (s.act.get f).up }
  | .omci _ l => { s with omciUpQ := l :: s.omciUpQ }
  | .sdu p a q off _ _ _ _ =>
    match node with
    | none => s
    | some n =>
      if off = 0 then requeue p a q (setRemain f n none s) else setRemain f n (some ⟨p, a, q, off⟩) s
  | _ => s

/-- Recall a list of items. -/
def recallItems (f : AB) (node : Option Nat) (l : List UpItem) (s : State) : State :=
  l.foldr (fun i s => recallItem f node i s) s

/-- Drop every burst of a feeder that has not started; its content goes back. -/
def recallBursts (f : AB) (s : State) : State :=
  let bs := (s.btx.get f).bursts
  let s := s.setBtx f { s.btx.get f with bursts := bs.filter (fun b => b.started) }
  (bs.filter (fun b => !b.started)).foldr (fun b s => recallItems f b.node b.items s) s

/-- The held profile that an allocation names. -/
def profileOf (f : AB) (g : Grant) (s : State) : Option Profile := tblGet none g.profile (s.btx.get f).profiles

/-- A burst profile comes into use (R304): BTX_PROFILE, BTX_PSBU and ACT_GUARD.GUARD_BITS. -/
def useProfile (f : AB) (i : Nat) (p : Profile) (s : State) : State :=
  let s := s.wp (pBtx f) 0x100 (word (i % 16 + p.rate % 4 * 16 + p.guardBits % 4096 * 65536))
  (s.wp (pBtx f) 0x104 (word (p.psbuBits % 65536))).setFld (regAddr (pAct f) 0x190) 16 12 p.guardBits

/-- BEN_x rises for a burst or a response: the seated module's BURSTS counts it (R336). -/
def benCount (f : AB) (s : State) : State :=
  match (s.opt.get f).live with
  | some l => s.setOpt f { s.opt.get f with live := some { l with bursts := (l.bursts + 1) % 2 ^ 48 } }
  | none => s

/-- BEN_x falls. -/
def benLow (f : AB) (s : State) : State := s.setFlag (regAddr (pBtx f) 0x110) 0 false

/-- The burst in progress is aborted (R318): items sent in full count as sent, the frame on the wire is dropped with reason
BURST_ABORT, the rest goes back. How many items have been sent is a free value. -/
def abortBurst (f : AB) (s : State) : State :=
  match (s.btx.get f).bursts.find? (fun b => b.started) with
  | none => s
  | some b =>
    let v := s.takeFree
    let n := v.1.toNat % (b.items.length + 1)
    let s := v.2.setBtx f { s.btx.get f with bursts := (s.btx.get f).bursts.filter (fun x => !x.started) }
    let s := recallItems f b.node (b.items.drop (n + 1)) s
    let s := (b.items.take n).foldl (accountItem f) s
    let s := match b.items[n]? with
      | some (.sdu p _ _ _ _ _ _ _) =>
        let s := match b.node with
          | some k => if (remainOf f k s).any (fun r => r.pkt == p) then setRemain f k none s else s
          | none => s
        freeLine p (dropAt .burstAbort p.slice 8 (some p) 0 s)
      | some (.omci _ _) => dropAt .burstAbort 0 8 none 0 s
      | _ => s
    let s := raise (pBtx f) 2 (btxCount f 4 1 (btxCount f 5 1 s))
    benLow f (s.emit (.burst f (profileOf f b.grant s) b.eqd b.items (some n)))

/-- Recall the bursts that have not started, then abort the one in progress, so that its content stands first again (R318, R326,
R341). -/
def abortAll (f : AB) (s : State) : State := abortBurst f (recallBursts f s)

/-- Flush the work of a transmitter (Table 5-4, R88): its packets, and the OMCI messages of a started burst, are counted FLUSH. -/
def btxFlush (f : AB) (s : State) : State :=
  let s := recallBursts f s
  let started := (s.btx.get f).bursts.flatMap (fun b => b.items.filterMap (fun i =>
    match i with
    | .sdu p _ _ _ _ _ _ _ => some p
    | _ => none))
  let omci := ((s.btx.get f).bursts.flatMap Burst.items).filter (fun i => match i with
    | .omci .. => true
    | _ => false)
  let rem := (s.btx.get f).remain.filterMap (fun e => e.2.map Remain.pkt)
  let s := s.setBtx f { s.btx.get f with bursts := [], remain := [] }
  let s := (started ++ rem).foldl (fun s p =>
    if s.buf.line.contains p then freeLine p (dropAt .flush p.slice 8 (some p) 0 s) else s) s
  benLow f (omci.foldl (fun s _ => dropAt .flush 0 8 none 0 s) s)

/-! ### Grants (R289, R305, R306, R310) -/

/-- The transmitter is off for sleep, before its gate or for re-ranging (R290, R293, R295). -/
def txAsleep (f : AB) (s : State) : Bool :=
  carrier s == some f &&
    (s.power.mode == .service .rerange || (s.power.mode == .service .doze && ((s.act.get f).sleepSent || (s.act.get f).gate.isSome)))

/-- No ordinary burst starts on a feeder: its page is not ACTIVE, it is being switched away from, its transmitter is off, or it is a
standby that has drifted (Table 5-4, R295, R314, R318). -/
def quietNow (f : AB) (s : State) : Bool :=
  s.pstate (pBtx f) != .active || (s.btx.get f).out || txAsleep f s ||
    ((carrier s).isSome && carrier s != some f && s.psw.drifted.get f)

/-- Nothing is sent for an ordinary grant (R289 and `quietNow`). -/
def silent (f : AB) (s : State) : Bool := !eqdValid f s || actState f s != aO5 || quietNow f s

/-- What the allocations of one BWmap have brought: how many have been acted on, and the times of every one so far (R305). -/
structure MapWalk where
  acted : Nat
  times : List (Nat × Nat)

/-- The allocation is ignored and counted in GRANT_BAD (R305). -/
def grantBad (f : AB) (g : Grant) (times : List (Nat × Nat)) (s : State) : Bool :=
  !g.hecOk || (profileOf f g s).isNone || decide (125000 < g.start + g.air) ||
    times.any (fun x => decide (g.start < x.2 ∧ x.1 < g.start + g.air))

/-- An allocation addressed to the terminal is checked and, when it is acted on, becomes a burst (R305). One for which the terminal is
silent is not acted on. -/
def acceptAlloc (f : AB) (g : Grant) (id : Nat) (w : MapWalk) (s : State) : MapWalk × State :=
  let dflt := onuId f s == some id
  if !dflt && !assigned f id s then (w, s)
  else if s.pstate (pBtx f) ≠ .active then (w, s)
  else if 32 ≤ w.acted then (w, raise (pBtx f) 1 (btxCount f 2 1 s))
  else if grantBad f g w.times s then (w, raise (pBtx f) 1 (btxCount f 3 1 s))
  else if silent f s then (w, s)
  else
    let s := match nodeFor f id s with
      | some n => if dflt then s else readRow 0x6A f.num (n / 2) 0 s
      | none => s
    let node := if dflt then none else nodeFor f id s
    let s := btxCount f 0 1 s
    let s := if !dflt && node.isNone then btxCount f 1 1 s else s
    ({ w with acted := w.acted + 1 }, s.setBtx f { s.btx.get f with
      bursts := (s.btx.get f).bursts ++ [⟨g, (s.act.get f).eqdUse, dflt, node, false, false, []⟩] })

/-- A serial-number or ranging response may leave: the laser is on, the page is ACTIVE, no switch leads away from the feeder, and its
transmitter is not off for sleep (R290, R293, R318, Table 5-4). RERANGE answers its ranging grant (R295). -/
def mayRespond (f : AB) (s : State) : Bool :=
  txOn f s && s.pstate (pBtx f) == .active && !(s.btx.get f).out && (s.power.mode == .service .rerange || !txAsleep f s)

/-- A response burst leaves; BEN_x rises and falls for it. -/
def answerGrant (f : AB) (o : Output) (s : State) : State := (btxCount f 4 1 (benCount f s)).emit o

/-- One element of a BWmap. A serial-number grant is answered in O2-3 after a random delay, which is a free value of 0 to 48 µs
(R285); a ranging grant to the feeder's ONU-ID is answered in O4 and O5 (Table 9-1, R295, R313). -/
def acceptGrant (f : AB) (st : MapWalk × State) (g : Grant) : MapWalk × State :=
  let w := st.1
  let s := st.2
  let r : MapWalk × State := match g.kind with
    | .alloc id => acceptAlloc f g id w s
    | .serial =>
      if actState f s = aO23 ∧ mayRespond f s = true then
        let v := s.takeFree
        let p := Ploamu.serialNumber (s.rp (pAct f) 0x104).toNat (s.rp (pAct f) 0x108).toNat (v.1.toNat % 48001)
        (w, answerGrant f (.serialResponse f p) (sentPloamu f p (actCount f 6 v.2)))
      else (w, s)
    | .ranging o =>
      if (actState f s = aO4 ∨ actState f s = aO5) ∧ onuId f s = some o ∧ mayRespond f s = true then
        let s := actCount f 7 s
        let s := s.setActSt f { s.act.get f with answered := true }
        (w, answerGrant f (.rangingResponse f o (s.act.get f).eqdUse) s)
      else (w, s)
  ({ r.1 with times := r.1.times ++ [(g.start, g.start + g.air)] }, r.2)

/-- The BWmap of a downstream frame. -/
def acceptGrants (f : AB) (l : List Grant) (s : State) : State := (l.foldl (acceptGrant f) (⟨0, []⟩, s)).2

/-- Replace the first burst that `p` picks. -/
def updBurst (p : Burst → Bool) (b : Burst) : List Burst → List Burst
  | [] => []
  | x :: t => if p x then b :: t else x :: updBurst p b t

/-- Poison met in the transmit edge FIFO (R497): the first frame of the content leaves with its Ethernet FCS inverted, which its
poisoned state stands for. -/
def spoil (f : AB) (b : Burst) (s : State) : Burst × State :=
  match b.items.findSome? (fun i => match i with
    | .sdu p _ _ _ _ _ _ _ => some p
    | _ => none) with
  | none => (b, s)
  | some p =>
    let mark := fun (x : Pkt) => if x = p then { x with cell := .poisoned ⟨0x82 + f.num, 0, 0, 0⟩ } else x
    let item := fun (i : UpItem) => match i with
      | .sdu x a q o n port lf enc => .sdu (mark x) a q o n port lf enc
      | _ => i
    let s := { s with buf := { s.buf with line := s.buf.line.map mark } }
    let y := s.btx.get f
    ({ b with items := b.items.map item },
      s.setBtx f { y with remain := y.remain.map (fun e => (e.1, e.2.map (fun r => { r with pkt := mark r.pkt }))) })

/-- ALLOC_PREFETCH: the next allocation's content is requested and its report is taken (R307, R309). A burst that may no longer start
asks for nothing. -/
def execAllocPrefetch (f : AB) (s : State) : Result State := whenOn s <|
  match (s.btx.get f).bursts.find? (fun b => !b.filled) with
  | none => .next s
  | some b =>
    if quietNow f s then .next (recallBursts f s)
    else
    let r := fillBurst f b s
    let t := transit (0x82 + f.num) r.2
    let r := if t.1 then spoil f r.1 t.2 else (r.1, t.2)
    .next (r.2.setBtx f { r.2.btx.get f with bursts := updBurst (fun x => !x.filled) r.1 (r.2.btx.get f).bursts })

/-- The first `n` frames of the content have arrived in time; the rest goes back and idle frames take its place (R307). -/
def underrun (n : Nat) : List UpItem → List UpItem × List UpItem
  | [] => ([], [])
  | i :: t =>
    match i with
    | .omci .. | .sdu .. | .spoiled .. =>
      match n with
      | 0 => let r := underrun 0 t; (.idle i.size :: r.1, i :: r.2)
      | k + 1 => let r := underrun k t; (i :: r.1, r.2)
    | _ => let r := underrun n t; (i :: r.1, r.2)

/-- BEN_ASSERT: the next filled allocation is sent under its burst profile (R304, R306). `late` is an underrun: how many frames of its
content arrived in time. A burst whose laser is off, whose feeder has no EqD or on whose feeder no burst may start never starts. -/
def execBenAssert (f : AB) (late : Option Nat) (s : State) : Result State := whenOn s <|
  let x := s.btx.get f
  if x.bursts.any (fun b => b.started) then .next s
  else match x.bursts with
    | [] => .next s
    | b :: t =>
      if !b.filled then .next s
      else if !txOn f s || !eqdValid f s || quietNow f s then
        .next (recallItems f b.node b.items (s.setBtx f { x with bursts := t }))
      else
        let r := match late with
          | some n => underrun n b.items
          | none => (b.items, [])
        let s := s.setBtx f { x with bursts := { b with started := true, items := r.1 } :: t }
        let s := if r.2.isEmpty then s
          else recallItems f b.node r.2 (raise pPwr 6 (s.bump (regAddr pPwr (0x408 + 4 * f.num)) 1))
        let s := match profileOf f b.grant s with
          | some p => useProfile f b.grant.profile p s
          | none => s
        .next ((benCount f s).setFlag (regAddr (pBtx f) 0x110) 0 true)

/-- BURST_END: the burst in progress has left whole. -/
def execBurstEnd (f : AB) (s : State) : Result State := whenOn s <|
  match (s.btx.get f).bursts.find? (fun b => b.started) with
  | none => .next s
  | some b =>
    let s := s.setBtx f { s.btx.get f with bursts := (s.btx.get f).bursts.filter (fun x => !x.started) }
    let s := b.items.foldl (accountItem f) s
    .next (benLow f ((btxCount f 4 1 s).emit (.burst f (profileOf f b.grant s) b.eqd b.items none)))

/-! ### The node map (R311, R324) -/

/-- VALID entries of the node map whose Alloc-ID is not assigned. -/
def mismatched (f : AB) (s : State) : List Nat :=
  (List.range 32).filter (fun n => (mapOf f n s).isSome && !servedOn f n s)

/-- MAP_MISMATCH rises for an entry that has come to name an unassigned Alloc-ID (R311, R324). -/
def mapCheck (f : AB) (old s : State) : State :=
  if (mismatched f s).any (fun n => !(mismatched f old).contains n) then raise (pBtx f) 3 s else s

end Sys2Proof.Machine
end

