-- ==== Sys2Proof/Machine/Time.lean ====
section
/-!
DEFINITION. The time unit (chapter 15): its states and sources, line loads, steps and slews, calibration, and the Lantern.

Times are in units of 2^−32 ns. A line clock, PPS edge or frame arrives at an instant within the present microsecond, which the
command gives.
-/

namespace Sys2Proof.Machine

/-- Count in TSU counter `i`. -/
def tsuCount (i : Nat) (s : State) : State := countAt pTsu 0x300 0x130 9 40 i 1 s

/-- Replace the time unit. -/
def State.setTsu (s : State) (t : TsuSt) : State := { s with tsu := t }

/-- One second in units of 2^−32 ns. -/
def secUnit : Nat := 1000000000 * nsUnit

/-- SLEW_MAX in units of 2^−32 ns. -/
def slewMax (s : State) : Nat := s.fld (regAddr pTsu 0x104) 16 16 * nsUnit

/-! ### Steps and slews (R427, R433, R448) -/

/-- The time steps by `d`; the step is counted, reported and raised. The step in ns is rounded down. -/
def stepTime (d : Int) (s : State) : State :=
  let t := s.tsu
  let ns := clampInt (-(2 ^ 31)) (2 ^ 31 - 1) (d / Int.ofNat nsUnit)
  let s := s.setTsu { t with time := (Int.ofNat t.time + d).toNat }
  raise pTsu 3 (tsuCount 1 (s.wp pTsu 0x128 (word (toSigned 32 ns))))

/-- A phase error under R433: a step when it is the first load or exceeds SLEW_MAX, else a slew. It ends a slew in progress
(R448). -/
def adjustTime (first : Bool) (d : Int) (s : State) : State :=
  if first || decide (slewMax s < d.natAbs) then stepTime d (s.setTsu { s.tsu with slew := 0 })
  else s.setTsu { s.tsu with slew := d }

/-- A change of the downstream delay under R434, added to a slew in progress. -/
def shiftTime (d : Int) (s : State) : State :=
  if slewMax s < d.natAbs then stepTime d s else s.setTsu { s.tsu with slew := s.tsu.slew + d }

/-- TSU_STATE. -/
def tsuStateWord (s : State) : Word :=
  word (s.tsu.state.code + b2n s.tsu.valid * 16 + s.tsu.ref.num * 32 + b2n (s.tsu.slew != 0) * 64)

/-! ### States and sources (R429, R430, R435, R446) -/

/-- RTC_VALID. -/
def rtcValid (s : State) : Bool := s.flag (regAddr pBkp 0x100) 0

/-- The RTC takes the time unit's time (R212). -/
def rtcFromTsu (s : State) : State :=
  let sub := s.nowNs * 32768 / 1000000000
  let s := { s with
    backup := { s.backup with rtcSec := s.nowSec % 2 ^ 64, rtcSub := sub, rtcAcc := 0, dirty := s.backup.dirty || !rtcValid s } }
  s.setFlag (regAddr pBkp 0x100) 0 true

/-- The feeder that rule 1 of R429 makes the reference feeder; none in HOLDOVER, where the time unit runs on holdover (R20). -/
def lineRef (s : State) : Option AB :=
  if 2 ≤ s.fld (regAddr pTsu 0x104) 0 2 ∨ s.mode.code = 3 then none
  else match activeFeeder s with
    | some f => if inSync f s && !rxOff f s then some f else none
    | none => none

/-- The calibration ends without a result (R442). -/
def calAbort (s : State) : State :=
  match s.tsu.cal with
  | none => s
  | some c =>
    let s := s.wp pTsu 0x1A4 (setBits (setBits (s.rp pTsu 0x1A4) 31 1 0) 16 8 c.errs.length)
    raise pTsu 6 (s.setTsu { s.tsu with cal := none })

/-- SYNCE_OUT is held low (R446). -/
def squelched (s : State) : Bool :=
  !(s.tsu.state == .line || s.tsu.state == .lineFreq) || s.tsu.squelchHold

/-- Bring SQUELCHED up to date; a squelch that begins while the output is enabled is counted. -/
def synceUpdate (s : State) : State :=
  let was := s.flag (regAddr pTsu 0x1F0) 3
  let now := squelched s
  let s := s.setFlag (regAddr pTsu 0x1F0) 3 now
  if now && !was && s.flag (regAddr pTsu 0x1F0) 0 then raise pTsu 7 (tsuCount 7 s) else s

/-- Enter a state of Table 15-1. -/
def setTsuState (st : TsuState) (s : State) : State :=
  let t := s.tsu
  if t.state = st then s
  else
    let t := match st with
      | .free => { t with firstLoad := true }
      | .holdover => { t with holdUs := 0 }
      | .external => { t with valid := true }
      | _ => t
    let s := raise pTsu 0 (s.setTsu { t with state := st })
    if st = .line then s else calAbort s

/-- The state that R429 chooses. -/
def chooseTsu (s : State) : TsuState :=
  let src := s.fld (regAddr pTsu 0x104) 0 2
  if src = 3 then .host
  else match lineRef s with
    | some f => if s.tsu.loaded && s.tsu.ref == f then .line else .lineFreq
    | none =>
      if src ≠ 1 && s.flag (regAddr pTsu 0x104) 2 && s.tsu.extValid then .external
      else match s.tsu.state with
        | .line | .lineFreq | .external | .holdover => .holdover
        | .free | .host => .free

/-- Choose the reference feeder and the state again. A change of reference feeder starts without a load on it (R435) and
squelches SYNCE_OUT for 100 ms. -/
def tsuUpdate (s : State) : State :=
  let s := match lineRef s with
    | some f =>
      if s.tsu.ref = f then s
      else s.setTsu { s.tsu with ref := f, loaded := false, squelchHold := true }
    | none => s
  let s := setTsuState (chooseTsu s) s
  let s := match s.tsu.state with
    | .host => s.setTsu { s.tsu with valid := s.flag (regAddr pTsu 0x1B8) 0 }
    | .free => if rtcValid s then s else s.setTsu { s.tsu with valid := false }
    | _ => s
  synceUpdate s

/-- The time unit starts at LOGIC_READY (R428). -/
def tsuStart (s : State) : State :=
  let t := s.backup.rtcSec * 1000000000 + s.backup.rtcSub * 1000000000 / 32768
  s.setTsu { s.tsu with time := t * nsUnit, state := .free, valid := rtcValid s, firstLoad := true }

/-! ### Line loads (R431 to R434, R449, R451) -/

/-- LINE_SFC of a feeder. -/
def lineSfc (f : AB) (s : State) : Nat :=
  s.fld (regAddr pTsu (0x140 + 0x20 * f.num)) 0 19 * 2 ^ 32 + (s.rp pTsu (0x144 + 0x20 * f.num)).toNat

/-- LFR_SFC of a feeder. -/
def lfrSfc (f : AB) (s : State) : Nat := s.fld (regAddr (pLfr f) 0x11C) 0 19 * 2 ^ 32 + (s.rp (pLfr f) 0x120).toNat

/-- Home of the calibration entry of a feeder and its rate: ASYM; OFFSET follows (R441). -/
def calEntry (f : AB) (s : State) : Nat :=
  regAddr pTsu (0x180 + 8 * (2 * f.num + (if s.fld (regAddr (pLfr f) 0x100) 4 2 = 2 then 1 else 0)))

/-- A round-trip delay times (0.5 + ASYM × 2^−32). -/
def halfDelay (f : AB) (rtd : Int) (s : State) : Int :=
  rtd * (2 ^ 31 + signedOf 32 (s.rd (calEntry f s)).toNat) / 2 ^ 32

/-- T_line of R432. -/
def lineTime (f : AB) (s : State) : Int :=
  let b := 0x148 + 0x20 * f.num
  let rtd : Int := Int.ofNat ((s.rp pTsu (b + 12)).toNat * nsUnit) - Int.ofNat (upBits f (s.rp (pAct f) 0x10C).toNat s) -
    Int.ofNat (35000 * nsUnit)
  let sec := s.fld (regAddr pTsu b) 0 16 * 2 ^ 32 + (s.rp pTsu (b + 4)).toNat
  Int.ofNat (sec * secUnit + s.fld (regAddr pTsu (b + 8)) 0 30 * nsUnit) + halfDelay f rtd s +
    signedOf 16 (s.fld (calEntry f s + 4) 0 16) * 2 ^ 28

/-- A load applies to the time (R433). -/
def applyLoad (err : Int) (s : State) : State :=
  let acquired := s.tsu.state != .line
  let s := adjustTime s.tsu.firstLoad err s
  let s := tsuUpdate (s.setTsu { s.tsu with firstLoad := false, loaded := true, valid := true })
  if acquired then rtcFromTsu s else s

/-- A PSBd whose SFC has passed its check meets a pending arm: the load of R432, or a missed arm. -/
def lineLoad (f : AB) (sfc arrival : Nat) (s : State) : State :=
  let a := regAddr pTsu (0x158 + 0x20 * f.num)
  if !s.flag a 0 then s
  else if lineSfc f s = sfc then
    let err := lineTime f s - Int.ofNat arrival
    let s := s.wp pTsu (0x15C + 0x20 * f.num) (word (toSigned 32 (clampInt (-(2 ^ 31)) (2 ^ 31 - 1) (sixteenths err))))
    let s := raise pTsu 1 (tsuCount 0 (s.setFlag a 0 false))
    if lineRef s = some f then applyLoad err s else s
  else if precedes 51 (lineSfc f s) sfc then
    raise pTsu 2 (tsuCount 2 ((s.setFlag a 0 false).setFlag a 1 true))
  else s

/-- A new EqD of the reference feeder moves the time in LINE (R434). `d` is the change in units of 2^−32 ns. -/
def eqdShift (f : AB) (d : Int) (s : State) : State :=
  if s.tsu.state = .line ∧ s.tsu.ref = f then shiftTime (-(halfDelay f d s)) s else s

/-- A measured drift in 1/16 ns is slewed away at a watch, whether or not a load has applied (R434). -/
def driftShift (d : Int) (s : State) : State :=
  if s.tsu.state = .line ∨ s.tsu.state = .lineFreq then s.setTsu { s.tsu with slew := s.tsu.slew - d * 2 ^ 28 } else s

/-- LINE_ARM (R431). A new arm replaces a pending one and clears MISSED. -/
def armHandler (f : AB) : Handler :=
  { plain pTsu (0x158 + 0x20 * f.num) with
    range := fun _ v s =>
      bit v 0 && !(precedes 51 (lfrSfc f s) (lineSfc f s) &&
        decide ((lineSfc f s + 2 ^ 51 - lfrSfc f s) % 2 ^ 51 ≤ 80000))
    run := fun _ v s =>
      let s := s.setFlag (regAddr pTsu (0x158 + 0x20 * f.num)) 0 (bit v 0)
      if bit v 0 then s.setFlag (regAddr pTsu (0x158 + 0x20 * f.num)) 1 false else s }

/-- ARM_LOAD: a write of LINE_ARM = 1. -/
def execArmLoad (m f : AB) (s : State) : Result State := whenOn s <|
  .next (writeReg m pTsu (0x158 + 0x20 * f.num) (armHandler f) (field 0 1 1) s)

/-- The duration of a slew at SLEW PPB, with the slew itself: by how much the time moves until it is done. -/
def slewSpan (s : State) : Int :=
  let p := s.fld (regAddr pTsu 0x108) 0 16
  s.tsu.slew + Int.ofNat (s.tsu.slew.natAbs * 1000000000 / (if p = 0 then 1 else p))

/-- SLEW_DONE: the slew in progress is complete; the time has moved by the slew and by the time that it took. -/
def execSlewDone (s : State) : Result State := whenOn s <|
  .next (s.setTsu { s.tsu with time := (Int.ofNat s.tsu.time + slewSpan s).toNat, slew := 0 })

/-- HOLDOVER_LIMIT (R430). -/
def execHoldoverLimit (s : State) : Result State := whenOn s <|
  if s.tsu.state = .holdover ∧ s.tsu.valid = true then .next (raise pTsu 8 (s.setTsu { s.tsu with valid := false }))
  else .next s

/-! ### Host time (R429, R433) -/

/-- TSU_CFG and TSU_HOST_VALID: the state is chosen again. -/
def tsuCfgHandler (off : Nat) : Handler :=
  { plain pTsu off with run := fun _ v s => tsuUpdate (storeReg pTsu off v s) }

/-- TSU_HOST_ADJ. -/
def hostAdjHandler : Handler :=
  { plain pTsu 0x1B4 with
    range := fun _ _ s => s.tsu.state != .host
    run := fun _ v s => adjustTime false (signedOf 32 v.toNat * Int.ofNat nsUnit) s }

/-- HOST_ADJUST. -/
def execHostAdjust (m : AB) (v : Word) (s : State) : Result State := whenOn s <| .next (writeReg m pTsu 0x1B4 hostAdjHandler v s)

/-- SEC_HI and SEC_LO of TSU_SET. -/
def setSecHandler (hi : Bool) : Handler :=
  { plain pTsu (if hi then 0x1BC else 0x1C0) with
    run := fun _ v s => s.setTsu (if hi then { s.tsu with setHi := v } else { s.tsu with setLo := v }) }

/-- NS of TSU_SET: the time steps to the value. -/
def setNsHandler : Handler :=
  { plain pTsu 0x1C4 with
    range := fun _ _ s => s.tsu.state != .host && s.tsu.state != .free
    run := fun _ v s =>
      let t := (s.tsu.setHi.toNat * 2 ^ 32 + s.tsu.setLo.toNat) * secUnit + bits v 0 30 * nsUnit
      stepTime (Int.ofNat t - Int.ofNat s.tsu.time) (s.setTsu { s.tsu with slew := 0 }) }

/-- TIME_SET. -/
def execTimeSet (m : AB) (v : Word) (s : State) : Result State := whenOn s <| .next (writeReg m pTsu 0x1C4 setNsHandler v s)

/-! ### Calibration (R442, R453) -/

/-- TSU_CAL_CTRL. -/
def calHandler : Handler :=
  { plain pTsu 0x1A0 with
    range := fun _ v s => bit v 0 && !(s.tsu.state == .line && s.flag (regAddr pTsu 0x1D4) 0)
    run := fun _ v s =>
      let s := storeReg pTsu 0x1A0 v s
      if bit v 0 then (s.wp pTsu 0x1A4 0).setTsu { s.tsu with cal := some ⟨bits v 8 8, []⟩ } else s }

/-- CAL_START: a write of START = 1 with SECONDS. -/
def execCalStart (m : AB) (seconds : Nat) (s : State) : Result State := whenOn s <|
  .next (writeReg m pTsu 0x1A0 calHandler (word (1 + seconds % 256 * 256)) s)

/-- CAL_DONE: SECONDS edges have been measured (R442). -/
def execCalDone (s : State) : Result State := whenOn s <|
  match s.tsu.cal with
  | some ⟨0, es⟩ =>
    let n := es.length
    let mean := if n = 0 then 0 else es.foldl (fun a e => a + e) 0 / Int.ofNat n
    let hi := es.foldl (fun a e => if e > a then e else a) (es.headD 0)
    let lo := es.foldl (fun a e => if e < a then e else a) (es.headD 0)
    let s := s.wp pTsu 0x1A4 (word (toSigned 16 (clampInt (-32768) 32767 mean) + n % 256 * 2 ^ 16 + 2 ^ 31))
    let s := s.wp pTsu 0x1A8 (word (clampInt 0 65535 (hi - lo)).toNat)
    .next (raise pTsu 6 (s.setTsu { s.tsu with cal := none }))
  | _ => .next s

/-! ### PPS_OUT and TOD_OUT (R443, R444, R450) -/

/-- PPS_OUT_EDGE: the time reaches a whole second, advanced by PPS_COMP. -/
def execPpsOutEdge (s : State) : Result State := whenOn s <|
  let r := s.rp pTsu 0x1C8
  let early := match s.tsu.ppsAge with
    | some n => decide (n < 500000)
    | none => false
  if !bit r 0 || early || (bit r 1 && !s.tsu.valid) then .next s
  else
    let sec := (s.tsu.time + secUnit / 2) / secUnit
    let s := s.setTsu { s.tsu with
      ppsHigh := true, ppsAge := some 0, todEdge := if s.flag (regAddr pTsu 0x1D0) 0 then some sec else none }
    .next (s.emit (.pps true))

/-- PPS_OUT_FALL. -/
def execPpsOutFall (s : State) : Result State := whenOn s <|
  if s.tsu.ppsHigh then .next ((s.setTsu { s.tsu with ppsHigh := false }).emit (.pps false)) else .next s

/-- The decimal digits of a number. -/
def decDigits : Nat → Nat → List Char → List Char
  | 0, _, acc => acc
  | k + 1, n, acc =>
    let acc := Char.ofNat (48 + n % 10) :: acc
    if n < 10 then acc else decDigits k (n / 10) acc

/-- A number in decimal without leading zeros. -/
def decimal (n : Nat) : List Char := decDigits 24 n []

/-- A signed number in decimal. -/
def signedDecimal (i : Int) : List Char := if i < 0 then '-' :: decimal i.natAbs else decimal i.natAbs

/-- An upper-case hex digit. -/
def hexDigit (n : Nat) : Char := if n < 10 then Char.ofNat (48 + n) else Char.ofNat (55 + n)

/-- The XOR of the characters of a message. -/
def xorChars (l : List Char) : Nat := l.foldl (fun a c => a ^^^ c.toNat) 0

/-- The state letter T of R444. -/
def stateLetter (s : State) : Char :=
  if !s.tsu.valid then 'X'
  else match s.tsu.state with
    | .free => 'F' | .line => 'L' | .lineFreq => 'Q' | .holdover => 'H' | .external => 'E' | .host => 'M'

/-- The reference letter F of R444. -/
def refLetter (s : State) : Char :=
  match s.tsu.state with
  | .line | .lineFreq => if s.tsu.ref = .a then 'A' else 'B'
  | _ => '-'

/-- The message that describes the edge at second `sec` (R444). -/
def todMessage (sec : Nat) (s : State) : List Char :=
  let u := signedDecimal (signedOf 16 (s.fld (regAddr pTsu 0x124) 0 16))
  let body := "WTOD,".toList ++ decimal sec ++ [','] ++ u ++ [',', stateLetter s, ',', refLetter s]
  let x := xorChars body
  '$' :: body ++ ['*', hexDigit (x / 16 % 16), hexDigit (x % 16), Char.ofNat 13, Char.ofNat 10]

/-- TOD_OUT_SEND: DELAY ms after an edge that PPS_OUT emitted. -/
def execTodOutSend (s : State) : Result State := whenOn s <|
  match s.tsu.todEdge with
  | none => .next s
  | some sec =>
    if s.flag (regAddr pTsu 0x1D0) 0 then .next ((s.setTsu { s.tsu with todEdge := none }).emit (.tod (todMessage sec s)))
    else .next (s.setTsu { s.tsu with todEdge := none })

/-- TSU_PPS_OUT: an output that is disabled falls. -/
def ppsOutHandler : Handler :=
  { plain pTsu 0x1C8 with
    run := fun _ v s =>
      let s := storeReg pTsu 0x1C8 v s
      if !bit v 0 && s.tsu.ppsHigh then (s.setTsu { s.tsu with ppsHigh := false }).emit (.pps false) else s }

/-! ### PPS_IN and TOD_IN (R445) -/

/-- The external inputs become invalid. -/
def extLost (s : State) : State :=
  tsuUpdate (s.setTsu { s.tsu with extValid := false, goodEdges := 0, lastS := none })

/-- PPS_IN_EDGE: an accepted edge at an instant within the present microsecond. -/
def execPpsInEdge (frac : Nat) (s : State) : Result State := whenOn s <|
  if !s.flag (regAddr pTsu 0x1D4) 0 then .next s
  else
    let at_ := s.tsu.time + frac % (1000 * nsUnit)
    let t := s.tsu
    let near := match t.edge with
      | some e => decide ((Int.ofNat at_ - Int.ofNat e - Int.ofNat secUnit).natAbs ≤ 1000 * nsUnit)
      | none => false
    let keep := near && t.edgeTold
    let cal := match t.cal with
      | some ⟨k + 1, es⟩ =>
        let half : Int := Int.ofNat (secUnit / 2)
        let e := (Int.ofNat at_ + half) % Int.ofNat secUnit - half
        some ⟨k, es ++ [sixteenths e]⟩
      | c => c
    let s := s.setTsu { t with
      edge := some at_, edgeTold := false, goodEdges := if keep then t.goodEdges else 0,
      lastS := if near then (if t.edgeTold then t.lastS else t.lastS.map (fun x => x + 1)) else none, cal := cal }
    let s := ((s.wp pTsu 0x1D8 (word (at_ / secUnit))).wp pTsu 0x1DC (word (at_ / nsUnit % 1000000000))).wp pTsu 0x1E0
      (word (at_ / 2 ^ 16 % 2 ^ 16))
    .next (tsuCount 3 s)

/-- A decimal number at the head of a list of bytes, and what follows. -/
def readDecimal : Nat → List Byte → Nat × List Byte
  | acc, [] => (acc, [])
  | acc, b :: t => if 48 ≤ b.toNat ∧ b.toNat ≤ 57 then readDecimal (acc * 10 + (b.toNat - 48)) t else (acc, b :: t)

/-- The value of a hex digit. -/
def hexValue (b : Byte) : Option Nat :=
  let n := b.toNat
  if 48 ≤ n ∧ n ≤ 57 then some (n - 48) else if 65 ≤ n ∧ n ≤ 70 then some (n - 55) else none

/-- S of a TOD_IN message in the format of R444 whose checksum passes. -/
def todSeconds (l : List Byte) : Option Nat :=
  let head : List Byte := [0x24, 0x57, 0x54, 0x4F, 0x44, 0x2C]
  if l.take 6 ≠ head then none
  else
    let body := (l.drop 1).takeWhile (fun b => b != 0x2A)
    let x := body.foldl (fun a b => a ^^^ b.toNat) 0
    let tail := (l.drop 1).drop (body.length + 1)
    let n := readDecimal 0 (l.drop 6)
    match tail with
    | [h, k, 0x0D, 0x0A] =>
      match hexValue h, hexValue k with
      | some a, some b =>
        if a * 16 + b = x ∧ n.2.headD 0 = 0x2C ∧ (body.filter (fun c => c == 0x2C)).length = 4 then some n.1 else none
      | _, _ => none
    | _ => none

/-- The S that a message of the present edge must carry; none before the first good one. -/
def expectedS (s : State) : Option Nat := s.tsu.lastS.map (fun x => x + 1)

/-- TOD_IN_MESSAGE: a message ends now. One that belongs to no edge is ignored. In EXTERNAL its edge gives the phase (R433). -/
def execTodInMessage (msg : List Byte) (s : State) : Result State := whenOn s <|
  if !s.flag (regAddr pTsu 0x1D4) 0 then .next s
  else match s.tsu.edge with
  | none => .next s
  | some e =>
    if s.tsu.edgeTold || decide (s.tsu.time - e > 900000000 * nsUnit) then .next s
    else match todSeconds msg with
      | none => .next (extLost (raise pTsu 5 (tsuCount 4 s)))
      | some n =>
        if (expectedS s).isSome && expectedS s != some n then .next (extLost (raise pTsu 5 (tsuCount 4 s)))
        else
          let g := s.tsu.goodEdges + 1
          let s := s.setTsu { s.tsu with
            edgeTold := true, lastS := some n, goodEdges := g, extValid := s.tsu.extValid || decide (3 ≤ g) }
          let s := tsuUpdate s
          if s.tsu.state = .external then .next (adjustTime false (Int.ofNat (n * secUnit) - Int.ofNat e) s) else .next s

/-- PPS_IN_LOSS: no edge has come for 1.5 s. -/
def execPpsInLoss (s : State) : Result State := whenOn s <|
  let s := calAbort s
  if s.tsu.extValid then .next (raise pTsu 4 (extLost (s.setTsu { s.tsu with edge := none, edgeTold := false })))
  else .next (s.setTsu { s.tsu with edge := none, edgeTold := false, goodEdges := 0, lastS := none })

/-! ### SYNCE_OUT (R446) -/

/-- SYNCE_SQUELCH_END: 100 ms have passed since the last change of reference feeder. -/
def execSynceSquelchEnd (s : State) : Result State := whenOn s <| .next (synceUpdate (s.setTsu { s.tsu with squelchHold := false }))

/-! ### The passing of time (R427, R430) -/

/-- How far the time moves in one microsecond: the slew at SLEW PPB, and in HOST the correction of TSU_HOST_FREQ. -/
def tsuTick (s : State) : State :=
  let t := s.tsu
  let most : Int := Int.ofNat (s.fld (regAddr pTsu 0x108) 0 16 * nsUnit / 1000000)
  let d := clampInt (-most) most t.slew
  let host : Int := if t.state = .host then signedOf 32 (s.rp pTsu 0x1B0).toNat * Int.ofNat nsUnit / 100000000 else 0
  s.setTsu { t with
    time := (Int.ofNat (t.time + 1000 * nsUnit) + d + host).toNat, slew := t.slew - d,
    holdUs := if t.state = .holdover then t.holdUs + 1 else t.holdUs,
    ppsAge := t.ppsAge.map (fun n => n + 1) }

end Sys2Proof.Machine
end

