-- ==== Sys2Proof/Machine/Feeder.lean ====
section
/-!
DEFINITION. How the line moves the terminal: mode transitions, activation states, losses and protection switches (chapters 1, 9
and 10).
-/

namespace Sys2Proof.Machine

/-! ### Mode transitions -/

/-- The receiver of a feeder comes on again and a watch ends. -/
def wakeRx (f : AB) (s : State) : State :=
  let s := s.setFlag (regAddr (pAct f) 0x180) 5 false
  s.setActSt f { s.act.get f with gate := none, sleepSent := false }

/-- A transition of Table 1-5 with all that follows from it: a switch in progress ends when SERVICE is left, frames pulled for a
grant stay queued (R20), DOZE ends with the receiver on, sequencers start and stop (R26, R458), and the time unit chooses its
state. -/
def modeTo (dst : Mode) (cause : Nat) (s : State) : State :=
  let old := s
  let s := transition dst cause s
  let s := match old.power.mode, dst with
    | .service _, .service _ => s
    | .service _, _ =>
      let s := recallBursts .b (recallBursts .a s)
      let s := { s with psw := { s.psw with sw := none } }
      (s.setBtx .a { s.btx.get .a with out := false }).setBtx .b { s.btx.get .b with out := false }
    | _, _ => s
  let s := match old.power.mode with
    | .service .doze => if dst = .service .doze then s else wakeRx (pswActive s) s
    | _ => s
  let s := match dst with
    | .holdover .regain => s
    | _ => { s with psw := { s.psw with regain := none } }
  tsuUpdate (seqSync old s)

/-- The feeder that carries traffic from now on; the rest of SDUs begun on the other feeder is dropped (R318, R319). A standby drift
does not follow it (R327). -/
def setActive (f : AB) (s : State) : State :=
  if pswActive s = f then s
  else
    let s := setPswActive f (dropRemains f.other s)
    { s with psw := { s.psw with drifted := s.psw.drifted.set f false } }

/-- A feeder in O5 takes the terminal from HOLDOVER to SERVICE (R22). -/
def lineReturn (f : AB) (s : State) : State := modeTo (.service .normal) 0x11 (setActive f s)

/-- In HOLDOVER LOST, a feeder in downstream SYNC that is not barred starts REGAIN; of two, the effectively preferred one (R22,
R35). One that holds O5 already returns at once. -/
def regainCheck (s : State) : State :=
  if s.power.mode ≠ .holdover .lost then s
  else
    let can := fun f => inSync f s && !barred f s
    let p := effPref s
    let pick := if can p then some p else if can p.other then some p.other else none
    match pick with
    | none => s
    | some f =>
      let s := modeTo (.holdover .regain) 0x12 s
      let s := { s with psw := { s.psw with regain := some f } }
      if actState f s = aO5 then lineReturn f s else s

/-- HOLDOVER with cause LINE_LOST (R19, R34). -/
def lineLost (s : State) : State := regainCheck (modeTo (.holdover .lost) 0x20 s)

/-! ### Protection switches (R316 to R319) -/

/-- Start a switch to the standby feeder (R317, R318). -/
def startSwitch (dst : AB) (cause : Nat) (s : State) : State :=
  let s := s.setBtx dst.other { s.btx.get dst.other with out := true }
  let s := if cause ≤ 2 then abortAll dst.other s else recallBursts dst.other s
  let s := { s with psw := { s.psw with sw := some ⟨dst, cause, s.clock⟩ } }
  modeTo (.service .pswitch) 0x33 s

/-- LOS (cause 1) or LOF (cause 2) is reported to PSW (R268, R316, R34). -/
def reportLoss (f : AB) (cause : Nat) (s : State) : State :=
  match s.power.mode with
  | .service _ =>
    match s.psw.sw with
    | some w => if w.dst = f then lineLost s else abortAll f s
    | none =>
      if pswActive s ≠ f then s
      else
        let w := warm f.other s
        if w && forced s != some f && !lockedOut f.other s then startSwitch f.other cause s
        else
          let s := lineLost (abortAll f s)
          if w then raise pPsw 2 s else s
  | _ => s

/-- SWITCH_COMPLETE: the first downstream frame boundary of the new feeder (R317). -/
def switchComplete (s : State) : State :=
  match s.psw.sw, s.power.mode with
  | some w, .service .pswitch =>
    let s := s.setBtx w.dst.other { s.btx.get w.dst.other with out := false }
    let s := setActive w.dst { s with psw := { s.psw with sw := none } }
    let us := s.clock - w.since
    let s := (s.bump (regAddr pPsw 0x114) 1).wp pPsw 0x118 (word (if us > 255 then 255 else us))
    raise pPsw 0 (modeTo (.service .normal) 0x34 (s.setFld (regAddr pPsw 0x100) 16 4 w.cause))
  | _, _ => s

/-- The revert conditions of R321. -/
def revertReady (s : State) : Bool :=
  match carrier s with
  | none => false
  | some c =>
    s.flag (regAddr pPsw 0x10C) 1 && s.psw.sw.isNone && (forced s).isNone && effPref s != c && warm (effPref s) s &&
      !lockedOut (effPref s) s

/-- A standing LOCKOUT of the active feeder, or a FORCE of the standby, starts its switch as soon as the standby is WARM
(R316). -/
def standing (s : State) : State :=
  match carrier s with
  | none => s
  | some c =>
    if s.psw.sw.isSome || !warm c.other s || lockedOut c.other s then s
    else if lockedOut c s then startSwitch c.other 6 s
    else if forced s = some c.other then startSwitch c.other 3 s
    else s

/-- What follows a command on the line, from state `old`: standing commands, the WTR count, WARM_CHANGE, the sub-state of ATTACH
and the time unit's source. A laser that has gone off ends the burst in progress as for LOS (R306, R333; assumption 59). -/
def lineSettle (old s : State) : State :=
  let s := tsuUpdate (syncAttach (standing s))
  let s := if revertReady s then (if s.psw.wtr then s else raise pPsw 3 { s with psw := { s.psw with wtr := true } })
    else { s with psw := { s.psw with wtr := false } }
  let dark := fun (f : AB) (s : State) => if txOn f old && !txOn f s then abortAll f s else s
  let s := dark .b (dark .a s)
  let moved := fun f => pswCode f old != pswCode f s && (pswCode f old == 1 || pswCode f s == 1)
  if moved .a || moved .b then raise pPsw 1 s else s

/-! ### Activation states (R277 to R280, R289, R297) -/

/-- LFR_OMCI_PORT is written; the OMCI context breaks when it changes (R261, R271). -/
def setOmciPort (f : AB) (port : Nat) (valid : Bool) (s : State) : State :=
  let w := word (port % 65536 + b2n valid * 65536)
  if s.rp (pLfr f) 0x118 = w then s else (cutChain f 512 false s).wp (pLfr f) 0x118 w

/-- Clear the Alloc-ID list of a feeder (R310). -/
def clearAllocs (f : AB) (s : State) : State :=
  let had := (List.range 32).any (fun n => s.rp (pBtx f) (0x180 + 4 * n) != 0)
  if !had then s
  else mapCheck f s (raise (pBtx f) 0 ((List.range 32).foldl (fun s n => s.wp (pBtx f) (0x180 + 4 * n) 0) s))

/-- What a move to OFF, O1.1 or O7 discards: ONU-ID, EqD, keys, Alloc-ID list and OMCI Port-ID (R259, R289, R297). -/
def clearRegistration (f : AB) (s : State) : State :=
  let s := (s.setFld (regAddr (pAct f) 0x100) 16 10 0).setFlag (regAddr (pAct f) 0x100) 31 false
  let s := (s.wp (pAct f) 0x10C 0).setFlag (regAddr (pAct f) 0x110) 16 false
  let s := s.setActSt f { s.act.get f with eqdNew := none, eqdUse := 0, answered := false }
  let s := recallBursts f s
  setOmciPort f (s.fld (regAddr (pLfr f) 0x118) 0 16) false (clearAllocs f (dropKeys f s))

/-- A change of activation state, in the ACT page alone (R278). -/
def setActReg (f : AB) (new cause : Nat) (s : State) : State :=
  let old := actState f s
  let a := regAddr (pAct f) 0x100
  let s := ((s.setFld a 4 4 old).setFld a 0 4 new).setFld a 8 8 cause
  let s := if new ≤ 1 ∨ new = aO7 then clearRegistration f s else s
  let s := if old ≤ 1 ∧ 2 ≤ new then { s with psw := { s.psw with lastLeft := f } } else s
  let s := if new = aO5 then
      { setOmciPort f (s.fld a 16 10) true s with
        psw := { s.psw with o5Rate := s.fld (regAddr (pLfr f) 0x100) 4 2 } }
    else if old = aO5 then setOmciPort f (s.fld (regAddr (pLfr f) 0x118) 0 16) false s
    else s
  raise (pAct f) 0 s

/-- What a change of activation state does to the mode (R18, R22, R23). In REGAIN only the feeder under activation returns the line; the
other stays standby (R35). The active feeder whose deactivation ends HOLDOVER is the one of PSW_STATE.ACTIVE, which the spec leaves
open (assumption 60). -/
def actMode (f : AB) (old new cause : Nat) (s : State) : State :=
  if new = aO5 ∧ old ≠ aO5 ∧ lockedOut f s = false then
    match s.power.mode with
    | .attach _ => modeTo (.service .normal) 0x10 (setActive f s)
    | .holdover _ => if barred f s || s.psw.regain == some f.other then s else lineReturn f s
    | _ => s
  else if pswActive s = f then
    match s.power.mode with
    | .service _ | .holdover _ =>
      if cause = 10 then modeTo (.attach .o1) 0x21 s
      else if cause = 11 then modeTo (.attach .o7) 0x24 s
      else if cause = 13 then modeTo (.attach .o1) 0x22 s
      else s
    | _ => s
  else s

/-- A feeder changes its activation state. One that enters O1.1 while it is in FSYNC moves on to O1.2 at once. -/
def setAct (f : AB) (new cause : Nat) (s : State) : State :=
  let old := actState f s
  let s := syncAttach (actMode f old new cause (setActReg f new cause s))
  if new = aO11 ∧ inSync f s = true then syncAttach (setActReg f aO12 2 s) else s

/-- A feeder in OFF moves to O1.1 when a module is present and the page is ACTIVE (Table 9-1). -/
def leaveOff (f : AB) (s : State) : State :=
  if actState f s = aOff ∧ modPresent f s = true ∧ s.pstate (pAct f) = .active then setAct f aO11 15 s else s

/-- HOST_REATTACH: ATTACH O1, and full re-activation of both feeders (R23, R36, Table 9-3). -/
def reattach (s : State) : State :=
  if s.power.mode = .dormant then s
  else
    let old := s
    let s := modeTo (.attach .o1) 0x23 s
    let one := fun (s : State) (f : AB) => if actState f s = aOff then s else setAct f aO11 14 s
    lineSettle old (one (one s .a) .b)

/-! ### Frame synchronisation (R238, R247, R266, R268) -/

/-- Drop every open reassembly of a feeder (R250). -/
def breakAll (f : AB) (s : State) : State := ((s.lfr.get f).sdus.map Prod.fst).foldl (fun s e => dropSdu f e s) s

/-- The Keeper runs. -/
def keeperUp (s : State) : Bool := s.running && s.keeper.started

/-- The frame synchroniser enters FSYNC. The activation follows while the Keeper runs (R301). -/
def enterSync (f : AB) (s : State) : State :=
  let a := regAddr (pLfr f) 0x104
  let s := (s.setFld a 0 2 2).setFlag a 9 false
  let x := s.lfr.get f
  let s := s.setLfr f { x with
    misses := 0, matches_ := 0, outFrames := 0, held := s.fld (regAddr (pLfr f) 0x100) 4 2 }
  let s := regainCheck (raise (pLfr f) 5 s)
  if !keeperUp s then s
  else if actState f s = aO11 then setAct f aO12 2 s
  else if actState f s = aO6 then setAct f aO5 9 s
  else s

/-- The delineator has left SYNC: every chain breaks once the frames delineated before have been taken (R250). -/
def loseChains (f : AB) (s : State) : State :=
  if (s.lfr.get f).xq.isEmpty then breakAll f s else pushMark f .lost s

/-- The framer goes to FHUNT and the delineator to HUNT; open chains break (R247, R250). -/
def toHunt (f : AB) (s : State) : State :=
  let a := regAddr (pLfr f) 0x104
  let s := (s.setFld a 0 2 0).setFld a 4 2 0
  loseChains f (s.setLfr f { s.lfr.get f with
    matches_ := 0, misses := 0, fits := 0, misfits := 0, outFrames := 0, past := [], candPos := 0 })

/-- What loss of frame does to the activation and the mode, once LOF is declared with LOS or without it: `cause` is what PSW is
told. -/
def frameLost (f : AB) (cause : Nat) (s : State) : State :=
  let st := actState f s
  let s := if st = aO12 ∨ st = aO23 ∨ st = aO4 then setAct f aO11 16 s
    else if st = aO5 then setAct f aO6 7 s
    else s
  let s := reportLoss f cause s
  if s.power.mode = .holdover .regain ∧ s.psw.regain = some f ∧ actState f s ≠ aO5 then
    regainCheck (modeTo (.holdover .lost) 0x13 s)
  else s

/-- LOF is declared (R266). A loss that LOS already reports is told to PSW as LOS alone (R273). -/
def declareLof (f : AB) (cause : Nat) (s : State) : State :=
  let s := s.setFlag (regAddr (pLfr f) 0x104) 9 true
  frameLost f cause (raise (pLfr f) 1 (countAt (pLfr f) 0x200 0x130 6 40 15 1 s))

end Sys2Proof.Machine
end

