-- ==== Sys2Proof/Machine/Line.lean ====
section
/-!
DEFINITION. The line framers and the line crypto (chapter 8): synchronisation, delineation, reassembly, loss conditions, the
Port-ID table and the key slots; and the upstream gate of a watch (R293).
-/

namespace Sys2Proof.Machine

/-- Count in LFR counter `i`. -/
def lfrCount (f : AB) (i k : Nat) (s : State) : State :=
  countAt (pLfr f) 0x200 0x130 6 (if i = 4 ∨ i = 6 ∨ i = 9 ∨ i = 11 then 48 else 40) i k s

/-- Count in CRY counter `i`, whose page has no half-range register. -/
def cryCount (i : Nat) (s : State) : State := countWide (regAddr pCry (0x200 + 8 * i)) 40 1 none none s

/-- A field of LFR_STATE. -/
def lfrField (f : AB) (lo w : Nat) (s : State) : Nat := s.fld (regAddr (pLfr f) 0x104) lo w

/-! ### Rates (R237, R274, R276) -/

/-- The rates that a framer may hunt, by the MODE in force and the fitted module. -/
def rateSet (f : AB) (mode : Nat) (s : State) : List Nat :=
  let r := s.fld (regAddr (pOpt f) 0x100) 12 2
  if !modAccepted f s then []
  else (if r.testBit 0 && mode != 2 then [1] else []) ++ (if r.testBit 1 && mode != 1 then [2] else [])

/-- LFR_RATE.RATE. -/
def lfrRate (f : AB) (s : State) : Nat := s.fld (regAddr (pLfr f) 0x100) 4 2

/-- Hunt at another rate: RATE_CHANGE, and a synchroniser in FPRESYNC starts again. -/
def setRate (f : AB) (r : Nat) (s : State) : State :=
  if lfrRate f s = r then s
  else
    let s := s.setFld (regAddr (pLfr f) 0x100) 4 2 r
    let s := if lfrField f 0 2 s = 1 then s.setFld (regAddr (pLfr f) 0x104) 0 2 0 else s
    raise (pLfr f) 4 s

/-- A framer out of FSYNC starts hunting at the rate it last held, else at 50G-PON, as far as its set allows. -/
def startHunt (f : AB) (s : State) : State :=
  if inSync f s then s
  else
    let rs := rateSet f (s.lfr.get f).mode s
    let h := (s.lfr.get f).held
    setRate f (if rs.contains h then h else rs.headD 0) s

/-- RATE_DWELL_EXPIRY: the MODE in force is taken anew, and the framer hunts at its other rate. -/
def execRateDwellExpiry (f : AB) (s : State) : Result State := whenOn s <|
  if inSync f s then .next s
  else
    let s := s.setLfr f { s.lfr.get f with mode := s.fld (regAddr (pLfr f) 0x100) 0 2 }
    let rs := rateSet f (s.lfr.get f).mode s
    .next (setRate f (match rs.find? (fun r => r != lfrRate f s) with
      | some r => r
      | none => rs.headD 0) s)

/-- LFR_RATE (R274). -/
def rateHandler (f : AB) : Handler :=
  { plain (pLfr f) 0x100 with
    range := fun _ v s =>
      inSync f s && ((bits v 0 2 == 1 && lfrRate f s == 2) || (bits v 0 2 == 2 && lfrRate f s == 1)) }

/-- RATE_MODE_WRITE. -/
def execRateModeWrite (m f : AB) (v : Word) (s : State) : Result State := whenOn s <|
  .next (writeReg m (pLfr f) 0x100 (rateHandler f) v s)

/-! ### Loss conditions (R265 to R268, R273) -/

/-- LOS is declared; the synchroniser goes to FHUNT and LOF stands with it (R266). -/
def declareLos (f : AB) (s : State) : State :=
  if losNow f s then s
  else
    let s := raise (pLfr f) 0 (lfrCount f 14 1 (s.setFlag (regAddr (pLfr f) 0x104) 8 true))
    let s := toHunt f s
    if lofNow f s then frameLost f 1 s else declareLof f 1 s

/-- A module has come or gone: the framer enters FHUNT, and AUTO restarts at 50G-PON (R276). -/
def restartFramer (f : AB) (s : State) : State :=
  let s := toHunt f s
  let s := startHunt f (s.setLfr f { s.lfr.get f with held := 0 })
  if lofNow f s then s else declareLof f 2 s

/-- LOS_DECLARE: RX_LOS counts only with USE_PIN = 1; no loss is declared while the receiver is off (R291). -/
def execLosDeclare (f : AB) (by_ : LosBy) (s : State) : Result State := whenOn s <|
  if (by_ = .pin ∧ s.flag (regAddr (pLfr f) 0x110) 8 = false) ∨ rxOff f s = true then .next s
  else .next (lineSettle s (declareLos f s))

/-- LOS_CLEAR. -/
def execLosClear (f : AB) (s : State) : Result State := whenOn s <|
  .next (lineSettle s (s.setFlag (regAddr (pLfr f) 0x104) 8 false))

/-- SD_SECOND (R267). -/
def execSdSecond (f : AB) (s : State) : Result State := whenOn s <|
  let x := s.lfr.get f
  let n := x.secUncorr
  let s := s.wp (pLfr f) 0x124 (word (if n > 65535 then 65535 else n))
  let sd := s.flag (regAddr (pLfr f) 0x104) 11
  if s.fld (regAddr (pLfr f) 0x114) 0 16 ≤ n then
    let s := s.setLfr f { x with secUncorr := 0, goodSecs := 0 }
    .next (if sd then s else raise (pLfr f) 3 (s.setFlag (regAddr (pLfr f) 0x104) 11 true))
  else
    let s := s.setLfr f { x with secUncorr := 0, goodSecs := satAdd 10 x.goodSecs 1 }
    .next (if sd && decide (10 ≤ x.goodSecs + 1) then s.setFlag (regAddr (pLfr f) 0x104) 11 false else s)

/-! ### Header delineation (R242 to R249) -/

/-- The delineator at work on FS payloads. -/
structure Delin where
  /-- DSTATE: 0 HUNT, 1 PRESYNC, 2 SYNC. -/
  ds : Nat
  fits : Nat
  misfits : Nat
  /-- The present candidate: the payloads from its own on, and its position. -/
  cand : Option (List FsPay × Nat)
  /-- The payloads still to be walked, the present one first. -/
  rest : List FsPay
  pos : Nat
  /-- Where SYNC was entered in the present payload. -/
  entry : Option Nat
  /-- SYNC has held at some time. -/
  synced : Bool
  corr : Nat
  bad : Nat
  filler : Nat
  /-- Bytes of the last payload skipped in SYNC. -/
  cut : Nat
  /-- The frames delineated; none for a misfit skip. -/
  frames : List (FsPay × Option XHdr)

/-- The header at a position; none where the payload holds a misfit or damage (R240). -/
def headerAt (hs : List XHdr) (pos : Nat) : Option XHdr := hs.find? (fun h => h.pos == pos && !h.damaged && h.hec != .bad)

/-- On to the next payload. -/
def Delin.nextPay (d : Delin) : Delin :=
  match d.rest with
  | _ :: y :: t => { d with rest := y :: t, pos := 0, entry := if d.ds = 2 then some 0 else none }
  | _ => { d with rest := [] }

/-- The present payload is the last. -/
def Delin.last (d : Delin) : Bool := d.rest.length == 1

/-- A header enters SYNC. -/
def Delin.enter (d : Delin) (p : FsPay) (h : XHdr) (next : Nat) : Delin :=
  { d with
    ds := 2, fits := 0, misfits := 0, cand := none, entry := some d.pos, synced := true, pos := next, frames := d.frames ++ [(p, some h)] }

/-- Walk FS payloads (R242 to R246, R249). `enter` is ENTER, `lose` LOSE. A misfit in PRESYNC returns to the candidate + 4, be it in an
earlier payload. -/
def walk (enter lose : Nat) : Nat → Delin → Delin
  | 0, d => d
  | fuel + 1, d =>
    match d.rest with
    | [] => d
    | p :: _ =>
      if p.len < d.pos + 8 then
        walk enter lose fuel (Delin.nextPay (if d.ds = 2 ∧ d.last = true then { d with filler := p.len - d.pos } else d))
      else
        let h := headerAt p.headers d.pos
        let next := fun (h : XHdr) => d.pos + 8 + pad4 h.pli
        match d.ds with
        | 2 =>
          match h with
          | some h =>
            walk enter lose fuel { d with
              misfits := 0, corr := d.corr + b2n (h.hec == .oneBit), pos := next h, frames := d.frames ++ [(p, some h)] }
          | none =>
            let out := decide (lose ≤ d.misfits + 1)
            walk enter lose fuel (Delin.nextPay { d with
              ds := if out then 0 else 2, misfits := if out then 0 else d.misfits + 1, bad := d.bad + 1
              cut := if d.last then p.len - d.pos else 0, frames := d.frames ++ [(p, none)] })
        | 1 =>
          match h.filter (fun h => h.hec == .good) with
          | some g =>
            if enter ≤ d.fits + 1 then walk enter lose fuel (d.enter p g (next g))
            else walk enter lose fuel { d with fits := d.fits + 1, pos := next g }
          | none =>
            let d := if h.isSome then { d with corr := d.corr + 1 } else { d with bad := d.bad + 1 }
            match d.cand with
            | some (l, c) => walk enter lose fuel { d with ds := 0, fits := 0, cand := none, rest := l, pos := c + 4, entry := none }
            | none => walk enter lose fuel { d with ds := 0, fits := 0, pos := d.pos + 4 }
        | _ =>
          match h.filter (fun h => h.hec == .good) with
          | some g =>
            if enter ≤ 1 then walk enter lose fuel (d.enter p g (next g))
            else walk enter lose fuel { d with ds := 1, fits := 1, cand := some (d.rest, d.pos), pos := next g }
          | none => walk enter lose fuel { d with pos := d.pos + 4 }

/-- Steps that suffice to walk payloads: every position is hunted at most once, and a chain tried there takes at most ENTER headers and
one step per payload. -/
def walkFuel (enter : Nat) (l : List FsPay) : Nat := ((l.map (fun p => p.len / 4 + 2)).sum + 1) * (enter + 2 + l.length)

/-- The valid Port-ID entry that a Port-ID matches (R252). -/
def portEntry (f : AB) (port : Nat) (s : State) : Option (Nat × Word) :=
  ((List.range 512).find? (fun e =>
    let r := s.rp (pLfr f) (0x800 + 4 * e)
    bit r 20 && bits r 0 16 == port)).map (fun e => (e, s.rp (pLfr f) (0x800 + 4 * e)))

/-- A frame toward the fabric, with the key that its slot holds now (R256, R272). A slot's memory is read first (R260). -/
def keyedFrame (f : AB) (d : XDest) (mcast : Bool) (p : FsPay) (h : XHdr) (s : State) : XFrame × State :=
  let mk := fun k => XFrame.mk d h.key h.lf h.payload h.payDamaged k p.sfc h.pos p.at_
  if h.key = 1 ∨ h.key = 2 then
    let slot := h.key - 1 + (if mcast then 2 else 0)
    let s := readRow 0x69 f.num slot 0 s
    (mk (keyIn f slot s), s)
  else (mk none, s)

/-- One delineated frame: idle, foreign, or on its way to the fabric (R248, R252, R253). -/
def takeHeader (f : AB) (p : FsPay) (h : XHdr) (s : State) : State :=
  let s := lfrCount f 6 (8 + pad4 h.pli) (lfrCount f 5 1 s)
  let push := fun (x : XFrame × State) => x.2.setLfr f { x.2.lfr.get f with xq := (x.2.lfr.get f).xq ++ [x.1] }
  if h.port = 0xFFFF then lfrCount f 10 1 s
  else
    let o := s.rp (pLfr f) 0x118
    if bit o 16 && bits o 0 16 == h.port then push (keyedFrame f .omci false p h s)
    else
      let s := match portEntry f h.port s with
        | some (e, _) => readRow 0x68 f.num (e / 8) 0 s
        | none => s
      match portEntry f h.port s with
      | some (e, w) => push (keyedFrame f (.entry e w) (bit w 22) p h s)
      | none => lfrCount f 12 1 s

/-- What the delineator has found, in order. -/
def takeFound (f : AB) (s : State) (x : FsPay × Option XHdr) : State :=
  match x.2 with
  | some h => takeHeader f x.1 h s
  | none => pushMark f .gap s

/-- The FS payload of a frame received in FSYNC, and LOD (R246): a frame counts as one without SYNC when the delineator was at no time
in SYNC in it. -/
def takePayload (f : AB) (p : Psbd) (at_ : Nat) (s : State) : State :=
  let x := s.lfr.get f
  let was := lfrField f 4 2 s
  let cfg := s.rp (pLfr f) 0x10C
  let pay : FsPay := ⟨p.headers, p.payLen, lfrSfc f s, at_⟩
  let all := if was = 1 then x.past ++ [pay] else [pay]
  let d := walk (bits cfg 0 4) (bits cfg 8 5) (walkFuel (bits cfg 0 4) all)
    ⟨was, x.fits, x.misfits, if was = 1 then some (all, x.candPos) else none, [pay], 0, if was = 2 then some 0 else none, was == 2,
      0, 0, 0, 0, []⟩
  let s := lfrCount f 11 d.filler (lfrCount f 9 (d.entry.getD p.payLen + d.cut) (lfrCount f 8 d.bad (lfrCount f 7 d.corr s)))
  let s := d.frames.foldl (takeFound f) s
  let s := s.setFld (regAddr (pLfr f) 0x104) 4 2 d.ds
  let y := s.lfr.get f
  let s := s.setLfr f { y with
    fits := if d.ds = 1 then d.fits else 0, misfits := if d.ds = 2 then d.misfits else 0
    past := if d.ds = 1 then (d.cand.map Prod.fst).getD [] else [], candPos := if d.ds = 1 then (d.cand.map Prod.snd).getD 0 else 0
    outFrames := if d.synced then 0 else y.outFrames + 1 }
  if d.synced then s.setFlag (regAddr (pLfr f) 0x104) 10 false
  else if bits cfg 16 16 ≤ (s.lfr.get f).outFrames ∧ s.flag (regAddr (pLfr f) 0x104) 10 = false then
    raise (pLfr f) 2 (lfrCount f 16 1 (s.setFlag (regAddr (pLfr f) 0x104) 10 true))
  else s

/-! ### Reassembly and delivery (R250, R251, R255 to R257, R261, R262, R275) -/

/-- The feeder whose SDUs are ingress and whose OMCI is delivered: the active feeder in SERVICE. In ATTACH the downstream brings PLOAM
only, and in HOLDOVER nothing (R255, Table 1-4). -/
def dataFeeder (s : State) : Option AB := carrier s

/-- A completed OMCI SDU (R261, R262). -/
def deliverOmci (f : AB) (l : List Byte) (s : State) : State :=
  let s := readRow 0x69 f.num 4 0 s
  let n := l.length - 4
  let good := match keyIn f 4 s with
    | some k => decide (4 ≤ l.length) && Config.mic k (l.take n) == l.drop n
    | none => false
  if !good then raise pCry 2 (cryCount (6 + f.num) (dropAt .omciMic 0 8 none 0 s))
  else if dataFeeder s ≠ some f then dropAt .lineStandby 0 8 none 0 s
  else queueOmci l s

/-- A completed Ethernet SDU (R251, R255). -/
def deliverFrame (f : AB) (k at_ : Nat) (bad : Bool) (l : List Byte) (s : State) : State :=
  let n := l.length - 4
  if l.length < 4 ∨ fcsBytes (l.take n) ≠ l.drop n then dropAt .lineFcs k 8 none 0 s
  else if dataFeeder s ≠ some f then dropAt .lineStandby k 8 none 0 s
  else ingress 8 k (l.take n) (fun p => { p with
    sec := word (at_ / secUnit), ns := word (at_ / nsUnit % 1000000000), frac := at_ / 2 ^ 16 % 2 ^ 16
    cell := if bad then .poisoned ⟨0x80 + f.num, 0, 0, 0⟩ else .clean }) s

/-- A misfit skip breaks every open chain (R250). -/
def gapAll (f : AB) (s : State) : State :=
  (s.lfr.get f).sdus.foldl (fun s (e : Nat × Option Sdu) =>
    match e.2 with
    | some x => if x.dead then s else deaden f e.1 x.slice false false (dropSdu f e.1 s)
    | none => s) s

/-- One frame of an Ethernet or OMCI context in the fabric. The edge FIFO lies before the Port-ID lookup, so that its drops are unowned
(R413). While the rest of an SDU is discarded, a frame that R240, R256 or R257 drops still counts, but not through R251 and R275
(R411). -/
def takeXgem (f : AB) (e k : Nat) (enc omci : Bool) (fifoFull : Bool) (x : XFrame) (s : State) : State :=
  let dead := (sduOf f e s).any (fun y => y.dead)
  let quiet := (sduOf f e s).any (fun y => y.dead && y.quiet)
  let k := match sduOf f e s with
    | some y => y.slice
    | none => k
  if fifoFull then
    let s := raise pPwr 6 (s.bump (regAddr pPwr (0x400 + 4 * f.num)) 1)
    deaden f e k true x.lf (if dead then s else dropUnowned .edgeOvf s)
  else if quiet then (if x.lf then setSdu f e none s else s)
  else
    let stop := fun (r : Reason) (c : Option Nat) =>
      let s := match c with
        | some i => cryCount (i + f.num) s
        | none => s
      deaden f e k false x.lf (dropSdu f e (dropAt r k 8 none 0 s))
    if x.damaged then stop .lineFec none
    else if x.keyIdx = 3 ∨ (x.keyIdx ≠ 0 ∧ x.key.isNone) then stop .lineKey (some 2)
    else if x.keyIdx = 0 ∧ enc then stop .lineClear (some 4)
    else if dead then (if x.lf then setSdu f e none s else s)
    else
      let s := if x.keyIdx = 0 then s else cryCount f.num s
      let l := match x.key with
        | some key => Config.decrypt key x.sfc x.pos x.payload
        | none => x.payload
      let y := (sduOf f e s).getD ⟨k, [], x.at_, false, false, false⟩
      let t := transit (0x80 + f.num) s
      let s := t.2
      let y := { y with bad := y.bad || t.1 }
      let b := y.bytes ++ l
      if (if omci then 2048 else 9600) < b.length then
        deaden f e k true x.lf (dropAt .lineOversize k 8 none 0 s)
      else if !x.lf then setSdu f e (some { y with bytes := b }) s
      else
        let s := setSdu f e none s
        if omci then (if y.bad then dropAt .poison 0 9 none 0 s else deliverOmci f b s)
        else deliverFrame f k y.at_ y.bad b s

/-- XGEM_FRAME_RECEIVE: the fabric takes the oldest delineated frame of a feeder. `fifoFull` says that edge FIFO 0 or 1 has dropped
it (R275). -/
def execXgemFrameReceive (f : AB) (fifoFull : Bool) (s : State) : Result State := whenOn s <|
  match (s.lfr.get f).xq with
  | [] => .next s
  | x :: t =>
    let s := s.setLfr f { s.lfr.get f with xq := t }
    match x.dest with
    | .gap => .next (gapAll f s)
    | .lost => .next (breakAll f s)
    | .cut e keep => .next (cutSdu f e keep s)
    | .omci => .next (takeXgem f 512 0 false true fifoFull x s)
    | .entry e w => .next (takeXgem f e (bits w 16 4) (bit w 21) false fifoFull x s)

/-! ### The upstream gate (R291 to R294, R299) -/

/-- A local stimulus in DOZE (R292): it ends a low-power interval with a watch, makes the watch in progress end the sleep, and ends
the sleep at once in an aware period. -/
def stimulus (s : State) : State :=
  if s.power.mode ≠ .service .doze then s
  else
    let f := pswActive s
    let a := s.act.get f
    if rxOff f s then
      let s := actCount f 9 (s.setFlag (regAddr (pAct f) 0x180) 5 false)
      tsuUpdate (s.setActSt f { s.act.get f with gate := some ⟨none, true⟩ })
    else match a.gate with
      | some g => s.setActSt f { a with gate := some { g with ending := true } }
      | none => modeTo (.service .normal) 0x31 s

/-- The frames that wait for an Alloc-ID of the active feeder: those of the service queues whose port node it serves, and the OMCI
messages of the default Alloc-ID. -/
def lineDepth (s : State) : Nat :=
  let f := pswActive s
  let toward := fun (e : Nat × List Pkt) => let n := nodeParent (e.1 / 8) s; decide (n < 32) && servedOn f n s
  s.omciUpQ.length + ((s.buf.queues.filter toward).map (fun e => e.2.length)).sum

/-- A frame enqueued toward an Alloc-ID of the active feeder is a local stimulus (R292): `old` is the state before the enqueueing
operation. -/
def wakeOn (old s : State) : State := if lineDepth old < lineDepth s then stimulus s else s

/-- The frames between the reference and an arrival, to the nearest (R293). -/
def gateFrames (f : AB) (at_ : Nat) (s : State) : Nat :=
  (at_ - (s.act.get f).refAt + frameTime / 2) / frameTime

/-- The second of two consecutive PSBds decides the gate (steps 3 to 6 of R293). -/
def gateDecide (f : AB) (sfc at_ : Nat) (g : Gate) (s : State) : State :=
  let n := gateFrames f at_ s
  let proj := ((s.act.get f).refSfc + n) % 2 ^ 51
  let s := s.wp (pAct f) 0x19C (word proj)
  if sfc ≠ proj then setAct f aO11 13 (raise (pAct f) 6 (actCount f 11 s))
  else
    let d := sixteenths (Int.ofNat at_ - Int.ofNat (s.act.get f).refAt - Int.ofNat (n * frameTime))
    let lim := guardLimit f s
    let s := s.wp (pAct f) 0x194
      (word (toSigned 16 (clampInt (-32768) 32767 d) + (if lim > 4095 then 4095 else lim) * 65536))
    let s := raise (pAct f) 5 s
    if lim < d.natAbs then
      let s := s.setActSt f { s.act.get f with answered := false }
      let s := recallBursts f { s with psw := { s.psw with stuck := false } }
      modeTo (.service .rerange) 0x32 (actCount f 10 s)
    else
      let s := driftShift d s
      if g.ending then modeTo (.service .normal) 0x31 s
      else s.setActSt f { s.act.get f with gate := none }

/-- A PSBd whose SFC has passed its check meets a gate. -/
def gatePsbd (f : AB) (sfc at_ : Nat) (s : State) : State :=
  match (s.act.get f).gate with
  | none => s
  | some g =>
    if inSync f s && g.last == some ((sfc + 2 ^ 51 - 1) % 2 ^ 51) then gateDecide f sfc at_ g s
    else s.setActSt f { s.act.get f with gate := some { g with last := some sfc } }

/-! ### PSBD_ARRIVAL -/

/-- A downstream message as the log shows it: zeros in place of the MIC and of key material (R284). -/
def blanked (p : Ploam) : List Byte :=
  let zero := fun (lo n : Nat) (l : List Byte) => putBytes l lo (List.replicate n 0)
  let l := zero 40 8 ((p.bytes ++ List.replicate 48 0).take 48)
  if p.body = .keyControl then zero 4 36 l else l

/-- A PLOAM message of a frame (R281, R284). -/
def acceptPloam (f : AB) (s : State) (p : Ploam) : State :=
  if actState f s = aOff then s
  else if !(p.onuId = 0x3FF ∨ onuId f s = some p.onuId) then actCount f 1 s
  else
    let idx := (s.act.get f).logNext
    let s := logPloam f false (byteAt p.bytes 2) (blanked p) (actCount f 0 s)
    let t := transit 0x9E s
    let s := t.2
    if t.1 then raise (pAct f) 2 (actCount f 3 s)
    else if (s.act.get f).queue.length < 16 then s.setActSt f { s.act.get f with queue := (s.act.get f).queue ++ [(p, idx)] }
    else raise (pAct f) 2 (actCount f 3 s)

/-- The SFC of a PSBd that matches (R241): the last one that passes is kept, with its arrival. -/
def takeSfc (f : AB) (p : Psbd) (at_ : Nat) (s : State) : State :=
  if !p.sfcOk then s
  else
    let v := p.sfc % 2 ^ 51
    let x := s.lfr.get f
    let s := if x.sfcKnown && v != (lfrSfc f s + 1) % 2 ^ 51 then lfrCount f 13 1 s else s
    let s := (s.wp (pLfr f) 0x11C (word (v / 2 ^ 32))).wp (pLfr f) 0x120 (word v)
    s.setLfr f { s.lfr.get f with sfcKnown := true, arrival := some at_ }

/-- PSW measures the departure of the standby at each of its PSBds. Beyond the guard limit the standby falls silent until the head end
ranges it again (R314). -/
def measureStandby (f : AB) (s : State) : State :=
  if (carrier s).isNone || carrier s == some f || (arrivalDiff s).isNone then s
  else
    let s := { s with psw := { s.psw with depart := s.psw.depart.set f (departNow f s) } }
    if guardLimit f s < (departure f s).natAbs then
      recallBursts f { s with psw := { s.psw with drifted := s.psw.drifted.set f true } }
    else s

/-- The synchroniser at an expected position (R238). -/
def syncStep (f : AB) (hit : Bool) (s : State) : State :=
  let x := s.lfr.get f
  let cfg := s.rp (pLfr f) 0x108
  let a := regAddr (pLfr f) 0x104
  match lfrField f 0 2 s with
  | 2 =>
    if hit then s.setLfr f { x with misses := 0 }
    else if bits cfg 4 4 ≤ x.misses + 1 then
      declareLof f 2 (toHunt f s)
    else s.setLfr f { x with misses := x.misses + 1 }
  | 1 =>
    if !hit then (s.setFld a 0 2 0).setLfr f { x with matches_ := 0 }
    else if bits cfg 0 4 ≤ x.matches_ + 1 then enterSync f s
    else s.setLfr f { x with matches_ := x.matches_ + 1 }
  | _ =>
    if !hit then s
    else if bits cfg 0 4 ≤ 1 then enterSync f s
    else (s.setFld a 0 2 1).setLfr f { x with matches_ := 1 }

/-- The FS frame of a PSBd, received in FSYNC (R240). -/
def takeFsFrame (f : AB) (p : Psbd) (hit : Bool) (at_ : Nat) (s : State) : State :=
  let s := lfrCount f 2 p.cwCorr (lfrCount f 1 p.cw (lfrCount f 0 1 s))
  let s := lfrCount f 4 p.bitsCorr (lfrCount f 3 p.cwUncorr s)
  let s := s.setLfr f { s.lfr.get f with secUncorr := (s.lfr.get f).secUncorr + p.cwUncorr }
  let s := if hit && p.sfcOk then lineLoad f (p.sfc % 2 ^ 51) at_ s else s
  let s := p.ploams.foldl (acceptPloam f) s
  let s := if p.forcedWake && pswActive s == f then stimulus s else s
  takePayload f p at_ (acceptGrants f p.grants s)

/-- PSBD_ARRIVAL. Nothing arrives while the receiver is off; while LOS stands the synchroniser stays in FHUNT (R266). -/
def execPsbdArrival (f : AB) (p : Psbd) (s : State) : Result State := whenOn s <|
  if rxOff f s || losNow f s || lfrRate f s == 0 then .next s
  else
    let hit := decide (p.errors ≤ s.fld (regAddr (pLfr f) 0x108) 8 3)
    let at_ := s.tsu.time + p.frac % (1000 * nsUnit)
    let old := s
    let s := if hit then measureStandby f (takeSfc f p at_ s) else s
    let s := syncStep f hit s
    let s := if hit && p.sfcOk && s.power.mode == .service .doze && pswActive s == f then gatePsbd f (p.sfc % 2 ^ 51) at_ s
      else s
    let s := if inSync f s then takeFsFrame f p hit at_ s else s
    .next (lineSettle old s)

/-! ### Port-ID table and keys (R254, R271, R272) -/

/-- Port-ID entry `e` (R254, R271). -/
def portIdHandler (f : AB) (e : Nat) : Handler :=
  { plain (pLfr f) (0x800 + 4 * e) with
    range := fun m v s =>
      let o := s.rp (pLfr f) 0x118
      !s.ownsSlice m (bits v 16 4) ||
        (bit v 20 && (bits v 0 16 == 0xFFFF || (bit o 16 && bits o 0 16 == bits v 0 16) ||
          (List.range 512).any (fun i =>
            let r := s.rp (pLfr f) (0x800 + 4 * i)
            i != e && bit r 20 && bits r 0 16 == bits v 0 16)))
    run := fun _ v s =>
      let r := s.rp (pLfr f) (0x800 + 4 * e)
      let same := bit v 20 && bits v 0 16 == bits r 0 16
      let s := if bit r 20 && !(same && bits v 16 4 == bits r 16 4) then cutChain f e same s else s
      wrotePart ⟨0x68, f.num, e / 8, e % 8 / 2⟩ 0 (regAddr (pLfr f) (0x800 + 4 * (e / 2 * 2 + 1 - e % 2)))
        (storeReg (pLfr f) (0x800 + 4 * e) v s) }

/-- PORT_ID_WRITE. -/
def execPortIdWrite (m f : AB) (e : Nat) (v : Word) (s : State) : Result State := whenOn s <|
  let e := e % 512
  .next (writeReg m (pLfr f) (0x800 + 4 * e) (portIdHandler f e) v s)

/-- KEY_LOAD: the Keeper loads a key slot. -/
def execKeyLoad (f : AB) (slot : Nat) (key : List Byte) (s : State) : Result State := whenOn s <|
  let slot := slot % 5
  if !keeperUp s then .next s
  else
    let old := s
    let s := { s with keys := tblSet [] (8 * f.num + slot) key s.keys, act := s.act.set f { s.act.get f with keyAsk := false } }
    let s := s.setFlag (regAddr pCry 0x100) (slot + 8 * f.num) true
    let s := if slot < 4 then s.bumpFld (regAddr pCry (0x104 + 4 * f.num)) (8 * slot) 8 1 else s
    let s := wroteWord ⟨0x69, f.num, slot, 0⟩ 0 (raise pCry 0 s)
    .next (lineSettle old s)

/-- A delineated frame is flushed (R88): the SDU that it completes counts once as FLUSH, and an earlier fragment waits with its chain. -/
def flushXgem (f : AB) (s : State) (x : XFrame) : State :=
  let one := fun (e k : Nat) =>
    match sduOf f e s with
    | some y =>
      if y.dead then (if x.lf then setSdu f e none s else s)
      else if x.lf then dropAt .flush y.slice 8 none 0 (setSdu f e none s) else s
    | none => if x.lf then dropAt .flush k 8 none 0 s else setSdu f e (some ⟨k, [], x.at_, false, false, false⟩) s
  match x.dest with
  | .omci => one 512 0
  | .entry e w => one e (bits w 16 4)
  | .gap => gapAll f s
  | .lost => breakAll f s
  | .cut e keep => cutSdu f e keep s

/-- A block reset of an LFR page (R88, R270). LOF that already stands is not reported again. -/
def lfrBlockReset (f : AB) (s : State) : State :=
  let old := s
  let s := (s.lfr.get f).xq.foldl (flushXgem f) (s.setLfr f { s.lfr.get f with xq := [] })
  let s := (List.range 512).foldl (fun s e => s.wp (pLfr f) (0x800 + 4 * e) 0) s
  let was := inSync f s
  let s := toHunt f s
  let s := s.setLfr f { s.lfr.get f with sdus := [] }
  lineSettle old (if was then declareLof f 2 s else s)

end Sys2Proof.Machine
end

