-- ==== Sys2Proof/Machine/Activation.lean ====
section
/-!
DEFINITION. Activation (chapter 9): what the Keeper does with each PLOAM message, the equalisation delay, the activation timers,
and watchful sleep.

A PLOAM command takes the oldest message of the feeder's queue when that message is of its type; otherwise there is nothing for it
to act on.
-/

namespace Sys2Proof.Machine

/-! ### The Keeper takes a message (R281 to R284) -/

/-- The Keeper places an upstream message in the queue; in DOZE on the active feeder that is a local stimulus (R283, R292). -/
def reply (f : AB) (p : Ploamu) (s : State) : State :=
  let a := s.act.get f
  let s := s.setActSt f { a with up := a.up ++ [p] }
  if pswActive s = f then stimulus s else s

/-- Messages that the standards answer with an Acknowledge (assumption 13). -/
def acked : PloamBody → Bool
  | .rangingTime _ => true
  | .assignAllocId _ _ => true
  | .sleepAllow _ => true
  | _ => false

/-- ACTED of a log entry that still holds the message (Table 9-6). -/
def markActed (f : AB) (p : Ploam) (idx : Nat) (s : State) : State :=
  let b := 0x400 + 64 * (idx % 16)
  let now := (List.range 12).map (fun i => s.rp (pAct f) (b + 4 * i))
  if now = (bytesToWords 12 (blanked p) ++ List.replicate 12 0).take 12 then s.setFlag (regAddr (pAct f) (b + 48)) 1 true else s

/-- The Acknowledge that answers a directed message: none, or whether it tells of a supported message (R283). -/
def answerOf (p : Ploam) : Option Bool :=
  if p.onuId = 0x3FF then none else if p.body = .other then some false else if acked p.body then some true else none

/-- Send the Acknowledge of a message. -/
def sendAck (f : AB) (p : Ploam) (a : Option Bool) (s : State) : State :=
  match a with
  | some ok => reply f (.acknowledge ok p.seq) s
  | none => s

/-- The Keeper handles the oldest message once the gate of a watch has been passed (R298): a directed message with a bad MIC is
discarded, a repeat gets the Acknowledge of the message before again and is not acted on (R282). `run` gives the state after acting, or
none where the message asks nothing of the feeder in its state; one of no type of Table 9-2 is counted and answered as unsupported, and
never acted on (R283). -/
def takePloam (f : AB) (is : PloamBody → Bool) (run : Ploam → State → Option State) (s : State) : State :=
  match (s.act.get f).queue with
  | [] => s
  | (p, idx) :: t =>
    if !keeperUp s || !is p.body || (s.act.get f).gate.isSome then s
    else
      let old := s
      let directed := p.onuId != 0x3FF
      let s := s.setActSt f { s.act.get f with queue := t }
      if directed && !p.micOk then actCount f 2 s
      else
        let again := directed && (s.act.get f).lastSeq == some p.seq
        let note := fun (a : Option Bool) (s : State) =>
          if directed then s.setActSt f { s.act.get f with lastSeq := some p.seq, lastAck := a } else s
        if again then lineSettle old (sendAck f p (s.act.get f).lastAck s)
        else if p.body = .other then lineSettle old (sendAck f p (answerOf p) (note (answerOf p) (actCount f 4 s)))
        else match run p s with
          | some s => lineSettle old (sendAck f p (answerOf p) (note (answerOf p) (markActed f p idx s)))
          | none => note none s

/-! ### The messages of Table 9-2 -/

/-- The feeder's own serial number. -/
def ownSn (f : AB) (vendor vssn : Nat) (s : State) : Bool :=
  (s.rp (pAct f) 0x104).toNat == vendor && (s.rp (pAct f) 0x108).toNat == vssn

/-- BURST_PROFILE: the profile is stored, passed to BTX and in use; O1.2 moves to O2-3. -/
def execBurstProfile (f : AB) (s : State) : Result State := whenOn s <|
  .next (takePloam f (fun b => match b with | .burstProfile .. => true | _ => false) (fun p s =>
    match p.body with
    | .burstProfile i q =>
      let x := s.btx.get f
      let s := s.setBtx f { x with profiles := tblSet none (i % 16) (some q) x.profiles }
      let s := useProfile f (i % 16) q s
      some (if actState f s = aO12 then setAct f aO23 3 s else s)
    | _ => none) s)

/-- ASSIGN_ONU_ID: the ONU-ID is written and the default Alloc-ID with it; O2-3 moves to O4. -/
def execAssignOnuId (f : AB) (s : State) : Result State := whenOn s <|
  .next (takePloam f (fun b => match b with | .assignOnuId .. => true | _ => false) (fun p s =>
    match p.body with
    | .assignOnuId v n o =>
      if actState f s ≠ aO23 ∨ ownSn f v n s = false then none
      else
        let s := (s.setFld (regAddr (pAct f) 0x100) 16 10 o).setFlag (regAddr (pAct f) 0x100) 31 true
        let s := s.wp (pBtx f) 0x180 (word (o % 1024 + 2 ^ 16 + 2 ^ 17))
        some (setAct f aO4 4 (raise (pBtx f) 0 s))
    | _ => none) s)

/-- RANGING_TIME: the EqD is written and waits for the next frame boundary; O4 moves to O5, and RERANGE ends (R288, R295, R302). -/
def execRangingTime (f : AB) (s : State) : Result State := whenOn s <|
  .next (takePloam f (fun b => match b with | .rangingTime _ => true | _ => false) (fun p s =>
    match p.body with
    | .rangingTime e =>
      if actState f s ≠ aO4 ∧ actState f s ≠ aO5 then none
      else
        let s := (s.wp (pAct f) 0x10C (word e)).setFlag (regAddr (pAct f) 0x110) 16 true
        let s := s.setActSt f { s.act.get f with eqdNew := some (e % 2 ^ 32) }
        let s := if actState f s = aO4 then setAct f aO5 5 s else s
        some (if s.power.mode = .service .rerange ∧ pswActive s = f then modeTo (.service .normal) 0x35 s else s)
    | _ => none) s)

/-- DEACTIVATE_ONU_ID: full re-activation. -/
def execDeactivateOnuId (f : AB) (s : State) : Result State := whenOn s <|
  .next (takePloam f (fun b => b == .deactivate) (fun _ s =>
    let st := actState f s
    if st = aOff ∨ st = aO11 ∨ st = aO7 then none else some (setAct f aO11 10 s)) s)

/-- DISABLE_SERIAL_NUMBER: O7, or O7 to O1.1 when it enables. -/
def execDisableSerialNumber (f : AB) (s : State) : Result State := whenOn s <|
  .next (takePloam f (fun b => match b with | .disableSn .. => true | _ => false) (fun p s =>
    match p.body with
    | .disableSn en sn =>
      let mine := match sn with
        | none => true
        | some (v, n) => ownSn f v n s
      let st := actState f s
      if !mine || st = aOff then none
      else if en then (if st = aO7 then some (setAct f aO11 12 s) else none)
      else if st = aO7 then none
      else some (setAct f aO7 11 (abortAll f s))
    | _ => none) s)

/-- The Registration message from ACT_REG_ID as it stands now (R286). -/
def registration (f : AB) (s : State) : Ploamu :=
  .registration (wordsToBytes ((List.range 9).map (fun i => s.rp (pAct f) (0x140 + 4 * i))))

/-- REQUEST_REGISTRATION: the Registration is sent. -/
def execRequestRegistration (f : AB) (s : State) : Result State := whenOn s <|
  .next (takePloam f (fun b => b == .requestRegistration) (fun _ s =>
    if actState f s = aO4 ∨ actState f s = aO5 then some (reply f (registration f s) s) else none) s)

/-- ASSIGN_ALLOC_ID: an Alloc-ID enters or leaves the feeder's list (R310, R324). -/
def execAssignAllocId (f : AB) (s : State) : Result State := whenOn s <|
  .next (takePloam f (fun b => match b with | .assignAllocId .. => true | _ => false) (fun p s =>
    match p.body with
    | .assignAllocId id on =>
      if (onuId f s).isNone then none
      else
        let ent := fun (n : Nat) => s.rp (pBtx f) (0x180 + 4 * n)
        let at_ := (List.range 32).find? (fun n => bit (ent n) 16 && bits (ent n) 0 14 == id % 16384)
        let free := (List.range 32).find? (fun n => !bit (ent n) 16)
        match at_, free with
        | some n, _ =>
          if on || bit (ent n) 17 then some s
          else some (mapCheck f s (raise (pBtx f) 0 (s.wp (pBtx f) (0x180 + 4 * n) 0)))
        | none, some n =>
          if !on then some s
          else some (mapCheck f s (raise (pBtx f) 0 (s.wp (pBtx f) (0x180 + 4 * n) (word (id % 16384 + 2 ^ 16)))))
        | none, none => if on then none else some s
    | _ => none) s)

/-- KEY_CONTROL: in O5 the Keeper runs the key exchange and answers with Key_Report. -/
def execKeyControl (f : AB) (s : State) : Result State := whenOn s <|
  .next (takePloam f (fun b => b == .keyControl) (fun _ s =>
    if actState f s = aO5 then some (reply f .keyReport s) else none) s)

/-- SLEEP_ALLOW: SLEEP_ALLOWED follows the message; one that withdraws permission wakes the terminal (R292). -/
def execSleepAllow (f : AB) (s : State) : Result State := whenOn s <|
  .next (takePloam f (fun b => match b with | .sleepAllow _ => true | _ => false) (fun p s =>
    match p.body with
    | .sleepAllow on =>
      let was := s.flag (regAddr (pAct f) 0x180) 4
      let s := s.setFlag (regAddr (pAct f) 0x180) 4 on
      let s := if was = on then s else raise (pAct f) 4 s
      some (if !on && pswActive s == f then stimulus s else s)
    | _ => none) s)

/-- UNSUPPORTED_PLOAM: a directed message of any other type is acknowledged as unsupported; it is counted in either case. -/
def execUnsupportedPloam (f : AB) (s : State) : Result State := whenOn s <|
  .next (takePloam f (fun b => b == .other) (fun _ _ => none) s)

/-! ### EqD and timers -/

/-- EQD_APPLY: the EqD that was written is in use from this frame boundary on (R288, R434). PSW records the standby reference, and a
feeder that has been ranged again is silent no longer (R314). -/
def execEqdApply (f : AB) (s : State) : Result State := whenOn s <|
  match (s.act.get f).eqdNew with
  | none => .next s
  | some e =>
    let old := s
    let a := s.act.get f
    let d : Int := if a.eqdUse ≤ e then Int.ofNat (upBits f (e - a.eqdUse) s) else -(Int.ofNat (upBits f (a.eqdUse - e) s))
    let s := s.setActSt f { a with eqdNew := none, eqdUse := e }
    let s := raise (pAct f) 3 (actCount f 8 (s.bumpFld (regAddr (pAct f) 0x110) 0 16 1))
    let s := { s with psw := { s.psw with drifted := s.psw.drifted.set f false } }
    let s := match arrivalDiff s with
      | some x => { s with psw := { s.psw with refAB := x, depart := Pair.both 0 } }
      | none => s
    .next (lineSettle old (eqdShift f d s))

/-- TO1_EXPIRY. -/
def execTo1Expiry (f : AB) (s : State) : Result State := whenOn s <|
  if actState f s = aO4 then .next (lineSettle s (setAct f aO11 6 (raise (pAct f) 8 s))) else .next s

/-- TO2_EXPIRY (R279). -/
def execTo2Expiry (f : AB) (s : State) : Result State := whenOn s <|
  if actState f s = aO6 then .next (lineSettle s (setAct f aO11 8 (raise (pAct f) 9 s))) else .next s

/-! ### Watchful sleep (R290 to R296) -/

/-- The conditions of R290, but for the time that they have held. -/
def mayDoze (s : State) : Bool :=
  let f := pswActive s
  let c := s.rp (pAct f) 0x180
  keeperUp s && s.power.mode == .service .normal && bit c 0 && bit c 4 && s.psw.sw.isNone && (s.act.get f).up.isEmpty && s.omciUpQ.isEmpty &&
    (List.range 32).all (fun n => !servedOn f n s || reportBytes f n s == 0)

/-- DOZE_ENTER. -/
def execDozeEnter (s : State) : Result State := whenOn s <|
  if !mayDoze s then .next s
  else
    let f := pswActive s
    let a := s.act.get f
    .next (lineSettle s (modeTo (.service .doze) 0x30
      (s.setActSt f { a with up := a.up ++ [.sleepRequest], gate := none, sleepSent := false })))

/-- LOW_POWER_START: the reference is recorded and the receiver goes off; the framer declares no loss (R291). -/
def execLowPowerStart (s : State) : Result State := whenOn s <|
  let f := pswActive s
  if s.power.mode ≠ .service .doze ∨ rxOff f s = true ∨ (s.act.get f).gate.isSome = true then .next s
  else
    let old := s
    let at_ := (s.lfr.get f).arrival.getD s.tsu.time
    let s := s.setActSt f { s.act.get f with refSfc := lfrSfc f s, refAt := at_ }
    let s := (s.wp (pAct f) 0x198 (s.rp (pLfr f) 0x120)).setFlag (regAddr (pAct f) 0x180) 5 true
    .next (lineSettle old (toHunt f s))

/-- WATCH: the low-power interval ends, the receiver comes on and the upstream gate starts. -/
def execWatch (s : State) : Result State := whenOn s <|
  let f := pswActive s
  if s.power.mode ≠ .service .doze ∨ rxOff f s = false then .next s
  else
    let t := actCount f 9 (s.setFlag (regAddr (pAct f) 0x180) 5 false)
    .next (lineSettle s (t.setActSt f { t.act.get f with gate := some ⟨none, false⟩ }))

/-- ACT_SLEEP_CTRL: WAKE = 1 and SLEEP_EN = 0 on the active feeder are local stimuli (R292). -/
def sleepCtrlHandler (f : AB) : Handler :=
  { plain (pAct f) 0x180 with
    run := fun _ v s =>
      let t := storeReg (pAct f) 0x180 v s
      if pswActive t = f ∧ (bit v 1 = true ∨ bit v 0 = false) then lineSettle s (stimulus t) else t }

/-- WAKE_CMD. -/
def execWakeCmd (m f : AB) (s : State) : Result State := whenOn s <|
  .next (writeReg m (pAct f) 0x180 (sleepCtrlHandler f) (word (s.fld (regAddr (pAct f) 0x180) 0 1 + 2)) s)

/-- SLEEP_EN_WRITE. -/
def execSleepEnWrite (m f : AB) (on : Bool) (s : State) : Result State := whenOn s <|
  .next (writeReg m (pAct f) 0x180 (sleepCtrlHandler f) (word (b2n on)) s)

/-- GATE_REACQ_TIMEOUT: FSYNC has not been reached within ACT_REACQ at a watch (R293, R33). -/
def execGateReacqTimeout (s : State) : Result State := whenOn s <|
  let f := pswActive s
  if s.power.mode ≠ .service .doze ∨ (s.act.get f).gate.isNone = true ∨ inSync f s = true then .next s
  else .next (lineSettle s (declareLof f 2 s))

/-- RERANGE_TIMEOUT: RERANGE_STUCK is raised once (R296). -/
def execRerangeTimeout (s : State) : Result State := whenOn s <|
  if s.power.mode ≠ .service .rerange ∨ s.psw.stuck = true then .next s
  else .next (raise (pAct (pswActive s)) 7 { s with psw := { s.psw with stuck := true } })

/-- A block reset of an ACT page: OFF with the effects of a full re-activation, the page's other registers reset, the sleep
registers and ACT_REG_ID kept. The feeder then leaves OFF when a module is present. -/
def actBlockReset (f : AB) (s : State) : State :=
  let old := s
  let s := setAct f aOff 1 (abortAll f s)
  let s := s.setActSt f { s.act.get f with queue := [], up := [], lastSeq := none, lastAck := none }
  lineSettle old s

end Sys2Proof.Machine
end

