-- ==== Sys2Proof/Machine/Optics.lean ====
section
/-!
DEFINITION. The module cages (chapter 11): insertion and removal, identity, diagnostics, the laser and life records.

OPT_STATUS.PRESENT in the register file is the level of MOD_ABS_x, which also follows the cage while the logic domain is off.
-/

namespace Sys2Proof.Machine

/-! ### Life limits (R339, R340) -/

/-- OPT_LIFE_CFG.LIMIT, in hours. -/
def lifeLimit (s : State) : Nat := s.fld (regAddr (pOpt .a) 0x110) 0 19

/-- The life fraction of a laser-on time. -/
def permille (on : Nat) (s : State) : Nat := on * 1000 / (lifeLimit s * 3600)

/-- LIFE of a life fraction. -/
def lifeOf (n : Nat) : Nat := if 1000 ≤ n then 3 else if 950 ≤ n then 2 else if 800 ≤ n then 1 else 0

/-- LIFE of the seated module after a change of its laser-on time or of LIMIT; each level newly reached raises its interrupt. -/
def updateLife (c : AB) (s : State) : State :=
  let x := s.opt.get c
  match x.live with
  | none => s
  | some r =>
    let lv := lifeOf (permille r.laserOn s)
    let s := s.setOpt c { x with live := some { r with life := lv } }
    let s := s.setFld (regAddr (pOpt c) 0x100) 8 2 lv
    [1, 2, 3].foldl (fun s i => if r.life < i ∧ i ≤ lv then raise (pOpt c) (4 + i) s else s) s

/-! ### Identity (R329, R330, R336 to R338, R343) -/

/-- The rates that a nominal rate declares: bit 0 50G-PON, bit 1 XGS-PON (R330). -/
def declared (b12 b66 : Nat) : Nat :=
  let n := if b12 = 255 then b66 * 250 else b12 * 100
  if 45000 ≤ n then 1 else if 9000 ≤ n ∧ n ≤ 10500 then 2 else 0

/-- The declared set under OPT_RATE_CFG.FORCE. -/
def rateBits (c : AB) (b12 b66 : Nat) (s : State) : Nat :=
  match s.fld (regAddr (pOpt c) 0x108) 0 2 with
  | 0 => declared b12 b66
  | n => n

/-- The latest record with this key that is still to be written, else the stored one. -/
def findLife (sn vendor : List Byte) (s : State) : Option LifeRec :=
  let mine := fun (r : LifeRec) => r.sn == sn && r.vendor == vendor
  ((((s.opt.get .a).leaving ++ (s.opt.get .b).leaving).filter mine).getLast?).or (s.nvs.life.find? mine)

/-- A record for a module never seen before (R336). -/
def newLife (sn vendor : List Byte) (s : State) : LifeRec :=
  let now := if s.flag (regAddr pBkp 0x100) 0 then s.backup.rtcSec % 2 ^ 32 else 0
  ⟨sn, vendor, 0, 0, 0, -128, 127, 0, now, now, 0⟩

/-- REJECT of an identity: the first condition that fails (R329, R343). -/
def rejectOf (c : AB) (i : IdImage) (s : State) : Nat :=
  let b := byteAt i.a0
  let sum := ((i.a0.take 63).map BitVec.toNat).sum % 256
  let other := (s.opt.get c.other).live
  if !i.acked then 1
  else if b 0 ≠ 3 then 2
  else if b 63 ≠ sum then 3
  else if rateBits c (b 12) (b 66) s = 0 then 4
  else if modAccepted c.other s && other.any (fun r =>
      r.sn == (i.a0.drop 68).take 16 && r.vendor == (i.a0.drop 20).take 16) then 5
  else 0

/-- Write a list of words to registers in a row. -/
def writeWords (p off : Nat) (l : List Word) (s : State) : State :=
  (l.zipIdx).foldl (fun s x => s.wp p (off + 4 * x.2) x.1) s

/-- The identity registers. -/
def showIdentity (c : AB) (i : IdImage) (s : State) : State :=
  let b := byteAt i.a0
  let s := writeWords (pOpt c) 0x120 (bytesToWords 4 ((i.a0.drop 68).take 16)) s
  let s := writeWords (pOpt c) 0x130 (bytesToWords 4 ((i.a0.drop 20).take 16)) s
  let s := writeWords (pOpt c) 0x140 (bytesToWords 4 ((i.a0.drop 40).take 16)) s
  s.wp (pOpt c) 0x150 (word (b 0 + b 12 * 2 ^ 8 + b 66 * 2 ^ 16 + b 92 * 2 ^ 24))

/-- The record of a key as it is loaded when the stored one fails its CRC: it is treated as absent and counted (R337). -/
def loadBadRecord (sn vendor : List Byte) (s : State) : Option LifeRec × State :=
  let mine := fun (r : LifeRec) => r.sn == sn && r.vendor == vendor
  let a := regAddr (pOpt .a) 0x1C4
  if s.nvs.life.any mine && !((s.opt.get .a).leaving ++ (s.opt.get .b).leaving).any mine then
    (none, s.setFld a 12 4 (satAdd 15 (s.fld a 12 4) 1))
  else (findLife sn vendor s, s)

/-- A module is accepted: its rates, its record and its insertion. A record that a removal left to be written goes live again, and its
write is made now (R336). -/
def acceptModule (c : AB) (i : IdImage) (s : State) : State :=
  let a := regAddr (pOpt c) 0x100
  let b := byteAt i.a0
  let s := ((s.setFlag a 1 true).setFld a 16 4 0).setFld a 12 2 (rateBits c (b 12) (b 66) s)
  let s := s.setFlag a 3 (b 92 / 16 % 2 == 1)
  let sn := (i.a0.drop 68).take 16
  let ven := (i.a0.drop 20).take 16
  let load := if i.recordOk then (findLife sn ven s, s) else loadBadRecord sn ven s
  let known := load.1
  let s := load.2
  let r := known.getD (newLife sn ven s)
  let due := known.isNone || ((s.opt.get .a).leaving ++ (s.opt.get .b).leaving).any (sameKey r)
  let back := fun (s : State) (c : AB) =>
    let x := s.opt.get c
    s.setOpt c { x with leaving := x.leaving.filter (fun y => !sameKey r y) }
  let s := back (back s .a) .b
  let x := s.opt.get c
  let count := x.seen || s.nvs.cageKey.get c != sn ++ ven
  let r := if count then { r with inserts := satAdd 65535 r.inserts 1 } else r
  let s := s.setOpt c { x with live := some r, seen := false }
  let s := s.setNvs { s.nvs with cageKey := s.nvs.cageKey.set c (sn ++ ven) }
  let s := if due then writeOrDefer (.life c.num) s else s
  startHunt c (updateLife c s)

/-- ID_READ_START: the read begins on a seated module whose cage is released. -/
def execIdReadStart (c : AB) (s : State) : Result State := whenOn s <|
  if modPresent c s && cageFree c s && !modAccepted c s then .next (s.setOpt c { s.opt.get c with reading := true })
  else .next s

/-- ID_READ_RETRY: 10 s after a refusal. -/
def execIdReadRetry (c : AB) (s : State) : Result State := whenOn s <|
  if s.fld (regAddr (pOpt c) 0x100) 16 4 = 0 then .next s
  else if modPresent c s && cageFree c s && !modAccepted c s then .next (s.setOpt c { s.opt.get c with reading := true })
  else .next s

/-- ID_READ_DONE: the module is accepted or refused; a read whose module has gone is abandoned (R344). -/
def execIdReadDone (c : AB) (i : IdImage) (s : State) : Result State := whenOn s <|
  if !(s.opt.get c).reading then .next s
  else
    let old := s
    let s := s.setOpt c { s.opt.get c with reading := false }
    let n := rejectOf c i s
    let s := if i.acked then showIdentity c i s else s
    .next (lineSettle old (if n = 0 then acceptModule c i s
      else raise (pOpt c) 2 (s.setFld (regAddr (pOpt c) 0x100) 16 4 n)))

/-! ### Insertion and removal (R334, R341, R344) -/

/-- MODULE_INSERT. While the logic domain is off, or VAUX is low, only the level is there. -/
def execModuleInsert (c : AB) (s : State) : Result State :=
  let a := regAddr (pOpt c) 0x100
  if s.flag a 0 then .next s
  else
    let old := s
    let s := s.setFlag a 0 true
    if !s.running || s.power.vauxLow then .next (s.setOpt c { s.opt.get c with seen := false })
    else
      let s := raise (pOpt c) 0 (s.setOpt c { s.opt.get c with seen := true })
      .next (lineSettle old (leaveOff c (restartFramer c s)))

/-- What the terminal forgets of a module that is no longer there; its record waits to be written (R336). -/
def forgetModule (c : AB) (s : State) : State :=
  let a := regAddr (pOpt c) 0x100
  let x := s.opt.get c
  let s := s.setOpt c { x with live := none, leaving := x.leaving ++ x.live.toList, reading := false, twoWire := none }
  (((s.setFld a 1 4 0).setFld a 8 2 0).setFld a 12 2 0).setFld a 16 4 0

/-- R341: the laser goes off, the burst ends as for LOS, the activation goes to OFF and LOS is declared. -/
def moduleGone (c : AB) (s : State) : State :=
  let s := forgetModule c (abortAll c s)
  let s := if actState c s = aOff then s else setAct c aOff 15 s
  restartFramer c (declareLos c s)

/-- MODULE_REMOVE. While VAUX is low its handling has been done already (R552), but for TX_EN (R334). -/
def execModuleRemove (c : AB) (s : State) : Result State :=
  let a := regAddr (pOpt c) 0x100
  if !s.flag a 0 then .next s
  else
    let old := s
    let s := s.setFlag a 0 false
    if !s.running then .next s
    else
      let s := if s.flag (regAddr (pOpt c) 0x104) 1 then s else s.setFlag (regAddr (pOpt c) 0x104) 0 false
      if s.power.vauxLow then .next s else .next (lineSettle old (moduleGone c (raise (pOpt c) 1 s)))

/-- LIFE_RECORD_WRITE: the records of the modules that have left the cage. -/
def execLifeRecordWrite (c : AB) (s : State) : Result State := whenOn s <|
  .next (saveLeft c s)

/-! ### Diagnostics (R331, R332) -/

/-- The temperature of two bytes in whole degrees, truncated toward zero (R336). -/
def wholeDegrees (n : Nat) : Int := Int.tdiv (signedOf 16 n) 256

/-- The diagnostics as read: A2h bytes 96 to 105, 112, 113, 116 and 117. -/
def takeDiag (c : AB) (l : List Byte) (s : State) : State :=
  let p := pOpt c
  let h := fun (i : Nat) => beAt l i 2
  let s := s.wp p 0x160 (word (h 0 + h 2 * 65536))
  let s := s.wp p 0x164 (word (h 4 + h 6 * 65536))
  let s := s.wp p 0x168 (word (h 8))
  let s := s.wp p 0x16C (word (h 10 + h 12 * 65536))
  let s := s.setFlag (regAddr p 0x100) 4 false
  let x := s.opt.get c
  let t := wholeDegrees (h 0)
  let live := x.live.map (fun r => { r with
    tmax := if r.tmax < t then t else r.tmax, tmin := if t < r.tmin then t else r.tmin })
  let s := s.setOpt c { x with live := live, twoWire := none }
  let s := if h 10 = 0 then s else raise p 3 s
  if h 12 = 0 then s else raise p 4 s

/-- DIAG_POLL: the bytes read, or none for a transfer that has failed. The poll has failed when its third retry has. -/
def execDiagPoll (c : AB) (bytes : Option (List Byte)) (s : State) : Result State := whenOn s <|
  if !(modPresent c s && modAccepted c s) then .next s
  else match bytes with
    | some l => .next (takeDiag c l s)
    | none =>
      match (s.opt.get c).twoWire with
      | none => .next (s.setOpt c { s.opt.get c with twoWire := some 0 })
      | some n =>
        if n < 3 then .next s
        else .next (raise (pOpt c) 8 ((s.setOpt c { s.opt.get c with twoWire := none }).setFlag (regAddr (pOpt c) 0x100) 4 true))

/-- TWO_WIRE_RETRY: a failed transfer is tried again, up to three times. -/
def execTwoWireRetry (c : AB) (s : State) : Result State := whenOn s <|
  match (s.opt.get c).twoWire with
  | none => .next s
  | some n => .next (s.setOpt c { s.opt.get c with twoWire := some (if n < 3 then n + 1 else 3) })

/-! ### Laser and limits -/

/-- LASER_SECOND: counted while TXDIS_x is low. -/
def execLaserSecond (c : AB) (s : State) : Result State := whenOn s <|
  if !txOn c s then .next s
  else
    let x := s.opt.get c
    let live := x.live.map (fun r => { r with laserOn := (r.laserOn + 1) % 2 ^ 32 })
    .next (lineSettle s (updateLife c (s.setOpt c { x with live := live })))

/-- OPT_LIFE_CFG: one register shown in both pages; a new LIMIT applies to both live copies at once (R340). -/
def lifeLimitHandler (c : AB) : Handler :=
  { plain (pOpt c) 0x110 with
    run := fun _ v s => lineSettle s (updateLife .b (updateLife .a (storeReg (pOpt .a) 0x110 v s))) }

/-- LIFE_LIMIT_WRITE. -/
def execLifeLimitWrite (m c : AB) (v : Word) (s : State) : Result State := whenOn s <|
  .next (writeReg m (pOpt c) 0x110 (lifeLimitHandler c) v s)

/-- OPT_TX_CTRL. -/
def txCtrlHandler (c : AB) : Handler :=
  { plain (pOpt c) 0x104 with run := fun _ v s => lineSettle s (storeReg (pOpt c) 0x104 v s) }

/-- TX_CTRL_WRITE. -/
def execTxCtrlWrite (m c : AB) (v : Word) (s : State) : Result State := whenOn s <|
  .next (writeReg m (pOpt c) 0x104 (txCtrlHandler c) v s)

/-- OPT_RATE_CFG: a new FORCE applies to an accepted module at once. -/
def optRateHandler (c : AB) : Handler :=
  { plain (pOpt c) 0x108 with
    run := fun _ v s =>
      let t := storeReg (pOpt c) 0x108 v s
      let id := (t.rp (pOpt c) 0x150)
      if !modAccepted c t then t
      else lineSettle s (startHunt c (t.setFld (regAddr (pOpt c) 0x100) 12 2 (rateBits c (bits id 8 8) (bits id 16 8) t))) }

/-- OPT_LIFE of a cage: the live record, or zeros. -/
def optLifeWord (c : AB) (i : Nat) (s : State) : Word :=
  match (s.opt.get c).live with
  | some r => (lifeWords r).getD i 0
  | none => 0

/-- The stored record that OPT_REC_SEL shows. -/
def optRecWord (c : AB) (i : Nat) (s : State) : Word :=
  match s.nvs.life[s.fld (regAddr (pOpt c) 0x1C8) 0 8]? with
  | some r => (lifeWords r).getD i 0
  | none => 0

/-- OPT_LIFE_PERMILLE. -/
def permilleWord (c : AB) (s : State) : Word :=
  match (s.opt.get c).live with
  | some r => word (let n := permille r.laserOn s; if n > 65535 then 65535 else n)
  | none => 0

end Sys2Proof.Machine
end

