-- ==== Sys2Proof/Machine/Protect.lean ====
section
/-!
DEFINITION. The commands of feeder protection (chapter 10): node map writes, the end of a switch, operator commands and the WTR
count.
-/

namespace Sys2Proof.Machine

/-- BTX_MAP_n (R311): what follows from the new map for WARM and the WTR count happens at once (R315, R321). -/
def nodeMapHandler (f : AB) (n : Nat) : Handler :=
  { plain (pBtx f) (0x200 + 4 * n) with
    range := fun _ v s =>
      onuId f s == some (bits v 0 14) ||
        (List.range 32).any (fun k => k != n && mapOf f k s == some (bits v 0 14))
    run := fun _ v s =>
      lineSettle s (mapCheck f s (wroteWord ⟨0x6A, f.num, n / 2, 2 * (n % 2)⟩ 0 (storeReg (pBtx f) (0x200 + 4 * n) v s))) }

/-- NODE_MAP_WRITE: port node `n` is bound to an Alloc-ID. -/
def execNodeMapWrite (m f : AB) (n : Nat) (v : Word) (s : State) : Result State := whenOn s <|
  let n := n % 32
  .next (writeReg m (pBtx f) (0x200 + 4 * n) (nodeMapHandler f n) v s)

/-- ACT_GUARD: a new guard limit is looked at at once (R294, R315, R321). -/
def guardHandler (f : AB) : Handler :=
  { plain (pAct f) 0x190 with run := fun _ v s => lineSettle s (storeReg (pAct f) 0x190 v s) }

/-- SWITCH_COMPLETE. -/
def execSwitchComplete (s : State) : Result State := whenOn s <| .next (lineSettle s (switchComplete s))

/-! ### Operator commands (Table 10-2, R322) -/

/-- The terminal is in PSWITCH. -/
def inPswitch (s : State) : Bool := s.psw.sw.isSome || s.power.mode == .service .pswitch

/-- The feeder that a MANUAL or FORCE value names. -/
def cmdFeeder (c : Nat) : AB := if c % 2 = 1 then .a else .b

/-- A LOCKOUT bit that would newly stop the active feeder (R278) without a WARM standby, or that meets a FORCE of the same feeder. -/
def lockRefused (v : Word) (force : Option AB) (f : AB) (s : State) : Bool :=
  bit v (4 + f.num) &&
    (force == some f || (!lockedOut f s && activeFeeder s == some f && !warm f.other s))

/-- PSW_CMD returns RANGE (Table 10-2, R322). -/
def pswCmdRefused (v : Word) (s : State) : Bool :=
  let c := bits v 0 3
  let f := cmdFeeder c
  let sameLocks := bit v 4 == lockedOut .a s && bit v 5 == lockedOut .b s
  if inPswitch s then c != 0 || !sameLocks
  else
    let force := if c = 0 then none else if 3 ≤ c then some f else forced s
    let bad :=
      if c = 0 then false
      else if c ≤ 2 then activeFeeder s == some f || !warm f s || bit v (4 + f.num) || (forced s).isSome
      else bit v (4 + f.num) || (activeFeeder s != some f && !warm f s)
    bad || (bit v 4 && bit v 5) || lockRefused v force .a s || lockRefused v force .b s

/-- PSW_CMD: CMD keeps a standing FORCE alone; a MANUAL switches once, unless a LOCKOUT of the same write goes first. -/
def pswCmdHandler : Handler :=
  { plain pPsw 0x108 with
    range := fun _ v s => pswCmdRefused v s
    run := fun _ v s =>
      let c := bits v 0 3
      let t := s.wp pPsw 0x108 (word ((if 3 ≤ c then c else 0) + bits v 4 2 * 16))
      let t := standing t
      let t := if (c = 1 ∨ c = 2) ∧ (carrier t).isSome = true ∧ t.psw.sw.isNone = true then startSwitch (cmdFeeder c) 4 t else t
      lineSettle s (regainCheck t) }

/-- The LOCKOUT bits as they stand. -/
def lockBits (s : State) : Nat := s.fld (regAddr pPsw 0x108) 4 2 * 16

/-- PSW_CLEAR. -/
def execPswClear (m : AB) (s : State) : Result State := whenOn s <| .next (writeReg m pPsw 0x108 pswCmdHandler (word (lockBits s)) s)

/-- PSW_MANUAL. -/
def execPswManual (m f : AB) (s : State) : Result State := whenOn s <|
  .next (writeReg m pPsw 0x108 pswCmdHandler (word (1 + f.num + lockBits s)) s)

/-- PSW_FORCE. -/
def execPswForce (m f : AB) (s : State) : Result State := whenOn s <|
  .next (writeReg m pPsw 0x108 pswCmdHandler (word (3 + f.num + lockBits s)) s)

/-- PSW_LOCKOUT: the LOCKOUT bits are written, with a standing FORCE as it stands. -/
def execPswLockout (m : AB) (a b : Bool) (s : State) : Result State := whenOn s <|
  .next (writeReg m pPsw 0x108 pswCmdHandler (word (s.fld (regAddr pPsw 0x108) 0 3 + b2n a * 16 + b2n b * 32)) s)

/-- PSW_CFG: a new preference or REVERT is looked at at once. -/
def pswCfgHandler : Handler :=
  { plain pPsw 0x10C with run := fun _ v s => lineSettle s (regainCheck (storeReg pPsw 0x10C v s)) }

/-- WTR_EXPIRY: the conditions of R321 have held for WTR seconds. -/
def execWtrExpiry (s : State) : Result State := whenOn s <|
  if s.psw.wtr && revertReady s then .next (lineSettle s (startSwitch (effPref s) 5 s)) else .next s

end Sys2Proof.Machine
end

