-- ==== Sys2Proof/Machine/Mac.lean ====
section
/-!
DEFINITION. Client Ethernet ports (chapter 12): reception, pause, transmission with timestamps and PTP rewriting (R437 to R439), and
the timestamp queue.
-/

namespace Sys2Proof.Machine

/-! ### Reception (R348 to R351) -/

/-- The offset of the Length/Type field after any VLAN tags. -/
def typeOffset : Nat → List Byte → Nat → Nat
  | 0, _, o => o
  | n + 1, l, o => if beAt l o 2 = 0x8100 ∨ beAt l o 2 = 0x88A8 then typeOffset n l (o + 4) else o

/-- MAC_LENGTH of Table 12-2. -/
def lengthBad (l : List Byte) : Bool :=
  let o := typeOffset l.length l 12
  let t := beAt l o 2
  let data := l.length - (o + 2)
  decide (t < 0x0600 ∧ ((t < data ∧ 46 < data) ∨ data < t))

/-- The condition of Table 12-2 that a received frame meets first: its reason and its error counter (Table 12-7). -/
def macRefused (n : Nat) (f : ClientFrame) (s : State) : Option (Reason × Nat) :=
  let len := f.bytes.length + 4
  let mode := s.fld (regAddr (pMac n) 0x10C) 0 2
  let op := beAt f.bytes 14 2
  if !f.preambleOk then some (.macPreamble, 22)
  else if !f.alignOk then some (.macAlign, 23)
  else if len < 64 then some (.macRunt, 20)
  else if s.fld (regAddr (pMac n) 0x108) 0 14 < len then some (.macOversize, 21)
  else if !f.fcsOk then some (.macFcs, 19)
  else if lengthBad f.bytes then some (.macLength, 24)
  else if beAt f.bytes 12 2 = 0x8808 ∧ ¬ ((op = 0x0001 ∧ mode = 1) ∨ (op = 0x0101 ∧ mode = 2)) then some (.macCtrl, 9)
  else none

/-- The size bucket of a frame length (Table 12-7). -/
def sizeBucket (len : Nat) : Nat :=
  if len ≤ 64 then 0 else if len < 128 then 1 else if len < 256 then 2 else if len < 512 then 3
  else if len < 1024 then 4 else if len < 1519 then 5 else if len < 2048 then 6 else if len < 4096 then 7 else 8

/-- 0 for a unicast destination, 1 for multicast, 2 for broadcast. -/
def castOf (l : List Byte) : Nat :=
  if beAt l 0 6 = 0xFFFFFFFFFFFF then 2 else if byteAt l 0 % 2 = 1 then 1 else 0

/-- The frame carries a VLAN tag. -/
def isTagged (l : List Byte) : Bool := beAt l 12 2 == 0x8100 || beAt l 12 2 == 0x88A8

/-- Count a good frame (R350). -/
def countGood (n : Nat) (l : List Byte) (s : State) : State :=
  let len := l.length + 4
  let s := macCount n 2 1 (macCount n 0 len s)
  let s := macCount n (3 + castOf l) 1 s
  let s := if isTagged l then macCount n 6 1 s else s
  macCount n (10 + sizeBucket len) 1 s

/-- A received pause of one kind takes effect: `pri` 8 is 802.3x (R353). PAUSED rises when it starts a pause. -/
def applyPause (n pri quanta : Nat) (s : State) : State :=
  let bitn := if pri = 8 then 4 else 8 + pri
  let x := s.port n
  let was := s.flag (regAddr (pMac n) 0x104) bitn
  let s := s.setPort n { x with quanta := tblSet 0 pri quanta x.quanta }
  let s := s.setFlag (regAddr (pMac n) 0x104) bitn (decide (quanta ≠ 0))
  if !was && decide (quanta ≠ 0) then raise (pMac n) 6 s else s

/-- A PAUSE or PFC frame that passed the list (R349, R353). -/
def rxPause (n : Nat) (l : List Byte) (s : State) : State :=
  let on := s.flag (regAddr (pMac n) 0x10C) 2
  if beAt l 14 2 = 0x0001 then
    let s := macCount n 7 1 s
    if on then applyPause n 8 (beAt l 16 2) s else s
  else
    (List.range 8).foldl (fun s p =>
      if (byteAt l 17).testBit p then
        let s := macCount n (56 + p) 1 s
        if on then applyPause n p (beAt l (18 + 2 * p) 2) s else s
      else s) (macCount n 8 1 s)

/-- Subtract a board delay, in 1/16 ns, from a packet's arrival time (R438). -/
def backdate (n : Nat) (s : State) (p : Pkt) : Pkt :=
  let t := s.tsu.time - s.fld (regAddr pTsu (0x204 + 8 * n)) 16 16 * 2 ^ 28
  { p with sec := word (t / nsUnit / 1000000000), ns := word (t / nsUnit % 1000000000), frac := t / 2 ^ 16 % 2 ^ 16 }

/-- A discard on a port: in its slice, or unowned when no slice holds the port (R413). -/
def dropPort (r : Reason) (n : Nat) (s : State) : State :=
  match s.portSlice n with
  | some k => dropAt r k n none 0 s
  | none => dropUnowned r s

/-- CLIENT_FRAME_RECEIVE: a frame arrives whole on client port `n`. The SFD crosses the balls at the command's instant (R438). A
port whose MODE is 0 receives nothing; one that no slice holds discards every good frame, PAUSE and PFC frames with them (R148). -/
def execClientFrameReceive (n : Nat) (f : ClientFrame) (s : State) : Result State := whenOn s <|
  let n := n % 8
  let len := f.bytes.length + 4
  if s.fld (regAddr (pMac n) 0x100) 0 2 = 0 then .next s
  else if f.fifoFull then
    .next (dropPort .edgeOvf n (raise pPwr 6 (s.bump (regAddr pPwr (0x400 + 4 * (4 + n))) 1)))
  else
    let s := macCount n 1 len s
    match macRefused n f s with
    | some (r, c) => .next (dropPort r n (macCount n c 1 s))
    | none =>
      let s := countGood n f.bytes s
      match s.portSlice n with
      | none => .next (dropUnowned .noSlice (macCount n 26 1 s))
      | some k =>
        if beAt f.bytes 12 2 = 0x8808 then .next (rxPause n f.bytes s)
        else
          let p := backdate n s (mkPkt n k f.bytes s)
          if s.sliceState k ≠ .active then .next (dropSrc .sliceDown p 0 (macCount n 26 1 s))
          else if s.pstate (pMac n) ≠ .active then .next (dropSrc .portDown p 0 (macCount n 26 1 s))
          else
            let t := transit (0x84 + n) s
            .next (ingress n k f.bytes (fun p => { backdate n s p with cell := if t.1 then .poisoned ⟨0x84 + n, 0, 0, 0⟩ else .clean }) t.2)

/-- PAUSE_EXPIRY: the quanta of a received pause run out (R353); `pri` 8 is 802.3x. -/
def execPauseExpiry (n pri : Nat) (s : State) : Result State := whenOn s <| .next (applyPause (n % 8) (pri % 9) 0 s)

/-- XOFF_REFRESH: half of QUANTA has elapsed and the held cells are still above XON; the port sends only with TX_EN set and the frames of
its MODE alone (R352, R354). -/
def execXoffRefresh (n pri : Nat) (s : State) : Result State := whenOn s <|
  let n := n % 8
  let pri := pri % 9
  let held := heldCells n (if pri = 8 then none else some pri) s
  if (s.port n).xoff.testBit pri && macLink n s && s.flag (regAddr (pMac n) 0x10C) 3 && (pauseKinds n s).contains pri &&
      decide (s.fld (regAddr (pMac n) 0x11C) 0 19 < held) then
    .next (sendPause n pri (s.fld (regAddr (pMac n) 0x10C) 16 16) s)
  else .next s

/-- Every pause of a port ends, received and sent: LINK falls (R366), or MAC_FC.MODE changes, since pause and PFC are never active
together (R352); no frame tells the partner of it (assumption 80). -/
def endPauses (n : Nat) (s : State) : State :=
  let s := (s.setFlag (regAddr (pMac n) 0x104) 4 false).setFld (regAddr (pMac n) 0x104) 8 8 0
  s.setPort n { s.port n with quanta := [], xoff := 0 }

/-! ### The link (R347, R366) -/

/-- The PCS of a port has block lock and, with RS_FEC, FEC alignment (R347). -/
def pcsUp (n : Nat) (s : State) : Bool :=
  (s.port n).lock && (!s.flag (regAddr (pMac n) 0x100) 4 || s.flag (regAddr (pMac n) 0x104) 1)

/-- LINK as it should read: the page works, a slice holds the port, the PCS reports no loss and no
fault, and REFCLK_CLI is present (R347, R148, R553). -/
def linkNow (n : Nat) (s : State) : Bool :=
  let st := s.rp (pMac n) 0x104
  (s.pstate (pMac n) == .active || s.pstate (pMac n) == .draining) && (s.portSlice n).isSome &&
    s.fld (regAddr (pMac n) 0x100) 0 2 != 0 && pcsUp n s && !bit st 2 && !bit st 3 &&
    !s.power.refclkAbsent

/-- Bring LINK up to date. A link that falls clears the received pauses and ends XOFF (R366). -/
def linkUpdate (n : Nat) (s : State) : State :=
  let now := linkNow n s
  if now = macLink n s then s
  else
    let s := raise (pMac n) 0 (s.setFlag (regAddr (pMac n) 0x104) 0 now)
    if now then pauseCheck n s
    else endPauses n s

/-- LINK_CHANGE: the PCS of port `n` gains or loses lock or FEC alignment, or reports or clears a fault. A PCS that has lock has its
reference clock. -/
def execLinkChange (n : Nat) (lock fec localFault remoteFault : Bool) (s : State) : Result State := whenOn s <|
  let n := n % 8
  let st := s.rp (pMac n) 0x104
  let newFault := (localFault && !bit st 2) || (remoteFault && !bit st 3)
  let s := s.setPort n { s.port n with lock := lock }
  let s := ((s.setFlag (regAddr (pMac n) 0x104) 1 fec).setFlag (regAddr (pMac n) 0x104) 2 localFault).setFlag
    (regAddr (pMac n) 0x104) 3 remoteFault
  let s := if newFault then raise (pMac n) 1 s else s
  let s := if lock then { s with power := { s.power with refclkAbsent := false } } else s
  .next (linkUpdate n s)

/-! ### PTP (R437 to R439) -/

/-- Where a PTP event message stands in a frame: the PTP header, the IP header and the UDP header, and 0, 4 or 6 for the layer
that carries it (R437). -/
structure PtpAt where
  hdr : Nat
  ip : Nat
  udp : Nat
  ver : Nat

/-- The PTP event message of a frame, if it is one (R437). -/
def ptpEvent (l : List Byte) : Option PtpAt :=
  let o := typeOffset 2 l 12
  let t := beAt l o 2
  let ip := o + 2
  let r : Option PtpAt :=
    if t = 0x88F7 then some ⟨ip, ip, ip, 0⟩
    else if t = 0x0800 ∧ byteAt l ip / 16 = 4 ∧ 5 ≤ byteAt l ip % 16 ∧ byteAt l (ip + 9) = 17 ∧ beAt l (ip + 6) 2 % 2 ^ 13 = 0 then
      let udp := ip + 4 * (byteAt l ip % 16)
      if beAt l (udp + 2) 2 = 319 then some ⟨udp + 8, ip, udp, 4⟩ else none
    else if t = 0x86DD ∧ byteAt l ip / 16 = 6 ∧ byteAt l (ip + 6) = 17 ∧ beAt l (ip + 42) 2 = 319 then
      some ⟨ip + 48, ip, ip + 40, 6⟩
    else none
  match r with
  | some a => if byteAt l a.hdr % 16 ≤ 3 ∧ a.hdr + 44 ≤ l.length then some a else none
  | none => none

/-- Correction units of a time in 2^−32 ns (R439). -/
def corrUnits (t : Nat) : Nat := t / 2 ^ 16 % 2 ^ 64

/-- Add to the correctionField of a PTP message. -/
def addCorrection (a : PtpAt) (n : Nat) (l : List Byte) : List Byte :=
  putBytes l (a.hdr + 8) (beBytes 8 ((beAt l (a.hdr + 8) 8 + n) % 2 ^ 64))

/-- The UDP checksum over IPv6, a computed 0 sent as 0xFFFF. -/
def udp6Checksum (a : PtpAt) (l : List Byte) : Nat :=
  let n := beAt l (a.udp + 4) 2
  let c := csum16 (sum16 ((l.drop (a.ip + 8)).take 32) + n + 17 + sum16 ((putBytes l (a.udp + 6) [0, 0]).drop a.udp |>.take n))
  if c = 0 then 0xFFFF else c

/-- The UDP checksum after a rewrite (R439). -/
def fixUdp (a : PtpAt) (l : List Byte) : List Byte :=
  if a.ver = 4 then putBytes l (a.udp + 6) [0, 0]
  else if a.ver = 6 then putBytes l (a.udp + 6) (beBytes 2 (udp6Checksum a l))
  else l

/-- The egress treatment of Table 15-2 on port `n` at transmit time `t`: the bytes that leave, and the TSU counter that counts
the change. -/
def ptpRewrite (n t : Nat) (p : Pkt) (s : State) : List Byte × Option Nat :=
  let cfg := s.rp pTsu (0x200 + 8 * n)
  match ptpEvent p.bytes with
  | none => (p.bytes, none)
  | some a =>
    let ty := byteAt p.bytes a.hdr % 16
    if !bit cfg 0 then (p.bytes, none)
    else if bit cfg 1 && decide (p.src = 9 ∨ p.src = 10) && ty == 0 then
      let l := putBytes p.bytes (a.hdr + 34) (beBytes 6 (t / nsUnit / 1000000000) ++ beBytes 4 (t / nsUnit % 1000000000))
      (fixUdp a (addCorrection a (t / 2 ^ 16 % 2 ^ 16) l), some 5)
    else if bit cfg 1 && decide (p.src = 9 ∨ p.src = 10) && ty == 3 then
      (fixUdp a (addCorrection a (corrUnits t) p.bytes), some 6)
    else if bit cfg 2 && decide (p.src < 8) then
      let ing := (p.sec.toNat * 1000000000 + p.ns.toNat) * 2 ^ 16 + p.frac
      let now := ((t / nsUnit / 1000000000) % 2 ^ 32 * 1000000000 + t / nsUnit % 1000000000) * 2 ^ 16 + t / 2 ^ 16 % 2 ^ 16
      (fixUdp a (addCorrection a ((now + 2 ^ 64 - ing % 2 ^ 64) % 2 ^ 64) p.bytes), some 6)
    else (p.bytes, none)

/-! ### Transmission (R361, R362) -/

/-- A transmit timestamp enters the queue, or is discarded when 64 are held (R362) or when it is
poisoned (R497). -/
def stamp (n t id : Nat) (s : State) : State :=
  let a := transit 0x8E s
  let b := transit 0x9D a.2
  let s := b.2
  let x := s.port n
  if a.1 || b.1 then raise (pMac n) 4 (macCount n 52 1 s)
  else if x.tsq.length < 64 then
    let e : TsEntry := ⟨id, t / nsUnit / 1000000000 / 2 ^ 32 % 256, word (t / nsUnit / 1000000000),
      word (t / nsUnit % 1000000000), t / 2 ^ 16 % 2 ^ 16⟩
    let s := macCount n 51 1 (s.setPort n { x with tsq := x.tsq ++ [e] })
    if x.tsq.isEmpty then raise (pMac n) 3 s else s
  else raise (pMac n) 4 (macCount n 52 1 s)

/-- Count a frame that has left (Table 12-7). -/
def countSent (n : Nat) (l : List Byte) (segment : Bool) (s : State) : State :=
  let len := l.length + 4
  let s := macCount n 33 1 (macCount n 32 len s)
  let s := macCount n (34 + castOf l) 1 s
  let s := if isTagged l then macCount n 37 1 s else s
  let s := macCount n (40 + sizeBucket len) 1 s
  if segment then macCount n 50 1 s else s

/-- FRAME_TRANSMIT: the oldest frame released toward client port `n` leaves, its SFD crossing the balls now. `poisoned` is poison
met in the transmit edge FIFO, which inverts the FCS (R497); `fifo14Full` is a timestamp that edge FIFO 14 discards (R182).
A frame whose link has fallen meanwhile is discarded (R347). -/
def execFrameTransmit (n : Nat) (poisoned fifo14Full : Bool) (s : State) : Result State := whenOn s <|
  let n := n % 8
  match (s.port n).txq with
  | [] => .next s
  | p :: q =>
    let s := s.setPort n { s.port n with txq := q }
    if !macLink n s then .next (freed [p] (macCount n 54 1 (dropAt .linkDown p.slice n (some p) 0 s)))
    else
      let t := s.tsu.time + s.fld (regAddr pTsu (0x204 + 8 * n)) 0 16 * 2 ^ 28
      let l := padFrame p.bytes
      let r := ptpRewrite n t { p with bytes := l } s
      let s := match r.2 with
        | some c => countAt pTsu 0x300 0x130 9 40 c 1 s
        | none => s
      let x := transit (0x90 + n) s
      let s := countSent n r.1 p.segment (x.2.emit (.client n r.1 (poisoned || x.1)))
      let s := match p.tsId with
        | none => s
        | some id =>
          if fifo14Full then raise pPwr 6 (s.bump (regAddr pPwr (0x400 + 4 * 14)) 1) else stamp n t id s
      .next (freed [p] s)

/-! ### The timestamp queue (R362 to R364, Table 12-6) -/

/-- MAC_TSQ_E0 to E3 of a port's head entry. -/
def tsqWord (n i : Nat) (s : State) : Word :=
  match (s.port n).tsq with
  | [] => 0
  | e :: _ =>
    match i with
    | 0 => word (e.id + 65536 + e.secHi * 2 ^ 24)
    | 1 => e.sec
    | 2 => e.ns
    | _ => word e.frac

/-- What a read of MAC_TSQ_E3 does (R363). -/
def tsqPop (n : Nat) (s : State) : State :=
  match (s.port n).tsq with
  | [] => s
  | _ :: t => (s.setPort n { s.port n with tsq := t }).bumpFld (regAddr (pMac n) 0x160) 16 16 1

/-- Discard the timestamps of port `n` (R364, R369). -/
def flushTsq (n : Nat) (s : State) : State :=
  let k := (s.port n).tsq.length
  macCount n 53 k (s.setPort n { s.port n with tsq := [] })

/-- TSQ_POP: a master reads MAC_TSQ_E3. -/
def execTsqPop (m : AB) (n : Nat) (s : State) : Result State := whenOn s <|
  let n := n % 8
  .next (runRead m (pMac n) 0x170 (tsqWord n 3 s) (tsqPop n) s)

/-! ### Register writes (R346, R352, R354) -/

/-- What a port advertises by clause 37 auto-negotiation, while AN37 is set: full duplex and symmetric pause (R346). -/
def advertised (n : Nat) (s : State) : Option (Bool × Bool) :=
  if s.flag (regAddr (pMac n) 0x100) 5 then some (true, s.fld (regAddr (pMac n) 0x10C) 0 2 == 1) else none

/-- MAC_FC and MAC_PFC_UNTAGGED: flow control looks at the held cells again (R352, R354). -/
def macFcHandler (n off : Nat) : Handler :=
  { plain (pMac n) off with
    run := fun _ v s =>
      let t := storeReg (pMac n) off v s
      pauseCheck n (if off = 0x10C ∧ bits v 0 2 ≠ s.fld (regAddr (pMac n) 0x10C) 0 2 then endPauses n t else t) }

/-- MAC_MODE (R346). -/
def macModeHandler (n : Nat) : Handler :=
  { plain (pMac n) 0x100 with
    range := fun _ v s =>
      s.pstate (pMac n) != .idle || (bit v 4 && bits v 0 2 != 3) || (bit v 5 && bits v 0 2 != 1)
    run := fun _ v s => linkUpdate n (storeReg (pMac n) 0x100 v s) }

/-- MAC_XOFF and MAC_XON: XON stays below XOFF (R354). -/
def macXHandler (n off : Nat) : Handler :=
  { plain (pMac n) off with
    range := fun _ v s =>
      if off = 0x118 then decide (bits v 0 19 ≤ s.fld (regAddr (pMac n) 0x11C) 0 19)
      else decide (s.fld (regAddr (pMac n) 0x118) 0 19 ≤ bits v 0 19)
    run := fun _ v s => pauseCheck n (storeReg (pMac n) off v s) }

/-- MAC_MODE_WRITE. -/
def execMacModeWrite (m : AB) (n : Nat) (v : Word) (s : State) : Result State := whenOn s <|
  let n := n % 8
  .next (writeReg m (pMac n) 0x100 (macModeHandler n) v s)

end Sys2Proof.Machine
end

