-- ==== Sys2Proof/Machine/Seg.lean ====
section
/-!
DEFINITION. Sends of the host port (R356 to R360, R168): the refusals of Table 12-4, segmentation with rewritten headers, and
checksum offload.
-/

namespace Sys2Proof.Machine

/-- A send descriptor (Table 12-3). -/
structure SendDesc where
  tsId : Nat
  queue : Nat
  node : Nat
  tsReq : Bool
  direct : Bool
  seg : Bool
  ipCsum : Bool
  mss : Nat
  l4Csum : Bool
  hdrLen : Nat
  l3Off : Nat
  l4Off : Nat
  l3 : Nat
  l4 : Nat

/-- The fields of a descriptor; words that are not there read 0. -/
def sendDesc (d : List Word) : SendDesc :=
  let a := d.getD 0 0
  let b := d.getD 1 0
  let c := d.getD 2 0
  ⟨bits a 0 16, bits a 16 3, bits a 20 8, bit a 28, bit a 29, bit a 30, bit a 31, bits b 0 14, bit b 14, bits b 16 8,
    bits c 0 8, bits c 8 8, bits c 16 2, bits c 18 2⟩

/-- The longest single frame that a slice's ports take (Table 12-4, cause 3). -/
def maxSend (k : Nat) (s : State) : Nat :=
  let l := ((List.range 8).filter (fun n => bit (s.slc k 0x108) n)).map (fun n => s.fld (regAddr (pMac n) 0x108) 0 14)
  (if l.isEmpty then 9600 else l.foldl max 0) - 4

/-- A reserved descriptor bit or word is not 0 (Table 12-4, cause 1); 3 is a reserved value of L3 and L4. -/
def descReserved (d : List Word) : Bool :=
  (d.getD 0 0 &&& 0x00080000) != 0 || (d.getD 1 0 &&& 0xFF008000) != 0 || (d.getD 2 0 &&& 0xFFF00000) != 0 ||
    (d.drop 3).any (fun w => w != 0) || bits (d.getD 2 0) 16 2 == 3 || bits (d.getD 2 0) 18 2 == 3

/-- Bytes of the IP header before the layer 4 header. -/
def l3Size (x : SendDesc) : Nat := if x.l3 = 2 then 40 else 20

/-- Bytes of the layer 4 header. -/
def l4Size (x : SendDesc) : Nat := if x.l4 = 1 then 20 else 8

/-- Cause 5 of Table 12-4, with HDR_LEN as the descriptor gives it. A descriptor that names no layer 4 header has no L4_OFF in the order
(assumption 81). -/
def offsetsBad (x : SendDesc) : Bool :=
  (x.l3 == 0 && x.l4 != 0) ||
    (x.l3 != 0 && x.l4 != 0 && !(decide (x.l3Off + l3Size x ≤ x.l4Off ∧ x.l4Off + l4Size x ≤ x.hdrLen))) ||
    (x.l3 != 0 && x.l4 == 0 && !(decide (x.l3Off + l3Size x ≤ x.hdrLen)))

/-- The lowest cause of Table 12-4 for which a send is refused; 0 where none holds. -/
def sendRefusal (k : Nat) (d : List Word) (late : Bool) (l : List Byte) (s : State) : Nat :=
  let x := sendDesc d
  let total := l.length
  if descReserved d then 1
  else if late || ((x.seg || x.ipCsum || x.l4Csum) && decide (d.length < 3)) then 2
  else if !x.seg && decide (total < 14 ∨ maxSend k s < total) then 3
  else if x.seg && decide (x.hdrLen < 14 ∨ 254 < x.hdrLen ∨ x.mss < 64 ∨ 9000 < x.mss ∨ 9600 < x.hdrLen + x.mss + 4 ∨
      total ≤ x.hdrLen) then 4
  else if offsetsBad x then 5
  else if x.seg && decide (beAt l (typeOffset x.hdrLen l 12) 2 < 0x0600) then 6
  else if x.l3 == 1 && decide (beAt l (x.l3Off + 6) 2 % 2 ^ 14 ≠ 0) then 7
  else if x.direct && decide ((s.nodes k).2 ≤ x.node) then 8
  else 0

/-- Put a 16-bit value at an offset. -/
def put16 (o n : Nat) (l : List Byte) : List Byte := putBytes l o (beBytes 2 (n % 65536))

/-- Recompute the IPv4 header checksum. -/
def fixIpv4 (x : SendDesc) (l : List Byte) : List Byte :=
  let n := 4 * (byteAt l x.l3Off % 16)
  let z := put16 (x.l3Off + 10) 0 l
  put16 (x.l3Off + 10) (csum16 (sum16 ((z.drop x.l3Off).take n))) z

/-- The pseudo-header sum of layer 4 over `n` bytes with protocol `proto`. -/
def pseudoSum (x : SendDesc) (n proto : Nat) (l : List Byte) : Nat :=
  let a := if x.l3 = 1 then (l.drop (x.l3Off + 12)).take 8 else (l.drop (x.l3Off + 8)).take 32
  sum16 a + n / 65536 + n % 65536 + proto

/-- Recompute the TCP or UDP checksum; a computed UDP value of 0 is sent as 0xFFFF (R358). -/
def fixL4 (x : SendDesc) (l : List Byte) : List Byte :=
  let n := l.length - x.l4Off
  let o := x.l4Off + (if x.l4 = 1 then 16 else 6)
  let z := put16 o 0 l
  let c := csum16 (pseudoSum x n (if x.l4 = 1 then 6 else 17) z + sum16 (z.drop x.l4Off))
  put16 o (if x.l4 = 2 ∧ c = 0 then 0xFFFF else c) z

/-- Segment `k` of a send (R358): `body` its payload, `last` its being the last. -/
def segment (x : SendDesc) (tmpl body : List Byte) (k : Nat) (last : Bool) : List Byte :=
  let l := tmpl ++ body
  let l :=
    if x.l3 = 1 then
      put16 (x.l3Off + 4) (beAt tmpl (x.l3Off + 4) 2 + k) (put16 (x.l3Off + 2) (x.hdrLen - x.l3Off + body.length) l)
    else if x.l3 = 2 then put16 (x.l3Off + 4) (x.hdrLen - x.l3Off - 40 + body.length) l
    else l
  let l :=
    if x.l4 = 1 then
      let f := byteAt tmpl (x.l4Off + 13)
      let f := if last then f else f &&& 0xF6
      let f := if k = 0 then f else f &&& 0x7F
      putBytes (putBytes l (x.l4Off + 4) (beBytes 4 ((beAt tmpl (x.l4Off + 4) 4 + k * x.mss) % 2 ^ 32))) (x.l4Off + 13)
        [BitVec.ofNat 8 f]
    else if x.l4 = 2 then put16 (x.l4Off + 4) (x.hdrLen - x.l4Off + body.length) l
    else l
  let l := if x.l3 = 1 then fixIpv4 x l else l
  if x.l4 = 0 then l else fixL4 x l

/-- The segments of a payload, from number `k` on (R358). -/
def segments (x : SendDesc) (tmpl : List Byte) : Nat → Nat → List Byte → List (List Byte)
  | 0, _, _ => []
  | fuel + 1, k, body =>
    if body.length ≤ x.mss then [segment x tmpl body k true]
    else segment x tmpl (body.take x.mss) k false :: segments x tmpl fuel (k + 1) (body.drop x.mss)

/-- The frames of an accepted send (R358); without SEG a checksum request is ignored when L3 or L4 is 0 (R359). -/
def sendFrames (d : List Word) (l : List Byte) : List (List Byte) :=
  let x := sendDesc d
  if x.seg then segments x (l.take x.hdrLen) l.length 0 (l.drop x.hdrLen)
  else
    let l := if x.ipCsum && x.l3 == 1 && x.l4 != 0 then fixIpv4 x l else l
    [if x.l4Csum && x.l4 != 0 && x.l3 != 0 then fixL4 x l else l]

/-- One frame of a send enters classification, or the queue that a DIRECT send names (R360). Only the first frame is timestamped
(R361). A host port that is not in service takes no frame (Table 5-6). -/
def sendFrame (k : Nat) (d : List Word) (i : Nat) (l : List Byte) (s : State) : State :=
  let x := sendDesc d
  let mark := fun (p : Pkt) => { p with
    segment := x.seg, tsId := if x.tsReq && i == 0 then some x.tsId else none }
  let l := padFrame l
  let p := mark (mkPkt 9 k l s)
  if !bit (s.slc k 0x108) 8 then dropSrc .portDown p 0 s
  else if x.direct then
    if s.mode.code = 1 ∧ bit (s.slc k 0x100) 0 = false then dropSrc .modeBlock p 0 s
    else (enqueue x.node x.queue 0 false p s).1
  else ingress 9 k l mark s

/-- Segmentation hands over its next frame (R360). -/
def segNext (s : State) : State :=
  match s.seg with
  | [] => s
  | x :: t => sendFrame x.slice x.desc x.num x.bytes { s with seg := t }

/-- Segmentation hands over every frame that it still has, in order; the microsecond of a step on an empty queue does it
(assumption 14). -/
def segRun : Nat → State → State
  | 0, s => s
  | n + 1, s => segRun n (segNext s)

/-- The status with which a DATA_TX for slice `k` is refused because of the slice's state (R168, R77). -/
def sliceRefusal (k : Nat) (s : State) : Option Status :=
  if s.sliceState k = .active then none else if busyState (s.sliceState k) then some .busy else some .denied

/-- A whole send reaches the host port of slice `k` (R357, R367): the state and the status of the whole send. One frame leaves
segmentation at once, and the others follow one at a time. -/
def hostSend (k tag : Nat) (d : List Word) (late : Bool) (l : List Byte) (s : State) : State × Status :=
  if s.pstate pSeg ≠ .active then (s, .busy)
  else
    let c := sendRefusal k d late l s
    if c ≠ 0 then
      let s := dropAt .segBad k 9 none 0 (s.bump (regAddr pSeg 0x108) 1)
      (raise pSeg 0 (s.wp pSeg 0x10C (word (c + k * 256 + tag % 65536 * 65536))), .range)
    else
      let fs := sendFrames d l
      let s := (s.bump (regAddr pSeg 0x100) 1).bump (regAddr pSeg 0x104) fs.length
      (segNext { s with seg := s.seg ++ fs.zipIdx.map (fun x => ⟨k, d, x.2, x.1⟩) }, .ok)

end Sys2Proof.Machine
end

