-- ==== Sys2Proof/Machine/Check.lean ====
section
/-!
DEFINITION. The check channels (chapter 17): starting, feeding and reading a computation, by a master or a sequencer.
-/

namespace Sys2Proof.Machine

/-- The computation of channel `n`. -/
def State.chan (s : State) (n : Nat) : Chk := tblGet Chk.none n s.chk

/-- Replace the computation of channel `n`. -/
def State.setChan (s : State) (n : Nat) (x : Chk) : State := { s with chk := tblSet Chk.none n x s.chk }

/-- The parameters that a channel's registers hold. -/
def chanParam (n : Nat) (s : State) : CrcParam :=
  let cfg := s.rp (pChk n) 0x104
  ⟨bits cfg 0 6, (s.rp (pChk n) 0x100).toNat, (s.rp (pChk n) 0x108).toNat, bit cfg 8, bit cfg 9, bit cfg 10⟩

/-- CHK_LEN. -/
def chanLen (n : Nat) (s : State) : Nat := bits (s.rp (pChk n) 0x10C) 0 16

/-- Count in a channel's counter `i`. -/
def chanCount (n i w k : Nat) (s : State) : State := countAt (pChk n) 0x200 0x1F0 3 w i k s

/-- A channel takes no start and no feed while its page is FENCED or DRAINING (R486, R490). -/
def chanClosed (n : Nat) (s : State) : Bool :=
  match s.pstate (pChk n) with
  | .draining | .fenced => true
  | _ => false

/-- The channel moves to COMPLETE; a computation that a master started raises COMPLETE. -/
def chanComplete (n : Nat) (s : State) : State :=
  let c := s.chan n
  let s := s.setChan n { c with state := .complete }
  if c.starter < 2 then raise (pChk n) 0 s else s

/-- A feed or start is rejected whole (R482). -/
def chanReject (n : Nat) (s : State) : State :=
  let c := s.chan n
  raise (pChk n) 1 (chanCount n 2 40 1 (s.setChan n { c with reject := true }))

/-- A start by `starter`, with the bytes of a folded context word (R481). -/
def chanStart (n starter : Nat) (fold : Option Word) (s : State) : State :=
  let c := s.chan n
  let s := if c.state = .open then chanCount n 3 40 1 s else s
  let p := chanParam n s
  let r := match fold with
    | some w => crcBytes p p.init (beBytes 4 w.toNat)
    | none => p.init
  chanCount n 0 40 1 (s.setChan n ⟨r, .open, false, false, starter, 0⟩)

/-- A feed is rejected: the channel is not OPEN, is closed, or CHK_LEN would be exceeded (R482). -/
def feedRejected (n k : Nat) (s : State) : Bool :=
  let c := s.chan n
  chanClosed n s || c.state != .open || (chanLen n s != 0 && decide (chanLen n s < c.count + k))

/-- An accepted feed (R482, R483). -/
def chanFeed (n : Nat) (l : List Byte) (s : State) : State :=
  let c := s.chan n
  let s := s.setChan n { c with crc := crcBytes (chanParam n s) c.crc l, count := c.count + l.length }
  let s := chanCount n 1 48 l.length s
  if chanLen n s ≠ 0 ∧ c.count + l.length = chanLen n s then chanComplete n s else s

/-- The result over the bytes taken so far. -/
def chanResult (n : Nat) (s : State) : Word := word (crcResult (chanParam n s) (s.chan n).crc)

/-- What a read of CHK_RESULT returns (R484). -/
def chanRead (n : Nat) (s : State) : Word :=
  match (s.chan n).state with
  | .complete | .open => chanResult n s
  | .invalid | .none => 0

/-- What a read of CHK_RESULT does (R484). -/
def chanReadEffect (n : Nat) (s : State) : State :=
  let c := s.chan n
  match c.state with
  | .complete => s.setChan n { c with read := true }
  | .open =>
    if chanLen n s = 0 then
      let s := chanComplete n s
      s.setChan n { s.chan n with read := true }
    else s
  | .invalid | .none => s

/-- CHK_STATUS. -/
def chanStatus (n : Nat) (s : State) : Word :=
  let c := s.chan n
  word (c.state.code + b2n c.read * 4 + b2n c.reject * 8 + c.starter * 16 + satAdd 65535 c.count 0 * 65536)

/-- An OPEN computation becomes INVALID (R485); any other is kept. -/
def chanInvalidate (n : Nat) (s : State) : State :=
  let c := s.chan n
  if c.state = .open then raise (pChk n) 2 (chanCount n 4 40 1 (s.setChan n { c with state := .invalid })) else s

/-- CHK_POLY, CHK_CFG and CHK_INIT (R478, R479). -/
def chanCfgHandler (n off : Nat) : Handler :=
  { plain (pChk n) off with
    range := fun _ v s =>
      let w := bits (s.rp (pChk n) 0x104) 0 6
      n != 0 && ((s.chan n).state == .open ||
        (off == 0x100 && (decide (2 ^ w ≤ v.toNat) || !bit v 0)) || (off == 0x108 && decide (2 ^ w ≤ v.toNat))) }

/-- CHK_LEN (Table 17-1). -/
def chanLenHandler (n : Nat) : Handler :=
  { plain (pChk n) 0x10C with range := fun _ _ s => (s.chan n).state == .open }

/-- CHK_START (R481). A start on a fenced channel is rejected (R490). -/
def chanStartHandler (n : Nat) : Handler :=
  { plain (pChk n) 0x114 with
    run := fun m v s =>
      if !bit v 0 then s
      else chanStart n m.num (if bit v 1 then some (s.rp (pChk n) 0x110) else none) s
    range := fun _ v s => bit v 0 && chanClosed n s
    onRange := fun s => chanReject n s }

/-- A feed register of `k` bytes (R482). -/
def chanFeedHandler (n off k : Nat) : Handler :=
  { plain (pChk n) off with
    range := fun _ _ s => feedRejected n k s
    run := fun _ v s => chanFeed n (beBytes k v.toNat) s
    onRange := fun s => chanReject n s }

/-- A master's feed (R482). -/
def masterFeed (m : AB) (n off k : Nat) (v : Word) (s : State) : State :=
  writeReg m (pChk n) off (chanFeedHandler n off k) v s

/-- CHK_START: a master starts a computation. -/
def execChkStart (m : AB) (n : Nat) (fold : Bool) (s : State) : Result State := whenOn s <|
  .next (writeReg m (pChk n) 0x114 (chanStartHandler n) (word (1 + 2 * b2n fold)) s)

/-- CHK_FEED_B: a master feeds one byte. -/
def execChkFeedByte (m : AB) (n : Nat) (v : Word) (s : State) : Result State := whenOn s <| .next (masterFeed m n 0x120 1 v s)

/-- CHK_FEED_H: a master feeds two bytes. -/
def execChkFeedHalf (m : AB) (n : Nat) (v : Word) (s : State) : Result State := whenOn s <| .next (masterFeed m n 0x124 2 v s)

/-- CHK_FEED_W: a master feeds four bytes. -/
def execChkFeedWord (m : AB) (n : Nat) (v : Word) (s : State) : Result State := whenOn s <| .next (masterFeed m n 0x128 4 v s)

end Sys2Proof.Machine
end

