-- ==== Sys2Proof/Machine/Seq.lean ====
section
/-!
DEFINITION. The sequencers' instructions (chapter 16) and what a master does to a sequencer.

An instruction command stands for the execution, by sequencer `n`, of that instruction at its PC; it does nothing while the
sequencer does not run or waits.
-/

namespace Sys2Proof.Machine

/-! ### Registers (R460) -/

/-- A general register; g0 reads 0. -/
def Seq.reg (q : Seq) (r : BitVec 5) : Word := if r.toNat = 0 then 0 else tblGet 0 r.toNat q.g

/-- A general register written; g0 keeps nothing. -/
def Seq.setReg (q : Seq) (r : Nat) (v : Word) : Seq := if r % 32 = 0 then q else { q with g := tblSet 0 (r % 32) v q.g }

/-- A register of sequencer `n`. -/
def seqReg (n : Nat) (r : BitVec 5) (s : State) : Word := (s.seq n).reg r

/-- Write a register of sequencer `n`. -/
def setSeqReg (n : Nat) (r : BitVec 5) (v : Word) (s : State) : State := s.setSeq n ((s.seq n).setReg r.toNat v)

/-! ### Completion, faults, inconsistent instructions (R469, R470) -/

/-- The instruction is complete: it is counted and PC moves on. -/
def seqGoto (n pc : Nat) (s : State) : State :=
  seqCount n 0 1 (s.setSeq n { s.seq n with pc := pc % 2 ^ 32 })

/-- The instruction is complete and the next one follows. -/
def seqNext (n : Nat) (s : State) : State := seqGoto n ((s.seq n).pc + 4) s

/-- A sequencer stops with a fault at the present instruction; POISON and TIMEOUT start its self-test (R470, R471). -/
def seqFault (n code : Nat) (s : State) : State :=
  let q := s.seq n
  let s := s.setSeq n { q with run := .faulted, lastFault := code, faultPc := q.pc, wait := none }
  let s := recordFault (pSeq n) (0x0600 + code) (word (code + q.pc % 65536 * 65536)) 0 s
  let s := raise (pSeq n) 1 s
  if code = 4 ∨ code = 6 then startUnitTest (pSeq n) 0xFF s else s

/-- A reference of the sequencer outside its slice: fault SEP and the Separator's record (R150, R470). -/
def seqSep (n k ref : Nat) (v : Word) (s : State) : State := seqFault n 2 (sepRecord k ref 0x50 n v s)

/-- An armed timer with free values. -/
def freeTimer (a p l f : Word) : SeqTimer := ⟨bit f 0, bit f 0 && bit a 0, if bit f 0 then p.toNat else 0, if bit f 0 then l.toNat else 0⟩

/-- An inconsistent instruction (R469): g1 to g31, PC, the sequencer's memories, its timers and its user counters take free values,
and it stops with ILLEGAL or goes on. -/
def seqIllegal (n : Nat) (s : State) : State :=
  let q := s.seq n
  let b := s.free
  let w := fun (i : Nat) => Config.freeWord (b + i)
  let s := { s with free := b + 64 }
  let g := (List.range 31).foldl (fun t i => tblSet 0 (i + 1) (w (i + 1)) t) ([] : Tbl Word)
  let tm := (List.range 4).foldl (fun t i =>
    tblSet SeqTimer.off i (freeTimer (w (33 + 4 * i)) (w (34 + 4 * i)) (w (35 + 4 * i)) (w (36 + 4 * i))) t) ([] : Tbl SeqTimer)
  let m := fun (i : Nat) => SeqMem.mk [] (some (b + i))
  let s := s.setSeq n { q with g := g, pc := (w 32).toNat, timers := tm, dmem := m 0, txbuf := m 1, rxbuf := m 2 }
  let s := (List.range 8).foldl (fun s i =>
    s.setCtr (regAddr (pSeq n) (0x200 + 8 * (7 + i))) (((w (49 + i)).toNat * 2 ^ 8 + (w (57 + i)).toNat % 2 ^ 8))) s
  if bit (w 0) 0 then
    let f := seqFault n 1 (s.setSeq n { s.seq n with pc := q.pc })
    f.setSeq n { f.seq n with pc := (w 32).toNat }
  else s

/-! ### Memories (Table 16-1, Table 18-1) -/

/-- The slice of a sequencer. -/
def seqOf (n : Nat) (s : State) : Nat := (s.seqSlice n).getD 0

/-- The row and word of a sequencer memory that hold an address (Table 16-1), the regions in the order that Table 18-1 names them. -/
def seqLoc (n a : Nat) : MemLoc :=
  let r := if a < 0x4000 then a / 64 else if a < 0x5000 then 384 + (a - 0x4000) / 64 else 416 + (a - 0x5000) / 64
  ⟨0x70 + n, 0, r, a % 64 / 8⟩

/-- An access of `k` bytes lies in a region of Table 16-1 and is aligned (R454). -/
def seqAddrOk (store : Bool) (a k : Nat) : Bool :=
  a % k == 0 && (decide (a < 0x2000) || decide (0x4000 ≤ a ∧ a < 0x4800) || (!store && decide (0x5000 ≤ a ∧ a < 0x6000)))

/-- The bytes at an address. -/
def Seq.bytes (q : Seq) (a k : Nat) : List Byte :=
  if a < 0x4000 then q.dmem.read a k
  else if a < 0x5000 then q.txbuf.read (a - 0x4000) k
  else q.rxbuf.read (a - 0x5000) k

/-- Write bytes at an address of DMEM or TXBUF. -/
def Seq.putBytes (q : Seq) (a : Nat) (l : List Byte) : Seq :=
  if a < 0x4000 then { q with dmem := q.dmem.write a l } else { q with txbuf := q.txbuf.write (a - 0x4000) l }

/-- Read the row of an address on demand; whether its word is poisoned. -/
def seqTouch (n a : Nat) (s : State) : State × Bool :=
  let l := seqLoc n a
  let s := readRow l.mem l.bank l.row (seqOf n s) s
  (s, s.ecc.poison.any (fun x => x == l))

/-- Store bytes: a write of part of a poisoned word sets its other bits to 0 (R492), and an armed flip may land (R509). -/
def seqStore (n a : Nat) (l : List Byte) (s : State) : State :=
  let loc := seqLoc n a
  let s :=
    if s.ecc.poison.any (fun x => x == loc) then
      eccCount 4 1 (s.setSeq n ((s.seq n).putBytes (a / 8 * 8) (List.replicate 8 0)))
    else s
  wroteWord loc (seqOf n s) (s.setSeq n ((s.seq n).putBytes a l))

/-! ### Fetching (R455, R456) -/

/-- Keep at most `k` further lines of a set. -/
def trimSet (x : Nat) : Nat → List (Nat × List Byte) → List (Nat × List Byte)
  | _, [] => []
  | k, e :: t =>
    if e.1 % 64 = x then
      match k with
      | 0 => trimSet x 0 t
      | j + 1 => e :: trimSet x j t
    else e :: trimSet x k t

/-- The most recently used line first; the least recently used line of a full set goes. -/
def cachePut (line : Nat) (l : List Byte) (c : List (Nat × List Byte)) : List (Nat × List Byte) :=
  (line, l) :: trimSet (line % 64) 3 (c.filter (fun e => e.1 != line))

/-- The row that holds the lines of a set in the cache's memory. -/
def cacheLoc (n line : Nat) : MemLoc := ⟨0x70 + n, 0, 128 + 4 * (line % 64), 0⟩

/-- A line is fetched from LPDDR4X; one that ends beyond the slice's region is refused (reference 7 of Table 5-2). -/
def fillLine (n line : Nat) (s : State) : State :=
  let o := (s.rp (pSeq n) 0x110).toNat + 64 * line
  if (s.region (seqOf n s)).2 < o + 64 then seqSep n (seqOf n s) 7 (word ((s.region (seqOf n s)).1 + o)) s
  else
    let a := (s.region (seqOf n s)).1 + (s.rp (pSeq n) 0x110).toNat + 64 * line
    let q := s.seq n
    let s := s.setSeq n { q with cache := cachePut line (s.dramBytes a 64) q.cache }
    wroteWord (cacheLoc n line) (seqOf n s) (seqCount n 1 1 s)

/-- The line of PC is brought into the cache, or found there; a poisoned line is fetched again (Table 18-1). -/
def fetchLine (n : Nat) (s : State) : State :=
  let q := s.seq n
  let line := q.pc / 64
  match q.cache.find? (fun e => e.1 == line) with
  | none => fillLine n line s
  | some e =>
    let c := cacheLoc n line
    let s := readRow c.mem c.bank c.row (seqOf n s) s
    if s.ecc.poison.any (fun x => x == c) then fillLine n line s
    else s.setSeq n { q with cache := cachePut line e.2 q.cache }

/-- The sequencer is at an instruction boundary and runs. -/
def seqReady (n : Nat) (s : State) : Bool := (s.seq n).run == .running && (s.seq n).wait.isNone && seqMayRun n s

/-- Execute one instruction: fetch, then `f`, or R469 when the word is inconsistent. -/
def seqExec (n : Nat) (legal : Bool) (f : Nat → State → State) (s : State) : State :=
  let n := n % 8
  if !seqReady n s then s
  else if s.fld (regAddr (pSeq n) 0x114) 0 25 ≤ (s.seq n).pc then seqFault n 3 s
  else
    let s := fetchLine n s
    if !seqReady n s then s else if legal then f n s else seqIllegal n s

/-- An instruction that writes one register from the registers. -/
def seqAlu (n : Nat) (legal : Bool) (rd : BitVec 5) (f : Seq → Word) (s : State) : State :=
  seqExec n legal (fun n s => seqNext n (setSeqReg n rd (f (s.seq n)) s)) s

/-! ### Arithmetic (Table 16-3) -/

/-- A zero-extended immediate. -/
def zext (i : BitVec 16) : Word := i.setWidth 32

/-- A sign-extended immediate. -/
def sext (i : BitVec 16) : Word := i.signExtend 32

/-- 1 or 0 as a word. -/
def boolWord (b : Bool) : Word := if b then 1 else 0

/-- ADD. -/
def execAdd (n : Nat) (rd ra rb : BitVec 5) (s : State) : Result State := whenOn s <| .next (seqAlu n true rd (fun q => q.reg ra + q.reg rb) s)
/-- SUB. -/
def execSub (n : Nat) (rd ra rb : BitVec 5) (s : State) : Result State := whenOn s <| .next (seqAlu n true rd (fun q => q.reg ra - q.reg rb) s)
/-- AND. -/
def execAnd (n : Nat) (rd ra rb : BitVec 5) (s : State) : Result State := whenOn s <| .next (seqAlu n true rd (fun q => q.reg ra &&& q.reg rb) s)
/-- OR. -/
def execOr (n : Nat) (rd ra rb : BitVec 5) (s : State) : Result State := whenOn s <| .next (seqAlu n true rd (fun q => q.reg ra ||| q.reg rb) s)
/-- XOR. -/
def execXor (n : Nat) (rd ra rb : BitVec 5) (s : State) : Result State := whenOn s <| .next (seqAlu n true rd (fun q => q.reg ra ^^^ q.reg rb) s)
/-- SHL. -/
def execShl (n : Nat) (rd ra rb : BitVec 5) (s : State) : Result State := whenOn s <|
  .next (seqAlu n true rd (fun q => q.reg ra <<< ((q.reg rb).toNat % 32)) s)
/-- SHR. -/
def execShr (n : Nat) (rd ra rb : BitVec 5) (s : State) : Result State := whenOn s <|
  .next (seqAlu n true rd (fun q => q.reg ra >>> ((q.reg rb).toNat % 32)) s)
/-- SRA. -/
def execSra (n : Nat) (rd ra rb : BitVec 5) (s : State) : Result State := whenOn s <|
  .next (seqAlu n true rd (fun q => (q.reg ra).sshiftRight ((q.reg rb).toNat % 32)) s)
/-- SLTU. -/
def execSltu (n : Nat) (rd ra rb : BitVec 5) (s : State) : Result State := whenOn s <|
  .next (seqAlu n true rd (fun q => boolWord ((q.reg ra).ult (q.reg rb))) s)
/-- SLT. -/
def execSlt (n : Nat) (rd ra rb : BitVec 5) (s : State) : Result State := whenOn s <|
  .next (seqAlu n true rd (fun q => boolWord ((q.reg ra).slt (q.reg rb))) s)
/-- MUL: the low word of the unsigned product. -/
def execMul (n : Nat) (rd ra rb : BitVec 5) (s : State) : Result State := whenOn s <| .next (seqAlu n true rd (fun q => q.reg ra * q.reg rb) s)
/-- MULHU: the high word of the unsigned product. -/
def execMulhu (n : Nat) (rd ra rb : BitVec 5) (s : State) : Result State := whenOn s <|
  .next (seqAlu n true rd (fun q => word ((q.reg ra).toNat * (q.reg rb).toNat / 2 ^ 32)) s)
/-- ADDI. -/
def execAddi (n : Nat) (rd ra : BitVec 5) (imm : BitVec 16) (s : State) : Result State := whenOn s <|
  .next (seqAlu n true rd (fun q => q.reg ra + sext imm) s)
/-- ANDI. -/
def execAndi (n : Nat) (rd ra : BitVec 5) (imm : BitVec 16) (s : State) : Result State := whenOn s <|
  .next (seqAlu n true rd (fun q => q.reg ra &&& zext imm) s)
/-- ORI. -/
def execOri (n : Nat) (rd ra : BitVec 5) (imm : BitVec 16) (s : State) : Result State := whenOn s <|
  .next (seqAlu n true rd (fun q => q.reg ra ||| zext imm) s)
/-- XORI. -/
def execXori (n : Nat) (rd ra : BitVec 5) (imm : BitVec 16) (s : State) : Result State := whenOn s <|
  .next (seqAlu n true rd (fun q => q.reg ra ^^^ zext imm) s)
/-- SHLI: imm[15:5] must be 0. -/
def execShli (n : Nat) (rd ra : BitVec 5) (imm : BitVec 16) (s : State) : Result State := whenOn s <|
  .next (seqAlu n (imm.toNat / 32 == 0) rd (fun q => q.reg ra <<< (imm.toNat % 32)) s)
/-- SHRI: imm[15:5] must be 0. -/
def execShri (n : Nat) (rd ra : BitVec 5) (imm : BitVec 16) (s : State) : Result State := whenOn s <|
  .next (seqAlu n (imm.toNat / 32 == 0) rd (fun q => q.reg ra >>> (imm.toNat % 32)) s)
/-- LUI. -/
def execLui (n : Nat) (rd : BitVec 5) (imm : BitVec 16) (s : State) : Result State := whenOn s <|
  .next (seqAlu n true rd (fun _ => zext imm <<< (16 : Nat)) s)
/-- SLTIU. -/
def execSltiu (n : Nat) (rd ra : BitVec 5) (imm : BitVec 16) (s : State) : Result State := whenOn s <|
  .next (seqAlu n true rd (fun q => boolWord ((q.reg ra).ult (zext imm))) s)

/-! ### Loads and stores (R454, R462) -/

/-- ra + imm of a load or a store. -/
def seqEa (n : Nat) (ra : BitVec 5) (imm : BitVec 16) (s : State) : Nat := (seqReg n ra s + sext imm).toNat

/-- A load of `k` bytes, zero-extended; poison is fault POISON. -/
def seqLoad (k n : Nat) (rd ra : BitVec 5) (imm : BitVec 16) (s : State) : State :=
  seqExec n true (fun n s =>
    let a := seqEa n ra imm s
    if !seqAddrOk false a k then seqIllegal n s
    else
      let r := seqTouch n a s
      if r.2 then seqFault n 4 r.1
      else seqNext n (setSeqReg n rd (word (beNat ((r.1.seq n).bytes a k))) r.1)) s

/-- A store of `k` bytes. -/
def seqSave (k n : Nat) (rs ra : BitVec 5) (imm : BitVec 16) (s : State) : State :=
  seqExec n true (fun n s =>
    let a := seqEa n ra imm s
    if !seqAddrOk true a k then seqIllegal n s
    else seqNext n (seqStore n a (beBytes k (seqReg n rs s).toNat) s)) s

/-- LW. -/
def execLw (n : Nat) (rd ra : BitVec 5) (imm : BitVec 16) (s : State) : Result State := whenOn s <| .next (seqLoad 4 n rd ra imm s)
/-- LH. -/
def execLh (n : Nat) (rd ra : BitVec 5) (imm : BitVec 16) (s : State) : Result State := whenOn s <| .next (seqLoad 2 n rd ra imm s)
/-- LB. -/
def execLb (n : Nat) (rd ra : BitVec 5) (imm : BitVec 16) (s : State) : Result State := whenOn s <| .next (seqLoad 1 n rd ra imm s)
/-- SW. -/
def execSw (n : Nat) (rs ra : BitVec 5) (imm : BitVec 16) (s : State) : Result State := whenOn s <| .next (seqSave 4 n rs ra imm s)
/-- SH. -/
def execSh (n : Nat) (rs ra : BitVec 5) (imm : BitVec 16) (s : State) : Result State := whenOn s <| .next (seqSave 2 n rs ra imm s)
/-- SB. -/
def execSb (n : Nat) (rs ra : BitVec 5) (imm : BitVec 16) (s : State) : Result State := whenOn s <| .next (seqSave 1 n rs ra imm s)

/-- An access to the slice's LPDDR4X region: `f` takes the byte address. -/
def seqExt (n : Nat) (ra : BitVec 5) (imm : BitVec 16) (f : Nat → Nat → State → State) (s : State) : State :=
  seqExec n true (fun n s =>
    let o := seqEa n ra imm s
    let k := seqOf n s
    if o % 4 ≠ 0 then seqIllegal n s
    else if (s.region k).2 < o + 4 then seqSep n k 7 (word ((s.region k).1 + o)) s
    else f n ((s.region k).1 + o) s) s

/-- LDX: the load is issued and the sequencer waits for the word. -/
def execLdx (n : Nat) (rd ra : BitVec 5) (imm : BitVec 16) (s : State) : Result State := whenOn s <|
  .next (seqExt n ra imm (fun n a s => s.setSeq n { s.seq n with run := .waiting, wait := some (.load rd.toNat a) }) s)

/-- LDX_RETURN. -/
def execLdxReturn (n : Nat) (s : State) : Result State := whenOn s <|
  let n := n % 8
  let q := s.seq n
  match q.wait with
  | some (.load rd a) => .next (seqNext n (s.setSeq n ({ q with run := .running, wait := none }.setReg rd (s.dramWord a))))
  | _ => .next s

/-- STX: posted; no later read of the sequencer can tell it from a store done at once. -/
def execStx (n : Nat) (rs ra : BitVec 5) (imm : BitVec 16) (s : State) : Result State := whenOn s <|
  .next (seqExt n ra imm (fun n a s => seqNext n (s.setDramWord a (seqReg n rs s))) s)

/-! ### Branches and jumps -/

/-- A conditional branch: offsets count in words from PC + 4. -/
def seqBranch (n : Nat) (a b : BitVec 5) (off : BitVec 16) (test : Word → Word → Bool) (s : State) : State :=
  seqExec n true (fun n s =>
    if test (seqReg n a s) (seqReg n b s) then
      seqGoto n (word ((s.seq n).pc + 4) + sext off * 4).toNat s
    else seqNext n s) s

/-- BEQ. -/
def execBeq (n : Nat) (a b : BitVec 5) (off : BitVec 16) (s : State) : Result State := whenOn s <| .next (seqBranch n a b off (fun x y => x == y) s)
/-- BNE. -/
def execBne (n : Nat) (a b : BitVec 5) (off : BitVec 16) (s : State) : Result State := whenOn s <| .next (seqBranch n a b off (fun x y => x != y) s)
/-- BLTU. -/
def execBltu (n : Nat) (a b : BitVec 5) (off : BitVec 16) (s : State) : Result State := whenOn s <|
  .next (seqBranch n a b off (fun x y => x.ult y) s)
/-- BGEU. -/
def execBgeu (n : Nat) (a b : BitVec 5) (off : BitVec 16) (s : State) : Result State := whenOn s <|
  .next (seqBranch n a b off (fun x y => y.ule x) s)

/-- JAL. -/
def execJal (n : Nat) (rd : BitVec 5) (off : BitVec 21) (s : State) : Result State := whenOn s <|
  .next (seqExec n true (fun n s =>
    let pc := word ((s.seq n).pc + 4)
    seqGoto n (pc + off.signExtend 32 * 4).toNat (setSeqReg n rd pc s)) s)

/-- JALR: a target that is no multiple of 4 is inconsistent. -/
def execJalr (n : Nat) (rd ra : BitVec 5) (imm : BitVec 16) (s : State) : Result State := whenOn s <|
  .next (seqExec n true (fun n s =>
    let t := (seqReg n ra s + zext imm).toNat
    if t % 4 ≠ 0 then seqIllegal n s
    else seqGoto n t (setSeqReg n rd (word ((s.seq n).pc + 4)) s)) s)

/-! ### Time, events and the watchdog (R463 to R465) -/

/-- RDTIME. -/
def execRdtime (n : Nat) (rd : BitVec 5) (imm : BitVec 16) (s : State) : Result State := whenOn s <|
  .next (seqExec n (decide (imm.toNat ≤ 2)) (fun n s =>
    let v := match imm.toNat with
      | 0 => s.secWord
      | 1 => s.nsWord
      | _ => word (Config.timerBase s.era + s.clock)
    seqNext n (setSeqReg n rd v s)) s)

/-- TSET: ra = 0 disarms. -/
def execTset (n : Nat) (ra : BitVec 5) (imm : BitVec 16) (s : State) : Result State := whenOn s <|
  .next (seqExec n (imm.toNat / 32 == 0 && imm.toNat / 4 % 4 == 0) (fun n s =>
    let q := s.seq n
    let us := (q.reg ra).toNat
    let t := if us = 0 then SeqTimer.off else ⟨true, imm.toNat / 16 == 1, us, us⟩
    seqNext n (s.setSeq n { q with timers := tblSet SeqTimer.off (imm.toNat % 4) t q.timers })) s)

/-- The event bits of a sequencer (R464). -/
def seqEvents (n : Nat) (s : State) : Nat :=
  let q := s.seq n
  let chk := (List.range 8).any (fun c =>
    let x := s.chan c
    x.starter == 8 + n && x.state == .complete && !x.read)
  q.events % 16 + b2n (!q.slots.isEmpty) * 16 + b2n chk * 32

/-- WAIT returns: rd is written and the latched bits returned are cleared. -/
def waitDone (n rd hit : Nat) (s : State) : State :=
  let q := s.seq n
  let q := { q with run := .running, wait := none, events := (q.events % 16) &&& (15 - hit % 16) }
  seqNext n (s.setSeq n (q.setReg rd (word hit)))

/-- WAIT: returns at once when a masked event is pending. -/
def execWait (n : Nat) (rd : BitVec 5) (imm : BitVec 16) (s : State) : Result State := whenOn s <|
  .next (seqExec n (decide (1 ≤ imm.toNat ∧ imm.toNat < 64)) (fun n s =>
    let hit := seqEvents n s &&& imm.toNat
    if hit ≠ 0 then waitDone n rd.toNat hit s
    else s.setSeq n { s.seq n with run := .waiting, wait := some (.event rd.toNat imm.toNat) }) s)

/-- WAIT_RETURN. -/
def execWaitReturn (n : Nat) (s : State) : Result State := whenOn s <|
  let n := n % 8
  match (s.seq n).wait with
  | some (.event rd mask) =>
    let hit := seqEvents n s &&& mask
    .next (if hit ≠ 0 then waitDone n rd hit s else s)
  | _ => .next s

/-- WDOG. -/
def execWdog (n : Nat) (s : State) : Result State := whenOn s <|
  .next (seqExec n true (fun n s => seqNext n (s.setSeq n { s.seq n with wdogUs := 0 })) s)

/-- EVT. -/
def execEvt (n : Nat) (imm : BitVec 16) (s : State) : Result State := whenOn s <|
  .next (seqExec n true (fun n s =>
    let a := regAddr (pSeq n) 0x120
    seqNext n (raise (pSeq n) 3 ((s.setFld a 0 16 imm.toNat).bumpFld a 16 16 1))) s)

/-- CNT. -/
def execCnt (n : Nat) (ra : BitVec 5) (imm : BitVec 16) (s : State) : Result State := whenOn s <|
  .next (seqExec n (decide (imm.toNat < 8)) (fun n s => seqNext n (seqCount n (7 + imm.toNat % 8) (seqReg n ra s).toNat s)) s)

/-- SEQ_TIMER_FIRE: an armed timer fires. -/
def execSeqTimerFire (n t : Nat) (s : State) : Result State := whenOn s <|
  let n := n % 8
  let t := t % 4
  let q := s.seq n
  let x := tblGet SeqTimer.off t q.timers
  if !x.armed then .next s
  else
    let y := if x.periodic then { x with left := x.period } else SeqTimer.off
    .next (s.setSeq n { q with timers := tblSet SeqTimer.off t y q.timers, events := (q.events % 16) ||| 2 ^ t })

/-- SEQ_WATCHDOG: SEQ_WDOG.US µs have passed without a WDOG instruction. -/
def execSeqWatchdog (n : Nat) (s : State) : Result State := whenOn s <|
  let n := n % 8
  match (s.seq n).run with
  | .running | .waiting =>
    let s := raise (pSeq n) 2 (seqCount n 6 1 (seqFault n 5 s))
    .next (if s.flag (regAddr (pSeq n) 0x118) 31 && seqMayRun n s then seqStart n s else s)
  | _ => .next s

/-! ### Frames (R466, R467) -/

/-- The status of an FSEND, the frame and the state after it. -/
def seqSend (n : Nat) (a b : Word) (s : State) : Nat × State :=
  let k := seqOf n s
  let len := bits a 0 16
  let node := bits b 16 8
  if len < 14 ∨ 2048 < len then (1, s)
  else
    let rows := (List.range 32).filter (fun r => decide (64 * r < len))
    let s := rows.foldl (fun s r => readRow (0x70 + n) 0 (384 + r) k s) s
    let bad := s.ecc.poison.any (fun x => x.mem == 0x70 + n && decide (384 ≤ x.row ∧ x.row < 416 ∧ 64 * (x.row - 384) + 8 * x.word < len))
    let l := padFrame ((s.seq n).txbuf.read 0 len)
    let mark := fun (p : Pkt) => { p with
      tsId := if bit b 1 then some (bits a 16 16) else none, fromSeq := some n, cell := if bad then .poisoned ⟨0x70 + n, 0, 0, 0⟩ else .clean }
    let p := mark (mkPkt 10 k l s)
    if bit b 0 ∧ (s.nodes k).2 ≤ node then (2, dropSepRef k 8 0x50 n (word node) p s)
    else if s.sliceState k ≠ .active then (3, dropSrc .sliceDown p 0 s)
    else if bit b 0 then (0, (enqueue node (bits b 8 3) 0 false p s).1)
    else (0, ingress 10 k l mark s)

/-- FSEND. -/
def execFsend (n : Nat) (rd ra rb : BitVec 5) (s : State) : Result State := whenOn s <|
  .next (seqExec n true (fun n s =>
    let old := s
    let r := seqSend n (seqReg n ra s) (seqReg n rb s) s
    let s := seqCount n (if r.1 = 0 then 2 else 3) 1 r.2
    wakeOn old (seqNext n (setSeqReg n rd (word r.1) s))) s)

/-- RXHEAD. -/
def execRxhead (n : Nat) (rd : BitVec 5) (s : State) : Result State := whenOn s <|
  .next (seqAlu n true rd (fun q =>
    match q.slots with
    | [] => 0xFFFFFFFF
    | (i, l) :: _ => word (i * 65536 + l)) s)

/-- RXFREE. -/
def execRxfree (n : Nat) (s : State) : Result State := whenOn s <|
  .next (seqExec n true (fun n s => seqNext n (s.setSeq n { s.seq n with slots := (s.seq n).slots.drop 1 })) s)

/-! ### Check channels (R461) -/

/-- An instruction on a channel, which must belong to the sequencer's slice (reference 8). -/
def seqChan (n c : Nat) (legal : Bool) (f : Nat → State → State) (s : State) : State :=
  seqExec n legal (fun n s => if s.chkSlice c = s.seqSlice n then f n s else seqSep n (seqOf n s) 8 (word c) s) s

/-- CSTART; a start on a channel that takes none is rejected (R486, R490). -/
def execCstart (n : Nat) (ra : BitVec 5) (imm : BitVec 16) (s : State) : Result State := whenOn s <|
  let c := imm.toNat % 8
  .next (seqChan n c (decide (imm.toNat < 16)) (fun n s =>
    seqNext n (if chanClosed c s then chanReject c s
      else chanStart c (8 + n) (if imm.toNat / 8 = 1 then some (seqReg n ra s) else none) s)) s)

/-- CFEED; a rejected feed has no other effect (R482). -/
def execCfeed (n : Nat) (ra : BitVec 5) (imm : BitVec 16) (s : State) : Result State := whenOn s <|
  let i := imm.toNat
  let c := i % 8
  let k := 2 ^ (i / 16 % 4)
  .next (seqChan n c (i / 64 == 0 && i / 8 % 2 == 0 && i / 16 != 3) (fun n s =>
    seqNext n (if feedRejected c k s then chanReject c s else chanFeed c (beBytes k (seqReg n ra s).toNat) s)) s)

/-- A CRES of a result would wait. -/
def chanWaits (c : Nat) (s : State) : Bool := (s.chan c).state == .open && chanLen c s != 0

/-- CRES: the status at once, or the result as soon as there is one (R484). -/
def execCres (n : Nat) (rd : BitVec 5) (imm : BitVec 16) (s : State) : Result State := whenOn s <|
  let c := imm.toNat % 8
  .next (seqChan n c (decide (imm.toNat < 16)) (fun n s =>
    if (s.chan c).state = .none then seqIllegal n s
    else if imm.toNat / 8 = 1 then seqNext n (setSeqReg n rd (chanStatus c s) s)
    else if chanWaits c s then s.setSeq n { s.seq n with run := .waiting, wait := some (.check rd.toNat c) }
    else seqNext n (chanReadEffect c (setSeqReg n rd (chanRead c s) s))) s)

/-- CRES_RETURN. -/
def execCresReturn (n : Nat) (s : State) : Result State := whenOn s <|
  let n := n % 8
  let q := s.seq n
  match q.wait with
  | some (.check rd c) =>
    if chanWaits c s then .next s
    else .next (seqNext n (chanReadEffect c (s.setSeq n ({ q with run := .running, wait := none }.setReg rd (chanRead c s)))))
  | _ => .next s

/-- HALT. -/
def execHalt (n : Nat) (s : State) : Result State := whenOn s <|
  .next (seqExec n true (fun n s =>
    let s := seqNext n s
    raise (pSeq n) 0 (s.setSeq n { s.seq n with run := .halted })) s)

/-- ILLEGAL_INSTRUCTION: a word that no instruction of Table 16-3 has. A word that one has is no inconsistent instruction by
itself, and nothing happens. -/
def execIllegalInstruction (n : Nat) (w : Word) (s : State) : Result State := whenOn s <|
  match seqDecode n w.toNat with
  | some _ => .next s
  | none => .next (seqExec n false (fun _ s => s) s)

/-- ICACHE_FILL: the line of PC arrives. -/
def execIcacheFill (n : Nat) (s : State) : Result State := whenOn s <|
  let n := n % 8
  let q := s.seq n
  let line := q.pc / 64
  if !seqReady n s || decide (s.fld (regAddr (pSeq n) 0x114) 0 25 ≤ q.pc) || q.cache.any (fun e => e.1 == line) then .next s
  else .next (fillLine n line s)

/-! ### What a master does (R455, R457, R459, R475) -/

/-- SEQ_CTRL. -/
def seqCtrlHandler (n : Nat) : Handler :=
  { plain (pSeq n) 0x11C with
    range := fun _ v s => bit v 0 && !seqMayRun n s
    run := fun _ v s =>
      let s := if bit v 0 then seqStart n s else s
      if bit v 1 then s.setSeq n { s.seq n with cache := [] } else s }

/-- SEQ_RESTART. -/
def execSeqRestart (m : AB) (n : Nat) (s : State) : Result State := whenOn s <|
  .next (writeReg m (pSeq (n % 8)) 0x11C (seqCtrlHandler (n % 8)) (field 0 1 1) s)

/-- SEQ_INV. -/
def execSeqInv (m : AB) (n : Nat) (s : State) : Result State := whenOn s <|
  .next (writeReg m (pSeq (n % 8)) 0x11C (seqCtrlHandler (n % 8)) (field 1 1 1) s)

/-- SEQ_ENTRY, SEQ_CODE_BASE and SEQ_CODE_SIZE (R455). -/
def seqCodeHandler (n off : Nat) : Handler :=
  { plain (pSeq n) off with
    range := fun _ v s =>
      let get := fun (o : Nat) => if o = off then v.toNat else (s.rp (pSeq n) o).toNat
      let base := get 0x110
      let size := get 0x114
      let mem := match s.seqSlice n with
        | some k => (s.region k).2
        | none => 0
      s.pstate (pSeq n) != .idle || decide (mem < base + size) || base % 64 != 0 || size % 64 != 0 || get 0x10C % 4 != 0 ||
        ((size != 0 || off == 0x10C) && decide (size ≤ get 0x10C)) }

/-- SEQ_RX_BINDn. -/
def seqBindHandler (n i : Nat) : Handler :=
  { plain (pSeq n) (0x130 + 4 * i) with
    range := fun _ v s =>
      match s.seqSlice n with
      | some k => decide ((s.ruleRange k).2 ≤ bits v 0 13)
      | none => true }

/-- The DMEM address at SEL. -/
def dmemSel (n : Nat) (s : State) : Nat := 4 * s.fld (regAddr (pSeq n) 0x124) 2 11

/-- SEL advances by 4, modulo 8 KiB. -/
def dmemStep (n : Nat) (s : State) : State := s.bumpFld (regAddr (pSeq n) 0x124) 2 11 1

/-- The word at SEL. -/
def dmemWord (n : Nat) (s : State) : Word := beWord ((s.seq n).dmem.read (dmemSel n s) 4)

/-- SEQ_DMEM_DATA. -/
def dmemHandler (n : Nat) : Handler :=
  { plain (pSeq n) 0x128 with
    range := fun _ _ s => (s.seq n).run == .running || (s.seq n).run == .waiting
    run := fun _ v s => dmemStep n (seqStore n (dmemSel n s) (beBytes 4 v.toNat) s) }

/-- A read of SEQ_DMEM_DATA. -/
def dmemRead (m : AB) (n : Nat) (win : Option Nat) (s : State) : State :=
  runReadAt m win (pSeq n) 0x128 (fun s => seqTouch n (dmemSel n s) s) (dmemWord n) (dmemStep n) s

/-- DMEM_DATA_READ. -/
def execDmemDataRead (m : AB) (n : Nat) (s : State) : Result State := whenOn s <| .next (dmemRead m (n % 8) none s)

/-- DMEM_DATA_WRITE. -/
def execDmemDataWrite (m : AB) (n : Nat) (v : Word) (s : State) : Result State := whenOn s <|
  .next (writeReg m (pSeq (n % 8)) 0x128 (dmemHandler (n % 8)) v s)

/-- CHK_RESULT_READ. -/
def execChkResultRead (m : AB) (n : Nat) (s : State) : Result State := whenOn s <|
  let n := n % 8
  .next (runReadAt m none (pChk n) 0x130 (fun s => (s, false)) (chanRead n) (chanReadEffect n) s)

/-! ### What the SEQ page shows (Table 16-5) -/

/-- SEQ_STATUS. -/
def seqStatusWord (n : Nat) (s : State) : Word :=
  let q := s.seq n
  word (q.run.code + q.lastFault * 256 + q.slots.length * 65536)

/-- SEQ_TIMERS. -/
def seqTimersWord (n : Nat) (s : State) : Word :=
  let t := fun (i : Nat) => tblGet SeqTimer.off i (s.seq n).timers
  word (((List.range 4).map (fun i => b2n (t i).armed * 2 ^ i + b2n ((t i).armed && (t i).periodic) * 2 ^ (4 + i))).sum +
    seqEvents n s * 256)

end Sys2Proof.Machine
end

