-- ==== Sys2Proof/Machine/Slices.lean ====
section
/-!
DEFINITION. Slices (chapter 5): owner masks, permits, allocation, and the drain that takes a slice or a block from ACTIVE through
DRAINING and FLUSHING to IDLE.
-/

namespace Sys2Proof.Machine

/-! ### Owner masks, permits and allocation (R144 to R149, R153) -/

/-- SLC_OWNER_k (R146). -/
def ownerHandler (k : Nat) : Handler :=
  { plain pSlc (0x100 + 4 * k) with
    range := fun _ v s => bits v 0 2 == 0 && (k == 0 || s.sliceState k != .idle) }

/-- SLC_XPERMIT_i (Table 5-5). -/
def permitHandler (i : Nat) : Handler :=
  { plain pSlc (0x200 + 4 * i) with range := fun _ v _ => bit v 0 && bits v 4 4 == bits v 8 4 }

/-- The offsets of the allocation registers (R147). -/
def allocOffs : List Nat := [0x108, 0x10C, 0x110, 0x114, 0x118, 0x11C, 0x120, 0x124, 0x128, 0x12C]

/-- Two ranges, each a first element and a count, share an element; an empty one shares nothing. -/
def rangesMeet (a b : Nat × Nat) : Bool :=
  a.2 != 0 && b.2 != 0 && decide (a.1 < b.1 + b.2 ∧ b.1 < a.1 + a.2)

/-- A range of slice `k` of `n` elements overlaps another slice's or ends past `top`. -/
def rangeBad (k top : Nat) (r : Nat × Nat) (other : Nat → Nat × Nat) : Bool :=
  r.2 != 0 && (decide (top < r.1 + r.2) || (List.range 16).any (fun j => j != k && rangesMeet r (other j)))

/-- A bit map of units gives slice `k` one that another slice holds. -/
def unitsBad (k off n : Nat) (s : State) : Bool :=
  (List.range 16).any (fun j => j != k && decide (n &&& bits (s.slc j off) 0 8 ≠ 0))

/-- The LPDDR4X region of a slice in MiB, as the registers give it. -/
def regionMib (s : State) (k : Nat) : Nat × Nat := (bits (s.slc k 0x128) 0 12, bits (s.slc k 0x12C) 0 13)

/-- The conditions of R147 under which a write of allocation register `off` returns RANGE. -/
def allocRefused (k off : Nat) (v : Word) (s : State) : Bool :=
  let mem := fun (r : Nat × Nat) =>
    rangeBad k (s.fld (regAddr pMem 0x104) 0 13) r (regionMib s) ||
      rangesMeet r (s.fld (regAddr pMem 0x110) 0 12, s.fld (regAddr pMem 0x114) 0 13)
  let reserve := fun (j : Nat) => bits (s.slc j 0x118) 0 19
  s.sliceState k != .idle ||
    (if off = 0x108 ∨ off = 0x120 ∨ off = 0x124 then unitsBad k off (bits v 0 8) s
    else if off = 0x10C then rangeBad k 256 (bits v 0 8, bits v 16 9) s.nodes
    else if off = 0x110 then
      rangeBad k 128 (bits v 0 7, bits v 8 8) (fun j => (bits (s.slc j 0x110) 0 7, bits (s.slc j 0x110) 8 8))
    else if off = 0x114 then
      rangeBad k 256 (bits v 0 8, bits v 8 9) (fun j => (bits (s.slc j 0x114) 0 8, bits (s.slc j 0x114) 8 9))
    else if off = 0x118 then
      decide (262144 < reserveSum s - reserve k + bits v 0 19 ∨ bits (s.slc k 0x11C) 0 19 < bits v 0 19)
    else if off = 0x11C then decide (bits v 0 19 < reserve k)
    else if off = 0x128 then mem (bits v 0 12, (regionMib s k).2)
    else mem ((regionMib s k).1, bits v 0 13))

/-- What follows a change of assignments, slice states or page states from `old`: sequencers start and stop (R457), client ports
follow their slice (R148, R347), and a channel whose assignment changes holds no computation (R480). -/
def settleUnits (old s : State) : State :=
  let s := seqSync old s
  let s := (List.range 8).foldl (fun s n => linkUpdate n s) s
  (List.range 8).foldl (fun s n => if s.chkSlice n = old.chkSlice n then s else s.setChan n Chk.none) s

/-- The allocation registers of slice `k` (R147, R148); a new region stops the slice's Skim ring (R423). -/
def allocHandler (k off : Nat) : Handler :=
  { plain (pSlice k 0) off with
    range := fun _ v s => allocRefused k off v s
    run := fun _ v s =>
      let t := cutCheck s (settleUnits s (storeReg (pSlice k 0) off v s))
      if off = 0x128 ∨ off = 0x12C then ringStop k t else t }

/-- SLC_SLICE_CTRL: in ATTACH a sequencer runs only while its slice is LOCAL_OK (R26, R457). -/
def localOkHandler (k : Nat) : Handler :=
  { plain (pSlice k 0) 0x100 with run := fun _ v s => settleUnits s (storeReg (pSlice k 0) 0x100 v s) }

/-- OWNER_MASK_WRITE. -/
def execOwnerMaskWrite (m : AB) (slice mask : Nat) (s : State) : Result State := whenOn s <|
  let k := slice % 16
  .next (writeReg m pSlc (0x100 + 4 * k) (ownerHandler k) (word (mask % 4)) s)

/-- XPERMIT_WRITE. -/
def execXpermitWrite (m : AB) (i : Nat) (v : Word) (s : State) : Result State := whenOn s <|
  let i := i % 32
  .next (writeReg m pSlc (0x200 + 4 * i) (permitHandler i) v s)

/-- SLICE_ALLOC_WRITE. An offset that names none of the ten registers is taken as SLC_PORTS. -/
def execSliceAllocWrite (m : AB) (slice off : Nat) (v : Word) (s : State) : Result State := whenOn s <|
  let k := slice % 16
  let off := if allocOffs.contains off then off else 0x108
  .next (writeReg m (pSlice k 0) off (allocHandler k off) v s)

/-! ### What a page drains (Table 5-4) -/

/-- The absolute nodes whose entries or queues an SCH slice page shows. -/
def pageNodes (i : PageInfo) (s : State) : List Nat :=
  let nd := s.nodes i.inst
  let rel := if i.sub < 8 then (List.range 32).map (fun j => 32 * i.sub + j)
    else (List.range 16).map (fun j => 16 * (i.sub - 8) + j)
  (rel.filter (fun m => decide (m < nd.2))).map (fun m => nd.1 + m)

/-- The absolute nodes that client port `n` serves. -/
def clientNodes (n : Nat) (s : State) : List Nat := (List.range 256).filter (fun a => nodeParent a s == 32 + n)

/-- The feeder of a doubled page. -/
def sideOf (i : PageInfo) : AB := if i.inst = 0 then .a else .b

/-- Nothing is left that a draining page goes on with (R158, R486, Table 5-4). -/
def drainEmpty (p : Nat) (s : State) : Bool :=
  match pageInfo p with
  | none => true
  | some i =>
    match i.blk with
    | .slcS => usedCells i.inst s == 0
    | .mac => (s.port i.inst).txq.isEmpty && (clientNodes i.inst s).all (fun a => (fullQueues a s).isEmpty)
    | .cls => (s.lane i.inst).q.isEmpty
    | .chuS => !s.cls.churnQ.any (fun c => c.pkt.slice == i.inst)
    | .schS => (pageNodes i s).all (fun a => (fullQueues a s).isEmpty)
    | .chk => (s.chan i.inst).state != .open
    | .seg => s.seg.isEmpty
    | .btx => !(s.btx.get (sideOf i)).bursts.any (fun b => b.started)
    | _ => true

/-- An item of an allocation whose packet is gone becomes idle content. -/
def idleItem (sel : Pkt → Bool) (i : UpItem) : UpItem :=
  match i with
  | .sdu p _ _ _ _ _ _ _ => if sel p then .idle i.size else i
  | _ => i

/-- Packets that have been pulled for a grant are freed: idle content takes their place (R158, R508). -/
def dropLine (r : Reason) (sel : Pkt → Bool) (s : State) : State :=
  let one := fun (s : State) (f : AB) =>
    let x := s.btx.get f
    s.setBtx f { x with
      bursts := x.bursts.map (fun b => { b with items := b.items.map (idleItem sel) })
      remain := x.remain.filter (fun e => !e.2.any (fun q => sel q.pkt)) }
  let s := one (one s .a) .b
  (s.buf.line.filter sel).foldl (fun s p =>
    freeLine p (dropAt r p.slice 8 (some p) 0 (if r = .flush then countFlushed p s else s))) s

/-- The cells, computations and timestamps of a slice that enters FLUSHING go (R158 steps 1, 3 and 4); its sequencers are stopped
by the state (step 2). -/
def flushSlice (k : Nat) (s : State) : State :=
  let nd := s.nodes k
  let chans := (List.range 8).filter (fun n => s.chkSlice n == some k)
  let ports := (List.range 8).filter (fun n => s.portSlice n == some k)
  let s := (List.range nd.2).foldl (fun s m => flushNode (nd.1 + m) s) s
  let s := (List.range 8).foldl (fun s n => flushPort n k s) s
  let s := dropLine .flush (fun p => p.slice == k) s
  let s := chans.foldl (fun s n => chanInvalidate n s) s
  ports.foldl (fun s n => flushTsq n s) s

/-- Flush the packets that wait on a lane. -/
def flushLane (n : Nat) (s : State) : State :=
  let q := (s.lane n).q
  settleWaiting (q.foldl (fun s p => dropSrc .flush p 0 s) (s.setLane n { s.lane n with q := [] }))

/-- Flush the frames of a client port (Table 5-4). -/
def flushMac (n : Nat) (s : State) : State :=
  let s := (clientNodes n s).foldl (fun s a => flushNode a s) s
  (List.range 16).foldl (fun s k => flushPort n k s) s

/-- The unsent segments of the sends in progress go, each counted at the egress port of the send, the host port (R367). -/
def flushSeg (s : State) : State := s.seg.foldl (fun s x => dropAt .flush x.slice 9 none 0 s) { s with seg := [] }

/-- What is left on a page when its drain ends or its block reset starts goes (Table 5-4, R88). A page that the table does not list
holds no work in flight of its own: the spec names none for the SCH and POL global pages (assumption 24). -/
def flushBlock (p : Nat) (s : State) : State :=
  match pageInfo p with
  | none => s
  | some i =>
    match i.blk with
    | .mac => flushMac i.inst s
    | .cls => flushLane i.inst s
    | .schS => (pageNodes i s).foldl (fun s a => flushNode a s) s
    | .chk => chanInvalidate i.inst s
    | .btx => btxFlush (sideOf i) s
    | .seg => flushSeg s
    | _ => s

/-! ### The drain (R157 to R163) -/

/-- The page is a slice's own SLC page. -/
def isSlicePage (p : Nat) : Option Nat :=
  match pageInfo p with
  | some i => if i.blk = .slcS then some i.inst else none
  | none => none

/-- What follows a change of page states from `old`. -/
def settle (old s : State) : State := lineSettle old (settleUnits old s)

/-- An ACTIVE page starts to drain (R157, R163); a lane leaves the spread. -/
def startDrain (p : Nat) (s : State) : State :=
  let old := s
  let s := s.setHdr p { s.hdr p with state := .draining, drain := true, drainUs := 0, limited := false, stopped := true }
  let s := match pageInfo p with
    | some i => if i.blk = .cls then laneRemove i.inst s else s
    | none => s
  settle old s

/-- The timestamps of a MAC page go when its drain passes its limit (R364). -/
def flushStamps (p : Nat) (s : State) : State :=
  match pageInfo p with
  | some i => if i.blk = .mac then flushTsq i.inst s else s
  | none => s

/-- A DRAINING page enters FLUSHING (R158); the flushed packets of a slice are counted in SLC_LAST_FLUSH. -/
def enterFlush (p : Nat) (limited : Bool) (s : State) : State :=
  let old := s
  let s := s.setHdr p { s.hdr p with state := .flushing, limited := limited }
  let s := match isSlicePage p with
    | some k =>
      let n := ((buffered s).filter (fun x => x.slice == k)).length
      (flushSlice k s).wp p 0x194 (word n)
    | none => if limited then flushStamps p (flushBlock p s) else flushBlock p s
  settle old s

/-- FLUSHING ends at IDLE with ENABLE and DRAIN clear; a slice writes SLC_LAST_DRAIN and raises DRAIN_DONE (R159, R88). -/
def finishDrain (p : Nat) (s : State) : State :=
  let old := s
  let h := s.hdr p
  let s := s.setHdr p { h with state := .idle, enable := false, drain := false }
  let s := match isSlicePage p with
    | some _ => raise p 0 (s.wp p 0x190 (word (satAdd 0xFFFFF h.drainUs 0 + b2n h.limited * 2 ^ 31)))
    | none => s
  settle old s

/-- DRAIN_QUEUES_EMPTY. -/
def execDrainQueuesEmpty (page : Nat) (s : State) : Result State := whenOn s <|
  if s.pstate page = .draining ∧ drainEmpty page s = true then .next (enterFlush page false s) else .next s

/-- DRAIN_LIMIT_EXPIRY. -/
def execDrainLimitExpiry (page : Nat) (s : State) : Result State := whenOn s <|
  if s.pstate page = .draining then .next (enterFlush page true s) else .next s

/-- FLUSH_DONE. -/
def execFlushDone (page : Nat) (s : State) : Result State := whenOn s <|
  if s.pstate page = .flushing then .next (finishDrain page s) else .next s

end Sys2Proof.Machine
end

