-- ==== Sys2Proof/Machine/Integrity.lean ====
section
/-!
DEFINITION. What follows from faults of units and rows (chapter 18): stuck handshakes, self-tests, spares, fencing, flips, and the
MEM block (R548 to R550).
-/

namespace Sys2Proof.Machine

/-! ### Fencing a buffer bank (R508, R422) -/

/-- A packet holds a cell in bank `b`. -/
def inBank (b : Nat) (p : Pkt) : Bool := p.banks.contains b

/-- The packets of one service queue that hold a cell in bank `b` are freed with reason POISON. -/
def fenceQueue (b k : Nat) (s : State) : State :=
  let gone := (s.queue k).filter (inBank b)
  if gone.isEmpty then s
  else
    let s := settleEmpty (k / 8) (s.setQueue k ((s.queue k).filter (fun p => !inBank b p)))
    freed gone (gone.foldl (fun s p => poisoned (egressPort (k / 8) p s) p s) s)

/-- The released frames of client port `n` that hold a cell in bank `b` are freed in the same way. -/
def fencePort (b n : Nat) (s : State) : State :=
  let gone := (s.port n).txq.filter (inBank b)
  if gone.isEmpty then s
  else
    let s := s.setPort n { s.port n with txq := (s.port n).txq.filter (fun p => !inBank b p) }
    freed gone (gone.foldl (fun s p => poisoned n p s) s)

/-- Bank `b` of the buffer is fenced (R508): every packet with a cell in it is freed, the cells in service shrink, and reserves are
cut when they no longer fit (R399, R422). -/
def fenceBank (b : Nat) (s : State) : State :=
  if s.buf.fenced.contains b then s
  else
    let old := s
    let s := (s.buf.queues.map Prod.fst).foldl (fun s k => fenceQueue b k s) s
    let s := (List.range 8).foldl (fun s n => fencePort b n s) s
    let s := dropLine .poison (inBank b) s
    let s := cutCheck old (raise pBuf 1 { s with buf := { s.buf with fenced := s.buf.fenced ++ [b] } })
    recordFault pBuf 0x0302 (word (b * 2 ^ 16)) 0 s

/-- Bank `b` returns to service with no cells in use (R100, R508). -/
def unfenceBank (b : Nat) (s : State) : State :=
  recordFault pBuf 0x0303 (word (b * 2 ^ 16)) 0 { s with buf := { s.buf with fenced := s.buf.fenced.filter (fun x => x != b) } }

/-! ### Stuck handshakes and timeouts (R183, R66, R506) -/

/-- The work item that a block without a rule of its own has in flight is freed as a block reset frees it (R506, R88). The message of a
mailbox page stays (Table 19-2): only a BLOCK_RESET discards it (R142). -/
def freeInFlight (p : Nat) (i : PageInfo) (s : State) : State :=
  match i.blk with
  | .mac =>
    match (s.port i.inst).txq with
    | [] => s
    | x :: t =>
      freed [x] (macCount i.inst 49 1 (dropAt .flush x.slice i.inst (some x) 0 (s.setPort i.inst { s.port i.inst with txq := t })))
  | .btx => btxFlush (sideOf i) s
  | .mbx => s
  | _ => flushBlock p s

/-- A stuck handshake or a transaction timeout in unit `unit` of page `p`: the fault, and the rules of the unit or the self-test of
the whole unit (R506). -/
def stuckUnit (p unit code : Nat) (detail : Word) (s : State) : State :=
  match pageInfo p with
  | none => s
  | some i =>
    let s := recordFault p code detail 0 s
    if (s.hdr p).testing then s
    else match i.blk with
      | .cls => if laneIn i.inst s then laneFault i.inst s else startUnitTest p 0xFF s
      | .seq => seqFault i.inst 6 s
      | .chk => startUnitTest p 0xFF (chanInvalidate i.inst s)
      | .bufG => startUnitTest p unit s
      | .slcS | .schS | .chuS => startUnitTest p 0xFF s
      | _ => startUnitTest p 0xFF (freeInFlight p i s)

/-- HANDSHAKE_STUCK: HS_STUCK, with the block code and the unit as its detail (Table 18-3). -/
def execHandshakeStuck (page unit : Nat) (s : State) : Result State := whenOn s <|
  match pageInfo page with
  | none => .next s
  | some i => .next (settle s (stuckUnit page unit 0x0201 (word (blkCode i.blk * 2 ^ 24 + unit % 256 * 2 ^ 16)) s))

/-! ### Self-tests of units (R390, R391, R471, R490, R507) -/

/-- A page enters FENCED. -/
def fencePage (p unit : Nat) (s : State) : State :=
  recordFault p 0x0302 (word (unit * 2 ^ 16)) 0 (s.setHdr p { s.hdr p with state := .fenced })

/-- A FENCED page returns: ACTIVE when its ENABLE is 1, else IDLE (R100). -/
def unfencePage (p unit : Nat) (s : State) : State :=
  let h := s.hdr p
  recordFault p 0x0303 (word (unit * 2 ^ 16)) 0 (s.setHdr p { h with state := if h.enable then .active else .idle })

/-- What the result of a unit's self-test does to the unit. -/
def unitTested (p : Nat) (pass : Bool) (s : State) : State :=
  let h := s.hdr p
  match pageInfo p with
  | none => s
  | some i =>
    match i.blk with
    | .cls =>
      if pass then
        let s := if h.state = .fenced then unfencePage p i.inst s else s
        if s.pstate p = .active then raise p 2 (laneReturn i.inst s) else s
      else
        let s := settleWaiting (laneRemove i.inst (redispatch i.inst s))
        if h.state = .fenced then s else fencePage p i.inst (raise p 1 s)
    | .seq =>
      if pass then (if h.state = .fenced then unfencePage p i.inst s else s)
      else
        let s := s.setSeq i.inst { s.seq i.inst with txbuf := SeqMem.zero, rxbuf := SeqMem.zero, slots := [] }
        if h.state = .fenced then s else fencePage p i.inst s
    | .chk =>
      if pass then (if h.state = .fenced then unfencePage p i.inst s else s)
      else if h.state = .fenced then s
      else fencePage p i.inst (chanInvalidate i.inst s)
    | .bufG =>
      let b := h.testResUnit
      if 64 ≤ b then (if pass then s else recordFault p 0x0304 (word (b * 2 ^ 16)) 0 s)
      else if pass then (if s.buf.fenced.contains b then unfenceBank b s else s)
      else fenceBank b s
    | _ => if pass then s else recordFault p 0x0304 (word (h.testResUnit * 2 ^ 16)) 0 s

/-- A lane that a master tests lets its packets complete first (R391). -/
def testWaits (p : Nat) (s : State) : Bool :=
  match pageInfo p with
  | some i => i.blk == .cls && !(s.lane i.inst).q.isEmpty
  | none => false

/-- SELFTEST_DONE: the self-test of a unit ends, started by a master or by a fault. -/
def execSelftestDone (page : Nat) (pass : Bool) (detail : Nat) (s : State) : Result State := whenOn s <|
  let h := s.hdr page
  if !h.testing || testWaits page s then .next s
  else
    let old := s
    let s := setTest page (if pass then .pass else .fail) h.testAuto h.testResUnit (detail % 65536) s
    let s := s.setHdr page { s.hdr page with testing := false }
    let w := testWord (s.hdr page)
    let s := if h.testAuto then addLog .selftest page 0 0 w s else s
    let s := if pass then s else recordFault page 0x0301 w 0 (eccCount 7 1 s)
    .next (settle old (unitTested page pass s))

/-! ### Rows, spares and classification (R502 to R505) -/

/-- The rows of two locations are the same. -/
def sameRow (a b : MemLoc) : Bool := a.mem == b.mem && a.bank == b.bank && a.row == b.row

/-- Key of a bank in the spare tables. -/
def bankKey (l : MemLoc) : Nat := 256 * l.mem + l.bank

/-- The row has reported at least ECC_REPEAT.N corrected errors within ECC_REPEAT.WINDOW hours (R503). -/
def repeated (l : MemLoc) (s : State) : Bool :=
  let r := s.rp pEcc 0x110
  let win := bits r 8 16 * 3600000000
  decide (bits r 0 8 ≤ (s.ecc.ces.filter (fun x => sameRow x.1 l && decide (s.clock < x.2 + win))).length)

/-- The bank of a lasting row has no spare left (R505). -/
def sparesOut (l : MemLoc) (s : State) : State :=
  if l.mem < 0x40 then fenceBank l.mem s
  else if 0x50 ≤ l.mem ∧ l.mem < 0x60 then laneFault (l.mem - 0x50) s
  else if 0x70 ≤ l.mem ∧ l.mem < 0x78 then startUnitTest (pSeq (l.mem - 0x70)) 0xFF s
  else
    let p := memPage l.mem l.bank
    let s := raise pEcc 3 (recordFault p 0x0106 (locWord l 0x7F) 0 s)
    recordFault p 0x0304 (word (l.bank * 2 ^ 16)) 0 s

/-- A lasting row moves to the lowest free spare of its bank, and the bank's spare map waits to be committed (R504). -/
def remapRow (l : MemLoc) (s : State) : State :=
  let used := tblGet 0 (bankKey l) s.ecc.spares
  let free := used + tblGet 0 (bankKey l) s.ecc.failed
  if 8 ≤ free then sparesOut l s
  else
    let s := { s with ecc := { s.ecc with
      spares := tblSet 0 (bankKey l) (used + 1) s.ecc.spares
      ces := s.ecc.ces.filter (fun x => !sameRow x.1 l) } }
    let s := recordFault (memPage l.mem l.bank) 0x0105 (locWord l free) (word (used + 1)) s
    nvQueue (.spares l.mem l.bank) (raise pEcc 2 (eccCount 5 1 s))

/-- TARGETED_SELFTEST_DONE: the oldest row self-test ends and the row is classed (R502, R503). -/
def execTargetedSelftestDone (pass : Bool) (s : State) : Result State := whenOn s <|
  match s.ecc.tests with
  | [] => .next s
  | l :: t =>
    let p := memPage l.mem l.bank
    let s := setTest p (if pass then .pass else .fail) true (testUnitOf l) l.row { s with ecc := { s.ecc with tests := t } }
    let s := addLog .selftest p 0 0 (testWord (s.hdr p)) s
    let s := if pass then s else eccCount 7 1 s
    if !pass || repeated l s then .next (settle s (remapRow l s)) else .next s

/-! ### Flips (R509, R510) -/

/-- ECC_FLIP_MEM: arming is refused as R510 says; a write of ARM = 0 disarms. -/
def flipMemHandler : Handler :=
  { plain pEcc 0x120 with
    range := fun m v s =>
      bit v 16 &&
        (flipScope (bits v 0 8) == .none || (flipBits s).isEmpty || s.flag (regAddr pEcc 0x120) 16 ||
          (flipScope (bits v 0 8) == .slice && !s.ownsSlice m (bits v 8 4))) }

/-- FLIP_ARM: a write of ECC_FLIP_MEM. -/
def execFlipArm (m : AB) (v : Word) (s : State) : Result State := whenOn s <| .next (writeReg m pEcc 0x120 flipMemHandler v s)

/-! ### The MEM block (R548 to R550) -/

/-- LPDDR4X training starts: MEM_STATUS.TRAIN RUNNING. -/
def startTraining (s : State) : State := s.wp pMem 0x100 (word 1)

/-- TRAIN_COMPLETE: training ends DONE with the size, ranks and rate, or FAILED with the step; a size beyond the range of R548 is
held to it. -/
def execTrainComplete (o : TrainOut) (s : State) : Result State := whenOn s <|
  if 2 ≤ s.fld (regAddr pMem 0x100) 0 2 then .next s
  else match o with
    | .done rate mib two ms =>
      let s := (s.wp pMem 0x100 (word (2 + b2n two * 16 + rate % 8 * 256))).wp pMem 0x118 (word (ms % 65536))
      .next (raise pMem 0 (s.wp pMem 0x104 (word (if 4096 < mib then 4096 else mib))))
    | .fail step ms =>
      .next (raise pMem 1 ((s.wp pMem 0x100 (word (3 + step % 16 * 65536))).wp pMem 0x118 (word (ms % 65536))))

/-- MEM_TRAIN_CMD: RETRAIN returns RANGE unless TRAIN is FAILED (R549). -/
def retrainHandler : Handler :=
  { plain pMem 0x10C with
    range := fun _ v s => bit v 0 && s.fld (regAddr pMem 0x100) 0 2 != 3
    run := fun _ v s => if bit v 0 then startTraining s else s }

/-- RETRAIN. -/
def execRetrain (m : AB) (s : State) : Result State := whenOn s <| .next (writeReg m pMem 0x10C retrainHandler (field 0 1 1) s)

/-- MEM_RSV_BASE and MEM_RSV_SIZE (R550): the region as it stands after the write is tested. -/
def reserveHandler (off : Nat) : Handler :=
  { plain pMem off with
    range := fun _ v s =>
      let base := if off = 0x110 then bits v 0 12 else s.fld (regAddr pMem 0x110) 0 12
      let size := if off = 0x114 then bits v 0 13 else s.fld (regAddr pMem 0x114) 0 13
      s.fw.stager.isSome || (size != 0 &&
        (decide (s.fld (regAddr pMem 0x104) 0 13 < base + size) ||
          (List.range 16).any (fun k => rangesMeet (base, size) (regionMib s k)))) }

/-- THERMAL_WARN: the junction temperature, in two's complement, reaches 105 °C or more. -/
def execThermalWarn (tj : Nat) (s : State) : Result State := whenOn s <|
  let s := s.setFld (regAddr pPwr 0x134) 0 8 tj
  .next (if 105 ≤ signedOf 8 (tj % 256) then raise pPwr 5 s else s)

end Sys2Proof.Machine
end

