-- ==== Sys2Proof/Machine/Blocks.lean ====
section
/-!
DEFINITION. The common page header (chapter 3): PAGE_CTRL with enable, drain and block reset, interrupts, fault records, self-tests
and locks; and the reads that take snapshots (R557).
-/

namespace Sys2Proof.Machine

/-! ### Header words (Table 3-2) -/

/-- The INT_RAW bits that a block names of its own. The CHU slice pages name none; COUNTER_HALF of their counters takes bit 0 there
(assumption 26). -/
def blkInts : Blk → Nat
  | .pwr => 8 | .bkp => 4 | .prs => 3 | .nvs => 7 | .flt => 0 | .log => 0 | .ecc => 7 | .mem => 2
  | .ctl => 4 | .sem => 7 | .mbx => 2
  | .lfr => 7 | .act => 11 | .btx => 5 | .psw => 4 | .cry => 3 | .opt => 9 | .tsu => 10
  | .mac => 7 | .seg => 1 | .cls => 4
  | .chuG => 0 | .bufG => 2 | .schG => 0 | .polG => 0 | .drpG => 1 | .slcG => 0 | .seq => 6 | .chk => 4
  | .slcS => 3 | .drpS => 4 | .bufS => 1 | .chuS => 1 | .clsS => 0 | .polS => 0 | .schS => 0

/-- PAGE_CAPS.UNITS: the units in service. -/
def unitsOf (p : Nat) (i : PageInfo) (s : State) : Nat :=
  match i.blk with
  | .cls | .clsS => (lanesIn s).length
  | .bufG => 64 - s.buf.fenced.length
  | .seq | .chk => if s.pstate p = .fenced then 0 else 1
  | _ => 0

/-- PAGE_CAPS. INT_BITS counts FAULT, bit 31, beside the block's own bits. -/
def capsWord (p : Nat) (i : PageInfo) (s : State) : Word :=
  let b := i.blk
  word (b2n (drainSup b) + b2n (resetSup b) * 2 + b2n (holdSup b) * 4 + b2n (testSup b) * 8 + b2n (mirrored b) * 16 +
    (blkInts b + 1) * 2 ^ 8 + unitsOf p i s * 2 ^ 16)

/-- OWNER. -/
def ownerWord (i : PageInfo) (s : State) : Word :=
  let a := s.unitSlice i
  let k := if blkScope i.blk = 1 then i.inst else a.getD 0
  word (k + blkScope i.blk * 16 + b2n a.isSome * 64 + s.mastersOf i * 256)

/-- PAGE_STATE.TESTING: a self-test runs on some unit or row of the page (Table 3-2, R502). -/
def pageTesting (p : Nat) (s : State) : Bool :=
  (s.hdr p).testing || s.ecc.tests.any (fun l => memPage l.mem l.bank == p)

/-- The header word at an offset below 0x100; reserved offsets read 0. -/
def headerWord (p off : Nat) (s : State) : Word :=
  let h := s.hdr p
  match pageInfo p with
  | none => 0
  | some i =>
    if off = 0x00 then word (blkCode i.blk * 2 ^ 24 + i.inst % 256 * 2 ^ 16 + i.sub * 2 ^ 8 + 1)
    else if off = 0x04 then capsWord p i s
    else if off = 0x08 then word (b2n h.enable + b2n h.drain * 2 + b2n h.localHold * 8)
    else if off = 0x0C then word (h.state.code + b2n (pageTesting p s) * 256)
    else if off = 0x10 then h.intRaw
    else if off = 0x14 then h.intEnable
    else if off = 0x18 then h.pend
    else if off = 0x1C then h.intRaw
    else if off = 0x20 then word (h.faultCode + h.faultMore * 2 ^ 16)
    else if off = 0x24 then h.faultDetail
    else if off = 0x28 then word (h.testUnit * 2 ^ 8)
    else if off = 0x2C then testWord h
    else if off = 0x30 then ownerWord i s
    else if off = 0x34 then word (h.lockSem + b2n h.lockBound * 128)
    else 0

/-- The fields of a header register that a write can reach. -/
def headerFields (off : Nat) : List Fld :=
  if off = 0x08 then [fRWS 0 1 0, fRWS 1 1 0, fWO 2 1, fRWS 3 1 0]
  else if off = 0x14 then [fRW 0 32 0]
  else if off = 0x1C then [fW1C 0 32]
  else if off = 0x28 then [fWO 0 1, fRW 8 8 0xFF]
  else if off = 0x34 then [fRWS 0 5 0, fRWS 7 1 0]
  else []

/-! ### PAGE_CTRL (R88, R89, R556, R160, R391) -/

/-- Lane `n` is the only one in service. -/
def lastLane (n : Nat) (s : State) : Bool := lanesIn s == [n]

/-- A PAGE_CTRL write returns RANGE: a bit that the page does not support, ENABLE 0 where a drain is not supported, or ENABLE 1 on a MAC
page whose MODE is 0, whatever else the value asks (R89, R347); then, without BLOCK_RESET, what the state does not take (R556). -/
def ctrlRange (p : Nat) (v : Word) (s : State) : Bool :=
  match pageInfo p with
  | none => true
  | some i =>
    let b := i.blk
    (bit v 1 && !drainSup b) || (bit v 2 && !resetSup b) || (bit v 3 && !holdSup b) ||
      (!bit v 0 && s.pstate p == .active && !drainSup b) ||
      (bit v 0 && b == .mac && s.fld (regAddr p 0x100) 0 2 == 0) ||
      (!bit v 2 &&
        match s.pstate p with
        | .idle => bit v 0 && (bit v 1 || (b == .slcS && s.ownerMask i.inst == 0))
        | .active => (!bit v 0 || bit v 1) && b == .cls && lastLane i.inst s
        | _ => false)

/-- LOCAL_HOLD is written: a released pad group takes what its registers hold, and one that is held keeps what it was driving (R197,
R198). -/
def setHold (p : Nat) (on : Bool) (s : State) : State :=
  let h := s.hdr p
  let s := s.setHdr p { h with localHold := on }
  if p = pPwr ∧ (on = false ∨ h.localHold = false) then
    { s with power := { s.power with pads := (s.rp pPwr 0x180, s.rp pPwr 0x184) } }
  else s

/-- An IDLE page starts (R556). -/
def enablePage (p : Nat) (s : State) : State :=
  let s := s.setHdr p { s.hdr p with state := .active, enable := true, stopped := false }
  match pageInfo p with
  | some i => if i.blk = .cls then laneReturn i.inst s else s
  | none => s

/-- The work in flight of a block at the start of its block reset (R88): what it holds is counted as FLUSH drops. -/
def resetWork (p : Nat) (i : PageInfo) (s : State) : State :=
  match i.blk with
  | .cls => flushLane i.inst (laneRemove i.inst s)
  | .mbx => mbxBlockReset i.inst s
  | .lfr => lfrBlockReset (sideOf i) s
  | .act => actBlockReset (sideOf i) s
  | .opt => forgetModule (sideOf i) (abortAll (sideOf i) s)
  | .seq => seqStop i.inst s
  | .chk => s.setChan i.inst Chk.none
  | .mac => flushTsq i.inst (flushBlock p s)
  | _ => flushBlock p s

/-- A block reset starts (R88, R99): a FENCED page returns to service by it (R100). -/
def startReset (p : Nat) (s : State) : State :=
  match pageInfo p with
  | none => s
  | some i =>
    let s := if s.pstate p = .fenced then addLog .ret p 0x0303 (word (i.inst * 2 ^ 16)) 0 s else s
    let s := s.setHdr p { s.hdr p with state := .resetting, drain := false, testing := false }
    resetWork p i s

/-- PAGE_CTRL. -/
def ctrlHandler (p : Nat) : Handler :=
  { plain p 0x008 with
    range := fun _ v s => ctrlRange p v s
    run := fun _ v s =>
      if bit v 2 then
        settle s (startReset p s)
      else
        let hold := match pageInfo p with
          | some i => holdSup i.blk
          | none => false
        let t := if hold then setHold p (bit v 3) s else s
        let t := match t.pstate p with
          | .idle => if bit v 0 then enablePage p t else t
          | .active => if !bit v 0 || bit v 1 then startDrain p t else t
          | _ => t
        settle s t }

/-! ### The end of a block reset -/

/-- Registers that a block reset of their page leaves alone although a reset of the terminal does not. -/
def keptByReset (b : Blk) (off : Nat) : Bool :=
  match b with
  | .mbx => off == 0x108
  | .lfr => off == 0x118
  | .act => off == 0x100 || decide (0x140 ≤ off ∧ off < 0x164) || decide (0x180 ≤ off ∧ off < 0x1A0)
  | .cls => decide (0x400 ≤ off)
  | _ => false

/-- Every register that `sel` picks, by address, takes its reset value: the Reset column, or the committed value of a field of the
non-volatile store. -/
def resetRegsOf (sel : Nat → Bool) (s : State) : State :=
  let fs := fun (a : Nat) => fieldsAt (a / 0x1000) (a % 0x1000)
  let com := fun (a : Nat) => tblGet (resetWord a) a s.nvs.committed
  let new := (s.regs.map (fun e => if sel e.1 then (e.1, resetFields (fs e.1) e.2 (com e.1)) else e)).filter
    (fun e => e.2 != resetWord e.1)
  let s := { s with regs := new }
  (s.nvs.committed.map Prod.fst).foldl (fun s a => if sel a then s.wr a (resetFields (fs a) (s.rd a) (com a)) else s) s

/-- The page's parts that stand in no register return to their reset state. -/
def resetParts (i : PageInfo) (s : State) : State :=
  match i.blk with
  | .mac => s.setPort i.inst { MacPort.empty with lock := (s.port i.inst).lock }
  | .seq => s.setSeq i.inst Seq.reset
  | .chk => s.setChan i.inst Chk.none
  | .mbx => s.setBox i.inst Mbx.empty
  | _ => s

/-- What a block reset restores on page `p` (R5, R88): every block register and every wide counter. -/
def resetPage (p : Nat) (i : PageInfo) (s : State) : State :=
  let s := resetRegsOf (fun a => a / 0x1000 == p && !keptByReset i.blk (a % 0x1000)) (resetParts i s)
  { s with ctrs := s.ctrs.filter (fun e => e.1 / 0x1000 != p) }

/-- The header after a block reset: OWNER, LOCK, INT_ENABLE, LOCAL_HOLD and SELFTEST_CTRL.UNIT are kept (R88). -/
def resetHdr (p : Nat) (h : Hdr) : Hdr :=
  { hdrReset p with
    localHold := h.localHold, intEnable := h.intEnable, testUnit := h.testUnit, lockSem := h.lockSem, lockBound := h.lockBound }

/-- BLOCK_RESET_DONE. -/
def execBlockResetDone (page : Nat) (s : State) : Result State := whenOn s <|
  if s.pstate page ≠ .resetting then .next s
  else match pageInfo page with
    | none => .next s
    | some i =>
      let old := s
      let h := s.hdr page
      let s := resetPage page i s
      let s := pendChanged page h.pend (s.setHdr page (resetHdr page h))
      let s := match i.blk with
        | .cls => laneReturn i.inst s
        | .act => leaveOff (sideOf i) s
        | _ => s
      .next (settle old s)

/-! ### Interrupts, faults, self-tests and locks -/

/-- The strap reads fitted but gives no token (chapter 7). -/
def strapUntrusted (s : State) : Bool := s.flag (regAddr pBkp 0x100) 4 && !s.strapToken

/-- The causes of a page that are still asserted (R97). -/
def assertedInts (p : Nat) (s : State) : List Nat :=
  match pageInfo p with
  | none => []
  | some i =>
    match i.blk with
    | .lfr => (List.range 4).filter (fun k => s.flag (regAddr p 0x104) (8 + k))
    | .prs => if strapUntrusted s then [2] else []
    | .bufG => if reserveCut s then [0] else []
    | .pwr =>
      (if s.power.paceShort && paceLimited s then [1] else []) ++
        (if 105 ≤ signedOf 8 (s.fld (regAddr pPwr 0x134) 0 8) then [5] else []) ++ (if s.power.vauxLow then [7] else [])
    | _ => []

/-- INT_CLEAR is written. -/
def clearInts (p : Nat) (v : Word) (s : State) : State :=
  let h := s.hdr p
  let s := pendChanged p h.pend (s.setHdr p { h with intRaw := h.intRaw &&& ~~~ v })
  (assertedInts p s).foldl (fun s i => if bit v i && bit h.intRaw i then raise p i s else s) s

/-- INT_ENABLE is written. -/
def setIntEnable (p : Nat) (v : Word) (s : State) : State :=
  let h := s.hdr p
  pendChanged p h.pend (s.setHdr p { h with intEnable := v })

/-- FAULT_DETAIL is read: FAULT_CODE and FAULT_DETAIL clear (R90, R102). -/
def clearFault (p : Nat) (s : State) : State :=
  s.setHdr p { s.hdr p with faultCode := 0, faultMore := 0, faultDetail := 0 }

/-- START returns RANGE (R89, R391). -/
def testRange (p : Nat) (v : Word) (s : State) : Bool :=
  match pageInfo p with
  | none => true
  | some i =>
    bit v 0 &&
      (!testSup i.blk ||
        !(s.pstate p == .idle || s.pstate p == .fenced || (i.blk == .bufG && s.buf.fenced.contains (bits v 8 8)) ||
          (i.blk == .cls && s.pstate p == .active && !lastLane i.inst s)))

/-- A master starts the self-test of a unit; a lane leaves service first, and its test ends only when its packets have completed (R391).
A START while a self-test of the page runs is accepted and starts nothing (assumption 52). -/
def startTest (p unit : Nat) (s : State) : State :=
  if (s.hdr p).testing then s
  else
    let s := match pageInfo p with
      | some i => if i.blk = .cls then laneRemove i.inst s else s
      | none => s
    let s := eccCount 6 1 (setTest p .running false unit 0 s)
    s.setHdr p { s.hdr p with testing := true }

/-- SELFTEST_CTRL. -/
def testHandler (p : Nat) : Handler :=
  { plain p 0x028 with
    range := fun _ v s => testRange p v s
    run := fun _ v s =>
      let s := s.setHdr p { s.hdr p with testUnit := bits v 8 8 }
      if bit v 0 then startTest p (bits v 8 8) s else s }

/-- LOCK: the SEM and MBX pages cannot be bound (R110). -/
def lockHandler (p : Nat) : Handler :=
  { plain p 0x034 with
    range := fun _ v _ => bit v 7 && decide (0x12 ≤ p ∧ p < 0x19)
    run := fun _ v s => s.setHdr p { s.hdr p with lockSem := bits v 0 5, lockBound := bit v 7 } }

/-- The treatment of a header register; a write of one that no write can change has no effect. -/
def headerHandler (p off : Nat) : Handler :=
  if off = 0x08 then ctrlHandler p
  else if off = 0x14 then { plain p off with run := fun _ v s => setIntEnable p v s }
  else if off = 0x1C then { plain p off with run := fun _ v s => clearInts p v s }
  else if off = 0x28 then testHandler p
  else if off = 0x34 then lockHandler p
  else { plain p off with run := fun _ _ s => s }

/-- A master's write of a header register. -/
def headerWrite (m : AB) (p off : Nat) (v : Word) (s : State) : State :=
  runWrite m ⟨0x02, 0, regAddr p off, 0⟩ none p off (headerFields off) (headerHandler p off) v s

/-- BLOCK_ENABLE: PAGE_CTRL with ENABLE 1, LOCAL_HOLD as it stands. -/
def execBlockEnable (m : AB) (page : Nat) (s : State) : Result State := whenOn s <|
  .next (headerWrite m page 0x08 (word (1 + b2n (s.hdr page).localHold * 8)) s)

/-- BLOCK_DRAIN: PAGE_CTRL with DRAIN 1 beside ENABLE 1, or with ENABLE 0. -/
def execBlockDrain (m : AB) (page : Nat) (byEnable : Bool) (s : State) : Result State := whenOn s <|
  .next (headerWrite m page 0x08 (word ((if byEnable then 0 else 3) + b2n (s.hdr page).localHold * 8)) s)

/-- BLOCK_RESET: PAGE_CTRL with BLOCK_RESET 1, LOCAL_HOLD as it stands, and ENABLE 0 where that is allowed: on an ACTIVE page without
DRAIN_SUP it is RANGE (R89), and the command writes ENABLE 1. -/
def execBlockReset (m : AB) (page : Nat) (s : State) : Result State := whenOn s <|
  let v := word (4 + b2n (s.hdr page).localHold * 8)
  .next (headerWrite m page 0x08 (if ctrlRange page v s then v ||| 1 else v) s)

/-- LOCAL_HOLD_RELEASE: PAGE_CTRL with LOCAL_HOLD 0 and the page left running. -/
def execLocalHoldRelease (m : AB) (page : Nat) (s : State) : Result State := whenOn s <| .next (headerWrite m page 0x08 (field 0 1 1) s)

/-- FAULT_DETAIL_READ. -/
def execFaultDetailRead (m : AB) (page : Nat) (s : State) : Result State := whenOn s <|
  .next (runRead m page 0x24 (headerWord page 0x24 s) (clearFault page) s)

/-- SELFTEST_START. -/
def execSelftestStart (m : AB) (page unit : Nat) (s : State) : Result State := whenOn s <|
  .next (headerWrite m page 0x28 (word (1 + unit % 256 * 256)) s)

/-- INT_CLEAR. -/
def execIntClear (m : AB) (page : Nat) (v : Word) (s : State) : Result State := whenOn s <| .next (headerWrite m page 0x1C v s)

/-! ### Wide counters and snapshots (R269, R557) -/

/-- Where a page's wide counters stand: first offset and number. -/
def ctrRange (i : PageInfo) : Option (Nat × Nat) :=
  match i.blk with
  | .lfr => some (0x200, 17)
  | .cry => some (0x200, 8)
  | .act => some (0x200, 12)
  | .btx => some (0x400, 12)
  | .mac => some (0x200, 72)
  | .cls => some (0x200, 3)
  | .chuS => some (0x200, 3)
  | .drpG => some (0x400, 64)
  | .drpS => if i.sub = 1 then some (0x100, 440) else if i.sub = 2 then some (0x100, 264) else none
  | .clsS => if 2 ≤ i.sub ∧ i.sub < 10 then some (0x800, 256) else none
  | .tsu => some (0x300, 8)
  | .seq => some (0x200, 15)
  | .chk => some (0x200, 5)
  | .ecc => some (0x200, 8)
  | _ => none

/-- The offset of the HI word of the counter that an offset belongs to. -/
def ctrHi (i : PageInfo) (off : Nat) : Option Nat :=
  match ctrRange i with
  | none => none
  | some (b, n) => if b ≤ off ∧ off < b + 8 * n then some (b + (off - b) / 8 * 8) else none

/-- HI word of a wide counter. -/
def ctrHiWord (a : Nat) (s : State) : Word := word (s.ctr a / 2 ^ 32)

/-- LO word of a wide counter. -/
def ctrLoWord (a : Nat) (s : State) : Word := word (s.ctr a)

/-- The words that a read of a group's first register takes a snapshot of, by the address of that first register. -/
def snapGroup (a : Nat) (s : State) : List (Nat × Word) :=
  if a = regAddr pBkp 0x104 then
    [(a + 4, word s.backup.rtcSec), (a + 8, word s.backup.rtcSub)]
  else if a = regAddr (pLfr .a) 0x11C ∨ a = regAddr (pLfr .b) 0x11C then [(a + 4, s.rd (a + 4))]
  else if a = regAddr pTsu 0x110 then [(a + 4, word s.nowSec), (a + 8, word s.nowNs), (a + 12, word s.nowFrac)]
  else
    match pageInfo (a / 0x1000) with
    | none => []
    | some i => if ctrHi i (a % 0x1000) = some (a % 0x1000) then [(a + 4, ctrLoWord a s)] else []

/-- A read of a group's first register by a master. -/
def takeSnap (m : AB) (a : Nat) (s : State) : State := (snapGroup a s).foldl (fun s e => s.setSnap m e.1 e.2) s

/-- COUNTER_HI_READ; a page without wide counters has none to read. -/
def execCounterHiRead (m : AB) (page i : Nat) (s : State) : Result State := whenOn s <|
  match (pageInfo page).bind ctrRange with
  | none => .next s
  | some (b, n) =>
    let off := b + 8 * (i % n)
    .next (runRead m page off (ctrHiWord (regAddr page off) s) (takeSnap m (regAddr page off)) s)

/-- RTC_HI_READ: BKP_RTC_HI. -/
def execRtcHiRead (m : AB) (s : State) : Result State := whenOn s <|
  .next (runRead m pBkp 0x104 (word (s.backup.rtcSec / 2 ^ 32)) (takeSnap m (regAddr pBkp 0x104)) s)

/-- SFC_HI_READ: LFR_SFC_HI. -/
def execSfcHiRead (m f : AB) (s : State) : Result State := whenOn s <|
  .next (runRead m (pLfr f) 0x11C (s.rp (pLfr f) 0x11C) (takeSnap m (regAddr (pLfr f) 0x11C)) s)

/-- TSU_TIME_READ: SEC_HI. -/
def execTsuTimeRead (m : AB) (s : State) : Result State := whenOn s <|
  .next (runRead m pTsu 0x110 (word (s.nowSec / 2 ^ 32 % 65536)) (takeSnap m (regAddr pTsu 0x110)) s)

end Sys2Proof.Machine
end

