-- ==== Sys2Proof/Machine/Backup.lean ====
section
/-!
DEFINITION. The backup domain and physical presence (chapter 7): RTC, seal and strap, presence tokens, the tamper log and the
dual-copy record.
-/

namespace Sys2Proof.Machine

/-- The contents of the backup record have changed (R225). -/
def bkpChanged (s : State) : State := { s with backup := { s.backup with dirty := true } }

/-- SEAL: 0 INTACT, 1 BROKEN, 2 UNKNOWN. -/
def sealState (s : State) : Nat := s.fld (regAddr pBkp 0x100) 1 2

/-! ### The tamper log (R223, R224) -/

/-- Write a tamper entry (Table 7-2): TAMPER rises now, or at the next LOGIC_READY. -/
def tamper (ev detail : Nat) (s : State) : State :=
  let n := s.fld (regAddr pBkp 0x138) 0 4
  let w0 := word (ev + detail % 256 * 2 ^ 8 + s.backup.tamperSeq % 256 * 2 ^ 16 + 2 ^ 31)
  let w1 := if rtcValid s then word s.backup.rtcSec else 0
  let s := (s.wp pBkp (0x204 + 8 * n) w1).wp pBkp (0x200 + 8 * n) w0
  let s := (s.wp pBkp 0x138 (word ((n + 1) % 16))).bump (regAddr pBkp 0x12C) 1
  let s := bkpChanged { s with backup := { s.backup with tamperSeq := (s.backup.tamperSeq + 1) % 256 } }
  if s.logicOn then raise pBkp 1 s else { s with backup := { s.backup with tamperOff := true } }

/-! ### Tokens (R218 to R220) -/

/-- What follows from a change of the presence token or of the strap from `old`: TOKEN_OPEN, TOKEN_CLOSE and STRAP_UNTRUSTED. -/
def tokenSettle (old s : State) : State :=
  if !s.running then s
  else
    let s := if s.present && !old.present then raise pPrs 0 s else if old.present && !s.present then raise pPrs 1 s else s
    if strapUntrusted s && !strapUntrusted old then raise pPrs 2 s else s

/-- PRS_STATE. -/
def prsStateWord (s : State) : Word :=
  let src := if s.pressOpen then 1 else if s.strapToken then 2 else 0
  word (b2n s.present + src * 2 + s.backup.pressUs / 1000000 % 128 * 2 ^ 8)

/-- The press window ends. -/
def closeWindow (s : State) : State := tokenSettle s { s with backup := { s.backup with pressUs := 0 } }

/-- PRESENCE_PRESS: the press counts in every mode and opens or restarts a window while the logic domain is on. -/
def execPresencePress (s : State) : Result State :=
  let t := bkpChanged (s.bump (regAddr pBkp 0x130) 1)
  if !t.running then .next t
  else .next (tokenSettle s { t with backup := { t.backup with pressUs := t.fld (regAddr pPrs 0x104) 0 7 * 1000000 } })

/-- PRESS_WINDOW_EXPIRY. -/
def execPressWindowExpiry (s : State) : Result State := whenOn s <| .next (closeWindow s)

/-- PRS_CLOSE. -/
def prsCloseHandler : Handler :=
  { plain pPrs 0x108 with run := fun _ v s => if bit v 0 then closeWindow s else s }

/-- PRS_CLOSE, written with CLOSE = 1. -/
def execPrsClose (m : AB) (s : State) : Result State := whenOn s <| .next (writeReg m pPrs 0x108 prsCloseHandler (field 0 1 1) s)

/-- PRS_CFG: STRAP_EN makes and ends strap tokens. -/
def prsCfgHandler : Handler :=
  { plain pPrs 0x10C with run := fun _ v s => tokenSettle s (storeReg pPrs 0x10C v s) }

/-! ### Seal loop and strap (R214 to R217, R233) -/

/-- The seal state is set: SEAL_CHANGE tells of a change now. While the logic domain is off, a change and a break that finds the
state BROKEN already both wait for the next start (R233). -/
def setSeal (n : Nat) (s : State) : State :=
  let t := if sealState s = n then s else bkpChanged (s.setFld (regAddr pBkp 0x100) 1 2 n)
  if !s.logicOn then { t with backup := { t.backup with sealOff := true } }
  else if sealState s = n then s
  else raise pBkp 0 t

/-- The pair just sampled is not good: two in a row declare a break (R214). A pair that is neither open nor short has no DETAIL
in the spec: a free value. -/
def badPair (before after : Bool) (s : State) : State :=
  let n := s.backup.badRun
  let s := { s with backup := { s.backup with badRun := if n < 2 then n + 1 else 2 } }
  if n ≠ 1 then s
  else
    let s := setSeal 1 s
    if before && !after then
      let f := s.takeFree
      tamper 0x01 (f.1.toNat % 256) f.2
    else tamper 0x01 (if before then 2 else 1) s

/-- SEAL_PULSE: the levels of SEAL_B before and at the end of the pulse, and of the strap. In a latched state a loop that reads good
again leaves one SEAL_RESTORE entry; the first pair after the backup domain has powered up reads nothing again (R216, Case 7.2). -/
def execSealPulse (before after strap : Bool) (s : State) : Result State :=
  let a := regAddr pBkp 0x100
  let good := !before && after
  let t := s.setFlag a 3 good
  let t := if good then
      let again := t.backup.strapSeen && !s.flag a 3 && sealState t != 0
      let t := { t with backup := { t.backup with badRun := 0 } }
      if again then tamper 0x02 0 t else t
    else badPair before after t
  let was := t.flag a 4
  let t := t.setFlag a 4 strap
  let t := if t.backup.strapSeen && was != strap then tamper (if strap then 0x04 else 0x05) 0 t
    else { t with backup := { t.backup with strapSeen := true } }
  .next (tokenSettle s t)

/-- SEAL_PERIOD_WRITE: BKP_SEAL_CFG. -/
def execSealPeriodWrite (m : AB) (v : Word) (s : State) : Result State := whenOn s <|
  .next (writeReg m pBkp 0x118 (plain pBkp 0x118) v s)

/-- BKP_SEAL_ACK (R216, R234). -/
def sealAckHandler : Handler :=
  { plain pBkp 0x11C with
    range := fun _ v s => bit v 0 && !(s.pressOpen && s.flag (regAddr pBkp 0x100) 3)
    run := fun _ v s => if bit v 0 then tokenSettle s (tamper 0x03 0 (setSeal 0 s)) else s }

/-- SEAL_ACK. -/
def execSealAck (m : AB) (s : State) : Result State := whenOn s <| .next (writeReg m pBkp 0x11C sealAckHandler (field 0 1 1) s)

/-- BKP_TAMPER_CLR (R224). -/
def tamperClrHandler : Handler :=
  { plain pBkp 0x13C with
    run := fun _ v s =>
      if bit v 0 then
        tamper 0x20 0 ((List.range 16).foldl (fun s n => s.setFlag (regAddr pBkp (0x200 + 8 * n)) 31 false) s)
      else s }

/-- TAMPER_CLEAR. -/
def execTamperClear (m : AB) (s : State) : Result State := whenOn s <| .next (writeReg m pBkp 0x13C tamperClrHandler (field 0 1 1) s)

/-! ### Supply and RTC (R208 to R213) -/

/-- A word of a copy of the backup record after a loss of retention: it may have kept its value or not (R208). -/
def lostWord (s : State) (a : Nat) : State :=
  let k := s.takeFree
  let v := k.2.takeFree
  if bit k.1 0 then v.2 else v.2.wr a v.1

/-- BACKUP_POWER_UP: main power appears after the backup domain has lost its state. -/
def execBackupPowerUp (s : State) : Result State :=
  if s.power.phase ≠ .unpowered then .next s
  else
    let kept := fun (a : Nat) => a / 0x1000 == pBkp && decide (a % 0x1000 < 0x400)
    let s := { s with
      regs := s.regs.filter (fun e => !kept e.1)
      power := { s.power with failRec := (0, 0) }
      backup := { State.reset.backup with tamperSeq := 0, sealOff := true } }
    let s := (s.wp pBkp 0x100 0x24).wp pBkp 0x118 250
    let s := tamper 0x10 0 (s.wp pBkp 0x140 20)
    .next ((List.range 16).foldl (fun s i => lostWord s (regAddr pBkp (0x400 + 4 * i))) s)

/-- A VBAT measurement (R209). -/
def measureVbat (mv : Nat) (s : State) : State :=
  let was := s.flag (regAddr pBkp 0x100) 6
  let s := s.wp pBkp 0x120 (word (if 4095 < mv then 4095 else mv))
  let s := s.setFlag (regAddr pBkp 0x100) 6 (decide (mv < 1900))
  if mv < 1900 ∧ was = false then raise pBkp 2 s else s

/-- VBAT_MEASURE. -/
def execVbatMeasure (mv : Nat) (s : State) : Result State := whenOn s <| if s.running then .next (measureVbat mv s) else .next s

/-- RTC_LINE_LOAD: only while the time unit holds line time (R212, R430). -/
def execRtcLineLoad (s : State) : Result State := whenOn s <|
  if s.running ∧ s.tsu.state = .line then .next (rtcFromTsu s) else .next s

/-- BKP_RTC_SET_LO (R213). -/
def rtcSetHandler : Handler :=
  { plain pBkp 0x114 with
    range := fun _ _ s => s.tsu.state == .line
    run := fun _ v s =>
      let s := storeReg pBkp 0x114 v s
      let s := { s with backup := { s.backup with
        rtcSec := (s.rp pBkp 0x110).toNat * 2 ^ 32 + v.toNat, rtcSub := 0, rtcAcc := 0 } }
      bkpChanged (s.setFlag (regAddr pBkp 0x100) 0 true) }

/-- RTC_SET. -/
def execRtcSet (m : AB) (v : Word) (s : State) : Result State := whenOn s <| .next (writeReg m pBkp 0x114 rtcSetHandler v s)

/-- One microsecond of the RTC (R210). -/
def rtcTick (s : State) : State :=
  let n := s.backup.rtcAcc + 32768
  if n < 1000000 then { s with backup := { s.backup with rtcAcc := n } }
  else
    let sub := s.backup.rtcSub + 1
    { s with backup := { s.backup with
      rtcAcc := n - 1000000, rtcSub := sub % 32768, rtcSec := (s.backup.rtcSec + sub / 32768) % 2 ^ 64 } }

/-! ### The dual-copy record (R225 to R227, Table 7-3) -/

/-- Word `i` of copy X (0) or Y (1). -/
def copyWord (c i : Nat) (s : State) : Word := s.rp pBkp (0x400 + 0x20 * c + 4 * i)

/-- The CRC of words 0 to 6 of a copy. -/
def copyCrc (l : List Word) : Word := word (crc32c none (wordsToBytes l))

/-- A copy passes its CRC. -/
def copyOk (c : Nat) (s : State) : Bool := copyCrc ((List.range 7).map (fun i => copyWord c i s)) == copyWord c 7 s

/-- The copy that the next write takes: the one whose GEN comes earlier; of two that neither precedes, copy X (R225). -/
def nextCopy (s : State) : Nat := if precedes 32 (copyWord 1 0 s).toNat (copyWord 0 0 s).toNat then 1 else 0

/-- The eight words of the record as it would be written now: its GEN is the other copy's GEN + 1 (Table 7-3). -/
def recordWords (s : State) : List Word :=
  let st := s.rp pBkp 0x100
  let w1 := word (bits st 0 1 + bits st 1 2 * 2 + s.power.failRec.1 % 16 * 2 ^ 8 + s.power.failRec.2 % 4 * 2 ^ 12)
  let body := [copyWord (1 - nextCopy s) 0 s + 1, w1] ++ (List.range 4).map (fun i => s.rp pBkp (0x124 + 4 * i)) ++
    [word s.backup.rtcSec]
  body ++ [copyCrc body]

/-- Write words to a copy, from its first on. -/
def writeCopy (c : Nat) (l : List Word) (s : State) : State :=
  (l.zipIdx).foldl (fun s x => s.wp pBkp (0x400 + 0x20 * c + 4 * x.2) x.1) s

/-- The record is written to the next copy (R225). -/
def writeRecord (s : State) : State :=
  let s := (writeCopy (nextCopy s) (recordWords s) s).wp pBkp 0x134 (copyWord (1 - nextCopy s) 0 s + 1)
  { s with backup := { s.backup with dirty := false } }

/-- Power goes: the record may be under way into the next copy, with some words written and one of them torn; the other copy is
untouched (R225, R230). Whether and how far is a free value. -/
def tearRecord (s : State) : State :=
  let f := s.takeFree
  if bit f.1 31 then
    let g := f.2.takeFree
    writeCopy (nextCopy s) ((recordWords s).take (f.1.toNat % 8) ++ [g.1]) g.2
  else f.2

/-- BACKUP_RECORD_WRITE. -/
def execBackupRecordWrite (s : State) : Result State := whenOn s <| if s.running then .next (writeRecord s) else .next s

/-- The source that R226 chooses: 0 copy X, 1 copy Y, none for the checkpoint. -/
def recordSource (s : State) : Option Nat :=
  if copyOk 0 s && copyOk 1 s then (if precedes 32 (copyWord 0 0 s).toNat (copyWord 1 0 s).toNat then some 1 else some 0)
  else if copyOk 0 s then some 0
  else if copyOk 1 s then some 1
  else none

/-- The counters become the source's values plus what they have counted since the backup domain powered up (R226). -/
def restoreCounts (src : List Nat) (s : State) : State :=
  let s := (List.range 4).foldl (fun s i =>
    let live := (s.rp pBkp (0x124 + 4 * i)).toNat
    s.wp pBkp (0x124 + 4 * i) (word (src.getD i 0 + (live + 2 ^ 32 - s.backup.base.getD i 0 % 2 ^ 32)))) s
  bkpChanged { s with backup := { s.backup with base := src } }

/-- DETAIL of RTC_INVALID when R227 clears RTC_VALID; none when it sets it. -/
def rtcInvalid (src : Option Nat) (s : State) : Option Nat :=
  if s.flag (regAddr pBkp 0x100) 5 then some 1
  else match src with
    | none => some 2
    | some c =>
      if precedes 32 (s.backup.rtcSec % 2 ^ 32) (copyWord c 6 s).toNat then some 3
      else if bit (copyWord c 1 s) 0 then none
      else some 4

/-- The backup record at start-up step 4 (R226, R227). -/
def startRecord (s : State) : State :=
  let a := regAddr pBkp 0x100
  let src := recordSource s
  let s := match src with
    | none => s.setFld a 8 2 2
    | some c =>
      let s := s.setFld a 8 2 c
      if copyOk (1 - c) s then s else tamper 0x12 (1 - c) (s.setFlag a 10 true)
  let s := if s.flag a 5 then
      restoreCounts (match src with
        | none => s.nvs.checkpoint
        | some c => (List.range 4).map (fun i => (copyWord c (2 + i) s).toNat)) s
    else s
  match rtcInvalid src s with
  | none => s.setFlag a 0 true
  | some d => raise pBkp 3 (tamper 0x11 d (s.setFlag a 0 false))

end Sys2Proof.Machine
end

