-- ==== Sys2Proof/Machine/Voltage.lean ====
section
/-!
DEFINITION. Pace, the voltage loop and the PMBus master (chapter 6, R184 to R195, R202, R203).

PWR_REQ, the targets and PWR_LOOP_STATE are views; PACE and LOAD are registers that a window writes.
-/

namespace Sys2Proof.Machine

/-! ### Pace, targets and shortfall (R184 to R186) -/

/-- The figure of a client port's mode, in 0.1 Mpps (Table 6-5). -/
def portFigure (mode : Nat) : Nat :=
  match mode with
  | 1 => 15 | 2 => 149 | 3 => 372 | _ => 0

/-- The figure of a downstream rate, coded as LFR_RATE.RATE. -/
def lineFigure (rate : Nat) : Nat :=
  match rate with
  | 1 => 744 | 2 => 148 | _ => 0

/-- PWR_REQ (R185). -/
def reqOf (s : State) : Nat :=
  (((List.range 8).filter (fun n => s.pstate (pMac n) == .active)).map
    (fun n => portFigure (s.fld (regAddr (pMac n) 0x100) 0 2))).sum + lineFigure s.psw.o5Rate

/-- A quotient, rounded up. -/
def ceilDiv (a b : Nat) : Nat := (a + b - 1) / b

/-- Target `i` of Table 6-10: 0 a lane, 1 BUF, 2 SCH, 3 POL (R186). -/
def targetOf (i : Nat) (s : State) : Nat :=
  let m := s.fld (regAddr pPwr 0x148) 0 8
  let need := reqOf s * (100 + m)
  if i = 0 then
    let n := (lanesIn s).length
    if n = 0 then Config.laneTarget (reqOf s) m else ceilDiv need (100 * n)
  else if i = 1 then ceilDiv (need * 2) 100
  else ceilDiv need 100

/-- The address of the PACE and LOAD register of a unit, coded as in Table 6-11. -/
def paceAddr (u : Nat) : Nat := regAddr pPwr (if u < 16 then 0x380 + 4 * u else 0x3C0 + 4 * (u - 16))

/-- PACE of a unit. -/
def paceOf (u : Nat) (s : State) : Nat := s.fld (paceAddr u) 0 16

/-- The target of a unit. -/
def unitTarget (u : Nat) (s : State) : Nat := targetOf (if u < 16 then 0 else u - 15) s

/-- The units in service that carry a replica. -/
def paceUnits (s : State) : List Nat := lanesIn s ++ [16, 17, 18]

/-- The units that are short. -/
def shortUnits (s : State) : List Nat := (paceUnits s).filter (fun u => decide (paceOf u s < unitTarget u s))

/-- The units in service are in headroom. -/
def inHeadroom (s : State) : Bool :=
  (paceUnits s).all (fun u => decide (unitTarget u s * (100 + s.fld (regAddr pPwr 0x148) 8 8) ≤ paceOf u s * 100))

/-! ### Limits (R188, Table 6-6) -/

/-- VSET, in mV. -/
def vset (s : State) : Nat := s.fld (regAddr pPwr 0x130) 0 10

/-- VMIN. -/
def vmin (s : State) : Nat := s.fld (regAddr pPwr 0x13C) 0 10

/-- VMAX, the ceiling. -/
def vmax (s : State) : Nat := s.fld (regAddr pPwr 0x13C) 16 10

/-- VSERV of the present junction band (Table 6-6). -/
def vserv (s : State) : Nat :=
  let t := signedOf 8 (s.fld (regAddr pPwr 0x134) 0 8)
  if t < 0 then 780 else if t < 50 then 740 else if t < 85 then 770 else 820

/-- The floor. -/
def vfloor (s : State) : Nat :=
  if s.flag (regAddr pPwr 0x138) 4 ∧ s.mode.code = 2 ∧ vmin s < vserv s then vserv s else vmin s

/-- PWR_LOOP_CTRL.MODE. -/
def loopMode (s : State) : Nat := s.fld (regAddr pPwr 0x138) 0 2

/-- DOWN_HOLD has run out. -/
def headHeld (s : State) : Bool := decide (s.fld (regAddr pPwr 0x148) 16 16 ≤ s.power.headRun)

/-- PWR_LOOP_STATE (Table 6-10). -/
def loopStateWord (s : State) : Word :=
  let p := s.power
  let st := if p.stalled then 2 else if p.step.isSome then 1 else match loopMode s with
    | 1 => 3 | 2 => 4 | _ => 0
  let short := !(shortUnits s).isEmpty
  let limit := loopMode s == 0 &&
    ((short && decide (vmax s ≤ vset s)) || (inHeadroom s && headHeld s && decide (vset s < vfloor s + 10)))
  word (st + b2n short * 16 + b2n (inHeadroom s) * 32 + b2n limit * 64)

/-! ### PWR_VHIST (R191, Table 6-11) -/

/-- Write one PWR_VHIST entry. -/
def vhistEntry (v : Nat) (up failed : Bool) (why : VReason) (unit : Nat) (s : State) : State :=
  let i := s.power.vhist
  let w0 := word (v % 1024 + b2n up * 2 ^ 10 + b2n failed * 2 ^ 11 + why.code * 2 ^ 12 + unit % 256 * 2 ^ 16 +
    s.fld (regAddr pPwr 0x134) 0 8 * 2 ^ 24)
  let s := (s.wp pPwr (0x300 + 8 * i) w0).wp pPwr (0x304 + 8 * i) s.secWord
  { s with power := { s.power with vhist := (i + 1) % 16 } }

/-! ### Requests -/

/-- The exponent N of VOUT_MODE, as its denominator's and numerator's power of two: V = n × 2^N. -/
def voutExp (s : State) : Int := signedOf 5 (s.fld (regAddr pPwr 0x160) 16 5)

/-- The data word of a voltage in mV: round(V × 2^−N). -/
def voutWord (mv : Nat) (s : State) : Nat :=
  let e := voutExp s
  if e < 0 then (2 * (mv * 2 ^ e.natAbs) + 1000) / 2000 else (2 * mv + 1000 * 2 ^ e.natAbs) / (2000 * 2 ^ e.natAbs)

/-- The terminal sends a PMBus command of Table 6-7 (R192). -/
def pmbSend (code : Nat) (data : List Byte) (s : State) : State := s.emit (.pmbus (s.fld (regAddr pPwr 0x158) 0 7) code data)

/-- The bytes of a data word, low byte first. -/
def pmbWord (n : Nat) : List Byte := [BitVec.ofNat 8 n, BitVec.ofNat 8 (n / 256)]

/-- A step is the outstanding one, and its VOUT_COMMAND is sent. -/
def sendStep (st : VStep) (s : State) : State :=
  pmbSend 0x21 (pmbWord (voutWord st.target s)) { s with power := { s.power with step := some { st with sent := true } } }

/-- Request a step unless one is outstanding or the loop is STALLED. -/
def request (v : Nat) (up : Bool) (why : VReason) (unit : Nat) (s : State) : State :=
  if s.power.step.isSome || s.power.stalled then s
  else sendStep ⟨v, up, why, unit, 0, true, false⟩ s

/-- The unit that a shortfall is recorded against. -/
def shortUnit (s : State) : Nat := (shortUnits s).headD 0xFF

/-- The step that AUTO mode takes at the end of a period (R187, R188, R203). -/
def autoStep (s : State) : State :=
  let v := vset s
  if vmax s < v then request (v - 10) false .ceil 0xFF s
  else if v < vfloor s ∧ v < vmax s then request (v + 10) true .floor 0xFF s
  else if !(shortUnits s).isEmpty && decide (v < vmax s) then request (v + 10) true .short (shortUnit s) s
  else if headHeld s && decide (vfloor s + 10 ≤ v) then request (v - 10) false .headroom 0xFF s
  else s

/-- The step that FIXED mode takes (R190). -/
def fixedStep (s : State) : State :=
  let v := vset s
  let f := s.fld (regAddr pPwr 0x140) 0 10
  if v < f then request (v + 10) true .host 0xFF s
  else if f < v then request (v - 10) false .host 0xFF s
  else s

/-- LOOP_PERIOD: the loop evaluates the units; PACE_SHORT tells of one that has been short for the whole period without a step to
help it. -/
def execLoopPeriod (s : State) : Result State := whenOn s <|
  let now := if paceLimited s then shortUnits s else []
  let short := now.any (fun u => s.power.shortRun.contains u)
  let s := if short then raise pPwr 1 s else s
  let s := { s with power := { s.power with paceShort := short } }
  let run := if loopMode s = 0 ∧ inHeadroom s = true then satAdd 10000 s.power.headRun 1 else 0
  let s := { s with power := { s.power with shortRun := now, headRun := run } }
  .next (match loopMode s with
    | 0 => autoStep s
    | 1 => fixedStep s
    | _ => s)

/-- Store the PACE and LOAD of the units, in the order of Table 6-11. -/
def storePace (units : List (Nat × Nat)) (s : State) : State :=
  ((units.take 19).zipIdx).foldl (fun s x => s.wr (paceAddr x.2) (word (x.1.1 % 65536 + x.1.2 % 65536 * 65536))) s

/-- PACE_WINDOW: a window ends. After a step with reason SHORT, one that still shows a shortfall brings the next step at once. -/
def execPaceWindow (units : List (Nat × Nat)) (s : State) : Result State := whenOn s <|
  let s := storePace units s
  let short := shortUnits s
  let chase := s.power.chase
  let s := { s with power := { s.power with
    chase := false, shortRun := s.power.shortRun.filter (fun u => short.contains u) } }
  if chase && loopMode s == 0 && !short.isEmpty && decide (vset s < vmax s) then
    .next (request (vset s + 10) true .short (shortUnit s) s)
  else .next s

/-! ### The PMBus master (R192 to R195) -/

/-- A linear-format voltage as a fraction of mV: numerator and denominator. -/
def voutFrac (n : Nat) (s : State) : Nat × Nat :=
  let e := voutExp s
  if e < 0 then (n * 1000, 2 ^ e.natAbs) else (n * 1000 * 2 ^ e.natAbs, 1)

/-- A linear-format voltage rounded to mV. -/
def voutMv (n : Nat) (s : State) : Nat :=
  let f := voutFrac n s
  (2 * f.1 + f.2) / (2 * f.2)

/-- A READ_VOUT lies within TOL of a voltage (R193). -/
def voutNear (n target : Nat) (s : State) : Bool :=
  let f := voutFrac n s
  let tol := s.fld (regAddr pPwr 0x15C) 16 8
  decide (f.1 ≤ (target + tol) * f.2 ∧ target * f.2 ≤ f.1 + tol * f.2)

/-- The VOUT, IOUT, INPUT and TEMPERATURE bits of STATUS_WORD, as PMBus places them. -/
def statusBad (w : Nat) : Bool := w.testBit 15 || w.testBit 14 || w.testBit 13 || w.testBit 2

/-- Show a READ_VOUT. -/
def showVout (n : Nat) (s : State) : State := s.setFld (regAddr pPwr 0x130) 16 10 (voutMv n s)

/-- The writes that waited for a step take effect (R203). -/
def applyDeferred (s : State) : State :=
  let l := s.power.deferred
  l.foldl (fun s x => storeReg pPwr x.1 x.2 s) { s with power := { s.power with deferred := [] } }

/-- VSTEP_ACK: READ_VOUT and STATUS_WORD after a step. They acknowledge it, or the step stays outstanding (R193). -/
def execVstepAck (readVout statusWord : Nat) (s : State) : Result State :=
  match s.power.step with
  | none => .next s
  | some st =>
    let s := { s with power := { s.power with cmdRetries := 0 } }
    let s := (showVout readVout (pmbSend 0x79 [] (pmbSend 0x8B [] s))).setFld (regAddr pPwr 0x160) 0 16 statusWord
    if !(st.sent && voutNear readVout st.target s) || statusBad statusWord then .next s
    else
      let why := if s.power.stalled then .recover else st.reason
      let s := (s.setFld (regAddr pPwr 0x130) 0 10 st.target).bumpFld (regAddr pPwr 0x164) 16 16 1
      let s := { s with power := { s.power with step := none, stalled := false, chase := st.reason == .short } }
      .next (applyDeferred (raise pPwr 2 (vhistEntry st.target st.up false why st.unit s)))

/-- The step has failed for good: the loop is STALLED, a step that has not told of it yet leaves its FAILED entry, and the writes that
waited for the step take effect (R191, R194, R203). -/
def stepFailed (st : VStep) (s : State) : State :=
  let was := s.power.stalled
  let s := { s with power := { s.power with step := some { st with sent := false, told := true }, stalled := true } }
  let s := if st.told then s else raise pPwr 2 (vhistEntry st.target st.up true st.reason st.unit s)
  applyDeferred (if was then s else raise pPwr 3 s)

/-- The retries of PWR_PMB_CFG. -/
def pmbRetries (s : State) : Nat := s.fld (regAddr pPwr 0x158) 12 2

/-- STEP_SETTLE_TIMEOUT: the step waits to be sent again, or the loop is STALLED once its retries have failed (R194). In STALLED the
whole exchange is retried once per second, so that a step that fails there waits for STALLED_RETRY. -/
def execStepSettleTimeout (s : State) : Result State :=
  match s.power.step with
  | none => .next s
  | some st =>
    if !st.sent then .next s
    else if !s.power.stalled && decide (st.retries < pmbRetries s) then
      .next { s with power := { s.power with step := some { st with sent := false } } }
    else .next (stepFailed st s)

/-- A failed PMBus command is counted. -/
def cmdFailed (s : State) : State := s.bumpFld (regAddr pPwr 0x164) 0 16 1

/-- PMBUS_RETRY: 1 ms after a failure. A step that waits is sent again. Any other retry follows a failed command: of the step, which is
sent again, or of an exchange that belongs to no step. Once the retries have failed, the loop is STALLED (R194). -/
def execPmbusRetry (s : State) : Result State := whenOn s <|
  match s.power.step with
  | none =>
    let n := s.power.cmdRetries
    let t := cmdFailed s
    if s.power.stalled then .next t
    else if n < pmbRetries s then .next { t with power := { t.power with cmdRetries := n + 1 } }
    else .next (raise pPwr 3 { t with power := { t.power with cmdRetries := 0, stalled := true } })
  | some st =>
    if !st.sent && s.power.stalled then .next s
    else
      let t := if st.sent then cmdFailed s else s
      if st.retries < pmbRetries s then .next (sendStep { st with retries := st.retries + 1 } t)
      else if st.sent then .next (stepFailed st t)
      else .next s

/-- The start-up exchange (Table 6-7, R192): VSET follows READ_VOUT. A regulator that does not answer its first command has failed every
try of it. -/
def pmbExchange (s : State) : State :=
  let p := s.power.pmbNext.headD none
  let s := { s with power := { s.power with pmbNext := s.power.pmbNext.drop 1 } }
  match p with
  | none => ((List.range (1 + pmbRetries s)).foldl (fun s _ => pmbSend 0x98 [] s) s).bumpFld (regAddr pPwr 0x164) 0 16 (1 + pmbRetries s)
  | some x =>
    let s := pmbSend 0x8B [] (pmbSend 0x20 [] (pmbSend 0x03 [] (pmbSend 0x98 [] s)))
    let s := (s.setFld (regAddr pPwr 0x160) 16 8 x.voutMode).setFld (regAddr pPwr 0x160) 24 8 x.revision
    let s := showVout x.readVout s
    let f := voutFrac x.readVout s
    let near := (f.1 + 5 * f.2) / (10 * f.2) * 10
    let v := if near < vmin s then vmin s else if vmax s < near then vmax s else near
    let s := pmbSend 0x24 (pmbWord (voutWord (vmax s) s)) { s with power := { s.power with pmbUp := true } }
    vhistEntry v false false .start 0xFF (s.setFld (regAddr pPwr 0x130) 0 10 v)

/-- The start-up exchange at LOGIC_READY. Without an answer the loop is STALLED (R194). -/
def pmbStart (l : List (Option PmbStart)) (s : State) : State :=
  let s := pmbExchange { s with power := { s.power with pmbUp := false, pmbNext := l } }
  if s.power.pmbUp then s else raise pPwr 3 { s with power := { s.power with stalled := true } }

/-- STALLED_RETRY: the whole exchange starts over. A start-up exchange that has not succeeded yet comes first. The step that follows is
the outstanding one, or with none it asks for VSET as it stands. -/
def execStalledRetry (s : State) : Result State := whenOn s <|
  if !s.power.stalled then .next s
  else
    let s := if s.power.pmbUp then s else pmbExchange s
    if !s.power.pmbUp then .next s
    else match s.power.step with
      | some st => .next (sendStep { st with retries := 0 } s)
      | none => .next (sendStep ⟨vset s, false, .recover, 0xFF, 0, true, false⟩ s)

/-- PMB_ALERT: STATUS_WORD is read, and CLEAR_FAULTS is sent (R195). -/
def execPmbAlert (statusWord : Nat) (s : State) : Result State := whenOn s <|
  let s := { s with power := { s.power with cmdRetries := 0 } }
  let s := raise pPwr 4 ((pmbSend 0x79 [] s).setFld (regAddr pPwr 0x160) 0 16 statusWord)
  .next (pmbSend 0x03 [] s)

/-- PMBUS_POLL: READ_VOUT as its data word, READ_IOUT in units of 10 mA, READ_TEMPERATURE_1 in °C. -/
def execPmbusPoll (k : PollKind) (v : Nat) (s : State) : Result State := whenOn s <|
  let s := { s with power := { s.power with cmdRetries := 0 } }
  match k with
  | .vout => .next (showVout v (pmbSend 0x8B [] s))
  | .iout => .next ((pmbSend 0x8C [] s).setFld (regAddr pPwr 0x134) 16 16 v)
  | .temp => .next ((pmbSend 0x8D [] s).setFld (regAddr pPwr 0x134) 8 8 v)

/-! ### The registers of R203 -/

/-- The offset of a register of R203. -/
def loopOff (r : LoopReg) : Nat :=
  match r with
  | .ctrl => 0x138 | .limits => 0x13C | .fixed => 0x140

/-- PWR_LOOP_CTRL, PWR_VLIMITS and PWR_VFIXED: a write waits for an outstanding step. -/
def loopHandler (off : Nat) : Handler :=
  { plain pPwr off with
    range := fun _ v s =>
      if off = 0x13C then decide (bits v 16 10 < bits v 0 10)
      else if off = 0x140 then decide (bits v 0 10 < vmin s ∨ vmax s < bits v 0 10)
      else false
    run := fun _ v s =>
      if s.power.step.any (fun x => x.sent || !s.power.stalled) then
        { s with power := { s.power with deferred := s.power.deferred ++ [(off, v)] } }
      else storeReg pPwr off v s }

/-- LOOP_CONFIG_WRITE. -/
def execLoopConfigWrite (m : AB) (r : LoopReg) (v : Word) (s : State) : Result State := whenOn s <|
  .next (writeReg m pPwr (loopOff r) (loopHandler (loopOff r)) v s)

end Sys2Proof.Machine
end

