-- ==== Sys2Proof/Machine/Power.lean ====
section
/-!
DEFINITION. Start-up, resets, power-down and supplies (chapters 1, 6 and 20): Tables 6-2, 6-3, 6-8 and 6-9.
-/

namespace Sys2Proof.Machine

/-! ### Small parts -/

/-- Replace the power state. -/
def State.setPower (s : State) (p : PowerSt) : State := { s with power := p }

/-- The levels and drive enables that the GPIO and LED pads show (R197, R198). -/
def padsNow (s : State) : Word × Word :=
  if s.running && !(s.hdr pPwr).localHold then (s.rp pPwr 0x180, s.rp pPwr 0x184) else s.power.pads

/-- The packets that the buffer holds. -/
def bufferPackets (s : State) : Nat :=
  (s.buf.queues.map (fun e => e.2.length)).sum + (s.mac.map (fun e => e.2.txq.length)).sum + s.buf.line.length

/-- The number of packets in the buffer is written for the stop that follows (R180). -/
def recordLoss (s : State) : State := wearBlock (s.setNvs { s.nvs with stopLoss := some (bufferPackets s) })

/-! ### What a reset that reaches the logic domain does (R179) -/

/-- A cage across a reset: the live life record is kept and waits to be written, behind those that wait already. -/
def keepLife (c : AB) (s : State) : State :=
  let x := s.opt.get c
  s.setOpt c { x with leaving := x.leaving ++ x.live.toList, live := none }

/-- Commits that a reset does not cancel: life records and the checkpoint are kept live (Table 19-2). -/
def survives (x : NvItem) : Bool :=
  match x with
  | .life _ | .left _ | .checkpoint => true
  | _ => false

/-- The firmware part across a reset: a load that is checking or writing is INTERRUPTED and leaves its TARGET without an image, unless
that is an image the terminal may still run (R138). Every field with Reset column NVS is kept. -/
def fwReset (s : State) : FwSt :=
  let cut := s.fw.load == .checking || s.fw.load == .writing
  let used := fun (k : Nat) => [s.fw.running, s.fw.nv.committed, s.fw.nv.confirmed, s.nvs.fw.committed, s.nvs.fw.confirmed].contains k
  let gone := fun (k : Nat) => cut && s.fw.target == k && !used k
  { s.fw with
    running := 0, nv := s.nvs.fw, stager := none, trialDied := false
    load := if cut then .bad else s.fw.load, badCause := if cut then 8 else s.fw.badCause
    slot1 := if gone 1 then [] else s.fw.slot1, ver1 := if gone 1 then 0 else s.fw.ver1
    slot2 := if gone 2 then [] else s.fw.slot2, ver2 := if gone 2 then 0 else s.fw.ver2 }

/-- Every part that is no register returns to its reset value but for what R179 keeps; the GPIO pads keep what they drive. -/
def resetState (s : State) : State :=
  let r := State.reset
  { r with
    pending := s.pending, out := s.out, free := s.free, clock := s.clock, last := s.last, era := s.era + 1
    regs := s.regs, hdrs := []
    power := { r.power with
      phase := s.power.phase, mode := s.power.mode, lastCause := s.power.lastCause, wakeCause := s.power.wakeCause,
      resetCause := s.power.resetCause, tries := s.power.tries, failRec := s.power.failRec,
      lossUnrecorded := s.power.lossUnrecorded, vhist := s.power.vhist, pads := padsNow s, vauxLow := s.power.vauxLow,
      refclkAbsent := s.power.refclkAbsent }
    backup := { s.backup with pressUs := 0 }
    nvs := { s.nvs with pend := s.nvs.pend.filter survives, deferring := false }
    keeper := { r.keeper with started := false, starts := 0 }
    fw := fwReset s
    ecc := { r.ecc with spares := s.nvs.spares }
    opt := ⟨{ OptSt.reset with leaving := s.opt.a.leaving }, { OptSt.reset with leaving := s.opt.b.leaving }⟩ }

/-- A reset that reaches the logic domain. MOD_ABS_x is a level, and stays. -/
def resetLogic (s : State) : State :=
  let s := keepLife .b (keepLife .a s)
  let here := fun (c : AB) => s.flag (regAddr (pOpt c) 0x100) 0
  let t := resetRegsOf (fun _ => true) (resetState s)
  (t.setFlag (regAddr (pOpt .a) 0x100) 0 (here .a)).setFlag (regAddr (pOpt .b) 0x100) 0 (here .b)

/-! ### Start-up (R15, R37, R173 to R177) -/

/-- The start-up sequencer enters a step; the ready signals of the steps before it are asserted (R174). -/
def enterStep (p : Phase) (ready : Nat) (s : State) : State :=
  (s.setPower { s.power with phase := p }).setFld (regAddr pPwr 0x110) 0 4 ready

/-- Start at step 1 from DORMANT. -/
def startUp (entry reset : Nat) (s : State) : State :=
  enterStep .step1 0 (s.setPower { s.power with wakeCause := entry, resetCause := reset, tries := 0 })

/-- DORMANT with MAIN_EN deasserted, or no main power. -/
def asleep (s : State) : Bool := s.power.phase == .dormant || s.power.phase == .unpowered

/-- WAKE (R15, R16). -/
def execWake (s : State) : Result State := if asleep s then .next (startUp 0x02 2 s) else .next s

/-- POWER_ON (R15). -/
def execPowerOn (s : State) : Result State := if asleep s then .next (startUp 0x01 1 s) else .next s

/-- PWR_SEQ_TIME of a step. -/
def stepTook (i us : Nat) (s : State) : State := s.setFld (regAddr pPwr (0x114 + 4 * i)) 0 16 us

/-- REG_READY. -/
def execRegReady (us : Nat) (s : State) : Result State :=
  if s.power.phase = .step1 then .next (enterStep .step2 1 (stepTook 0 us s)) else .next s

/-- OSC_READY. -/
def execOscReady (us : Nat) (s : State) : Result State :=
  if s.power.phase = .step2 then .next (enterStep .step3 3 (stepTook 1 us s)) else .next s

/-- A spare of a bank fails its start-up test. -/
def spareFailed (m b : Nat) (s : State) : State :=
  let k := 256 * m + b
  { s with ecc := { s.ecc with failed := tblSet 0 k (tblGet 0 k s.ecc.failed + 1) s.ecc.failed } }

/-- MEM_READY: rows that failed their test move to spares; a bank without one goes the way of R505 (R175, R504). -/
def execMemReady (us : Nat) (rows : List BadRow) (spares : List (Nat × Nat)) (s : State) : Result State :=
  if s.power.phase ≠ .step3 then .next s
  else
    let s := spares.foldl (fun s x => spareFailed x.1 x.2 s) s
    let s := rows.foldl (fun s r => remapRow ⟨r.mem, r.bank, r.row, 0⟩ s) s
    .next (enterStep .step4 7 (stepTook 2 us s))

/-- The mode that a code of Table 1-3 names, in its first sub-state. -/
def modeOf (n : Nat) : Mode :=
  match n % 4 with
  | 0 => .dormant | 1 => .attach .o1 | 2 => .service .normal | _ => .holdover .lost

/-- The stored history entries come back to the ring (R29). -/
def restoreHist (s : State) : State :=
  let l := s.nvs.hist
  let s := (l.zipIdx).foldl (fun s x => (s.wp pPwr (0x200 + 8 * x.2) x.1.1).wp pPwr (0x204 + 8 * x.2) x.1.2) s
  let seq := match l.getLast? with
    | some e => bits e.1 24 8
    | none => 255
  s.wp pPwr 0x108 (word (l.length % 16 + seq * 256))

/-- The entry of an uncontrolled power loss (R30). With no stored entry the last mode is a free value. -/
def lossEntry (s : State) : State :=
  if !s.power.lossUnrecorded then s
  else
    let from_ := match s.nvs.hist.getLast? with
      | some e => (bits e.1 4 3, s)
      | none =>
        let f := s.takeFree
        (f.1.toNat, f.2)
    writeHist (modeOf from_.1) .dormant 0x42 true (from_.2.setPower { from_.2.power with lossUnrecorded := false })

/-- What a wake does before its own history entry. -/
def wakeRecords (s : State) : State := bkpChanged ((lossEntry (restoreHist s)).bump (regAddr pBkp 0x124) 1)

/-- PWR_SEQ, PWR_RESET_CAUSE and PWR_RESET_LOSS at LOGIC_READY. -/
def startRegisters (s : State) : State :=
  let s := s.wp pPwr 0x110 (word (15 + s.power.failRec.1 % 16 * 2 ^ 8 + s.power.failRec.2 % 4 * 2 ^ 12))
  let s := if s.power.failRec = (0, 0) then s else bkpChanged (s.setPower { s.power with failRec := (0, 0) })
  let s := (s.setFld (regAddr pPwr 0x124) 0 4 s.power.resetCause).bumpFld (regAddr pPwr 0x124) 16 16 1
  let s := s.wp pPwr 0x12C (match s.nvs.stopLoss with
    | some n => word n
    | none => 0xFFFFFFFF)
  s.setNvs { s.nvs with stopLoss := none }

/-- The backup domain's news from the time when the logic domain was off (R223, R233), and the presence token. -/
def startNews (s : State) : State :=
  let s := if s.backup.tamperOff then raise pBkp 1 s else s
  let s := if s.backup.sealOff then raise pBkp 0 s else s
  let s := { s with backup := { s.backup with tamperOff := false, sealOff := false } }
  let s := if s.present then raise pPrs 0 s else s
  if strapUntrusted s then raise pPrs 2 s else s

/-- The pad groups that PWR_HOLD_AUTO names are released (R197). -/
def autoRelease (s : State) : State :=
  let r := s.rp pPwr 0x16C
  let s := if bit r 0 then setHold (pOpt .a) false s else s
  let s := if bit r 1 then setHold (pOpt .b) false s else s
  if bit r 2 then setHold pPwr false s else s

/-- LOGIC_READY (R177): the records of the start, the mode entry, and what starts with the logic domain. -/
def execLogicReady (i : StartIn) (s : State) : Result State :=
  if s.power.phase ≠ .step4 then .next s
  else
    let s := startRegisters (startRecord (stepTook 3 i.us s))
    let s := s.setPower { s.power with phase := .running, tries := 0 }
    let s := if s.power.mode = .dormant then wakeRecords s else s
    let s := transition (.attach .o1) s.power.wakeCause (tsuStart s)
    let s := autoRelease (startNews (measureVbat i.vbatMv s))
    let s := keeperStart (startTraining s)
    .next (settle s (pmbStart i.pmb s))

/-- A failed attempt: the logic domain is held in reset. The attempt waits for its retry, or is the third: the terminal stays DORMANT
(R174, R176). -/
def startFailed (k : Nat) (s : State) : State :=
  let n := s.power.tries + 1
  let ready := s.fld (regAddr pPwr 0x110) 0 2
  let s := resetLogic s
  let s := enterStep .failed ready (bkpChanged (s.setPower { s.power with tries := n, failRec := (k, n) }))
  if n < 3 then s
  else tamper 0x13 k (enterStep .dormant 0 (s.setPower { s.power with mode := .dormant, tries := 0 }))

/-- STARTUP_STEP_TIMEOUT. -/
def execStartupStepTimeout (s : State) : Result State :=
  match s.power.phase with
  | .step1 => .next (startFailed 1 s)
  | .step2 => .next (startFailed 2 s)
  | .step3 => .next (startFailed 3 s)
  | .step4 => .next (startFailed 4 s)
  | _ => .next s

/-- STARTUP_RETRY. -/
def execStartupRetry (s : State) : Result State :=
  if s.power.phase = .failed then .next (enterStep .step1 0 s) else .next s

/-! ### Resets (Table 6-3) -/

/-- A reset with a cause restarts the sequence at a step; the mode entry at LOGIC_READY has cause RESET. -/
def resetTo (cause : Nat) (p : Phase) (ready : Nat) (s : State) : State :=
  let s := resetLogic s
  enterStep p ready (s.setPower { s.power with resetCause := cause, wakeCause := 0x03, tries := 0 })

/-- The start under way is interrupted (R37). -/
def restart (cause : Nat) (p : Phase) (ready : Nat) (s : State) : State :=
  enterStep p ready (s.setPower { s.power with resetCause := cause, wakeCause := 0x03 })

/-- RESET_PIN (R37, R205). -/
def execResetPin (s : State) : Result State :=
  match s.power.phase with
  | .running => .next (resetTo 3 .step3 3 s)
  | .step1 | .step2 | .failed => .next (restart 3 .step1 0 s)
  | .step3 | .step4 => .next (restart 3 .step3 3 (resetLogic s))
  | _ => .next s

/-- PGOOD_LOSS (R37, R196, R204). While a failed start waits, REG_READY tells whether VCORE_PG had been high. -/
def execPgoodLoss (s : State) : Result State :=
  match s.power.phase with
  | .running => .next (resetTo 4 .step1 0 s)
  | .step2 | .step3 | .step4 => .next (restart 4 .step1 0 (resetLogic s))
  | .failed => if s.flag (regAddr pPwr 0x110) 0 then .next (restart 4 .step1 0 s) else .next s
  | _ => .next s

/-- PWR_RESET_CMD (R181). -/
def resetCmdHandler : Handler :=
  { plain pPwr 0x128 with
    run := fun m v s => if bit v 0 then s.setPower { s.power with hostReset := some m } else s }

/-- RESET_CMD. -/
def execResetCmd (m : AB) (s : State) : Result State := whenOn s <| .next (writeReg m pPwr 0x128 resetCmdHandler (field 0 1 1) s)

/-- HOST_RESET: the response to an accepted RESET_CMD has left. -/
def execHostReset (s : State) : Result State := whenOn s <|
  match s.power.hostReset with
  | none => .next s
  | some _ => .next (resetTo 5 .step3 3 (recordLoss s))

/-! ### Power-down (R24, R200, R201, R205) -/

/-- Step 1 and 2 of Table 6-9: the history entry, the lasers off, ingress stopped. Entry to DORMANT closes the press window (R218). -/
def startPowerDown (cause : Nat) (s : State) : State :=
  let s := closeWindow (transition .dormant cause s)
  let s := abortAll .b (abortAll .a s)
  s.setPower { s.power with pads := padsNow s, phase := .powerDown }

/-- PWR_MODE_CMD. A write of both bits is a SHUTDOWN (R32). -/
def modeCmdHandler : Handler :=
  { plain pPwr 0x104 with
    run := fun _ v s => if bit v 0 then startPowerDown 0x40 s else if bit v 1 then reattach s else s }

/-- SHUTDOWN. -/
def execShutdown (m : AB) (s : State) : Result State := whenOn s <| .next (writeReg m pPwr 0x104 modeCmdHandler (field 0 1 1) s)

/-- REATTACH. -/
def execReattach (m : AB) (s : State) : Result State := whenOn s <| .next (writeReg m pPwr 0x104 modeCmdHandler (field 1 1 1) s)

/-- THERMAL: the controlled power-down, or the end of a start-up. -/
def execThermal (s : State) : Result State :=
  match s.power.phase with
  | .running => .next (startPowerDown 0x41 s)
  | .step1 | .step2 | .step3 | .step4 | .failed =>
    let s := bkpChanged (resetLogic s)
    .next (tamper 0x13 5 (enterStep .dormant 0 (s.setPower { s.power with mode := .dormant, tries := 0, failRec := (5, 1) })))
  | _ => .next s

/-- Every life record that is not in the store yet is written. -/
def checkpointLife (c : AB) (s : State) : State :=
  let s := (s.opt.get c).leaving.foldl (fun s _ => writeLeft c (wearBlock s)) s
  let s := if (s.opt.get c).live.isSome then writeLife c (wearBlock s) else s
  s.setOpt c { s.opt.get c with live := none, leaving := [] }

/-- POWERDOWN_COMPLETE: steps 3 and 4 of Table 6-9. -/
def execPowerdownComplete (s : State) : Result State :=
  if s.power.phase ≠ .powerDown then .next s
  else
    let s := checkpointLife .b (checkpointLife .a (flushNvs s))
    let s := writeRecord (recordLoss (commitItem .checkpoint (wearBlock s)))
    let s := resetLogic s
    .next (enterStep .dormant 0 s)

/-! ### Uncontrolled losses (R30, R527, R551) -/

/-- Main power or VIO goes without warning: the logic stops, what waited for the non-volatile store is lost, and the backup record may
have been under way (R230). A loss while the terminal was DORMANT or on its way out is no move to DORMANT. -/
def uncontrolled (s : State) : State :=
  let counted := s.power.mode != .dormant || s.power.phase == .powerDown
  let s := if s.logicOn then tearRecord s else s
  let s := { s with opt := Pair.both OptSt.reset, nvs := { s.nvs with pend := [], histQ := [] } }
  let s := resetLogic s
  let s := enterStep .unpowered 0 (s.setPower { s.power with
    mode := .dormant, tries := 0, lossUnrecorded := s.power.lossUnrecorded || counted })
  let s := s.setNvs { s.nvs with stopLoss := if counted then none else s.nvs.stopLoss }
  if counted then bkpChanged (s.bump (regAddr pBkp 0x128) 1) else s

/-- The main supply is lost, by itself or with VIO. -/
def powerLost (s : State) : State :=
  match s.power.phase with
  | .unpowered => s
  | .dormant => s.setPower { s.power with phase := .unpowered }
  | _ => uncontrolled s

/-- MAIN_POWER_LOSS: the hold latches of the I/O ring keep what the GPIO and LED pads were driving (R197). -/
def execMainPowerLoss (s : State) : Result State := .next (powerLost s)

/-- VIO_LOSS: as a loss of main power, and the pads of the I/O ring float; when VIO rises again the GPIO and LED pads are inputs (R197,
R551). The terminal starts again as POWER_ON. -/
def execVioLoss (s : State) : Result State :=
  let t := powerLost s
  .next (t.setPower { t.power with pads := (0, 0) })

/-! ### VAUX and REFCLK_CLI (R552, R553) -/

/-- VAUX_LOW: module removal handling for each occupied cage. -/
def execVauxLow (s : State) : Result State :=
  if s.power.vauxLow then .next s
  else
    let t := s.setPower { s.power with vauxLow := true }
    if !s.running then .next t
    else
      let one := fun (s : State) (c : AB) =>
        if s.flag (regAddr (pOpt c) 0x100) 0 then moduleGone c (s.setOpt c { s.opt.get c with seen := false }) else s
      .next (lineSettle s (one (one (raise pPwr 7 t) .a) .b))

/-- VAUX_RESTORE: each cage is evaluated again. -/
def execVauxRestore (s : State) : Result State :=
  if !s.power.vauxLow then .next s
  else
    let t := s.setPower { s.power with vauxLow := false }
    if s.running then .next (lineSettle s (leaveOff .b (leaveOff .a t))) else .next t

/-- REFCLK_LOSS: no client PCS keeps its lock without the clock. -/
def execRefclkLoss (s : State) : Result State :=
  let s := s.setPower { s.power with refclkAbsent := true }
  .next ((List.range 8).foldl (fun s n => linkUpdate n (s.setPort n { s.port n with lock := false })) s)

/-! ### The Keeper watchdog (R178) -/

/-- A Keeper stop and restart outside Govar's doing: FLT_KEEPER_RESTARTS, KEEPER_RESTART, and a reset at the third restart within
10 min. -/
def keeperDied (s : State) : State :=
  let recent := s.keeper.restarts.filter (fun t => decide (s.clock < t + 600000000)) ++ [s.clock]
  let s := s.bump (regAddr pFlt 0x124) 1
  let s := { s with
    keeper := { s.keeper with restarts := recent }
    fw := { s.fw with trialDied := s.fw.nv.trial && s.fw.running == s.fw.nv.committed } }
  let s := keeperStart (recordFault pFlt 0x0401 (word recent.length) 0 s)
  if 3 ≤ recent.length then resetTo 6 .step3 3 (recordLoss s) else s

/-- KEEPER_WATCHDOG. -/
def execKeeperWatchdog (s : State) : Result State := whenOn s <| .next (keeperDied s)

end Sys2Proof.Machine
end

