-- ==== Sys2Proof/Machine/Scrub.lean ====
section
/-!
DEFINITION. The scrubber (R499 to R501, R513).
-/

namespace Sys2Proof.Machine

/-- A memory is out of service: a fenced bank, lane or sequencer. -/
def memOff (mem : Nat) (s : State) : Bool :=
  if mem < 0x40 then s.buf.fenced.contains mem
  else if 0x50 ≤ mem ∧ mem < 0x60 then s.pstate (pLane (mem - 0x50)) == .fenced
  else if 0x70 ≤ mem ∧ mem < 0x78 then s.pstate (pSeq (mem - 0x70)) == .fenced
  else false

/-- A memory whose rows are visited. -/
def scrubbed (mem : Nat) (s : State) : Bool := (memShape mem).isSome && !memOff mem s

/-- ECC_SCRUB_ROWS: the scrubbed rows in service. -/
def scrubRows (s : State) : Nat :=
  (((List.range 0x100).filter (fun m => scrubbed m s)).map (fun m =>
    match memShape m with
    | some (b, r, _) => b * r
    | none => 0)).sum

/-- The first memory in service from `m` on, in its first row. -/
def memFrom (m : Nat) (s : State) : Option MemLoc :=
  (((List.range 0x100).drop m).find? (fun x => scrubbed x s)).map (fun x => ⟨x, 0, 0, 0⟩)

/-- The row that ECC_SCRUB_POS names, or the first one in service after it. -/
def scrubHere (s : State) : Option MemLoc :=
  let r := s.rp pEcc 0x104
  let m := bits r 24 8
  if scrubbed m s then some ⟨m, bits r 8 4, bits r 12 12, 0⟩ else memFrom m s

/-- The row after a row; none at the end of a pass. -/
def scrubNext (l : MemLoc) (s : State) : Option MemLoc :=
  match memShape l.mem with
  | none => memFrom l.mem s
  | some (b, r, _) =>
    if l.row + 1 < r then some { l with row := l.row + 1 }
    else if l.bank + 1 < b then some { l with bank := l.bank + 1, row := 0 }
    else memFrom (l.mem + 1) s

/-- ECC_SCRUB_POS names a row. -/
def setScrubPos (l : MemLoc) (s : State) : State := s.wp pEcc 0x104 (word (l.mem * 2 ^ 24 + l.row * 2 ^ 12 + l.bank * 2 ^ 8))

/-- A UE in a buffer cell, found by the scrubber: the fault and the row's test; the packet carries the poison. -/
def scrubCellUe (l : MemLoc) (s : State) : State :=
  startRowTest l (recordFault pBuf 0x0103 (locWord l 0x7F) 0 (raise pEcc 1 (eccCount 2 1 s)))

/-- Apply a function to every packet that holds cells. -/
def mapBuffered (f : Pkt → Pkt) (s : State) : State :=
  { s with
    buf := { s.buf with queues := s.buf.queues.map (fun e => (e.1, e.2.map f)), line := s.buf.line.map f }
    mac := s.mac.map (fun e => (e.1, { e.2 with txq := e.2.txq.map f })) }

/-- A packet's cells hold a standing error in a row. -/
def upsetIn (l : MemLoc) (p : Pkt) : Bool :=
  match p.cell with
  | .upset x _ => sameRow x l
  | _ => false

/-- A packet after the scrubber has read its error. -/
def scrubPkt (l : MemLoc) (p : Pkt) : Pkt :=
  if upsetIn l p then
    match p.cell with
    | .upset _ [_] => { p with cell := .clean }
    | .upset x _ => { p with cell := .poisoned x }
    | _ => p
  else p

/-- The standing errors of the row in the cells of packets. -/
def scrubCells (l : MemLoc) (s : State) : State :=
  let found := (buffered s).filter (upsetIn l)
  found.foldl (fun s p =>
    match p.cell with
    | .upset x [b] => foundCe x b s
    | .upset x _ => scrubCellUe x s
    | _ => s) (mapBuffered (scrubPkt l) s)

/-- Queue entries that could hold a cell of a bank: queue, place and packet. -/
def bankPkts (b : Nat) (s : State) : List (Nat × Nat) :=
  s.buf.queues.flatMap (fun e => ((e.2.zipIdx).filter (fun x => inBank b x.1 && !x.1.cell.bad)).map (fun x => (e.1, x.2)))

/-- An error that strikes a cell of a bank poisons one of the queued packets with a cell there, or none: a free value decides,
because the spec gives no order in which the cells of a bank are taken. -/
def poisonCell (l : MemLoc) (s : State) : State :=
  let c := bankPkts l.mem s
  let f := s.takeFree
  match (c.drop (f.1.toNat % (c.length + 1))).head? with
  | none => f.2
  | some (k, i) => f.2.setQueue k ((f.2.queue k).modify i (fun p => { p with cell := .poisoned l }))

/-- One error that a row holds when the scrubber reads it. -/
def scrubErr (slice : Nat) (l : MemLoc) (e : RowErr) (s : State) : State :=
  let w := match memShape l.mem with
    | some (_, _, n) => e.word % n
    | none => 0
  let l := { l with word := w }
  if s.ecc.poison.contains l then s
  else match e.bits with
    | [] => s
    | [b] => foundCe l (b % 72) s
    | _ =>
      if l.mem < 0x40 then poisonCell l (scrubCellUe l s)
      else
        let s := foundUe l true s
        if l.mem = 0xB0 then keeperDied { s with ecc := { s.ecc with poison := s.ecc.poison.filter (fun x => x != l) } }
        else scrubEffect l slice s

/-- The pass ends: ECC_SCRUB_PASSES, and SCRUB_LATE for one that has run past its period (R500). -/
def passEnd (s : State) : State :=
  let s := (s.wp pEcc 0x104 0).bump (regAddr pEcc 0x108) 1
  let period := s.fld (regAddr pEcc 0x100) 0 8 * 3600000000
  if period < s.ecc.passUs then
    let late := (s.ecc.passUs - period) / 3600000000
    let s := { s with ecc := { s.ecc with passUs := 0 } }
    raise pEcc 4 (recordFault pEcc 0x0107 (word late) 0 s)
  else s

/-- SCRUB_ROW: the row at ECC_SCRUB_POS is read, with what stands in it and the errors that the command brings. -/
def execScrubRow (slice : Nat) (errs : List RowErr) (s : State) : Result State := whenOn s <|
  if !s.flag (regAddr pEcc 0x100) 8 then .next s
  else match scrubHere s with
    | none => .next s
    | some l =>
      let old := s
      let s := if some l = memFrom 0 s then { s with ecc := { s.ecc with passUs := 0 } } else s
      let s := (s.ecc.upsets.filter (fun u => sameRow u.loc l)).foldl (fun s u => readUpset true u s) s
      let s := if l.mem < 0x40 then scrubCells l s else s
      let s := errs.foldl (fun s e => scrubErr (slice % 16) l e s) s
      let s := if s.running then (match scrubNext l s with
        | some n => setScrubPos n s
        | none => passEnd s) else s
      .next (settle old s)

end Sys2Proof.Machine
end

