-- ==== Sys2Proof/Machine/Skim.lean ====
section
/-!
DEFINITION. The Skim rings (R415 to R424): records in LPDDR4X, draining by CENSUS records or by a master, and the reads of BUF_PEAK.
-/

namespace Sys2Proof.Machine

/-- A register of slice `k`'s ring, as an address. -/
def ringReg (k off : Nat) : Nat := regAddr (pSlice k 1) off

/-- Records that a ring with this DRP_RING_CFG holds. -/
def ringSize (cfg : Word) : Nat := 2 ^ (bits cfg 12 4 + 6)

/-- WR − RD of slice `k`'s ring. -/
def ringFill (k : Nat) (s : State) : Nat := (s.rd (ringReg k 0x114) - s.rd (ringReg k 0x118)).toNat

/-- The LPDDR4X byte address of record `n` of slice `k`'s ring. -/
def ringSlot (k n : Nat) (s : State) : Nat :=
  (s.region k).1 + (s.rd (ringReg k 0x110)).toNat + 32 * (n % ringSize (s.rd (ringReg k 0x10C)))

/-- The link on which slice `k`'s ring drains now (R418). -/
def pushLink (k : Nat) (s : State) : Option AB :=
  let c := s.rd (ringReg k 0x10C)
  let l : Option AB := if bits c 1 2 = 1 then some .a else if bits c 1 2 = 2 then some .b else none
  match l with
  | none => none
  | some l =>
    if bit c 0 && (s.link l).state == .up && s.flag (regAddr (pCtl l) 0x12C) 2 then some l else none

/-- Take `n` records from RD on as words. -/
def ringTake (k : Nat) : Nat → Nat → State → List Word
  | 0, _, _ => []
  | n + 1, r, s => (List.range 8).map (fun i => s.dramWord (ringSlot k r s + 4 * i)) ++ ringTake k n (r + 1) s

/-- Send the records of slice `k`'s ring in SEQ order, up to 32 in a CENSUS record (R418). -/
def pushLoop (k : Nat) (l : AB) : Nat → State → State
  | 0, s => s
  | fuel + 1, s =>
    let n := ringFill k s
    if n = 0 then s
    else
      let c := if n < 32 then n else 32
      let w := ringTake k c (s.rd (ringReg k 0x118)).toNat s
      pushLoop k l fuel (queueCensus l k w (s.bump (ringReg k 0x118) c))

/-- Drain slice `k`'s ring on its link, when it has one that takes records. -/
def pushRing (k : Nat) (s : State) : State :=
  match pushLink k s with
  | none => s
  | some l => pushLoop k l (ringFill k s / 32 + 1) s

/-- Drain every ring that may drain. -/
def pushRings (s : State) : State := (List.range 16).foldl (fun s k => pushRing k s) s

/-- Write a record: SEQ and the sampled words, at the ring start + 32 × (WR mod ring size) (R416, R417). -/
def writeSkim (x : SkimWait) (s : State) : State :=
  let k := x.slice
  let n := s.rd (ringReg k 0x114)
  let size := ringSize (s.rd (ringReg k 0x10C))
  let old := ringFill k s
  let at_ := ringSlot k n.toNat s
  let s := ((n :: x.body).zipIdx).foldl (fun s w => s.setDramWord (at_ + 4 * w.2) w.1) s
  let s := s.bump (ringReg k 0x114) 1
  let s :=
    if size ≤ old then
      let lost := s.rd (ringReg k 0x11C)
      let s := (s.bump (ringReg k 0x118) 1).bump (ringReg k 0x11C) 1
      if lost = 0 then raise (pSlice k 1) 2 s else s
    else s
  let s := if old + 1 = size / 2 then raise (pSlice k 1) 1 s else s
  pushRing k s

/-- SKIM_RECORD_WRITE: the oldest record that waits for LPDDR4X is written. -/
def execSkimRecordWrite (s : State) : Result State := whenOn s <|
  match s.buf.skimQ with
  | [] => .next s
  | x :: t => .next (writeSkim x { s with buf := { s.buf with skimQ := t } })

/-- DRP_RING_CFG (R416 to R418, Table 14-5). A change of SIZE is what a write to SIZE means while EN is 1. -/
def ringCfgHandler (k : Nat) : Handler :=
  { plain (pSlice k 1) 0x10C with
    range := fun _ v s =>
      let old := s.rd (ringReg k 0x10C)
      let base := (s.rd (ringReg k 0x110)).toNat
      (bit old 0 && bits v 12 4 != bits old 12 4) ||
        (bits v 1 2 == 1 && !s.ownsSlice .a k) || (bits v 1 2 == 2 && !s.ownsSlice .b k) ||
        (bit v 0 && (base % 4096 != 0 || decide ((s.region k).2 < base + 32 * ringSize v)))
    run := fun _ v s =>
      let p := pSlice k 1
      let off := s.flag (ringReg k 0x10C) 0 && !bit v 0
      let s := if off then ringStop k s else s
      let s := storeReg p 0x10C v s
      let s := if bit v 0 then [0x114, 0x118, 0x11C, 0x120].foldl (fun s o => s.wp p o 0) s else s
      pushRing k s }

/-- RING_BASE: RANGE while EN is 1 (Table 14-5). -/
def ringBaseHandler (k : Nat) : Handler :=
  { plain (pSlice k 1) 0x110 with range := fun _ _ s => s.flag (ringReg k 0x10C) 0 }

/-- RING_CFG_WRITE. -/
def execRingCfgWrite (m : AB) (k : Nat) (r : RingReg) (v : Word) (s : State) : Result State := whenOn s <|
  let k := k % 16
  match r with
  | .ctrl => .next (writeReg m (pSlice k 1) 0x10C (ringCfgHandler k) v s)
  | .base => .next (writeReg m (pSlice k 1) 0x110 (ringBaseHandler k) v s)

/-- RING_RD: not after WR and not before WR − ring size, in serial terms (R419, R424). -/
def ringRdHandler (k : Nat) : Handler :=
  { plain (pSlice k 1) 0x118 with
    range := fun _ v s => decide (ringSize (s.rd (ringReg k 0x10C)) < (s.rd (ringReg k 0x114) - v).toNat) }

/-- RING_RD_WRITE. -/
def execRingRdWrite (m : AB) (k : Nat) (v : Word) (s : State) : Result State := whenOn s <|
  let k := k % 16
  .next (writeReg m (pSlice k 1) 0x118 (ringRdHandler k) v s)

/-- A read of BUF_PEAK clears it. -/
def clearPeak (k : Nat) (s : State) : State := s.wp (pSlice k 4) 0x104 0

/-- BUF_PEAK_READ. -/
def execBufPeakRead (m : AB) (k : Nat) (s : State) : Result State := whenOn s <|
  let k := k % 16
  .next (runRead m (pSlice k 4) 0x104 (s.rp (pSlice k 4) 0x104) (clearPeak k) s)

end Sys2Proof.Machine
end

