-- ==== Sys2Proof/Machine/Access.lean ====
section
/-!
DEFINITION. Register access by address: the view that a read shows, what a read does, the treatment of a write, for every register of
every page, and the aperture (R81 to R102).

A row command of one register and a WRITE record that reaches the same register run the same handler.
-/

namespace Sys2Proof.Machine

/-! ### Control link registers (Table 2-4) -/

/-- The address of a control link: CTL_MAC. -/
def linkMac (l : AB) (s : State) : Nat :=
  s.fld (regAddr (pCtl l) 0x118) 0 16 * 2 ^ 32 + (s.rp (pCtl l) 0x11C).toNat

/-- CTL_MAC_HI and CTL_MAC_LO: the address as it was goes on as the source address until the write's response has left (R41). -/
def ctlMacHandler (l : AB) (off : Nat) : Handler :=
  { plain (pCtl l) off with
    run := fun _ v s =>
      let k := s.link l
      storeReg (pCtl l) off v (s.setLink l { k with macOld := k.macOld ++ [(linkMac l s, 0)] }) }

/-- CTL_CTRL: RESYNC asks for a re-synchronisation once the write's response has left (R57); CENSUS_PUSH lets rings drain (R418). -/
def ctlCtrlHandler (l : AB) : Handler :=
  { plain (pCtl l) 0x12C with
    run := fun _ v s =>
      let k := s.link l
      let s := if bit v 0 && k.hostResync.isNone then s.setLink l { k with hostResync := some 0 } else s
      pushRings (storeReg (pCtl l) 0x12C v s) }

/-- A register write without a record has no response that would have to leave: what waits for it applies at once (R41). -/
def noResponse (l : AB) (s : State) : State :=
  let k := s.link l
  s.setLink l { k with macOld := k.macOld.filter (fun e => e.2 != 0) }

/-- CTL_LINK_STATE. -/
def linkStateWord (l : AB) (s : State) : Word :=
  let k := s.link l
  word (k.state.code + k.epoch * 16 + k.cause * 256)

/-- CTL_PEER_PIN. -/
def peerPinWord (l : AB) (s : State) : Word :=
  setBits (s.rp (pCtl l) 0x128) 8 1 (b2n (s.link l).peer.isSome)

/-! ### Entries of slices (Table 14-6, Table 13-5) -/

/-- The absolute node and the word that an offset of an SCH node page shows; none beyond the slice's count. -/
def nodeSpot (i : PageInfo) (off : Nat) (s : State) : Option (Nat × Nat) :=
  let m := 32 * i.sub + (off - 0x100) / 0x20
  if off < 0x100 ∨ 0x500 ≤ off ∨ (s.nodes i.inst).2 ≤ m then none
  else some ((s.nodes i.inst).1 + m, (off - 0x100) % 0x20)

/-- The absolute node, the queue and the word that an offset of an SCH queue page shows. -/
def queueSpot (i : PageInfo) (off : Nat) (s : State) : Option (Nat × Nat × Nat) :=
  let x := 128 * (i.sub - 8) + (off - 0x100) / 16
  if off < 0x100 ∨ 0x900 ≤ off ∨ (s.nodes i.inst).2 ≤ x / 8 then none
  else some ((s.nodes i.inst).1 + x / 8, x % 8, (off - 0x100) % 16)

/-- The absolute policer and the word that an offset of a POL page shows. -/
def polSpot (i : PageInfo) (off : Nat) (s : State) : Option (Nat × Nat) :=
  let j := 256 * i.sub + (off - 0x100) / 12
  if off < 0x100 ∨ 0xD00 ≤ off ∨ (s.polRange i.inst).2 ≤ j then none
  else some ((s.polRange i.inst).1 + j, (off - 0x100) % 12)

/-- A word of an SCH page. -/
def schWord (i : PageInfo) (off : Nat) (s : State) : Word :=
  if i.sub < 8 then
    match nodeSpot i off s with
    | none => 0
    | some (a, d) => if d = 0x18 then word (nodeDepth a s) else if d < 0x18 then s.rd (nodeAddr a d) else 0
  else
    match queueSpot i off s with
    | none => 0
    | some (a, q, d) => if d = 8 then word (queueDepth a q s) else s.rd (queueAddr a q d)

/-- A word of a POL page. -/
def polWord (i : PageInfo) (off : Nat) (s : State) : Word :=
  match polSpot i off s with
  | none => 0
  | some (a, d) => s.rd (polAddr a d)

/-! ### Views -/

/-- Bit map words of something counted by `List.range`. -/
def maskWord (l : List Nat) : Word := word (l.foldl (fun a n => a + 2 ^ n) 0)

/-- Words of 4 bits each. -/
def nibbles (l : List Nat) : Word := word (l.foldr (fun n a => n % 16 + 16 * a) 0)

/-- The dispatcher registers, which every lane page shows (Table 13-6). -/
def dispatchWord (off : Nat) (s : State) : Word :=
  if off = 0x400 then word ((maskWord (lanesIn s)).toNat + (lanesIn s).length * 2 ^ 16)
  else if off = 0x404 then word ((lanesIn s).map (fun n => paceOf n s)).sum
  else if 0x500 ≤ off ∧ off < 0x520 then nibbles ((s.cls.buckets.drop (8 * ((off - 0x500) / 4))).take 8)
  else s.rp (pLane 0) off

/-- The global BUF page (Table 14-4). -/
def bufWord (off : Nat) (s : State) : Word :=
  let inService := (List.range 64).filter (fun b => !s.buf.fenced.contains b)
  if off = 0x100 then word (cellsInService s)
  else if off = 0x104 then word (cellsInService s - cellsOf (buffered s))
  else if off = 0x108 then word (sharedPool s)
  else if off = 0x10C then word (sharedUsed s)
  else if off = 0x110 then word (reserveSum s)
  else if off = 0x114 then word (b2n (reserveCut s))
  else if off = 0x118 then maskWord (inService.filter (fun b => decide (b < 32)))
  else if off = 0x11C then maskWord ((inService.filter (fun b => decide (32 ≤ b))).map (fun b => b - 32))
  else 0

/-- Position in the live log of the entry that LOG_SEL selects: the entry whose SEQ is LOG_SEL modulo 512. -/
def logSpot (s : State) : Option Nat :=
  let n := (s.rp pLog 0x100).toNat
  let len := s.log.entries.length
  (List.range len).find? (fun j => (n + 2 ^ 32 - len + j) % 512 == s.fld (regAddr pLog 0x108) 0 9)

/-- The LOG page (R512). -/
def logWord (off : Nat) (s : State) : Word :=
  if 0x200 ≤ off ∧ off < 0x220 then
    match logSpot s with
    | some j => (s.log.entries.getD j []).getD ((off - 0x200) / 4) 0
    | none => 0
  else if 0x300 ≤ off ∧ off < 0x320 then
    (s.nvs.logRing.getD (s.fld (regAddr pLog 0x10C) 0 6) []).getD ((off - 0x300) / 4) 0
  else s.rp pLog off

/-- The memory word that holds word `w` of the live entry that LOG_SEL selects. -/
def logLoc (w : Nat) (s : State) : MemLoc :=
  let e := s.fld (regAddr pLog 0x108) 0 9
  ⟨0xC0, 0, e / 2, 4 * (e % 2) + w / 2⟩

/-- The NVS page (Tables 4-11 and 19-3). -/
def nvsWord (off : Nat) (s : State) : Word :=
  if off = 0x100 then fwStateWord s
  else if off = 0x110 then s.fw.ver1
  else if off = 0x114 then s.fw.ver2
  else if off = 0x118 then Config.romVersion
  else if off = 0x144 then word (satAdd 0xFFFFF (wearMax s) 0)
  else if off = 0x148 then word (satAdd 0xFFFFF (wearMean s) 0)
  else if off = 0x14C then word (satAdd 63 s.nvs.pend.length 0 + s.nvs.histQ.length * 256)
  else s.rp pNvs off

/-- The PWR page (Tables 1-6 and 6-10). A GPIO pin that the terminal does not drive shows a free value. -/
def pwrWord (off : Nat) (s : State) : Word :=
  if off = 0x100 then word (s.power.mode.code + s.power.mode.sub * 16 + s.power.lastCause * 256)
  else if off = 0x150 then loopStateWord s
  else if off = 0x154 then word (reqOf s)
  else if off = 0x188 then
    let p := padsNow s
    ((p.1 &&& p.2) ||| (Config.freeWord s.free &&& ~~~ p.2)) &&& 0xFFF
  else if 0x3D0 ≤ off ∧ off < 0x3E0 then word (targetOf ((off - 0x3D0) / 4) s)
  else s.rp pPwr off

/-- The SEM page (Tables 4-1, 4-3 and 4-6). -/
def semWord (off : Nat) (s : State) : Word :=
  if 0x100 ≤ off ∧ off < 0x180 then semStateWord ((off - 0x100) / 4) s
  else if off = 0x200 then semHeldWord .a s
  else if off = 0x204 then semHeldWord .b s
  else if off = 0x210 then word s.masters.tie.num
  else if 0x400 ≤ off ∧ off < 0x4A0 then freezeWord (s.frz .a) (off - 0x400)
  else if 0x500 ≤ off ∧ off < 0x5A0 then freezeWord (s.frz .b) (off - 0x500)
  else if off = 0x60C then word (s.masters.malf.a + s.masters.malf.b * 2 ^ 16)
  else s.rp pSem off

/-- A master's snapshot of a word, or the live value (R557). -/
def snapOr (m : AB) (a : Nat) (live : Word) (s : State) : Word := (s.snap m a).getD live

/-- The TSU page (Table 15-4). The crystal's offset is measured outside the model: a free value. -/
def tsuWord (m : AB) (off : Nat) (s : State) : Word :=
  if off = 0x100 then tsuStateWord s
  else if off = 0x110 then word (s.nowSec / 2 ^ 32 % 65536)
  else if off = 0x114 then snapOr m (regAddr pTsu off) (word s.nowSec) s
  else if off = 0x118 then snapOr m (regAddr pTsu off) (word s.nowNs) s
  else if off = 0x11C then snapOr m (regAddr pTsu off) (word s.nowFrac) s
  else if off = 0x120 then Config.freeWord s.free
  else s.rp pTsu off

/-- A SEQ page (Table 16-5). -/
def seqWord (n off : Nat) (s : State) : Word :=
  let q := s.seq n
  if off = 0x100 then seqStatusWord n s
  else if off = 0x104 then word q.pc
  else if off = 0x108 then word q.faultPc
  else if off = 0x128 then dmemWord n s
  else if 0x140 ≤ off ∧ off < 0x1C0 then q.reg (BitVec.ofNat 5 ((off - 0x140) / 4))
  else if off = 0x1C0 then seqTimersWord n s
  else s.rp (pSeq n) off

/-- An OPT page (Table 11-3); the two cages share one life limit and one count of overwritten records. -/
def optWord (c : AB) (off : Nat) (s : State) : Word :=
  if off = 0x100 then setBits (s.rp (pOpt c) 0x100) 2 1 (b2n (txOn c s))
  else if off = 0x110 then s.rp (pOpt .a) 0x110
  else if 0x180 ≤ off ∧ off < 0x1C0 then optLifeWord c ((off - 0x180) / 4) s
  else if off = 0x1C0 then permilleWord c s
  else if off = 0x1C4 then setBits (s.rp (pOpt .a) 0x1C4) 0 9 s.nvs.life.length
  else if 0x200 ≤ off ∧ off < 0x240 then optRecWord c ((off - 0x200) / 4) s
  else s.rp (pOpt c) off

/-- A block register as master `m` reads it. -/
def blockWord (m : AB) (p off : Nat) (i : PageInfo) (s : State) : Word :=
  match i.blk with
  | .pwr => pwrWord off s
  | .bkp =>
    if off = 0x104 then word (s.backup.rtcSec / 2 ^ 32)
    else if off = 0x108 then snapOr m (regAddr p off) (word s.backup.rtcSec) s
    else if off = 0x10C then snapOr m (regAddr p off) (word s.backup.rtcSub) s
    else s.rp p off
  | .prs => if off = 0x100 then prsStateWord s else s.rp p off
  | .nvs => nvsWord off s
  | .log => logWord off s
  | .ecc =>
    if off = 0x10C then word (scrubRows s)
    else if off = 0x134 then
      let k := 256 * s.fld (regAddr pEcc 0x130) 0 8 + s.fld (regAddr pEcc 0x130) 8 8
      word (tblGet 0 k s.ecc.spares + tblGet 0 k s.ecc.failed * 256)
    else s.rp p off
  | .ctl =>
    let l := sideOf i
    if off = 0x100 then linkStateWord l s
    else if off = 0x120 then word ((s.link l).peer.getD 0 / 2 ^ 32 % 65536)
    else if off = 0x124 then word ((s.link l).peer.getD 0)
    else if off = 0x128 then peerPinWord l s
    else s.rp p off
  | .sem => semWord off s
  | .mbx => if off = 0x100 then mbxStatusWord i.inst s else s.rp p off
  | .lfr => if off = 0x120 then snapOr m (regAddr p off) (s.rp p off) s else s.rp p off
  | .btx => if off = 0x110 then setBits (s.rp p off) 1 1 (b2n (carrier s != some (sideOf i))) else s.rp p off
  | .psw =>
    if off = 0x100 then pswStateWord s
    else if off = 0x104 then warmMissWord s
    else if off = 0x110 then effPrefWord s
    else if off = 0x11C then sbOffsetWord s
    else s.rp p off
  | .opt => optWord (sideOf i) off s
  | .tsu => tsuWord m off s
  | .mac =>
    let x := s.port i.inst
    if off = 0x104 then setBits (s.rp p off) 16 1 (b2n (x.xoff != 0))
    else if off = 0x160 then setBits (s.rp p off) 0 7 x.tsq.length
    else if 0x164 ≤ off ∧ off < 0x174 then tsqWord i.inst ((off - 0x164) / 4) s
    else s.rp p off
  | .cls => if 0x400 ≤ off then dispatchWord off s else s.rp p off
  | .bufG => bufWord off s
  | .chuG => if off = 0x100 then word (churnRateSum s) else s.rp p off
  | .slcG =>
    if off = 0x140 then nibbles ((List.range 8).map (fun k => (s.sliceState k).code))
    else if off = 0x144 then nibbles ((List.range 8).map (fun k => (s.sliceState (8 + k)).code))
    else s.rp p off
  | .bufS =>
    if off = 0x100 then word (usedCells i.inst s)
    else if off = 0x108 then word (effReserve i.inst s)
    else s.rp p off
  | .schS => schWord i off s
  | .polS => polWord i off s
  | .seq => seqWord i.inst off s
  | .chk =>
    if off = 0x130 then chanRead i.inst s
    else if off = 0x134 then chanStatus i.inst s
    else s.rp p off
  | _ => s.rp p off

/-- A register of page `p` as master `m` reads it: the header, a wide counter, or a block register. -/
def regWord (m : AB) (p off : Nat) (i : PageInfo) (s : State) : Word :=
  if off < 0x100 then headerWord p off s
  else match ctrHi i off with
    | some h =>
      if off = h then ctrHiWord (regAddr p h) s
      else if off = h + 4 then snapOr m (regAddr p off) (ctrLoWord (regAddr p h) s) s
      else 0
    | none => blockWord m p off i s

/-! ### What a read does -/

/-- The memory word that holds a register, and the slice that its entry lies in (Table 18-1). -/
def regLoc (off : Nat) (i : PageInfo) (s : State) : Option (MemLoc × Nat) :=
  match i.blk with
  | .mbx => if 0x140 ≤ off ∧ off < 0x180 then some (mbxLoc i.inst ((off - 0x140) / 4), 0) else none
  | .lfr =>
    let e := (off - 0x800) / 4
    if 0x800 ≤ off then some (⟨0x68, i.inst, e / 8, e % 8 / 2⟩, 0) else none
  | .btx =>
    let n := (off - 0x200) / 4
    if 0x200 ≤ off ∧ off < 0x280 then some (⟨0x6A, i.inst, n / 2, 2 * (n % 2)⟩, 0) else none
  | .clsS =>
    if i.sub = 1 then
      let e := (off - 0x100) / 4
      if 0x100 ≤ off ∧ off < 0x900 then some (⟨0x48, i.inst, e / 8, e % 8⟩, i.inst) else none
    else if 2 ≤ i.sub ∧ i.sub < 10 ∧ 0x800 ≤ off then
      let c := (off - 0x800) / 8
      some (⟨0x49, i.sub - 2, c / 2, c % 2⟩, i.inst)
    else none
  | .schS =>
    if i.sub < 8 then (nodeSpot i off s).map (fun x => (nodeLoc x.1 x.2, i.inst))
    else (queueSpot i off s).map (fun x => (queueLoc x.1 x.2.1 x.2.2, i.inst))
  | .polS => (polSpot i off s).map (fun x => (polLoc x.1, i.inst))
  | _ => none

/-- A read of the live log entry meets poison: the entry reads as 0 with TYPE 0 from then on (Table 18-1). -/
def logPre (w : Nat) (s : State) : State × Bool :=
  let r := readLoc (logLoc w s) 0 s
  match r.2, logSpot s with
  | true, some j =>
    ({ r.1 with
      log := ⟨s.log.entries.set j (List.replicate 8 0)⟩
      ecc := { r.1.ecc with poison := r.1.ecc.poison.filter (fun x => x != logLoc w s) } }, true)
  | b, _ => (r.1, b)

/-- The read of the memory that holds a register: the state with the errors found there, and whether the word is poisoned (R494). -/
def regPre (off : Nat) (i : PageInfo) (s : State) : State × Bool :=
  if i.blk = .log ∧ 0x200 ≤ off ∧ off < 0x220 then logPre ((off - 0x200) / 4) s
  else if i.blk = .seq ∧ off = 0x128 then seqTouch i.inst (dmemSel i.inst s) s
  else match regLoc off i s with
    | some (l, k) => readLoc l k s
    | none => (s, false)

/-- A register whose view takes a free value uses that value up. -/
def useFree (i : PageInfo) (off : Nat) (s : State) : State :=
  if (i.blk = .pwr ∧ off = 0x188) ∨ (i.blk = .tsu ∧ off = 0x120) then { s with free := s.free + 1 } else s

/-- What a read does beside returning its value: RC fields clear, snapshots are taken, a message or a timestamp is taken, a result
has been read. -/
def readEffect (m : AB) (p off : Nat) (i : PageInfo) (s : State) : State :=
  let s := useFree i off (takeSnap m (regAddr p off) s)
  if off = 0x24 then clearFault p s
  else match i.blk with
    | .mbx => if 0x140 ≤ off ∧ off < 0x180 then mbxReadEffect m i.inst ((off - 0x140) / 4) s else s
    | .mac => if off = 0x170 then tsqPop i.inst s else s
    | .bufS => if off = 0x104 then clearPeak i.inst s else s
    | .seq => if off = 0x128 then dmemStep i.inst s else s
    | .chk => if off = 0x130 then chanReadEffect i.inst s else s
    | _ => s

/-! ### The treatment of writes -/

/-- The treatment of a block register (REG_WRITE has none of its own). -/
def blockHandler (p off : Nat) (i : PageInfo) : Handler :=
  match i.blk with
  | .pwr =>
    if off = 0x104 then modeCmdHandler else if off = 0x128 then resetCmdHandler
    else if off = 0x138 ∨ off = 0x13C ∨ off = 0x140 then loopHandler off else plain p off
  | .bkp =>
    if off = 0x114 then rtcSetHandler else if off = 0x11C then sealAckHandler
    else if off = 0x13C then tamperClrHandler else plain p off
  | .prs => if off = 0x108 then prsCloseHandler else if off = 0x10C then prsCfgHandler else plain p off
  | .nvs =>
    if off = 0x104 then fwCtrlHandler else if off = 0x108 then fwLenHandler
    else if off = 0x10C then fwCommitHandler else plain p off
  | .ecc => if off = 0x120 then flipMemHandler else plain p off
  | .mem =>
    if off = 0x10C then retrainHandler else if off = 0x110 ∨ off = 0x114 then reserveHandler off else plain p off
  | .ctl =>
    if off = 0x118 ∨ off = 0x11C then ctlMacHandler (sideOf i) off
    else if off = 0x12C then ctlCtrlHandler (sideOf i) else plain p off
  | .sem =>
    if 0x100 ≤ off ∧ off < 0x180 then semStateHandler ((off - 0x100) / 4)
    else if 0x180 ≤ off ∧ off < 0x200 then semLeaseHandler ((off - 0x180) / 4)
    else if off = 0x208 then semWatchHandler .a else if off = 0x20C then semWatchHandler .b
    else if off = 0x600 then frzCtrlHandler else plain p off
  | .mbx =>
    if off = 0x104 then mbxDoorbellHandler i.inst
    else if 0x140 ≤ off ∧ off < 0x180 then mbxDataHandler i.inst ((off - 0x140) / 4) else plain p off
  | .lfr =>
    if off = 0x100 then rateHandler (sideOf i)
    else if 0x800 ≤ off then portIdHandler (sideOf i) ((off - 0x800) / 4) else plain p off
  | .act =>
    if off = 0x180 then sleepCtrlHandler (sideOf i) else if off = 0x190 then guardHandler (sideOf i) else plain p off
  | .btx => if 0x200 ≤ off ∧ off < 0x280 then nodeMapHandler (sideOf i) ((off - 0x200) / 4) else plain p off
  | .psw => if off = 0x108 then pswCmdHandler else if off = 0x10C then pswCfgHandler else plain p off
  | .opt =>
    if off = 0x104 then txCtrlHandler (sideOf i) else if off = 0x108 then optRateHandler (sideOf i)
    else if off = 0x110 then lifeLimitHandler (sideOf i) else plain p off
  | .tsu =>
    if off = 0x104 ∨ off = 0x1B8 ∨ off = 0x1D4 ∨ off = 0x1F0 then tsuCfgHandler off
    else if off = 0x158 then armHandler .a else if off = 0x178 then armHandler .b
    else if off = 0x1A0 then calHandler else if off = 0x1B4 then hostAdjHandler
    else if off = 0x1BC then setSecHandler true else if off = 0x1C0 then setSecHandler false
    else if off = 0x1C4 then setNsHandler else if off = 0x1C8 then ppsOutHandler else plain p off
  | .mac =>
    if off = 0x100 then macModeHandler i.inst
    else if off = 0x10C ∨ off = 0x114 then macFcHandler i.inst off
    else if off = 0x118 ∨ off = 0x11C then macXHandler i.inst off else plain p off
  | .cls => if 0x400 ≤ off then { plain p off with run := fun _ v s => storeReg (pLane 0) off v s } else plain p off
  | .slcG =>
    if 0x100 ≤ off ∧ off < 0x140 then ownerHandler ((off - 0x100) / 4)
    else if 0x200 ≤ off ∧ off < 0x280 then permitHandler ((off - 0x200) / 4) else plain p off
  | .slcS =>
    if allocOffs.contains off then allocHandler i.inst off else if off = 0x100 then localOkHandler i.inst else plain p off
  | .drpS =>
    if i.sub ≠ 0 then plain p off
    else if off = 0x10C then ringCfgHandler i.inst else if off = 0x110 then ringBaseHandler i.inst
    else if off = 0x118 then ringRdHandler i.inst else plain p off
  | .chuS =>
    if off = 0x100 then churnRateHandler i.inst else if off = 0x104 then churnBurstHandler i.inst else plain p off
  | .clsS =>
    if i.sub = 0 ∧ off = 0x104 then ruleCmdHandler i.inst
    else if i.sub = 1 ∧ 0x100 ≤ off ∧ off < 0x900 then indirectionHandler i.inst ((off - 0x100) / 4) else plain p off
  | .schS =>
    if i.sub < 8 then
      (if 0x100 ≤ off ∧ off < 0x500 ∧ (off - 0x100) % 0x20 < 0x1C then
        nodeHandler i.inst (32 * i.sub + (off - 0x100) / 0x20) ((off - 0x100) % 0x20) else plain p off)
    else if 0x100 ≤ off ∧ off < 0x900 then
      let x := 128 * (i.sub - 8) + (off - 0x100) / 16
      queueHandler i.inst (x / 8) (x % 8) ((off - 0x100) % 16)
    else plain p off
  | .polS =>
    if 0x100 ≤ off ∧ off < 0xD00 then policerHandler i.inst (256 * i.sub + (off - 0x100) / 12) ((off - 0x100) % 12)
    else plain p off
  | .seq =>
    if off = 0x10C ∨ off = 0x110 ∨ off = 0x114 then seqCodeHandler i.inst off
    else if off = 0x11C then seqCtrlHandler i.inst else if off = 0x128 then dmemHandler i.inst
    else if 0x130 ≤ off ∧ off < 0x140 then seqBindHandler i.inst ((off - 0x130) / 4) else plain p off
  | .chk =>
    if off = 0x100 ∨ off = 0x104 ∨ off = 0x108 then chanCfgHandler i.inst off
    else if off = 0x10C then chanLenHandler i.inst else if off = 0x114 then chanStartHandler i.inst
    else if off = 0x120 then chanFeedHandler i.inst off 1 else if off = 0x124 then chanFeedHandler i.inst off 2
    else if off = 0x128 then chanFeedHandler i.inst off 4 else plain p off
  | _ => plain p off

/-- The fields of a register that a write can reach. -/
def writeFields (p off : Nat) : List Fld := if off < 0x100 then headerFields off else fieldsAt p off

/-- The treatment of a register. -/
def regHandler (p off : Nat) (i : PageInfo) : Handler := if off < 0x100 then headerHandler p off else blockHandler p off i

/-! ### One word (R94, R84) -/

/-- A word of the aperture that fails its checks; none when it passes them. -/
def memRefused (m : AB) (q : Req) (a : Nat) (write : Bool) (s : State) : Option State :=
  if s.isFrozen m then some (ended .frozen 0 .none (countRefused m s))
  else if memAllowed m a s then none
  else if write then some (refuseWrite m .denied .ownership (if foreignSlice (.mem a) s then some 2 else none) q s)
  else some (ended .denied 0 .ownership (s.bump (accBase m + 4) 1))

/-- A single-word read; its outcome stands in `last`. An address outside the map reaches nothing (R50 has refused it before). -/
def readWord (m : AB) (addr : Nat) (s : State) : State :=
  match resolve addr s with
  | none => s
  | some (.mem a) =>
    match memRefused m ⟨0x01, 0, addr, 0⟩ a false s with
    | some t => t
    | none => ended .ok (s.dramWord a) .none s
  | some (.emptySlot w) =>
    if s.isFrozen m then ended .frozen 0 .none (countRefused m s)
    else match readDenied m (.emptySlot w) s with
      | some c => ended .denied 0 c (s.bump (accBase m + 4) 1)
      | none => ended .ok 0 .none s
  | some (.reg win p off) =>
    match pageInfo p with
    | none => s
    | some i => runReadAt m win p off (regPre off i) (regWord m p off i) (readEffect m p off i) s

/-- A single-word write; its outcome stands in `last`. -/
def writeWord (m : AB) (q : Req) (v : Word) (s : State) : State :=
  match resolve q.addr s with
  | none => s
  | some (.mem a) =>
    match memRefused m q a true s with
    | some t => t
    | none => ended .ok 0 .none (s.setDramWord a v)
  | some (.emptySlot w) =>
    if s.isFrozen m then ended .frozen 0 .none (countRefused m s)
    else match writeDenied m (.emptySlot w) s with
      | some c => refuseWrite m .denied c (if c = .ownership then some 2 else none) q s
      | none => ended .ok 0 .none s
  | some (.reg win p off) =>
    match pageInfo p with
    | none => s
    | some i => runWrite m q win p off (writeFields p off) (regHandler p off i) v s

/-- The value that MASKED_WRITE writes (R48). -/
def mergeMasked (fs : List Fld) (old mask v : Word) : Word := (maskedOld fs old &&& ~~~ mask) ||| (v &&& mask)

/-- MASKED_WRITE of one word (R48): the read half has no side effect, the write half is checked as any write; OLD stands in `last`.
A poisoned word ends it with POISON before anything is written (R494). -/
def maskedWord (m : AB) (q : Req) (mask v : Word) (s : State) : State :=
  match resolve q.addr s with
  | some (.reg win p off) =>
    match pageInfo p with
    | none => s
    | some i =>
      let fs := writeFields p off
      let pre := regPre off i s
      let old := regWord m p off i pre.1
      let write := runWrite m q win p off fs (regHandler p off i) (mergeMasked fs old mask v)
      if (write s).last.status ≠ .ok then write s
      else if pre.2 then ended .poison 0 .none pre.1
      else ended .ok old .none (useFree i off (write pre.1))
  | some (.mem a) =>
    match memRefused m q a true s with
    | some t => t
    | none =>
      let old := s.dramWord a
      ended .ok old .none (s.setDramWord a (mergeMasked [] old mask v))
  | _ => writeWord m q v s

/-! ### Rows of one register -/

/-- REG_WRITE: a write of one word at a control address. An address that is not aligned or lies outside the map is refused as a
record would be (R50) and writes nothing. -/
def execRegWrite (m : AB) (addr : Nat) (v : Word) (s : State) : Result State := whenOn s <|
  if addr % 4 ≠ 0 then .next s else .next (noResponse m (writeWord m ⟨0x02, 0, addr, 0⟩ v s))

/-- CTL_RESYNC_CMD: a write of CTL_CTRL with RESYNC 1, the other bits as they stand. -/
def execCtlResyncCmd (m : AB) (s : State) : Result State := whenOn s <|
  .next (writeReg m (pCtl m) 0x12C (ctlCtrlHandler m) (setBits (s.rp (pCtl m) 0x12C) 0 1 1) s)

/-- CTL_MAC_WRITE. -/
def execCtlMacWrite (m : AB) (hi : Bool) (v : Word) (s : State) : Result State := whenOn s <|
  let off := if hi then 0x118 else 0x11C
  .next (noResponse m (writeReg m (pCtl m) off (ctlMacHandler m off) v s))

end Sys2Proof.Machine
end

