-- ==== Sys2Proof/Machine/Lanes.lean ====
section
/-!
DEFINITION. The lookup of a lane (R372): classification followed by what a frame queued toward the line means in DOZE (R292).
-/

namespace Sys2Proof.Machine

/-- LANE_LOOKUP: lane `n` takes its oldest packet, counts it, and classifies it. -/
def execLaneLookup (n : Nat) (s : State) : Result State := whenOn s <|
  let n := n % 16
  match (s.lane n).q with
  | [] => .next s
  | p :: t =>
    let r := laneRead n s
    if r.1 then .next (laneFault n r.2) else
    let s := laneWrote n r.2
    let s := settleWaiting (s.setLane n { s.lane n with q := t })
    let s := countAt (pLane n) 0x200 0x130 3 40 0 1 s
    let s := if p.second then countAt (pLane n) 0x200 0x130 3 40 1 1 s else s
    .next (wakeOn s (classify p s))

end Sys2Proof.Machine
end

