-- ==== Sys2Proof/Machine/Transact.lean ====
section
/-!
DEFINITION. The records that a master sends (Table 2-3): which are malformed (R50), and what each does and answers (R47 to R49, R66,
R67, R70 to R72, R115).

A row that stands for one record and a record inside a delivered frame run the same operation.
-/

namespace Sys2Proof.Machine

/-! ### Responses -/

/-- Queue a response or an ERROR record on a link (R49). During a re-synchronisation it joins those of the old epoch, which R62
reports. -/
def respond (l : AB) (r : Rec) (s : State) : State :=
  let k := s.link l
  if k.state = .resync then s.setLink l { k with unconf := k.unconf ++ [(none, r)] }
  else s.setLink l { k with resp := k.resp ++ [r] }

/-- Once a request's response is queued, what waits for that response counts the responses that still have to leave (R41, R57);
`had` says whether a re-synchronisation had been asked for before. -/
def closeMarks (l : AB) (had : Bool) (s : State) : State :=
  let k := s.link l
  let n := k.resp.length
  s.setLink l { k with
    macOld := k.macOld.map (fun e => if e.2 = 0 then (e.1, n) else e)
    hostResync := if had then k.hostResync else k.hostResync.map (fun _ => n) }

/-! ### Requests -/

/-- TYPE of a record. -/
def reqType : Request → Nat
  | .read .. => 0x01 | .write .. => 0x02 | .masked .. => 0x03 | .dataTx .. => 0x10 | .omciUp _ => 0x20

/-- TAG of a record; 0 where it has none. -/
def reqTag : Request → Nat
  | .read t .. => t | .write t .. => t | .masked t .. => t | .dataTx t .. => t | .omciUp _ => 0

/-- The addresses that a READ or WRITE record tests (R50): every word of an incrementing access, ADDR alone of a FIXED one. -/
def wordAddrs (addr count : Nat) (fixed : Bool) : List Nat :=
  if fixed then [addr] else (List.range count).map (fun i => addr + 4 * i)

/-- Cause 4 of R50. -/
def addrBad (addr count : Nat) (fixed : Bool) (s : State) : Bool :=
  addr % 4 != 0 || (wordAddrs addr count fixed).any (fun a => (resolve a s).isNone)

/-- Causes 3 and 4 of R50 for a record whose type and length are good; 0 where none holds. -/
def requestBad (r : Request) (s : State) : Nat :=
  match r with
  | .read _ a n fx => if n = 0 ∨ 64 < n then 3 else if addrBad a n fx s then 4 else 0
  | .write _ a fx d => if d.length = 0 ∨ 64 < d.length then 3 else if addrBad a d.length fx s then 4 else 0
  | .masked _ a _ _ => if addrBad a 1 false s then 4 else 0
  | .dataTx _ _ _ _ _ d _ => if 8 < d.length then 3 else 0
  | .omciUp _ => 0

/-! ### Reads and writes of words (R47) -/

/-- Words of a READ: those read with OK, the first status that is not OK, and the state. -/
def readLoop (m : AB) (fixed : Bool) : Nat → Nat → List Word → State → List Word × Status × State
  | 0, _, acc, s => (acc, .ok, s)
  | n + 1, a, acc, s =>
    let t := readWord m a s
    if t.last.status = .ok then readLoop m fixed n (if fixed then a else a + 4) (acc ++ [t.last.data]) t
    else (acc, t.last.status, t)

/-- Words of a WRITE: how many were written with OK, the first status that is not OK, and the state. -/
def writeLoop (m : AB) (type tag : Nat) (fixed : Bool) : List Word → Nat → Nat → State → Nat × Status × State
  | [], _, done, s => (done, .ok, s)
  | v :: t, a, done, s =>
    let u := writeWord m ⟨type, tag, a, 0⟩ v s
    if u.last.status = .ok then writeLoop m type tag fixed t (if fixed then a else a + 4) (done + 1) u
    else (done, u.last.status, u)

/-- READ (R47). -/
def runReadRec (m : AB) (tag addr count : Nat) (fixed : Bool) (s : State) : State :=
  let r := readLoop m fixed count addr [] s
  respond m ⟨0x81, r.2.1.code, word (tag % 65536 * 65536 + r.1.length * 256) :: r.1, 0⟩ r.2.2

/-- WRITE (R47). -/
def runWriteRec (m : AB) (tag addr : Nat) (fixed : Bool) (data : List Word) (s : State) : State :=
  let r := writeLoop m 0x02 tag fixed data addr 0 s
  respond m ⟨0x82, r.2.1.code, [word (tag % 65536 * 65536 + r.1 * 256)], 0⟩ r.2.2

/-- MASKED_WRITE (R48). -/
def runMaskedRec (m : AB) (tag addr : Nat) (mask value : Word) (s : State) : State :=
  let s := maskedWord m ⟨0x03, tag, addr, 0⟩ mask value s
  let old := if s.last.status = .ok then s.last.data else 0
  respond m ⟨0x83, s.last.status.code, [word (tag % 65536 * 65536), old], 0⟩ s

/-! ### Host data (R70, R71, R115, R168) -/

/-- DATA_RESP, only for a TAG that is not 0 (R49). -/
def dataResp (m : AB) (tag : Nat) (st : Status) (s : State) : State :=
  if tag % 65536 = 0 then s else respond m ⟨0x90, st.code, [word (tag % 65536 * 65536)], 0⟩ s

/-- Set the open chain of a link. -/
def setChain (m : AB) (c : Option Chain) (s : State) : State := s.setLink m { s.link m with chain := c }

/-- Another DATA_TX, or a re-synchronisation, breaks the open chain: the partial send is counted once, unless its refusal has been
counted (R71). -/
def breakChain (m : AB) (s : State) : State :=
  match (s.link m).chain with
  | none => s
  | some c =>
    let s := setChain m none s
    if c.refused.isNone then dropAt .hostChain c.slice 9 none 0 s else s

/-- The record goes on the open chain of the link. -/
def onChain (m : AB) (k : Nat) (first : Bool) (s : State) : Bool := !first && (s.link m).chain.any (fun c => c.slice == k)

/-- A record that is refused takes its whole send with it (R71): `count` counts it. One that neither opens a chain nor goes on one
belongs to no send, and the next such record is refused by itself. -/
def refuseSend (m : AB) (tag k : Nat) (first last : Bool) (st : Status) (count : State → State) (s : State) : State :=
  let on := first || onChain m k first s
  let s := if onChain m k first s then s else breakChain m s
  let s := setChain m (if last || !on then none else some ⟨k, 0, [], [], some st, false⟩) (count s)
  dataResp m tag st s

/-- The last record of a chain, or a single-record send: the outcome of the whole send (R71). -/
def finishSend (m : AB) (tag : Nat) (c : Chain) (s : State) : State :=
  if c.bytes.length ≠ c.total then dataResp m tag .range (dropAt .hostChain c.slice 9 none 0 s)
  else
    let r := hostSend c.slice tag c.desc c.late c.bytes s
    dataResp m tag r.2 r.1

/-- A record is taken into a chain, which its LAST record ends (R71). -/
def takeChain (m : AB) (tag : Nat) (last : Bool) (c : Chain) (s : State) : State :=
  if last then finishSend m tag c (setChain m none s) else dataResp m tag .ok (setChain m (some c) s)

/-- A DATA_TX from a master that is not frozen. -/
def sendRec (m : AB) (tag k : Nat) (first last : Bool) (total : Nat) (desc : List Word) (bytes : List Byte) (s : State) : State :=
  if !s.ownsSlice m k then
    refuseSend m tag k first last .denied (fun s => freezeMaster m 2 ⟨0x10, tag, 0, k⟩ (dropUnowned .hostDenied s)) s
  else match sliceRefusal k s with
    | some st => refuseSend m tag k first last st (dropAt .sliceDown k 9 none 0) s
    | none =>
      match onChain m k first s, (s.link m).chain with
      | true, some c => takeChain m tag last { c with bytes := c.bytes ++ bytes, late := c.late || !desc.isEmpty } s
      | _, _ =>
        let s := breakChain m s
        if first then takeChain m tag last ⟨k, total, desc, bytes, none, false⟩ s
        else dataResp m tag .range (dropAt .hostChain k 9 none 0 s)

/-- The status that a record owes to its chain, a record of which has been refused before (R71). -/
def chainRefusal (m : AB) (k : Nat) (first : Bool) (s : State) : Option Status :=
  if onChain m k first s then (s.link m).chain.bind Chain.refused else none

/-- DATA_TX (R70, R71). Later records of a refused send are discarded without a further count, and answered with the status of the
refusal, also while the master is frozen (R71 beside R116, assumption 38); a frozen master's other records are answered FROZEN. -/
def runDataTx (m : AB) (tag k : Nat) (first last : Bool) (total : Nat) (desc : List Word) (bytes : List Byte) (s : State) : State :=
  let frozen := s.isFrozen m
  match chainRefusal m k first s with
  | some st =>
    let s := if st = .frozen then countRefused m s else s
    dataResp m tag st (if last then setChain m none s else s)
  | none =>
    if frozen then
      let s := countRefused m s
      refuseSend m tag k first last .frozen
        (fun s => if s.ownsSlice m k then dropAt .hostFrozen k 9 none 0 s else dropUnowned .hostFrozen s) s
    else sendRec m tag k first last total desc bytes s

/-! ### OMCI_UP (R67, R72, R112, R263) -/

/-- The message with its last four bytes replaced by the MIC under `key`. -/
def omciSigned (key msg : List Byte) : List Byte :=
  let t := msg.take (msg.length - 4)
  t ++ (Config.mic key t ++ [0, 0, 0, 0]).take 4

/-- The OMCI_IK that the upstream uses: key slot 4 of the active feeder. -/
def omciKey (s : State) : State × Option (List Byte) :=
  match activeFeeder s with
  | none => (s, none)
  | some f => let s := readRow 0x69 f.num 4 0 s; (s, keyIn f 4 s)

/-- OMCI_UP. -/
def runOmciUp (m : AB) (msg : List Byte) (s : State) : State :=
  if s.isFrozen m then
    if s.ownsSlice m 0 then dropAt .hostFrozen 0 9 none 0 s else dropUnowned .hostFrozen s
  else if !s.ownsSlice m 0 then freezeMaster m 2 ⟨0x20, 0, 0, 0⟩ (dropUnowned .hostDenied s)
  else
    let k := omciKey s
    match k.2 with
    | none => dropAt .omciMic 0 9 none 0 k.1
    | some key => { k.1 with omciUpQ := k.1.omciUpQ ++ [omciSigned key msg] }

/-! ### One record -/

/-- Execute a request. -/
def runRequest (m : AB) (r : Request) (s : State) : State :=
  match r with
  | .read t a n fx => runReadRec m t a n fx s
  | .write t a fx d => runWriteRec m t a fx d s
  | .masked t a k v => runMaskedRec m t a k v s
  | .dataTx t k fi la n d b => runDataTx m t (k % 16) fi la n d b s
  | .omciUp l => runOmciUp m l s

/-- A DATA_TX or an OMCI_UP that queues a frame toward an Alloc-ID of the active feeder is a local stimulus (R292). -/
def stirs (r : Request) (old s : State) : State :=
  match r with
  | .dataTx .. => wakeOn old s
  | .omciUp _ => wakeOn old s
  | _ => s

/-- Execute a request and settle what waits for its response (R41, R57). -/
def runRecord (m : AB) (r : Request) (s : State) : State :=
  closeMarks m (s.link m).hostResync.isSome (stirs r s (runRequest m r s))

/-- A malformed record at offset `off` (R50): one ERROR record, counted in MALFORMED and in the window of R113. -/
def malformed (m : AB) (type tag off cause : Nat) (s : State) : State :=
  countMalformed m ⟨type, tag, 0, 0⟩ (respond m ⟨0x8F, 0, [word (tag % 65536 * 65536 + off % 65536), word cause], 0⟩ s)

/-- One record by itself: malformed where a field or an address is bad. -/
def oneRecord (m : AB) (r : Request) (s : State) : State :=
  let c := requestBad r s
  if c = 0 then runRecord m r s else malformed m (reqType r) (reqTag r) 0 c s

/-- READ. -/
def execRead (m : AB) (tag addr count : Nat) (fixed : Bool) (s : State) : Result State := whenOn s <|
  .next (oneRecord m (.read tag addr count fixed) s)

/-- WRITE. -/
def execWrite (m : AB) (tag addr : Nat) (fixed : Bool) (data : List Word) (s : State) : Result State := whenOn s <|
  .next (oneRecord m (.write tag addr fixed data) s)

/-- MASKED_WRITE. -/
def execMaskedWrite (m : AB) (tag addr : Nat) (mask value : Word) (s : State) : Result State := whenOn s <|
  .next (oneRecord m (.masked tag addr mask value) s)

/-- DATA_TX. -/
def execDataTx (m : AB) (tag slice : Nat) (first last : Bool) (total : Nat) (desc : List Word) (bytes : List Byte) (s : State) :
    Result State := whenOn s <|
  .next (oneRecord m (.dataTx tag slice first last total desc bytes) s)

/-- OMCI_UP. -/
def execOmciUp (m : AB) (msg : List Byte) (s : State) : Result State := whenOn s <| .next (oneRecord m (.omciUp msg) s)

/-! ### Acquiring a semaphore (R104, R107) -/

/-- One master's ACQ write, by WRITE or by a MASKED_WRITE record of the bit, whose response carries OLD. -/
def acquireWrite (m : AB) (n : Nat) (f : AcqForm) (s : State) : State :=
  match f with
  | .write => writeReg m pSem (0x100 + 4 * n) (semStateHandler n) (field 8 1 1) s
  | .masked tag => runRecord m (.masked tag (regAddr pSem (0x100 + 4 * n)) (field 8 1 1) (field 8 1 1)) s

/-- SEM_ACQUIRE: a write of ACQ = 1. With a rival the other master's ACQ starts in the same handshake: on a free semaphore the master
that SEM_TIE.NEXT names goes first and NEXT is inverted (R107), also where that master is frozen, so that the other one is granted
(assumption 41). -/
def execSemAcquire (m : AB) (n : Nat) (x : AcqIn) (s : State) : Result State := whenOn s <|
  let n := n % 32
  match x.rival with
  | none => .next (acquireWrite m n x.form s)
  | some g =>
    let form := fun (y : AB) => if y = m then x.form else g
    if (s.sem n).holder = none then
      let first := s.masters.tie
      let s := acquireWrite first.other n (form first.other) (acquireWrite first n (form first) s)
      .next { s with masters := { s.masters with tie := first.other } }
    else .next (acquireWrite m.other n g (acquireWrite m n x.form s))

/-! ### Timeouts (R66, R506) -/

/-- The page whose unit a word of a record addresses; none where nothing can be late: an empty window slot. -/
def targetPage (addr : Nat) (s : State) : Option Nat :=
  match resolve addr s with
  | some (.reg _ p _) => some p
  | some (.mem _) => some pMem
  | _ => none

/-- The target does not complete: the transaction ends with TIMEOUT and the fault stands in the page of the unit (R66, R506). -/
def lateUnit (p addr : Nat) (s : State) : State := stuckUnit p 0xFF 0x0202 (word addr) (ended .timeout 0 .none s)

/-- What a write that times out leaves: the spec states nothing about whether it took effect (R8), so a free value picks between the
state with its effect and the state without (assumption 39). -/
def mayHaveRun (effect : State → State) (s : State) : State :=
  let f := s.takeFree
  if f.1.getLsbD 0 then effect f.2 else f.2

/-- The single-word transaction has passed the checks of R94 and started executing: TIMEOUT is one of its ends. -/
def started (s : State) : Bool := s.last.status == .ok || s.last.status == .poison

/-- A READ whose word `done` does not complete: the words before it are answered, and the read has no side effect (R8, R66). -/
def lateRead (m : AB) (tag addr count : Nat) (fixed : Bool) (done : Nat) (s : State) : State :=
  let a := if fixed then addr else addr + 4 * done
  let r := readLoop m fixed done addr [] s
  match targetPage a r.2.2 with
  | some p =>
    if done < count ∧ r.2.1 = .ok ∧ started (readWord m a r.2.2) = true then
      respond m ⟨0x81, Status.timeout.code, word (tag % 65536 * 65536 + r.1.length * 256) :: r.1, 0⟩ (lateUnit p a r.2.2)
    else runReadRec m tag addr count fixed s
  | none => runReadRec m tag addr count fixed s

/-- A WRITE whose word `done` does not complete: the words before it have been written. -/
def lateWrite (m : AB) (tag addr : Nat) (fixed : Bool) (data : List Word) (done : Nat) (s : State) : State :=
  let a := if fixed then addr else addr + 4 * done
  let r := writeLoop m 0x02 tag fixed (data.take done) addr 0 s
  let last := writeWord m ⟨0x02, tag, a, 0⟩ (data.getD done 0)
  match targetPage a r.2.2 with
  | some p =>
    if done < data.length ∧ r.2.1 = .ok ∧ started (last r.2.2) = true then
      respond m ⟨0x82, Status.timeout.code, [word (tag % 65536 * 65536 + r.1 * 256)], 0⟩ (lateUnit p a (mayHaveRun last r.2.2))
    else runWriteRec m tag addr fixed data s
  | none => runWriteRec m tag addr fixed data s

/-- A MASKED_WRITE that does not complete. -/
def lateMasked (m : AB) (tag addr : Nat) (mask value : Word) (s : State) : State :=
  let run := maskedWord m ⟨0x03, tag, addr, 0⟩ mask value
  match targetPage addr s with
  | some p =>
    if started (run s) then
      respond m ⟨0x83, Status.timeout.code, [word (tag % 65536 * 65536), 0], 0⟩ (lateUnit p addr (mayHaveRun run s))
    else runMaskedRec m tag addr mask value s
  | none => runMaskedRec m tag addr mask value s

/-- A DATA_TX that is taken and whose target, the segmentation of the host port, does not complete; one that is refused or that falls
to a broken chain has no target. -/
def lateDataTx (m : AB) (tag k : Nat) (first last : Bool) (total : Nat) (desc : List Word) (bytes : List Byte) (s : State) : State :=
  if s.isFrozen m || !s.ownsSlice m k || (sliceRefusal k s).isSome || (chainRefusal m k first s).isSome ||
      !(first || onChain m k first s) then
    runDataTx m tag k first last total desc bytes s
  else dataResp m tag .timeout (lateUnit pSeg 0 (mayHaveRun (runDataTx m 0 k first last total desc bytes) s))

/-- A request whose transaction `done` does not complete within CTL_TXN_TMO (R66); one that ends before it ends as it would have
without. An OMCI_UP is answered by nothing and waits for no target. -/
def runLate (m : AB) (r : Request) (done : Nat) (s : State) : State :=
  settle s (closeMarks m (s.link m).hostResync.isSome (stirs r s
    (match r with
    | .read t a n fx => lateRead m t a n fx done s
    | .write t a fx d => lateWrite m t a fx d done s
    | .masked t a k v => lateMasked m t a k v s
    | .dataTx t k fi la n d b => lateDataTx m t (k % 16) fi la n d b s
    | .omciUp l => runOmciUp m l s)))

/-- TXN_TIMEOUT: one record by itself, given by its form, TAG and address, whose transaction `done` does not complete. -/
def execTxnTimeout (m : AB) (x : RecForm) (tag addr done : Nat) (s : State) : Result State := whenOn s <|
  let r := requestOf x tag addr
  if requestBad r s = 0 then .next (runLate m r done s) else .next (oneRecord m r s)

/-! ### The records of a delivered frame (R50, R65) -/

/-- The RLEN that Table 2-3 gives a record for the counts and lengths that it carries; none for an unknown TYPE. -/
def expectedLen (type : Nat) (w1 w2 : Word) : Option Nat :=
  let pad := fun (n : Nat) => (n + 3) / 4 * 4
  if type = 0x01 then some 12
  else if type = 0x02 then some (12 + 4 * bits w1 8 8)
  else if type = 0x03 then some 20
  else if type = 0x10 then some (12 + 4 * bits w1 0 8 + pad (bits w2 0 16))
  else if type = 0x20 then some (8 + pad (bits w1 0 16))
  else none

/-- The record at the head of `l`, the rest of the record area: its type and TAG, and its RLEN and request, or the cause for which it
is malformed (R50). -/
def parseRec (l : List Byte) (s : State) : Nat × Nat × (Nat ⊕ (Nat × Request)) :=
  let w := fun i => beWord (l.drop (4 * i))
  let type := bits (w 0) 24 8
  let fl := bits (w 0) 16 8
  let rlen := bits (w 0) 0 16
  let tag := if type = 0x01 ∨ type = 0x02 ∨ type = 0x03 ∨ type = 0x10 then bits (w 1) 16 16 else 0
  let n := bits (w 1) 8 8
  let a := bits (w 1) 0 8 * 2 ^ 32 + (w 2).toNat
  (type, tag,
    match expectedLen type (w 1) (w 2) with
    | none => .inl 1
    | some e =>
      if rlen % 4 ≠ 0 ∨ rlen ≠ e ∨ l.length < rlen then .inl 2
      else
        let words := fun (o n : Nat) => (List.range n).map (fun i => w (o + i))
        let r : Request :=
          if type = 0x01 then .read tag a n (fl % 2 == 1)
          else if type = 0x02 then .write tag a (fl % 2 == 1) (words 3 n)
          else if type = 0x03 then .masked tag a (w 3) (w 4)
          else if type = 0x10 then
            let d := bits (w 1) 0 8
            .dataTx tag (bits (w 1) 8 4) (fl % 2 == 1) (fl / 2 % 2 == 1) (bits (w 2) 16 16) (words 3 d)
              ((l.drop (12 + 4 * d)).take (bits (w 2) 0 16))
          else .omciUp ((l.drop 8).take (bits (w 1) 0 16))
        let c := if type = 0x03 ∧ n ≠ 1 then 3 else requestBad r s
        if c = 0 then .inr (rlen, r) else .inl c)

/-- The entry of a freeze record's list for a queued write (R115); none for another request. -/
def queuedWrite (r : Request) : Option QWrite :=
  match r with
  | .write t a _ _ => some ⟨t, 0x02, a / 2 ^ 32 % 256, a % 2 ^ 32⟩
  | .masked t a _ _ => some ⟨t, 0x03, a / 2 ^ 32 % 256, a % 2 ^ 32⟩
  | .dataTx t k _ _ _ _ _ => some ⟨t, 0x10, k % 16, 0⟩
  | _ => none

/-- A queued write of R115: it has been delivered and not started when the freeze takes effect. The later records of a chain that has
been refused are answered by R71 and are none (assumption 38). -/
def isQueued (m : AB) (r : Request) (s : State) : Bool :=
  match r with
  | .dataTx _ k first .. => (chainRefusal m (k % 16) first s).isNone
  | _ => true

/-- Execute the records of a frame from offset `off` on; `free` says whether the master has been unfrozen since the frame was
delivered, so that the writes behind a freeze are queued writes (R115). A record that `slow` lists does not complete in time, and the
next one goes on (R66). Nothing is executed once the logic stops (R200). -/
def runRecords (m : AB) (slow : List (Nat × Nat)) : Nat → Nat → Bool → List Byte → State → State
  | 0, _, _, _, s => s
  | fuel + 1, off, free, l, s =>
    if l.isEmpty || !s.running then s
    else match parseRec l s with
      | (type, tag, .inl c) => malformed m type tag off c s
      | (_, _, .inr (rlen, r)) =>
        let free := free || !s.isFrozen m
        let s := match free && s.isFrozen m && isQueued m r s, queuedWrite r with
          | true, some w => countQueued m w s
          | _, _ => s
        let run := match slow.find? (fun e => e.1 == off) with
          | some e => runLate m r e.2
          | none => runRecord m r
        runRecords m slow fuel (off + rlen) free (l.drop rlen) (run s)

end Sys2Proof.Machine
end

