-- ==== Sys2Proof/Machine/Links.lean ====
section
/-!
DEFINITION. The control links (chapter 2): received frames, acknowledgement and replay, epochs and re-synchronisation, and the packing of
records into frames.

Both links run the same operations; a link command has an effect while the logic domain runs or powers down.
-/

namespace Sys2Proof.Machine

/-- What a command of a control link does: nothing while the logic domain is off. -/
def linkOn (s : State) (r : Result State) : Result State := if s.running || s.power.phase == .powerDown then r else .next s

/-- Count in counter `i` of a control link (Table 2-4). -/
def linkCount (l : AB) (i : Nat) (s : State) : State := s.bump (regAddr (pCtl l) (0x200 + 4 * i)) 1

/-! ### Sending -/

/-- The source address of the next frame: one that was replaced goes on until the response to its replacement has left (R41). -/
def sourceMac (l : AB) (s : State) : Nat := (((s.link l).macOld.head?).map Prod.fst).getD (linkMac l s)

/-- A frame leaves through transmit edge FIFO 20 or 21, which may invert its FCS (R497). -/
def emitFrame (l : AB) (f : TxFrame) (s : State) : State :=
  let t := transit (0x98 + l.num) s
  linkCount l 1 (t.2.emit (.frame l f t.1))

/-- SEQ of the last frame delivered in the present epoch: the ACK of DATA and ACKONLY (R53). -/
def ackNow (k : LinkSt) : Nat := (k.expSeq + 65535) % 65536

/-- A record as it leaves, most significant byte first (R44): word 0 carries TYPE, STATUS or FLAGS, and RLEN. -/
def recBytes (r : Rec) : List Byte :=
  beBytes 1 r.ty ++ beBytes 1 r.st ++ beBytes 2 (4 + 4 * r.body.length) ++ wordsToBytes r.body

/-- The bytes of a control frame from DA through the pad (Table 2-1), most significant byte first (R44): E2E_CRC stands behind the
records, over the context word of EPOCH and SEQ and every byte from offset 14 on (R45), and zero bytes fill the frame up to 60. -/
def frameWire (da sa epoch kind flags seq ack : Nat) (recs : List Rec) : List Byte :=
  let area := recs.flatMap recBytes
  let body := beBytes 1 (16 + epoch) ++ beBytes 1 (kind * 16 + flags) ++ beBytes 2 seq ++ beBytes 2 ack ++ beBytes 2 area.length ++ area
  let crc := crc32c (some (word (epoch * 65536 + seq))) body
  let l := beBytes 6 da ++ beBytes 6 sa ++ beBytes 2 0x88B5 ++ body ++ beBytes 4 crc
  l ++ List.replicate (60 - l.length) 0

/-- A frame of the present epoch to the peer, or to every station while no peer is known (R43). -/
def frameOut (l : AB) (kind flags seq ack : Nat) (recs : List Rec) (s : State) : TxFrame :=
  let k := s.link l
  let da := k.peer.getD (2 ^ 48 - 1)
  let sa := sourceMac l s
  ⟨da, sa, k.epoch, kind, flags, seq, ack, recs, frameWire da sa k.epoch kind flags seq ack recs⟩

/-- Send a RESYNC (R58). -/
def sendResync (l : AB) (s : State) : State :=
  let k := s.link l
  emitFrame l (frameOut l 2 (if k.afterReset then 2 else 0) 0 k.oldAck [] s) s

/-- Send a RESYNC_ACK (R59). -/
def sendResyncAck (l : AB) (s : State) : State := emitFrame l (frameOut l 3 0 0 (s.link l).oldAck [] s) s

/-- Send an ACKONLY, with NAK or not (R52, R54). -/
def sendAckonly (l : AB) (nak : Bool) (s : State) : State :=
  let k := s.link l
  emitFrame l (frameOut l 1 (b2n nak) k.nextSeq (ackNow k) [] s) (s.setLink l { k with ackOwed := false })

/-- Send a DATA frame, new or replayed: its ACK is the present one. -/
def sendData (l : AB) (seq : Nat) (recs : List Rec) (s : State) : State :=
  let k := s.link l
  emitFrame l (frameOut l 0 0 seq (ackNow k) recs s) (s.setLink l { k with ackOwed := false })

/-! ### Packing (R51, R73) -/

/-- An EVENT record (Table 2-3). -/
def evRec (e : Ev) : Rec := ⟨0x84, b2n e.summary, [word (e.seq * 65536 + e.page), e.pend, e.sec, e.ns], 0⟩

/-- The records that wait, in the priority of R73. -/
def waitingRecs (k : LinkSt) : List Rec := k.resp ++ k.events.map evRec ++ k.omci ++ k.rx ++ k.census

/-- The bytes of a record. -/
def recSize (r : Rec) : Nat := 4 + 4 * r.body.length

/-- How many records from the front go into `room` bytes. -/
def fits : Nat → List Rec → Nat
  | _, [] => 0
  | room, r :: t => if recSize r ≤ room then 1 + fits (room - recSize r) t else 0

/-- The waiting queues without their first `n` records. -/
def dropWaiting (n : Nat) (k : LinkSt) : LinkSt :=
  let a := n - k.resp.length
  let b := a - k.events.length
  let c := b - k.omci.length
  { k with
    resp := k.resp.drop n
    events := k.events.drop a
    omci := k.omci.drop b
    rx := k.rx.drop c
    census := k.census.drop (c - k.rx.length) }

/-- `n` responses have left: what waits for them comes nearer (R41, R57). -/
def responsesLeft (n : Nat) (k : LinkSt) : LinkSt :=
  { k with
    hostResync := k.hostResync.map (fun h => h - n)
    macOld := (k.macOld.map (fun e => (e.1, e.2 - n))).filter (fun e => e.2 != 0) }

/-- One new DATA frame with as many waiting records as it takes; it enters the replay buffer (R51). -/
def sendNew (l : AB) (s : State) : State :=
  let seq := (s.link l).nextSeq
  let s := wroteWord ⟨0x9A + l.num, 0, seq % 128, 0⟩ 0 s
  let k := s.link l
  let w := waitingRecs k
  let n := if fits 9696 w = 0 then 1 else fits 9696 w
  let s := s.setLink l { dropWaiting n k with nextSeq := (seq + 1) % 65536, replay := k.replay ++ [(seq, w.take n)] }
  let s := sendData l seq (w.take n) s
  s.setLink l (responsesLeft (if n < k.resp.length then n else k.resp.length) (s.link l))

/-- Send what waits until nothing is left, the terminal stalls with 128 unacknowledged frames (R51), or a re-synchronisation that a
master asked for is due (R57). -/
def sendWaiting (l : AB) : Nat → State → State
  | 0, s => s
  | fuel + 1, s =>
    let k := s.link l
    if k.state ≠ .up ∨ (waitingRecs k).isEmpty = true ∨ k.hostResync = some 0 then s
    else if 128 ≤ k.replay.length then
      (if k.stalled then s else linkCount l 13 (s.setLink l { k with stalled := true }))
    else sendWaiting l fuel (sendNew l s)

/-- PACK_DELAY_EXPIRY. -/
def execPackDelayExpiry (l : AB) (s : State) : Result State := linkOn s <|
  .next (sendWaiting l (waitingRecs (s.link l)).length s)

/-- ACK_DELAY_EXPIRY (R54). -/
def execAckDelayExpiry (l : AB) (s : State) : Result State := linkOn s <|
  let k := s.link l
  if k.ackOwed ∧ k.state = .up then .next (sendAckonly l false s) else .next s

/-! ### Leaving an epoch (R58, R62, R64, R71) -/

/-- A response or an ERROR record (R62). -/
def isAnswer (r : Rec) : Bool := r.ty == 0x81 || r.ty == 0x82 || r.ty == 0x83 || r.ty == 0x8F || r.ty == 0x90

/-- A DATA_RX, OMCI_DOWN or CENSUS record that is lost is counted in its slice, a CENSUS record in the slice of its ring (R64, R412). -/
def loseRec (e : Reason) (r : Rec) (s : State) : State :=
  if r.ty = 0x91 then dropAt e (bits (r.body.getD 0 0) 12 4) 9 none 0 s
  else if r.ty = 0xA0 then dropAt e 0 9 none 0 s
  else if r.ty = 0xA8 then dropAt e r.ring 9 none 0 s
  else s

/-- What stands of the old epoch when UP is left: the ACK of the RESYNC to come and the frames that are unacknowledged. -/
def leaveUp (k : LinkSt) : LinkSt :=
  if k.state = .up then
    { k with oldAck := ackNow k, oldWin := some ((k.replay.head?.map Prod.fst).getD k.nextSeq, k.replay.length) }
  else k

/-- A re-synchronisation with a cause opens an epoch: the replay buffer is flushed, responses that have not been seen acknowledged are
kept for R62, queued EVENT records are lost, an open DATA_TX chain is broken. The response of a CTL_MAC write that is flushed so will
not leave in its own right: a new link address is the source address from here on (assumption 35). -/
def openEpoch (l : AB) (cause epoch : Nat) (s : State) : State :=
  let old := (s.link l).replay
  let s := breakChain l s
  let s := (old.flatMap Prod.snd).foldl (fun s r => loseRec .ctlResync r s) s
  let k := leaveUp (s.link l)
  s.setLink l { k with
    state := .resync, epoch := epoch, cause := cause, opener := none, heard := false, waiting := false, nextSeq := 0,
    expSeq := 0, replay := [], replayRun := 0,
    unconf := k.unconf ++ old.flatMap (fun f => (f.2.filter isAnswer).map (fun r => (some f.1, r))) ++
      k.resp.map (fun r => (none, r)),
    resp := [], events := [], evtSeq := 0, hostResync := none, macOld := [], ackOwed := false, nak := none, stalled := false }

/-- The terminal starts a re-synchronisation (R58). -/
def startResync (l : AB) (cause : Nat) (s : State) : State :=
  let s := openEpoch l cause (((s.link l).epoch + 1) % 16) s
  sendResync l (s.setLink l { s.link l with waiting := true, afterReset := false, fell := false })

/-- The RESYNC that follows a reset (R43, R58, R78): epoch 0, RESET set. It goes on until it is answered (R58), also after a loss of the
link that lasted for CTL_LINKDOWN, which makes LINK_DOWN its cause (R79, assumption 36). -/
def startAfterReset (l : AB) (s : State) : State :=
  let s := openEpoch l (if (s.link l).fell then 3 else 4) 0 s
  sendResync l (s.setLink l { s.link l with waiting := true, oldAck := 0xFFFF, fell := false })

/-! ### Completing a re-synchronisation (R60, R62) -/

/-- The serial distance from `a` to `b`. -/
def seqDist (a b : Nat) : Nat := (b + 65536 - a % 65536) % 65536

/-- An old-epoch response that the peer's ACK acknowledges. -/
def ackedOld (win : Option (Nat × Nat)) (ack : Option Nat) (x : Option Nat × Rec) : Bool :=
  match win, ack, x.1 with
  | some (o, n), some a, some q =>
    let d := (seqDist o a + 1) % 65536
    decide (d ≤ n ∧ seqDist o q < d)
  | _, _, _ => false

/-- The form in which R62 reports a response; an ERROR record is sent again unchanged. -/
def unconfirmedRec (r : Rec) : Rec :=
  if r.ty = 0x8F then r
  else
    let h := r.body.headD 0 &&& 0xFFFF0000
    ⟨r.ty, Status.unconfirmed.code, if r.ty = 0x83 then [h, 0] else [h], 0⟩

/-- SUMMARY events (R62): every page with a pending interrupt that the link may be told of, and the SEM page of a frozen master. -/
def summaries (l : AB) (s : State) : State :=
  let pages := (s.hdrs.map Prod.fst).filter (fun p => (s.hdr p).pend != 0 && s.eventAllowed l p)
  let s := pages.foldl (fun s p => queueEvent l p true s) s
  if s.isFrozen l && !pages.contains pSem then queueEvent l pSem true s else s

/-- The re-synchronisation completes; `ack` is the peer's last SEQ delivered in the old epoch, none where the peer has been reset. -/
def completeResync (l : AB) (ack : Option Nat) (s : State) : State :=
  let k := s.link l
  let old := (k.unconf.filter (fun x => !ackedOld k.oldWin ack x)).map Prod.snd
  let s := s.setLink l { k with
    state := .up, waiting := false, afterReset := false, unconf := [], oldWin := none,
    resp := old.map unconfirmedRec ++ k.resp }
  let s := s.bump (regAddr (pCtl l) 0x23C) (old.filter (fun r => r.ty != 0x8F)).length
  let s := raise (pCtl l) 0 (linkCount l 12 s)
  let s := s.setLink l { s.link l with events := [], evtSeq := 0 }
  pushRings (summaries l s)

/-- The peer address that a completing frame sets; PIN keeps a known one (R42, R43). -/
def learnPeer (l : AB) (sa : Nat) (s : State) : State :=
  let k := s.link l
  if k.peer.isSome && s.flag (regAddr (pCtl l) 0x128) 0 then s else s.setLink l { k with peer := some sa }

/-! ### Received frames (R39 to R46, R52, R53, R59 to R61) -/

/-- A received ACK (R53, R55). -/
def takeAck (l : AB) (ack : Nat) (s : State) : State :=
  let k := s.link l
  let n := (seqDist ((k.replay.head?.map Prod.fst).getD k.nextSeq) ack + 1) % 65536
  if k.replay.length < n then linkCount l 10 s
  else if n = 0 then s
  else s.setLink l { k with replay := k.replay.drop n, replayRun := 0, stalled := false }

/-- Send frames of the replay buffer again; poison in it starts a re-synchronisation (R497). -/
def replayFrames (l : AB) : List (Nat × List Rec) → State → State
  | [], s => s
  | f :: t, s =>
    let r := readLoc ⟨0x9A + l.num, 0, f.1 % 128, 0⟩ 0 s
    if r.2 then startResync l 1 r.1 else replayFrames l t (sendData l f.1 f.2 r.1)

/-- Replay every unacknowledged frame and add 1 to the replay run (R55); with none there is nothing to count in TX_REPLAYS. -/
def replayAll (l : AB) (s : State) : State :=
  let k := s.link l
  if k.replay.isEmpty then s.setLink l { k with replayRun := k.replayRun + 1 }
  else replayFrames l k.replay (linkCount l 11 (s.setLink l { k with replayRun := k.replayRun + 1 }))

/-- The sequence number of a DATA frame (R52): deliver it and execute its records, or discard it as a duplicate or a gap. -/
def takeData (l : AB) (seq : Nat) (area : List Byte) (slow : List (Nat × Nat)) (s : State) : State :=
  let k := s.link l
  if seq = k.expSeq then
    runRecords l slow area.length 0 false area (s.setLink l { k with expSeq := (seq + 1) % 65536, ackOwed := true })
  else if precedes 16 seq k.expSeq then linkCount l 8 (s.setLink l { k with ackOwed := true })
  else
    let s := linkCount l 9 s
    let recent := match k.nak with
      | some (e, t) => e == k.expSeq && decide (s.clock < t + 20)
      | none => false
    if recent then s else sendAckonly l true (s.setLink l { s.link l with nak := some (k.expSeq, s.clock) })

/-- A frame of another epoch (R61), or one that the wait for RESYNC_ACK discards (R58). -/
def staleFrame (l : AB) (s : State) : State := raise (pCtl l) 3 (linkCount l 7 s)

/-- The peer's RESYNC is accepted and completes at once (R59). -/
def acceptResync (l : AB) (f : RxFrame) (s : State) : State :=
  let reset := f.flags.testBit 1
  let s := openEpoch l 2 (((s.link l).epoch + 1) % 16) s
  let s := learnPeer l f.sa s
  let s := s.setLink l { s.link l with opener := if reset then some (f.epoch, f.sa) else none }
  completeResync l (if reset then none else some f.ack) (sendResyncAck l s)

/-- A RESYNC that has passed the checks (R59 to R61). One with RESET set is taken by R59, also while the terminal's own RESYNC of a
reset waits with the same EPOCH, which R60 would fit as well (assumption 31). -/
def takeResync (l : AB) (f : RxFrame) (s : State) : State :=
  let k := s.link l
  let reset := f.flags.testBit 1
  if !reset && f.epoch == k.epoch then
    if k.waiting then completeResync l (some f.ack) (sendResyncAck l (learnPeer l f.sa s))
    else sendResyncAck l s
  else if reset && k.opener == some (f.epoch, f.sa) && !k.heard then sendResyncAck l s
  else if reset || f.epoch == (k.epoch + 1) % 16 then acceptResync l f s
  else staleFrame l s

/-- A frame of another kind of the present epoch. -/
def takeOther (l : AB) (f : RxFrame) (s : State) : State :=
  let s := s.setLink l { s.link l with heard := true }
  let k := s.link l
  if f.kind = 3 then
    if k.waiting then completeResync l (some f.ack) (learnPeer l f.sa s) else s
  else if k.waiting then staleFrame l s
  else
    let s := takeAck l f.ack s
    if f.kind = 1 then (if f.flags.testBit 0 then replayAll l s else s)
    else takeData l f.seq f.area f.slow s

/-- The source address passes R42. -/
def peerOk (l : AB) (f : RxFrame) (s : State) : Bool :=
  match (s.link l).peer with
  | none => f.kind == 2 || f.kind == 3
  | some p => f.sa == p || (f.kind == 2 && !s.flag (regAddr (pCtl l) 0x128) 0)

/-- The header fails (R46). -/
def headerBad (f : RxFrame) : Bool :=
  f.ver != 1 || decide (3 < f.kind) || f.len % 4 != 0 || decide (f.size < f.len + 30) || (f.kind == 0) == (f.len == 0)

/-- The bytes from offset 14 through the last record byte, which E2E_CRC covers (R45). -/
def crcArea (f : RxFrame) : List Byte :=
  BitVec.ofNat 8 (f.ver * 16 + f.epoch) :: BitVec.ofNat 8 (f.kind * 16 + f.flags) ::
    (beBytes 2 f.seq ++ beBytes 2 f.ack ++ beBytes 2 f.len ++ f.area)

/-- E2E_CRC holds, over the context word of EPOCH and SEQ (R45). -/
def e2eOk (f : RxFrame) : Bool := crc32c (some (word (f.epoch * 65536 + f.seq))) (crcArea f) == f.crc

/-- The record area as LEN counts it. -/
def wholeArea (f : RxFrame) : RxFrame := { f with area := (f.area ++ List.replicate (f.len - f.area.length) 0).take f.len }

/-- A frame arrives on a control link: the checks of R46 in their order, each with its counter. -/
def receiveFrame (l : AB) (f : RxFrame) (s : State) : State :=
  if !(s.link l).lock then s
  else if f.fifoFull then dropUnowned .edgeOvf (raise pPwr 6 (s.bump (regAddr pPwr (0x400 + 4 * (12 + l.num))) 1))
  else
    let f := wholeArea f
    let t := transit (0x8C + l.num) s
    let s := linkCount l 0 t.2
    if f.size < 64 ∨ 9728 < f.size ∨ f.fcsOk = false then linkCount l 2 s
    else if f.da ≠ linkMac l s ∨ f.tagged = true ∨ f.etype ≠ 0x88B5 then linkCount l 3 s
    else if !peerOk l f s then raise (pCtl l) 2 (linkCount l 4 s)
    else if headerBad f then linkCount l 5 s
    else if t.1 || !e2eOk f then linkCount l 6 s
    else if f.kind = 2 then takeResync l f s
    else if f.epoch ≠ (s.link l).epoch then staleFrame l s
    else takeOther l f s

/-- A frame as the row names its kind; a reserved KIND stands. -/
def asKind (n : Nat) (f : RxFrame) : RxFrame := if 3 < f.kind then f else { f with kind := n }

/-- DATA_FRAME_RECEIVE. -/
def execDataFrameReceive (l : AB) (f : RxFrame) (s : State) : Result State := linkOn s <| .next (receiveFrame l (asKind 0 f) s)

/-- ACKONLY_RECEIVE. -/
def execAckonlyReceive (l : AB) (f : RxFrame) (s : State) : Result State := linkOn s <| .next (receiveFrame l (asKind 1 f) s)

/-- RESYNC_RECEIVE. -/
def execResyncReceive (l : AB) (f : RxFrame) (s : State) : Result State := linkOn s <| .next (receiveFrame l (asKind 2 f) s)

/-- RESYNC_ACK_RECEIVE. -/
def execResyncAckReceive (l : AB) (f : RxFrame) (s : State) : Result State := linkOn s <|
  .next (receiveFrame l (asKind 3 f) s)

/-! ### Timers and the state of the link (R55, R57, R58, R79) -/

/-- ACK_TIMEOUT: a replay, or at replay run 8 a re-synchronisation (R55). No timer runs without an unacknowledged frame. -/
def execAckTimeout (l : AB) (s : State) : Result State := linkOn s <|
  let k := s.link l
  if k.state ≠ .up ∨ k.replay.isEmpty = true then .next s
  else if 8 ≤ k.replayRun then .next (startResync l 1 s)
  else .next (replayAll l s)

/-- RESYNC_START: the re-synchronisation that a master asked for, once the response has left (R57). -/
def execResyncStart (l : AB) (s : State) : Result State := linkOn s <|
  let k := s.link l
  if k.hostResync = some 0 ∧ k.state = .up then .next (startResync l 5 s) else .next s

/-- RESYNC_REPEAT (R58). -/
def execResyncRepeat (l : AB) (s : State) : Result State := linkOn s <|
  if (s.link l).waiting then .next (sendResync l s) else .next s

/-- LINK_LOSS. -/
def execLinkLoss (l : AB) (s : State) : Result State := linkOn s <| .next (s.setLink l { s.link l with lock := false })

/-- LINKDOWN_EXPIRY: STATE becomes DOWN, and what waits of DATA_RX, OMCI_DOWN and CENSUS is lost (R64, R79). -/
def execLinkdownExpiry (l : AB) (s : State) : Result State := linkOn s <|
  let k := s.link l
  if k.lock ∨ k.state = .down then .next s
  else
    let lost := k.omci ++ k.rx ++ k.census
    let s := s.setLink l { leaveUp k with state := .down, waiting := false, fell := true, omci := [], rx := [], census := [] }
    .next (raise (pCtl l) 1 (lost.foldl (fun s r => loseRec .ctlDown r s) s))

/-- LINK_RETURN: block lock. A DOWN link starts a re-synchronisation: the one of the reset while that is unanswered, or one with cause
LINK_DOWN (R57, R58, R79). -/
def execLinkReturn (l : AB) (s : State) : Result State := linkOn s <|
  let k := s.link l
  let s := s.setLink l { k with lock := true }
  if k.state ≠ .down then .next s
  else if k.afterReset then .next (startAfterReset l s)
  else .next (startResync l 3 s)

end Sys2Proof.Machine
end

