-- ==== Sys2Proof/Machine/Dispatch.lean ====
section
/-!
DEFINITION. The dispatch of a command to its meaning: one arm per constructor of `Instr`, in the order of the table.
-/

namespace Sys2Proof.Machine

/-- The effect of a command on everything but the queue. -/
def exec (i : Instr) (s : State) : Host.Outcome State Fault Refusal :=
  match i with
  | .wake => Sys2Proof.Machine.execWake s
  | .powerOn => Sys2Proof.Machine.execPowerOn s
  | .regReady us => Sys2Proof.Machine.execRegReady us s
  | .oscReady us => Sys2Proof.Machine.execOscReady us s
  | .memReady us rows spares => Sys2Proof.Machine.execMemReady us rows spares s
  | .logicReady x => Sys2Proof.Machine.execLogicReady x s
  | .startupStepTimeout => Sys2Proof.Machine.execStartupStepTimeout s
  | .startupRetry => Sys2Proof.Machine.execStartupRetry s
  | .resetPin => Sys2Proof.Machine.execResetPin s
  | .pgoodLoss => Sys2Proof.Machine.execPgoodLoss s
  | .resetCmd m => Sys2Proof.Machine.execResetCmd m s
  | .hostReset => Sys2Proof.Machine.execHostReset s
  | .shutdown m => Sys2Proof.Machine.execShutdown m s
  | .reattach m => Sys2Proof.Machine.execReattach m s
  | .thermal => Sys2Proof.Machine.execThermal s
  | .powerdownComplete => Sys2Proof.Machine.execPowerdownComplete s
  | .mainPowerLoss => Sys2Proof.Machine.execMainPowerLoss s
  | .vioLoss => Sys2Proof.Machine.execVioLoss s
  | .vauxLow => Sys2Proof.Machine.execVauxLow s
  | .vauxRestore => Sys2Proof.Machine.execVauxRestore s
  | .refclkLoss => Sys2Proof.Machine.execRefclkLoss s
  | .paceWindow units => Sys2Proof.Machine.execPaceWindow units s
  | .loopPeriod => Sys2Proof.Machine.execLoopPeriod s
  | .vstepAck readVout statusWord => Sys2Proof.Machine.execVstepAck readVout statusWord s
  | .stepSettleTimeout => Sys2Proof.Machine.execStepSettleTimeout s
  | .pmbusRetry => Sys2Proof.Machine.execPmbusRetry s
  | .stalledRetry => Sys2Proof.Machine.execStalledRetry s
  | .pmbAlert statusWord => Sys2Proof.Machine.execPmbAlert statusWord s
  | .pmbusPoll k v => Sys2Proof.Machine.execPmbusPoll k v s
  | .loopConfigWrite m r v => Sys2Proof.Machine.execLoopConfigWrite m r v s
  | .handshakeStuck page unit => Sys2Proof.Machine.execHandshakeStuck page unit s
  | .dataFrameReceive l f => Sys2Proof.Machine.execDataFrameReceive l f s
  | .ackonlyReceive l f => Sys2Proof.Machine.execAckonlyReceive l f s
  | .resyncReceive l f => Sys2Proof.Machine.execResyncReceive l f s
  | .resyncAckReceive l f => Sys2Proof.Machine.execResyncAckReceive l f s
  | .ackTimeout l => Sys2Proof.Machine.execAckTimeout l s
  | .resyncStart l => Sys2Proof.Machine.execResyncStart l s
  | .resyncRepeat l => Sys2Proof.Machine.execResyncRepeat l s
  | .ackDelayExpiry l => Sys2Proof.Machine.execAckDelayExpiry l s
  | .packDelayExpiry l => Sys2Proof.Machine.execPackDelayExpiry l s
  | .linkLoss l => Sys2Proof.Machine.execLinkLoss l s
  | .linkdownExpiry l => Sys2Proof.Machine.execLinkdownExpiry l s
  | .linkReturn l => Sys2Proof.Machine.execLinkReturn l s
  | .txnTimeout m x tag addr done => Sys2Proof.Machine.execTxnTimeout m x tag addr done s
  | .read m tag addr count fixed => Sys2Proof.Machine.execRead m tag addr count fixed s
  | .write m tag addr fixed data => Sys2Proof.Machine.execWrite m tag addr fixed data s
  | .maskedWrite m tag addr mask value => Sys2Proof.Machine.execMaskedWrite m tag addr mask value s
  | .dataTx m tag slice first last total desc bytes => Sys2Proof.Machine.execDataTx m tag slice first last total desc bytes s
  | .omciUp m msg => Sys2Proof.Machine.execOmciUp m msg s
  | .ctlResyncCmd m => Sys2Proof.Machine.execCtlResyncCmd m s
  | .ctlMacWrite m hi v => Sys2Proof.Machine.execCtlMacWrite m hi v s
  | .regWrite m addr v => Sys2Proof.Machine.execRegWrite m addr v s
  | .blockEnable m page => Sys2Proof.Machine.execBlockEnable m page s
  | .blockDrain m page byEnable => Sys2Proof.Machine.execBlockDrain m page byEnable s
  | .blockReset m page => Sys2Proof.Machine.execBlockReset m page s
  | .blockResetDone page => Sys2Proof.Machine.execBlockResetDone page s
  | .localHoldRelease m page => Sys2Proof.Machine.execLocalHoldRelease m page s
  | .faultDetailRead m page => Sys2Proof.Machine.execFaultDetailRead m page s
  | .selftestStart m page unit => Sys2Proof.Machine.execSelftestStart m page unit s
  | .selftestDone page pass detail => Sys2Proof.Machine.execSelftestDone page pass detail s
  | .intClear m page v => Sys2Proof.Machine.execIntClear m page v s
  | .counterHiRead m page x => Sys2Proof.Machine.execCounterHiRead m page x s
  | .rtcHiRead m => Sys2Proof.Machine.execRtcHiRead m s
  | .sfcHiRead m f => Sys2Proof.Machine.execSfcHiRead m f s
  | .tsuTimeRead m => Sys2Proof.Machine.execTsuTimeRead m s
  | .semAcquire m n x => Sys2Proof.Machine.execSemAcquire m n x s
  | .semRelease m n => Sys2Proof.Machine.execSemRelease m n s
  | .leaseExpiry n => Sys2Proof.Machine.execLeaseExpiry n s
  | .malfWindowEnd => Sys2Proof.Machine.execMalfWindowEnd s
  | .releaseA m => Sys2Proof.Machine.execReleaseA m s
  | .releaseB m => Sys2Proof.Machine.execReleaseB m s
  | .mbxDataWrite m ch k v => Sys2Proof.Machine.execMbxDataWrite m ch k v s
  | .mbxDoorbell m ch len => Sys2Proof.Machine.execMbxDoorbell m ch len s
  | .mbxTake m ch => Sys2Proof.Machine.execMbxTake m ch s
  | .keeperTake m => Sys2Proof.Machine.execKeeperTake m s
  | .info m => Sys2Proof.Machine.execInfo m s
  | .echo m => Sys2Proof.Machine.execEcho m s
  | .captureStatus m => Sys2Proof.Machine.execCaptureStatus m s
  | .captureRead m => Sys2Proof.Machine.execCaptureRead m s
  | .captureFree m => Sys2Proof.Machine.execCaptureFree m s
  | .keeperReply m => Sys2Proof.Machine.execKeeperReply m s
  | .fwOpen m => Sys2Proof.Machine.execFwOpen m s
  | .fwClose m => Sys2Proof.Machine.execFwClose m s
  | .fwLoad m => Sys2Proof.Machine.execFwLoad m s
  | .fwCheckDone => Sys2Proof.Machine.execFwCheckDone s
  | .fwWriteDone readBackOk => Sys2Proof.Machine.execFwWriteDone readBackOk s
  | .fwCommit m restart => Sys2Proof.Machine.execFwCommit m restart s
  | .fwRom m restart => Sys2Proof.Machine.execFwRom m restart s
  | .fwRestart m => Sys2Proof.Machine.execFwRestart m s
  | .fwConfirm m => Sys2Proof.Machine.execFwConfirm m s
  | .keeperWatchdog => Sys2Proof.Machine.execKeeperWatchdog s
  | .ownerMaskWrite m slice mask => Sys2Proof.Machine.execOwnerMaskWrite m slice mask s
  | .xpermitWrite m x v => Sys2Proof.Machine.execXpermitWrite m x v s
  | .sliceAllocWrite m slice off v => Sys2Proof.Machine.execSliceAllocWrite m slice off v s
  | .drainQueuesEmpty page => Sys2Proof.Machine.execDrainQueuesEmpty page s
  | .drainLimitExpiry page => Sys2Proof.Machine.execDrainLimitExpiry page s
  | .flushDone page => Sys2Proof.Machine.execFlushDone page s
  | .backupPowerUp => Sys2Proof.Machine.execBackupPowerUp s
  | .vbatMeasure mv => Sys2Proof.Machine.execVbatMeasure mv s
  | .rtcLineLoad => Sys2Proof.Machine.execRtcLineLoad s
  | .rtcSet m v => Sys2Proof.Machine.execRtcSet m v s
  | .sealPulse before after strap => Sys2Proof.Machine.execSealPulse before after strap s
  | .sealPeriodWrite m v => Sys2Proof.Machine.execSealPeriodWrite m v s
  | .sealAck m => Sys2Proof.Machine.execSealAck m s
  | .presencePress => Sys2Proof.Machine.execPresencePress s
  | .pressWindowExpiry => Sys2Proof.Machine.execPressWindowExpiry s
  | .prsClose m => Sys2Proof.Machine.execPrsClose m s
  | .tamperClear m => Sys2Proof.Machine.execTamperClear m s
  | .backupRecordWrite => Sys2Proof.Machine.execBackupRecordWrite s
  | .nvsCheckpoint => Sys2Proof.Machine.execNvsCheckpoint s
  | .psbdArrival f p => Sys2Proof.Machine.execPsbdArrival f p s
  | .rateDwellExpiry f => Sys2Proof.Machine.execRateDwellExpiry f s
  | .xgemFrameReceive f fifoFull => Sys2Proof.Machine.execXgemFrameReceive f fifoFull s
  | .losDeclare f by_ => Sys2Proof.Machine.execLosDeclare f by_ s
  | .losClear f => Sys2Proof.Machine.execLosClear f s
  | .sdSecond f => Sys2Proof.Machine.execSdSecond f s
  | .portIdWrite m f e v => Sys2Proof.Machine.execPortIdWrite m f e v s
  | .rateModeWrite m f v => Sys2Proof.Machine.execRateModeWrite m f v s
  | .keyLoad f slot key => Sys2Proof.Machine.execKeyLoad f slot key s
  | .burstProfile f => Sys2Proof.Machine.execBurstProfile f s
  | .assignOnuId f => Sys2Proof.Machine.execAssignOnuId f s
  | .rangingTime f => Sys2Proof.Machine.execRangingTime f s
  | .deactivateOnuId f => Sys2Proof.Machine.execDeactivateOnuId f s
  | .disableSerialNumber f => Sys2Proof.Machine.execDisableSerialNumber f s
  | .requestRegistration f => Sys2Proof.Machine.execRequestRegistration f s
  | .assignAllocId f => Sys2Proof.Machine.execAssignAllocId f s
  | .keyControl f => Sys2Proof.Machine.execKeyControl f s
  | .sleepAllow f => Sys2Proof.Machine.execSleepAllow f s
  | .unsupportedPloam f => Sys2Proof.Machine.execUnsupportedPloam f s
  | .eqdApply f => Sys2Proof.Machine.execEqdApply f s
  | .to1Expiry f => Sys2Proof.Machine.execTo1Expiry f s
  | .to2Expiry f => Sys2Proof.Machine.execTo2Expiry f s
  | .dozeEnter => Sys2Proof.Machine.execDozeEnter s
  | .watch => Sys2Proof.Machine.execWatch s
  | .lowPowerStart => Sys2Proof.Machine.execLowPowerStart s
  | .wakeCmd m f => Sys2Proof.Machine.execWakeCmd m f s
  | .sleepEnWrite m f on => Sys2Proof.Machine.execSleepEnWrite m f on s
  | .gateReacqTimeout => Sys2Proof.Machine.execGateReacqTimeout s
  | .rerangeTimeout => Sys2Proof.Machine.execRerangeTimeout s
  | .allocPrefetch f => Sys2Proof.Machine.execAllocPrefetch f s
  | .benAssert f late => Sys2Proof.Machine.execBenAssert f late s
  | .burstEnd f => Sys2Proof.Machine.execBurstEnd f s
  | .nodeMapWrite m f n v => Sys2Proof.Machine.execNodeMapWrite m f n v s
  | .switchComplete => Sys2Proof.Machine.execSwitchComplete s
  | .pswClear m => Sys2Proof.Machine.execPswClear m s
  | .pswManual m f => Sys2Proof.Machine.execPswManual m f s
  | .pswForce m f => Sys2Proof.Machine.execPswForce m f s
  | .pswLockout m lockA lockB => Sys2Proof.Machine.execPswLockout m lockA lockB s
  | .wtrExpiry => Sys2Proof.Machine.execWtrExpiry s
  | .moduleInsert c => Sys2Proof.Machine.execModuleInsert c s
  | .moduleRemove c => Sys2Proof.Machine.execModuleRemove c s
  | .idReadStart c => Sys2Proof.Machine.execIdReadStart c s
  | .idReadDone c x => Sys2Proof.Machine.execIdReadDone c x s
  | .idReadRetry c => Sys2Proof.Machine.execIdReadRetry c s
  | .diagPoll c bytes => Sys2Proof.Machine.execDiagPoll c bytes s
  | .laserSecond c => Sys2Proof.Machine.execLaserSecond c s
  | .lifeRecordWrite c => Sys2Proof.Machine.execLifeRecordWrite c s
  | .lifeLimitWrite m c v => Sys2Proof.Machine.execLifeLimitWrite m c v s
  | .txCtrlWrite m c v => Sys2Proof.Machine.execTxCtrlWrite m c v s
  | .clientFrameReceive n f => Sys2Proof.Machine.execClientFrameReceive n f s
  | .pauseExpiry n pri => Sys2Proof.Machine.execPauseExpiry n pri s
  | .xoffRefresh n pri => Sys2Proof.Machine.execXoffRefresh n pri s
  | .linkChange n lock fec localFault remoteFault => Sys2Proof.Machine.execLinkChange n lock fec localFault remoteFault s
  | .macModeWrite m n v => Sys2Proof.Machine.execMacModeWrite m n v s
  | .frameTransmit n poisoned fifo14Full => Sys2Proof.Machine.execFrameTransmit n poisoned fifo14Full s
  | .tsqPop m n => Sys2Proof.Machine.execTsqPop m n s
  | .laneLookup n => Sys2Proof.Machine.execLaneLookup n s
  | .churnPass => Sys2Proof.Machine.execChurnPass s
  | .ruleRead m k => Sys2Proof.Machine.execRuleRead m k s
  | .ruleWrite m k => Sys2Proof.Machine.execRuleWrite m k s
  | .ruleClear m k => Sys2Proof.Machine.execRuleClear m k s
  | .puntCapture => Sys2Proof.Machine.execPuntCapture s
  | .laneStall n => Sys2Proof.Machine.execLaneStall n s
  | .bucketReturn b => Sys2Proof.Machine.execBucketReturn b s
  | .schedRelease pn => Sys2Proof.Machine.execSchedRelease pn s
  | .skimRecordWrite => Sys2Proof.Machine.execSkimRecordWrite s
  | .ringCfgWrite m k r v => Sys2Proof.Machine.execRingCfgWrite m k r v s
  | .ringRdWrite m k v => Sys2Proof.Machine.execRingRdWrite m k v s
  | .shaperWrite m r v => Sys2Proof.Machine.execShaperWrite m r v s
  | .bufPeakRead m k => Sys2Proof.Machine.execBufPeakRead m k s
  | .armLoad m f => Sys2Proof.Machine.execArmLoad m f s
  | .slewDone => Sys2Proof.Machine.execSlewDone s
  | .holdoverLimit => Sys2Proof.Machine.execHoldoverLimit s
  | .calStart m seconds => Sys2Proof.Machine.execCalStart m seconds s
  | .calDone => Sys2Proof.Machine.execCalDone s
  | .ppsOutEdge => Sys2Proof.Machine.execPpsOutEdge s
  | .ppsOutFall => Sys2Proof.Machine.execPpsOutFall s
  | .todOutSend => Sys2Proof.Machine.execTodOutSend s
  | .ppsInEdge frac => Sys2Proof.Machine.execPpsInEdge frac s
  | .todInMessage msg => Sys2Proof.Machine.execTodInMessage msg s
  | .ppsInLoss => Sys2Proof.Machine.execPpsInLoss s
  | .synceSquelchEnd => Sys2Proof.Machine.execSynceSquelchEnd s
  | .hostAdjust m v => Sys2Proof.Machine.execHostAdjust m v s
  | .timeSet m v => Sys2Proof.Machine.execTimeSet m v s
  | .add n rd ra rb => Sys2Proof.Machine.execAdd n rd ra rb s
  | .sub n rd ra rb => Sys2Proof.Machine.execSub n rd ra rb s
  | .and n rd ra rb => Sys2Proof.Machine.execAnd n rd ra rb s
  | .or n rd ra rb => Sys2Proof.Machine.execOr n rd ra rb s
  | .xor n rd ra rb => Sys2Proof.Machine.execXor n rd ra rb s
  | .shl n rd ra rb => Sys2Proof.Machine.execShl n rd ra rb s
  | .shr n rd ra rb => Sys2Proof.Machine.execShr n rd ra rb s
  | .sra n rd ra rb => Sys2Proof.Machine.execSra n rd ra rb s
  | .sltu n rd ra rb => Sys2Proof.Machine.execSltu n rd ra rb s
  | .slt n rd ra rb => Sys2Proof.Machine.execSlt n rd ra rb s
  | .mul n rd ra rb => Sys2Proof.Machine.execMul n rd ra rb s
  | .mulhu n rd ra rb => Sys2Proof.Machine.execMulhu n rd ra rb s
  | .addi n rd ra imm => Sys2Proof.Machine.execAddi n rd ra imm s
  | .andi n rd ra imm => Sys2Proof.Machine.execAndi n rd ra imm s
  | .ori n rd ra imm => Sys2Proof.Machine.execOri n rd ra imm s
  | .xori n rd ra imm => Sys2Proof.Machine.execXori n rd ra imm s
  | .shli n rd ra imm => Sys2Proof.Machine.execShli n rd ra imm s
  | .shri n rd ra imm => Sys2Proof.Machine.execShri n rd ra imm s
  | .lui n rd imm => Sys2Proof.Machine.execLui n rd imm s
  | .sltiu n rd ra imm => Sys2Proof.Machine.execSltiu n rd ra imm s
  | .lw n rd ra imm => Sys2Proof.Machine.execLw n rd ra imm s
  | .lh n rd ra imm => Sys2Proof.Machine.execLh n rd ra imm s
  | .lb n rd ra imm => Sys2Proof.Machine.execLb n rd ra imm s
  | .sw n rs ra imm => Sys2Proof.Machine.execSw n rs ra imm s
  | .sh n rs ra imm => Sys2Proof.Machine.execSh n rs ra imm s
  | .sb n rs ra imm => Sys2Proof.Machine.execSb n rs ra imm s
  | .ldx n rd ra imm => Sys2Proof.Machine.execLdx n rd ra imm s
  | .ldxReturn n => Sys2Proof.Machine.execLdxReturn n s
  | .stx n rs ra imm => Sys2Proof.Machine.execStx n rs ra imm s
  | .beq n a b off => Sys2Proof.Machine.execBeq n a b off s
  | .bne n a b off => Sys2Proof.Machine.execBne n a b off s
  | .bltu n a b off => Sys2Proof.Machine.execBltu n a b off s
  | .bgeu n a b off => Sys2Proof.Machine.execBgeu n a b off s
  | .jal n rd off => Sys2Proof.Machine.execJal n rd off s
  | .jalr n rd ra imm => Sys2Proof.Machine.execJalr n rd ra imm s
  | .rdtime n rd imm => Sys2Proof.Machine.execRdtime n rd imm s
  | .tset n ra imm => Sys2Proof.Machine.execTset n ra imm s
  | .wait n rd imm => Sys2Proof.Machine.execWait n rd imm s
  | .waitReturn n => Sys2Proof.Machine.execWaitReturn n s
  | .wdog n => Sys2Proof.Machine.execWdog n s
  | .evt n imm => Sys2Proof.Machine.execEvt n imm s
  | .cnt n ra imm => Sys2Proof.Machine.execCnt n ra imm s
  | .fsend n rd ra rb => Sys2Proof.Machine.execFsend n rd ra rb s
  | .rxhead n rd => Sys2Proof.Machine.execRxhead n rd s
  | .rxfree n => Sys2Proof.Machine.execRxfree n s
  | .cstart n ra imm => Sys2Proof.Machine.execCstart n ra imm s
  | .cfeed n ra imm => Sys2Proof.Machine.execCfeed n ra imm s
  | .cres n rd imm => Sys2Proof.Machine.execCres n rd imm s
  | .cresReturn n => Sys2Proof.Machine.execCresReturn n s
  | .halt n => Sys2Proof.Machine.execHalt n s
  | .illegalInstruction n w => Sys2Proof.Machine.execIllegalInstruction n w s
  | .icacheFill n => Sys2Proof.Machine.execIcacheFill n s
  | .seqTimerFire n t => Sys2Proof.Machine.execSeqTimerFire n t s
  | .seqWatchdog n => Sys2Proof.Machine.execSeqWatchdog n s
  | .seqRestart m n => Sys2Proof.Machine.execSeqRestart m n s
  | .seqInv m n => Sys2Proof.Machine.execSeqInv m n s
  | .dmemDataRead m n => Sys2Proof.Machine.execDmemDataRead m n s
  | .dmemDataWrite m n v => Sys2Proof.Machine.execDmemDataWrite m n v s
  | .chkStart m n fold => Sys2Proof.Machine.execChkStart m n fold s
  | .chkFeedByte m n v => Sys2Proof.Machine.execChkFeedByte m n v s
  | .chkFeedHalf m n v => Sys2Proof.Machine.execChkFeedHalf m n v s
  | .chkFeedWord m n v => Sys2Proof.Machine.execChkFeedWord m n v s
  | .chkResultRead m n => Sys2Proof.Machine.execChkResultRead m n s
  | .scrubRow slice errs => Sys2Proof.Machine.execScrubRow slice errs s
  | .targetedSelftestDone pass => Sys2Proof.Machine.execTargetedSelftestDone pass s
  | .flipArm m v => Sys2Proof.Machine.execFlipArm m v s
  | .nvsCommit => Sys2Proof.Machine.execNvsCommit s
  | .trainComplete o => Sys2Proof.Machine.execTrainComplete o s
  | .retrain m => Sys2Proof.Machine.execRetrain m s
  | .twoWireRetry c => Sys2Proof.Machine.execTwoWireRetry c s
  | .thermalWarn tj => Sys2Proof.Machine.execThermalWarn tj s

end Sys2Proof.Machine
end

