-- ==== Sys2Proof/Machine/Tick.lean ====
section
/-!
DEFINITION. The passing of one microsecond, which is what a step does on an empty queue (DESIGN CHOICE, assumption 14).

It moves what the spec measures by time: the time of day, the RTC, the buckets, and how long things have run.
What happens when a time runs out is a command of its own.
-/

namespace Sys2Proof.Machine

/-- A time that is left, one microsecond later; the command that ends it takes the last one away. -/
def less (n : Nat) : Nat := if n ≤ 1 then n else n - 1

/-- One microsecond of a semaphore's lease (R106). -/
def tickSem (n : Nat) (s : State) : State :=
  let x := s.sem n
  s.setSem n { x with leaseUs := x.leaseUs.map less }

/-- One microsecond of leases and of the malformed window (R106, R113). -/
def tickMasters (s : State) : State :=
  let s := (s.masters.sems.map Prod.fst).foldl (fun s n => tickSem n s) s
  { s with masters := { s.masters with malfLeft := less s.masters.malfLeft } }

/-- One microsecond of page `p`'s drain (R157). -/
def tickDrain (p : Nat) (s : State) : State :=
  let h := s.hdr p
  if h.state = .draining ∨ h.state = .flushing then s.setHdr p { h with drainUs := h.drainUs + 1 } else s

/-- One microsecond of sequencer `n`'s timers and watchdog (R463, R465). -/
def tickSeq (n : Nat) (s : State) : State :=
  let q := s.seq n
  let on := q.run == .running || q.run == .waiting
  s.setSeq n { q with
    timers := q.timers.map (fun e => (e.1, if e.2.armed then { e.2 with left := less e.2.left } else e.2))
    wdogUs := if on then q.wdogUs + 1 else q.wdogUs }

/-- One microsecond of the Keeper's time since its start (Table 4-8). -/
def tickKeeper (s : State) : State :=
  let k := s.keeper
  { s with keeper :=
    if k.upUs + 1 < 1000000 then { k with upUs := k.upUs + 1 } else { k with upUs := 0, upSec := (k.upSec + 1) % 2 ^ 32 } }

/-- One microsecond of the logic domain. -/
def tickLogic (s : State) : State :=
  let old := s
  let s := wakeOn old (segRun s.seg.length s)
  let s := tickKeeper (tickMasters (refillChurn (refillBuckets (tsuTick s))))
  let s := (s.hdrs.map Prod.fst).foldl (fun s p => tickDrain p s) s
  let s := (s.seqs.map Prod.fst).foldl (fun s n => tickSeq n s) s
  { s with ecc := { s.ecc with passUs := s.ecc.passUs + 1 } }

/-- One microsecond: the backup domain always, the logic domain while it runs. -/
def tick (s : State) : State :=
  let s := rtcTick { s with clock := s.clock + 1, backup := { s.backup with pressUs := less s.backup.pressUs } }
  if s.running then tickLogic s else s

end Sys2Proof.Machine
end

