-- ==== Sys2Proof/Safety.lean ====
section
/-!
DEFINITION. What counts as a sound state and a safe step, and the terms in which statements speak: what holds after a command, which parts
of the state and which registers a command leaves alone, and when a write passes the checks of R94.
-/

namespace Sys2Proof.Machine

/-- The sparse tables of the state that every register access goes through are in their canonical form, and so is memory. -/
def State.canonical (s : State) : Bool :=
  tblWf resetWord s.regs && tblWf (fun _ => 0) s.ctrs && tblWf hdrReset s.hdrs && s.dram.wf

/-- A step from `s` goes on: it neither faults nor refuses. -/
def State.goesOn (s : State) : Prop := ∃ t, step s = .next t

/-- The outcome is a next state, of which `P` holds. -/
def After (r : Result State) (P : State → Prop) : Prop := ∃ t, r = .next t ∧ P t

/-- The parts of the state. -/
inductive Part where
  | pending | regs | ctrs | snaps | hdrs | last | out | free | clock | era | dram | power | backup | nvs | links | masters | mbx
  | keeper | fw | log | cls | buf | mac | tsu | chk | seqs | ecc | lfr | act | btx | psw | opt | keys | omciUpQ | seg
deriving DecidableEq, Repr

/-- A part is the same in two states. -/
def Part.same : Part → State → State → Prop
  | .pending, s, t => t.pending = s.pending
  | .regs, s, t => t.regs = s.regs
  | .ctrs, s, t => t.ctrs = s.ctrs
  | .snaps, s, t => t.snaps = s.snaps
  | .hdrs, s, t => t.hdrs = s.hdrs
  | .last, s, t => t.last = s.last
  | .out, s, t => t.out = s.out
  | .free, s, t => t.free = s.free
  | .clock, s, t => t.clock = s.clock
  | .era, s, t => t.era = s.era
  | .dram, s, t => t.dram = s.dram
  | .power, s, t => t.power = s.power
  | .backup, s, t => t.backup = s.backup
  | .nvs, s, t => t.nvs = s.nvs
  | .links, s, t => t.links = s.links
  | .masters, s, t => t.masters = s.masters
  | .mbx, s, t => t.mbx = s.mbx
  | .keeper, s, t => t.keeper = s.keeper
  | .fw, s, t => t.fw = s.fw
  | .log, s, t => t.log = s.log
  | .cls, s, t => t.cls = s.cls
  | .buf, s, t => t.buf = s.buf
  | .mac, s, t => t.mac = s.mac
  | .tsu, s, t => t.tsu = s.tsu
  | .chk, s, t => t.chk = s.chk
  | .seqs, s, t => t.seqs = s.seqs
  | .ecc, s, t => t.ecc = s.ecc
  | .lfr, s, t => t.lfr = s.lfr
  | .act, s, t => t.act = s.act
  | .btx, s, t => t.btx = s.btx
  | .psw, s, t => t.psw = s.psw
  | .opt, s, t => t.opt = s.opt
  | .keys, s, t => t.keys = s.keys
  | .omciUpQ, s, t => t.omciUpQ = s.omciUpQ
  | .seg, s, t => t.seg = s.seg

/-- Every part but those listed is the same in two states. -/
def keeps (l : List Part) (s t : State) : Prop := ∀ p, p ∉ l → p.same s t

/-- Each part listed is the same in two states. -/
def alike (l : List Part) (s t : State) : Prop := ∀ p ∈ l, p.same s t

/-- The parts that no command of the line, of the feeders and their modules and of the operating modes changes. -/
def lineKept : List Part := [.pending, .snaps, .clock, .era, .dram, .backup, .mbx, .keeper, .cls, .chk, .ecc]

/-- The parts that no event of those changes: `lineKept`, the masters and their last transaction, the firmware and the event log. -/
def eventKept : List Part := lineKept ++ [.last, .masters, .fw, .log]

/-- The parts that the state of a page does not reach. -/
def pageKept : List Part := [.pending, .snaps, .clock, .era, .dram, .backup, .keeper, .ecc]

/-- Every register but those listed, by address, reads the same in two states. -/
def keepsRegs (l : List Nat) (s t : State) : Prop := ∀ a, a ∉ l → t.rd a = s.rd a

/-- Every page header but those listed is the same in two states. -/
def keepsHdrs (l : List Nat) (s t : State) : Prop := ∀ p, p ∉ l → t.hdr p = s.hdr p

/-- Bit `i` of a page's INT_RAW. -/
def intRawBit (s : State) (p i : Nat) : Bool := bit (s.hdr p).intRaw i

/-- A write passes every check of R94. -/
def passes (m : AB) (win : Option Nat) (p off : Nat) (fs : List Fld) (h : Handler) (v : Word) (s : State) : Bool :=
  !frozenWrite m p off s && (writeDenied m (.reg win p off) s).isNone && !h.own m v s && !(touches .rwp fs v && !s.present) &&
    !h.sem m v s && !((touches .rws fs v || touches .rwp fs v) && !s.lockOk m p) && !writeBusy p off v s &&
    !(fieldsOutOfRange fs v || h.range m v s)

/-- A row's write of a register passes every check of R94. -/
def admits (m : AB) (p off : Nat) (h : Handler) (v : Word) (s : State) : Bool := passes m none p off (fieldsAt p off) h v s

/-- A row's write of a register passes every check of R94 but the range check, which decides. -/
def reachesRange (m : AB) (p off : Nat) (h : Handler) (v : Word) (s : State) : Bool :=
  !frozenWrite m p off s && (writeDenied m (.reg none p off) s).isNone && !h.own m v s &&
    !(touches .rwp (fieldsAt p off) v && !s.present) && !h.sem m v s &&
    !((touches .rws (fieldsAt p off) v || touches .rwp (fieldsAt p off) v) && !s.lockOk m p) && !writeBusy p off v s

/-- A write of a register was answered RANGE: it is counted and recorded, and nothing else changes (R95, R96). -/
def refusedRange (m : AB) (p off : Nat) (s t : State) : Prop :=
  t.last = ⟨.range, 0, .none⟩ ∧ t.rd (accBase m) = s.rd (accBase m) + 1 ∧ t.rd (accBase m + 8) = word 0x100 ∧
    t.rd (accBase m + 12) = word (regAddr p off) ∧ keepsRegs [accBase m, accBase m + 8, accBase m + 12] s t ∧
    keeps [.last, .regs] s t

/-- A master's read of a register passes the checks of R94 that a read makes. -/
def readable (m : AB) (p off : Nat) (s : State) : Bool :=
  !(s.isFrozen m && !ownFreeze m p off) && (readDenied m (.reg none p off) s).isNone &&
    !(busyState (s.pstate p) && decide (0x100 ≤ off) && !anyStateReg p off)

/-- No flip is armed (R509). -/
def noFlip (s : State) : Bool := !bit (s.rp pEcc 0x120) 16

/-- The address of counter `i` of a control link (Table 2-4). -/
def linkCtr (l : AB) (i : Nat) : Nat := regAddr (pCtl l) (0x200 + 4 * i)

/-- How many frames an ACK value would release, modulo 65 536 (R53). -/
def ackCount (l : AB) (ack : Nat) (s : State) : Nat :=
  (seqDist (((s.link l).replay.head?.map Prod.fst).getD (s.link l).nextSeq) ack + 1) % 65536

/-- A link after an ACK value has been used: a valid one releases every frame up to it and ends the replay run, another changes nothing
(R53, R55). -/
def afterAck (l : AB) (ack : Nat) (s : State) : LinkSt :=
  let n := ackCount l ack s
  if n = 0 ∨ (s.link l).replay.length < n then s.link l
  else { s.link l with replay := (s.link l).replay.drop n, replayRun := 0, stalled := false }

/-- A whole control frame that arrives on a locked link and passes every check of R46 before the epoch. -/
def frameGood (l : AB) (f : RxFrame) (s : State) : Bool :=
  (s.link l).lock && !f.fifoFull && noFlip s && f.area.length == f.len && decide (64 ≤ f.size ∧ f.size ≤ 9728) && f.fcsOk &&
    f.da == linkMac l s && !f.tagged && f.etype == 0x88B5 && peerOk l f s && !headerBad f && e2eOk f

/-- A request of one record by itself, as a command. -/
def commandOf (m : AB) : Request → Instr
  | .read tag addr count fixed => .read m tag addr count fixed
  | .write tag addr fixed data => .write m tag addr fixed data
  | .masked tag addr mask value => .maskedWrite m tag addr mask value
  | .dataTx tag slice first last total desc bytes => .dataTx m tag slice first last total desc bytes
  | .omciUp msg => .omciUp m msg

/-- The first word of a response's body: the TAG and the count of words (Table 2-3). -/
def tagWord (tag n : Nat) : Word := word (tag % 65536 * 65536 + n * 256)

/-- One record is queued on a master's link, behind the responses that wait there, and the link is otherwise the same but for the marks
that wait for a response (R41, R57). -/
def answers (m : AB) (r : Rec) (s t : State) : Prop :=
  ∃ mo hr, t.link m = { s.link m with resp := (s.link m).resp ++ [r], macOld := mo, hostResync := hr } ∧ t.link m.other = s.link m.other

/-- An access of `n` aligned words of LPDDR4X from byte `a` on passes the checks of R50, R84 and R94. -/
def apertureOk (m : AB) (a n : Nat) (s : State) : Bool :=
  !s.isFrozen m && decide (1 ≤ n ∧ n ≤ 64 ∧ a % 4 = 0 ∧ a + 4 * n ≤ s.memSize) &&
    (List.range n).all (fun i => memAllowed m (a + 4 * i) s)

/-- A discard is counted once in its census counter (R412). -/
def counted (r : Reason) (k q : Nat) (s t : State) : Prop :=
  t.ctr (censusAddr k r.code q) = (s.ctr (censusAddr k r.code q) + 1) % 2 ^ 40

/-- The registers that counting a discard of a slice may change: a half-range bit, the two totals and RING_MISSED (R269, R412, R416). -/
def dropRegs (r : Reason) (k q : Nat) : List Nat :=
  [regAddr (pSlice k 1) (0x200 + 4 * ((11 * r.code + q) / 32)), regAddr (pSlice k 1) 0x124, regAddr (pSlice k 1) 0x120, regAddr pDrp 0x100]

/-- The registers that an entry of the event log may change (R512). -/
def logRegs : List Nat := [regAddr pLog 0x100, regAddr pLog 0x104]

/-- The transaction record after an accepted write. -/
def Txn.done : Txn := ⟨.ok, 0, .none⟩

/-- The parts of the state that a reset of the logic domain returns to their reset value, beside the page headers (R179). -/
def logicParts : List Part := [.ctrs, .snaps, .dram, .links, .masters, .mbx, .log, .cls, .buf, .mac, .tsu, .chk, .seqs, .lfr, .act, .btx,
  .psw, .keys, .omciUpQ, .seg]

/-- The value of a register after a reset of the logic domain: each field by its Reset column, those of the non-volatile store as they
stand in `committed` (Table 0-1). -/
def afterReset (committed : Tbl Word) (s : State) (a : Nat) : Word :=
  resetFields (fieldsAt (a / 0x1000) (a % 0x1000)) (s.rd a) (tblGet (resetWord a) a committed)

/-- What a reset of the logic domain takes from the power state: the voltage loop starts over and no RESET_CMD waits. -/
def loopReset (p : PowerSt) : PowerSt :=
  { p with
    hostReset := none, step := none, stalled := false, pmbUp := false, pmbNext := [], cmdRetries := 0, headRun := 0, chase := false, shortRun := [],
    paceShort := false, deferred := [] }

/-- What a reset of the logic domain leaves beside the power state, the backup domain and the store (R179): every part of the logic domain
returns to its reset value, every page header too, the firmware shows what the store holds, and every register but PWR_SEQ, OPT_STATUS and those listed takes
its fields by their Reset columns. -/
def logicReset (l : List Nat) (s t : State) : Prop :=
  alike [.pending, .clock, .last, .out] s t ∧ alike logicParts State.reset t ∧ t.hdrs = [] ∧ t.era = s.era + 1 ∧
    t.keeper = { State.reset.keeper with started := false, starts := 0 } ∧ t.fw = fwReset { s with nvs := t.nvs } ∧
    t.ecc = { State.reset.ecc with spares := t.nvs.spares } ∧
    (∀ c, t.flag (regAddr (pOpt c) 0x100) 0 = s.flag (regAddr (pOpt c) 0x100) 0) ∧
    (s.canonical = true → ∀ a, a ∉ regAddr pPwr 0x110 :: regAddr (pOpt .a) 0x100 :: regAddr (pOpt .b) 0x100 :: l →
      t.rd a = afterReset t.nvs.committed s a)

/-- The life record of each cage's module waits to be written, behind those of the modules that left before (Table 19-2). -/
def livesKept (s t : State) : Prop :=
  ∀ c, t.opt.get c = { OptSt.reset with leaving := (s.opt.get c).leaving ++ (s.opt.get c).live.toList }

/-- The store across a reset: commits of registers and of the firmware that waited are cancelled (R523). -/
def storeKept (s : State) : NvsSt := { s.nvs with pend := s.nvs.pend.filter survives, deferring := false }

/-- READY of PWR_SEQ. -/
def readyBits (s : State) : Nat := bits (s.rp pPwr 0x110) 0 4

/-- The registers that a tamper entry writes. -/
def tamperRegs (s : State) : List Nat :=
  let n := s.fld (regAddr pBkp 0x138) 0 4
  [regAddr pBkp (0x200 + 8 * n), regAddr pBkp (0x204 + 8 * n), regAddr pBkp 0x138, regAddr pBkp 0x12C]

/-- The registers that an accepted write of one register may change: itself, and the count of uses of a presence token (R220). -/
def writeRegs (p off : Nat) : List Nat := [regAddr p off, regAddr pPrs 0x110]

/-- A write of a header register of page `p` passes every check of R94. -/
def headerAdmits (m : AB) (p off : Nat) (v : Word) (s : State) : Bool :=
  passes m none p off (headerFields off) (headerHandler p off) v s

/-- No protected word holds an error or poison (R491, R492). -/
def memClean (s : State) : Bool := s.ecc.upsets.isEmpty && s.ecc.poison.isEmpty && noFlip s

/-- The Keeper's answer of a request is the message that waits in its channel to the master (R127, R129). -/
def replied (m : AB) (w : List Word) (s t : State) : Prop :=
  t.box (2 + m.num) = ⟨true, w.length, ((s.box (2 + m.num)).sent + 1) % 65536⟩ ∧ mbxWords (2 + m.num) t = w ∧
    intRawBit t (pMbx (2 + m.num)) 0 = true

/-- The oldest request of a master that the Keeper has taken is `w`, of service `op`, well formed in its low byte, the requests behind it
are of known services, and its answer can be sent at once. -/
def served (m : AB) (op : Nat) (w : List Word) (rest : List (List Word)) (s : State) : Prop :=
  s.keeper.taken.get m = w :: rest ∧ msgOp w = op ∧ bits (w.headD 0) 0 8 = 0 ∧ (∀ x ∈ rest, knownOp (msgOp x) = true) ∧
    replyOpen m s = true ∧ s.keeper.held.get m = [] ∧ memClean s = true

/-- The registers of the data words of mailbox channel `i`. -/
def mbxRegs (i : Nat) : List Nat := (List.range 16).map (fun k => regAddr (pMbx i) (0x140 + 4 * k))

/-- A tamper entry with event `ev` and the next SEQ stands where BKP_TAMPER_PTR pointed, the pointer and SEQ have moved on and TAMPERS
counts it (R223). -/
def tampered (ev : Nat) (s t : State) : Prop :=
  let n := s.fld (regAddr pBkp 0x138) 0 4
  bits (t.rp pBkp (0x200 + 8 * n)) 0 8 = ev ∧ bit (t.rp pBkp (0x200 + 8 * n)) 31 = true ∧
    bits (t.rp pBkp (0x200 + 8 * n)) 16 8 = s.backup.tamperSeq % 256 ∧ t.backup.tamperSeq = (s.backup.tamperSeq + 1) % 256 ∧
    t.rp pBkp 0x138 = word ((n + 1) % 16) ∧ t.rp pBkp 0x12C = s.rp pBkp 0x12C + 1

/-- No operator command stands: no FORCE and no LOCKOUT (Table 10-2). -/
def quiet (s : State) : Bool := s.rp pPsw 0x108 == 0

/-- Classification after a packet is dispatched while the dispatcher holds none and some lane is in service: it is behind the packets of
the lane of its bucket, or the dispatcher holds it while that lane is full or another lane still has packets of the bucket (R387, R389). -/
def dispatched (p : Pkt) (s : State) : ClsSt :=
  let n := s.cls.buckets.getD (bucketOf p) 0
  if elsewhere (bucketOf p) n s || decide (laneRoom ≤ (s.lane n).q.length) then { s.cls with waiting := [p] }
  else (s.setLane n { s.lane n with q := (s.lane n).q ++ [p] }).cls

/-- The oldest message of a feeder's queue is `p`, the Keeper runs, no gate of a watch is open, and `p` passes the checks of R282: a directed message has a good MIC
and is no repeat. -/
def heard (f : AB) (p : Ploam) (idx : Nat) (rest : List (Ploam × Nat)) (s : State) : Prop :=
  s.running = true ∧ keeperUp s = true ∧ (s.act.get f).gate = none ∧ (s.act.get f).queue = (p, idx) :: rest ∧
    (p.onuId ≠ 0x3FF → p.micOk = true ∧ (s.act.get f).lastSeq ≠ some p.seq)

/-- Counter `i` of a feeder's activation block goes up by one (Table 9-7). -/
def actCounted (f : AB) (i : Nat) (s t : State) : Prop :=
  t.ctr (regAddr (pAct f) (0x200 + 8 * i)) = (s.ctr (regAddr (pAct f) (0x200 + 8 * i)) + 1) % 2 ^ 40

/-- O1.1, or O1.2 where the feeder is in downstream SYNC (Table 9-1). -/
def restarted (f : AB) (s t : State) : Prop := actState f t = if inSync f s then aO12 else aO11

/-- The line of a sequencer's PC is in its instruction cache, or lies inside the region of its slice (reference 7 of Table 5-2). -/
def lineHere (n : Nat) (s : State) : Bool :=
  (s.seq n).cache.any (fun e => e.1 == (s.seq n).pc / 64) ||
    decide ((s.rp (pSeq n) 0x110).toNat + 64 * ((s.seq n).pc / 64) + 64 ≤ (s.region (seqOf n s)).2)

/-- Sequencer `n` stands at an instruction boundary inside its code, whose line is at hand, and no protected word holds an error or
poison. -/
def seqAt (n : Nat) (s : State) : Bool :=
  s.running && decide (n < 8) && seqReady n s && decide ((s.seq n).pc < s.fld (regAddr (pSeq n) 0x114) 0 25) && lineHere n s && memClean s

/-- Sequencer `n` is `q` but for its instruction cache, one more instruction is counted (Table 16-6), and nothing else changes but the
count of lines fetched and their half-range marks. -/
def seqDone (n : Nat) (q : Seq) (s t : State) : Prop :=
  t.seq n = { q with cache := (t.seq n).cache } ∧ (∀ j, j ≠ n → t.seq j = s.seq j) ∧
    t.ctr (regAddr (pSeq n) 0x200) = (s.ctr (regAddr (pSeq n) 0x200) + 1) % 2 ^ 48 ∧
    (∀ a, a ≠ regAddr (pSeq n) 0x200 → a ≠ regAddr (pSeq n) 0x208 → t.ctr a = s.ctr a) ∧
    keepsRegs [regAddr (pSeq n) 0x1D0] s t ∧ keepsHdrs [pSeq n] s t ∧ keeps [.seqs, .ctrs, .regs, .hdrs, .links] s t

end Sys2Proof.Machine
end

