-- ==== Sys2Proof/WellFormed.lean ====
section
/-!
DEFINITION. Which commands are well formed: every operand inside the range that its field or its list has.

A meaning takes an ill-formed operand modulo its field width or changes nothing; no statement needs one.
-/

namespace Sys2Proof

open Sys2Proof.Machine

/-- A sequencer number (Table 0-1). -/
def isSeq (n : Nat) : Bool := n < 8

/-- A client port number. -/
def isPort (n : Nat) : Bool := n < 8

/-- A classifier lane. -/
def isLane (n : Nat) : Bool := n < 16

/-- A slice number. -/
def isSlice (k : Nat) : Bool := k < 16

/-- A semaphore number. -/
def isSem (n : Nat) : Bool := n < 32

/-- A mailbox channel (Table 4-4). -/
def isBox (i : Nat) : Bool := i < 6

/-- A device page that the map lists (R81). -/
def isPage (p : Nat) : Bool := (pageInfo p).isSome

/-- A TAG. -/
def isTag (t : Nat) : Bool := t < 65536

/-- A 40-bit control address (R81). -/
def isAddr (a : Nat) : Bool := a < 2 ^ 40

/-- An instant within a microsecond, in 2^−32 ns. -/
def isFrac (n : Nat) : Bool := n < 1000 * 2 ^ 32

/-- A memory row of the start-up test. -/
def rowWf (r : BadRow) : Bool := r.mem < 256 && r.bank < 256 && r.row < 4096

/-- What a regulator answers. -/
def pmbWf (p : PmbStart) : Bool := p.revision < 256 && p.voutMode < 256 && p.readVout < 65536

/-- A record that a master sends, by the widths of its fields (Table 2-3). -/
def requestWf : Request → Bool
  | .read tag addr count _ => isTag tag && isAddr addr && count < 256
  | .write tag addr _ data => isTag tag && isAddr addr && data.length < 256
  | .masked tag addr _ _ => isTag tag && isAddr addr
  | .dataTx tag slice _ _ total desc bytes => isTag tag && isSlice slice && total < 65536 && desc.length < 256 && bytes.length < 65536
  | .omciUp msg => msg.length < 65536

/-- How a master writes ACQ. -/
def acqWf : AcqForm → Bool
  | .write => true
  | .masked tag => isTag tag

/-- The fields of a received control frame (Table 2-1). -/
def frameWf (f : RxFrame) : Bool :=
  f.da < 2 ^ 48 && f.sa < 2 ^ 48 && f.etype < 65536 && f.ver < 16 && f.epoch < 16 && f.kind < 16 && f.flags < 16 &&
    f.seq < 65536 && f.ack < 65536 && f.len < 65536 && f.area.length ≤ f.len && f.crc < 2 ^ 32

/-- What a PLOAM message carries: a burst profile names one of the four rates of BTX_PROFILE. -/
def bodyWf : PloamBody → Bool
  | .burstProfile index p => index < 16 && p.rate < 4
  | _ => true

/-- A PLOAM message. -/
def ploamWf (p : Ploam) : Bool := p.onuId < 1024 && p.seq < 256 && p.bytes.length == 48 && bodyWf p.body

/-- An XGEM header and the payload behind it. -/
def xhdrWf (h : XHdr) : Bool := h.pos % 4 == 0 && h.pli < 16384 && h.key < 4 && h.port < 65536 && h.payload.length == h.pli

/-- A PSBd position. -/
def psbdWf (p : Psbd) : Bool := p.errors ≤ 64 && isFrac p.frac && p.sfc < 2 ^ 51 && p.ploams.all ploamWf && p.headers.all xhdrWf

/-- A register of a shaper. -/
def shaperWf : ShaperReg → Bool
  | .node k m d => isSlice k && m < 256 && d < 4
  | .policer k j d => isSlice k && j < 4096 && d < 2
  | .host => true

/-- A row error: a word of its row and the bits in error. -/
def errWf (e : RowErr) : Bool := e.word < 32 && !e.bits.isEmpty && e.bits.all (fun b => b < 72)

/-- A command is well formed. -/
def Instr.wf : Instr → Bool
  | .memReady _ rows spares => rows.all rowWf && spares.all (fun x => x.1 < 256 && x.2 < 16)
  | .logicReady i => i.pmb.all (fun p => p.all pmbWf) && i.vbatMv < 65536
  | .paceWindow units => units.length == 19 && units.all (fun u => u.1 < 65536 && u.2 < 65536)
  | .vstepAck readVout statusWord => readVout < 65536 && statusWord < 65536
  | .pmbAlert statusWord => statusWord < 65536
  | .pmbusPoll _ v => v < 65536
  | .handshakeStuck page unit => isPage page && unit < 256
  | .dataFrameReceive _ f => frameWf f
  | .ackonlyReceive _ f => frameWf f
  | .resyncReceive _ f => frameWf f
  | .resyncAckReceive _ f => frameWf f
  | .txnTimeout _ x tag addr done => requestWf (requestOf x tag addr) && done < 64
  | .read _ tag addr count fixed => requestWf (.read tag addr count fixed)
  | .write _ tag addr fixed data => requestWf (.write tag addr fixed data)
  | .maskedWrite _ tag addr mask value => requestWf (.masked tag addr mask value)
  | .dataTx _ tag slice first last total desc bytes => requestWf (.dataTx tag slice first last total desc bytes)
  | .omciUp _ msg => requestWf (.omciUp msg)
  | .regWrite _ addr _ => isAddr addr
  | .blockEnable _ page => isPage page
  | .blockDrain _ page _ => isPage page
  | .blockReset _ page => isPage page
  | .blockResetDone page => isPage page
  | .localHoldRelease _ page => isPage page
  | .faultDetailRead _ page => isPage page
  | .selftestStart _ page unit => isPage page && unit < 256
  | .selftestDone page _ detail => isPage page && detail < 65536
  | .intClear _ page _ => isPage page
  | .counterHiRead _ page _ => isPage page
  | .semAcquire _ n x => isSem n && acqWf x.form && x.rival.all acqWf
  | .semRelease _ n => isSem n
  | .leaseExpiry n => isSem n
  | .mbxDataWrite _ ch k _ => isBox ch && k < 16
  | .mbxDoorbell _ ch len => isBox ch && len < 32
  | .mbxTake _ ch => isBox ch
  | .ownerMaskWrite _ slice mask => isSlice slice && mask < 4
  | .xpermitWrite _ i _ => i < 32
  | .sliceAllocWrite _ slice off _ => isSlice slice && off % 4 == 0 && 0x108 ≤ off && off ≤ 0x134
  | .drainQueuesEmpty page => isPage page
  | .drainLimitExpiry page => isPage page
  | .flushDone page => isPage page
  | .vbatMeasure mv => mv < 65536
  | .psbdArrival _ p => psbdWf p
  | .portIdWrite _ _ e _ => e < 512
  | .keyLoad _ slot key => slot < 5 && key.length == 16
  | .nodeMapWrite _ _ n _ => n < 32
  | .idReadDone _ i => i.a0.length == 96
  | .clientFrameReceive n _ => isPort n
  | .pauseExpiry n pri => isPort n && pri < 9
  | .xoffRefresh n pri => isPort n && pri < 9
  | .linkChange n _ _ _ _ => isPort n
  | .macModeWrite _ n _ => isPort n
  | .frameTransmit n _ _ => isPort n
  | .tsqPop _ n => isPort n
  | .laneLookup n => isLane n
  | .ruleRead _ k => isSlice k
  | .ruleWrite _ k => isSlice k
  | .ruleClear _ k => isSlice k
  | .laneStall n => isLane n
  | .bucketReturn b => b < 64
  | .schedRelease pn => pn < 41
  | .ringCfgWrite _ k _ _ => isSlice k
  | .ringRdWrite _ k _ => isSlice k
  | .shaperWrite _ r _ => shaperWf r
  | .bufPeakRead _ k => isSlice k
  | .calStart _ seconds => seconds < 256
  | .ppsInEdge frac => isFrac frac
  | .add n _ _ _ => isSeq n
  | .sub n _ _ _ => isSeq n
  | .and n _ _ _ => isSeq n
  | .or n _ _ _ => isSeq n
  | .xor n _ _ _ => isSeq n
  | .shl n _ _ _ => isSeq n
  | .shr n _ _ _ => isSeq n
  | .sra n _ _ _ => isSeq n
  | .sltu n _ _ _ => isSeq n
  | .slt n _ _ _ => isSeq n
  | .mul n _ _ _ => isSeq n
  | .mulhu n _ _ _ => isSeq n
  | .addi n _ _ _ => isSeq n
  | .andi n _ _ _ => isSeq n
  | .ori n _ _ _ => isSeq n
  | .xori n _ _ _ => isSeq n
  | .shli n _ _ imm => isSeq n && imm.toNat < 32
  | .shri n _ _ imm => isSeq n && imm.toNat < 32
  | .lui n _ _ => isSeq n
  | .sltiu n _ _ _ => isSeq n
  | .lw n _ _ _ => isSeq n
  | .lh n _ _ _ => isSeq n
  | .lb n _ _ _ => isSeq n
  | .sw n _ _ _ => isSeq n
  | .sh n _ _ _ => isSeq n
  | .sb n _ _ _ => isSeq n
  | .ldx n _ _ _ => isSeq n
  | .ldxReturn n => isSeq n
  | .stx n _ _ _ => isSeq n
  | .beq n _ _ _ => isSeq n
  | .bne n _ _ _ => isSeq n
  | .bltu n _ _ _ => isSeq n
  | .bgeu n _ _ _ => isSeq n
  | .jal n _ _ => isSeq n
  | .jalr n _ _ _ => isSeq n
  | .rdtime n _ imm => isSeq n && imm.toNat ≤ 2
  | .tset n _ imm => isSeq n && imm.toNat < 32 && imm.toNat / 4 % 4 == 0
  | .wait n _ imm => isSeq n && 1 ≤ imm.toNat && imm.toNat < 64
  | .waitReturn n => isSeq n
  | .wdog n => isSeq n
  | .evt n _ => isSeq n
  | .cnt n _ imm => isSeq n && imm.toNat < 8
  | .fsend n _ _ _ => isSeq n
  | .rxhead n _ => isSeq n
  | .rxfree n => isSeq n
  | .cstart n _ imm => isSeq n && imm.toNat < 16
  | .cfeed n _ imm => isSeq n && imm.toNat < 64 && imm.toNat / 8 % 2 == 0 && imm.toNat / 16 != 3
  | .cres n _ imm => isSeq n && imm.toNat < 16
  | .cresReturn n => isSeq n
  | .halt n => isSeq n
  | .illegalInstruction n _ => isSeq n
  | .icacheFill n => isSeq n
  | .seqTimerFire n t => isSeq n && t < 4
  | .seqWatchdog n => isSeq n
  | .seqRestart _ n => isSeq n
  | .seqInv _ n => isSeq n
  | .dmemDataRead _ n => isSeq n
  | .dmemDataWrite _ n _ => isSeq n
  | .chkStart _ n _ => n < 8
  | .chkFeedByte _ n _ => n < 8
  | .chkFeedHalf _ n _ => n < 8
  | .chkFeedWord _ n _ => n < 8
  | .chkResultRead _ n => n < 8
  | .scrubRow slice errs => isSlice slice && errs.all errWf
  | .thermalWarn tj => tj < 256
  | .wake | .powerOn | .regReady .. | .oscReady .. | .startupStepTimeout | .startupRetry | .resetPin | .pgoodLoss
  | .resetCmd .. | .hostReset | .shutdown .. | .reattach .. | .thermal | .powerdownComplete | .mainPowerLoss | .vioLoss
  | .vauxLow | .vauxRestore | .refclkLoss | .loopPeriod | .stepSettleTimeout | .pmbusRetry | .stalledRetry
  | .loopConfigWrite .. | .ackTimeout .. | .resyncStart .. | .resyncRepeat .. | .ackDelayExpiry .. | .packDelayExpiry ..
  | .linkLoss .. | .linkdownExpiry .. | .linkReturn .. | .ctlResyncCmd .. | .ctlMacWrite .. | .rtcHiRead .. | .sfcHiRead ..
  | .tsuTimeRead .. | .malfWindowEnd | .releaseA .. | .releaseB .. | .keeperTake .. | .info .. | .echo ..
  | .captureStatus .. | .captureRead .. | .captureFree .. | .keeperReply .. | .fwOpen .. | .fwClose .. | .fwLoad ..
  | .fwCheckDone | .fwWriteDone .. | .fwCommit .. | .fwRom .. | .fwRestart .. | .fwConfirm .. | .keeperWatchdog
  | .backupPowerUp | .rtcLineLoad | .rtcSet .. | .sealPulse .. | .sealPeriodWrite .. | .sealAck .. | .presencePress
  | .pressWindowExpiry | .prsClose .. | .tamperClear .. | .backupRecordWrite | .nvsCheckpoint | .rateDwellExpiry ..
  | .xgemFrameReceive .. | .losDeclare .. | .losClear .. | .sdSecond .. | .rateModeWrite .. | .burstProfile ..
  | .assignOnuId .. | .rangingTime .. | .deactivateOnuId .. | .disableSerialNumber .. | .requestRegistration ..
  | .assignAllocId .. | .keyControl .. | .sleepAllow .. | .unsupportedPloam .. | .eqdApply .. | .to1Expiry ..
  | .to2Expiry .. | .dozeEnter | .watch | .lowPowerStart | .wakeCmd .. | .sleepEnWrite .. | .gateReacqTimeout
  | .rerangeTimeout | .allocPrefetch .. | .benAssert .. | .burstEnd .. | .switchComplete | .pswClear .. | .pswManual ..
  | .pswForce .. | .pswLockout .. | .wtrExpiry | .moduleInsert .. | .moduleRemove .. | .idReadStart .. | .idReadRetry ..
  | .diagPoll .. | .laserSecond .. | .lifeRecordWrite .. | .lifeLimitWrite .. | .txCtrlWrite .. | .churnPass | .puntCapture
  | .skimRecordWrite | .armLoad .. | .slewDone | .holdoverLimit | .calDone | .ppsOutEdge | .ppsOutFall | .todOutSend
  | .todInMessage .. | .ppsInLoss | .synceSquelchEnd | .hostAdjust .. | .timeSet .. | .targetedSelftestDone .. | .flipArm ..
  | .nvsCommit | .trainComplete .. | .retrain .. | .twoWireRetry .. => true

end Sys2Proof
end

