-- ==== Sys2Proof/Certificates/Slice0/Obligations.lean ====
section
/-!
DEFINITION. The statements for the provers, family by family in the order of the command table.

`After (exec c s) P` says that command `c` answers a next state, of which `P` holds.
-/

open Sys2Proof
open Sys2Proof.Machine

/-! ### The step, reset, and the sequencer words -/

/-- A step runs the command at the front of the queue on the state with the queue's rest (the model's convention for this block). -/
def Obligations.StepRunsTheFront : Prop :=
  ∀ (c : Instr) (rest : List Instr) (s : State), s.pending = c :: rest → step s = exec c { s with pending := rest }

/-- On an empty queue one microsecond passes (assumption 14): the clock and the time of the session advance, segmentation hands over what it
holds; where it holds nothing a control link, the registers, memory and the queues of packets stay as they are, and while the logic domain is
off only the clock and the backup domain move. -/
def Obligations.EmptyQueueLetsTimePass : Prop :=
  ∀ s : State, s.pending = [] → After (step s) fun t =>
    t.clock = s.clock + 1 ∧
    (s.seg = [] → keeps [.clock, .backup, .tsu, .buf, .masters, .keeper, .hdrs, .seqs, .ecc] s t) ∧
    alike [.pending, .snaps, .last, .era, .dram, .nvs, .mbx, .fw, .keys, .omciUpQ] s t ∧ (s.running = true → t.seg = []) ∧
    (s.running = false → keeps [.clock, .backup] s t) ∧
    (s.running = true → s.tsu.slew = 0 → s.tsu.state ≠ .host → t.tsu.time = s.tsu.time + 1000 * 2 ^ 32)

/-- What a reset leaves (R78, R109, R119, R43, R179): no semaphore is held, no master is frozen, both links are in epoch 0 with no peer, the
mailboxes and the packet buffer are empty, no presence token is valid, and every table is in canonical form. -/
def Obligations.ResetState : Prop :=
  State.reset.canonical = true ∧ State.reset.pending = [] ∧
  (∀ n, (State.reset.sem n).holder = none) ∧ (∀ m, State.reset.isFrozen m = false) ∧
  (∀ l, (State.reset.link l).epoch = 0 ∧ (State.reset.link l).peer = none ∧ (State.reset.link l).replay = []) ∧
  (∀ i, (State.reset.box i).full = false) ∧ (∀ k, State.reset.queue k = []) ∧ State.reset.present = false ∧
  State.reset.mode = .attach .o1

/-- No command and no passing of time stops the terminal: every step, from every state, goes on. -/
def Obligations.EveryStepGoesOn : Prop := ∀ s : State, s.goesOn

/-- The instruction word of every well-formed sequencer instruction decodes to that instruction (R460, Tables 16-2 and 16-3): no operand bit
of an encoding is dropped. -/
def Obligations.SequencerWordsRoundTrip : Prop :=
  ∀ (w : Nat) (i : Instr), i.wf = true → seqEncode i = some w → w < 2 ^ 32 ∧ ∃ n, n < 8 ∧ seqDecode n w = some i

/-! ### Power and start-up -/

/-- The start-up sequence (R15, R174, Table 6-2): WAKE or POWER_ON starts step 1 from DORMANT or without power, and each ready signal
starts the next step, with READY showing the signals before it and PWR_SEQ_TIME the time of the step.

A step that fails holds the logic domain in reset and waits for its retry, which starts at step 1 again; the third failure leaves the
terminal DORMANT with the tamper entry of a failed start (R176, R205). -/
def Obligations.StartUpSteps : Prop :=
  (∀ (s : State) (us : Nat),
    (asleep s = true → After (exec .wake s) fun t =>
      t.power = { s.power with wakeCause := 0x02, resetCause := 2, tries := 0, phase := .step1 } ∧
      bits (t.rp pPwr 0x110) 0 4 = 0 ∧ keepsRegs [regAddr pPwr 0x110] s t ∧ keeps [.power, .regs] s t) ∧
    (asleep s = true → After (exec .powerOn s) fun t =>
      t.power = { s.power with wakeCause := 0x01, resetCause := 1, tries := 0, phase := .step1 } ∧
      bits (t.rp pPwr 0x110) 0 4 = 0 ∧ keepsRegs [regAddr pPwr 0x110] s t ∧ keeps [.power, .regs] s t) ∧
    (s.power.phase = .step1 → After (exec (.regReady us) s) fun t =>
      t.power = { s.power with phase := .step2 } ∧ bits (t.rp pPwr 0x110) 0 4 = 1 ∧
      bits (t.rp pPwr 0x114) 0 16 = us % 65536 ∧ keepsRegs [regAddr pPwr 0x110, regAddr pPwr 0x114] s t ∧
      keeps [.power, .regs] s t) ∧
    (s.power.phase = .step2 → After (exec (.oscReady us) s) fun t =>
      t.power = { s.power with phase := .step3 } ∧ bits (t.rp pPwr 0x110) 0 4 = 3 ∧
      bits (t.rp pPwr 0x118) 0 16 = us % 65536 ∧ keepsRegs [regAddr pPwr 0x110, regAddr pPwr 0x118] s t ∧
      keeps [.power, .regs] s t) ∧
    (s.power.phase = .step3 → After (exec (.memReady us [] []) s) fun t =>
      t.power = { s.power with phase := .step4 } ∧ bits (t.rp pPwr 0x110) 0 4 = 7 ∧
      bits (t.rp pPwr 0x11C) 0 16 = us % 65536 ∧ keepsRegs [regAddr pPwr 0x110, regAddr pPwr 0x11C] s t ∧
      keeps [.power, .regs] s t) ∧
    (s.power.phase = .step3 → ∀ rows spares, After (exec (.memReady us rows spares) s) fun t =>
      t.power = { s.power with phase := .step4 } ∧ bits (t.rp pPwr 0x110) 0 4 = 7 ∧ bits (t.rp pPwr 0x11C) 0 16 = us % 65536 ∧
      alike [.pending, .snaps, .last, .out, .clock, .era, .dram, .backup, .masters, .mbx, .keeper, .fw, .opt, .keys, .seg] s t)) ∧
  (∀ s : State,
    (∀ x ∈ [(Phase.step1, 1), (Phase.step2, 2), (Phase.step3, 3), (Phase.step4, 4)], s.power.phase = x.1 → s.power.tries ≤ 2 →
      let p := { loopReset s.power with pads := padsNow s, failRec := (x.2, s.power.tries + 1) }
      After (exec .startupStepTimeout s) fun t => livesKept s t ∧ t.nvs = storeKept s ∧ t.free = s.free ∧
        (s.power.tries < 2 → logicReset [] s t ∧ t.power = { p with phase := .failed, tries := s.power.tries + 1 } ∧
          readyBits t = readyBits s % 4 ∧ t.backup = { s.backup with pressUs := 0, dirty := true }) ∧
        (s.power.tries = 2 → logicReset (tamperRegs s) s t ∧ t.power = { p with phase := .dormant, mode := .dormant, tries := 0 } ∧
          readyBits t = 0 ∧ (s.canonical = true → tampered 0x13 s t))) ∧
    (s.power.phase = .failed → After (exec .startupRetry s) fun t =>
      t.power = { s.power with phase := .step1 } ∧ bits (t.rp pPwr 0x110) 0 4 = 0 ∧ keepsRegs [regAddr pPwr 0x110] s t ∧
      keeps [.power, .regs] s t))

/-- LOGIC_READY starts the logic domain (R174, R177, R180, R192): the clock runs on, READY shows every signal, PWR_RESET_CAUSE the cause of
the start and PWR_RESET_LOSS the packets that it cost, the mode is entered with the cause of the wake, the Keeper starts, training begins,
and VBAT is measured. A regulator that answers gives VSET what it reads, to 10 mV and inside the limits, with its VOUT_MODE and revision
shown; one that does not answer leaves the voltage loop STALLED with REG_SILENT raised. -/
def Obligations.LogicReadyStartsTheLogicDomain : Prop :=
  ∀ (s : State) (us vbat : Nat), s.power.phase = .step4 →
    let started := fun (t : State) =>
      alike [.snaps, .last, .era, .dram, .masters, .mbx, .log, .cls, .ecc, .lfr, .opt, .keys] s t ∧ t.running = true ∧ t.clock = s.clock ∧
        t.pending = s.pending ∧ readyBits t = 15 ∧ bits (t.rp pPwr 0x120) 0 16 = us % 65536 ∧
        bits (t.rp pPwr 0x124) 0 4 = s.power.resetCause % 16 ∧ bits (t.rp pPwr 0x124) 16 16 = (bits (s.rp pPwr 0x124) 16 16 + 1) % 65536 ∧
        t.rp pPwr 0x12C = s.nvs.stopLoss.elim 0xFFFFFFFF word ∧ t.nvs.stopLoss = none ∧ t.power.failRec = (0, 0) ∧ t.power.tries = 0 ∧
        t.keeper.started = true ∧ t.keeper.starts = s.keeper.starts + 1 ∧ t.keeper.taken = ⟨[], []⟩ ∧ bits (t.rp pMem 0x100) 0 2 = 1 ∧
        t.rp pBkp 0x120 = word (min vbat 4095) ∧ intRawBit t pPwr 0 = true
    (∀ l, After (exec (.logicReady ⟨us, none :: l, vbat⟩) s) fun t => started t ∧ t.power.stalled = true ∧ intRawBit t pPwr 3 = true ∧
      vset t = vset s ∧ t.power.pmbNext = l) ∧
    (∀ p l, After (exec (.logicReady ⟨us, some p :: l, vbat⟩) s) fun t =>
      let f := voutFrac p.readVout t
      let near := (f.1 + 5 * f.2) / (10 * f.2) * 10
      started t ∧ t.power.stalled = s.power.stalled ∧ t.power.pmbUp = true ∧ bits (t.rp pPwr 0x160) 16 8 = p.voutMode % 256 ∧
        bits (t.rp pPwr 0x160) 24 8 = p.revision % 256 ∧
        vset t = if near < vmin s then vmin s else if vmax s < near then vmax s else near)

/-- What a reset that reaches the logic domain does (R179, R78, R109, R119, Table 6-3): RESET_PIN, PGOOD_LOSS and HOST_RESET restart the
sequence at the step of their cause; every part of the logic domain returns to its reset value, so that every semaphore is free, no master is
frozen, both links return to epoch 0 with nothing queued, the packet buffer is empty and LPDDR4X contents are undefined; commits of registers
that waited are cancelled, and a HOST_RESET leaves the count of the packets that the buffer held.

The pin and the loss of PGOOD also restart a start-up (R37): in steps 1 and 2, and while a failed attempt waits, the pin leads back to step 1,
later to step 3, and the loss of PGOOD to step 1. -/
def Obligations.ResetsReachTheLogicDomain : Prop :=
  (∀ s : State, s.running = true →
    let cleared := fun (t : State) => livesKept s t ∧ t.backup = { s.backup with pressUs := 0 } ∧ (∀ n, (t.sem n).holder = none) ∧
      (∀ m, t.isFrozen m = false) ∧ (∀ l, t.link l = LinkSt.reset) ∧ (∀ k, t.queue k = []) ∧ t.dram = []
    let begun := fun (p : Phase) (cause : Nat) =>
      { loopReset s.power with phase := p, resetCause := cause, wakeCause := 0x03, tries := 0, pads := padsNow s }
    (After (exec .resetPin s) fun t => logicReset [] s t ∧ cleared t ∧ t.nvs = storeKept s ∧ t.free = s.free ∧ t.power = begun .step3 3 ∧
      readyBits t = 3) ∧
    (After (exec .pgoodLoss s) fun t => logicReset [] s t ∧ cleared t ∧ t.nvs = storeKept s ∧ t.free = s.free ∧ t.power = begun .step1 4 ∧
      readyBits t = 0) ∧
    (∀ m, s.power.hostReset = some m → After (exec .hostReset s) fun t =>
      logicReset [regAddr pNvs 0x140] s t ∧ cleared t ∧ t.power = begun .step3 5 ∧ readyBits t = 3 ∧
        t.nvs = { storeKept s with stopLoss := some (bufferPackets s), wear := t.nvs.wear })) ∧
  (∀ s : State,
    let again := fun (cause : Nat) (t : State) =>
      t.power = { s.power with phase := .step1, resetCause := cause, wakeCause := 0x03 } ∧ readyBits t = 0 ∧
        keepsRegs [regAddr pPwr 0x110] s t ∧ keeps [.power, .regs] s t
    let wiped := fun (p : Phase) (cause : Nat) (t : State) => logicReset [] s t ∧ livesKept s t ∧ t.nvs = storeKept s ∧
      t.backup = { s.backup with pressUs := 0 } ∧ t.free = s.free ∧
      t.power = { loopReset s.power with phase := p, resetCause := cause, wakeCause := 0x03, pads := padsNow s }
    (s.power.phase ∈ [.step1, .step2, .failed] → After (exec .resetPin s) (again 3)) ∧
    (s.power.phase ∈ [.step3, .step4] → After (exec .resetPin s) fun t => wiped .step3 3 t ∧ readyBits t = 3) ∧
    (s.power.phase ∈ [.step2, .step3, .step4] → After (exec .pgoodLoss s) fun t => wiped .step1 4 t ∧ readyBits t = 0) ∧
    (s.power.phase = .failed → readyBits s % 2 = 1 → After (exec .pgoodLoss s) (again 4)))

/-- The ways to stop (R24, R30, R200, R205): a SHUTDOWN that passes its checks and THERMAL start the controlled power-down and leave for
DORMANT with the history entry of their cause; THERMAL during a start-up ends it with the tamper entry; a loss of main power or VIO takes the
logic domain and what waited for the store, is counted, leaves the terminal without power and is remembered until the next wake.

The controlled power-down writes everything that waits for the store, the backup record, the checkpoint and the count of the packets that the
buffer held, and ends in DORMANT (R180, R201, R522). -/
def Obligations.PowerDowns : Prop :=
  let copyRegs := (List.range 16).map (fun i => regAddr pBkp (0x400 + 4 * i))
  (∀ s : State, s.running = true →
    let stopping := fun (cause : Nat) (t : State) => t.power.phase = .powerDown ∧ t.power.mode = .dormant ∧ t.power.lastCause = cause ∧
      t.pressOpen = false ∧ t.power.pads = padsNow s ∧ intRawBit t pPwr 0 = true ∧ t.nvs.committed = s.nvs.committed
    (∀ m, admits m pPwr 0x104 modeCmdHandler (field 0 1 1) s = true → After (exec (.shutdown m) s) fun t =>
      alike [.pending, .snaps, .clock, .era, .dram, .mbx, .log, .cls, .chk, .seqs, .ecc, .keys] s t ∧ t.last = .done ∧ stopping 0x40 t) ∧
    (After (exec .thermal s) fun t => alike [.pending, .snaps, .last, .clock, .era, .dram, .masters, .mbx, .log, .cls, .tsu, .chk, .seqs, .ecc,
      .lfr, .psw, .keys] s t ∧ stopping 0x41 t)) ∧
  (∀ s : State, s.power.phase ∈ [.step1, .step2, .step3, .step4, .failed] → After (exec .thermal s) fun t =>
    logicReset (tamperRegs s) s t ∧ livesKept s t ∧ t.nvs = storeKept s ∧ t.free = s.free ∧ readyBits t = 0 ∧
      t.power = { loopReset s.power with phase := .dormant, mode := .dormant, tries := 0, failRec := (5, 1), pads := padsNow s } ∧
      (s.canonical = true → tampered 0x13 s t)) ∧
  (∀ s : State, s.power.phase ≠ .unpowered → s.power.phase ≠ .dormant → (s.power.mode ≠ .dormant ∨ s.power.phase = .powerDown) →
    let lost := fun (pads : Word × Word) (t : State) =>
      logicReset (regAddr pBkp 0x128 :: copyRegs) s t ∧ readyBits t = 0 ∧ t.opt = ⟨OptSt.reset, OptSt.reset⟩ ∧
        t.nvs = { s.nvs with pend := [], histQ := [], deferring := false, stopLoss := none } ∧
        t.power = { loopReset s.power with phase := .unpowered, mode := .dormant, tries := 0, lossUnrecorded := true, pads := pads } ∧
        t.backup = { s.backup with pressUs := 0, dirty := true } ∧
        (s.canonical = true → t.rp pBkp 0x128 = s.rp pBkp 0x128 + 1) ∧ (s.logicOn = false → t.free = s.free)
    After (exec .mainPowerLoss s) (lost (padsNow s)) ∧ After (exec .vioLoss s) (lost (0, 0))) ∧
  (∀ s : State, (s.power.phase = .dormant ∨ s.power.phase = .unpowered) →
    (After (exec .mainPowerLoss s) fun t => t.power = { s.power with phase := .unpowered } ∧ keeps [.power] s t) ∧
    (After (exec .vioLoss s) fun t => t.power = { s.power with phase := .unpowered, pads := (0, 0) } ∧ keeps [.power] s t)) ∧
  (∀ s : State, s.power.phase = .powerDown → After (exec .powerdownComplete s) fun t =>
    logicReset (copyRegs ++ [regAddr pBkp 0x134, regAddr pNvs 0x140, regAddr (pOpt .a) 0x1C4]) s t ∧ readyBits t = 0 ∧
      t.opt = ⟨OptSt.reset, OptSt.reset⟩ ∧ t.power = { loopReset s.power with phase := .dormant, pads := s.power.pads } ∧
      t.nvs.pend = [] ∧ t.nvs.histQ = [] ∧ t.nvs.stopLoss = some (bufferPackets s) ∧ t.nvs.checkpoint = backupCounts s ∧
      (s.nvs.hist.length ≤ 16 → t.nvs.hist = (s.nvs.hist ++ s.nvs.histQ).drop ((s.nvs.hist ++ s.nvs.histQ).length - 16)) ∧
      (NvItem.firmware ∈ s.nvs.pend → t.nvs.fw = s.fw.nv) ∧ (NvItem.firmware ∉ s.nvs.pend → t.nvs.fw = s.nvs.fw) ∧
      ∀ a, a ≠ regAddr pNvs 0x140 → a ≠ regAddr (pOpt .a) 0x1C4 →
        tblGet (resetWord a) a t.nvs.committed =
          if NvItem.reg a ∈ s.nvs.pend then s.rd a else tblGet (resetWord a) a s.nvs.committed)

/-- Commands of a master to the PWR page: an accepted RESET_CMD waits for its response (R181), and an accepted REATTACH leaves for ATTACH
with cause HOST_REATTACH (R23, R32). -/
def Obligations.PowerCommands : Prop :=
  ∀ (s : State) (m : AB), s.running = true →
    (admits m pPwr 0x128 resetCmdHandler (field 0 1 1) s = true → After (exec (.resetCmd m) s) fun t =>
      t.last.status = .ok ∧ t.power = { s.power with hostReset := some m } ∧ keeps [.power, .last, .regs] s t) ∧
    (s.power.mode ≠ .dormant → admits m pPwr 0x104 modeCmdHandler (field 1 1 1) s = true → After (exec (.reattach m) s) fun t =>
      alike (.opt :: lineKept) s t ∧ t.last.status = .ok ∧ t.power.mode.code = 1 ∧ t.power.lastCause = 0x23)

/-- Supplies, clock and heat (R552, R553, Table 6-10): VAUX_LOW and VAUX_RESTORE, the loss of REFCLK_CLI, which takes the lock of every client
PCS, and the junction temperature. -/
def Obligations.SuppliesAndHeat : Prop :=
  ∀ s : State,
    (s.power.vauxLow = false → After (exec .vauxLow s) fun t => alike eventKept s t ∧ t.power.vauxLow = true) ∧
    (s.power.vauxLow = true → After (exec .vauxRestore s) fun t => alike (.opt :: eventKept) s t ∧ t.power.vauxLow = false) ∧
    (After (exec .refclkLoss s) fun t => keeps [.regs, .ctrs, .hdrs, .out, .power, .links, .mac] s t ∧ t.power.refclkAbsent = true ∧ ∀ n, n < 8 →
      (t.port n).lock = false) ∧
    (s.running = true → ∀ tj, 105 ≤ tj → tj < 128 → After (exec (.thermalWarn tj) s) fun t =>
      bits (t.rp pPwr 0x134) 0 8 = tj ∧ intRawBit t pPwr 5 = true ∧ keepsRegs [regAddr pPwr 0x134] s t ∧
      keepsHdrs [pPwr] s t ∧ keeps [.regs, .hdrs, .links] s t)

/-! ### The voltage loop and PMBus -/

/-- The voltage loop in AUTO (R187, R188, R202): with VSET between floor and ceiling and no request outstanding, a unit that is short at the
end of a period brings a request for VSET + 10 mV with reason SHORT, sent as VOUT_COMMAND; VSET above the ceiling brings one for VSET − 10
mV with reason CEIL; there is at most one request outstanding; a unit that has been short for a whole period at the ceiling or in STALLED
raises PACE_SHORT. A window stores PACE and LOAD of the units. -/
def Obligations.VoltageLoop : Prop :=
  ∀ s : State, s.running = true →
    (loopMode s = 0 → s.power.step = none → s.power.stalled = false → shortUnits s ≠ [] → vfloor s ≤ vset s → vset s < vmax s →
      After (exec .loopPeriod s) fun t =>
        t.power.step = some ⟨vset s + 10, true, .short, shortUnit s, 0, true, false⟩ ∧
        t.out = Output.pmbus (s.fld (regAddr pPwr 0x158) 0 7) 0x21 (pmbWord (voutWord (vset s + 10) s)) :: s.out ∧ keeps [.power, .out] s t) ∧
    (s.power.step ≠ none → After (exec .loopPeriod s) fun t => keeps [.power, .hdrs, .links] s t ∧ t.power.step = s.power.step) ∧
    (loopMode s = 0 → s.power.step = none → s.power.stalled = false → vmax s < vset s → After (exec .loopPeriod s) fun t =>
      t.power.step = some ⟨vset s - 10, false, .ceil, 0xFF, 0, true, false⟩ ∧
      t.out = Output.pmbus (s.fld (regAddr pPwr 0x158) 0 7) 0x21 (pmbWord (voutWord (vset s - 10) s)) :: s.out ∧
      keeps [.power, .out, .hdrs, .links] s t) ∧
    (paceLimited s = true → ∀ u ∈ shortUnits s, u ∈ s.power.shortRun → After (exec .loopPeriod s) fun t => intRawBit t pPwr 1 = true ∧
      keeps [.power, .out, .hdrs, .links] s t) ∧
    (∀ u v, After (exec (.paceWindow [(u, v)]) s) fun t => bits (t.rp pPwr 0x380) 0 16 = u % 65536 ∧
      bits (t.rp pPwr 0x380) 16 16 = v % 65536 ∧ keepsRegs [regAddr pPwr 0x380] s t ∧ keeps [.regs, .power] s t)

/-- An acknowledged step (R191, R193): READ_VOUT within TOL and a clean STATUS_WORD make VSET the step's voltage, end the step and STALLED,
and raise VSTEP.

Steps that fail (R191, R194): a step that is not acknowledged waits to be sent again; when the last retry has failed the loop is STALLED,
REG_SILENT is raised, VSET keeps its value and the step leaves its FAILED entry once; the retry sends the step again; the retry of STALLED
starts the exchange over, from the start-up exchange where that has not succeeded. A command of no step that fails is counted and retried,
and makes the loop STALLED after its last retry. -/
def Obligations.VoltageStepsEnd : Prop :=
  (∀ (s : State) (st : VStep) (n w : Nat), s.power.step = some st → st.sent = true → st.target < 1024 → s.power.deferred = [] →
    voutNear n st.target s = true → statusBad w = false →
    After (exec (.vstepAck n w) s) fun t =>
      keeps [.power, .regs, .hdrs, .links, .out] s t ∧ vset t = st.target ∧ t.power.step = none ∧ t.power.stalled = false ∧
      intRawBit t pPwr 2 = true ∧ t.power.vhist = (s.power.vhist + 1) % 16 ∧
      bits (t.rp pPwr (0x300 + 8 * s.power.vhist)) 0 12 = st.target + b2n st.up * 1024 ∧
      bits (t.rp pPwr (0x300 + 8 * s.power.vhist)) 12 4 = (if s.power.stalled then VReason.recover else st.reason).code) ∧
  (∀ (s : State) (st : VStep), s.power.step = some st →
    let again := fun (n : Nat) (t : State) =>
      t.power = { s.power with step := some { st with sent := true, retries := n } } ∧
      t.out = Output.pmbus (s.fld (regAddr pPwr 0x158) 0 7) 0x21 (pmbWord (voutWord st.target s)) :: s.out ∧ keeps [.power, .out] s t
    (st.sent = true → s.power.stalled = false → st.retries < pmbRetries s → After (exec .stepSettleTimeout s) fun t =>
      t.power = { s.power with step := some { st with sent := false } } ∧ keeps [.power] s t) ∧
    (st.sent = true → (s.power.stalled = true ∨ pmbRetries s ≤ st.retries) → s.power.deferred = [] →
      After (exec .stepSettleTimeout s) fun t => keeps [.power, .regs, .hdrs, .links] s t ∧ t.power.stalled = true ∧ vset t = vset s ∧
        t.power.step = some { st with sent := false, told := true } ∧ (s.power.stalled = false → intRawBit t pPwr 3 = true) ∧
        (st.told = true → t.regs = s.regs) ∧
        (st.told = false → intRawBit t pPwr 2 = true ∧ t.power.vhist = (s.power.vhist + 1) % 16 ∧
          bits (t.rp pPwr (0x300 + 8 * s.power.vhist)) 0 12 = st.target % 1024 + b2n st.up * 1024 + 2048 ∧
          keepsRegs [regAddr pPwr (0x300 + 8 * s.power.vhist), regAddr pPwr (0x304 + 8 * s.power.vhist)] s t)) ∧
    (s.running = true → st.sent = false → s.power.stalled = false → st.retries < pmbRetries s →
      After (exec .pmbusRetry s) (again (st.retries + 1))) ∧
    (s.running = true → s.power.stalled = true → s.power.pmbUp = true → After (exec .stalledRetry s) (again 0))) ∧
  (∀ s : State, s.running = true → s.power.step = none →
    (s.power.stalled = false → s.power.cmdRetries < pmbRetries s → After (exec .pmbusRetry s) fun t =>
      t.power = { s.power with cmdRetries := s.power.cmdRetries + 1 } ∧
      bits (t.rp pPwr 0x164) 0 16 = (bits (s.rp pPwr 0x164) 0 16 + 1) % 65536 ∧ keepsRegs [regAddr pPwr 0x164] s t ∧
      keeps [.power, .regs] s t) ∧
    (s.power.stalled = false → pmbRetries s ≤ s.power.cmdRetries → After (exec .pmbusRetry s) fun t =>
      t.power = { s.power with cmdRetries := 0, stalled := true } ∧ intRawBit t pPwr 3 = true ∧ keepsRegs [regAddr pPwr 0x164] s t ∧
      keeps [.power, .regs, .hdrs, .links] s t) ∧
    (s.power.stalled = true → s.power.pmbUp = false → ∀ p l, s.power.pmbNext = some p :: l → After (exec .stalledRetry s) fun t =>
      t.power.pmbUp = true ∧ t.power.step = some ⟨vset t, false, .recover, 0xFF, 0, true, false⟩ ∧ (vmin s ≤ vmax s → vmin s ≤ vset t ∧ vset t ≤ vmax s) ∧
      bits (t.rp pPwr 0x160) 16 8 = p.voutMode % 256 ∧ keeps [.power, .regs, .out] s t))

/-- PMBus readings and the registers of R203: an alert stores STATUS_WORD, raises REG_FAULT and sends CLEAR_FAULTS (R195), a poll shows what
it read, and an accepted write of PWR_LOOP_CTRL, PWR_VLIMITS or PWR_VFIXED waits while a step is outstanding and is stored otherwise. -/
def Obligations.PmbusReadings : Prop :=
  ∀ (s : State) (n : Nat), s.running = true →
    let sent := fun (l : List Nat) (t : State) => t.power = { s.power with cmdRetries := 0 } ∧
      t.out = l.map (fun c => Output.pmbus (s.fld (regAddr pPwr 0x158) 0 7) c []) ++ s.out
    (After (exec (.pmbAlert n) s) fun t => bits (t.rp pPwr 0x160) 0 16 = n % 65536 ∧ intRawBit t pPwr 4 = true ∧ vset t = vset s ∧
      sent [0x03, 0x79] t ∧ keepsRegs [regAddr pPwr 0x160] s t ∧ keepsHdrs [pPwr] s t ∧ keeps [.regs, .hdrs, .links, .power, .out] s t) ∧
    (After (exec (.pmbusPoll .iout n) s) fun t => bits (t.rp pPwr 0x134) 16 16 = n % 65536 ∧ sent [0x8C] t ∧
      keepsRegs [regAddr pPwr 0x134] s t ∧ keeps [.regs, .power, .out] s t) ∧
    (After (exec (.pmbusPoll .temp n) s) fun t => bits (t.rp pPwr 0x134) 8 8 = n % 256 ∧ sent [0x8D] t ∧
      keepsRegs [regAddr pPwr 0x134] s t ∧ keeps [.regs, .power, .out] s t) ∧
    (After (exec (.pmbusPoll .vout n) s) fun t => bits (t.rp pPwr 0x130) 16 10 = voutMv n s % 1024 ∧ vset t = vset s ∧ sent [0x8B] t ∧
      keepsRegs [regAddr pPwr 0x130] s t ∧ keeps [.regs, .power, .out] s t) ∧
    (∀ m r v, admits m pPwr (loopOff r) (loopHandler (loopOff r)) v s = true →
      After (exec (.loopConfigWrite m r v) s) fun t => t.last.status = .ok ∧
        (∀ st, s.power.step = some st → st.sent = true ∨ s.power.stalled = false →
          t.power = { s.power with deferred := s.power.deferred ++ [(loopOff r, v)] } ∧ keeps [.power, .last] s t) ∧
        (s.power.step = none → t.rp pPwr (loopOff r) = mergeFields (fieldsAt pPwr (loopOff r)) (s.rp pPwr (loopOff r)) v ∧
          keepsRegs [regAddr pPwr (loopOff r)] s t ∧ keeps [.regs, .last] s t))

/-! ### Control links -/

/-- Frames that fail the first checks of R46 are counted and nothing in them is acted on: a bad FCS or size in RX_BAD_MAC (R39), a foreign
destination, a VLAN tag or another EtherType in RX_FOREIGN (R41); every frame counts in RX_FRAMES. -/
def Obligations.FramesThatFailTheMacChecks : Prop :=
  ∀ (l : AB) (f : RxFrame) (s : State), s.running = true → (s.link l).lock = true → f.fifoFull = false → noFlip s = true →
    ∀ i ∈ [Instr.dataFrameReceive l f, .ackonlyReceive l f, .resyncReceive l f, .resyncAckReceive l f],
      ((f.size < 64 ∨ 9728 < f.size ∨ f.fcsOk = false) → After (exec i s) fun t =>
        t.rd (linkCtr l 0) = s.rd (linkCtr l 0) + 1 ∧ t.rd (linkCtr l 2) = s.rd (linkCtr l 2) + 1 ∧
        keepsRegs [linkCtr l 0, linkCtr l 2] s t ∧ keeps [.regs] s t) ∧
      (64 ≤ f.size → f.size ≤ 9728 → f.fcsOk = true → (f.da ≠ linkMac l s ∨ f.tagged = true ∨ f.etype ≠ 0x88B5) →
        After (exec i s) fun t =>
          t.rd (linkCtr l 0) = s.rd (linkCtr l 0) + 1 ∧ t.rd (linkCtr l 3) = s.rd (linkCtr l 3) + 1 ∧
          keepsRegs [linkCtr l 0, linkCtr l 3] s t ∧ keeps [.regs] s t)

/-- Sequence numbers (R52, R65): a good DATA frame of the present epoch is delivered when its SEQ is the expected one, and its records are
executed in order with the expected SEQ advanced by 1; a duplicate is discarded, counts in RX_DUP and is acknowledged again; a gap is
used for its ACK (R75), discarded and counted in RX_GAP, and an ACKONLY frame with NAK leaves for the peer unless one left for the same
expected value in the last 20 µs. -/
def Obligations.DataFramesAreDeliveredInOrder : Prop :=
  ∀ (l : AB) (f : RxFrame) (s : State), s.running = true → frameGood l f s = true → f.kind = 0 → f.epoch = (s.link l).epoch →
    (s.link l).waiting = false →
    let k := { afterAck l f.ack s with heard := true }
    let ctrs := if (s.link l).replay.length < ackCount l f.ack s then [linkCtr l 0, linkCtr l 10] else [linkCtr l 0]
    (f.seq = (s.link l).expSeq → exec (.dataFrameReceive l f) s = .next (runRecords l f.slow f.area.length 0 false f.area
      ((ctrs.foldl (fun s a => s.bump a 1) s).setLink l { k with expSeq := (f.seq + 1) % 65536, ackOwed := true }))) ∧
    (f.seq ≠ (s.link l).expSeq → precedes 16 f.seq (s.link l).expSeq = true → After (exec (.dataFrameReceive l f) s) fun t =>
      t.link l = { k with ackOwed := true } ∧ t.rd (linkCtr l 8) = s.rd (linkCtr l 8) + 1 ∧
      keepsRegs (linkCtr l 8 :: ctrs) s t ∧ keeps [.regs, .links] s t) ∧
    (f.seq ≠ (s.link l).expSeq → precedes 16 f.seq (s.link l).expSeq = false → After (exec (.dataFrameReceive l f) s) fun t =>
      keepsRegs (linkCtr l 1 :: linkCtr l 9 :: ctrs) s t ∧ keeps [.regs, .links, .out] s t ∧ (t.link l).expSeq = (s.link l).expSeq ∧
        (t.link l).replay = k.replay ∧ t.rd (linkCtr l 9) = s.rd (linkCtr l 9) + 1 ∧
      (∀ c, (s.link l).nak = some ((s.link l).expSeq, c) → s.clock < c + 20 → t.link l = k ∧ t.out = s.out) ∧
      ((∀ x, (s.link l).nak = some x → x.1 = (s.link l).expSeq → x.2 + 20 ≤ s.clock) →
        (t.link l).nak = some ((s.link l).expSeq, s.clock) ∧ ∃ x, t.out = Output.frame l x false :: s.out ∧
        x.kind = 1 ∧ x.flags = 1 ∧ x.seq = (s.link l).nextSeq ∧ x.ack = ackNow (s.link l) ∧ x.recs = [] ∧
        x.epoch = (s.link l).epoch ∧ x.da = (s.link l).peer.getD (2 ^ 48 - 1) ∧ x.sa = sourceMac l s))

/-- Acknowledgements (R53, R55): an ACK from the oldest unacknowledged SEQ minus 1 to the last SEQ sent releases every frame up to it and,
when it releases one, ends the replay run; any other ACK is counted in RX_ACK_RANGE and ignored. -/
def Obligations.AcksReleaseFrames : Prop :=
  ∀ (l : AB) (f : RxFrame) (s : State), s.running = true → frameGood l f s = true → f.kind = 1 → f.epoch = (s.link l).epoch →
    (s.link l).waiting = false → f.flags.testBit 0 = false → After (exec (.ackonlyReceive l f) s) fun t =>
      (ackCount l f.ack s ≤ (s.link l).replay.length →
        (t.link l).replay = (s.link l).replay.drop (ackCount l f.ack s) ∧
        (t.link l).replayRun = (if ackCount l f.ack s = 0 then (s.link l).replayRun else 0) ∧
        keepsRegs [linkCtr l 0] s t) ∧
      ((s.link l).replay.length < ackCount l f.ack s → t.link l = { s.link l with heard := true } ∧
        t.rd (linkCtr l 10) = s.rd (linkCtr l 10) + 1 ∧ keepsRegs [linkCtr l 0, linkCtr l 10] s t) ∧
      keeps [.regs, .links] s t

/-- The wait for RESYNC_ACK (R58): the initiator of a re-synchronisation discards every good DATA and ACKONLY frame, even of the new epoch,
and counts it in RX_STALE_EPOCH; neither its replay buffer nor its expected SEQ changes.

A RESYNC_ACK of the epoch that the initiator waits for completes the re-synchronisation (R58, R62): STATE is UP, RESYNCS counts it,
RESYNC_DONE is raised, the sender becomes the peer while none is known; an old-epoch response is reported as UNCONFIRMED. One that arrives
later changes no counter but RX_FRAMES (R59). -/
def Obligations.TheInitiatorWaitsForItsAnswer : Prop :=
  (∀ (l : AB) (f : RxFrame) (s : State), s.running = true → frameGood l f s = true → (s.link l).waiting = true →
    let discarded := fun (t : State) => t.rd (linkCtr l 7) = s.rd (linkCtr l 7) + 1 ∧ (t.link l).replay = (s.link l).replay ∧
      (t.link l).expSeq = (s.link l).expSeq ∧ (t.link l).resp = (s.link l).resp ∧ (t.link l).state = (s.link l).state ∧
      intRawBit t (pCtl l) 3 = true ∧ keepsRegs [linkCtr l 0, linkCtr l 7] s t ∧ keeps [.regs, .hdrs, .links] s t
    (f.kind = 0 → After (exec (.dataFrameReceive l f) s) discarded) ∧
    (f.kind = 1 → After (exec (.ackonlyReceive l f) s) discarded)) ∧
  (∀ (l : AB) (f : RxFrame) (s : State), s.running = true → frameGood l f s = true → f.kind = 3 → f.epoch = (s.link l).epoch →
    ((s.link l).waiting = true → (s.link l).peer = none → After (exec (.resyncAckReceive l f) s) fun t =>
      keeps [.regs, .hdrs, .links] s t ∧ (t.link l).state = .up ∧ (t.link l).waiting = false ∧ (t.link l).peer = some f.sa ∧ (t.link l).unconf = [] ∧
      (t.link l).resp = ((s.link l).unconf.filter (fun x => !ackedOld (s.link l).oldWin (some f.ack) x)).map
        (fun x => unconfirmedRec x.2) ++ (s.link l).resp ∧
      t.rd (linkCtr l 12) = s.rd (linkCtr l 12) + 1 ∧ intRawBit t (pCtl l) 0 = true) ∧
    ((s.link l).waiting = false → After (exec (.resyncAckReceive l f) s) fun t =>
      t.link l = { s.link l with heard := true } ∧ keepsRegs [linkCtr l 0] s t ∧ keeps [.regs, .links] s t))

/-- A received RESYNC (R59, R62): the next epoch is taken, the replay buffer is flushed, the sender becomes the peer while PIN is 0, and every
old-epoch response that was not seen acknowledged is reported as UNCONFIRMED before anything else. -/
def Obligations.ResyncMovesTheEpoch : Prop :=
  ∀ (l : AB) (f : RxFrame) (s : State), s.running = true → frameGood l f s = true → f.kind = 2 → (s.link l).state = .up →
    (s.link l).waiting = false → (s.link l).chain = none → f.flags = 0 → f.epoch = ((s.link l).epoch + 1) % 16 →
    s.flag (regAddr (pCtl l) 0x128) 0 = false → After (exec (.resyncReceive l f) s) fun t =>
      keeps [.regs, .hdrs, .links, .out] s t ∧ (t.link l).epoch = f.epoch ∧ (t.link l).state = .up ∧ (t.link l).peer = some f.sa ∧
        (t.link l).replay = [] ∧
      (t.link l).nextSeq = 0 ∧ (t.link l).expSeq = 0 ∧ (t.link l).cause = 2 ∧
      ((s.link l).unconf = [] → (s.link l).replay = [] → (t.link l).resp = (s.link l).resp.map unconfirmedRec) ∧
      ∃ x, Output.frame l x false ∈ t.out ∧ x.kind = 3 ∧ x.epoch = f.epoch ∧ x.da = f.sa ∧ x.ack = ackNow (s.link l)

/-- The acknowledgement timer (R55, R58): below replay run 8 every unacknowledged frame is replayed in SEQ order and TX_REPLAYS and the run
advance by 1; at run 8 a re-synchronisation with cause REPLAY_LIMIT starts, in the next epoch and with a flushed replay buffer. A repeat
sends the RESYNC again, and a master's RESYNC starts one with cause HOST_CMD once the responses before it have left. -/
def Obligations.ReplaysAndResyncs : Prop :=
  ∀ (l : AB) (s : State), s.running = true → noFlip s = true →
    ((s.link l).state = .up → (s.link l).replay ≠ [] → (s.link l).replayRun < 8 → s.ecc.upsets = [] → s.ecc.poison = [] →
      After (exec (.ackTimeout l) s) fun t => keeps [.regs, .links, .out] s t ∧ (t.link l).replayRun = (s.link l).replayRun + 1 ∧
        (t.link l).replay = (s.link l).replay ∧ t.rd (linkCtr l 11) = s.rd (linkCtr l 11) + 1 ∧
        ((t.out.take (s.link l).replay.length).filterMap (fun o => match o with
          | .frame _ x _ => some (x.seq, x.recs)
          | _ => none)).reverse = (s.link l).replay) ∧
    ((s.link l).state = .up → (s.link l).replay ≠ [] → 8 ≤ (s.link l).replayRun → After (exec (.ackTimeout l) s) fun t =>
      keeps [.regs, .hdrs, .links, .out, .ctrs, .buf] s t ∧ (t.link l).state = .resync ∧ (t.link l).cause = 1 ∧
        (t.link l).epoch = ((s.link l).epoch + 1) % 16 ∧
      (t.link l).replay = [] ∧ (t.link l).waiting = true) ∧
    ((s.link l).waiting = true → After (exec (.resyncRepeat l) s) fun t => t.links = s.links ∧
      ∃ x, t.out = Output.frame l x false :: s.out ∧ x.kind = 2 ∧ x.epoch = (s.link l).epoch ∧ x.ack = (s.link l).oldAck ∧
        keepsRegs [linkCtr l 1] s t ∧ keeps [.out, .regs] s t) ∧
    ((s.link l).hostResync = some 0 → (s.link l).state = .up → After (exec (.resyncStart l) s) fun t =>
      keeps [.regs, .hdrs, .links, .out, .ctrs, .buf] s t ∧ (t.link l).state = .resync ∧ (t.link l).cause = 5 ∧
        (t.link l).epoch = ((s.link l).epoch + 1) % 16 ∧
      (t.link l).replay = [] ∧ (t.link l).waiting = true)

/-- What leaves (R44, R45, R51, R54, R73): a frame leaves as its bytes, most significant byte first, with E2E_CRC behind its records; a
delay for acknowledgement ends in one ACKONLY frame; a pack delay sends the waiting records, responses before anything else, in frames that
enter the replay buffer, never beyond 128 unacknowledged frames. -/
def Obligations.RecordsArePacked : Prop :=
  ∀ (l : AB) (s : State), s.running = true → (s.link l).state = .up →
    let wired := fun (x : TxFrame) => x.bytes = frameWire x.da x.sa x.epoch x.kind x.flags x.seq x.ack x.recs ∧ 60 ≤ x.bytes.length
    ((s.link l).ackOwed = true → noFlip s = true → After (exec (.ackDelayExpiry l) s) fun t =>
      t.link l = { s.link l with ackOwed := false } ∧ (∃ x, t.out = Output.frame l x false :: s.out ∧ x.kind = 1 ∧ x.flags = 0 ∧
        x.ack = ackNow (s.link l) ∧ wired x) ∧ keepsRegs [linkCtr l 1] s t ∧ keeps [.out, .regs, .links] s t) ∧
    ((s.link l).replay.length ≤ 128 → After (exec (.packDelayExpiry l) s) fun t =>
      keeps [.regs, .ctrs, .hdrs, .out, .free, .nvs, .links, .log, .ecc] s t ∧ (t.link l).replay.length ≤ 128) ∧
    ((s.link l).replay.length < 128 → (s.link l).hostResync = none → noFlip s = true → ∀ r, waitingRecs (s.link l) = [r] → recSize r ≤ 9696 →
      After (exec (.packDelayExpiry l) s) fun t => keeps [.regs, .hdrs, .out, .links, .ecc] s t ∧
        (t.link l).replay = (s.link l).replay ++ [((s.link l).nextSeq, [r])] ∧
        (t.link l).nextSeq = ((s.link l).nextSeq + 1) % 65536 ∧ waitingRecs (t.link l) = [] ∧
        ∃ x, t.out = Output.frame l x false :: s.out ∧ x.kind = 0 ∧ x.seq = (s.link l).nextSeq ∧ x.recs = [r] ∧ wired x)

/-- The state of a link (R57, R79, R43): block lock is lost; when the loss has lasted CTL_LINKDOWN, STATE is DOWN and LINK_DOWN is raised;
block lock after that starts a re-synchronisation, while the one of a reset is unanswered the RESYNC with RESET set and EPOCH 0 (R58), which
has cause LINK_DOWN where the link went down after the reset (assumption 36), otherwise one with cause LINK_DOWN; a return before
CTL_LINKDOWN changes nothing else. -/
def Obligations.LinkLossAndReturn : Prop :=
  ∀ (l : AB) (s : State), s.running = true →
    (After (exec (.linkLoss l) s) fun t => t = s.setLink l { s.link l with lock := false }) ∧
    ((s.link l).lock = false → (s.link l).state ≠ .down → After (exec (.linkdownExpiry l) s) fun t =>
      keeps [.regs, .links, .hdrs, .ctrs, .buf] s t ∧ (t.link l).state = .down ∧ (t.link l).waiting = false ∧ (t.link l).rx = [] ∧
        (t.link l).omci = [] ∧ (t.link l).census = [] ∧
      (t.link l).resp = (s.link l).resp ∧ intRawBit t (pCtl l) 1 = true) ∧
    ((s.link l).state ≠ .down → After (exec (.linkReturn l) s) fun t => t = s.setLink l { s.link l with lock := true }) ∧
    ((s.link l).state = .down → (s.link l).afterReset = false → After (exec (.linkReturn l) s) fun t =>
      keeps [.regs, .ctrs, .hdrs, .out, .free, .nvs, .links, .log, .buf, .ecc] s t ∧ (t.link l).lock = true ∧ (t.link l).state = .resync ∧
        (t.link l).cause = 3 ∧
      (t.link l).epoch = ((s.link l).epoch + 1) % 16 ∧ (t.link l).waiting = true) ∧
    ((s.link l).state = .down → (s.link l).afterReset = true → noFlip s = true → (s.link l).chain = none →
      (s.link l).replay = [] → After (exec (.linkReturn l) s) fun t =>
        keeps [.regs, .links, .hdrs, .ctrs, .buf, .out] s t ∧ (t.link l).state = .resync ∧
          (t.link l).cause = (if (s.link l).fell then 3 else 4) ∧ (t.link l).epoch = 0 ∧ (t.link l).waiting = true ∧
        ∃ x, t.out = Output.frame l x false :: s.out ∧ x.kind = 2 ∧ x.epoch = 0 ∧ x.flags = 2 ∧ x.ack = 0xFFFF ∧
          x.da = (s.link l).peer.getD (2 ^ 48 - 1))

/-! ### Records, registers and memory -/

/-- READ, WRITE and MASKED_WRITE of LPDDR4X (R47, R48, R84): every word of an access that passes the checks is read or written in turn, a
FIXED access addresses the same word again and again, the response carries TAG and the count of words, and no byte outside the words
written changes. -/
def Obligations.MemoryIsReadAndWritten : Prop :=
  ∀ (m : AB) (tag a : Nat) (s : State), s.running = true → (s.link m).state ≠ .resync →
    (∀ n, apertureOk m a n s = true → After (exec (.read m tag (0x100000000 + a) n false) s) fun t =>
      answers m ⟨0x81, 0, tagWord tag n :: (List.range n).map (fun i => s.dramWord (a + 4 * i)), 0⟩ s t ∧ keeps [.links, .last] s t) ∧
    (∀ n, 1 ≤ n → n ≤ 64 → apertureOk m a 1 s = true → After (exec (.read m tag (0x100000000 + a) n true) s) fun t =>
      answers m ⟨0x81, 0, tagWord tag n :: List.replicate n (s.dramWord a), 0⟩ s t ∧ keeps [.links, .last] s t) ∧
    (∀ d, apertureOk m a d.length s = true → After (exec (.write m tag (0x100000000 + a) false d) s) fun t =>
      answers m ⟨0x82, 0, [tagWord tag d.length], 0⟩ s t ∧ (∀ i, i < d.length → t.dramWord (a + 4 * i) = d.getD i 0) ∧
      (∀ x, x < a ∨ a + 4 * d.length ≤ x → t.dramByte x = s.dramByte x) ∧ keeps [.links, .last, .dram] s t) ∧
    (∀ d v, d.length < 64 → apertureOk m a 1 s = true → After (exec (.write m tag (0x100000000 + a) true (d ++ [v])) s) fun t =>
      answers m ⟨0x82, 0, [tagWord tag (d.length + 1)], 0⟩ s t ∧ t.dramWord a = v ∧
      (∀ x, x < a ∨ a + 4 ≤ x → t.dramByte x = s.dramByte x) ∧ keeps [.links, .last, .dram] s t) ∧
    (∀ k v, apertureOk m a 1 s = true → After (exec (.maskedWrite m tag (0x100000000 + a) k v) s) fun t =>
      answers m ⟨0x83, 0, [tagWord tag 0, s.dramWord a], 0⟩ s t ∧ t.dramWord a = (s.dramWord a &&& ~~~ k) ||| (v &&& k) ∧
      (∀ x, x < a ∨ a + 4 ≤ x → t.dramByte x = s.dramByte x) ∧ keeps [.links, .last, .dram] s t)

/-- A malformed record (R50, R113): one ERROR record with the cause, no response and no effect, and MALFORMED counts it; the record that takes
the count of its window above the threshold freezes the master with cause MALFORMED.

A misaligned address, an address outside the map, a count of 0 or above 64 and more than eight descriptor words make a record malformed;
nothing else makes an OMCI_UP so (R50). -/
def Obligations.MalformedRecordsAreAnsweredWithError : Prop :=
  (∀ (m : AB) (r : Request) (s : State), s.running = true → requestBad r s ≠ 0 → (s.link m).state ≠ .resync →
    let err : Rec := ⟨0x8F, 0, [word (reqTag r % 65536 * 65536), word (requestBad r s)], 0⟩
    let top := s.fld (regAddr pSem 0x604) 0 10
    (s.masters.malf.get m < top → After (exec (commandOf m r) s) fun t =>
      answers m err s t ∧ t.rd (linkCtr m 14) = s.rd (linkCtr m 14) + 1 ∧
      t.masters = { s.masters with malf := s.masters.malf.set m (s.masters.malf.get m + 1) } ∧
      keepsRegs [linkCtr m 14] s t ∧ keeps [.links, .regs, .masters] s t) ∧
    (s.masters.malf.get m = top → s.isFrozen m = false → After (exec (commandOf m r) s) fun t =>
      err ∈ (t.link m).resp ∧ t.isFrozen m = true ∧ (t.frz m).cause = 4 ∧ (t.frz m).type = reqType r ∧ (t.frz m).tag = reqTag r ∧
      (t.frz m).addr = 0 ∧ intRawBit t pSem m.num = true ∧ keepsRegs (linkCtr m 14 :: logRegs) s t ∧
      keepsHdrs [pSem] s t ∧ keeps [.links, .regs, .masters, .hdrs, .log, .fw] s t)) ∧
  (∀ (s : State) (tag a : Nat) (fx : Bool),
    (∀ n, n = 0 ∨ 64 < n → requestBad (.read tag a n fx) s = 3) ∧
    (∀ n, 1 ≤ n → n ≤ 64 → (a % 4 ≠ 0 ∨ resolve a s = none) → requestBad (.read tag a n fx) s = 4) ∧
    (∀ d : List Word, 1 ≤ d.length → d.length ≤ 64 → (a % 4 ≠ 0 ∨ resolve a s = none) → requestBad (.write tag a fx d) s = 4) ∧
    (∀ d : List Word, d.length = 0 ∨ 64 < d.length → requestBad (.write tag a fx d) s = 3) ∧
    (∀ k v, (a % 4 ≠ 0 ∨ resolve a s = none) → requestBad (.masked tag a k v) s = 4) ∧
    (∀ k fi la n d b, 8 < d.length → requestBad (.dataTx tag k fi la n d b) s = 3) ∧
    (∀ l, requestBad (.omciUp l) s = 0) ∧
    (∀ x, s.memSize ≤ x → x < 2 ^ 40 → resolve (0x100000000 + x) s = none))

/-- Host data (R70, R71): a FIRST record opens a chain and a later one goes on with it, each answered OK where its TAG is not 0; a later
record without a chain is discarded with reason HOST_CHAIN and answered RANGE; a LAST record hands the whole send to the host port, whose
status it gets; when the bytes do not add up to TOTAL the whole send is discarded with reason HOST_CHAIN and answered RANGE.

The host port (R357, Table 12-4): a send that the lowest cause refuses leaves SEG_BAD with the cause, the slice and the TAG, counts once
with reason SEG_BAD and answers RANGE; an accepted one is counted with its frames and answered OK, and its first frame leaves segmentation
(R360); while the page is not ACTIVE the answer is BUSY and nothing changes.

OMCI_UP (R67, R112, R263): with an OMCI_IK the message waits with its last four bytes replaced by the MIC (outside DOZE, which it would
end); without one it is discarded with reason OMCI_MIC; from a frozen master it counts with reason HOST_FROZEN; from a master that does not
own slice 0 it counts as unowned with reason HOST_DENIED and freezes the master with cause FOREIGN_SLICE. -/
def Obligations.HostDataAndOmci : Prop :=
  ((∀ (m : AB) (tag k total : Nat) (d : List Word) (b : List Byte) (s : State), s.running = true → k < 16 → d.length ≤ 8 →
    tag % 65536 ≠ 0 → (s.link m).state ≠ .resync → s.isFrozen m = false → s.ownsSlice m k = true → sliceRefusal k s = none →
    ((s.link m).chain = none → After (exec (.dataTx m tag k true false total d b) s) fun t =>
      (t.link m).chain = some ⟨k, total, d, b, none, false⟩ ∧
      (t.link m).resp = (s.link m).resp ++ [⟨0x90, 0, [tagWord tag 0], 0⟩] ∧ keeps [.links] s t) ∧
    ((s.link m).chain = none → ∀ la, After (exec (.dataTx m tag k false la total d b) s) fun t =>
      (t.link m).chain = none ∧ (t.link m).resp = (s.link m).resp ++ [⟨0x90, 1, [tagWord tag 0], 0⟩] ∧
      counted .hostChain k 9 s t ∧ keepsRegs (dropRegs .hostChain k 9) s t ∧ keepsHdrs [pSlice k 1] s t ∧
      keeps [.links, .ctrs, .regs, .hdrs, .buf] s t) ∧
    (∀ n e x, (s.link m).chain = some ⟨k, n, e, x, none, false⟩ →
      (d = [] → After (exec (.dataTx m tag k false false total d b) s) fun t =>
        (t.link m).chain = some ⟨k, n, e, x ++ b, none, false⟩ ∧
        (t.link m).resp = (s.link m).resp ++ [⟨0x90, 0, [tagWord tag 0], 0⟩] ∧ keeps [.links] s t) ∧
      ((x ++ b).length ≠ n → After (exec (.dataTx m tag k false true total d b) s) fun t =>
        (t.link m).chain = none ∧ (t.link m).resp = (s.link m).resp ++ [⟨0x90, 1, [tagWord tag 0], 0⟩] ∧
        counted .hostChain k 9 s t ∧ keepsRegs (dropRegs .hostChain k 9) s t ∧ keepsHdrs [pSlice k 1] s t ∧
        keeps [.links, .ctrs, .regs, .hdrs, .buf] s t)) ∧
    ((s.link m).chain = none → b.length = total → exec (.dataTx m tag k true true total d b) s =
      .next (closeMarks m (s.link m).hostResync.isSome (wakeOn s
        (dataResp m tag (hostSend k tag d false b (setChain m none s)).2 (hostSend k tag d false b (setChain m none s)).1))))) ∧
  (∀ (k tag : Nat) (d : List Word) (l : List Byte) (s : State), k < 16 →
    (s.pstate pSeg ≠ .active → hostSend k tag d false l s = (s, .busy)) ∧
    (s.pstate pSeg = .active → sendRefusal k d false l s ≠ 0 →
      let t := (hostSend k tag d false l s).1
      (hostSend k tag d false l s).2 = .range ∧ t.rp pSeg 0x108 = s.rp pSeg 0x108 + 1 ∧
      t.rp pSeg 0x10C = word (sendRefusal k d false l s + k * 256 + tag % 65536 * 65536) ∧ intRawBit t pSeg 0 = true ∧
      counted .segBad k 9 s t ∧ keepsRegs ([regAddr pSeg 0x108, regAddr pSeg 0x10C] ++ dropRegs .segBad k 9) s t) ∧
    (s.pstate pSeg = .active → sendRefusal k d false l s = 0 →
      let t := (hostSend k tag d false l s).1
      (hostSend k tag d false l s).2 = .ok ∧ t.rp pSeg 0x100 = s.rp pSeg 0x100 + 1 ∧
      t.rp pSeg 0x104 = s.rp pSeg 0x104 + word (sendFrames d l).length ∧
      t.seg = (s.seg ++ (sendFrames d l).zipIdx.map (fun x => (⟨k, d, x.2, x.1⟩ : SegFrame))).drop 1) ∧
    (∀ x ∈ [13, 9597], l.length = x → s.slc k 0x108 = 0 → d = [] → sendRefusal k d false l s = 3))) ∧
  (∀ (m : AB) (msg : List Byte) (s : State), s.running = true → s.ecc.upsets = [] → s.ecc.poison = [] →
    (s.isFrozen m = false → s.ownsSlice m 0 = true →
      (∀ f key, activeFeeder s = some f → keyIn f 4 s = some key → s.power.mode ≠ .service .doze → After (exec (.omciUp m msg) s) fun t =>
        t.omciUpQ = s.omciUpQ ++ [omciSigned key msg] ∧ keepsRegs [] s t ∧ keeps [.omciUpQ, .links] s t) ∧
      (activeFeeder s = none → After (exec (.omciUp m msg) s) fun t => counted .omciMic 0 9 s t ∧
        keepsRegs (dropRegs .omciMic 0 9) s t ∧ keepsHdrs [pSlice 0 1] s t ∧ keeps [.links, .ctrs, .regs, .hdrs, .buf] s t)) ∧
    (s.isFrozen m = true → s.ownsSlice m 0 = true → After (exec (.omciUp m msg) s) fun t => counted .hostFrozen 0 9 s t ∧
      keepsRegs (dropRegs .hostFrozen 0 9) s t ∧ keepsHdrs [pSlice 0 1] s t ∧ keeps [.links, .ctrs, .regs, .hdrs, .buf] s t) ∧
    (s.isFrozen m = false → s.ownsSlice m 0 = false → After (exec (.omciUp m msg) s) fun t =>
      keeps [.links, .regs, .ctrs, .masters, .hdrs, .log, .fw] s t ∧ t.isFrozen m = true ∧ (t.frz m).cause = 2 ∧ (t.frz m).type = 0x20 ∧
      t.ctr (unownedAddr 0x28) = (s.ctr (unownedAddr 0x28) + 1) % 2 ^ 40 ∧ t.omciUpQ = s.omciUpQ))

/-- Transactions and handshakes that do not complete (R66, R183, R506): a READ or WRITE of LPDDR4X whose word `n` does not complete is
answered TIMEOUT with the words before it, and so is a MASKED_WRITE, and leaves TXN_TIMEOUT in the MEM page; the late word of a write holds
its old or its new value (assumption 39), and no other byte changes; a stuck handshake leaves HS_STUCK in the page of the unit; both start
the self-test of the unit. -/
def Obligations.StuckUnitsAreReported : Prop :=
  ∀ (s : State), s.running = true → (s.hdr pMem).faultCode = 0 → (s.hdr pMem).testing = false →
    let late := fun (m : AB) (r : Rec) (a : Nat) (t : State) =>
      alike [.pending, .clock, .era, .backup, .keeper, .lfr, .opt, .keys] s t ∧ r ∈ (t.link m).resp ∧
        (t.hdr pMem).faultCode = 0x0202 ∧ (t.hdr pMem).faultDetail = word a ∧ (t.hdr pMem).testing = true
    let off := fun (a n : Nat) (t : State) => ∀ x, x < a ∨ a + n ≤ x → t.dramByte x = s.dramByte x
    (∀ m tag a n k, apertureOk m a k s = true → n < k → (s.link m).state ≠ .resync →
      (After (exec (.txnTimeout m (.read k false) tag (0x100000000 + a) n) s) fun t => t.dram = s.dram ∧
        late m ⟨0x81, 4, tagWord tag n :: (List.range n).map (fun i => s.dramWord (a + 4 * i)), 0⟩ (a + 4 * n) t) ∧
      (∀ d, d.length = k → After (exec (.txnTimeout m (.write false d) tag (0x100000000 + a) n) s) fun t =>
        late m ⟨0x82, 4, [tagWord tag n], 0⟩ (a + 4 * n) t ∧ (∀ i, i < n → t.dramWord (a + 4 * i) = d.getD i 0) ∧
        (t.dramWord (a + 4 * n) = s.dramWord (a + 4 * n) ∨ t.dramWord (a + 4 * n) = d.getD n 0) ∧ off a (4 * (n + 1)) t)) ∧
    (∀ m tag a k v, apertureOk m a 1 s = true → (s.link m).state ≠ .resync →
      After (exec (.txnTimeout m (.masked k v) tag (0x100000000 + a) 0) s) fun t => late m ⟨0x83, 4, [tagWord tag 0, 0], 0⟩ a t ∧
        (t.dramWord a = s.dramWord a ∨ t.dramWord a = (s.dramWord a &&& ~~~ k) ||| (v &&& k)) ∧ off a 4 t) ∧
    (∀ u, After (exec (.handshakeStuck pMem u) s) fun t =>
      alike [.pending, .snaps, .last, .clock, .era, .backup, .masters, .keeper, .fw, .lfr, .opt, .keys] s t ∧ (t.hdr pMem).faultCode = 0x0201 ∧
        (t.hdr pMem).faultDetail = word (0x08 * 2 ^ 24 + u % 256 * 2 ^ 16) ∧
      (t.hdr pMem).testing = true ∧ (t.hdr pMem).testStatus = .running ∧ t.dram = s.dram)

/-- Writes of a register without behaviour of its own (R82, R94, R523): an accepted write stores the fields by their access codes and, where
the register is held in the non-volatile store, waits to be committed; nothing else changes but the count of token uses. The writes of
CTL_MAC and of RESYNC are such writes with their own effect (R41, R57). -/
def Obligations.AcceptedWritesStoreTheFields : Prop :=
  ∀ (m : AB) (s : State), s.running = true →
    (∀ p off v i, pageInfo p = some i → 0x100 ≤ off → off < 0x1000 → off % 4 = 0 → blockHandler p off i = plain p off →
      admits m p off (plain p off) v s = true → After (exec (.regWrite m (regAddr p off) v) s) fun t =>
        t.last = .done ∧ (regAddr p off ≠ regAddr pPrs 0x110 → t.rp p off = mergeFields (fieldsAt p off) (s.rp p off) v) ∧
        (hasNvs (fieldsAt p off) = true → NvItem.reg (regAddr p off) ∈ t.nvs.pend) ∧
        (hasNvs (fieldsAt p off) = false → t.nvs = s.nvs) ∧
        keepsRegs (writeRegs p off) s t ∧ keeps [.regs, .last, .nvs, .links] s t ∧
        (∀ l, ∃ mo, t.link l = { s.link l with macOld := mo })) ∧
    (∀ hi v, let off := if hi then 0x118 else 0x11C
      admits m (pCtl m) off (ctlMacHandler m off) v s = true → After (exec (.ctlMacWrite m hi v) s) fun t =>
        t.last = .done ∧ t.rp (pCtl m) off = mergeFields (fieldsAt (pCtl m) off) (s.rp (pCtl m) off) v ∧
        keepsRegs (writeRegs (pCtl m) off) s t ∧ keeps [.regs, .last, .nvs, .links] s t) ∧
    (admits m (pCtl m) 0x12C (ctlCtrlHandler m) (setBits (s.rp (pCtl m) 0x12C) 0 1 1) s = true → (s.link m).hostResync = none →
      s.flag (regAddr (pCtl m) 0x12C) 2 = false → s.flag (regAddr (pCtl m.other) 0x12C) 2 = false →
      After (exec (.ctlResyncCmd m) s) fun t => t.last = .done ∧ t.link m = { s.link m with hostResync := some 0 } ∧
        keepsRegs (writeRegs (pCtl m) 0x12C) s t ∧ keeps [.regs, .last, .links] s t)

/-- Writes that R94 turns away have no effect beyond their record (R95, R96, R112, R114, R116): a frozen master's write is answered FROZEN and
counted; a value out of range is answered RANGE and recorded; a write to a page of a slice that the master does not own is answered DENIED,
and freezes the master with cause FOREIGN_SLICE; a write that needs a presence token and has none freezes it with cause NO_PRESENCE. -/
def Obligations.RefusedWritesChangeNothing : Prop :=
  ∀ (m : AB) (p off : Nat) (v : Word) (i : PageInfo) (s : State), s.running = true → pageInfo p = some i → off < 0x1000 → off % 4 = 0 →
    let h := regHandler p off i
    let fs := writeFields p off
    let w := exec (.regWrite m (regAddr p off) v) s
    (frozenWrite m p off s = true → After w fun t => t.last = ⟨.frozen, 0, .none⟩ ∧
      t.masters = { s.masters with frz := s.masters.frz.set m { s.frz m with refused := satAdd 65535 (s.frz m).refused 1 } } ∧
      keepsRegs [] s t ∧ keeps [.last, .masters, .links] s t) ∧
    (frozenWrite m p off s = false → writeDenied m (.reg none p off) s = none → h.own m v s = false → h.sem m v s = false →
      (touches .rwp fs v = true → s.present = true) → s.lockOk m p = true → writeBusy p off v s = false →
      fieldsOutOfRange fs v = true → h.onRange s = s → After w fun t =>
        t.last = ⟨.range, 0, .none⟩ ∧ t.rd (accBase m) = s.rd (accBase m) + 1 ∧ t.rd (accBase m + 8) = word 0x100 ∧
        t.rd (accBase m + 12) = word (regAddr p off) ∧ keepsRegs [accBase m, accBase m + 8, accBase m + 12] s t ∧
        keeps [.last, .regs, .links] s t) ∧
    (s.isFrozen m = false → blkScope i.blk = 1 → s.ownsSlice m i.inst = false → After w fun t =>
      t.last = ⟨.denied, 0, .ownership⟩ ∧ t.isFrozen m = true ∧ (t.frz m).cause = 2 ∧ (t.frz m).addr = regAddr p off ∧
      t.rd (accBase m + 4) = s.rd (accBase m + 4) + 1 ∧ keepsRegs ([accBase m + 4, accBase m + 8, accBase m + 12] ++ logRegs) s t ∧
      keepsHdrs [pSem] s t ∧ keeps [.last, .regs, .links, .masters, .hdrs, .log, .fw] s t) ∧
    (s.isFrozen m = false → writeDenied m (.reg none p off) s = none → h.own m v s = false → touches .rwp fs v = true →
      s.present = false → After w fun t => t.last = ⟨.denied, 0, .presence⟩ ∧ t.isFrozen m = true ∧ (t.frz m).cause = 3 ∧
        t.rp pPrs 0x114 = s.rp pPrs 0x114 + 1 ∧
        keepsRegs ([accBase m + 4, accBase m + 8, accBase m + 12, regAddr pPrs 0x114] ++ logRegs) s t ∧ keepsHdrs [pSem] s t)

/-! ### Pages -/

/-- The states of a page (R88, R99, R157, R556): an accepted ENABLE makes an IDLE page ACTIVE, an accepted drain makes an ACTIVE page
DRAINING with ENABLE and DRAIN both set, an accepted BLOCK_RESET makes it RESETTING, and the end of the reset gives it the state of a
reset with LOCK, INT_ENABLE and LOCAL_HOLD kept. Every other page keeps its STATE. -/
def Obligations.PagesChangeState : Prop :=
  ∀ (m : AB) (p : Nat) (i : PageInfo) (s : State), s.running = true → pageInfo p = some i →
    let others := fun (t : State) => ∀ q, q ≠ p → t.pstate q = s.pstate q
    let hold := b2n (s.hdr p).localHold * 8
    (s.pstate p = .idle → headerAdmits m p 0x08 (word (1 + hold)) s = true → After (exec (.blockEnable m p) s) fun t =>
      alike pageKept s t ∧ t.last = .done ∧ t.pstate p = .active ∧ (t.hdr p).enable = true ∧ (t.hdr p).stopped = false ∧ others t ∧ t.dram = s.dram) ∧
    (∀ e, s.pstate p = .active → headerAdmits m p 0x08 (word ((if e then 0 else 3) + hold)) s = true →
      After (exec (.blockDrain m p e) s) fun t => alike pageKept s t ∧ t.last = .done ∧ t.pstate p = .draining ∧ (t.hdr p).enable = (s.hdr p).enable ∧
        (t.hdr p).drain = true ∧ (t.hdr p).drainUs = 0 ∧ others t ∧ t.dram = s.dram) ∧
    (headerAdmits m p 0x08 (field 2 1 1) s = true → After (exec (.blockReset m p) s) fun t =>
      alike pageKept s t ∧ t.last = .done ∧ t.pstate p = .resetting ∧ (t.hdr p).drain = false ∧ others t ∧ t.dram = s.dram) ∧
    (s.pstate p = .resetting → After (exec (.blockResetDone p) s) fun t =>
      alike ([.last, .masters, .fw, .log] ++ pageKept) s t ∧ t.pstate p = (hdrReset p).state ∧ (t.hdr p).enable = (hdrReset p).enable ∧
        (t.hdr p).faultCode = 0 ∧
      (t.hdr p).intEnable = (s.hdr p).intEnable ∧ (t.hdr p).lockSem = (s.hdr p).lockSem ∧
      (t.hdr p).lockBound = (s.hdr p).lockBound ∧ (t.hdr p).localHold = (s.hdr p).localHold ∧ others t ∧ t.dram = s.dram)

/-- A drain (R158, R159): when nothing is left, or at the limit, a DRAINING page enters FLUSHING; no packet of a slice is then left in its
service queues; FLUSHING ends at IDLE with ENABLE and DRAIN clear, and a slice raises DRAIN_DONE. -/
def Obligations.DrainsEnd : Prop :=
  ∀ (p : Nat) (i : PageInfo) (s : State), s.running = true → pageInfo p = some i →
    (s.pstate p = .draining → drainEmpty p s = true → After (exec (.drainQueuesEmpty p) s) fun t =>
      alike ([.last, .masters, .mbx, .fw, .log, .lfr, .opt, .keys] ++ pageKept) s t ∧ t.pstate p = .flushing ∧ (t.hdr p).limited = false ∧
        ∀ q, q ≠ p → t.pstate q = s.pstate q) ∧
    (s.pstate p = .draining → After (exec (.drainLimitExpiry p) s) fun t =>
      alike ([.last, .masters, .mbx, .fw, .log, .lfr, .opt, .keys] ++ pageKept) s t ∧ t.pstate p = .flushing ∧ (t.hdr p).limited = true ∧
        (∀ q, q ≠ p → t.pstate q = s.pstate q) ∧
      (i.blk = .slcS → ∀ n, (s.nodes i.inst).1 ≤ n → n < (s.nodes i.inst).1 + (s.nodes i.inst).2 → ∀ q, q < 8 →
        (t.queue (8 * n + q)).filter (fun x => x.slice == i.inst) = [])) ∧
    (s.pstate p = .flushing → After (exec (.flushDone p) s) fun t =>
      alike ([.last, .masters, .mbx, .fw, .log, .lfr, .opt, .keys] ++ pageKept) s t ∧ t.pstate p = .idle ∧ (t.hdr p).enable = false ∧
        (t.hdr p).drain = false ∧ (∀ q, q ≠ p → t.pstate q = s.pstate q) ∧
      (i.blk = .slcS → intRawBit t p 0 = true))

/-- The header registers (R90, R97, R102, R197, R507): a read of FAULT_DETAIL returns it and clears the fault; a write of INT_CLEAR clears the
bits that it names where their cause is gone; START starts a self-test, and its end stores the result; LOCAL_HOLD 0 gives the pads of the
PWR page what its registers hold. -/
def Obligations.HeadersOfPages : Prop :=
  ∀ (m : AB) (p : Nat) (i : PageInfo) (s : State), s.running = true → pageInfo p = some i →
    (readable m p 0x24 s = true → After (exec (.faultDetailRead m p) s) fun t => t.last = ⟨.ok, (s.hdr p).faultDetail, .none⟩ ∧
      t.hdr p = { s.hdr p with faultCode := 0, faultMore := 0, faultDetail := 0 } ∧ keepsHdrs [p] s t ∧ keepsRegs [] s t ∧
      keeps [.hdrs, .last] s t) ∧
    (∀ v, assertedInts p s = [] → headerAdmits m p 0x1C v s = true → After (exec (.intClear m p v) s) fun t => t.last = .done ∧
      t.hdr p = { s.hdr p with intRaw := (s.hdr p).intRaw &&& ~~~ v } ∧ keepsHdrs [p] s t ∧ keepsRegs [] s t ∧
      keeps [.hdrs, .last, .links] s t) ∧
    (∀ v, headerAdmits m p 0x1C v s = true → After (exec (.intClear m p v) s) fun t =>
      keepsHdrs [p] s t ∧ keepsRegs [] s t ∧ keeps [.hdrs, .last, .links] s t ∧
        ∀ k ∈ assertedInts p s, (t.hdr p).intRaw.getLsbD k = (s.hdr p).intRaw.getLsbD k) ∧
    (∀ u, u < 256 → i.blk ≠ .cls → (s.hdr p).testing = false → headerAdmits m p 0x28 (word (1 + u * 256)) s = true →
      After (exec (.selftestStart m p u) s) fun t => alike pageKept s t ∧ t.last = .done ∧ t.hdr p =
        { s.hdr p with testUnit := u, testing := true, testStatus := .running, testAuto := false, testResUnit := u, testDetail := 0 } ∧
        keepsHdrs [p, pEcc] s t ∧ (p ≠ pEcc → t.pstate p = s.pstate p)) ∧
    (∀ d, (s.hdr p).testing = true → After (exec (.selftestDone p true d) s) fun t =>
      alike ([.last, .masters, .mbx, .fw, .lfr, .opt, .keys] ++ pageKept) s t ∧ (t.hdr p).testing = false ∧ (t.hdr p).testStatus = .pass ∧
        (t.hdr p).testDetail = d % 65536 ∧ t.dram = s.dram) ∧
    (∀ d, (s.hdr p).testing = true → i.blk = .seq ∨ i.blk = .chk ∨ i.blk = .cls → After (exec (.selftestDone p false d) s) fun t =>
      alike ([.last, .masters, .mbx, .fw, .lfr, .opt, .keys] ++ pageKept) s t ∧ (t.hdr p).testing = false ∧ (t.hdr p).testStatus = .fail ∧
        t.pstate p = .fenced) ∧
    (p = pPwr → headerAdmits m p 0x08 (field 0 1 1) s = true → After (exec (.localHoldRelease m p) s) fun t =>
      alike pageKept s t ∧ t.last = .done ∧ (t.hdr p).localHold = false ∧ t.power.pads = (s.rp pPwr 0x180, s.rp pPwr 0x184))

/-- Reads that take a snapshot (R557): the HI word of a wide counter, the RTC, the super-frame counter and the time unit. Each returns the
high word and leaves the rest of the value, as it was at that instant, for the same master's later reads; nothing else changes. -/
def Obligations.SnapshotsAreTaken : Prop :=
  ∀ (m : AB) (s : State), s.running = true →
    let frame := fun (t : State) => t.snaps.get m.other = s.snaps.get m.other ∧ keepsRegs [] s t ∧ keeps [.last, .snaps] s t
    (∀ p i b n k, pageInfo p = some i → ctrRange i = some (b, n) → k < n → readable m p (b + 8 * k) s = true →
      let a := regAddr p (b + 8 * k)
      After (exec (.counterHiRead m p k) s) fun t => t.last = ⟨.ok, word (s.ctr a / 2 ^ 32), .none⟩ ∧
        t.snap m (a + 4) = some (word (s.ctr a)) ∧ frame t) ∧
    (readable m pBkp 0x104 s = true → After (exec (.rtcHiRead m) s) fun t =>
      t.last = ⟨.ok, word (s.backup.rtcSec / 2 ^ 32), .none⟩ ∧ t.snap m (regAddr pBkp 0x108) = some (word s.backup.rtcSec) ∧
      t.snap m (regAddr pBkp 0x10C) = some (word s.backup.rtcSub) ∧ frame t) ∧
    (∀ f, readable m (pLfr f) 0x11C s = true → After (exec (.sfcHiRead m f) s) fun t => t.last = ⟨.ok, s.rp (pLfr f) 0x11C, .none⟩ ∧
      t.snap m (regAddr (pLfr f) 0x120) = some (s.rp (pLfr f) 0x120) ∧ frame t) ∧
    (readable m pTsu 0x110 s = true → After (exec (.tsuTimeRead m) s) fun t =>
      t.last = ⟨.ok, word (s.nowSec / 2 ^ 32 % 65536), .none⟩ ∧ t.snap m (regAddr pTsu 0x114) = some (word s.nowSec) ∧
      t.snap m (regAddr pTsu 0x118) = some (word s.nowNs) ∧ t.snap m (regAddr pTsu 0x11C) = some (word s.nowFrac) ∧ frame t)

/-! ### Masters -/

/-- Semaphores (R104 to R107): ACQ takes a free semaphore and counts its GEN, restarts the lease of a semaphore that the master holds, and
changes nothing of one that the other master holds, and as a MASKED_WRITE answers with the state before it (R107); of two ACQ in one
handshake the master that SEM_TIE.NEXT names goes first and NEXT is inverted; REL by the holder frees it, and REL on a free semaphore
changes nothing; a lease that runs out frees it with EXPIRED and raises the lease interrupt.

Only the holder frees a semaphore by REL (R105): REL by another master is refused with cause SEMAPHORE, and changes neither the semaphores
nor the freeze of a master.

The end of a malformed window clears both counts and starts a window of the length that stands (R113); a release by a master that is not
frozen, with a presence token, unfreezes the master that it names and raises the interrupt of the release, and the freeze record keeps its
other fields (R117). -/
def Obligations.SemaphoresAndReleases : Prop :=
  (∀ (m : AB) (n : Nat) (s : State), s.running = true → n < 32 →
    let acq := fun (x : AB) => admits x pSem (0x100 + 4 * n) (semStateHandler n) (field 8 1 1) s
    let others := fun (t : State) => (∀ j, j ≠ n → t.sem j = s.sem j) ∧ keepsRegs [] s t
    let taken := fun (x : AB) => (⟨some x, false, ((s.sem n).gen + 1) % 65536, leaseOf n s⟩ : Sem)
    let acquired := fun (t : State) => others t ∧ ((s.sem n).holder = none → t.sem n = taken m) ∧
      ((s.sem n).holder = some m → t.sem n = { s.sem n with leaseUs := leaseOf n s }) ∧
      ((s.sem n).holder = some m.other → t.sem n = s.sem n)
    (acq m = true → After (exec (.semAcquire m n ⟨.write, none⟩) s) fun t => t.last = .done ∧ acquired t ∧ keeps [.masters, .last] s t) ∧
    (acq m = true → (s.link m).state ≠ .resync → ∀ tag, After (exec (.semAcquire m n ⟨.masked tag, none⟩) s) fun t =>
      answers m ⟨0x83, 0, [tagWord tag 0, semStateWord n s], 0⟩ s t ∧ acquired t ∧ keeps [.masters, .last, .links] s t) ∧
    ((s.sem n).holder = none → acq m = true → acq m.other = true → ∀ f g, After (exec (.semAcquire m n ⟨f, some g⟩) s) fun t =>
      t.sem n = taken s.masters.tie ∧ t.masters.tie = s.masters.tie.other ∧ others t ∧ keeps [.masters, .last, .links] s t) ∧
    ((s.sem n).holder = some m → admits m pSem (0x100 + 4 * n) (semStateHandler n) (field 9 1 1) s = true →
      After (exec (.semRelease m n) s) fun t => t.last = .done ∧
        t.sem n = { s.sem n with holder := none, expired := false, leaseUs := none } ∧ others t ∧
        (watches .a n s = true → intRawBit t pSem 4 = true) ∧ (watches .b n s = true → intRawBit t pSem 5 = true) ∧
        keepsHdrs [pSem] s t ∧ keeps [.masters, .last, .hdrs, .links] s t) ∧
    ((s.sem n).holder = none → admits m pSem (0x100 + 4 * n) (semStateHandler n) (field 9 1 1) s = true →
      After (exec (.semRelease m n) s) fun t => t.last = .done ∧ t.sem n = s.sem n ∧ others t ∧ keeps [.last] s t) ∧
    ((s.sem n).holder ≠ none → (s.sem n).leaseUs ≠ none → After (exec (.leaseExpiry n) s) fun t =>
      t.sem n = { s.sem n with holder := none, expired := true, leaseUs := none } ∧ intRawBit t pSem 6 = true ∧ others t ∧
      keepsHdrs [pSem] s t ∧ keeps [.masters, .hdrs, .links] s t)) ∧
  (∀ (m : AB) (n : Nat) (s : State), s.running = true → n < 32 → s.isFrozen m = false → (s.sem n).holder = some m.other →
    After (exec (.semRelease m n) s) fun t => t.last = ⟨.denied, 0, .semaphore⟩ ∧ t.masters = s.masters ∧
      t.rd (accBase m + 4) = s.rd (accBase m + 4) + 1 ∧ keepsRegs [accBase m + 4, accBase m + 8, accBase m + 12] s t ∧
      keeps [.last, .regs] s t) ∧
  (∀ (m : AB) (s : State), s.running = true →
    (After (exec .malfWindowEnd s) fun t => t.masters = { s.masters with
      malf := ⟨0, 0⟩, malfWin := s.fld (regAddr pSem 0x608) 0 16, malfLeft := s.fld (regAddr pSem 0x608) 0 16 } ∧ keeps [.masters] s t) ∧
    (∀ x : AB, admits m pSem 0x600 frzCtrlHandler (field x.num 1 1) s = true → s.isFrozen x = true →
      After (exec (if x = .a then .releaseA m else .releaseB m) s) fun t => t.last = .done ∧ t.frz x = { s.frz x with frozen := false } ∧
        t.frz x.other = s.frz x.other ∧ intRawBit t pSem (2 + x.num) = true ∧ keepsRegs [regAddr pPrs 0x110] s t ∧
        keepsHdrs [pSem] s t ∧ keeps [.last, .masters, .hdrs, .links, .regs] s t))

/-- Mailboxes (R122, R123): a data word is stored while the channel is not FULL; the doorbell with a LEN from 1 to 16 then makes it FULL
with LEN, counts SENT and raises DOORBELL; while it is FULL both writes are answered RANGE and change nothing, and so is a doorbell with
LEN 0; the receiver's read of the last word takes the message and raises PEER_TAKEN at the sender. -/
def Obligations.MailboxesCarryMessages : Prop :=
  ∀ (m : AB) (i : Nat) (s : State), s.running = true → i < 6 → memClean s = true →
    (∀ k v, k < 16 → admits m (pMbx i) (0x140 + 4 * k) (mbxDataHandler i k) v s = true → After (exec (.mbxDataWrite m i k v) s) fun t =>
      t.last = .done ∧ t.rp (pMbx i) (0x140 + 4 * k) = v ∧ keepsRegs [regAddr (pMbx i) (0x140 + 4 * k)] s t ∧ keeps [.regs, .last] s t) ∧
    (∀ n, n < 32 → admits m (pMbx i) 0x104 (mbxDoorbellHandler i) (word n) s = true → After (exec (.mbxDoorbell m i n) s) fun t =>
      t.last = .done ∧ t.box i = ⟨true, n, ((s.box i).sent + 1) % 65536⟩ ∧ (∀ j, j ≠ i → t.box j = s.box j) ∧
      intRawBit t (pMbx i) 0 = true ∧ keepsRegs [] s t ∧ keepsHdrs [pMbx i] s t ∧ keeps [.mbx, .last, .hdrs, .links] s t) ∧
    (∀ k v, k < 16 → (s.box i).full = true → reachesRange m (pMbx i) (0x140 + 4 * k) (mbxDataHandler i k) v s = true →
      After (exec (.mbxDataWrite m i k v) s) (refusedRange m (pMbx i) (0x140 + 4 * k) s)) ∧
    (∀ n, n < 32 → (s.box i).full = true ∨ n = 0 → reachesRange m (pMbx i) 0x104 (mbxDoorbellHandler i) (word n) s = true →
      After (exec (.mbxDoorbell m i n) s) (refusedRange m (pMbx i) 0x104 s)) ∧
    (mbxReceiver i = some m → (s.box i).full = true → 1 ≤ (s.box i).len → (s.box i).len ≤ 16 →
      readable m (pMbx i) (0x140 + 4 * ((s.box i).len - 1)) s = true → After (exec (.mbxTake m i) s) fun t =>
        t.last = ⟨.ok, s.rp (pMbx i) (0x140 + 4 * ((s.box i).len - 1)), .none⟩ ∧ t.box i = ⟨false, 0, (s.box i).sent⟩ ∧
        (∀ j, j ≠ i → t.box j = s.box j) ∧ intRawBit t (pMbx (peerPage i)) 1 = true ∧ keepsRegs [] s t ∧
        keepsHdrs [pMbx (peerPage i)] s t ∧ keeps [.mbx, .last, .hdrs, .links] s t)

/-- The Keeper's services (R126 to R129, Table 4-8): it takes a waiting message, and answers the oldest one taken: INFO with the running
image, its uptime and its starts, ECHO with the words of the request, the capture services from the entries of slices that the master owns;
a held answer leaves when the channel is free; a punted packet goes into the store while it has room. -/
def Obligations.KeeperServices : Prop :=
  ∀ (m : AB) (s : State), s.running = true →
    let done := fun (rest : List (List Word)) (t : State) => t.keeper.taken.get m = rest ∧
      keepsRegs (mbxRegs (2 + m.num)) s t ∧ keepsHdrs [pMbx (2 + m.num)] s t ∧ keeps [.regs, .hdrs, .links, .mbx, .keeper] s t
    (s.keeper.started = true → (s.box m.num).full = true → (s.box m.num).len ≤ 16 → memClean s = true →
      (∀ x ∈ s.keeper.taken.get m, knownOp (msgOp x) = true) → knownOp (msgOp (mbxWords m.num s)) = true →
      After (exec (.keeperTake m) s) fun t => t.box m.num = ⟨false, 0, (s.box m.num).sent⟩ ∧
        t.keeper.taken.get m = s.keeper.taken.get m ++ [mbxWords m.num s] ∧ intRawBit t (pMbx (peerPage m.num)) 1 = true ∧
        keepsRegs [] s t ∧ keepsHdrs [pMbx (peerPage m.num)] s t ∧ keeps [.hdrs, .links, .mbx, .keeper] s t) ∧
    (∀ w rest, served m 0x01 w rest s → w.length = 1 → After (exec (.info m) s) fun t =>
      replied m [replyHead w 0, runningVersion s, word s.fw.running, word s.keeper.upSec, word s.keeper.starts] s t ∧ done rest t) ∧
    (∀ w rest, served m 0x02 w rest s → 1 ≤ w.length → w.length ≤ 16 → After (exec (.echo m) s) fun t =>
      replied m (replyHead w 0 :: w.drop 1) s t ∧ done rest t) ∧
    (∀ w rest, served m 0x20 w rest s → w.length = 1 → After (exec (.captureStatus m) s) fun t =>
      replied m [replyHead w 0, word (ownCaptures m s).length, word (((ownCaptures m s).head?.map Capture.seq).getD 0),
        word (((ownCaptures m s).getLast?.map Capture.seq).getD 0), s.rp (pLane 0) 0x410] s t ∧ done rest t) ∧
    (∀ h q o rest e, served m 0x21 [h, q, o] rest s → o.toNat % 4 = 0 → o.toNat < 256 →
      s.keeper.capture.find? (fun c => word c.seq == q) = some e →
      (s.ownsSlice m e.slice = true → After (exec (.captureRead m) s) fun t =>
        replied m (replyHead [h] 0 :: captureWords e o.toNat) s t ∧ done rest t) ∧
      (s.ownsSlice m e.slice = false → After (exec (.captureRead m) s) fun t => replied m [replyHead [h] 2] s t ∧ done rest t)) ∧
    (∀ h q rest, served m 0x22 [h, q] rest s → After (exec (.captureFree m) s) fun t => replied m [replyHead [h] 0] s t ∧ done rest t ∧
      t.keeper.capture = s.keeper.capture.filter (fun e =>
        !((precedes 32 e.seq q.toNat || e.seq % 2 ^ 32 == q.toNat) && s.ownsSlice m e.slice))) ∧
    (∀ w rest, s.keeper.held.get m = w :: rest → w.length ≤ 16 → replyOpen m s = true → memClean s = true →
      After (exec (.keeperReply m) s) fun t => keepsRegs (mbxRegs (2 + m.num)) s t ∧ keepsHdrs [pMbx (2 + m.num)] s t ∧
        keeps [.regs, .hdrs, .links, .mbx, .keeper] s t ∧ replied m w s t ∧ t.keeper = { s.keeper with held := s.keeper.held.set m rest }) ∧
    (∀ c rest, s.keeper.puntQ = c :: rest → After (exec .puntCapture s) fun t => t.keeper.puntQ = rest ∧
      (s.keeper.capture.length < 64 → t.keeper.capture = s.keeper.capture ++ [{ c with seq := s.keeper.capSeq }] ∧
        t.keeper.capSeq = (s.keeper.capSeq + 1) % 2 ^ 32 ∧ keeps [.keeper] s t) ∧
      (64 ≤ s.keeper.capture.length → t.keeper.capture = s.keeper.capture ∧
        t.rp (pLane 0) 0x410 = s.rp (pLane 0) 0x410 + 1 ∧ keepsRegs [regAddr (pLane 0) 0x410] s t ∧ keeps [.keeper, .regs] s t))

/-- Govar images (R132 to R138): OPEN gives the staging window to its master and CLOSE takes it back; LOAD starts a check, whose end gives BAD
with its cause or starts the write of the free slot; a slot that reads back right is LOADED; COMMIT makes it the committed image on trial,
ROM returns to the ROM image, CONFIRM ends the trial, and RESTART and a watchdog expiry start the Keeper with nothing taken, held or
captured. -/
def Obligations.FirmwareUpdates : Prop :=
  ∀ (m : AB) (s : State), s.running = true →
    let ctrl := fun (b : Nat) => admits m pNvs 0x104 fwCtrlHandler (field b 1 1) s
    let commit := fun (n : Nat) => admits m pNvs 0x10C fwCommitHandler (word n) s
    let frame := fun (t : State) => keepsRegs [regAddr pPrs 0x110] s t ∧ keepsHdrs [pNvs] s t ∧
      keeps [.fw, .last, .regs, .nvs, .hdrs, .links] s t
    let begun := fun (u t : State) => keeps [.fw, .keeper, .last, .regs, .nvs, .hdrs, .links] s t ∧ t.last = .done ∧
      t.keeper = { s.keeper with
        started := true, upSec := 0, upUs := 0, starts := s.keeper.starts + 1, taken := ⟨[], []⟩, held := ⟨[], []⟩, capture := [],
        capSeq := 0 } ∧
      t.fw = { u.fw with running := (chooseImage u).1, nv := (chooseImage u).2.1, trialDied := false } ∧
      (t.fw.nv ≠ s.fw.nv → NvItem.firmware ∈ t.nvs.pend)
    (ctrl 0 = true → After (exec (.fwOpen m) s) fun t => t.last = .done ∧ t.fw = { s.fw with stager := some m } ∧ frame t) ∧
    (ctrl 1 = true → s.fw.stager = some m → After (exec (.fwClose m) s) fun t =>
      t.last = .done ∧ t.fw = { s.fw with stager := none } ∧ frame t) ∧
    (ctrl 2 = true → After (exec (.fwLoad m) s) fun t => t.last = .done ∧ 
      t.fw = { s.fw with load := .checking, len := s.fld (regAddr pNvs 0x108) 0 19 } ∧ frame t) ∧
    (ctrl 3 = true → After (exec (.fwConfirm m) s) fun t => t.last = .done ∧
      t.fw = { s.fw with nv := { s.fw.nv with confirmed := s.fw.nv.committed, trial := false } } ∧ NvItem.firmware ∈ t.nvs.pend ∧
      intRawBit t pNvs 3 = true ∧ frame t) ∧
    (s.fw.load = .checking → After (exec .fwCheckDone s) fun t =>
      keeps [.fw, .hdrs, .links, .regs] s t ∧ (imageCheck (stagedImage s) (stagedImage s).length ≠ 0 → t.fw =
        { s.fw with load := .bad, badCause := imageCheck (stagedImage s) (stagedImage s).length } ∧ intRawBit t pNvs 1 = true) ∧
      (∀ k, imageCheck (stagedImage s) (stagedImage s).length = 0 → freeSlot s = some k →
        t.fw.load = .writing ∧ t.fw.target = k ∧ slotImage k t = [] ∧ t.rp pNvs 0x11C = 0 ∧ keepsRegs [regAddr pNvs 0x11C] s t) ∧
      (imageCheck (stagedImage s) (stagedImage s).length = 0 → freeSlot s = none → t.fw = { s.fw with load := .bad, badCause := 6 })) ∧
    (s.fw.load = .writing → imageWaits s = false →
      let l := slotImage s.fw.target s
      let held := fun (t : State) => keeps [.fw, .hdrs, .links] s t ∧ keepsHdrs [pNvs] s t
      (imageCheck l l.length = 0 → After (exec (.fwWriteDone true) s) fun t => held t ∧ t.fw.load = .loaded ∧
        slotImage s.fw.target t = l ∧ t.fw.nv = s.fw.nv ∧ t.fw.running = s.fw.running ∧ intRawBit t pNvs 0 = true ∧
        (if s.fw.target = 1 then t.fw.ver1 else t.fw.ver2) = word (beAt l 4 4)) ∧
      (After (exec (.fwWriteDone false) s) fun t => held t ∧ t.fw = { s.fw with load := .bad, badCause := 7 } ∧
        intRawBit t pNvs 1 = true)) ∧
    (commit 1 = true → After (exec (.fwCommit m false) s) fun t => t.last = .done ∧ t.fw = { s.fw with load := .idle, nv :=
      { s.fw.nv with committed := s.fw.target, trial := true, tries := 0 } } ∧ NvItem.firmware ∈ t.nvs.pend ∧ frame t) ∧
    (commit 4 = true → After (exec (.fwRom m false) s) fun t => t.last = .done ∧ t.fw = { s.fw with nv :=
      { s.fw.nv with committed := 0, confirmed := 0, trial := false } } ∧ NvItem.firmware ∈ t.nvs.pend ∧ frame t) ∧
    (commit 3 = true → After (exec (.fwCommit m true) s) fun t =>
      begun { s with fw := { s.fw with load := .idle, nv := { s.fw.nv with committed := s.fw.target, trial := true, tries := 0 } } } t) ∧
    (commit 6 = true → After (exec (.fwRom m true) s) fun t =>
      begun { s with fw := { s.fw with nv := { s.fw.nv with committed := 0, confirmed := 0, trial := false } } } t) ∧
    (commit 2 = true → After (exec (.fwRestart m) s) (begun s)) ∧
    ((s.keeper.restarts.filter (fun x => decide (s.clock < x + 600000000))).length < 2 → After (exec .keeperWatchdog s) fun t =>
      keeps [.fw, .keeper, .regs, .nvs, .hdrs, .links, .log] s t ∧ t.keeper.taken = ⟨[], []⟩ ∧ t.keeper.held = ⟨[], []⟩ ∧ t.keeper.capture = [] ∧
        t.keeper.starts = s.keeper.starts + 1 ∧
      t.rp pFlt 0x124 = s.rp pFlt 0x124 + 1 ∧ t.power = s.power)

/-! ### Slices, the backup domain and the non-volatile store -/

/-- Owner masks, permits and allocation (R146, R147, Table 5-5): an accepted write stores what it carries, an owner mask of 0 is refused for
slice 0 and for a slice that is not IDLE, a permit of a slice to itself is refused, an allocation register of a slice that is not IDLE is
refused, and no allocation register of another slice changes. -/
def Obligations.SlicesAreAllocated : Prop :=
  ∀ (m : AB) (k : Nat) (s : State), s.running = true → k < 16 →
    (∀ n, n < 4 → admits m pSlc (0x100 + 4 * k) (ownerHandler k) (word n) s = true → After (exec (.ownerMaskWrite m k n) s) fun t =>
      t.last = .done ∧ t.ownerMask k = n ∧ (∀ j, j < 16 → j ≠ k → t.ownerMask j = s.ownerMask j) ∧
      keepsRegs (writeRegs pSlc (0x100 + 4 * k)) s t ∧ keeps [.regs, .last, .nvs] s t) ∧
    ((k = 0 ∨ s.sliceState k ≠ .idle) → reachesRange m pSlc (0x100 + 4 * k) (ownerHandler k) 0 s = true →
      After (exec (.ownerMaskWrite m k 0) s) (refusedRange m pSlc (0x100 + 4 * k) s)) ∧
    (∀ i v, i < 32 → admits m pSlc (0x200 + 4 * i) (permitHandler i) v s = true → After (exec (.xpermitWrite m i v) s) fun t =>
      t.last = .done ∧ t.rp pSlc (0x200 + 4 * i) = mergeFields (fieldsAt pSlc (0x200 + 4 * i)) (s.rp pSlc (0x200 + 4 * i)) v ∧
      keepsRegs (writeRegs pSlc (0x200 + 4 * i)) s t ∧ keeps [.regs, .last, .nvs] s t) ∧
    (∀ i v, bit v 0 = true → bits v 4 4 = bits v 8 4 → (permitHandler i).range m v s = true) ∧
    (∀ off ∈ allocOffs, ∀ v, (admits m (pSlice k 0) off (allocHandler k off) v s = true →
      After (exec (.sliceAllocWrite m k off v) s) fun t => keeps [.regs, .last, .nvs, .buf, .seqs, .chk, .mac, .hdrs, .links, .ctrs, .out] s t ∧
        t.last = .done ∧ s.sliceState k = .idle ∧
        t.slc k off = mergeFields (fieldsAt (pSlice k 0) off) (s.slc k off) v ∧
        (∀ o ∈ allocOffs, o ≠ off → t.slc k o = s.slc k o) ∧ (∀ j, j < 16 → j ≠ k → ∀ o ∈ allocOffs, t.slc j o = s.slc j o)) ∧
      (s.sliceState k ≠ .idle → (allocHandler k off).range m v s = true))

/-- The backup domain (R208 to R213, R217): power that returns after a loss of the backup domain leaves an RTC of 0 that is marked invalid,
an unknown seal and the tamper entry BATT_LOST; VBAT is measured with BATT_LOW below 1.9 V; the RTC is set by a write or from line time, and
a write is answered RANGE while line time is held.

The seal (R214 to R217, R234): the second pair in a row that is open or short declares the seal BROKEN with a tamper entry; a loop that
reads good again while the seal is BROKEN or UNKNOWN leaves a restore entry and does not mend the seal; a change of the strap is an entry;
an accepted acknowledgement makes the seal INTACT with an entry; the pulse period is stored by its fields. -/
def Obligations.BackupDomainAndSeal : Prop :=
  (∀ s : State,
    (s.power.phase = .unpowered → After (exec .backupPowerUp s) fun t => t.backup.rtcSec = 0 ∧ rtcValid t = false ∧ sealState t = 2 ∧
      t.flag (regAddr pBkp 0x100) 5 = true ∧ bits (t.rp pBkp 0x200) 0 8 = 0x10 ∧ t.rp pBkp 0x12C = 1 ∧ t.backup.sealOff = true ∧
      t.backup.tamperOff = true ∧
      t.power = { s.power with failRec := (0, 0) } ∧ (∀ a, a / 0x1000 ≠ pBkp → t.rd a = s.rd a) ∧
      keeps [.regs, .backup, .power, .free] s t) ∧
    (s.running = true → ∀ mv, mv < 4096 → After (exec (.vbatMeasure mv) s) fun t => t.rp pBkp 0x120 = word mv ∧
      t.flag (regAddr pBkp 0x100) 6 = decide (mv < 1900) ∧ (mv < 1900 → s.flag (regAddr pBkp 0x100) 6 = false → intRawBit t pBkp 2 = true) ∧
      keepsRegs [regAddr pBkp 0x120, regAddr pBkp 0x100] s t ∧ keepsHdrs [pBkp] s t ∧ keeps [.regs, .hdrs, .links] s t) ∧
    (s.running = true → s.tsu.state = .line → After (exec .rtcLineLoad s) fun t => t.backup.rtcSec = s.nowSec % 2 ^ 64 ∧
      t.backup.rtcSub = s.nowNs * 32768 / 1000000000 ∧ rtcValid t = true ∧ keepsRegs [regAddr pBkp 0x100] s t ∧
      keeps [.regs, .backup] s t) ∧
    (s.running = true → ∀ m v, admits m pBkp 0x114 rtcSetHandler v s = true → After (exec (.rtcSet m v) s) fun t => t.last = .done ∧
      t.backup.rtcSec = (s.rp pBkp 0x110).toNat * 2 ^ 32 + v.toNat ∧ t.backup.rtcSub = 0 ∧ rtcValid t = true ∧
      keepsRegs [regAddr pBkp 0x100, regAddr pBkp 0x114, regAddr pPrs 0x110] s t ∧ keeps [.regs, .last, .backup] s t) ∧
    (s.running = true → s.tsu.state = .line → ∀ m v, reachesRange m pBkp 0x114 rtcSetHandler v s = true →
      After (exec (.rtcSet m v) s) (refusedRange m pBkp 0x114 s))) ∧
  (∀ s : State,
    (∀ v st, s.backup.badRun = 1 → s.backup.strapSeen = true → s.flag (regAddr pBkp 0x100) 4 = st →
      After (exec (.sealPulse v v st) s) fun t => keeps [.regs, .backup, .hdrs, .links, .free] s t ∧ sealState t = 1 ∧ t.backup.badRun = 2 ∧
        t.flag (regAddr pBkp 0x100) 3 = false ∧
        tampered 0x01 s t) ∧
    (∀ v st, s.backup.badRun = 0 → s.backup.strapSeen = true → s.flag (regAddr pBkp 0x100) 4 = st →
      After (exec (.sealPulse v v st) s) fun t => keeps [.regs, .backup, .hdrs, .links, .free] s t ∧ sealState t = sealState s ∧ t.backup.badRun = 1 ∧
        keepsRegs [regAddr pBkp 0x100] s t) ∧
    (∀ st, s.backup.strapSeen = true → s.flag (regAddr pBkp 0x100) 4 = st →
      After (exec (.sealPulse false true st) s) fun t => keeps [.regs, .backup, .hdrs, .links] s t ∧ sealState t = sealState s ∧
        t.backup.badRun = 0 ∧ t.flag (regAddr pBkp 0x100) 3 = true ∧
        (s.flag (regAddr pBkp 0x100) 3 = false → sealState s ≠ 0 → tampered 0x02 s t) ∧
        ((s.flag (regAddr pBkp 0x100) 3 = true ∨ sealState s = 0) → keepsRegs [regAddr pBkp 0x100] s t)) ∧
    (∀ st, s.flag (regAddr pBkp 0x100) 3 = true → s.backup.strapSeen = true → s.flag (regAddr pBkp 0x100) 4 = !st →
      After (exec (.sealPulse false true st) s) fun t => keeps [.regs, .backup, .hdrs, .links, .free] s t ∧ t.flag (regAddr pBkp 0x100) 4 = st ∧
        tampered (if st then 0x04 else 0x05) s t) ∧
    (s.running = true → ∀ m v, admits m pBkp 0x118 (plain pBkp 0x118) v s = true → After (exec (.sealPeriodWrite m v) s) fun t =>
      t.last = .done ∧ t.rp pBkp 0x118 = mergeFields (fieldsAt pBkp 0x118) (s.rp pBkp 0x118) v ∧
      keepsRegs (writeRegs pBkp 0x118) s t ∧ keeps [.regs, .last] s t) ∧
    (s.running = true → ∀ m, admits m pBkp 0x11C sealAckHandler (field 0 1 1) s = true → After (exec (.sealAck m) s) fun t =>
      keeps [.regs, .backup, .last, .hdrs, .links] s t ∧ t.last = .done ∧ sealState t = 0 ∧ tampered 0x03 s t))

/-- Presence (R218 to R220, R223, R224): a press counts and, while the logic runs, opens a window of the length that PRS_WINDOW gives; the
window ends when it has run out or is closed; a clear of the tamper log leaves the entry of the clear as the only valid one. -/
def Obligations.PresenceIsProven : Prop :=
  ∀ (m : AB) (s : State),
    (After (exec .presencePress s) fun t => t.rp pBkp 0x130 = s.rp pBkp 0x130 + 1 ∧ keepsRegs [regAddr pBkp 0x130] s t ∧
      (s.running = true → t.backup.pressUs = s.fld (regAddr pPrs 0x104) 0 7 * 1000000 ∧
        (0 < s.fld (regAddr pPrs 0x104) 0 7 → t.present = true ∧ (s.present = false → intRawBit t pPrs 0 = true)) ∧
        keepsHdrs [pPrs] s t ∧ keeps [.regs, .backup, .hdrs, .links] s t) ∧
      (s.running = false → keeps [.regs, .backup] s t)) ∧
    (s.running = true → After (exec .pressWindowExpiry s) fun t => t.backup = { s.backup with pressUs := 0 } ∧ t.pressOpen = false ∧
      (s.present = true → s.strapToken = false → intRawBit t pPrs 1 = true) ∧ keepsRegs [] s t ∧ keepsHdrs [pPrs] s t ∧
      keeps [.backup, .hdrs, .links] s t) ∧
    (s.running = true → admits m pPrs 0x108 prsCloseHandler (field 0 1 1) s = true → After (exec (.prsClose m) s) fun t =>
      t.last = .done ∧ t.backup = { s.backup with pressUs := 0 } ∧ keepsRegs [] s t ∧ keepsHdrs [pPrs] s t ∧
      keeps [.backup, .hdrs, .links, .last] s t) ∧
    (s.running = true → admits m pBkp 0x13C tamperClrHandler (field 0 1 1) s = true → After (exec (.tamperClear m) s) fun t =>
      keeps [.regs, .backup, .last, .hdrs, .links] s t ∧ t.last = .done ∧ tampered 0x20 s t ∧
      ∀ n, n < 16 → n ≠ s.fld (regAddr pBkp 0x138) 0 4 → bit (t.rp pBkp (0x200 + 8 * n)) 31 = false)

/-- The dual-copy record and the store (R225, R229, R522, R523): a record write fills the older copy so that it passes its CRC, with the next
GEN; the checkpoint stores the backup counters; a commit writes the oldest waiting block while the write cap leaves room, a history entry
where no block waits, and a block of the image under way where nothing waits (R134), and is deferred otherwise with DEFERRING raised. -/
def Obligations.RecordsAreStored : Prop :=
  ∀ s : State, s.running = true →
    (After (exec .backupRecordWrite s) fun t =>
      let c := if precedes 32 (copyWord 1 0 s).toNat (copyWord 0 0 s).toNat then 1 else 0
      copyOk c t = true ∧ copyWord c 0 t = copyWord (1 - c) 0 s + 1 ∧ t.rp pBkp 0x134 = copyWord (1 - c) 0 s + 1 ∧
      (∀ i, i < 4 → copyWord c (2 + i) t = s.rp pBkp (0x124 + 4 * i)) ∧ (∀ i, i < 8 → copyWord (1 - c) i t = copyWord (1 - c) i s) ∧
      t.backup = { s.backup with dirty := false } ∧ keeps [.regs, .backup] s t) ∧
    (s.opt = ⟨{ s.opt.a with live := none, leaving := [] }, { s.opt.b with live := none, leaving := [] }⟩ → capOpen s = true →
      After (exec .nvsCheckpoint s) fun t =>
      t.nvs.checkpoint = backupCounts s ∧ t.rp pNvs 0x140 = s.rp pNvs 0x140 + 1 ∧ keepsRegs [regAddr pNvs 0x140] s t ∧
      keeps [.nvs, .regs, .free, .hdrs, .links] s t) ∧
    (capOpen s = true → ∀ rest,
      (∀ a, s.nvs.pend = .reg a :: rest → After (exec .nvsCommit s) fun t =>
        keeps [.nvs, .regs, .free, .hdrs, .links] s t ∧ t.nvs.committed = tblSet (resetWord a) a (t.rd a) s.nvs.committed ∧ t.nvs.pend = rest ∧
          t.nvs.fw = s.nvs.fw ∧
        keepsRegs [regAddr pNvs 0x140] s t) ∧
      (s.nvs.pend = .firmware :: rest → After (exec .nvsCommit s) fun t => keeps [.nvs, .regs, .free, .hdrs, .links] s t ∧ t.nvs.fw = s.fw.nv ∧
        t.nvs.pend = rest ∧
        t.nvs.committed = s.nvs.committed ∧ keepsRegs [regAddr pNvs 0x140] s t) ∧
      (∀ e r, s.nvs.pend = [] → s.nvs.histQ = e :: r → s.nvs.hist.length < 16 → After (exec .nvsCommit s) fun t =>
        keeps [.nvs, .regs, .free, .hdrs, .links] s t ∧ t.nvs.hist = s.nvs.hist ++ [e] ∧ t.nvs.histQ = r) ∧
      (s.nvs.pend = [] → s.nvs.histQ = [] → imageWaits s = true → After (exec .nvsCommit s) fun t =>
        let l := slotImage s.fw.target s
        keeps [.nvs, .regs, .free, .hdrs, .links, .fw] s t ∧ slotImage s.fw.target t = l ++ s.dramBytes ((s.reserved).1 + l.length) 64 ∧
          t.rp pNvs 0x11C = word (l.length / 64 + 1) ∧ keepsRegs [regAddr pNvs 0x140, regAddr pNvs 0x11C] s t)) ∧
    (capOpen s = false → s.nvs.pend ≠ [] → After (exec .nvsCommit s) fun t => keeps [.nvs, .regs, .free, .hdrs, .links] s t ∧
      t.nvs.pend = s.nvs.pend ∧
      t.nvs.committed = s.nvs.committed ∧ t.nvs.deferring = true ∧ keepsRegs [] s t)

/-! ### The line -/

/-- The frame synchroniser (R238, R266): a PSBd while the receiver is off, LOS stands or no rate is hunted changes nothing; a match in FHUNT
leads to FPRESYNC, enough matches to FSYNC, where a feeder in O1.1 moves to O1.2; a miss in FPRESYNC leads back; misses in FSYNC are counted
up to the limit.

Loss conditions (R265 to R268): LOS sets its bit, raises its interrupt, sends the synchroniser to FHUNT with LOF, and
takes a feeder from O5 to O6; its clearing clears the bit; a second with SD_UNCORR uncorrectable codewords or more declares SD. -/
def Obligations.FramesAreSynchronised : Prop :=
  (∀ (f : AB) (p : Psbd) (s : State), s.running = true →
    let cfg := s.rp (pLfr f) 0x108
    let x := s.lfr.get f
    let hit := p.errors ≤ bits cfg 8 3
    ((rxOff f s = true ∨ losNow f s = true ∨ lfrRate f s = 0) → exec (.psbdArrival f p) s = .next s) ∧
    (rxOff f s = false → losNow f s = false → lfrRate f s ≠ 0 →
      (lfrField f 0 2 s = 0 → hit → 2 ≤ bits cfg 0 4 → After (exec (.psbdArrival f p) s) fun t =>
        alike [.pending, .snaps, .last, .clock, .era, .dram, .masters, .mbx, .keeper, .fw, .chk] s t ∧ lfrField f 0 2 t = 1 ∧
          (t.lfr.get f).matches_ = 1 ∧ actState f t = actState f s) ∧
      (lfrField f 0 2 s = 1 → hit → bits cfg 0 4 ≤ x.matches_ + 1 → s.power.mode.code = 1 → After (exec (.psbdArrival f p) s) fun t =>
        alike [.pending, .snaps, .last, .clock, .era, .dram, .masters, .mbx, .keeper, .fw, .chk] s t ∧ inSync f t = true ∧
          intRawBit t (pLfr f) 5 = true ∧ lofNow f t = false ∧ (keeperUp s = true → actState f s = aO11 → actState f t = aO12)) ∧
      (lfrField f 0 2 s = 1 → ¬hit → After (exec (.psbdArrival f p) s) fun t =>
        alike [.pending, .snaps, .last, .clock, .era, .dram, .masters, .mbx, .keeper, .fw, .chk] s t ∧ lfrField f 0 2 t = 0 ∧
          (t.lfr.get f).matches_ = 0 ∧ actState f t = actState f s) ∧
      (inSync f s = true → ¬hit → x.misses + 1 < bits cfg 4 4 → After (exec (.psbdArrival f p) s) fun t =>
        alike [.pending, .snaps, .last, .clock, .era, .dram, .masters, .mbx, .keeper, .fw, .chk] s t ∧ inSync f t = true ∧
          (t.lfr.get f).misses = x.misses + 1))) ∧
  (∀ (f : AB) (s : State), s.running = true →
    (∀ b, losNow f s = false → rxOff f s = false → (b = .pin → s.flag (regAddr (pLfr f) 0x110) 8 = true) →
      After (exec (.losDeclare f b) s) fun t => alike eventKept s t ∧ losNow f t = true ∧ lfrField f 0 2 t = 0 ∧ lfrField f 4 2 t = 0 ∧
        intRawBit t (pLfr f) 0 = true ∧ lofNow f t = true ∧ (actState f s = aO5 → actState f t = aO6)) ∧
    (After (exec (.losClear f) s) fun t => alike eventKept s t ∧ losNow f t = false ∧ actState f t = actState f s) ∧
    (After (exec (.sdSecond f) s) fun t => (t.lfr.get f).secUncorr = 0 ∧
      (s.fld (regAddr (pLfr f) 0x114) 0 16 ≤ (s.lfr.get f).secUncorr → t.flag (regAddr (pLfr f) 0x104) 11 = true ∧
        (s.flag (regAddr (pLfr f) 0x104) 11 = false → intRawBit t (pLfr f) 3 = true)) ∧
      ((s.lfr.get f).secUncorr < s.fld (regAddr (pLfr f) 0x114) 0 16 → 9 ≤ (s.lfr.get f).goodSecs →
        t.flag (regAddr (pLfr f) 0x104) 11 = false) ∧
      keepsRegs [regAddr (pLfr f) 0x104, regAddr (pLfr f) 0x124] s t ∧ keepsHdrs [pLfr f] s t ∧ keeps [.lfr, .regs, .hdrs, .links] s t))

/-- Rates, Port-IDs and keys (R237, R254, R256, R274): a dwell that ends hunts the other rate of a set of two; a write of MODE and of a
Port-ID entry stores its fields, the latter only for a slice that the master owns; a key that the Keeper loads is held. -/
def Obligations.LineTablesAreWritten : Prop :=
  ∀ (m f : AB) (s : State), s.running = true →
    (inSync f s = false → rateSet f (s.fld (regAddr (pLfr f) 0x100) 0 2) s = [1, 2] → lfrRate f s = 1 ∨ lfrRate f s = 2 →
      After (exec (.rateDwellExpiry f) s) fun t => lfrRate f t = 3 - lfrRate f s ∧ intRawBit t (pLfr f) 4 = true ∧
        keepsRegs [regAddr (pLfr f) 0x100, regAddr (pLfr f) 0x104] s t ∧ keepsHdrs [pLfr f] s t ∧ keeps [.lfr, .regs, .hdrs, .links] s t) ∧
    (∀ v, admits m (pLfr f) 0x100 (rateHandler f) v s = true → After (exec (.rateModeWrite m f v) s) fun t => t.last = .done ∧
      t.rp (pLfr f) 0x100 = mergeFields (fieldsAt (pLfr f) 0x100) (s.rp (pLfr f) 0x100) v ∧
      keepsRegs (writeRegs (pLfr f) 0x100) s t ∧ keeps [.regs, .last, .nvs] s t) ∧
    (∀ e v, e < 512 → memClean s = true → bit (s.rp (pLfr f) (0x800 + 4 * e)) 20 = false →
      admits m (pLfr f) (0x800 + 4 * e) (portIdHandler f e) v s = true → After (exec (.portIdWrite m f e v) s) fun t =>
        t.last = .done ∧ s.ownsSlice m (bits v 16 4) = true ∧
        t.rp (pLfr f) (0x800 + 4 * e) = mergeFields (fieldsAt (pLfr f) (0x800 + 4 * e)) (s.rp (pLfr f) (0x800 + 4 * e)) v ∧
        keepsRegs (writeRegs (pLfr f) (0x800 + 4 * e)) s t ∧ keeps [.regs, .last] s t) ∧
    (∀ k key, k < 5 → keeperUp s = true → memClean s = true → quiet s = true → After (exec (.keyLoad f k key) s) fun t =>
      alike eventKept s t ∧ keyIn f k t = some key ∧ intRawBit t pCry 0 = true ∧ (∀ g j, j < 5 → (g, j) ≠ (f, k) → keyIn g j t = keyIn g j s))

/-- Frames from the line (R250, R251, R255, R257, R275, R413): a first fragment opens a reassembly in the slice of its entry, the last one
ends it; a good SDU of the feeder that carries data is dispatched to classification in its slice, with its arrival; an SDU with a bad FCS
counts with reason LINE_FCS, one of a feeder that carries no data with LINE_STANDBY, a clear frame of an entry that requires encryption
with LINE_CLEAR, and one that an edge FIFO dropped with EDGE_OVF, unowned. -/
def Obligations.LineFramesAreReassembled : Prop :=
  ∀ (f : AB) (x : XFrame) (e : Nat) (w : Word) (rest : List XFrame) (s : State), s.running = true → noFlip s = true →
    (s.lfr.get f).xq = x :: rest → x.dest = .entry e w → sduOf f e s = none → x.damaged = false → x.keyIdx = 0 → x.key = none →
    x.payload.length ≤ 9600 →
    let k := bits w 16 4
    let dropped := fun (r : Reason) (t : State) => counted r k 8 s t ∧ (t.lfr.get f).xq = rest ∧
      keepsRegs (dropRegs r k 8) s t ∧ keepsHdrs [pSlice k 1] s t
    (bit w 21 = false → x.lf = false → After (exec (.xgemFrameReceive f false) s) fun t =>
      sduOf f e t = some ⟨k, x.payload, x.at_, false, false, false⟩ ∧ (t.lfr.get f).xq = rest ∧ (∀ j, j ≠ e → sduOf f j t = sduOf f j s) ∧
      keepsRegs [] s t ∧ keeps [.lfr] s t) ∧
    (bit w 21 = false → x.lf = true → x.payload.length < 4 → After (exec (.xgemFrameReceive f false) s) fun t =>
      keeps [.lfr, .ctrs, .regs, .hdrs, .links, .buf] s t ∧ dropped .lineFcs t ∧ sduOf f e t = none) ∧
    (bit w 21 = false → x.lf = true → ∀ l, x.payload = l ++ fcsBytes l → dataFeeder s ≠ some f →
      After (exec (.xgemFrameReceive f false) s) fun t => keeps [.lfr, .ctrs, .regs, .hdrs, .links, .buf] s t ∧ dropped .lineStandby t ∧
        sduOf f e t = none) ∧
    (bit w 21 = false → x.lf = true → ∀ l, x.payload = l ++ fcsBytes l → dataFeeder s = some f → s.sliceState k = .active →
      s.cls.waiting = [] → lanesIn s ≠ [] → After (exec (.xgemFrameReceive f false) s) fun t => ∃ p, p.bytes = l ∧ p.slice = k ∧ p.src = 8 ∧
        p.cell = .clean ∧ p.sec = word (x.at_ / secUnit) ∧ t.cls = dispatched p s ∧ (t.lfr.get f).xq = rest ∧ sduOf f e t = none ∧
        keepsRegs [] s t ∧ keeps [.lfr, .cls] s t) ∧
    (bit w 21 = true → x.lf = true → After (exec (.xgemFrameReceive f false) s) fun t =>
      keeps [.lfr, .ctrs, .regs, .hdrs, .links, .buf] s t ∧ counted .lineClear k 8 s t ∧ (t.lfr.get f).xq = rest ∧ sduOf f e t = none) ∧
    (x.lf = true → After (exec (.xgemFrameReceive f true) s) fun t =>
      keeps [.lfr, .ctrs, .regs, .hdrs, .links] s t ∧ t.rp pPwr (0x400 + 4 * f.num) = s.rp pPwr (0x400 + 4 * f.num) + 1 ∧
        t.ctr (unownedAddr Reason.edgeOvf.code) = (s.ctr (unownedAddr Reason.edgeOvf.code) + 1) % 2 ^ 40 ∧
        (∀ (q : Nat) (r : Reason), t.ctr (censusAddr q r.code 8) = s.ctr (censusAddr q r.code 8)) ∧ (t.lfr.get f).xq = rest ∧ sduOf f e t = none)

/-- PLOAM messages that move a feeder (R277 to R280, R288, R297, Table 9-1): a burst profile is stored, shown and takes O1.2 to O2-3; the
assignment of its ONU-ID takes O2-3 to O4; a Ranging_Time takes O4 to O5; Deactivate_ONU-ID, TO1 and TO2 lead back to O1.1;
Disable_Serial_Number stops in O7 and its enable leaves it. -/
def Obligations.PloamMovesAFeeder : Prop :=
  ∀ (f : AB) (p : Ploam) (idx : Nat) (rest : List (Ploam × Nat)) (s : State),
    (heard f p idx rest s →
      (∀ i q, p.body = .burstProfile i q → After (exec (.burstProfile f) s) fun t => alike (.opt :: eventKept) s t ∧
        (t.act.get f).queue = rest ∧ tblGet none (i % 16) (t.btx.get f).profiles = some q ∧
        t.rp (pBtx f) 0x100 = word (i % 16 + q.rate % 4 * 16 + q.guardBits % 4096 * 65536) ∧
        t.rp (pBtx f) 0x104 = word (q.psbuBits % 65536) ∧
        actState f t = if actState f s = aO12 then aO23 else actState f s) ∧
      (∀ v n o, p.body = .assignOnuId v n o → actState f s = aO23 → ownSn f v n s = true → After (exec (.assignOnuId f) s) fun t =>
        alike (.opt :: eventKept) s t ∧ (t.act.get f).queue = rest ∧ actState f t = aO4 ∧ onuId f t = some (o % 1024) ∧
          intRawBit t (pBtx f) 0 = true) ∧
      (∀ e, p.body = .rangingTime e → actState f s = aO4 → After (exec (.rangingTime f) s) fun t => alike (.opt :: eventKept) s t ∧
        (t.act.get f).queue = rest ∧
        actState f t = aO5 ∧ t.rp (pAct f) 0x10C = word e ∧ eqdValid f t = true ∧ (t.act.get f).eqdNew = some (e % 2 ^ 32) ∧
        (s.power.mode.code = 1 → lockedOut f s = false → t.power.mode.code = 2 ∧ t.power.lastCause = 0x10 ∨ t.power.mode = .service .pswitch)) ∧
      (p.body = .deactivate → actState f s = aO5 → After (exec (.deactivateOnuId f) s) fun t => alike (.opt :: eventKept) s t ∧
        (t.act.get f).queue = rest ∧
        restarted f s t ∧ onuId f t = none ∧ eqdValid f t = false ∧
        (pswActive s = f → s.power.mode.code = 2 → t.power.mode.code = 1)) ∧
      (∀ n, p.body = .disableSn false n → (n = none ∨ ∃ v k, n = some (v, k) ∧ ownSn f v k s = true) → actState f s = aO5 →
        After (exec (.disableSerialNumber f) s) fun t => alike (.opt :: eventKept) s t ∧ (t.act.get f).queue = rest ∧ actState f t = aO7 ∧
          onuId f t = none) ∧
      (p.body = .disableSn true none → actState f s = aO7 → After (exec (.disableSerialNumber f) s) fun t =>
        alike (.opt :: eventKept) s t ∧ (t.act.get f).queue = rest ∧ restarted f s t)) ∧
    (s.running = true → actState f s = aO4 → After (exec (.to1Expiry f) s) fun t => alike (.opt :: eventKept) s t ∧ restarted f s t ∧
      intRawBit t (pAct f) 8 = true) ∧
    (s.running = true → actState f s = aO6 → After (exec (.to2Expiry f) s) fun t => alike (.opt :: eventKept) s t ∧ restarted f s t ∧
      intRawBit t (pAct f) 9 = true)

/-- The other PLOAM messages (R282, R283, R286, R288, R310): a registration, a key report and an acknowledgement wait to be sent, an Alloc-ID
enters the first free entry, Sleep_Allow is kept, an unsupported message is counted, and an EqD is in use from the frame boundary on. A
directed message with a bad MIC is discarded and counted, and changes no activation state. -/
def Obligations.PloamIsAnswered : Prop :=
  ∀ (f : AB) (p : Ploam) (idx : Nat) (rest : List (Ploam × Nat)) (s : State), s.power.mode ≠ .service .doze →
    (heard f p idx rest s →
      (p.body = .requestRegistration → actState f s = aO5 → After (exec (.requestRegistration f) s) fun t =>
        alike (.opt :: eventKept) s t ∧ (t.act.get f).queue = rest ∧ registration f s ∈ (t.act.get f).up ∧ actState f t = aO5) ∧
      (p.body = .keyControl → actState f s = aO5 → After (exec (.keyControl f) s) fun t =>
        alike (.opt :: eventKept) s t ∧ (t.act.get f).queue = rest ∧ Ploamu.keyReport ∈ (t.act.get f).up ∧ actState f t = aO5) ∧
      (∀ id n, p.body = .assignAllocId id true → (onuId f s).isSome = true → n < 32 →
        (∀ k, k < 32 → bit (s.rp (pBtx f) (0x180 + 4 * k)) 16 = true → bits (s.rp (pBtx f) (0x180 + 4 * k)) 0 14 ≠ id % 16384) →
        bit (s.rp (pBtx f) (0x180 + 4 * n)) 16 = false → (∀ k, k < n → bit (s.rp (pBtx f) (0x180 + 4 * k)) 16 = true) →
        After (exec (.assignAllocId f) s) fun t => alike (.opt :: eventKept) s t ∧ (t.act.get f).queue = rest ∧ assigned f (id % 16384) t = true ∧
          t.rp (pBtx f) (0x180 + 4 * n) = word (id % 16384 + 2 ^ 16) ∧ intRawBit t (pBtx f) 0 = true ∧
          (p.onuId ≠ 0x3FF → Ploamu.acknowledge true p.seq ∈ (t.act.get f).up)) ∧
      (∀ on, p.body = .sleepAllow on → After (exec (.sleepAllow f) s) fun t => alike (.opt :: eventKept) s t ∧ (t.act.get f).queue = rest ∧
        t.flag (regAddr (pAct f) 0x180) 4 = on ∧ (s.flag (regAddr (pAct f) 0x180) 4 ≠ on → intRawBit t (pAct f) 4 = true)) ∧
      (p.body = .other → After (exec (.unsupportedPloam f) s) fun t => alike (.opt :: eventKept) s t ∧ (t.act.get f).queue = rest ∧
        actCounted f 4 s t ∧
        (p.onuId ≠ 0x3FF → Ploamu.acknowledge false p.seq ∈ (t.act.get f).up))) ∧
    (s.running = true → keeperUp s = true → (s.act.get f).gate = none → (s.act.get f).queue = (p, idx) :: rest → p.onuId ≠ 0x3FF → p.micOk = false → p.body = .deactivate →
      After (exec (.deactivateOnuId f) s) fun t => (t.act.get f).queue = rest ∧ actCounted f 2 s t ∧ keepsRegs [regAddr (pAct f) 0x130] s t ∧
        keepsHdrs [pAct f] s t ∧ keeps [.act, .ctrs, .regs, .hdrs, .links] s t) ∧
    (∀ e, s.running = true → (s.act.get f).eqdNew = some e → After (exec (.eqdApply f) s) fun t => alike (.opt :: eventKept) s t ∧
      (t.act.get f).eqdNew = none ∧
      (t.act.get f).eqdUse = e ∧ actCounted f 8 s t ∧ intRawBit t (pAct f) 3 = true ∧ actState f t = actState f s)

/-- Watchful sleep (R290 to R296): DOZE is entered when its conditions hold and queues a Sleep_Request; a low-power interval turns the
receiver off with its reference recorded; a watch and a local stimulus turn it on behind the upstream gate; SLEEP_EN is stored; a gate
that finds no frame declares LOF; RERANGE that lasts raises its interrupt once. -/
def Obligations.WatchfulSleep : Prop :=
  ∀ s : State, s.running = true → quiet s = true →
    let f := pswActive s
    (mayDoze s = true → After (exec .dozeEnter s) fun t => alike (.opt :: eventKept) s t ∧ t.power.mode = .service .doze ∧ t.power.lastCause = 0x30 ∧
      t.rp pPwr 0x10C = s.rp pPwr 0x10C + 1 ∧ (t.act.get f).up = (s.act.get f).up ++ [.sleepRequest]) ∧
    (s.power.mode = .service .doze → rxOff f s = false → (s.act.get f).gate = none → After (exec .lowPowerStart s) fun t =>
      alike (.opt :: eventKept) s t ∧ rxOff f t = true ∧ (t.act.get f).refSfc = lfrSfc f s ∧ inSync f t = false ∧ t.power.mode = s.power.mode) ∧
    (s.power.mode = .service .doze → rxOff f s = true → After (exec .watch s) fun t =>
      alike (.opt :: eventKept) s t ∧ rxOff f t = false ∧ (t.act.get f).gate = some ⟨none, false⟩ ∧ actCounted f 9 s t ∧
        t.power.mode = s.power.mode) ∧
    (∀ m, s.power.mode = .service .doze → rxOff f s = true →
      admits m (pAct f) 0x180 (sleepCtrlHandler f) (word (s.fld (regAddr (pAct f) 0x180) 0 1 + 2)) s = true →
      After (exec (.wakeCmd m f) s) fun t => alike (.opt :: lineKept) s t ∧ t.last = .done ∧ rxOff f t = false ∧
        (t.act.get f).gate = some ⟨none, true⟩) ∧
    (∀ m g, admits m (pAct g) 0x180 (sleepCtrlHandler g) (word 1) s = true → After (exec (.sleepEnWrite m g true) s) fun t =>
      t.last = .done ∧ t.flag (regAddr (pAct g) 0x180) 0 = true ∧
      keepsRegs (writeRegs (pAct g) 0x180) s t ∧ keeps [.regs, .last, .nvs] s t) ∧
    (s.power.mode = .service .doze → (s.act.get f).gate ≠ none → s.psw.sw = none → inSync f s = false → actState f s = aO5 →
      After (exec .gateReacqTimeout s) fun t => alike (.opt :: eventKept) s t ∧ lofNow f t = true ∧ actState f t = aO6 ∧
        t.power.mode ≠ .service .doze) ∧
    (s.power.mode = .service .rerange → s.psw.stuck = false → After (exec .rerangeTimeout s) fun t => intRawBit t (pAct f) 7 = true ∧
      t.psw = { s.psw with stuck := true } ∧ keepsRegs [] s t ∧ keepsHdrs [pAct f] s t ∧ keeps [.psw, .hdrs, .links] s t) ∧
    (s.power.mode = .service .rerange → s.psw.stuck = true → exec .rerangeTimeout s = .next s)

/-- Bursts (R304 to R309, R311): the content that an allocation is filled with never exceeds its size; a filled burst starts with BEN, under
its profile, and counts in the life record of its module; its end lets BEN fall, sends it under its profile and EqD, and counts it; a write
of the node map stores its fields. -/
def Obligations.BurstsCarryTheirContent : Prop :=
  ∀ (f : AB) (s : State), s.running = true →
    (∀ b, (s.btx.get f).bursts.find? (fun x => !x.filled) = some b → noFlip s = true → quietNow f s = false →
      After (exec (.allocPrefetch f) s) fun t =>
      alike [.pending, .snaps, .last, .clock, .era, .dram, .power, .backup, .masters, .mbx, .keeper, .fw, .cls, .tsu, .chk, .seqs, .lfr, .psw,
        .opt, .keys] s t ∧ (fillBurst f b s).1.filled = true ∧ (((fillBurst f b s).1.items.map UpItem.size).sum ≤ b.grant.size) ∧
      (t.btx.get f).bursts = updBurst (fun x => !x.filled) (fillBurst f b s).1 ((fillBurst f b s).2.btx.get f).bursts) ∧
    (∀ b rest, (s.btx.get f).bursts = b :: rest → (b :: rest).any (fun x => x.started) = false → b.filled = true →
      txOn f s = true → eqdValid f s = true → quietNow f s = false → After (exec (.benAssert f none) s) fun t =>
        (t.btx.get f).bursts = { b with started := true } :: rest ∧ t.flag (regAddr (pBtx f) 0x110) 0 = true ∧
        (∀ l, (s.opt.get f).live = some l → (t.opt.get f).live = some { l with bursts := (l.bursts + 1) % 2 ^ 48 }) ∧
        (∀ q, profileOf f b.grant s = some q → t.rp (pBtx f) 0x104 = word (q.psbuBits % 65536)) ∧
        keepsRegs [regAddr (pBtx f) 0x110, regAddr (pBtx f) 0x100, regAddr (pBtx f) 0x104, regAddr (pAct f) 0x190] s t ∧
        keeps [.btx, .opt, .regs] s t) ∧
    (∀ b, (s.btx.get f).bursts.find? (fun x => x.started) = some b → After (exec (.burstEnd f) s) fun t =>
      keeps [.regs, .ctrs, .hdrs, .out, .links, .buf, .mac, .act, .btx] s t ∧ t.out.head? = some (.burst f (profileOf f b.grant s) b.eqd b.items none) ∧
        t.flag (regAddr (pBtx f) 0x110) 0 = false ∧
      t.ctr (regAddr (pBtx f) 0x420) = (s.ctr (regAddr (pBtx f) 0x420) + 1) % 2 ^ 40) ∧
    (∀ m n v, n < 32 → memClean s = true → quiet s = true → admits m (pBtx f) (0x200 + 4 * n) (nodeMapHandler f n) v s = true →
      After (exec (.nodeMapWrite m f n v) s) fun t => alike (.opt :: lineKept) s t ∧ t.last = .done ∧
        t.rp (pBtx f) (0x200 + 4 * n) = mergeFields (fieldsAt (pBtx f) (0x200 + 4 * n)) (s.rp (pBtx f) (0x200 + 4 * n)) v)

/-- Feeder protection (R316 to R322, Table 10-2): the end of a switch makes its feeder active and counts it; an accepted MANUAL or FORCE of
the standby starts a switch with its cause; a FORCE and LOCKOUT bits stand until they are cleared; the WTR count ends in a switch to the
preferred feeder; a command during a switch is refused. -/
def Obligations.FeedersAreSwitched : Prop :=
  ∀ (m f : AB) (s : State), s.running = true →
    let cmd := fun (n : Nat) => admits m pPsw 0x108 pswCmdHandler (word n) s
    (∀ w, quiet s = true → s.psw.sw = some w → s.power.mode = .service .pswitch → After (exec .switchComplete s) fun t =>
      alike (.opt :: eventKept) s t ∧ pswActive t = w.dst ∧ t.psw.sw = none ∧ t.power.mode = .service .normal ∧ t.power.lastCause = 0x34 ∧
      t.rp pPsw 0x114 = s.rp pPsw 0x114 + 1 ∧
      t.fld (regAddr pPsw 0x100) 16 4 = w.cause % 16 ∧ intRawBit t pPsw 0 = true) ∧
    (quiet s = true → cmd (1 + f.num) = true → carrier s = some f.other → After (exec (.pswManual m f) s) fun t => alike (.opt :: lineKept) s t ∧
      t.last = .done ∧
      t.psw.sw = some ⟨f, 4, s.clock⟩ ∧ t.power.mode = .service .pswitch ∧ (t.btx.get f.other).out = true) ∧
    (quiet s = true → cmd (3 + f.num) = true → carrier s = some f.other → After (exec (.pswForce m f) s) fun t => alike (.opt :: lineKept) s t ∧
      t.last = .done ∧
      forced t = some f ∧ t.psw.sw = some ⟨f, 3, s.clock⟩ ∧ t.power.mode = .service .pswitch) ∧
    (∀ a b, cmd (s.fld (regAddr pPsw 0x108) 0 3 + b2n a * 16 + b2n b * 32) = true → After (exec (.pswLockout m a b) s) fun t =>
      alike (.opt :: lineKept) s t ∧ t.last = .done ∧ lockedOut .a t = a ∧ lockedOut .b t = b) ∧
    (cmd (lockBits s) = true → After (exec (.pswClear m) s) fun t => alike (.opt :: lineKept) s t ∧ t.last = .done ∧ forced t = none ∧
      lockedOut .a t = lockedOut .a s ∧ lockedOut .b t = lockedOut .b s) ∧
    (s.psw.wtr = true → revertReady s = true → After (exec .wtrExpiry s) fun t => alike (.opt :: eventKept) s t ∧
      t.psw.sw = some ⟨effPref s, 5, s.clock⟩ ∧
      t.power.mode = .service .pswitch ∧ t.power.lastCause = 0x33) ∧
    (∀ n, n < 8 → n ≠ 0 → inPswitch s = true → pswCmdHandler.range m (word n) s = true)

/-! ### Modules and client ports -/

/-- The cages (R329, R333, R334, R336, R339 to R341, R344): an insertion starts activation and a removal ends it with the record of the
module waiting to be written; an identity is read, and shown as accepted or refused; diagnostics are shown as read, or fail after the last
retry; laser seconds and a new limit set LIFE; a write of OPT_TX_CTRL stores its fields. -/
def Obligations.ModulesComeAndGo : Prop :=
  ∀ (c : AB) (s : State), s.running = true → s.power.vauxLow = false → quiet s = true →
    let st := regAddr (pOpt c) 0x100
    (s.flag st 0 = false → After (exec (.moduleInsert c) s) fun t => alike eventKept s t ∧ t.flag st 0 = true ∧ (t.opt.get c).seen = true ∧
      intRawBit t (pOpt c) 0 = true ∧
      inSync c t = false ∧ (actState c s = aOff → s.pstate (pAct c) = .active → actState c t = aO11)) ∧
    (s.flag st 0 = true → After (exec (.moduleRemove c) s) fun t => alike eventKept s t ∧ t.flag st 0 = false ∧ modAccepted c t = false ∧
      actState c t = aOff ∧ losNow c t = true ∧ (t.opt.get c).live = none ∧ intRawBit t (pOpt c) 1 = true ∧
      (t.opt.get c).leaving = (s.opt.get c).leaving ++ (s.opt.get c).live.toList) ∧
    (modPresent c s = true → cageFree c s = true → modAccepted c s = false →
      (After (exec (.idReadStart c) s) fun t => t.opt.get c = { s.opt.get c with reading := true } ∧ keeps [.opt] s t) ∧
      (s.fld st 16 4 ≠ 0 → After (exec (.idReadRetry c) s) fun t =>
        t.opt.get c = { s.opt.get c with reading := true } ∧ keeps [.opt] s t)) ∧
    (∀ i, (s.opt.get c).reading = true →
      (rejectOf c i s ≠ 0 → After (exec (.idReadDone c i) s) fun t => alike eventKept s t ∧ (t.opt.get c).reading = false ∧
        t.fld st 16 4 = rejectOf c i s ∧
        modAccepted c t = modAccepted c s ∧ intRawBit t (pOpt c) 2 = true) ∧
      (rejectOf c i s = 0 → After (exec (.idReadDone c i) s) fun t => alike eventKept s t ∧ (t.opt.get c).reading = false ∧ t.fld st 16 4 = 0 ∧
        modAccepted c t = true ∧ t.fld st 12 2 = rateBits c (byteAt i.a0 12) (byteAt i.a0 66) s ∧
        ∃ r, (t.opt.get c).live = some r ∧ r.sn = (i.a0.drop 68).take 16 ∧ r.vendor = (i.a0.drop 20).take 16)) ∧
    (modPresent c s = true → modAccepted c s = true →
      (∀ l, After (exec (.diagPoll c (some l)) s) fun t => t.rp (pOpt c) 0x160 = word (beAt l 0 2 + beAt l 2 2 * 65536) ∧
        t.flag st 4 = false ∧ (t.opt.get c).twoWire = none ∧ (beAt l 10 2 ≠ 0 → intRawBit t (pOpt c) 3 = true) ∧
        keepsRegs [st, st + 0x60, st + 0x64, st + 0x68, st + 0x6C] s t ∧ keepsHdrs [pOpt c] s t ∧
        keeps [.regs, .opt, .hdrs, .links] s t) ∧
      ((s.opt.get c).twoWire = some 3 → After (exec (.diagPoll c none) s) fun t => keeps [.regs, .hdrs, .opt, .links] s t ∧ t.flag st 4 = true ∧
        (t.opt.get c).twoWire = none ∧
        intRawBit t (pOpt c) 8 = true ∧ keepsRegs [st] s t)) ∧
    (∀ n, (s.opt.get c).twoWire = some n → n < 3 → After (exec (.twoWireRetry c) s) fun t =>
      t.opt.get c = { s.opt.get c with twoWire := some (n + 1) } ∧ keeps [.opt] s t) ∧
    (∀ r, txOn c s = true → (s.opt.get c).live = some r → After (exec (.laserSecond c) s) fun t =>
      alike eventKept s t ∧ (t.opt.get c).live = some { r with
        laserOn := (r.laserOn + 1) % 2 ^ 32, life := lifeOf (permille ((r.laserOn + 1) % 2 ^ 32) s) }) ∧
    (∀ r, (s.opt.get c).leaving = [r] → capOpen s = true → s.nvs.life.length < 256 → After (exec (.lifeRecordWrite c) s) fun t =>
      keeps [.regs, .nvs, .opt, .free, .hdrs, .links] s t ∧ stampLife r s ∈ t.nvs.life ∧ (t.opt.get c).leaving = [] ∧
        keepsRegs [regAddr pNvs 0x140] s t) ∧
    (∀ m v, admits m (pOpt c) 0x110 (lifeLimitHandler c) v s = true → After (exec (.lifeLimitWrite m c v) s) fun t =>
      alike lineKept s t ∧ t.last = .done ∧ lifeLimit t = bits v 0 19 ∧
      ∀ d r, (s.opt.get d).live = some r → (t.opt.get d).live = some { r with life := lifeOf (permille r.laserOn t) }) ∧
    (∀ m v, admits m (pOpt c) 0x104 (txCtrlHandler c) v s = true → After (exec (.txCtrlWrite m c v) s) fun t =>
      alike (.opt :: lineKept) s t ∧ t.last = .done ∧ t.rp (pOpt c) 0x104 = mergeFields (fieldsAt (pOpt c) 0x104) (s.rp (pOpt c) 0x104) v)

/-- Client ports (R347 to R355, R361 to R363, R366): a frame that a check refuses counts with the reason of the check, a good one of a port
that no slice holds with NO_SLICE, any other is dispatched; a received pause holds and its expiry releases; XOFF is sent again; LINK follows
the PCS and the mode; a frame leaves with its timestamp queued while the link is up; a read of the last word takes the entry. -/
def Obligations.ClientPortsCarryFrames : Prop :=
  ∀ (n : Nat) (s : State), s.running = true → n < 8 → noFlip s = true →
    let on := s.fld (regAddr (pMac n) 0x100) 0 2 ≠ 0
    (∀ f r i k, on → f.fifoFull = false → macRefused n f s = some (r, i) → s.portSlice n = some k →
      After (exec (.clientFrameReceive n f) s) fun t => keeps [.regs, .ctrs, .hdrs, .cls, .buf, .mac, .links] s t ∧ counted r k n s t ∧
        t.cls = s.cls ∧ t.mac = s.mac ∧
        t.ctr (regAddr (pMac n) (0x200 + 8 * i)) = (s.ctr (regAddr (pMac n) (0x200 + 8 * i)) + 1) % 2 ^ 40) ∧
    (∀ f, on → f.fifoFull = false → macRefused n f s = none →
      (s.portSlice n = none → After (exec (.clientFrameReceive n f) s) fun t =>
        keeps [.regs, .ctrs, .hdrs, .links] s t ∧ t.ctr (unownedAddr 0x01) = (s.ctr (unownedAddr 0x01) + 1) % 2 ^ 40) ∧
      (∀ k, beAt f.bytes 12 2 ≠ 0x8808 → s.portSlice n = some k → s.sliceState k = .active → s.pstate (pMac n) = .active →
        s.mode.code ≠ 1 → s.cls.waiting = [] → lanesIn s ≠ [] →
        After (exec (.clientFrameReceive n f) s) fun t => keeps [.regs, .ctrs, .hdrs, .cls, .links] s t ∧ ∃ p, p.bytes = f.bytes ∧
          p.slice = k ∧ p.src = n ∧ p.cell = .clean ∧ t.cls = dispatched p s)) ∧
    (∀ f, on → f.fifoFull = false → macRefused n f s = none → beAt f.bytes 12 2 = 0x8808 → beAt f.bytes 14 2 = 1 → (s.portSlice n).isSome = true →
      s.flag (regAddr (pMac n) 0x10C) 2 = true → After (exec (.clientFrameReceive n f) s) fun t =>
        keeps [.regs, .ctrs, .hdrs, .cls, .buf, .mac, .links] s t ∧ tblGet 0 8 (t.port n).quanta = beAt f.bytes 16 2 ∧
        t.flag (regAddr (pMac n) 0x104) 4 = decide (beAt f.bytes 16 2 ≠ 0) ∧ t.cls = s.cls) ∧
    (∀ pri, pri < 9 → After (exec (.pauseExpiry n pri) s) fun t => tblGet 0 pri (t.port n).quanta = 0 ∧
      t.flag (regAddr (pMac n) 0x104) (if pri = 8 then 4 else 8 + pri) = false ∧ keepsRegs [regAddr (pMac n) 0x104] s t ∧
      keeps [.mac, .regs] s t) ∧
    ((s.port n).xoff.testBit 8 = true → macLink n s = true → s.flag (regAddr (pMac n) 0x10C) 3 = true →
      s.fld (regAddr (pMac n) 0x10C) 0 2 = 1 → s.fld (regAddr (pMac n) 0x11C) 0 19 < heldCells n none s →
      After (exec (.xoffRefresh n 8) s) fun t => keeps [.ctrs, .out, .links, .hdrs, .regs] s t ∧
        t.out = Output.pause n (pauseFrame n 8 (s.fld (regAddr (pMac n) 0x10C) 16 16) s) :: s.out ∧
        t.ctr (regAddr (pMac n) 0x330) = (s.ctr (regAddr (pMac n) 0x330) + 1) % 2 ^ 40) ∧
    (∀ lock fec lf rf, After (exec (.linkChange n lock fec lf rf) s) fun t => keeps [.regs, .ctrs, .hdrs, .out, .power, .links, .mac] s t ∧
      (t.port n).lock = lock ∧ macLink n t = linkNow n t ∧
      t.flag (regAddr (pMac n) 0x104) 1 = fec ∧ t.flag (regAddr (pMac n) 0x104) 2 = lf ∧ t.flag (regAddr (pMac n) 0x104) 3 = rf) ∧
    (∀ m v, admits m (pMac n) 0x100 (macModeHandler n) v s = true → After (exec (.macModeWrite m n v) s) fun t =>
      keeps [.regs, .ctrs, .hdrs, .last, .out, .nvs, .links, .mac] s t ∧ t.last = .done ∧
        t.rp (pMac n) 0x100 = mergeFields (fieldsAt (pMac n) 0x100) (s.rp (pMac n) 0x100) v ∧ macLink n t = linkNow n t) ∧
    (∀ p q x, (s.port n).txq = p :: q →
      (macLink n s = true → ptpEvent (padFrame p.bytes) = none → After (exec (.frameTransmit n x false) s) fun t =>
        keeps [.regs, .ctrs, .hdrs, .out, .buf, .mac, .links] s t ∧ (t.port n).txq = q ∧ Output.client n (padFrame p.bytes) x ∈ t.out ∧
        t.ctr (regAddr (pMac n) 0x308) = (s.ctr (regAddr (pMac n) 0x308) + 1) % 2 ^ 40 ∧
        (p.tsId = none → (t.port n).tsq = (s.port n).tsq) ∧
        (∀ id, p.tsId = some id → (s.port n).tsq.length < 64 → ∃ e, e.id = id ∧ (t.port n).tsq = (s.port n).tsq ++ [e])) ∧
      (macLink n s = false → After (exec (.frameTransmit n x false) s) fun t => keeps [.regs, .ctrs, .hdrs, .out, .buf, .mac, .links] s t ∧
        (t.port n).txq = q ∧ counted .linkDown p.slice n s t)) ∧
    (∀ m e q, readable m (pMac n) 0x170 s = true → (s.port n).tsq = e :: q → After (exec (.tsqPop m n) s) fun t =>
      t.last = ⟨.ok, word e.frac, .none⟩ ∧ (t.port n).tsq = q ∧ keepsRegs [regAddr (pMac n) 0x160] s t ∧ keeps [.last, .mac, .regs] s t)

/-! ### Classification, queues and the Skim rings -/

/-- Classification (R292, R372 to R374, R382, R387 to R389): the rule that a packet gets is the lowest-numbered valid rule of its slice that
matches its key; a packet that no rule matches counts with reason NO_RULE; a second pass goes back to dispatch; the rule window reads,
writes and clears one entry; a stalled lane leaves service with its packets, and a bucket moves back to the lane in service with the fewest
buckets (the reading of assumption 79). -/
def Obligations.ClassificationFindsTheRule : Prop :=
  ∀ s : State, s.running = true → memClean s = true →
    (∀ n p rest, n < 16 → (s.lane n).q = p :: rest → s.sliceState p.slice = .active → s.cls.waiting = [] →
      let hits := fun (x : Nat × Rule) => (s.ruleRange p.slice).1 ≤ x.1 ∧ x.1 < (s.ruleRange p.slice).1 + (s.ruleRange p.slice).2 ∧
        x.2.valid = true ∧ x.2.matches p.key = true
      ((∀ x ∈ s.cls.rules, ¬hits x) → After (exec (.laneLookup n) s) fun t => keeps [.regs, .ctrs, .hdrs, .cls, .buf, .links] s t ∧
        (t.lane n).q = rest ∧ counted .noRule p.slice p.src s t) ∧
      (∀ pre i r post, tblWf (fun _ => Rule.zero) s.cls.rules = true → s.cls.rules = pre ++ (i, r) :: post → hits (i, r) →
        (∀ x ∈ pre, ¬hits x) → After (exec (.laneLookup n) s) fun t => (t.lane n).q = rest ∧ ∃ u, t = wakeOn u (applyRule i r p u) ∧
          u.lane n = { s.lane n with q := rest } ∧ u.ctr (regAddr (pLane n) 0x200) = (s.ctr (regAddr (pLane n) 0x200) + 1) % 2 ^ 40 ∧
          keepsRegs [regAddr (pLane n) 0x130] s u ∧ keepsHdrs [pLane n] s u ∧ keeps [.cls, .ctrs, .regs, .hdrs, .links] s u)) ∧
    (∀ c rest, s.cls.churnQ = c :: rest → s.cls.waiting = [] → lanesIn s ≠ [] →
      (c.permit = none → After (exec .churnPass s) fun t => t.cls = { dispatched c.pkt s with churnQ := rest } ∧ keeps [.cls] s t) ∧
      (∀ i d, c.permit = some (i, d) → permitOk i c.pkt.slice d false s = true → After (exec .churnPass s) fun t =>
        keeps [.regs, .cls] s t ∧ t.cls = { dispatched { c.pkt with slice := d } s with churnQ := rest } ∧
        t.rp pSlc (0x300 + 4 * i) = s.rp pSlc (0x300 + 4 * i) + 1 ∧ keepsRegs [regAddr pSlc (0x300 + 4 * i)] s t) ∧
      (∀ i d, c.permit = some (i, d) → permitOk i c.pkt.slice d false s = false → After (exec .churnPass s) fun t =>
        keeps [.regs, .ctrs, .hdrs, .cls, .buf, .links] s t ∧ t.cls.churnQ = rest ∧ t.cls.lanes = s.cls.lanes ∧
          counted .sepXslice c.pkt.slice c.pkt.src s t)) ∧
    (∀ m k, k < 16 →
      let cmd := fun (n : Nat) => admits m (pSlice k 8) 0x104 (ruleCmdHandler k) (word n) s
      let i := ruleIndex k s
      let others := fun (t : State) => t.last = .done ∧ (∀ j, j ≠ i → t.ruleAt j = s.ruleAt j) ∧ keepsRegs [regAddr pPrs 0x110] s t ∧
        keeps [.cls, .last, .regs] s t
      (cmd 2 = true → After (exec (.ruleWrite m k) s) fun t => t.ruleAt i = windowRule k s ∧ others t) ∧
      (cmd 3 = true → After (exec (.ruleClear m k) s) fun t => t.ruleAt i = Rule.zero ∧ others t) ∧
      (cmd 1 = true → (s.ruleAt i).key.length = 19 → (s.ruleAt i).mask.length = 19 → (s.ruleAt i).act.length = 4 →
        After (exec (.ruleRead m k) s) fun t => keeps [.regs, .last] s t ∧ t.last = .done ∧ windowWords k 0x140 19 t = (s.ruleAt i).key ∧
          windowWords k 0x1C0 19 t = (s.ruleAt i).mask ∧ windowWords k 0x240 4 t = (s.ruleAt i).act ∧ t.cls = s.cls ∧
          ∀ a, a / 0x1000 ≠ pSlice k 8 → a ≠ regAddr pPrs 0x110 → t.rd a = s.rd a)) ∧
    (∀ n, n < 16 → s.cls.buckets.length = 64 → laneIn n s = true → (s.lane n).q ≠ [] → After (exec (.laneStall n) s) fun t =>
      keeps [.regs, .ctrs, .hdrs, .nvs, .links, .log, .cls, .buf] s t ∧ laneIn n t = false ∧
      (t.lane n).q = [] ∧ (t.hdr (pLane n)).testing = true ∧
      t.rp (pLane 0) 0x40C = s.rp (pLane 0) 0x40C + word (inFlight n s).length) ∧
    (∀ b n, b < 64 → returnLane b s = some n → (∀ c, c < b → returnLane c s = none) → s.cls.waiting = [] →
      After (exec (.bucketReturn b) s) fun t => t.cls = { s.cls with buckets := s.cls.buckets.set b n } ∧ keeps [.cls] s t ∧
        laneIn n s = true ∧ ∀ m, laneIn m s = true → m < 16 → laneBuckets n s.cls.buckets ≤ laneBuckets m s.cls.buckets)

/-- The scheduler and its registers (R401, R403 to R407, R421): what a port node releases is the oldest frame of an open queue of one of its
nodes, a COMMITTED node wherever one can send, the node's credits are debited, and the frame waits at its client port; a write of a rate or
burst stores its fields and fills the node's buckets; a read of BUF_PEAK clears it. -/
def Obligations.QueuesAreServed : Prop :=
  ∀ s : State, s.running = true → memClean s = true →
    (∀ n x u p rest, n < 8 → takeFrame (32 + n) (fun _ => true) s = some (x, u) → s.queue (8 * x.node + x.queue) = p :: rest →
      p.cell = .clean → macLink n s = true → After (exec (.schedRelease (32 + n)) s) fun t =>
        x.pkt = p ∧ nodeParent x.node s = 32 + n ∧ x.queue ∈ openQueues (32 + n) x.node s ∧ 0 < credP x.node s ∧
        ((∃ a ∈ portNodes (32 + n) s, openQueues (32 + n) a s ≠ [] ∧ nodeClass a s = some 0) → nodeClass x.node s = some 0) ∧
        (t.port n).txq = (s.port n).txq ++ [p] ∧ t.queue (8 * x.node + x.queue) = rest ∧
        (∀ k, k ≠ 8 * x.node + x.queue → t.queue k = s.queue k) ∧
        credP x.node t = credP x.node s - 1000 * Int.ofNat (countedLen (32 + n) p s) ∧
        (nodeClass x.node s = some 1 → credC x.node t = credC x.node s) ∧ keepsRegs [] s t ∧ keeps [.buf, .mac] s t) ∧
    (∀ m k n d v, k < 16 → n < 256 → d < 4 →
      let off := [4, 8, 12, 16].getD d 0
      let a := (s.nodes k).1 + n
      admits m (pSlice k (0x28 + n / 32)) (0x100 + 0x20 * (n % 32) + off) (nodeHandler k n off) v s = true →
      After (exec (.shaperWrite m (.node k n d) v) s) fun t => t.last = .done ∧
        t.rd (nodeAddr a off) = mergeFields (fieldsAt (pSlice k (0x28 + n / 32)) (0x100 + 0x20 * (n % 32) + off)) (s.rd (nodeAddr a off)) v ∧
        (d < 2 → credC a t = 1000 * Int.ofNat (s.fld (nodeAddr a 12) 0 24) ∧ credP a t = 1000 * Int.ofNat (s.fld (nodeAddr a 16) 0 24)) ∧
        keepsRegs [nodeAddr a off, regAddr pPrs 0x110] s t ∧ keeps [.regs, .last, .buf] s t) ∧
    (∀ m k j d v, k < 16 → j < 4096 → d < 2 →
      let a := polAddr ((s.polRange k).1 + j) (4 * d)
      let p := pSlice k (0x18 + j / 256)
      let off := 0x100 + 12 * (j % 256) + 4 * d
      admits m p off (policerHandler k j (4 * d)) v s = true → After (exec (.shaperWrite m (.policer k j d) v) s) fun t => t.last = .done ∧
        t.rd a = mergeFields (fieldsAt p off) (s.rd a) v ∧ keepsRegs [a, regAddr pPrs 0x110] s t ∧ keeps [.regs, .last] s t) ∧
    (∀ m v, admits m pSch 0x1B0 (plain pSch 0x1B0) v s = true → After (exec (.shaperWrite m .host v) s) fun t => keeps [.regs, .last, .nvs] s t ∧
      t.last = .done ∧
      t.rp pSch 0x1B0 = mergeFields (fieldsAt pSch 0x1B0) (s.rp pSch 0x1B0) v ∧ keepsRegs (writeRegs pSch 0x1B0) s t) ∧
    (∀ m k, k < 16 → readable m (pSlice k 4) 0x104 s = true → After (exec (.bufPeakRead m k) s) fun t =>
      t.last = ⟨.ok, s.rp (pSlice k 4) 0x104, .none⟩ ∧ t.rp (pSlice k 4) 0x104 = 0 ∧ keepsRegs [regAddr (pSlice k 4) 0x104] s t ∧
      keeps [.regs, .last] s t)

/-- The Skim rings (R416 to R419): the oldest waiting record is written as SEQ and its words at the slot of WR, WR moves on, and no other
byte of LPDDR4X changes; in a full ring RD moves on and OVER counts, with RING_OVERWRITE when it leaves 0, and RING_HALF rises when the
ring becomes half full; a write of DRP_RING_CFG with EN zeroes the ring's registers and one that clears EN discards the ring's waiting
records; RING_BASE and RING_RD are stored by their fields. -/
def Obligations.DiscardsAreRecorded : Prop :=
  ∀ s : State, s.running = true →
    (∀ x rest, s.buf.skimQ = x :: rest → x.body.length = 7 → pushLink x.slice s = none →
      let k := x.slice
      let n := s.rd (ringReg k 0x114)
      let at_ := ringSlot k n.toNat s
      After (exec .skimRecordWrite s) fun t => t.buf.skimQ = rest ∧ t.rd (ringReg k 0x114) = n + 1 ∧
        (∀ i, i < 8 → t.dramWord (at_ + 4 * i) = (n :: x.body).getD i 0) ∧
        (∀ a, a < at_ ∨ at_ + 32 ≤ a → t.dramByte a = s.dramByte a) ∧
        (ringFill k s < ringSize (s.rd (ringReg k 0x10C)) → t.rd (ringReg k 0x118) = s.rd (ringReg k 0x118)) ∧
        (ringSize (s.rd (ringReg k 0x10C)) ≤ ringFill k s → t.rd (ringReg k 0x118) = s.rd (ringReg k 0x118) + 1 ∧
          t.rd (ringReg k 0x11C) = s.rd (ringReg k 0x11C) + 1 ∧
          (s.rd (ringReg k 0x11C) = 0 → intRawBit t (pSlice k 1) 2 = true)) ∧
        (ringFill k s + 1 = ringSize (s.rd (ringReg k 0x10C)) / 2 → intRawBit t (pSlice k 1) 1 = true) ∧
        keepsRegs [ringReg k 0x114, ringReg k 0x118, ringReg k 0x11C] s t ∧ keepsHdrs [pSlice k 1] s t ∧
        keeps [.dram, .regs, .buf, .hdrs, .links] s t) ∧
    (∀ m k v, k < 16 → admits m (pSlice k 1) 0x10C (ringCfgHandler k) v s = true → After (exec (.ringCfgWrite m k .ctrl v) s) fun t =>
      keeps [.regs, .last, .buf, .hdrs, .links] s t ∧ t.last = .done ∧
        t.rd (ringReg k 0x10C) = mergeFields (fieldsAt (pSlice k 1) 0x10C) (s.rd (ringReg k 0x10C)) v ∧
      (bit v 0 = true → ∀ o ∈ [0x114, 0x118, 0x11C, 0x120], t.rd (ringReg k o) = 0) ∧
      (s.flag (ringReg k 0x10C) 0 = true → bit v 0 = false → t.buf.skimQ = s.buf.skimQ.filter (fun x => x.slice != k))) ∧
    (∀ m k v, k < 16 → admits m (pSlice k 1) 0x110 (ringBaseHandler k) v s = true → After (exec (.ringCfgWrite m k .base v) s) fun t =>
      t.last = .done ∧ t.rd (ringReg k 0x110) = mergeFields (fieldsAt (pSlice k 1) 0x110) (s.rd (ringReg k 0x110)) v ∧
      keepsRegs (writeRegs (pSlice k 1) 0x110) s t ∧ keeps [.regs, .last] s t) ∧
    (∀ m k v, k < 16 → admits m (pSlice k 1) 0x118 (ringRdHandler k) v s = true → After (exec (.ringRdWrite m k v) s) fun t =>
      t.last = .done ∧ t.rd (ringReg k 0x118) = mergeFields (fieldsAt (pSlice k 1) 0x118) (s.rd (ringReg k 0x118)) v ∧
      keepsRegs (writeRegs (pSlice k 1) 0x118) s t ∧ keeps [.regs, .last] s t)

/-! ### Time -/

/-- The time unit (R430 to R433, R442, R446, R448): an arm is pending until its frame; a slew ends with the time moved by it; holdover that
lasts makes the time invalid; a calibration measures its seconds and shows the count; the squelch of a new reference ends; in HOST an
adjustment is a slew or, beyond SLEW_MAX, a step, and TSU_SET steps the time to its value.

The Lantern (R443 to R445): an edge of PPS_OUT rises at most once in half a second and falls again, TOD_OUT tells of it, an edge of
PPS_IN is stamped and counted, its message makes the inputs valid at the third good one, a bad message or the loss of the edge
makes them invalid. -/
def Obligations.TimeIsKeptAndTold : Prop :=
  (∀ (m f : AB) (s : State), s.running = true →
    let arm := regAddr pTsu (0x158 + 0x20 * f.num)
    (admits m pTsu (0x158 + 0x20 * f.num) (armHandler f) (field 0 1 1) s = true → After (exec (.armLoad m f) s) fun t =>
      t.last = .done ∧ t.flag arm 0 = true ∧ t.flag arm 1 = false ∧ keepsRegs (writeRegs pTsu (0x158 + 0x20 * f.num)) s t ∧
      keeps [.regs, .last] s t) ∧
    (After (exec .slewDone s) fun t => t.tsu = { s.tsu with time := (Int.ofNat s.tsu.time + slewSpan s).toNat, slew := 0 } ∧
      keeps [.tsu] s t) ∧
    (s.tsu.state = .holdover → s.tsu.valid = true → After (exec .holdoverLimit s) fun t => t.tsu = { s.tsu with valid := false } ∧
      intRawBit t pTsu 8 = true ∧ keepsHdrs [pTsu] s t ∧ keeps [.tsu, .hdrs, .links] s t) ∧
    (∀ n, n < 256 → admits m pTsu 0x1A0 calHandler (word (1 + n * 256)) s = true → After (exec (.calStart m n) s) fun t =>
      keeps [.regs, .last, .tsu] s t ∧ t.last = .done ∧
      t.tsu = { s.tsu with cal := some ⟨n, []⟩ } ∧ t.rp pTsu 0x1A4 = 0 ∧
      keepsRegs [regAddr pTsu 0x1A0, regAddr pTsu 0x1A4, regAddr pPrs 0x110] s t) ∧
    (∀ es, s.tsu.cal = some ⟨0, es⟩ → es.length < 256 → After (exec .calDone s) fun t => t.tsu = { s.tsu with cal := none } ∧
      bits (t.rp pTsu 0x1A4) 16 8 = es.length ∧ t.flag (regAddr pTsu 0x1A4) 31 = true ∧ intRawBit t pTsu 6 = true ∧
      (∀ e : Int, 0 < es.length → (∀ x ∈ es, x = e) → -32768 ≤ e → e < 32768 →
        signedOf 16 (bits (t.rp pTsu 0x1A4) 0 16) = e ∧ t.rp pTsu 0x1A8 = 0) ∧
      keepsRegs [regAddr pTsu 0x1A4, regAddr pTsu 0x1A8] s t ∧ keepsHdrs [pTsu] s t ∧ keeps [.tsu, .regs, .hdrs, .links] s t) ∧
    (After (exec .synceSquelchEnd s) fun t => keeps [.regs, .tsu, .hdrs, .links, .ctrs] s t ∧ t.tsu = { s.tsu with squelchHold := false } ∧
      t.flag (regAddr pTsu 0x1F0) 3 = (s.tsu.state != .line && s.tsu.state != .lineFreq)) ∧
    (∀ v, admits m pTsu 0x1B4 hostAdjHandler v s = true →
      let d := signedOf 32 v.toNat * Int.ofNat nsUnit
      (d.natAbs ≤ slewMax s → After (exec (.hostAdjust m v) s) fun t => t.last = .done ∧ t.tsu = { s.tsu with slew := d } ∧
        keepsRegs [regAddr pPrs 0x110] s t ∧ keeps [.tsu, .last, .regs] s t) ∧
      (slewMax s < d.natAbs → 0 ≤ Int.ofNat s.tsu.time + d → After (exec (.hostAdjust m v) s) fun t =>
        keeps [.regs, .last, .tsu, .hdrs, .links, .ctrs] s t ∧ t.last = .done ∧
        Int.ofNat t.tsu.time = Int.ofNat s.tsu.time + d ∧ t.tsu.slew = 0 ∧ t.rp pTsu 0x128 = v ∧ intRawBit t pTsu 3 = true)) ∧
    (∀ v, admits m pTsu 0x1C4 setNsHandler v s = true → After (exec (.timeSet m v) s) fun t =>
      keeps [.regs, .last, .tsu, .hdrs, .links, .ctrs] s t ∧ t.last = .done ∧ t.tsu.slew = 0 ∧
      t.tsu.time = (s.tsu.setHi.toNat * 2 ^ 32 + s.tsu.setLo.toNat) * secUnit + bits v 0 30 * nsUnit ∧ intRawBit t pTsu 3 = true)) ∧
  (∀ s : State, s.running = true →
    let pps := s.rp pTsu 0x1C8
    (bit pps 0 = true → (bit pps 1 = true → s.tsu.valid = true) → (∀ n, s.tsu.ppsAge = some n → 500000 ≤ n) →
      After (exec .ppsOutEdge s) fun t => t.out = Output.pps true :: s.out ∧ t.tsu = { s.tsu with
        ppsHigh := true, ppsAge := some 0, todEdge := if s.flag (regAddr pTsu 0x1D0) 0 then
          some ((s.tsu.time + secUnit / 2) / secUnit) else none } ∧ keeps [.tsu, .out] s t) ∧
    (∀ n, s.tsu.ppsAge = some n → n < 500000 → exec .ppsOutEdge s = .next s) ∧
    (s.tsu.ppsHigh = true → After (exec .ppsOutFall s) fun t => t.out = Output.pps false :: s.out ∧
      t.tsu = { s.tsu with ppsHigh := false } ∧ keeps [.tsu, .out] s t) ∧
    (∀ n, s.tsu.todEdge = some n → s.flag (regAddr pTsu 0x1D0) 0 = true → After (exec .todOutSend s) fun t =>
      t.out = Output.tod (todMessage n s) :: s.out ∧ t.tsu = { s.tsu with todEdge := none } ∧ keeps [.tsu, .out] s t) ∧
    (s.flag (regAddr pTsu 0x1D4) 0 = true →
      (∀ x, x < 1000 * nsUnit → After (exec (.ppsInEdge x) s) fun t =>
        keeps [.regs, .tsu, .hdrs, .links, .ctrs] s t ∧ t.tsu.edge = some (s.tsu.time + x) ∧ t.tsu.edgeTold = false ∧ t.tsu.time = s.tsu.time ∧
        t.rp pTsu 0x1D8 = word ((s.tsu.time + x) / secUnit) ∧ t.rp pTsu 0x1DC = word ((s.tsu.time + x) / nsUnit % 1000000000) ∧
        t.ctr (regAddr pTsu 0x318) = (s.ctr (regAddr pTsu 0x318) + 1) % 2 ^ 40) ∧
      (∀ e l, s.tsu.edge = some e → s.tsu.edgeTold = false → s.tsu.time ≤ e + 900000000 * nsUnit →
        (todSeconds l = none → After (exec (.todInMessage l) s) fun t => keeps [.regs, .tsu, .hdrs, .links, .ctrs] s t ∧ t.tsu.extValid = false ∧
          t.tsu.goodEdges = 0 ∧
          t.tsu.lastS = none ∧ intRawBit t pTsu 5 = true ∧
          t.ctr (regAddr pTsu 0x320) = (s.ctr (regAddr pTsu 0x320) + 1) % 2 ^ 40) ∧
        (∀ n, todSeconds l = some n → (s.tsu.lastS = none ∨ s.tsu.lastS.map (fun x => x + 1) = some n) →
          After (exec (.todInMessage l) s) fun t => keeps [.regs, .tsu, .hdrs, .links, .ctrs] s t ∧ t.tsu.edgeTold = true ∧ t.tsu.lastS = some n ∧
            t.tsu.goodEdges = s.tsu.goodEdges + 1 ∧ t.tsu.extValid = (s.tsu.extValid || decide (2 ≤ s.tsu.goodEdges))))) ∧
    (s.tsu.extValid = true → After (exec .ppsInLoss s) fun t => keeps [.regs, .tsu, .hdrs, .links, .ctrs] s t ∧ t.tsu.extValid = false ∧
      t.tsu.edge = none ∧ t.tsu.goodEdges = 0 ∧
      intRawBit t pTsu 4 = true))

/-! ### Sequencers -/

/-- The arithmetic of the sequencers (R460, R462, R469, Tables 16-2 and 16-3): at an instruction boundary inside its code, each instruction
writes its result of the operands to rd, g0 keeps nothing, PC moves on by 4 and the instruction is counted; no other sequencer, no other
register of it and no memory but the instruction cache changes. -/
def Obligations.SequencersCompute : Prop :=
  ∀ (n : Nat) (rd ra rb : BitVec 5) (imm : BitVec 16) (s : State), seqAt n s = true →
    let q := s.seq n
    let a := q.reg ra
    let b := q.reg rb
    let ui : Word := imm.setWidth 32
    let si : Word := imm.signExtend 32
    let gives := fun (i : Instr) (v : Word) => After (exec i s) (seqDone n ({ q with pc := (q.pc + 4) % 2 ^ 32 }.setReg rd.toNat v) s)
    gives (.add n rd ra rb) (a + b) ∧ gives (.sub n rd ra rb) (a - b) ∧ gives (.and n rd ra rb) (a &&& b) ∧
    gives (.or n rd ra rb) (a ||| b) ∧ gives (.xor n rd ra rb) (a ^^^ b) ∧ gives (.shl n rd ra rb) (a <<< (b.toNat % 32)) ∧
    gives (.shr n rd ra rb) (a >>> (b.toNat % 32)) ∧ gives (.sra n rd ra rb) (a.sshiftRight (b.toNat % 32)) ∧
    gives (.sltu n rd ra rb) (if a.toNat < b.toNat then 1 else 0) ∧ gives (.slt n rd ra rb) (if a.toInt < b.toInt then 1 else 0) ∧
    gives (.mul n rd ra rb) (word (a.toNat * b.toNat)) ∧ gives (.mulhu n rd ra rb) (word (a.toNat * b.toNat / 2 ^ 32)) ∧
    gives (.addi n rd ra imm) (a + si) ∧ gives (.andi n rd ra imm) (a &&& ui) ∧ gives (.ori n rd ra imm) (a ||| ui) ∧
    gives (.xori n rd ra imm) (a ^^^ ui) ∧ gives (.lui n rd imm) (word (imm.toNat * 2 ^ 16)) ∧
    gives (.sltiu n rd ra imm) (if a.toNat < imm.toNat then 1 else 0) ∧
    (imm.toNat < 32 → gives (.shli n rd ra imm) (a <<< imm.toNat) ∧ gives (.shri n rd ra imm) (a >>> imm.toNat))

/-- Loads, stores and jumps (R454, R462, R470, Table 16-3): an aligned access inside the regions of the sequencer loads its bytes
zero-extended, most significant first, or stores the low bytes and no other; STX writes the slice's LPDDR4X and LDX waits until the word
returns; an access outside the slice's region stops with fault SEP; branches and jumps move PC as their tests say. -/
def Obligations.SequencersMoveData : Prop :=
  ∀ (n : Nat) (rd ra rb : BitVec 5) (imm : BitVec 16) (s : State), seqAt n s = true →
    let q := s.seq n
    let a := q.reg ra
    let ea := (a + imm.signExtend 32).toNat
    let after := { q with pc := (q.pc + 4) % 2 ^ 32 }
    let jump := fun (pc : Nat) => { q with pc := pc % 2 ^ 32 }
    let gives := fun (i : Instr) (x : Seq) => After (exec i s) (seqDone n x s)
    let stores := fun (i : Instr) (k : Nat) => seqAddrOk true ea k = true → After (exec i s) fun t =>
      seqDone n (after.putBytes ea (beBytes k (q.reg rd).toNat)) s t ∧ (t.seq n).bytes ea k = beBytes k (q.reg rd).toNat ∧
      ∀ x, x < ea ∨ ea + k ≤ x → (t.seq n).bytes x 1 = q.bytes x 1
    (∀ x ∈ [(Instr.lw n rd ra imm, 4), (.lh n rd ra imm, 2), (.lb n rd ra imm, 1)], seqAddrOk false ea x.2 = true →
      gives x.1 (after.setReg rd.toNat (word (beNat (q.bytes ea x.2))))) ∧
    stores (.sw n rd ra imm) 4 ∧ stores (.sh n rd ra imm) 2 ∧ stores (.sb n rd ra imm) 1 ∧
    (ea % 4 = 0 → ea + 4 ≤ (s.region (seqOf n s)).2 →
      (After (exec (.ldx n rd ra imm) s) fun t => keeps [.seqs, .ctrs, .regs, .hdrs, .links] s t ∧ (t.seq n).run = .waiting ∧
        (t.seq n).wait = some (.load rd.toNat ((s.region (seqOf n s)).1 + ea)) ∧
        (t.seq n).pc = q.pc ∧ (t.seq n).g = q.g ∧ t.dram = s.dram) ∧
      (After (exec (.stx n rd ra imm) s) fun t => keeps [.dram, .seqs, .ctrs, .regs, .hdrs, .links] s t ∧
        t.dramWord ((s.region (seqOf n s)).1 + ea) = q.reg rd ∧ (t.seq n).pc = after.pc ∧
        (t.seq n).g = q.g ∧ ∀ x, x < (s.region (seqOf n s)).1 + ea ∨ (s.region (seqOf n s)).1 + ea + 4 ≤ x → t.dramByte x = s.dramByte x)) ∧
    (ea % 4 = 0 → (s.region (seqOf n s)).2 < ea + 4 → ∀ i ∈ [Instr.ldx n rd ra imm, .stx n rd ra imm], After (exec i s) fun t =>
      keeps [.nvs, .log, .seqs, .ctrs, .regs, .hdrs, .links] s t ∧ (t.seq n).run = .faulted ∧ (t.seq n).lastFault = 2 ∧ (t.seq n).faultPc = q.pc ∧
        intRawBit t (pSeq n) 1 = true ∧ t.dram = s.dram) ∧
    (∀ x ∈ [(Instr.beq n ra rb imm, decide (a = q.reg rb)), (.bne n ra rb imm, decide (a ≠ q.reg rb)),
        (.bltu n ra rb imm, decide (a.toNat < (q.reg rb).toNat)), (.bgeu n ra rb imm, decide ((q.reg rb).toNat ≤ a.toNat))],
      gives x.1 (if x.2 then jump ((word (q.pc + 4) + imm.signExtend 32 * 4).toNat) else after)) ∧
    (∀ off : BitVec 21, gives (.jal n rd off) ((jump ((word (q.pc + 4) + off.signExtend 32 * 4).toNat)).setReg rd.toNat (word (q.pc + 4)))) ∧
    ((a + imm.setWidth 32).toNat % 4 = 0 →
      gives (.jalr n rd ra imm) ((jump (a + imm.setWidth 32).toNat).setReg rd.toNat (word (q.pc + 4))))

/-- Time, events, frames and check channels of the sequencers (R461, R463 to R467, R469, R472, R481 to R484, Table 16-3): each instruction has
its effect and goes on, a WAIT or CRES with nothing to return waits and goes on when there is something, an instruction on a channel of
another slice stops with fault SEP, and after an inconsistent word the sequencer goes on or stops with ILLEGAL while no other sequencer and
no byte of LPDDR4X changes. -/
def Obligations.SequencersActOnTheirSlice : Prop :=
  (∀ (n : Nat) (rd ra rb : BitVec 5) (imm : BitVec 16) (s : State), seqAt n s = true →
    let q := s.seq n
    let k := seqOf n s
    let i := imm.toNat
    let len := bits (q.reg ra) 0 16
    let after := { q with pc := (q.pc + 4) % 2 ^ 32 }
    let gives := fun (c : Instr) (x : Seq) => After (exec c s) (seqDone n x s)
    let steps := fun (x : Seq) (t : State) => t.seq n = { x with cache := (t.seq n).cache } ∧ ∀ j, j ≠ n → t.seq j = s.seq j
    let waits := fun (w : SeqWait) (t : State) => steps { q with run := .waiting, wait := some w } t ∧
      keeps [.chk, .seqs, .ctrs, .regs, .hdrs, .links] s t
    (i ≤ 2 → gives (.rdtime n rd imm) (after.setReg rd.toNat
      (if i = 0 then s.secWord else if i = 1 then s.nsWord else word (Config.timerBase s.era + s.clock)))) ∧
    (i < 32 → i % 16 < 4 → gives (.tset n ra imm) { after with
      timers := tblSet SeqTimer.off (i % 4) (if (q.reg ra).toNat = 0 then SeqTimer.off else ⟨true, decide (16 ≤ i), (q.reg ra).toNat,
        (q.reg ra).toNat⟩) q.timers }) ∧
    (1 ≤ i → i < 64 →
      (seqEvents n s &&& i ≠ 0 → gives (.wait n rd imm) ({ after with
        events := (q.events % 16) &&& (15 - (seqEvents n s &&& i) % 16) }.setReg rd.toNat (word (seqEvents n s &&& i)))) ∧
      (seqEvents n s &&& i = 0 → After (exec (.wait n rd imm) s) (waits (.event rd.toNat i)))) ∧
    gives (.wdog n) { after with wdogUs := 0 } ∧
    (After (exec (.evt n imm) s) fun t => keeps [.seqs, .ctrs, .regs, .hdrs, .links] s t ∧ steps after t ∧ bits (t.rp (pSeq n) 0x120) 0 16 = i ∧
      bits (t.rp (pSeq n) 0x120) 16 16 = (bits (s.rp (pSeq n) 0x120) 16 16 + 1) % 65536 ∧ intRawBit t (pSeq n) 3 = true) ∧
    (i < 8 → After (exec (.cnt n ra imm) s) fun t => keeps [.seqs, .ctrs, .regs, .hdrs, .links] s t ∧ steps after t ∧
      t.ctr (regAddr (pSeq n) (0x238 + 8 * i)) =
      (s.ctr (regAddr (pSeq n) (0x238 + 8 * i)) + (q.reg ra).toNat) % 2 ^ 40) ∧
    (gives (.rxhead n rd) (after.setReg rd.toNat (match q.slots with
      | [] => 0xFFFFFFFF
      | x :: _ => word (x.1 * 65536 + x.2)))) ∧
    gives (.rxfree n) { after with slots := q.slots.drop 1 } ∧
    (After (exec (.halt n) s) fun t => keeps [.seqs, .ctrs, .regs, .hdrs, .links] s t ∧ steps { after with run := .halted } t ∧
      intRawBit t (pSeq n) 0 = true) ∧
    ((len < 14 ∨ 2048 < len → After (exec (.fsend n rd ra rb) s) fun t => keeps [.seqs, .ctrs, .regs, .hdrs, .links] s t ∧
      steps (after.setReg rd.toNat 1) t ∧
        t.ctr (regAddr (pSeq n) 0x218) = (s.ctr (regAddr (pSeq n) 0x218) + 1) % 2 ^ 40 ∧ t.cls = s.cls ∧ t.buf = s.buf) ∧
      (14 ≤ len → len ≤ 2048 → bit (q.reg rb) 0 = false → s.sliceState k = .active → s.cls.waiting = [] → lanesIn s ≠ [] →
        After (exec (.fsend n rd ra rb) s) fun t => keeps [.cls, .buf, .free, .seqs, .ctrs, .regs, .hdrs, .links] s t ∧
          steps (after.setReg rd.toNat 0) t ∧
          ∃ p, p.bytes = padFrame (q.txbuf.read 0 len) ∧ p.slice = k ∧ p.src = 10 ∧ p.cell = .clean ∧ t.cls = dispatched p s)) ∧
    (s.chkSlice (i % 8) = s.seqSlice n →
      (i < 16 → chanClosed (i % 8) s = false → After (exec (.cstart n ra imm) s) fun t => keeps [.chk, .seqs, .ctrs, .regs, .hdrs, .links] s t ∧
        steps after t ∧
        t.chan (i % 8) = ⟨(if 8 ≤ i then crcBytes (chanParam (i % 8) s) (chanParam (i % 8) s).init (beBytes 4 (q.reg ra).toNat)
          else (chanParam (i % 8) s).init), .open, false, false, 8 + n, 0⟩) ∧
      (∀ x ∈ [0, 1, 2], i / 8 = 2 * x → feedRejected (i % 8) (2 ^ x) s = false → After (exec (.cfeed n ra imm) s) fun t =>
        keeps [.chk, .seqs, .ctrs, .regs, .hdrs, .links] s t ∧ steps after t ∧ (t.chan (i % 8)).count = (s.chan (i % 8)).count + 2 ^ x ∧
          (t.chan (i % 8)).crc =
          crcBytes (chanParam (i % 8) s) (s.chan (i % 8)).crc (beBytes (2 ^ x) (q.reg ra).toNat)) ∧
      (i < 8 → (s.chan i).state = .complete → After (exec (.cres n rd imm) s) fun t => keeps [.chk, .seqs, .ctrs, .regs, .hdrs, .links] s t ∧
        steps (after.setReg rd.toNat (chanResult i s)) t ∧
        t.chan i = { s.chan i with read := true }) ∧
      (i < 8 → (s.chan i).state = .open → chanLen i s ≠ 0 → After (exec (.cres n rd imm) s) (waits (.check rd.toNat i)))) ∧
    (s.chkSlice (i % 8) ≠ s.seqSlice n → i < 16 → ∀ c ∈ [Instr.cstart n ra imm, .cres n rd imm], After (exec c s) fun t =>
      keeps [.nvs, .log, .seqs, .ctrs, .regs, .hdrs, .links] s t ∧ (t.seq n).run = .faulted ∧ (t.seq n).lastFault = 2 ∧ t.chk = s.chk) ∧
    (∀ w, seqDecode n w.toNat = none → After (exec (.illegalInstruction n w) s) fun t =>
      keeps [.free, .nvs, .log, .seqs, .ctrs, .regs, .hdrs, .links] s t ∧ (∀ j, j ≠ n → t.seq j = s.seq j) ∧
      t.dram = s.dram ∧ ((t.seq n).run = .running ∨
        (t.seq n).run = .faulted ∧ (t.seq n).lastFault = 1 ∧ (t.seq n).faultPc = q.pc)) ∧
    (q.cache.any (fun e => e.1 == q.pc / 64) = false → After (exec (.icacheFill n) s) fun t =>
      keeps [.seqs, .ctrs, .regs, .hdrs, .links] s t ∧ steps q t ∧
        (t.seq n).cache.head? = some (q.pc / 64, s.dramBytes ((s.region k).1 + (s.rp (pSeq n) 0x110).toNat + 64 * (q.pc / 64)) 64))) ∧
  (∀ (n : Nat) (s : State), s.running = true → n < 8 →
    let q := s.seq n
    let after := { q with run := .running, wait := none, pc := (q.pc + 4) % 2 ^ 32 }
    let gives := fun (c : Instr) (x : Seq) => After (exec c s) (seqDone n x s)
    (∀ rd a, q.wait = some (.load rd a) → gives (.ldxReturn n) (after.setReg rd (s.dramWord a))) ∧
    (∀ rd i, q.wait = some (.event rd i) →
      (seqEvents n s &&& i ≠ 0 → gives (.waitReturn n) ({ after with
        events := (q.events % 16) &&& (15 - (seqEvents n s &&& i) % 16) }.setReg rd (word (seqEvents n s &&& i)))) ∧
      (seqEvents n s &&& i = 0 → exec (.waitReturn n) s = .next s)) ∧
    (∀ rd c, q.wait = some (.check rd c) →
      ((s.chan c).state = .complete → After (exec (.cresReturn n) s) fun t => keeps [.chk, .seqs, .ctrs, .regs, .hdrs, .links] s t ∧
        t.seq n = after.setReg rd (chanResult c s) ∧
        t.chan c = { s.chan c with read := true }) ∧
      (chanWaits c s = true → exec (.cresReturn n) s = .next s)) ∧
    (seqReady n s = true → s.fld (regAddr (pSeq n) 0x114) 0 25 ≤ q.pc → ∀ rd ra rb, After (exec (.add n rd ra rb) s) fun t =>
      keeps [.nvs, .log, .seqs, .ctrs, .regs, .hdrs, .links] s t ∧
        t.seq n = { q with run := .faulted, lastFault := 3, faultPc := q.pc, wait := none } ∧ intRawBit t (pSeq n) 1 = true))

/-- Sequencers and check channels under a master (R455, R457, R463, R465, R475, R478 to R485): a timer that fires latches its event; a
watchdog that expires stops the sequencer with WDOG or starts it again; RESTART starts at the entry point and INV empties the cache; the
DMEM window reads and writes the word that it names and moves on; a start opens a computation, an accepted feed takes its bytes, and a
rejected one changes nothing but REJECT; a read of the result of a finished computation returns it. -/
def Obligations.SequencersAndChecksAreDriven : Prop :=
  ∀ (m : AB) (n : Nat) (s : State), s.running = true → n < 8 →
    let q := s.seq n
    let c := s.chan n
    let ctrl := fun (i : Nat) => admits m (pSeq n) 0x11C (seqCtrlHandler n) (field i 1 1) s
    let entry := s.fld (regAddr (pSeq n) 0x10C) 0 25
    let others := fun (t : State) => ∀ j, j ≠ n → t.seq j = s.seq j
    (∀ i, i < 4 → (tblGet SeqTimer.off i q.timers).armed = true → After (exec (.seqTimerFire n i) s) fun t => others t ∧ keeps [.seqs] s t ∧
      (t.seq n).events = (q.events % 16) ||| 2 ^ i ∧
      ((tblGet SeqTimer.off i q.timers).periodic = false → tblGet SeqTimer.off i (t.seq n).timers = SeqTimer.off)) ∧
    (q.run = .running ∨ q.run = .waiting → s.flag (regAddr (pSeq n) 0x118) 31 = false → After (exec (.seqWatchdog n) s) fun t =>
      keeps [.seqs, .ctrs, .hdrs, .links, .regs, .log, .nvs] s t ∧ others t ∧
      t.seq n = { q with run := .faulted, lastFault := 5, faultPc := q.pc, wait := none } ∧ intRawBit t (pSeq n) 2 = true ∧
      t.ctr (regAddr (pSeq n) 0x230) = (s.ctr (regAddr (pSeq n) 0x230) + 1) % 2 ^ 40) ∧
    (q.run = .running → s.flag (regAddr (pSeq n) 0x118) 31 = true → seqMayRun n s = true → After (exec (.seqWatchdog n) s) fun t =>
      keeps [.seqs, .ctrs, .hdrs, .links, .regs, .log, .nvs] s t ∧ others t ∧ (t.seq n).run = .running ∧ (t.seq n).pc = entry ∧ (t.seq n).g = [] ∧
        (t.seq n).dmem = q.dmem) ∧
    (ctrl 0 = true → After (exec (.seqRestart m n) s) fun t => keeps [.seqs, .last, .regs, .hdrs, .links] s t ∧ t.last = .done ∧ others t ∧
      t.seq n = { q with
      run := .running, pc := entry, g := [], timers := [], events := 0, slots := [], txbuf := SeqMem.zero, cache := [], wait := none,
      wdogUs := 0 }) ∧
    (ctrl 1 = true → After (exec (.seqInv m n) s) fun t => keeps [.seqs, .last, .regs] s t ∧ t.last = .done ∧ others t ∧
      t.seq n = { q with cache := [] }) ∧
    (memClean s = true → readable m (pSeq n) 0x128 s = true → After (exec (.dmemDataRead m n) s) fun t =>
      t.last = ⟨.ok, dmemWord n s, .none⟩ ∧ t.seq n = q ∧ dmemSel n t = (dmemSel n s + 4) % 8192 ∧
      keepsRegs [regAddr (pSeq n) 0x124] s t ∧ keeps [.regs, .last] s t) ∧
    (∀ v, memClean s = true → admits m (pSeq n) 0x128 (dmemHandler n) v s = true → After (exec (.dmemDataWrite m n v) s) fun t =>
      t.last = .done ∧ others t ∧ (t.seq n).dmem.read (dmemSel n s) 4 = beBytes 4 v.toNat ∧ dmemSel n t = (dmemSel n s + 4) % 8192 ∧
      (∀ a, a < dmemSel n s ∨ dmemSel n s + 4 ≤ a → (t.seq n).dmem.get a = q.dmem.get a) ∧
      keepsRegs [regAddr (pSeq n) 0x124, regAddr pPrs 0x110] s t ∧ keeps [.seqs, .regs, .last] s t) ∧
    (∀ f, admits m (pChk n) 0x114 (chanStartHandler n) (word (1 + 2 * b2n f)) s = true → After (exec (.chkStart m n f) s) fun t =>
      keeps [.chk, .last, .regs, .ctrs, .hdrs, .links] s t ∧ t.last = .done ∧ (∀ j, j ≠ n → t.chan j = s.chan j) ∧
        t.chan n = ⟨(if f then crcBytes (chanParam n s) (chanParam n s).init
        (beBytes 4 (s.rp (pChk n) 0x110).toNat) else (chanParam n s).init), .open, false, false, m.num, 0⟩) ∧
    (∀ x ∈ [(Instr.chkFeedByte m n, 0x120, 1), (.chkFeedHalf m n, 0x124, 2), (.chkFeedWord m n, 0x128, 4)], ∀ v : Word,
      (admits m (pChk n) x.2.1 (chanFeedHandler n x.2.1 x.2.2) v s = true → After (exec (x.1 v) s) fun t =>
        keeps [.chk, .last, .regs, .ctrs, .hdrs, .links] s t ∧ t.last = .done ∧
        (∀ j, j ≠ n → t.chan j = s.chan j) ∧ (t.chan n).count = c.count + x.2.2 ∧
        (t.chan n).crc = crcBytes (chanParam n s) c.crc (beBytes x.2.2 v.toNat) ∧
        (t.chan n).state = if chanLen n s ≠ 0 ∧ c.count + x.2.2 = chanLen n s then .complete else .open) ∧
      (frozenWrite m (pChk n) x.2.1 s = false → writeDenied m (.reg none (pChk n) x.2.1) s = none →
        writeBusy (pChk n) x.2.1 v s = false → s.lockOk m (pChk n) = true → touches .rwp (fieldsAt (pChk n) x.2.1) v = false →
        feedRejected n x.2.2 s = true → After (exec (x.1 v) s) fun t => keeps [.chk, .last, .regs, .ctrs, .hdrs, .links] s t ∧
          t.last = ⟨.range, 0, .none⟩ ∧
          t.chan n = { c with reject := true } ∧ (∀ j, j ≠ n → t.chan j = s.chan j) ∧ intRawBit t (pChk n) 1 = true)) ∧
    (readable m (pChk n) 0x130 s = true →
      (c.state = .complete → After (exec (.chkResultRead m n) s) fun t => t.last = ⟨.ok, chanResult n s, .none⟩ ∧
        t.chan n = { c with read := true } ∧ keepsRegs [] s t ∧ keeps [.last, .chk] s t) ∧
      (c.state = .open → chanLen n s = 0 → After (exec (.chkResultRead m n) s) fun t => keeps [.chk, .last, .hdrs, .links] s t ∧
        t.last = ⟨.ok, chanResult n s, .none⟩ ∧
        t.chan n = { c with state := .complete, read := true }) ∧
      (c.state = .open → chanLen n s ≠ 0 → After (exec (.chkResultRead m n) s) fun t => t.last = ⟨.ok, chanResult n s, .none⟩ ∧
        keeps [.last] s t) ∧
      (c.state = .none ∨ c.state = .invalid → After (exec (.chkResultRead m n) s) fun t => t.last = ⟨.ok, 0, .none⟩ ∧ keeps [.last] s t))

/-! ### Memory integrity and the tables -/

/-- Memory integrity and training (R491, R499 to R504, R509, R510, R548, R549): a scrubbed row with one bit in error is corrected, counted and
tested, and the scrubber moves on; a row whose test passes stays, a lasting one moves to the next spare of its bank; an accepted flip is
armed with its fields; training ends with its size or its failed step, and an accepted RETRAIN starts it again. -/
def Obligations.MemoryIsScrubbed : Prop :=
  ∀ s : State, s.running = true →
    (∀ k l, s.flag (regAddr pEcc 0x100) 8 = true → memClean s = true → scrubHere s = some l → 0x40 ≤ l.mem → quiet s = true →
      (∀ x, scrubNext l s = some x → After (exec (.scrubRow k []) s) fun t =>
        alike [.pending, .snaps, .last, .clock, .dram, .masters, .mbx, .lfr, .keys] s t ∧
          t.rp pEcc 0x104 = word (x.mem * 2 ^ 24 + x.row * 2 ^ 12 + x.bank * 2 ^ 8)) ∧
      (∀ b w n, memShape l.mem = some n → b < 72 → After (exec (.scrubRow k [⟨w, [b]⟩]) s) fun t =>
        alike [.pending, .snaps, .last, .clock, .dram, .masters, .mbx, .lfr] s t ∧ (l.mem ≠ 0x69 → t.keys = s.keys) ∧ intRawBit t pEcc 0 = true ∧
        t.ctr (regAddr pEcc 0x200) = (s.ctr (regAddr pEcc 0x200) + 1) % 2 ^ 40 ∧ t.ecc.poison = [] ∧
        t.ecc.ces = s.ecc.ces ++ [({ l with word := w % n.2.2 }, s.clock)] ∧
        (s.ecc.tests = [] → t.ecc.tests = [{ l with word := w % n.2.2 }]))) ∧
    (∀ l rest, s.ecc.tests = l :: rest →
      (repeated l s = false → After (exec (.targetedSelftestDone true) s) fun t =>
        alike [.pending, .snaps, .last, .clock, .era, .dram, .backup, .masters, .mbx, .keeper, .fw, .lfr, .opt, .keys] s t ∧
          t.ecc = { s.ecc with tests := rest } ∧
        (t.hdr (memPage l.mem l.bank)).testStatus = .pass) ∧
      (0x40 ≤ l.mem → tblGet 0 (bankKey l) s.ecc.spares + tblGet 0 (bankKey l) s.ecc.failed < 8 →
        After (exec (.targetedSelftestDone false) s) fun t =>
          alike [.pending, .snaps, .last, .clock, .era, .dram, .backup, .masters, .mbx, .keeper, .fw, .lfr, .opt, .keys] s t ∧ t.ecc.tests = rest ∧
          tblGet 0 (bankKey l) t.ecc.spares = tblGet 0 (bankKey l) s.ecc.spares + 1 ∧ NvItem.spares l.mem l.bank ∈ t.nvs.pend ∧
          intRawBit t pEcc 2 = true)) ∧
    (∀ m v, admits m pEcc 0x120 flipMemHandler v s = true → After (exec (.flipArm m v) s) fun t => t.last = .done ∧
      t.rp pEcc 0x120 = mergeFields (fieldsAt pEcc 0x120) (s.rp pEcc 0x120) v ∧ keepsRegs (writeRegs pEcc 0x120) s t ∧
      keeps [.regs, .last, .nvs] s t) ∧
    (∀ m v, bit v 16 = true → flipScope (bits v 0 8) = .none ∨ flipBits s = [] ∨ noFlip s = false → flipMemHandler.range m v s = true) ∧
    (s.fld (regAddr pMem 0x100) 0 2 < 2 →
      (∀ r n two ms, n ≤ 4096 → After (exec (.trainComplete (.done r n two ms)) s) fun t =>
        t.fld (regAddr pMem 0x100) 0 2 = 2 ∧ t.fld (regAddr pMem 0x100) 8 3 = r % 8 ∧ t.memSize = n * 2 ^ 20 ∧ intRawBit t pMem 0 = true ∧
        keepsRegs [regAddr pMem 0x100, regAddr pMem 0x104, regAddr pMem 0x118] s t ∧ keepsHdrs [pMem] s t ∧
        keeps [.regs, .hdrs, .links] s t) ∧
      (∀ step ms, After (exec (.trainComplete (.fail step ms)) s) fun t => t.fld (regAddr pMem 0x100) 0 2 = 3 ∧
        t.fld (regAddr pMem 0x100) 16 4 = step % 16 ∧ intRawBit t pMem 1 = true ∧
        keepsRegs [regAddr pMem 0x100, regAddr pMem 0x118] s t ∧ keepsHdrs [pMem] s t ∧ keeps [.regs, .hdrs, .links] s t)) ∧
    (∀ m, admits m pMem 0x10C retrainHandler (field 0 1 1) s = true → After (exec (.retrain m) s) fun t => t.last = .done ∧
      s.fld (regAddr pMem 0x100) 0 2 = 3 ∧ t.fld (regAddr pMem 0x100) 0 2 = 1 ∧
      keepsRegs [regAddr pMem 0x100, regAddr pPrs 0x110] s t ∧ keeps [.regs, .last] s t)

/-- Every step keeps the tables canonical: the registers, counters and headers list no entry that equals what is read without it, each address
once and in rising order, and so does LPDDR4X its written bytes. That reset has this form is part of `ResetState`. -/
def Obligations.TablesStayCanonical : Prop :=
  ∀ s t : State, s.canonical = true → step s = .next t → t.canonical = true
end

