-- ==== Sys2Proof/Laws/Bits.lean ====
section
/-!
SUPPORT. The laws of bit fields: what a field and a single bit read after a field was replaced, and byte strings.
-/

namespace Sys2Proof.Machine

/-- A bit after a field was replaced: inside the field it comes from the new value, outside it is the old bit. -/
theorem bit_setBits (v : Word) (lo w n i : Nat) (hi : i < 32) :
    bit (setBits v lo w n) i = if lo ≤ i ∧ i < lo + w then n.testBit (i - lo) else bit v i := by
  simp only [bit, setBits, fieldMask, BitVec.getLsbD_or, BitVec.getLsbD_and, BitVec.getLsbD_not, BitVec.getLsbD_shiftLeft,
    BitVec.getLsbD_setWidth, BitVec.getLsbD_allOnes, BitVec.getLsbD_ofNat]
  by_cases h1 : lo ≤ i
  · by_cases h2 : i < lo + w
    · have a : i - lo < w := by omega
      have b : i - lo < 32 := by omega
      have c : ¬ i < lo := by omega
      simp [h1, h2, a, b, c, hi]
    · have a : ¬ i - lo < w := by omega
      have c : ¬ i < lo := by omega
      simp [h2, a, c, hi]
  · have c : i < lo := by omega
    simp [h1, c, hi]

/-- One bit of a field. -/
theorem testBit_bits (v : Word) (lo w i : Nat) : (bits v lo w).testBit i = (decide (i < w) && v.getLsbD (lo + i)) := by
  simp [bits, BitVec.testBit_toNat]

/-- The field that was replaced. -/
theorem bits_setBits_same (v : Word) (lo w n : Nat) (h : lo + w ≤ 32) : bits (setBits v lo w n) lo w = n % 2 ^ w := by
  apply Nat.eq_of_testBit_eq
  intro i
  rw [testBit_bits, Nat.testBit_mod_two_pow]
  by_cases hi : i < w
  · have := bit_setBits v lo w n (lo + i) (by omega)
    simp only [bit] at this
    rw [this]
    have a : lo ≤ lo + i ∧ lo + i < lo + w := by omega
    simp [hi]
  · simp [hi]

/-- A field that does not meet the one that was replaced. -/
theorem bits_setBits_other (v : Word) {lo w n a b : Nat} (h : a + b ≤ lo ∨ lo + w ≤ a) (hb : a + b ≤ 32) :
    bits (setBits v lo w n) a b = bits v a b := by
  apply Nat.eq_of_testBit_eq
  intro i
  rw [testBit_bits, testBit_bits]
  by_cases hi : i < b
  · have := bit_setBits v lo w n (a + i) (by omega)
    simp only [bit] at this
    rw [this, if_neg (by omega)]
  · simp [hi]

/-- A bit outside the field that was replaced. -/
theorem bit_setBits_other (v : Word) {lo w n i : Nat} (h : i < lo ∨ lo + w ≤ i) (hi : i < 32) :
    bit (setBits v lo w n) i = bit v i := by
  rw [bit_setBits v lo w n i hi, if_neg (by omega)]

/-- A field is smaller than its width allows. -/
theorem bits_lt (v : Word) (lo w : Nat) : bits v lo w < 2 ^ w := (v.extractLsb' lo w).isLt

/-- A bit that was set. -/
theorem bit_or_field (v : Word) (i : Nat) (h : i < 32) : bit (v ||| field i 1 1) i = true := by
  simp [bit, field, h]

/-- Setting one bit leaves the others. -/
theorem bit_or_field_other (v : Word) {i j : Nat} (h : j ≠ i) : bit (v ||| field i 1 1) j = bit v j := by
  simp only [bit, field, BitVec.getLsbD_or, BitVec.getLsbD_shiftLeft, BitVec.getLsbD_setWidth, BitVec.getLsbD_ofNat]
  by_cases c : j < i
  · simp [c]
  · have : ¬ j - i < 1 := by omega
    simp [this]

/-- How many bytes a number is spelled with. -/
@[simp] theorem length_beBytes (k n : Nat) : (beBytes k n).length = k := by
  induction k with
  | zero => rfl
  | succ k ih => simp [beBytes, ih]

end Sys2Proof.Machine
end

