-- ==== Sys2Proof/Laws/Table.lean ====
section
/-!
SUPPORT. The laws of the sparse tables and of memory: a read after a write, and that a write keeps the canonical form.
-/

namespace Sys2Proof.Machine

variable {V : Type}

theorem tblGet_erase_same (d : V) (k : Nat) (t : Tbl V) : tblGet d k (tblErase k t) = d := by
  induction t with
  | nil => rfl
  | cons e t ih =>
    unfold tblErase
    split
    · exact ih
    · rename_i h
      simp only [tblGet, if_neg h, ih]

theorem tblGet_erase_other (d : V) {j k : Nat} (h : j ≠ k) (t : Tbl V) : tblGet d j (tblErase k t) = tblGet d j t := by
  induction t with
  | nil => rfl
  | cons e t ih =>
    unfold tblErase
    split
    · rename_i hk
      simp only [tblGet, ih, hk, if_neg (Ne.symm h)]
    · simp only [tblGet, ih]

theorem tblGet_insert_same (d v : V) (k : Nat) (t : Tbl V) : tblGet d k (tblInsert k v t) = v := by
  induction t with
  | nil => simp [tblInsert, tblGet]
  | cons e t ih =>
    unfold tblInsert
    split
    · simp [tblGet]
    · rename_i h
      have : e.1 ≠ k := by omega
      simp only [tblGet, if_neg this, ih]

theorem tblGet_insert_other (d v : V) {j k : Nat} (h : j ≠ k) (t : Tbl V) : tblGet d j (tblInsert k v t) = tblGet d j t := by
  induction t with
  | nil => simp [tblInsert, tblGet, Ne.symm h]
  | cons e t ih =>
    unfold tblInsert
    split
    · simp [tblGet, Ne.symm h]
    · simp only [tblGet, ih]

/-- A read of the key that was written. -/
@[simp] theorem tblGet_tblSet_same [DecidableEq V] (d v : V) (k : Nat) (t : Tbl V) : tblGet d k (tblSet d k v t) = v := by
  unfold tblSet
  split
  · rename_i h
    rw [tblGet_erase_same, h]
  · exact tblGet_insert_same d v k _

/-- A read of another key; the table's default may be the other key's own. -/
theorem tblGet_tblSet_other [DecidableEq V] (d d' v : V) {j k : Nat} (h : j ≠ k) (t : Tbl V) :
    tblGet d j (tblSet d' k v t) = tblGet d j t := by
  unfold tblSet
  split
  · exact tblGet_erase_other d h t
  · rw [tblGet_insert_other d v h, tblGet_erase_other d h]

theorem tblWfFrom_mono [DecidableEq V] (d : Nat → V) {a b : Nat} (h : a ≤ b) (t : Tbl V) (w : tblWfFrom d b t = true) :
    tblWfFrom d a t = true := by
  cases t with
  | nil => rfl
  | cons e t =>
    simp only [tblWfFrom, Bool.and_eq_true, decide_eq_true_eq] at w ⊢
    exact ⟨⟨by omega, w.1.2⟩, w.2⟩

theorem tblWfFrom_erase [DecidableEq V] (d : Nat → V) (k : Nat) : ∀ (a : Nat) (t : Tbl V), tblWfFrom d a t = true →
    tblWfFrom d a (tblErase k t) = true := by
  intro a t
  induction t generalizing a with
  | nil => intro _; rfl
  | cons e t ih =>
    intro w
    simp only [tblWfFrom, Bool.and_eq_true, decide_eq_true_eq] at w
    unfold tblErase
    split
    · exact tblWfFrom_mono d (by omega) _ (ih _ w.2)
    · simp only [tblWfFrom, Bool.and_eq_true, decide_eq_true_eq]
      exact ⟨w.1, ih _ w.2⟩

/-- No entry for a key. -/
def tblFree (k : Nat) (t : Tbl V) : Prop := ∀ e ∈ t, e.1 ≠ k

theorem tblFree_erase (k : Nat) (t : Tbl V) : tblFree k (tblErase k t) := by
  induction t with
  | nil => intro e h; cases h
  | cons e t ih =>
    unfold tblErase
    split
    · exact ih
    · rename_i h
      intro x hx
      cases hx with
      | head => exact h
      | tail _ hx => exact ih x hx

theorem tblWfFrom_insert [DecidableEq V] (d : Nat → V) (k : Nat) (v : V) (hv : v ≠ d k) : ∀ (a : Nat) (t : Tbl V), a ≤ k →
    tblFree k t → tblWfFrom d a t = true → tblWfFrom d a (tblInsert k v t) = true := by
  intro a t
  induction t generalizing a with
  | nil => intro h _ _; simp [tblInsert, tblWfFrom, h, hv]
  | cons e t ih =>
    intro h f w
    simp only [tblWfFrom, Bool.and_eq_true, decide_eq_true_eq] at w
    have hk : e.1 ≠ k := f e (List.Mem.head _)
    unfold tblInsert
    split
    · simp only [tblWfFrom, Bool.and_eq_true, decide_eq_true_eq]
      exact ⟨⟨h, hv⟩, ⟨by omega, w.1.2⟩, w.2⟩
    · simp only [tblWfFrom, Bool.and_eq_true, decide_eq_true_eq]
      exact ⟨w.1, ih _ (by omega) (fun x hx => f x (List.Mem.tail _ hx)) w.2⟩

/-- A write keeps the canonical form. -/
theorem tblWf_tblSet [DecidableEq V] (d : Nat → V) (k : Nat) (v : V) (t : Tbl V) (w : tblWf d t = true) :
    tblWf d (tblSet (d k) k v t) = true := by
  unfold tblWf tblSet at *
  split
  · exact tblWfFrom_erase d k 0 t w
  · rename_i h
    exact tblWfFrom_insert d k v h 0 _ (Nat.zero_le k) (tblFree_erase k t) (tblWfFrom_erase d k 0 t w)

/-! ### Memory -/

theorem Memory.find_erase_same (a : Nat) (m : Memory) : Memory.find a (tblErase a m) = none := by
  induction m with
  | nil => rfl
  | cons e t ih =>
    unfold tblErase
    split
    · exact ih
    · rename_i h
      simp only [Memory.find, if_neg h, ih]

theorem Memory.find_erase_other {a b : Nat} (h : b ≠ a) (m : Memory) : Memory.find b (tblErase a m) = Memory.find b m := by
  induction m with
  | nil => rfl
  | cons e t ih =>
    unfold tblErase
    split
    · rename_i hk
      simp only [Memory.find, ih, hk, if_neg (Ne.symm h)]
    · simp only [Memory.find, ih]

theorem Memory.find_insert_same (a : Nat) (v : Byte) (m : Memory) : Memory.find a (tblInsert a v m) = some v := by
  induction m with
  | nil => simp [tblInsert, Memory.find]
  | cons e t ih =>
    unfold tblInsert
    split
    · simp [Memory.find]
    · rename_i h
      have : e.1 ≠ a := by omega
      simp only [Memory.find, if_neg this, ih]

theorem Memory.find_insert_other {a b : Nat} (h : b ≠ a) (v : Byte) (m : Memory) :
    Memory.find b (tblInsert a v m) = Memory.find b m := by
  induction m with
  | nil => simp [tblInsert, Memory.find, Ne.symm h]
  | cons e t ih =>
    unfold tblInsert
    split
    · simp [Memory.find, Ne.symm h]
    · simp only [Memory.find, ih]

/-- The byte that was written. -/
@[simp] theorem Memory.find_put_same (a : Nat) (b : Byte) (m : Memory) : (Memory.put a b m).find a = some b :=
  Memory.find_insert_same a b _

/-- Every other byte. -/
theorem Memory.find_put_other {a c : Nat} (h : c ≠ a) (b : Byte) (m : Memory) : (Memory.put a b m).find c = m.find c := by
  unfold Memory.put
  rw [Memory.find_insert_other h, Memory.find_erase_other h]

theorem Memory.wfFrom_mono {a b : Nat} (h : a ≤ b) (m : Memory) (w : Memory.wfFrom b m = true) : Memory.wfFrom a m = true := by
  cases m with
  | nil => rfl
  | cons e t =>
    simp only [Memory.wfFrom, Bool.and_eq_true, decide_eq_true_eq] at w ⊢
    exact ⟨by omega, w.2⟩

theorem Memory.wfFrom_erase (k : Nat) : ∀ (a : Nat) (m : Memory), Memory.wfFrom a m = true →
    Memory.wfFrom a (tblErase k m) = true := by
  intro a m
  induction m generalizing a with
  | nil => intro _; rfl
  | cons e t ih =>
    intro w
    simp only [Memory.wfFrom, Bool.and_eq_true, decide_eq_true_eq] at w
    unfold tblErase
    split
    · exact Memory.wfFrom_mono (by omega) _ (ih _ w.2)
    · simp only [Memory.wfFrom, Bool.and_eq_true, decide_eq_true_eq]
      exact ⟨w.1, ih _ w.2⟩

theorem Memory.wfFrom_insert (k : Nat) (v : Byte) : ∀ (a : Nat) (m : Memory), a ≤ k → tblFree k m →
    Memory.wfFrom a m = true → Memory.wfFrom a (tblInsert k v m) = true := by
  intro a m
  induction m generalizing a with
  | nil => intro h _ _; simp [tblInsert, Memory.wfFrom, h]
  | cons e t ih =>
    intro h f w
    simp only [Memory.wfFrom, Bool.and_eq_true, decide_eq_true_eq] at w
    have hk : e.1 ≠ k := f e (List.Mem.head _)
    unfold tblInsert
    split
    · simp only [Memory.wfFrom, Bool.and_eq_true, decide_eq_true_eq]
      exact ⟨h, by omega, w.2⟩
    · simp only [Memory.wfFrom, Bool.and_eq_true, decide_eq_true_eq]
      exact ⟨w.1, ih _ (by omega) (fun x hx => f x (List.Mem.tail _ hx)) w.2⟩

/-- A write of a byte keeps the canonical form of memory. -/
theorem Memory.wf_put (a : Nat) (b : Byte) (m : Memory) (w : m.wf = true) : (Memory.put a b m).wf = true :=
  Memory.wfFrom_insert a b 0 _ (Nat.zero_le a) (tblFree_erase a m) (Memory.wfFrom_erase a 0 m w)

/-- Writing bytes keeps the canonical form; what else changes memory empties it. -/
theorem State.setDramBytes_wf (l : List Byte) : ∀ (a : Nat) (s : State), s.dram.wf = true → (s.setDramBytes a l).dram.wf = true := by
  induction l with
  | nil => intro a s w; exact w
  | cons b t ih =>
    intro a s w
    exact ih (a + 1) (s.setDramByte a b) (Memory.wf_put a b s.dram w)

/-- A write of a word keeps the canonical form. -/
theorem State.setDramWord_wf (a : Nat) (v : Word) (s : State) (w : s.dram.wf = true) : (s.setDramWord a v).dram.wf = true :=
  State.setDramBytes_wf _ a s w

/-- A written byte leaves every other byte alone. -/
theorem State.setDramByte_other {a c : Nat} (h : c ≠ a) (b : Byte) (s : State) : (s.setDramByte a b).dramByte c = s.dramByte c := by
  unfold State.setDramByte State.dramByte
  rw [Memory.find_put_other h]

theorem State.setDramBytes_below (l : List Byte) : ∀ (a c : Nat) (s : State), c < a →
    (s.setDramBytes a l).dramByte c = s.dramByte c := by
  induction l with
  | nil => intro a c s _; rfl
  | cons b t ih =>
    intro a c s h
    exact (ih (a + 1) c (s.setDramByte a b) (by omega)).trans (State.setDramByte_other (by omega) b s)

theorem State.setDramBytes_above (l : List Byte) : ∀ (a c : Nat) (s : State), a + l.length ≤ c →
    (s.setDramBytes a l).dramByte c = s.dramByte c := by
  induction l with
  | nil => intro a c s _; rfl
  | cons b t ih =>
    intro a c s h
    simp only [List.length_cons] at h
    exact (ih (a + 1) c (s.setDramByte a b) (by omega)).trans (State.setDramByte_other (by omega) b s)

/-- Every byte outside a written word reads as before. -/
theorem State.setDramWord_frame (a c : Nat) (v : Word) (s : State) (h : c < a ∨ a + 4 ≤ c) :
    (s.setDramWord a v).dramByte c = s.dramByte c := by
  cases h with
  | inl h => exact State.setDramBytes_below _ a c s h
  | inr h => exact State.setDramBytes_above _ a c s (by simpa [beBytes] using h)

end Sys2Proof.Machine
end

