-- ==== Sys2Proof/Laws/State.lean ====
section
/-!
SUPPORT. What each update of the state leaves alone, field by field, and what a read gives after a write.
-/

namespace Sys2Proof.Machine

variable (s : State)

/-! ### wr -/

@[simp] theorem State.wr_pending (a : Nat) (v : Word) : (s.wr a v).pending = s.pending := rfl
@[simp] theorem State.wr_ctrs (a : Nat) (v : Word) : (s.wr a v).ctrs = s.ctrs := rfl
@[simp] theorem State.wr_snaps (a : Nat) (v : Word) : (s.wr a v).snaps = s.snaps := rfl
@[simp] theorem State.wr_hdrs (a : Nat) (v : Word) : (s.wr a v).hdrs = s.hdrs := rfl
@[simp] theorem State.wr_last (a : Nat) (v : Word) : (s.wr a v).last = s.last := rfl
@[simp] theorem State.wr_out (a : Nat) (v : Word) : (s.wr a v).out = s.out := rfl
@[simp] theorem State.wr_free (a : Nat) (v : Word) : (s.wr a v).free = s.free := rfl
@[simp] theorem State.wr_clock (a : Nat) (v : Word) : (s.wr a v).clock = s.clock := rfl
@[simp] theorem State.wr_era (a : Nat) (v : Word) : (s.wr a v).era = s.era := rfl
@[simp] theorem State.wr_dram (a : Nat) (v : Word) : (s.wr a v).dram = s.dram := rfl
@[simp] theorem State.wr_power (a : Nat) (v : Word) : (s.wr a v).power = s.power := rfl
@[simp] theorem State.wr_backup (a : Nat) (v : Word) : (s.wr a v).backup = s.backup := rfl
@[simp] theorem State.wr_nvs (a : Nat) (v : Word) : (s.wr a v).nvs = s.nvs := rfl
@[simp] theorem State.wr_links (a : Nat) (v : Word) : (s.wr a v).links = s.links := rfl
@[simp] theorem State.wr_masters (a : Nat) (v : Word) : (s.wr a v).masters = s.masters := rfl
@[simp] theorem State.wr_mbx (a : Nat) (v : Word) : (s.wr a v).mbx = s.mbx := rfl
@[simp] theorem State.wr_keeper (a : Nat) (v : Word) : (s.wr a v).keeper = s.keeper := rfl
@[simp] theorem State.wr_fw (a : Nat) (v : Word) : (s.wr a v).fw = s.fw := rfl
@[simp] theorem State.wr_log (a : Nat) (v : Word) : (s.wr a v).log = s.log := rfl
@[simp] theorem State.wr_cls (a : Nat) (v : Word) : (s.wr a v).cls = s.cls := rfl
@[simp] theorem State.wr_buf (a : Nat) (v : Word) : (s.wr a v).buf = s.buf := rfl
@[simp] theorem State.wr_mac (a : Nat) (v : Word) : (s.wr a v).mac = s.mac := rfl
@[simp] theorem State.wr_tsu (a : Nat) (v : Word) : (s.wr a v).tsu = s.tsu := rfl
@[simp] theorem State.wr_chk (a : Nat) (v : Word) : (s.wr a v).chk = s.chk := rfl
@[simp] theorem State.wr_seqs (a : Nat) (v : Word) : (s.wr a v).seqs = s.seqs := rfl
@[simp] theorem State.wr_ecc (a : Nat) (v : Word) : (s.wr a v).ecc = s.ecc := rfl
@[simp] theorem State.wr_lfr (a : Nat) (v : Word) : (s.wr a v).lfr = s.lfr := rfl
@[simp] theorem State.wr_act (a : Nat) (v : Word) : (s.wr a v).act = s.act := rfl
@[simp] theorem State.wr_btx (a : Nat) (v : Word) : (s.wr a v).btx = s.btx := rfl
@[simp] theorem State.wr_psw (a : Nat) (v : Word) : (s.wr a v).psw = s.psw := rfl
@[simp] theorem State.wr_opt (a : Nat) (v : Word) : (s.wr a v).opt = s.opt := rfl
@[simp] theorem State.wr_keys (a : Nat) (v : Word) : (s.wr a v).keys = s.keys := rfl
@[simp] theorem State.wr_omciUpQ (a : Nat) (v : Word) : (s.wr a v).omciUpQ = s.omciUpQ := rfl
@[simp] theorem State.wr_seg (a : Nat) (v : Word) : (s.wr a v).seg = s.seg := rfl

/-! ### setFld -/

@[simp] theorem State.setFld_pending (a lo w n : Nat) : (s.setFld a lo w n).pending = s.pending := rfl
@[simp] theorem State.setFld_ctrs (a lo w n : Nat) : (s.setFld a lo w n).ctrs = s.ctrs := rfl
@[simp] theorem State.setFld_snaps (a lo w n : Nat) : (s.setFld a lo w n).snaps = s.snaps := rfl
@[simp] theorem State.setFld_hdrs (a lo w n : Nat) : (s.setFld a lo w n).hdrs = s.hdrs := rfl
@[simp] theorem State.setFld_last (a lo w n : Nat) : (s.setFld a lo w n).last = s.last := rfl
@[simp] theorem State.setFld_out (a lo w n : Nat) : (s.setFld a lo w n).out = s.out := rfl
@[simp] theorem State.setFld_free (a lo w n : Nat) : (s.setFld a lo w n).free = s.free := rfl
@[simp] theorem State.setFld_clock (a lo w n : Nat) : (s.setFld a lo w n).clock = s.clock := rfl
@[simp] theorem State.setFld_era (a lo w n : Nat) : (s.setFld a lo w n).era = s.era := rfl
@[simp] theorem State.setFld_dram (a lo w n : Nat) : (s.setFld a lo w n).dram = s.dram := rfl
@[simp] theorem State.setFld_power (a lo w n : Nat) : (s.setFld a lo w n).power = s.power := rfl
@[simp] theorem State.setFld_backup (a lo w n : Nat) : (s.setFld a lo w n).backup = s.backup := rfl
@[simp] theorem State.setFld_nvs (a lo w n : Nat) : (s.setFld a lo w n).nvs = s.nvs := rfl
@[simp] theorem State.setFld_links (a lo w n : Nat) : (s.setFld a lo w n).links = s.links := rfl
@[simp] theorem State.setFld_masters (a lo w n : Nat) : (s.setFld a lo w n).masters = s.masters := rfl
@[simp] theorem State.setFld_mbx (a lo w n : Nat) : (s.setFld a lo w n).mbx = s.mbx := rfl
@[simp] theorem State.setFld_keeper (a lo w n : Nat) : (s.setFld a lo w n).keeper = s.keeper := rfl
@[simp] theorem State.setFld_fw (a lo w n : Nat) : (s.setFld a lo w n).fw = s.fw := rfl
@[simp] theorem State.setFld_log (a lo w n : Nat) : (s.setFld a lo w n).log = s.log := rfl
@[simp] theorem State.setFld_cls (a lo w n : Nat) : (s.setFld a lo w n).cls = s.cls := rfl
@[simp] theorem State.setFld_buf (a lo w n : Nat) : (s.setFld a lo w n).buf = s.buf := rfl
@[simp] theorem State.setFld_mac (a lo w n : Nat) : (s.setFld a lo w n).mac = s.mac := rfl
@[simp] theorem State.setFld_tsu (a lo w n : Nat) : (s.setFld a lo w n).tsu = s.tsu := rfl
@[simp] theorem State.setFld_chk (a lo w n : Nat) : (s.setFld a lo w n).chk = s.chk := rfl
@[simp] theorem State.setFld_seqs (a lo w n : Nat) : (s.setFld a lo w n).seqs = s.seqs := rfl
@[simp] theorem State.setFld_ecc (a lo w n : Nat) : (s.setFld a lo w n).ecc = s.ecc := rfl
@[simp] theorem State.setFld_lfr (a lo w n : Nat) : (s.setFld a lo w n).lfr = s.lfr := rfl
@[simp] theorem State.setFld_act (a lo w n : Nat) : (s.setFld a lo w n).act = s.act := rfl
@[simp] theorem State.setFld_btx (a lo w n : Nat) : (s.setFld a lo w n).btx = s.btx := rfl
@[simp] theorem State.setFld_psw (a lo w n : Nat) : (s.setFld a lo w n).psw = s.psw := rfl
@[simp] theorem State.setFld_opt (a lo w n : Nat) : (s.setFld a lo w n).opt = s.opt := rfl
@[simp] theorem State.setFld_keys (a lo w n : Nat) : (s.setFld a lo w n).keys = s.keys := rfl
@[simp] theorem State.setFld_omciUpQ (a lo w n : Nat) : (s.setFld a lo w n).omciUpQ = s.omciUpQ := rfl
@[simp] theorem State.setFld_seg (a lo w n : Nat) : (s.setFld a lo w n).seg = s.seg := rfl

/-! ### setFlag -/

@[simp] theorem State.setFlag_pending (a i : Nat) (b : Bool) : (s.setFlag a i b).pending = s.pending := rfl
@[simp] theorem State.setFlag_ctrs (a i : Nat) (b : Bool) : (s.setFlag a i b).ctrs = s.ctrs := rfl
@[simp] theorem State.setFlag_snaps (a i : Nat) (b : Bool) : (s.setFlag a i b).snaps = s.snaps := rfl
@[simp] theorem State.setFlag_hdrs (a i : Nat) (b : Bool) : (s.setFlag a i b).hdrs = s.hdrs := rfl
@[simp] theorem State.setFlag_last (a i : Nat) (b : Bool) : (s.setFlag a i b).last = s.last := rfl
@[simp] theorem State.setFlag_out (a i : Nat) (b : Bool) : (s.setFlag a i b).out = s.out := rfl
@[simp] theorem State.setFlag_free (a i : Nat) (b : Bool) : (s.setFlag a i b).free = s.free := rfl
@[simp] theorem State.setFlag_clock (a i : Nat) (b : Bool) : (s.setFlag a i b).clock = s.clock := rfl
@[simp] theorem State.setFlag_era (a i : Nat) (b : Bool) : (s.setFlag a i b).era = s.era := rfl
@[simp] theorem State.setFlag_dram (a i : Nat) (b : Bool) : (s.setFlag a i b).dram = s.dram := rfl
@[simp] theorem State.setFlag_power (a i : Nat) (b : Bool) : (s.setFlag a i b).power = s.power := rfl
@[simp] theorem State.setFlag_backup (a i : Nat) (b : Bool) : (s.setFlag a i b).backup = s.backup := rfl
@[simp] theorem State.setFlag_nvs (a i : Nat) (b : Bool) : (s.setFlag a i b).nvs = s.nvs := rfl
@[simp] theorem State.setFlag_links (a i : Nat) (b : Bool) : (s.setFlag a i b).links = s.links := rfl
@[simp] theorem State.setFlag_masters (a i : Nat) (b : Bool) : (s.setFlag a i b).masters = s.masters := rfl
@[simp] theorem State.setFlag_mbx (a i : Nat) (b : Bool) : (s.setFlag a i b).mbx = s.mbx := rfl
@[simp] theorem State.setFlag_keeper (a i : Nat) (b : Bool) : (s.setFlag a i b).keeper = s.keeper := rfl
@[simp] theorem State.setFlag_fw (a i : Nat) (b : Bool) : (s.setFlag a i b).fw = s.fw := rfl
@[simp] theorem State.setFlag_log (a i : Nat) (b : Bool) : (s.setFlag a i b).log = s.log := rfl
@[simp] theorem State.setFlag_cls (a i : Nat) (b : Bool) : (s.setFlag a i b).cls = s.cls := rfl
@[simp] theorem State.setFlag_buf (a i : Nat) (b : Bool) : (s.setFlag a i b).buf = s.buf := rfl
@[simp] theorem State.setFlag_mac (a i : Nat) (b : Bool) : (s.setFlag a i b).mac = s.mac := rfl
@[simp] theorem State.setFlag_tsu (a i : Nat) (b : Bool) : (s.setFlag a i b).tsu = s.tsu := rfl
@[simp] theorem State.setFlag_chk (a i : Nat) (b : Bool) : (s.setFlag a i b).chk = s.chk := rfl
@[simp] theorem State.setFlag_seqs (a i : Nat) (b : Bool) : (s.setFlag a i b).seqs = s.seqs := rfl
@[simp] theorem State.setFlag_ecc (a i : Nat) (b : Bool) : (s.setFlag a i b).ecc = s.ecc := rfl
@[simp] theorem State.setFlag_lfr (a i : Nat) (b : Bool) : (s.setFlag a i b).lfr = s.lfr := rfl
@[simp] theorem State.setFlag_act (a i : Nat) (b : Bool) : (s.setFlag a i b).act = s.act := rfl
@[simp] theorem State.setFlag_btx (a i : Nat) (b : Bool) : (s.setFlag a i b).btx = s.btx := rfl
@[simp] theorem State.setFlag_psw (a i : Nat) (b : Bool) : (s.setFlag a i b).psw = s.psw := rfl
@[simp] theorem State.setFlag_opt (a i : Nat) (b : Bool) : (s.setFlag a i b).opt = s.opt := rfl
@[simp] theorem State.setFlag_keys (a i : Nat) (b : Bool) : (s.setFlag a i b).keys = s.keys := rfl
@[simp] theorem State.setFlag_omciUpQ (a i : Nat) (b : Bool) : (s.setFlag a i b).omciUpQ = s.omciUpQ := rfl
@[simp] theorem State.setFlag_seg (a i : Nat) (b : Bool) : (s.setFlag a i b).seg = s.seg := rfl

/-! ### bump -/

@[simp] theorem State.bump_pending (a k : Nat) : (s.bump a k).pending = s.pending := rfl
@[simp] theorem State.bump_ctrs (a k : Nat) : (s.bump a k).ctrs = s.ctrs := rfl
@[simp] theorem State.bump_snaps (a k : Nat) : (s.bump a k).snaps = s.snaps := rfl
@[simp] theorem State.bump_hdrs (a k : Nat) : (s.bump a k).hdrs = s.hdrs := rfl
@[simp] theorem State.bump_last (a k : Nat) : (s.bump a k).last = s.last := rfl
@[simp] theorem State.bump_out (a k : Nat) : (s.bump a k).out = s.out := rfl
@[simp] theorem State.bump_free (a k : Nat) : (s.bump a k).free = s.free := rfl
@[simp] theorem State.bump_clock (a k : Nat) : (s.bump a k).clock = s.clock := rfl
@[simp] theorem State.bump_era (a k : Nat) : (s.bump a k).era = s.era := rfl
@[simp] theorem State.bump_dram (a k : Nat) : (s.bump a k).dram = s.dram := rfl
@[simp] theorem State.bump_power (a k : Nat) : (s.bump a k).power = s.power := rfl
@[simp] theorem State.bump_backup (a k : Nat) : (s.bump a k).backup = s.backup := rfl
@[simp] theorem State.bump_nvs (a k : Nat) : (s.bump a k).nvs = s.nvs := rfl
@[simp] theorem State.bump_links (a k : Nat) : (s.bump a k).links = s.links := rfl
@[simp] theorem State.bump_masters (a k : Nat) : (s.bump a k).masters = s.masters := rfl
@[simp] theorem State.bump_mbx (a k : Nat) : (s.bump a k).mbx = s.mbx := rfl
@[simp] theorem State.bump_keeper (a k : Nat) : (s.bump a k).keeper = s.keeper := rfl
@[simp] theorem State.bump_fw (a k : Nat) : (s.bump a k).fw = s.fw := rfl
@[simp] theorem State.bump_log (a k : Nat) : (s.bump a k).log = s.log := rfl
@[simp] theorem State.bump_cls (a k : Nat) : (s.bump a k).cls = s.cls := rfl
@[simp] theorem State.bump_buf (a k : Nat) : (s.bump a k).buf = s.buf := rfl
@[simp] theorem State.bump_mac (a k : Nat) : (s.bump a k).mac = s.mac := rfl
@[simp] theorem State.bump_tsu (a k : Nat) : (s.bump a k).tsu = s.tsu := rfl
@[simp] theorem State.bump_chk (a k : Nat) : (s.bump a k).chk = s.chk := rfl
@[simp] theorem State.bump_seqs (a k : Nat) : (s.bump a k).seqs = s.seqs := rfl
@[simp] theorem State.bump_ecc (a k : Nat) : (s.bump a k).ecc = s.ecc := rfl
@[simp] theorem State.bump_lfr (a k : Nat) : (s.bump a k).lfr = s.lfr := rfl
@[simp] theorem State.bump_act (a k : Nat) : (s.bump a k).act = s.act := rfl
@[simp] theorem State.bump_btx (a k : Nat) : (s.bump a k).btx = s.btx := rfl
@[simp] theorem State.bump_psw (a k : Nat) : (s.bump a k).psw = s.psw := rfl
@[simp] theorem State.bump_opt (a k : Nat) : (s.bump a k).opt = s.opt := rfl
@[simp] theorem State.bump_keys (a k : Nat) : (s.bump a k).keys = s.keys := rfl
@[simp] theorem State.bump_omciUpQ (a k : Nat) : (s.bump a k).omciUpQ = s.omciUpQ := rfl
@[simp] theorem State.bump_seg (a k : Nat) : (s.bump a k).seg = s.seg := rfl

/-! ### bumpFld -/

@[simp] theorem State.bumpFld_pending (a lo w k : Nat) : (s.bumpFld a lo w k).pending = s.pending := rfl
@[simp] theorem State.bumpFld_ctrs (a lo w k : Nat) : (s.bumpFld a lo w k).ctrs = s.ctrs := rfl
@[simp] theorem State.bumpFld_snaps (a lo w k : Nat) : (s.bumpFld a lo w k).snaps = s.snaps := rfl
@[simp] theorem State.bumpFld_hdrs (a lo w k : Nat) : (s.bumpFld a lo w k).hdrs = s.hdrs := rfl
@[simp] theorem State.bumpFld_last (a lo w k : Nat) : (s.bumpFld a lo w k).last = s.last := rfl
@[simp] theorem State.bumpFld_out (a lo w k : Nat) : (s.bumpFld a lo w k).out = s.out := rfl
@[simp] theorem State.bumpFld_free (a lo w k : Nat) : (s.bumpFld a lo w k).free = s.free := rfl
@[simp] theorem State.bumpFld_clock (a lo w k : Nat) : (s.bumpFld a lo w k).clock = s.clock := rfl
@[simp] theorem State.bumpFld_era (a lo w k : Nat) : (s.bumpFld a lo w k).era = s.era := rfl
@[simp] theorem State.bumpFld_dram (a lo w k : Nat) : (s.bumpFld a lo w k).dram = s.dram := rfl
@[simp] theorem State.bumpFld_power (a lo w k : Nat) : (s.bumpFld a lo w k).power = s.power := rfl
@[simp] theorem State.bumpFld_backup (a lo w k : Nat) : (s.bumpFld a lo w k).backup = s.backup := rfl
@[simp] theorem State.bumpFld_nvs (a lo w k : Nat) : (s.bumpFld a lo w k).nvs = s.nvs := rfl
@[simp] theorem State.bumpFld_links (a lo w k : Nat) : (s.bumpFld a lo w k).links = s.links := rfl
@[simp] theorem State.bumpFld_masters (a lo w k : Nat) : (s.bumpFld a lo w k).masters = s.masters := rfl
@[simp] theorem State.bumpFld_mbx (a lo w k : Nat) : (s.bumpFld a lo w k).mbx = s.mbx := rfl
@[simp] theorem State.bumpFld_keeper (a lo w k : Nat) : (s.bumpFld a lo w k).keeper = s.keeper := rfl
@[simp] theorem State.bumpFld_fw (a lo w k : Nat) : (s.bumpFld a lo w k).fw = s.fw := rfl
@[simp] theorem State.bumpFld_log (a lo w k : Nat) : (s.bumpFld a lo w k).log = s.log := rfl
@[simp] theorem State.bumpFld_cls (a lo w k : Nat) : (s.bumpFld a lo w k).cls = s.cls := rfl
@[simp] theorem State.bumpFld_buf (a lo w k : Nat) : (s.bumpFld a lo w k).buf = s.buf := rfl
@[simp] theorem State.bumpFld_mac (a lo w k : Nat) : (s.bumpFld a lo w k).mac = s.mac := rfl
@[simp] theorem State.bumpFld_tsu (a lo w k : Nat) : (s.bumpFld a lo w k).tsu = s.tsu := rfl
@[simp] theorem State.bumpFld_chk (a lo w k : Nat) : (s.bumpFld a lo w k).chk = s.chk := rfl
@[simp] theorem State.bumpFld_seqs (a lo w k : Nat) : (s.bumpFld a lo w k).seqs = s.seqs := rfl
@[simp] theorem State.bumpFld_ecc (a lo w k : Nat) : (s.bumpFld a lo w k).ecc = s.ecc := rfl
@[simp] theorem State.bumpFld_lfr (a lo w k : Nat) : (s.bumpFld a lo w k).lfr = s.lfr := rfl
@[simp] theorem State.bumpFld_act (a lo w k : Nat) : (s.bumpFld a lo w k).act = s.act := rfl
@[simp] theorem State.bumpFld_btx (a lo w k : Nat) : (s.bumpFld a lo w k).btx = s.btx := rfl
@[simp] theorem State.bumpFld_psw (a lo w k : Nat) : (s.bumpFld a lo w k).psw = s.psw := rfl
@[simp] theorem State.bumpFld_opt (a lo w k : Nat) : (s.bumpFld a lo w k).opt = s.opt := rfl
@[simp] theorem State.bumpFld_keys (a lo w k : Nat) : (s.bumpFld a lo w k).keys = s.keys := rfl
@[simp] theorem State.bumpFld_omciUpQ (a lo w k : Nat) : (s.bumpFld a lo w k).omciUpQ = s.omciUpQ := rfl
@[simp] theorem State.bumpFld_seg (a lo w k : Nat) : (s.bumpFld a lo w k).seg = s.seg := rfl

/-! ### wp -/

@[simp] theorem State.wp_pending (p off : Nat) (v : Word) : (s.wp p off v).pending = s.pending := rfl
@[simp] theorem State.wp_ctrs (p off : Nat) (v : Word) : (s.wp p off v).ctrs = s.ctrs := rfl
@[simp] theorem State.wp_snaps (p off : Nat) (v : Word) : (s.wp p off v).snaps = s.snaps := rfl
@[simp] theorem State.wp_hdrs (p off : Nat) (v : Word) : (s.wp p off v).hdrs = s.hdrs := rfl
@[simp] theorem State.wp_last (p off : Nat) (v : Word) : (s.wp p off v).last = s.last := rfl
@[simp] theorem State.wp_out (p off : Nat) (v : Word) : (s.wp p off v).out = s.out := rfl
@[simp] theorem State.wp_free (p off : Nat) (v : Word) : (s.wp p off v).free = s.free := rfl
@[simp] theorem State.wp_clock (p off : Nat) (v : Word) : (s.wp p off v).clock = s.clock := rfl
@[simp] theorem State.wp_era (p off : Nat) (v : Word) : (s.wp p off v).era = s.era := rfl
@[simp] theorem State.wp_dram (p off : Nat) (v : Word) : (s.wp p off v).dram = s.dram := rfl
@[simp] theorem State.wp_power (p off : Nat) (v : Word) : (s.wp p off v).power = s.power := rfl
@[simp] theorem State.wp_backup (p off : Nat) (v : Word) : (s.wp p off v).backup = s.backup := rfl
@[simp] theorem State.wp_nvs (p off : Nat) (v : Word) : (s.wp p off v).nvs = s.nvs := rfl
@[simp] theorem State.wp_links (p off : Nat) (v : Word) : (s.wp p off v).links = s.links := rfl
@[simp] theorem State.wp_masters (p off : Nat) (v : Word) : (s.wp p off v).masters = s.masters := rfl
@[simp] theorem State.wp_mbx (p off : Nat) (v : Word) : (s.wp p off v).mbx = s.mbx := rfl
@[simp] theorem State.wp_keeper (p off : Nat) (v : Word) : (s.wp p off v).keeper = s.keeper := rfl
@[simp] theorem State.wp_fw (p off : Nat) (v : Word) : (s.wp p off v).fw = s.fw := rfl
@[simp] theorem State.wp_log (p off : Nat) (v : Word) : (s.wp p off v).log = s.log := rfl
@[simp] theorem State.wp_cls (p off : Nat) (v : Word) : (s.wp p off v).cls = s.cls := rfl
@[simp] theorem State.wp_buf (p off : Nat) (v : Word) : (s.wp p off v).buf = s.buf := rfl
@[simp] theorem State.wp_mac (p off : Nat) (v : Word) : (s.wp p off v).mac = s.mac := rfl
@[simp] theorem State.wp_tsu (p off : Nat) (v : Word) : (s.wp p off v).tsu = s.tsu := rfl
@[simp] theorem State.wp_chk (p off : Nat) (v : Word) : (s.wp p off v).chk = s.chk := rfl
@[simp] theorem State.wp_seqs (p off : Nat) (v : Word) : (s.wp p off v).seqs = s.seqs := rfl
@[simp] theorem State.wp_ecc (p off : Nat) (v : Word) : (s.wp p off v).ecc = s.ecc := rfl
@[simp] theorem State.wp_lfr (p off : Nat) (v : Word) : (s.wp p off v).lfr = s.lfr := rfl
@[simp] theorem State.wp_act (p off : Nat) (v : Word) : (s.wp p off v).act = s.act := rfl
@[simp] theorem State.wp_btx (p off : Nat) (v : Word) : (s.wp p off v).btx = s.btx := rfl
@[simp] theorem State.wp_psw (p off : Nat) (v : Word) : (s.wp p off v).psw = s.psw := rfl
@[simp] theorem State.wp_opt (p off : Nat) (v : Word) : (s.wp p off v).opt = s.opt := rfl
@[simp] theorem State.wp_keys (p off : Nat) (v : Word) : (s.wp p off v).keys = s.keys := rfl
@[simp] theorem State.wp_omciUpQ (p off : Nat) (v : Word) : (s.wp p off v).omciUpQ = s.omciUpQ := rfl
@[simp] theorem State.wp_seg (p off : Nat) (v : Word) : (s.wp p off v).seg = s.seg := rfl

/-! ### setHdr -/

@[simp] theorem State.setHdr_pending (p : Nat) (h : Hdr) : (s.setHdr p h).pending = s.pending := rfl
@[simp] theorem State.setHdr_regs (p : Nat) (h : Hdr) : (s.setHdr p h).regs = s.regs := rfl
@[simp] theorem State.setHdr_ctrs (p : Nat) (h : Hdr) : (s.setHdr p h).ctrs = s.ctrs := rfl
@[simp] theorem State.setHdr_snaps (p : Nat) (h : Hdr) : (s.setHdr p h).snaps = s.snaps := rfl
@[simp] theorem State.setHdr_last (p : Nat) (h : Hdr) : (s.setHdr p h).last = s.last := rfl
@[simp] theorem State.setHdr_out (p : Nat) (h : Hdr) : (s.setHdr p h).out = s.out := rfl
@[simp] theorem State.setHdr_free (p : Nat) (h : Hdr) : (s.setHdr p h).free = s.free := rfl
@[simp] theorem State.setHdr_clock (p : Nat) (h : Hdr) : (s.setHdr p h).clock = s.clock := rfl
@[simp] theorem State.setHdr_era (p : Nat) (h : Hdr) : (s.setHdr p h).era = s.era := rfl
@[simp] theorem State.setHdr_dram (p : Nat) (h : Hdr) : (s.setHdr p h).dram = s.dram := rfl
@[simp] theorem State.setHdr_power (p : Nat) (h : Hdr) : (s.setHdr p h).power = s.power := rfl
@[simp] theorem State.setHdr_backup (p : Nat) (h : Hdr) : (s.setHdr p h).backup = s.backup := rfl
@[simp] theorem State.setHdr_nvs (p : Nat) (h : Hdr) : (s.setHdr p h).nvs = s.nvs := rfl
@[simp] theorem State.setHdr_links (p : Nat) (h : Hdr) : (s.setHdr p h).links = s.links := rfl
@[simp] theorem State.setHdr_masters (p : Nat) (h : Hdr) : (s.setHdr p h).masters = s.masters := rfl
@[simp] theorem State.setHdr_mbx (p : Nat) (h : Hdr) : (s.setHdr p h).mbx = s.mbx := rfl
@[simp] theorem State.setHdr_keeper (p : Nat) (h : Hdr) : (s.setHdr p h).keeper = s.keeper := rfl
@[simp] theorem State.setHdr_fw (p : Nat) (h : Hdr) : (s.setHdr p h).fw = s.fw := rfl
@[simp] theorem State.setHdr_log (p : Nat) (h : Hdr) : (s.setHdr p h).log = s.log := rfl
@[simp] theorem State.setHdr_cls (p : Nat) (h : Hdr) : (s.setHdr p h).cls = s.cls := rfl
@[simp] theorem State.setHdr_buf (p : Nat) (h : Hdr) : (s.setHdr p h).buf = s.buf := rfl
@[simp] theorem State.setHdr_mac (p : Nat) (h : Hdr) : (s.setHdr p h).mac = s.mac := rfl
@[simp] theorem State.setHdr_tsu (p : Nat) (h : Hdr) : (s.setHdr p h).tsu = s.tsu := rfl
@[simp] theorem State.setHdr_chk (p : Nat) (h : Hdr) : (s.setHdr p h).chk = s.chk := rfl
@[simp] theorem State.setHdr_seqs (p : Nat) (h : Hdr) : (s.setHdr p h).seqs = s.seqs := rfl
@[simp] theorem State.setHdr_ecc (p : Nat) (h : Hdr) : (s.setHdr p h).ecc = s.ecc := rfl
@[simp] theorem State.setHdr_lfr (p : Nat) (h : Hdr) : (s.setHdr p h).lfr = s.lfr := rfl
@[simp] theorem State.setHdr_act (p : Nat) (h : Hdr) : (s.setHdr p h).act = s.act := rfl
@[simp] theorem State.setHdr_btx (p : Nat) (h : Hdr) : (s.setHdr p h).btx = s.btx := rfl
@[simp] theorem State.setHdr_psw (p : Nat) (h : Hdr) : (s.setHdr p h).psw = s.psw := rfl
@[simp] theorem State.setHdr_opt (p : Nat) (h : Hdr) : (s.setHdr p h).opt = s.opt := rfl
@[simp] theorem State.setHdr_keys (p : Nat) (h : Hdr) : (s.setHdr p h).keys = s.keys := rfl
@[simp] theorem State.setHdr_omciUpQ (p : Nat) (h : Hdr) : (s.setHdr p h).omciUpQ = s.omciUpQ := rfl
@[simp] theorem State.setHdr_seg (p : Nat) (h : Hdr) : (s.setHdr p h).seg = s.seg := rfl

/-! ### setCtr -/

@[simp] theorem State.setCtr_pending (a n : Nat) : (s.setCtr a n).pending = s.pending := rfl
@[simp] theorem State.setCtr_regs (a n : Nat) : (s.setCtr a n).regs = s.regs := rfl
@[simp] theorem State.setCtr_snaps (a n : Nat) : (s.setCtr a n).snaps = s.snaps := rfl
@[simp] theorem State.setCtr_hdrs (a n : Nat) : (s.setCtr a n).hdrs = s.hdrs := rfl
@[simp] theorem State.setCtr_last (a n : Nat) : (s.setCtr a n).last = s.last := rfl
@[simp] theorem State.setCtr_out (a n : Nat) : (s.setCtr a n).out = s.out := rfl
@[simp] theorem State.setCtr_free (a n : Nat) : (s.setCtr a n).free = s.free := rfl
@[simp] theorem State.setCtr_clock (a n : Nat) : (s.setCtr a n).clock = s.clock := rfl
@[simp] theorem State.setCtr_era (a n : Nat) : (s.setCtr a n).era = s.era := rfl
@[simp] theorem State.setCtr_dram (a n : Nat) : (s.setCtr a n).dram = s.dram := rfl
@[simp] theorem State.setCtr_power (a n : Nat) : (s.setCtr a n).power = s.power := rfl
@[simp] theorem State.setCtr_backup (a n : Nat) : (s.setCtr a n).backup = s.backup := rfl
@[simp] theorem State.setCtr_nvs (a n : Nat) : (s.setCtr a n).nvs = s.nvs := rfl
@[simp] theorem State.setCtr_links (a n : Nat) : (s.setCtr a n).links = s.links := rfl
@[simp] theorem State.setCtr_masters (a n : Nat) : (s.setCtr a n).masters = s.masters := rfl
@[simp] theorem State.setCtr_mbx (a n : Nat) : (s.setCtr a n).mbx = s.mbx := rfl
@[simp] theorem State.setCtr_keeper (a n : Nat) : (s.setCtr a n).keeper = s.keeper := rfl
@[simp] theorem State.setCtr_fw (a n : Nat) : (s.setCtr a n).fw = s.fw := rfl
@[simp] theorem State.setCtr_log (a n : Nat) : (s.setCtr a n).log = s.log := rfl
@[simp] theorem State.setCtr_cls (a n : Nat) : (s.setCtr a n).cls = s.cls := rfl
@[simp] theorem State.setCtr_buf (a n : Nat) : (s.setCtr a n).buf = s.buf := rfl
@[simp] theorem State.setCtr_mac (a n : Nat) : (s.setCtr a n).mac = s.mac := rfl
@[simp] theorem State.setCtr_tsu (a n : Nat) : (s.setCtr a n).tsu = s.tsu := rfl
@[simp] theorem State.setCtr_chk (a n : Nat) : (s.setCtr a n).chk = s.chk := rfl
@[simp] theorem State.setCtr_seqs (a n : Nat) : (s.setCtr a n).seqs = s.seqs := rfl
@[simp] theorem State.setCtr_ecc (a n : Nat) : (s.setCtr a n).ecc = s.ecc := rfl
@[simp] theorem State.setCtr_lfr (a n : Nat) : (s.setCtr a n).lfr = s.lfr := rfl
@[simp] theorem State.setCtr_act (a n : Nat) : (s.setCtr a n).act = s.act := rfl
@[simp] theorem State.setCtr_btx (a n : Nat) : (s.setCtr a n).btx = s.btx := rfl
@[simp] theorem State.setCtr_psw (a n : Nat) : (s.setCtr a n).psw = s.psw := rfl
@[simp] theorem State.setCtr_opt (a n : Nat) : (s.setCtr a n).opt = s.opt := rfl
@[simp] theorem State.setCtr_keys (a n : Nat) : (s.setCtr a n).keys = s.keys := rfl
@[simp] theorem State.setCtr_omciUpQ (a n : Nat) : (s.setCtr a n).omciUpQ = s.omciUpQ := rfl
@[simp] theorem State.setCtr_seg (a n : Nat) : (s.setCtr a n).seg = s.seg := rfl

/-! ### setDramByte -/

@[simp] theorem State.setDramByte_pending (a : Nat) (b : Byte) : (s.setDramByte a b).pending = s.pending := rfl
@[simp] theorem State.setDramByte_regs (a : Nat) (b : Byte) : (s.setDramByte a b).regs = s.regs := rfl
@[simp] theorem State.setDramByte_ctrs (a : Nat) (b : Byte) : (s.setDramByte a b).ctrs = s.ctrs := rfl
@[simp] theorem State.setDramByte_snaps (a : Nat) (b : Byte) : (s.setDramByte a b).snaps = s.snaps := rfl
@[simp] theorem State.setDramByte_hdrs (a : Nat) (b : Byte) : (s.setDramByte a b).hdrs = s.hdrs := rfl
@[simp] theorem State.setDramByte_last (a : Nat) (b : Byte) : (s.setDramByte a b).last = s.last := rfl
@[simp] theorem State.setDramByte_out (a : Nat) (b : Byte) : (s.setDramByte a b).out = s.out := rfl
@[simp] theorem State.setDramByte_free (a : Nat) (b : Byte) : (s.setDramByte a b).free = s.free := rfl
@[simp] theorem State.setDramByte_clock (a : Nat) (b : Byte) : (s.setDramByte a b).clock = s.clock := rfl
@[simp] theorem State.setDramByte_era (a : Nat) (b : Byte) : (s.setDramByte a b).era = s.era := rfl
@[simp] theorem State.setDramByte_power (a : Nat) (b : Byte) : (s.setDramByte a b).power = s.power := rfl
@[simp] theorem State.setDramByte_backup (a : Nat) (b : Byte) : (s.setDramByte a b).backup = s.backup := rfl
@[simp] theorem State.setDramByte_nvs (a : Nat) (b : Byte) : (s.setDramByte a b).nvs = s.nvs := rfl
@[simp] theorem State.setDramByte_links (a : Nat) (b : Byte) : (s.setDramByte a b).links = s.links := rfl
@[simp] theorem State.setDramByte_masters (a : Nat) (b : Byte) : (s.setDramByte a b).masters = s.masters := rfl
@[simp] theorem State.setDramByte_mbx (a : Nat) (b : Byte) : (s.setDramByte a b).mbx = s.mbx := rfl
@[simp] theorem State.setDramByte_keeper (a : Nat) (b : Byte) : (s.setDramByte a b).keeper = s.keeper := rfl
@[simp] theorem State.setDramByte_fw (a : Nat) (b : Byte) : (s.setDramByte a b).fw = s.fw := rfl
@[simp] theorem State.setDramByte_log (a : Nat) (b : Byte) : (s.setDramByte a b).log = s.log := rfl
@[simp] theorem State.setDramByte_cls (a : Nat) (b : Byte) : (s.setDramByte a b).cls = s.cls := rfl
@[simp] theorem State.setDramByte_buf (a : Nat) (b : Byte) : (s.setDramByte a b).buf = s.buf := rfl
@[simp] theorem State.setDramByte_mac (a : Nat) (b : Byte) : (s.setDramByte a b).mac = s.mac := rfl
@[simp] theorem State.setDramByte_tsu (a : Nat) (b : Byte) : (s.setDramByte a b).tsu = s.tsu := rfl
@[simp] theorem State.setDramByte_chk (a : Nat) (b : Byte) : (s.setDramByte a b).chk = s.chk := rfl
@[simp] theorem State.setDramByte_seqs (a : Nat) (b : Byte) : (s.setDramByte a b).seqs = s.seqs := rfl
@[simp] theorem State.setDramByte_ecc (a : Nat) (b : Byte) : (s.setDramByte a b).ecc = s.ecc := rfl
@[simp] theorem State.setDramByte_lfr (a : Nat) (b : Byte) : (s.setDramByte a b).lfr = s.lfr := rfl
@[simp] theorem State.setDramByte_act (a : Nat) (b : Byte) : (s.setDramByte a b).act = s.act := rfl
@[simp] theorem State.setDramByte_btx (a : Nat) (b : Byte) : (s.setDramByte a b).btx = s.btx := rfl
@[simp] theorem State.setDramByte_psw (a : Nat) (b : Byte) : (s.setDramByte a b).psw = s.psw := rfl
@[simp] theorem State.setDramByte_opt (a : Nat) (b : Byte) : (s.setDramByte a b).opt = s.opt := rfl
@[simp] theorem State.setDramByte_keys (a : Nat) (b : Byte) : (s.setDramByte a b).keys = s.keys := rfl
@[simp] theorem State.setDramByte_omciUpQ (a : Nat) (b : Byte) : (s.setDramByte a b).omciUpQ = s.omciUpQ := rfl
@[simp] theorem State.setDramByte_seg (a : Nat) (b : Byte) : (s.setDramByte a b).seg = s.seg := rfl

/-! ### setLink -/

@[simp] theorem State.setLink_pending (l : AB) (k : LinkSt) : (s.setLink l k).pending = s.pending := rfl
@[simp] theorem State.setLink_regs (l : AB) (k : LinkSt) : (s.setLink l k).regs = s.regs := rfl
@[simp] theorem State.setLink_ctrs (l : AB) (k : LinkSt) : (s.setLink l k).ctrs = s.ctrs := rfl
@[simp] theorem State.setLink_snaps (l : AB) (k : LinkSt) : (s.setLink l k).snaps = s.snaps := rfl
@[simp] theorem State.setLink_hdrs (l : AB) (k : LinkSt) : (s.setLink l k).hdrs = s.hdrs := rfl
@[simp] theorem State.setLink_last (l : AB) (k : LinkSt) : (s.setLink l k).last = s.last := rfl
@[simp] theorem State.setLink_out (l : AB) (k : LinkSt) : (s.setLink l k).out = s.out := rfl
@[simp] theorem State.setLink_free (l : AB) (k : LinkSt) : (s.setLink l k).free = s.free := rfl
@[simp] theorem State.setLink_clock (l : AB) (k : LinkSt) : (s.setLink l k).clock = s.clock := rfl
@[simp] theorem State.setLink_era (l : AB) (k : LinkSt) : (s.setLink l k).era = s.era := rfl
@[simp] theorem State.setLink_dram (l : AB) (k : LinkSt) : (s.setLink l k).dram = s.dram := rfl
@[simp] theorem State.setLink_power (l : AB) (k : LinkSt) : (s.setLink l k).power = s.power := rfl
@[simp] theorem State.setLink_backup (l : AB) (k : LinkSt) : (s.setLink l k).backup = s.backup := rfl
@[simp] theorem State.setLink_nvs (l : AB) (k : LinkSt) : (s.setLink l k).nvs = s.nvs := rfl
@[simp] theorem State.setLink_masters (l : AB) (k : LinkSt) : (s.setLink l k).masters = s.masters := rfl
@[simp] theorem State.setLink_mbx (l : AB) (k : LinkSt) : (s.setLink l k).mbx = s.mbx := rfl
@[simp] theorem State.setLink_keeper (l : AB) (k : LinkSt) : (s.setLink l k).keeper = s.keeper := rfl
@[simp] theorem State.setLink_fw (l : AB) (k : LinkSt) : (s.setLink l k).fw = s.fw := rfl
@[simp] theorem State.setLink_log (l : AB) (k : LinkSt) : (s.setLink l k).log = s.log := rfl
@[simp] theorem State.setLink_cls (l : AB) (k : LinkSt) : (s.setLink l k).cls = s.cls := rfl
@[simp] theorem State.setLink_buf (l : AB) (k : LinkSt) : (s.setLink l k).buf = s.buf := rfl
@[simp] theorem State.setLink_mac (l : AB) (k : LinkSt) : (s.setLink l k).mac = s.mac := rfl
@[simp] theorem State.setLink_tsu (l : AB) (k : LinkSt) : (s.setLink l k).tsu = s.tsu := rfl
@[simp] theorem State.setLink_chk (l : AB) (k : LinkSt) : (s.setLink l k).chk = s.chk := rfl
@[simp] theorem State.setLink_seqs (l : AB) (k : LinkSt) : (s.setLink l k).seqs = s.seqs := rfl
@[simp] theorem State.setLink_ecc (l : AB) (k : LinkSt) : (s.setLink l k).ecc = s.ecc := rfl
@[simp] theorem State.setLink_lfr (l : AB) (k : LinkSt) : (s.setLink l k).lfr = s.lfr := rfl
@[simp] theorem State.setLink_act (l : AB) (k : LinkSt) : (s.setLink l k).act = s.act := rfl
@[simp] theorem State.setLink_btx (l : AB) (k : LinkSt) : (s.setLink l k).btx = s.btx := rfl
@[simp] theorem State.setLink_psw (l : AB) (k : LinkSt) : (s.setLink l k).psw = s.psw := rfl
@[simp] theorem State.setLink_opt (l : AB) (k : LinkSt) : (s.setLink l k).opt = s.opt := rfl
@[simp] theorem State.setLink_keys (l : AB) (k : LinkSt) : (s.setLink l k).keys = s.keys := rfl
@[simp] theorem State.setLink_omciUpQ (l : AB) (k : LinkSt) : (s.setLink l k).omciUpQ = s.omciUpQ := rfl
@[simp] theorem State.setLink_seg (l : AB) (k : LinkSt) : (s.setLink l k).seg = s.seg := rfl

/-! ### emit -/

@[simp] theorem State.emit_pending (o : Output) : (s.emit o).pending = s.pending := rfl
@[simp] theorem State.emit_regs (o : Output) : (s.emit o).regs = s.regs := rfl
@[simp] theorem State.emit_ctrs (o : Output) : (s.emit o).ctrs = s.ctrs := rfl
@[simp] theorem State.emit_snaps (o : Output) : (s.emit o).snaps = s.snaps := rfl
@[simp] theorem State.emit_hdrs (o : Output) : (s.emit o).hdrs = s.hdrs := rfl
@[simp] theorem State.emit_last (o : Output) : (s.emit o).last = s.last := rfl
@[simp] theorem State.emit_free (o : Output) : (s.emit o).free = s.free := rfl
@[simp] theorem State.emit_clock (o : Output) : (s.emit o).clock = s.clock := rfl
@[simp] theorem State.emit_era (o : Output) : (s.emit o).era = s.era := rfl
@[simp] theorem State.emit_dram (o : Output) : (s.emit o).dram = s.dram := rfl
@[simp] theorem State.emit_power (o : Output) : (s.emit o).power = s.power := rfl
@[simp] theorem State.emit_backup (o : Output) : (s.emit o).backup = s.backup := rfl
@[simp] theorem State.emit_nvs (o : Output) : (s.emit o).nvs = s.nvs := rfl
@[simp] theorem State.emit_links (o : Output) : (s.emit o).links = s.links := rfl
@[simp] theorem State.emit_masters (o : Output) : (s.emit o).masters = s.masters := rfl
@[simp] theorem State.emit_mbx (o : Output) : (s.emit o).mbx = s.mbx := rfl
@[simp] theorem State.emit_keeper (o : Output) : (s.emit o).keeper = s.keeper := rfl
@[simp] theorem State.emit_fw (o : Output) : (s.emit o).fw = s.fw := rfl
@[simp] theorem State.emit_log (o : Output) : (s.emit o).log = s.log := rfl
@[simp] theorem State.emit_cls (o : Output) : (s.emit o).cls = s.cls := rfl
@[simp] theorem State.emit_buf (o : Output) : (s.emit o).buf = s.buf := rfl
@[simp] theorem State.emit_mac (o : Output) : (s.emit o).mac = s.mac := rfl
@[simp] theorem State.emit_tsu (o : Output) : (s.emit o).tsu = s.tsu := rfl
@[simp] theorem State.emit_chk (o : Output) : (s.emit o).chk = s.chk := rfl
@[simp] theorem State.emit_seqs (o : Output) : (s.emit o).seqs = s.seqs := rfl
@[simp] theorem State.emit_ecc (o : Output) : (s.emit o).ecc = s.ecc := rfl
@[simp] theorem State.emit_lfr (o : Output) : (s.emit o).lfr = s.lfr := rfl
@[simp] theorem State.emit_act (o : Output) : (s.emit o).act = s.act := rfl
@[simp] theorem State.emit_btx (o : Output) : (s.emit o).btx = s.btx := rfl
@[simp] theorem State.emit_psw (o : Output) : (s.emit o).psw = s.psw := rfl
@[simp] theorem State.emit_opt (o : Output) : (s.emit o).opt = s.opt := rfl
@[simp] theorem State.emit_keys (o : Output) : (s.emit o).keys = s.keys := rfl
@[simp] theorem State.emit_omciUpQ (o : Output) : (s.emit o).omciUpQ = s.omciUpQ := rfl
@[simp] theorem State.emit_seg (o : Output) : (s.emit o).seg = s.seg := rfl

/-! ### setSnap -/

@[simp] theorem State.setSnap_pending (m : AB) (a : Nat) (v : Word) : (s.setSnap m a v).pending = s.pending := rfl
@[simp] theorem State.setSnap_regs (m : AB) (a : Nat) (v : Word) : (s.setSnap m a v).regs = s.regs := rfl
@[simp] theorem State.setSnap_ctrs (m : AB) (a : Nat) (v : Word) : (s.setSnap m a v).ctrs = s.ctrs := rfl
@[simp] theorem State.setSnap_hdrs (m : AB) (a : Nat) (v : Word) : (s.setSnap m a v).hdrs = s.hdrs := rfl
@[simp] theorem State.setSnap_last (m : AB) (a : Nat) (v : Word) : (s.setSnap m a v).last = s.last := rfl
@[simp] theorem State.setSnap_out (m : AB) (a : Nat) (v : Word) : (s.setSnap m a v).out = s.out := rfl
@[simp] theorem State.setSnap_free (m : AB) (a : Nat) (v : Word) : (s.setSnap m a v).free = s.free := rfl
@[simp] theorem State.setSnap_clock (m : AB) (a : Nat) (v : Word) : (s.setSnap m a v).clock = s.clock := rfl
@[simp] theorem State.setSnap_era (m : AB) (a : Nat) (v : Word) : (s.setSnap m a v).era = s.era := rfl
@[simp] theorem State.setSnap_dram (m : AB) (a : Nat) (v : Word) : (s.setSnap m a v).dram = s.dram := rfl
@[simp] theorem State.setSnap_power (m : AB) (a : Nat) (v : Word) : (s.setSnap m a v).power = s.power := rfl
@[simp] theorem State.setSnap_backup (m : AB) (a : Nat) (v : Word) : (s.setSnap m a v).backup = s.backup := rfl
@[simp] theorem State.setSnap_nvs (m : AB) (a : Nat) (v : Word) : (s.setSnap m a v).nvs = s.nvs := rfl
@[simp] theorem State.setSnap_links (m : AB) (a : Nat) (v : Word) : (s.setSnap m a v).links = s.links := rfl
@[simp] theorem State.setSnap_masters (m : AB) (a : Nat) (v : Word) : (s.setSnap m a v).masters = s.masters := rfl
@[simp] theorem State.setSnap_mbx (m : AB) (a : Nat) (v : Word) : (s.setSnap m a v).mbx = s.mbx := rfl
@[simp] theorem State.setSnap_keeper (m : AB) (a : Nat) (v : Word) : (s.setSnap m a v).keeper = s.keeper := rfl
@[simp] theorem State.setSnap_fw (m : AB) (a : Nat) (v : Word) : (s.setSnap m a v).fw = s.fw := rfl
@[simp] theorem State.setSnap_log (m : AB) (a : Nat) (v : Word) : (s.setSnap m a v).log = s.log := rfl
@[simp] theorem State.setSnap_cls (m : AB) (a : Nat) (v : Word) : (s.setSnap m a v).cls = s.cls := rfl
@[simp] theorem State.setSnap_buf (m : AB) (a : Nat) (v : Word) : (s.setSnap m a v).buf = s.buf := rfl
@[simp] theorem State.setSnap_mac (m : AB) (a : Nat) (v : Word) : (s.setSnap m a v).mac = s.mac := rfl
@[simp] theorem State.setSnap_tsu (m : AB) (a : Nat) (v : Word) : (s.setSnap m a v).tsu = s.tsu := rfl
@[simp] theorem State.setSnap_chk (m : AB) (a : Nat) (v : Word) : (s.setSnap m a v).chk = s.chk := rfl
@[simp] theorem State.setSnap_seqs (m : AB) (a : Nat) (v : Word) : (s.setSnap m a v).seqs = s.seqs := rfl
@[simp] theorem State.setSnap_ecc (m : AB) (a : Nat) (v : Word) : (s.setSnap m a v).ecc = s.ecc := rfl
@[simp] theorem State.setSnap_lfr (m : AB) (a : Nat) (v : Word) : (s.setSnap m a v).lfr = s.lfr := rfl
@[simp] theorem State.setSnap_act (m : AB) (a : Nat) (v : Word) : (s.setSnap m a v).act = s.act := rfl
@[simp] theorem State.setSnap_btx (m : AB) (a : Nat) (v : Word) : (s.setSnap m a v).btx = s.btx := rfl
@[simp] theorem State.setSnap_psw (m : AB) (a : Nat) (v : Word) : (s.setSnap m a v).psw = s.psw := rfl
@[simp] theorem State.setSnap_opt (m : AB) (a : Nat) (v : Word) : (s.setSnap m a v).opt = s.opt := rfl
@[simp] theorem State.setSnap_keys (m : AB) (a : Nat) (v : Word) : (s.setSnap m a v).keys = s.keys := rfl
@[simp] theorem State.setSnap_omciUpQ (m : AB) (a : Nat) (v : Word) : (s.setSnap m a v).omciUpQ = s.omciUpQ := rfl
@[simp] theorem State.setSnap_seg (m : AB) (a : Nat) (v : Word) : (s.setSnap m a v).seg = s.seg := rfl

/-! ### setSem -/

@[simp] theorem State.setSem_pending (n : Nat) (x : Sem) : (s.setSem n x).pending = s.pending := rfl
@[simp] theorem State.setSem_regs (n : Nat) (x : Sem) : (s.setSem n x).regs = s.regs := rfl
@[simp] theorem State.setSem_ctrs (n : Nat) (x : Sem) : (s.setSem n x).ctrs = s.ctrs := rfl
@[simp] theorem State.setSem_snaps (n : Nat) (x : Sem) : (s.setSem n x).snaps = s.snaps := rfl
@[simp] theorem State.setSem_hdrs (n : Nat) (x : Sem) : (s.setSem n x).hdrs = s.hdrs := rfl
@[simp] theorem State.setSem_last (n : Nat) (x : Sem) : (s.setSem n x).last = s.last := rfl
@[simp] theorem State.setSem_out (n : Nat) (x : Sem) : (s.setSem n x).out = s.out := rfl
@[simp] theorem State.setSem_free (n : Nat) (x : Sem) : (s.setSem n x).free = s.free := rfl
@[simp] theorem State.setSem_clock (n : Nat) (x : Sem) : (s.setSem n x).clock = s.clock := rfl
@[simp] theorem State.setSem_era (n : Nat) (x : Sem) : (s.setSem n x).era = s.era := rfl
@[simp] theorem State.setSem_dram (n : Nat) (x : Sem) : (s.setSem n x).dram = s.dram := rfl
@[simp] theorem State.setSem_power (n : Nat) (x : Sem) : (s.setSem n x).power = s.power := rfl
@[simp] theorem State.setSem_backup (n : Nat) (x : Sem) : (s.setSem n x).backup = s.backup := rfl
@[simp] theorem State.setSem_nvs (n : Nat) (x : Sem) : (s.setSem n x).nvs = s.nvs := rfl
@[simp] theorem State.setSem_links (n : Nat) (x : Sem) : (s.setSem n x).links = s.links := rfl
@[simp] theorem State.setSem_mbx (n : Nat) (x : Sem) : (s.setSem n x).mbx = s.mbx := rfl
@[simp] theorem State.setSem_keeper (n : Nat) (x : Sem) : (s.setSem n x).keeper = s.keeper := rfl
@[simp] theorem State.setSem_fw (n : Nat) (x : Sem) : (s.setSem n x).fw = s.fw := rfl
@[simp] theorem State.setSem_log (n : Nat) (x : Sem) : (s.setSem n x).log = s.log := rfl
@[simp] theorem State.setSem_cls (n : Nat) (x : Sem) : (s.setSem n x).cls = s.cls := rfl
@[simp] theorem State.setSem_buf (n : Nat) (x : Sem) : (s.setSem n x).buf = s.buf := rfl
@[simp] theorem State.setSem_mac (n : Nat) (x : Sem) : (s.setSem n x).mac = s.mac := rfl
@[simp] theorem State.setSem_tsu (n : Nat) (x : Sem) : (s.setSem n x).tsu = s.tsu := rfl
@[simp] theorem State.setSem_chk (n : Nat) (x : Sem) : (s.setSem n x).chk = s.chk := rfl
@[simp] theorem State.setSem_seqs (n : Nat) (x : Sem) : (s.setSem n x).seqs = s.seqs := rfl
@[simp] theorem State.setSem_ecc (n : Nat) (x : Sem) : (s.setSem n x).ecc = s.ecc := rfl
@[simp] theorem State.setSem_lfr (n : Nat) (x : Sem) : (s.setSem n x).lfr = s.lfr := rfl
@[simp] theorem State.setSem_act (n : Nat) (x : Sem) : (s.setSem n x).act = s.act := rfl
@[simp] theorem State.setSem_btx (n : Nat) (x : Sem) : (s.setSem n x).btx = s.btx := rfl
@[simp] theorem State.setSem_psw (n : Nat) (x : Sem) : (s.setSem n x).psw = s.psw := rfl
@[simp] theorem State.setSem_opt (n : Nat) (x : Sem) : (s.setSem n x).opt = s.opt := rfl
@[simp] theorem State.setSem_keys (n : Nat) (x : Sem) : (s.setSem n x).keys = s.keys := rfl
@[simp] theorem State.setSem_omciUpQ (n : Nat) (x : Sem) : (s.setSem n x).omciUpQ = s.omciUpQ := rfl
@[simp] theorem State.setSem_seg (n : Nat) (x : Sem) : (s.setSem n x).seg = s.seg := rfl

/-! ### setBox -/

@[simp] theorem State.setBox_pending (i : Nat) (b : Mbx) : (s.setBox i b).pending = s.pending := rfl
@[simp] theorem State.setBox_regs (i : Nat) (b : Mbx) : (s.setBox i b).regs = s.regs := rfl
@[simp] theorem State.setBox_ctrs (i : Nat) (b : Mbx) : (s.setBox i b).ctrs = s.ctrs := rfl
@[simp] theorem State.setBox_snaps (i : Nat) (b : Mbx) : (s.setBox i b).snaps = s.snaps := rfl
@[simp] theorem State.setBox_hdrs (i : Nat) (b : Mbx) : (s.setBox i b).hdrs = s.hdrs := rfl
@[simp] theorem State.setBox_last (i : Nat) (b : Mbx) : (s.setBox i b).last = s.last := rfl
@[simp] theorem State.setBox_out (i : Nat) (b : Mbx) : (s.setBox i b).out = s.out := rfl
@[simp] theorem State.setBox_free (i : Nat) (b : Mbx) : (s.setBox i b).free = s.free := rfl
@[simp] theorem State.setBox_clock (i : Nat) (b : Mbx) : (s.setBox i b).clock = s.clock := rfl
@[simp] theorem State.setBox_era (i : Nat) (b : Mbx) : (s.setBox i b).era = s.era := rfl
@[simp] theorem State.setBox_dram (i : Nat) (b : Mbx) : (s.setBox i b).dram = s.dram := rfl
@[simp] theorem State.setBox_power (i : Nat) (b : Mbx) : (s.setBox i b).power = s.power := rfl
@[simp] theorem State.setBox_backup (i : Nat) (b : Mbx) : (s.setBox i b).backup = s.backup := rfl
@[simp] theorem State.setBox_nvs (i : Nat) (b : Mbx) : (s.setBox i b).nvs = s.nvs := rfl
@[simp] theorem State.setBox_links (i : Nat) (b : Mbx) : (s.setBox i b).links = s.links := rfl
@[simp] theorem State.setBox_masters (i : Nat) (b : Mbx) : (s.setBox i b).masters = s.masters := rfl
@[simp] theorem State.setBox_keeper (i : Nat) (b : Mbx) : (s.setBox i b).keeper = s.keeper := rfl
@[simp] theorem State.setBox_fw (i : Nat) (b : Mbx) : (s.setBox i b).fw = s.fw := rfl
@[simp] theorem State.setBox_log (i : Nat) (b : Mbx) : (s.setBox i b).log = s.log := rfl
@[simp] theorem State.setBox_cls (i : Nat) (b : Mbx) : (s.setBox i b).cls = s.cls := rfl
@[simp] theorem State.setBox_buf (i : Nat) (b : Mbx) : (s.setBox i b).buf = s.buf := rfl
@[simp] theorem State.setBox_mac (i : Nat) (b : Mbx) : (s.setBox i b).mac = s.mac := rfl
@[simp] theorem State.setBox_tsu (i : Nat) (b : Mbx) : (s.setBox i b).tsu = s.tsu := rfl
@[simp] theorem State.setBox_chk (i : Nat) (b : Mbx) : (s.setBox i b).chk = s.chk := rfl
@[simp] theorem State.setBox_seqs (i : Nat) (b : Mbx) : (s.setBox i b).seqs = s.seqs := rfl
@[simp] theorem State.setBox_ecc (i : Nat) (b : Mbx) : (s.setBox i b).ecc = s.ecc := rfl
@[simp] theorem State.setBox_lfr (i : Nat) (b : Mbx) : (s.setBox i b).lfr = s.lfr := rfl
@[simp] theorem State.setBox_act (i : Nat) (b : Mbx) : (s.setBox i b).act = s.act := rfl
@[simp] theorem State.setBox_btx (i : Nat) (b : Mbx) : (s.setBox i b).btx = s.btx := rfl
@[simp] theorem State.setBox_psw (i : Nat) (b : Mbx) : (s.setBox i b).psw = s.psw := rfl
@[simp] theorem State.setBox_opt (i : Nat) (b : Mbx) : (s.setBox i b).opt = s.opt := rfl
@[simp] theorem State.setBox_keys (i : Nat) (b : Mbx) : (s.setBox i b).keys = s.keys := rfl
@[simp] theorem State.setBox_omciUpQ (i : Nat) (b : Mbx) : (s.setBox i b).omciUpQ = s.omciUpQ := rfl
@[simp] theorem State.setBox_seg (i : Nat) (b : Mbx) : (s.setBox i b).seg = s.seg := rfl

/-! ### setPort -/

@[simp] theorem State.setPort_pending (n : Nat) (x : MacPort) : (s.setPort n x).pending = s.pending := rfl
@[simp] theorem State.setPort_regs (n : Nat) (x : MacPort) : (s.setPort n x).regs = s.regs := rfl
@[simp] theorem State.setPort_ctrs (n : Nat) (x : MacPort) : (s.setPort n x).ctrs = s.ctrs := rfl
@[simp] theorem State.setPort_snaps (n : Nat) (x : MacPort) : (s.setPort n x).snaps = s.snaps := rfl
@[simp] theorem State.setPort_hdrs (n : Nat) (x : MacPort) : (s.setPort n x).hdrs = s.hdrs := rfl
@[simp] theorem State.setPort_last (n : Nat) (x : MacPort) : (s.setPort n x).last = s.last := rfl
@[simp] theorem State.setPort_out (n : Nat) (x : MacPort) : (s.setPort n x).out = s.out := rfl
@[simp] theorem State.setPort_free (n : Nat) (x : MacPort) : (s.setPort n x).free = s.free := rfl
@[simp] theorem State.setPort_clock (n : Nat) (x : MacPort) : (s.setPort n x).clock = s.clock := rfl
@[simp] theorem State.setPort_era (n : Nat) (x : MacPort) : (s.setPort n x).era = s.era := rfl
@[simp] theorem State.setPort_dram (n : Nat) (x : MacPort) : (s.setPort n x).dram = s.dram := rfl
@[simp] theorem State.setPort_power (n : Nat) (x : MacPort) : (s.setPort n x).power = s.power := rfl
@[simp] theorem State.setPort_backup (n : Nat) (x : MacPort) : (s.setPort n x).backup = s.backup := rfl
@[simp] theorem State.setPort_nvs (n : Nat) (x : MacPort) : (s.setPort n x).nvs = s.nvs := rfl
@[simp] theorem State.setPort_links (n : Nat) (x : MacPort) : (s.setPort n x).links = s.links := rfl
@[simp] theorem State.setPort_masters (n : Nat) (x : MacPort) : (s.setPort n x).masters = s.masters := rfl
@[simp] theorem State.setPort_mbx (n : Nat) (x : MacPort) : (s.setPort n x).mbx = s.mbx := rfl
@[simp] theorem State.setPort_keeper (n : Nat) (x : MacPort) : (s.setPort n x).keeper = s.keeper := rfl
@[simp] theorem State.setPort_fw (n : Nat) (x : MacPort) : (s.setPort n x).fw = s.fw := rfl
@[simp] theorem State.setPort_log (n : Nat) (x : MacPort) : (s.setPort n x).log = s.log := rfl
@[simp] theorem State.setPort_cls (n : Nat) (x : MacPort) : (s.setPort n x).cls = s.cls := rfl
@[simp] theorem State.setPort_buf (n : Nat) (x : MacPort) : (s.setPort n x).buf = s.buf := rfl
@[simp] theorem State.setPort_tsu (n : Nat) (x : MacPort) : (s.setPort n x).tsu = s.tsu := rfl
@[simp] theorem State.setPort_chk (n : Nat) (x : MacPort) : (s.setPort n x).chk = s.chk := rfl
@[simp] theorem State.setPort_seqs (n : Nat) (x : MacPort) : (s.setPort n x).seqs = s.seqs := rfl
@[simp] theorem State.setPort_ecc (n : Nat) (x : MacPort) : (s.setPort n x).ecc = s.ecc := rfl
@[simp] theorem State.setPort_lfr (n : Nat) (x : MacPort) : (s.setPort n x).lfr = s.lfr := rfl
@[simp] theorem State.setPort_act (n : Nat) (x : MacPort) : (s.setPort n x).act = s.act := rfl
@[simp] theorem State.setPort_btx (n : Nat) (x : MacPort) : (s.setPort n x).btx = s.btx := rfl
@[simp] theorem State.setPort_psw (n : Nat) (x : MacPort) : (s.setPort n x).psw = s.psw := rfl
@[simp] theorem State.setPort_opt (n : Nat) (x : MacPort) : (s.setPort n x).opt = s.opt := rfl
@[simp] theorem State.setPort_keys (n : Nat) (x : MacPort) : (s.setPort n x).keys = s.keys := rfl
@[simp] theorem State.setPort_omciUpQ (n : Nat) (x : MacPort) : (s.setPort n x).omciUpQ = s.omciUpQ := rfl
@[simp] theorem State.setPort_seg (n : Nat) (x : MacPort) : (s.setPort n x).seg = s.seg := rfl

/-! ### setQueue -/

@[simp] theorem State.setQueue_pending (k : Nat) (q : List Pkt) : (s.setQueue k q).pending = s.pending := rfl
@[simp] theorem State.setQueue_regs (k : Nat) (q : List Pkt) : (s.setQueue k q).regs = s.regs := rfl
@[simp] theorem State.setQueue_ctrs (k : Nat) (q : List Pkt) : (s.setQueue k q).ctrs = s.ctrs := rfl
@[simp] theorem State.setQueue_snaps (k : Nat) (q : List Pkt) : (s.setQueue k q).snaps = s.snaps := rfl
@[simp] theorem State.setQueue_hdrs (k : Nat) (q : List Pkt) : (s.setQueue k q).hdrs = s.hdrs := rfl
@[simp] theorem State.setQueue_last (k : Nat) (q : List Pkt) : (s.setQueue k q).last = s.last := rfl
@[simp] theorem State.setQueue_out (k : Nat) (q : List Pkt) : (s.setQueue k q).out = s.out := rfl
@[simp] theorem State.setQueue_free (k : Nat) (q : List Pkt) : (s.setQueue k q).free = s.free := rfl
@[simp] theorem State.setQueue_clock (k : Nat) (q : List Pkt) : (s.setQueue k q).clock = s.clock := rfl
@[simp] theorem State.setQueue_era (k : Nat) (q : List Pkt) : (s.setQueue k q).era = s.era := rfl
@[simp] theorem State.setQueue_dram (k : Nat) (q : List Pkt) : (s.setQueue k q).dram = s.dram := rfl
@[simp] theorem State.setQueue_power (k : Nat) (q : List Pkt) : (s.setQueue k q).power = s.power := rfl
@[simp] theorem State.setQueue_backup (k : Nat) (q : List Pkt) : (s.setQueue k q).backup = s.backup := rfl
@[simp] theorem State.setQueue_nvs (k : Nat) (q : List Pkt) : (s.setQueue k q).nvs = s.nvs := rfl
@[simp] theorem State.setQueue_links (k : Nat) (q : List Pkt) : (s.setQueue k q).links = s.links := rfl
@[simp] theorem State.setQueue_masters (k : Nat) (q : List Pkt) : (s.setQueue k q).masters = s.masters := rfl
@[simp] theorem State.setQueue_mbx (k : Nat) (q : List Pkt) : (s.setQueue k q).mbx = s.mbx := rfl
@[simp] theorem State.setQueue_keeper (k : Nat) (q : List Pkt) : (s.setQueue k q).keeper = s.keeper := rfl
@[simp] theorem State.setQueue_fw (k : Nat) (q : List Pkt) : (s.setQueue k q).fw = s.fw := rfl
@[simp] theorem State.setQueue_log (k : Nat) (q : List Pkt) : (s.setQueue k q).log = s.log := rfl
@[simp] theorem State.setQueue_cls (k : Nat) (q : List Pkt) : (s.setQueue k q).cls = s.cls := rfl
@[simp] theorem State.setQueue_mac (k : Nat) (q : List Pkt) : (s.setQueue k q).mac = s.mac := rfl
@[simp] theorem State.setQueue_tsu (k : Nat) (q : List Pkt) : (s.setQueue k q).tsu = s.tsu := rfl
@[simp] theorem State.setQueue_chk (k : Nat) (q : List Pkt) : (s.setQueue k q).chk = s.chk := rfl
@[simp] theorem State.setQueue_seqs (k : Nat) (q : List Pkt) : (s.setQueue k q).seqs = s.seqs := rfl
@[simp] theorem State.setQueue_ecc (k : Nat) (q : List Pkt) : (s.setQueue k q).ecc = s.ecc := rfl
@[simp] theorem State.setQueue_lfr (k : Nat) (q : List Pkt) : (s.setQueue k q).lfr = s.lfr := rfl
@[simp] theorem State.setQueue_act (k : Nat) (q : List Pkt) : (s.setQueue k q).act = s.act := rfl
@[simp] theorem State.setQueue_btx (k : Nat) (q : List Pkt) : (s.setQueue k q).btx = s.btx := rfl
@[simp] theorem State.setQueue_psw (k : Nat) (q : List Pkt) : (s.setQueue k q).psw = s.psw := rfl
@[simp] theorem State.setQueue_opt (k : Nat) (q : List Pkt) : (s.setQueue k q).opt = s.opt := rfl
@[simp] theorem State.setQueue_keys (k : Nat) (q : List Pkt) : (s.setQueue k q).keys = s.keys := rfl
@[simp] theorem State.setQueue_omciUpQ (k : Nat) (q : List Pkt) : (s.setQueue k q).omciUpQ = s.omciUpQ := rfl
@[simp] theorem State.setQueue_seg (k : Nat) (q : List Pkt) : (s.setQueue k q).seg = s.seg := rfl

/-! ### setLane -/

@[simp] theorem State.setLane_pending (n : Nat) (x : Lane) : (s.setLane n x).pending = s.pending := rfl
@[simp] theorem State.setLane_regs (n : Nat) (x : Lane) : (s.setLane n x).regs = s.regs := rfl
@[simp] theorem State.setLane_ctrs (n : Nat) (x : Lane) : (s.setLane n x).ctrs = s.ctrs := rfl
@[simp] theorem State.setLane_snaps (n : Nat) (x : Lane) : (s.setLane n x).snaps = s.snaps := rfl
@[simp] theorem State.setLane_hdrs (n : Nat) (x : Lane) : (s.setLane n x).hdrs = s.hdrs := rfl
@[simp] theorem State.setLane_last (n : Nat) (x : Lane) : (s.setLane n x).last = s.last := rfl
@[simp] theorem State.setLane_out (n : Nat) (x : Lane) : (s.setLane n x).out = s.out := rfl
@[simp] theorem State.setLane_free (n : Nat) (x : Lane) : (s.setLane n x).free = s.free := rfl
@[simp] theorem State.setLane_clock (n : Nat) (x : Lane) : (s.setLane n x).clock = s.clock := rfl
@[simp] theorem State.setLane_era (n : Nat) (x : Lane) : (s.setLane n x).era = s.era := rfl
@[simp] theorem State.setLane_dram (n : Nat) (x : Lane) : (s.setLane n x).dram = s.dram := rfl
@[simp] theorem State.setLane_power (n : Nat) (x : Lane) : (s.setLane n x).power = s.power := rfl
@[simp] theorem State.setLane_backup (n : Nat) (x : Lane) : (s.setLane n x).backup = s.backup := rfl
@[simp] theorem State.setLane_nvs (n : Nat) (x : Lane) : (s.setLane n x).nvs = s.nvs := rfl
@[simp] theorem State.setLane_links (n : Nat) (x : Lane) : (s.setLane n x).links = s.links := rfl
@[simp] theorem State.setLane_masters (n : Nat) (x : Lane) : (s.setLane n x).masters = s.masters := rfl
@[simp] theorem State.setLane_mbx (n : Nat) (x : Lane) : (s.setLane n x).mbx = s.mbx := rfl
@[simp] theorem State.setLane_keeper (n : Nat) (x : Lane) : (s.setLane n x).keeper = s.keeper := rfl
@[simp] theorem State.setLane_fw (n : Nat) (x : Lane) : (s.setLane n x).fw = s.fw := rfl
@[simp] theorem State.setLane_log (n : Nat) (x : Lane) : (s.setLane n x).log = s.log := rfl
@[simp] theorem State.setLane_buf (n : Nat) (x : Lane) : (s.setLane n x).buf = s.buf := rfl
@[simp] theorem State.setLane_mac (n : Nat) (x : Lane) : (s.setLane n x).mac = s.mac := rfl
@[simp] theorem State.setLane_tsu (n : Nat) (x : Lane) : (s.setLane n x).tsu = s.tsu := rfl
@[simp] theorem State.setLane_chk (n : Nat) (x : Lane) : (s.setLane n x).chk = s.chk := rfl
@[simp] theorem State.setLane_seqs (n : Nat) (x : Lane) : (s.setLane n x).seqs = s.seqs := rfl
@[simp] theorem State.setLane_ecc (n : Nat) (x : Lane) : (s.setLane n x).ecc = s.ecc := rfl
@[simp] theorem State.setLane_lfr (n : Nat) (x : Lane) : (s.setLane n x).lfr = s.lfr := rfl
@[simp] theorem State.setLane_act (n : Nat) (x : Lane) : (s.setLane n x).act = s.act := rfl
@[simp] theorem State.setLane_btx (n : Nat) (x : Lane) : (s.setLane n x).btx = s.btx := rfl
@[simp] theorem State.setLane_psw (n : Nat) (x : Lane) : (s.setLane n x).psw = s.psw := rfl
@[simp] theorem State.setLane_opt (n : Nat) (x : Lane) : (s.setLane n x).opt = s.opt := rfl
@[simp] theorem State.setLane_keys (n : Nat) (x : Lane) : (s.setLane n x).keys = s.keys := rfl
@[simp] theorem State.setLane_omciUpQ (n : Nat) (x : Lane) : (s.setLane n x).omciUpQ = s.omciUpQ := rfl
@[simp] theorem State.setLane_seg (n : Nat) (x : Lane) : (s.setLane n x).seg = s.seg := rfl

/-! ### setRule -/

@[simp] theorem State.setRule_pending (i : Nat) (r : Rule) : (s.setRule i r).pending = s.pending := rfl
@[simp] theorem State.setRule_regs (i : Nat) (r : Rule) : (s.setRule i r).regs = s.regs := rfl
@[simp] theorem State.setRule_ctrs (i : Nat) (r : Rule) : (s.setRule i r).ctrs = s.ctrs := rfl
@[simp] theorem State.setRule_snaps (i : Nat) (r : Rule) : (s.setRule i r).snaps = s.snaps := rfl
@[simp] theorem State.setRule_hdrs (i : Nat) (r : Rule) : (s.setRule i r).hdrs = s.hdrs := rfl
@[simp] theorem State.setRule_last (i : Nat) (r : Rule) : (s.setRule i r).last = s.last := rfl
@[simp] theorem State.setRule_out (i : Nat) (r : Rule) : (s.setRule i r).out = s.out := rfl
@[simp] theorem State.setRule_free (i : Nat) (r : Rule) : (s.setRule i r).free = s.free := rfl
@[simp] theorem State.setRule_clock (i : Nat) (r : Rule) : (s.setRule i r).clock = s.clock := rfl
@[simp] theorem State.setRule_era (i : Nat) (r : Rule) : (s.setRule i r).era = s.era := rfl
@[simp] theorem State.setRule_dram (i : Nat) (r : Rule) : (s.setRule i r).dram = s.dram := rfl
@[simp] theorem State.setRule_power (i : Nat) (r : Rule) : (s.setRule i r).power = s.power := rfl
@[simp] theorem State.setRule_backup (i : Nat) (r : Rule) : (s.setRule i r).backup = s.backup := rfl
@[simp] theorem State.setRule_nvs (i : Nat) (r : Rule) : (s.setRule i r).nvs = s.nvs := rfl
@[simp] theorem State.setRule_links (i : Nat) (r : Rule) : (s.setRule i r).links = s.links := rfl
@[simp] theorem State.setRule_masters (i : Nat) (r : Rule) : (s.setRule i r).masters = s.masters := rfl
@[simp] theorem State.setRule_mbx (i : Nat) (r : Rule) : (s.setRule i r).mbx = s.mbx := rfl
@[simp] theorem State.setRule_keeper (i : Nat) (r : Rule) : (s.setRule i r).keeper = s.keeper := rfl
@[simp] theorem State.setRule_fw (i : Nat) (r : Rule) : (s.setRule i r).fw = s.fw := rfl
@[simp] theorem State.setRule_log (i : Nat) (r : Rule) : (s.setRule i r).log = s.log := rfl
@[simp] theorem State.setRule_buf (i : Nat) (r : Rule) : (s.setRule i r).buf = s.buf := rfl
@[simp] theorem State.setRule_mac (i : Nat) (r : Rule) : (s.setRule i r).mac = s.mac := rfl
@[simp] theorem State.setRule_tsu (i : Nat) (r : Rule) : (s.setRule i r).tsu = s.tsu := rfl
@[simp] theorem State.setRule_chk (i : Nat) (r : Rule) : (s.setRule i r).chk = s.chk := rfl
@[simp] theorem State.setRule_seqs (i : Nat) (r : Rule) : (s.setRule i r).seqs = s.seqs := rfl
@[simp] theorem State.setRule_ecc (i : Nat) (r : Rule) : (s.setRule i r).ecc = s.ecc := rfl
@[simp] theorem State.setRule_lfr (i : Nat) (r : Rule) : (s.setRule i r).lfr = s.lfr := rfl
@[simp] theorem State.setRule_act (i : Nat) (r : Rule) : (s.setRule i r).act = s.act := rfl
@[simp] theorem State.setRule_btx (i : Nat) (r : Rule) : (s.setRule i r).btx = s.btx := rfl
@[simp] theorem State.setRule_psw (i : Nat) (r : Rule) : (s.setRule i r).psw = s.psw := rfl
@[simp] theorem State.setRule_opt (i : Nat) (r : Rule) : (s.setRule i r).opt = s.opt := rfl
@[simp] theorem State.setRule_keys (i : Nat) (r : Rule) : (s.setRule i r).keys = s.keys := rfl
@[simp] theorem State.setRule_omciUpQ (i : Nat) (r : Rule) : (s.setRule i r).omciUpQ = s.omciUpQ := rfl
@[simp] theorem State.setRule_seg (i : Nat) (r : Rule) : (s.setRule i r).seg = s.seg := rfl

/-! ### setFrz -/

@[simp] theorem State.setFrz_pending (m : AB) (f : Freeze) : (s.setFrz m f).pending = s.pending := rfl
@[simp] theorem State.setFrz_regs (m : AB) (f : Freeze) : (s.setFrz m f).regs = s.regs := rfl
@[simp] theorem State.setFrz_ctrs (m : AB) (f : Freeze) : (s.setFrz m f).ctrs = s.ctrs := rfl
@[simp] theorem State.setFrz_snaps (m : AB) (f : Freeze) : (s.setFrz m f).snaps = s.snaps := rfl
@[simp] theorem State.setFrz_hdrs (m : AB) (f : Freeze) : (s.setFrz m f).hdrs = s.hdrs := rfl
@[simp] theorem State.setFrz_last (m : AB) (f : Freeze) : (s.setFrz m f).last = s.last := rfl
@[simp] theorem State.setFrz_out (m : AB) (f : Freeze) : (s.setFrz m f).out = s.out := rfl
@[simp] theorem State.setFrz_free (m : AB) (f : Freeze) : (s.setFrz m f).free = s.free := rfl
@[simp] theorem State.setFrz_clock (m : AB) (f : Freeze) : (s.setFrz m f).clock = s.clock := rfl
@[simp] theorem State.setFrz_era (m : AB) (f : Freeze) : (s.setFrz m f).era = s.era := rfl
@[simp] theorem State.setFrz_dram (m : AB) (f : Freeze) : (s.setFrz m f).dram = s.dram := rfl
@[simp] theorem State.setFrz_power (m : AB) (f : Freeze) : (s.setFrz m f).power = s.power := rfl
@[simp] theorem State.setFrz_backup (m : AB) (f : Freeze) : (s.setFrz m f).backup = s.backup := rfl
@[simp] theorem State.setFrz_nvs (m : AB) (f : Freeze) : (s.setFrz m f).nvs = s.nvs := rfl
@[simp] theorem State.setFrz_links (m : AB) (f : Freeze) : (s.setFrz m f).links = s.links := rfl
@[simp] theorem State.setFrz_mbx (m : AB) (f : Freeze) : (s.setFrz m f).mbx = s.mbx := rfl
@[simp] theorem State.setFrz_keeper (m : AB) (f : Freeze) : (s.setFrz m f).keeper = s.keeper := rfl
@[simp] theorem State.setFrz_fw (m : AB) (f : Freeze) : (s.setFrz m f).fw = s.fw := rfl
@[simp] theorem State.setFrz_log (m : AB) (f : Freeze) : (s.setFrz m f).log = s.log := rfl
@[simp] theorem State.setFrz_cls (m : AB) (f : Freeze) : (s.setFrz m f).cls = s.cls := rfl
@[simp] theorem State.setFrz_buf (m : AB) (f : Freeze) : (s.setFrz m f).buf = s.buf := rfl
@[simp] theorem State.setFrz_mac (m : AB) (f : Freeze) : (s.setFrz m f).mac = s.mac := rfl
@[simp] theorem State.setFrz_tsu (m : AB) (f : Freeze) : (s.setFrz m f).tsu = s.tsu := rfl
@[simp] theorem State.setFrz_chk (m : AB) (f : Freeze) : (s.setFrz m f).chk = s.chk := rfl
@[simp] theorem State.setFrz_seqs (m : AB) (f : Freeze) : (s.setFrz m f).seqs = s.seqs := rfl
@[simp] theorem State.setFrz_ecc (m : AB) (f : Freeze) : (s.setFrz m f).ecc = s.ecc := rfl
@[simp] theorem State.setFrz_lfr (m : AB) (f : Freeze) : (s.setFrz m f).lfr = s.lfr := rfl
@[simp] theorem State.setFrz_act (m : AB) (f : Freeze) : (s.setFrz m f).act = s.act := rfl
@[simp] theorem State.setFrz_btx (m : AB) (f : Freeze) : (s.setFrz m f).btx = s.btx := rfl
@[simp] theorem State.setFrz_psw (m : AB) (f : Freeze) : (s.setFrz m f).psw = s.psw := rfl
@[simp] theorem State.setFrz_opt (m : AB) (f : Freeze) : (s.setFrz m f).opt = s.opt := rfl
@[simp] theorem State.setFrz_keys (m : AB) (f : Freeze) : (s.setFrz m f).keys = s.keys := rfl
@[simp] theorem State.setFrz_omciUpQ (m : AB) (f : Freeze) : (s.setFrz m f).omciUpQ = s.omciUpQ := rfl
@[simp] theorem State.setFrz_seg (m : AB) (f : Freeze) : (s.setFrz m f).seg = s.seg := rfl

/-! ### setPower -/

@[simp] theorem State.setPower_pending (p : PowerSt) : (s.setPower p).pending = s.pending := rfl
@[simp] theorem State.setPower_regs (p : PowerSt) : (s.setPower p).regs = s.regs := rfl
@[simp] theorem State.setPower_ctrs (p : PowerSt) : (s.setPower p).ctrs = s.ctrs := rfl
@[simp] theorem State.setPower_snaps (p : PowerSt) : (s.setPower p).snaps = s.snaps := rfl
@[simp] theorem State.setPower_hdrs (p : PowerSt) : (s.setPower p).hdrs = s.hdrs := rfl
@[simp] theorem State.setPower_last (p : PowerSt) : (s.setPower p).last = s.last := rfl
@[simp] theorem State.setPower_out (p : PowerSt) : (s.setPower p).out = s.out := rfl
@[simp] theorem State.setPower_free (p : PowerSt) : (s.setPower p).free = s.free := rfl
@[simp] theorem State.setPower_clock (p : PowerSt) : (s.setPower p).clock = s.clock := rfl
@[simp] theorem State.setPower_era (p : PowerSt) : (s.setPower p).era = s.era := rfl
@[simp] theorem State.setPower_dram (p : PowerSt) : (s.setPower p).dram = s.dram := rfl
@[simp] theorem State.setPower_power (p : PowerSt) : (s.setPower p).power = p := rfl
@[simp] theorem State.setPower_backup (p : PowerSt) : (s.setPower p).backup = s.backup := rfl
@[simp] theorem State.setPower_nvs (p : PowerSt) : (s.setPower p).nvs = s.nvs := rfl
@[simp] theorem State.setPower_links (p : PowerSt) : (s.setPower p).links = s.links := rfl
@[simp] theorem State.setPower_masters (p : PowerSt) : (s.setPower p).masters = s.masters := rfl
@[simp] theorem State.setPower_mbx (p : PowerSt) : (s.setPower p).mbx = s.mbx := rfl
@[simp] theorem State.setPower_keeper (p : PowerSt) : (s.setPower p).keeper = s.keeper := rfl
@[simp] theorem State.setPower_fw (p : PowerSt) : (s.setPower p).fw = s.fw := rfl
@[simp] theorem State.setPower_log (p : PowerSt) : (s.setPower p).log = s.log := rfl
@[simp] theorem State.setPower_cls (p : PowerSt) : (s.setPower p).cls = s.cls := rfl
@[simp] theorem State.setPower_buf (p : PowerSt) : (s.setPower p).buf = s.buf := rfl
@[simp] theorem State.setPower_mac (p : PowerSt) : (s.setPower p).mac = s.mac := rfl
@[simp] theorem State.setPower_tsu (p : PowerSt) : (s.setPower p).tsu = s.tsu := rfl
@[simp] theorem State.setPower_chk (p : PowerSt) : (s.setPower p).chk = s.chk := rfl
@[simp] theorem State.setPower_seqs (p : PowerSt) : (s.setPower p).seqs = s.seqs := rfl
@[simp] theorem State.setPower_ecc (p : PowerSt) : (s.setPower p).ecc = s.ecc := rfl
@[simp] theorem State.setPower_lfr (p : PowerSt) : (s.setPower p).lfr = s.lfr := rfl
@[simp] theorem State.setPower_act (p : PowerSt) : (s.setPower p).act = s.act := rfl
@[simp] theorem State.setPower_btx (p : PowerSt) : (s.setPower p).btx = s.btx := rfl
@[simp] theorem State.setPower_psw (p : PowerSt) : (s.setPower p).psw = s.psw := rfl
@[simp] theorem State.setPower_opt (p : PowerSt) : (s.setPower p).opt = s.opt := rfl
@[simp] theorem State.setPower_keys (p : PowerSt) : (s.setPower p).keys = s.keys := rfl
@[simp] theorem State.setPower_omciUpQ (p : PowerSt) : (s.setPower p).omciUpQ = s.omciUpQ := rfl
@[simp] theorem State.setPower_seg (p : PowerSt) : (s.setPower p).seg = s.seg := rfl

/-! ### setSeq -/

@[simp] theorem State.setSeq_pending (n : Nat) (q : Seq) : (s.setSeq n q).pending = s.pending := rfl
@[simp] theorem State.setSeq_regs (n : Nat) (q : Seq) : (s.setSeq n q).regs = s.regs := rfl
@[simp] theorem State.setSeq_ctrs (n : Nat) (q : Seq) : (s.setSeq n q).ctrs = s.ctrs := rfl
@[simp] theorem State.setSeq_snaps (n : Nat) (q : Seq) : (s.setSeq n q).snaps = s.snaps := rfl
@[simp] theorem State.setSeq_hdrs (n : Nat) (q : Seq) : (s.setSeq n q).hdrs = s.hdrs := rfl
@[simp] theorem State.setSeq_last (n : Nat) (q : Seq) : (s.setSeq n q).last = s.last := rfl
@[simp] theorem State.setSeq_out (n : Nat) (q : Seq) : (s.setSeq n q).out = s.out := rfl
@[simp] theorem State.setSeq_free (n : Nat) (q : Seq) : (s.setSeq n q).free = s.free := rfl
@[simp] theorem State.setSeq_clock (n : Nat) (q : Seq) : (s.setSeq n q).clock = s.clock := rfl
@[simp] theorem State.setSeq_era (n : Nat) (q : Seq) : (s.setSeq n q).era = s.era := rfl
@[simp] theorem State.setSeq_dram (n : Nat) (q : Seq) : (s.setSeq n q).dram = s.dram := rfl
@[simp] theorem State.setSeq_power (n : Nat) (q : Seq) : (s.setSeq n q).power = s.power := rfl
@[simp] theorem State.setSeq_backup (n : Nat) (q : Seq) : (s.setSeq n q).backup = s.backup := rfl
@[simp] theorem State.setSeq_nvs (n : Nat) (q : Seq) : (s.setSeq n q).nvs = s.nvs := rfl
@[simp] theorem State.setSeq_links (n : Nat) (q : Seq) : (s.setSeq n q).links = s.links := rfl
@[simp] theorem State.setSeq_masters (n : Nat) (q : Seq) : (s.setSeq n q).masters = s.masters := rfl
@[simp] theorem State.setSeq_mbx (n : Nat) (q : Seq) : (s.setSeq n q).mbx = s.mbx := rfl
@[simp] theorem State.setSeq_keeper (n : Nat) (q : Seq) : (s.setSeq n q).keeper = s.keeper := rfl
@[simp] theorem State.setSeq_fw (n : Nat) (q : Seq) : (s.setSeq n q).fw = s.fw := rfl
@[simp] theorem State.setSeq_log (n : Nat) (q : Seq) : (s.setSeq n q).log = s.log := rfl
@[simp] theorem State.setSeq_cls (n : Nat) (q : Seq) : (s.setSeq n q).cls = s.cls := rfl
@[simp] theorem State.setSeq_buf (n : Nat) (q : Seq) : (s.setSeq n q).buf = s.buf := rfl
@[simp] theorem State.setSeq_mac (n : Nat) (q : Seq) : (s.setSeq n q).mac = s.mac := rfl
@[simp] theorem State.setSeq_tsu (n : Nat) (q : Seq) : (s.setSeq n q).tsu = s.tsu := rfl
@[simp] theorem State.setSeq_chk (n : Nat) (q : Seq) : (s.setSeq n q).chk = s.chk := rfl
@[simp] theorem State.setSeq_ecc (n : Nat) (q : Seq) : (s.setSeq n q).ecc = s.ecc := rfl
@[simp] theorem State.setSeq_lfr (n : Nat) (q : Seq) : (s.setSeq n q).lfr = s.lfr := rfl
@[simp] theorem State.setSeq_act (n : Nat) (q : Seq) : (s.setSeq n q).act = s.act := rfl
@[simp] theorem State.setSeq_btx (n : Nat) (q : Seq) : (s.setSeq n q).btx = s.btx := rfl
@[simp] theorem State.setSeq_psw (n : Nat) (q : Seq) : (s.setSeq n q).psw = s.psw := rfl
@[simp] theorem State.setSeq_opt (n : Nat) (q : Seq) : (s.setSeq n q).opt = s.opt := rfl
@[simp] theorem State.setSeq_keys (n : Nat) (q : Seq) : (s.setSeq n q).keys = s.keys := rfl
@[simp] theorem State.setSeq_omciUpQ (n : Nat) (q : Seq) : (s.setSeq n q).omciUpQ = s.omciUpQ := rfl
@[simp] theorem State.setSeq_seg (n : Nat) (q : Seq) : (s.setSeq n q).seg = s.seg := rfl

/-! ### setTsu -/

@[simp] theorem State.setTsu_pending (t : TsuSt) : (s.setTsu t).pending = s.pending := rfl
@[simp] theorem State.setTsu_regs (t : TsuSt) : (s.setTsu t).regs = s.regs := rfl
@[simp] theorem State.setTsu_ctrs (t : TsuSt) : (s.setTsu t).ctrs = s.ctrs := rfl
@[simp] theorem State.setTsu_snaps (t : TsuSt) : (s.setTsu t).snaps = s.snaps := rfl
@[simp] theorem State.setTsu_hdrs (t : TsuSt) : (s.setTsu t).hdrs = s.hdrs := rfl
@[simp] theorem State.setTsu_last (t : TsuSt) : (s.setTsu t).last = s.last := rfl
@[simp] theorem State.setTsu_out (t : TsuSt) : (s.setTsu t).out = s.out := rfl
@[simp] theorem State.setTsu_free (t : TsuSt) : (s.setTsu t).free = s.free := rfl
@[simp] theorem State.setTsu_clock (t : TsuSt) : (s.setTsu t).clock = s.clock := rfl
@[simp] theorem State.setTsu_era (t : TsuSt) : (s.setTsu t).era = s.era := rfl
@[simp] theorem State.setTsu_dram (t : TsuSt) : (s.setTsu t).dram = s.dram := rfl
@[simp] theorem State.setTsu_power (t : TsuSt) : (s.setTsu t).power = s.power := rfl
@[simp] theorem State.setTsu_backup (t : TsuSt) : (s.setTsu t).backup = s.backup := rfl
@[simp] theorem State.setTsu_nvs (t : TsuSt) : (s.setTsu t).nvs = s.nvs := rfl
@[simp] theorem State.setTsu_links (t : TsuSt) : (s.setTsu t).links = s.links := rfl
@[simp] theorem State.setTsu_masters (t : TsuSt) : (s.setTsu t).masters = s.masters := rfl
@[simp] theorem State.setTsu_mbx (t : TsuSt) : (s.setTsu t).mbx = s.mbx := rfl
@[simp] theorem State.setTsu_keeper (t : TsuSt) : (s.setTsu t).keeper = s.keeper := rfl
@[simp] theorem State.setTsu_fw (t : TsuSt) : (s.setTsu t).fw = s.fw := rfl
@[simp] theorem State.setTsu_log (t : TsuSt) : (s.setTsu t).log = s.log := rfl
@[simp] theorem State.setTsu_cls (t : TsuSt) : (s.setTsu t).cls = s.cls := rfl
@[simp] theorem State.setTsu_buf (t : TsuSt) : (s.setTsu t).buf = s.buf := rfl
@[simp] theorem State.setTsu_mac (t : TsuSt) : (s.setTsu t).mac = s.mac := rfl
@[simp] theorem State.setTsu_tsu (t : TsuSt) : (s.setTsu t).tsu = t := rfl
@[simp] theorem State.setTsu_chk (t : TsuSt) : (s.setTsu t).chk = s.chk := rfl
@[simp] theorem State.setTsu_seqs (t : TsuSt) : (s.setTsu t).seqs = s.seqs := rfl
@[simp] theorem State.setTsu_ecc (t : TsuSt) : (s.setTsu t).ecc = s.ecc := rfl
@[simp] theorem State.setTsu_lfr (t : TsuSt) : (s.setTsu t).lfr = s.lfr := rfl
@[simp] theorem State.setTsu_act (t : TsuSt) : (s.setTsu t).act = s.act := rfl
@[simp] theorem State.setTsu_btx (t : TsuSt) : (s.setTsu t).btx = s.btx := rfl
@[simp] theorem State.setTsu_psw (t : TsuSt) : (s.setTsu t).psw = s.psw := rfl
@[simp] theorem State.setTsu_opt (t : TsuSt) : (s.setTsu t).opt = s.opt := rfl
@[simp] theorem State.setTsu_keys (t : TsuSt) : (s.setTsu t).keys = s.keys := rfl
@[simp] theorem State.setTsu_omciUpQ (t : TsuSt) : (s.setTsu t).omciUpQ = s.omciUpQ := rfl
@[simp] theorem State.setTsu_seg (t : TsuSt) : (s.setTsu t).seg = s.seg := rfl

/-! ### setChan -/

@[simp] theorem State.setChan_pending (n : Nat) (x : Chk) : (s.setChan n x).pending = s.pending := rfl
@[simp] theorem State.setChan_regs (n : Nat) (x : Chk) : (s.setChan n x).regs = s.regs := rfl
@[simp] theorem State.setChan_ctrs (n : Nat) (x : Chk) : (s.setChan n x).ctrs = s.ctrs := rfl
@[simp] theorem State.setChan_snaps (n : Nat) (x : Chk) : (s.setChan n x).snaps = s.snaps := rfl
@[simp] theorem State.setChan_hdrs (n : Nat) (x : Chk) : (s.setChan n x).hdrs = s.hdrs := rfl
@[simp] theorem State.setChan_last (n : Nat) (x : Chk) : (s.setChan n x).last = s.last := rfl
@[simp] theorem State.setChan_out (n : Nat) (x : Chk) : (s.setChan n x).out = s.out := rfl
@[simp] theorem State.setChan_free (n : Nat) (x : Chk) : (s.setChan n x).free = s.free := rfl
@[simp] theorem State.setChan_clock (n : Nat) (x : Chk) : (s.setChan n x).clock = s.clock := rfl
@[simp] theorem State.setChan_era (n : Nat) (x : Chk) : (s.setChan n x).era = s.era := rfl
@[simp] theorem State.setChan_dram (n : Nat) (x : Chk) : (s.setChan n x).dram = s.dram := rfl
@[simp] theorem State.setChan_power (n : Nat) (x : Chk) : (s.setChan n x).power = s.power := rfl
@[simp] theorem State.setChan_backup (n : Nat) (x : Chk) : (s.setChan n x).backup = s.backup := rfl
@[simp] theorem State.setChan_nvs (n : Nat) (x : Chk) : (s.setChan n x).nvs = s.nvs := rfl
@[simp] theorem State.setChan_links (n : Nat) (x : Chk) : (s.setChan n x).links = s.links := rfl
@[simp] theorem State.setChan_masters (n : Nat) (x : Chk) : (s.setChan n x).masters = s.masters := rfl
@[simp] theorem State.setChan_mbx (n : Nat) (x : Chk) : (s.setChan n x).mbx = s.mbx := rfl
@[simp] theorem State.setChan_keeper (n : Nat) (x : Chk) : (s.setChan n x).keeper = s.keeper := rfl
@[simp] theorem State.setChan_fw (n : Nat) (x : Chk) : (s.setChan n x).fw = s.fw := rfl
@[simp] theorem State.setChan_log (n : Nat) (x : Chk) : (s.setChan n x).log = s.log := rfl
@[simp] theorem State.setChan_cls (n : Nat) (x : Chk) : (s.setChan n x).cls = s.cls := rfl
@[simp] theorem State.setChan_buf (n : Nat) (x : Chk) : (s.setChan n x).buf = s.buf := rfl
@[simp] theorem State.setChan_mac (n : Nat) (x : Chk) : (s.setChan n x).mac = s.mac := rfl
@[simp] theorem State.setChan_tsu (n : Nat) (x : Chk) : (s.setChan n x).tsu = s.tsu := rfl
@[simp] theorem State.setChan_seqs (n : Nat) (x : Chk) : (s.setChan n x).seqs = s.seqs := rfl
@[simp] theorem State.setChan_ecc (n : Nat) (x : Chk) : (s.setChan n x).ecc = s.ecc := rfl
@[simp] theorem State.setChan_lfr (n : Nat) (x : Chk) : (s.setChan n x).lfr = s.lfr := rfl
@[simp] theorem State.setChan_act (n : Nat) (x : Chk) : (s.setChan n x).act = s.act := rfl
@[simp] theorem State.setChan_btx (n : Nat) (x : Chk) : (s.setChan n x).btx = s.btx := rfl
@[simp] theorem State.setChan_psw (n : Nat) (x : Chk) : (s.setChan n x).psw = s.psw := rfl
@[simp] theorem State.setChan_opt (n : Nat) (x : Chk) : (s.setChan n x).opt = s.opt := rfl
@[simp] theorem State.setChan_keys (n : Nat) (x : Chk) : (s.setChan n x).keys = s.keys := rfl
@[simp] theorem State.setChan_omciUpQ (n : Nat) (x : Chk) : (s.setChan n x).omciUpQ = s.omciUpQ := rfl
@[simp] theorem State.setChan_seg (n : Nat) (x : Chk) : (s.setChan n x).seg = s.seg := rfl

/-! ### setLfr -/

@[simp] theorem State.setLfr_pending (f : AB) (x : LfrSt) : (s.setLfr f x).pending = s.pending := rfl
@[simp] theorem State.setLfr_regs (f : AB) (x : LfrSt) : (s.setLfr f x).regs = s.regs := rfl
@[simp] theorem State.setLfr_ctrs (f : AB) (x : LfrSt) : (s.setLfr f x).ctrs = s.ctrs := rfl
@[simp] theorem State.setLfr_snaps (f : AB) (x : LfrSt) : (s.setLfr f x).snaps = s.snaps := rfl
@[simp] theorem State.setLfr_hdrs (f : AB) (x : LfrSt) : (s.setLfr f x).hdrs = s.hdrs := rfl
@[simp] theorem State.setLfr_last (f : AB) (x : LfrSt) : (s.setLfr f x).last = s.last := rfl
@[simp] theorem State.setLfr_out (f : AB) (x : LfrSt) : (s.setLfr f x).out = s.out := rfl
@[simp] theorem State.setLfr_free (f : AB) (x : LfrSt) : (s.setLfr f x).free = s.free := rfl
@[simp] theorem State.setLfr_clock (f : AB) (x : LfrSt) : (s.setLfr f x).clock = s.clock := rfl
@[simp] theorem State.setLfr_era (f : AB) (x : LfrSt) : (s.setLfr f x).era = s.era := rfl
@[simp] theorem State.setLfr_dram (f : AB) (x : LfrSt) : (s.setLfr f x).dram = s.dram := rfl
@[simp] theorem State.setLfr_power (f : AB) (x : LfrSt) : (s.setLfr f x).power = s.power := rfl
@[simp] theorem State.setLfr_backup (f : AB) (x : LfrSt) : (s.setLfr f x).backup = s.backup := rfl
@[simp] theorem State.setLfr_nvs (f : AB) (x : LfrSt) : (s.setLfr f x).nvs = s.nvs := rfl
@[simp] theorem State.setLfr_links (f : AB) (x : LfrSt) : (s.setLfr f x).links = s.links := rfl
@[simp] theorem State.setLfr_masters (f : AB) (x : LfrSt) : (s.setLfr f x).masters = s.masters := rfl
@[simp] theorem State.setLfr_mbx (f : AB) (x : LfrSt) : (s.setLfr f x).mbx = s.mbx := rfl
@[simp] theorem State.setLfr_keeper (f : AB) (x : LfrSt) : (s.setLfr f x).keeper = s.keeper := rfl
@[simp] theorem State.setLfr_fw (f : AB) (x : LfrSt) : (s.setLfr f x).fw = s.fw := rfl
@[simp] theorem State.setLfr_log (f : AB) (x : LfrSt) : (s.setLfr f x).log = s.log := rfl
@[simp] theorem State.setLfr_cls (f : AB) (x : LfrSt) : (s.setLfr f x).cls = s.cls := rfl
@[simp] theorem State.setLfr_buf (f : AB) (x : LfrSt) : (s.setLfr f x).buf = s.buf := rfl
@[simp] theorem State.setLfr_mac (f : AB) (x : LfrSt) : (s.setLfr f x).mac = s.mac := rfl
@[simp] theorem State.setLfr_tsu (f : AB) (x : LfrSt) : (s.setLfr f x).tsu = s.tsu := rfl
@[simp] theorem State.setLfr_chk (f : AB) (x : LfrSt) : (s.setLfr f x).chk = s.chk := rfl
@[simp] theorem State.setLfr_seqs (f : AB) (x : LfrSt) : (s.setLfr f x).seqs = s.seqs := rfl
@[simp] theorem State.setLfr_ecc (f : AB) (x : LfrSt) : (s.setLfr f x).ecc = s.ecc := rfl
@[simp] theorem State.setLfr_act (f : AB) (x : LfrSt) : (s.setLfr f x).act = s.act := rfl
@[simp] theorem State.setLfr_btx (f : AB) (x : LfrSt) : (s.setLfr f x).btx = s.btx := rfl
@[simp] theorem State.setLfr_psw (f : AB) (x : LfrSt) : (s.setLfr f x).psw = s.psw := rfl
@[simp] theorem State.setLfr_opt (f : AB) (x : LfrSt) : (s.setLfr f x).opt = s.opt := rfl
@[simp] theorem State.setLfr_keys (f : AB) (x : LfrSt) : (s.setLfr f x).keys = s.keys := rfl
@[simp] theorem State.setLfr_omciUpQ (f : AB) (x : LfrSt) : (s.setLfr f x).omciUpQ = s.omciUpQ := rfl
@[simp] theorem State.setLfr_seg (f : AB) (x : LfrSt) : (s.setLfr f x).seg = s.seg := rfl

/-! ### setActSt -/

@[simp] theorem State.setActSt_pending (f : AB) (x : ActSt) : (s.setActSt f x).pending = s.pending := rfl
@[simp] theorem State.setActSt_regs (f : AB) (x : ActSt) : (s.setActSt f x).regs = s.regs := rfl
@[simp] theorem State.setActSt_ctrs (f : AB) (x : ActSt) : (s.setActSt f x).ctrs = s.ctrs := rfl
@[simp] theorem State.setActSt_snaps (f : AB) (x : ActSt) : (s.setActSt f x).snaps = s.snaps := rfl
@[simp] theorem State.setActSt_hdrs (f : AB) (x : ActSt) : (s.setActSt f x).hdrs = s.hdrs := rfl
@[simp] theorem State.setActSt_last (f : AB) (x : ActSt) : (s.setActSt f x).last = s.last := rfl
@[simp] theorem State.setActSt_out (f : AB) (x : ActSt) : (s.setActSt f x).out = s.out := rfl
@[simp] theorem State.setActSt_free (f : AB) (x : ActSt) : (s.setActSt f x).free = s.free := rfl
@[simp] theorem State.setActSt_clock (f : AB) (x : ActSt) : (s.setActSt f x).clock = s.clock := rfl
@[simp] theorem State.setActSt_era (f : AB) (x : ActSt) : (s.setActSt f x).era = s.era := rfl
@[simp] theorem State.setActSt_dram (f : AB) (x : ActSt) : (s.setActSt f x).dram = s.dram := rfl
@[simp] theorem State.setActSt_power (f : AB) (x : ActSt) : (s.setActSt f x).power = s.power := rfl
@[simp] theorem State.setActSt_backup (f : AB) (x : ActSt) : (s.setActSt f x).backup = s.backup := rfl
@[simp] theorem State.setActSt_nvs (f : AB) (x : ActSt) : (s.setActSt f x).nvs = s.nvs := rfl
@[simp] theorem State.setActSt_links (f : AB) (x : ActSt) : (s.setActSt f x).links = s.links := rfl
@[simp] theorem State.setActSt_masters (f : AB) (x : ActSt) : (s.setActSt f x).masters = s.masters := rfl
@[simp] theorem State.setActSt_mbx (f : AB) (x : ActSt) : (s.setActSt f x).mbx = s.mbx := rfl
@[simp] theorem State.setActSt_keeper (f : AB) (x : ActSt) : (s.setActSt f x).keeper = s.keeper := rfl
@[simp] theorem State.setActSt_fw (f : AB) (x : ActSt) : (s.setActSt f x).fw = s.fw := rfl
@[simp] theorem State.setActSt_log (f : AB) (x : ActSt) : (s.setActSt f x).log = s.log := rfl
@[simp] theorem State.setActSt_cls (f : AB) (x : ActSt) : (s.setActSt f x).cls = s.cls := rfl
@[simp] theorem State.setActSt_buf (f : AB) (x : ActSt) : (s.setActSt f x).buf = s.buf := rfl
@[simp] theorem State.setActSt_mac (f : AB) (x : ActSt) : (s.setActSt f x).mac = s.mac := rfl
@[simp] theorem State.setActSt_tsu (f : AB) (x : ActSt) : (s.setActSt f x).tsu = s.tsu := rfl
@[simp] theorem State.setActSt_chk (f : AB) (x : ActSt) : (s.setActSt f x).chk = s.chk := rfl
@[simp] theorem State.setActSt_seqs (f : AB) (x : ActSt) : (s.setActSt f x).seqs = s.seqs := rfl
@[simp] theorem State.setActSt_ecc (f : AB) (x : ActSt) : (s.setActSt f x).ecc = s.ecc := rfl
@[simp] theorem State.setActSt_lfr (f : AB) (x : ActSt) : (s.setActSt f x).lfr = s.lfr := rfl
@[simp] theorem State.setActSt_btx (f : AB) (x : ActSt) : (s.setActSt f x).btx = s.btx := rfl
@[simp] theorem State.setActSt_psw (f : AB) (x : ActSt) : (s.setActSt f x).psw = s.psw := rfl
@[simp] theorem State.setActSt_opt (f : AB) (x : ActSt) : (s.setActSt f x).opt = s.opt := rfl
@[simp] theorem State.setActSt_keys (f : AB) (x : ActSt) : (s.setActSt f x).keys = s.keys := rfl
@[simp] theorem State.setActSt_omciUpQ (f : AB) (x : ActSt) : (s.setActSt f x).omciUpQ = s.omciUpQ := rfl
@[simp] theorem State.setActSt_seg (f : AB) (x : ActSt) : (s.setActSt f x).seg = s.seg := rfl

/-! ### setBtx -/

@[simp] theorem State.setBtx_pending (f : AB) (x : BtxSt) : (s.setBtx f x).pending = s.pending := rfl
@[simp] theorem State.setBtx_regs (f : AB) (x : BtxSt) : (s.setBtx f x).regs = s.regs := rfl
@[simp] theorem State.setBtx_ctrs (f : AB) (x : BtxSt) : (s.setBtx f x).ctrs = s.ctrs := rfl
@[simp] theorem State.setBtx_snaps (f : AB) (x : BtxSt) : (s.setBtx f x).snaps = s.snaps := rfl
@[simp] theorem State.setBtx_hdrs (f : AB) (x : BtxSt) : (s.setBtx f x).hdrs = s.hdrs := rfl
@[simp] theorem State.setBtx_last (f : AB) (x : BtxSt) : (s.setBtx f x).last = s.last := rfl
@[simp] theorem State.setBtx_out (f : AB) (x : BtxSt) : (s.setBtx f x).out = s.out := rfl
@[simp] theorem State.setBtx_free (f : AB) (x : BtxSt) : (s.setBtx f x).free = s.free := rfl
@[simp] theorem State.setBtx_clock (f : AB) (x : BtxSt) : (s.setBtx f x).clock = s.clock := rfl
@[simp] theorem State.setBtx_era (f : AB) (x : BtxSt) : (s.setBtx f x).era = s.era := rfl
@[simp] theorem State.setBtx_dram (f : AB) (x : BtxSt) : (s.setBtx f x).dram = s.dram := rfl
@[simp] theorem State.setBtx_power (f : AB) (x : BtxSt) : (s.setBtx f x).power = s.power := rfl
@[simp] theorem State.setBtx_backup (f : AB) (x : BtxSt) : (s.setBtx f x).backup = s.backup := rfl
@[simp] theorem State.setBtx_nvs (f : AB) (x : BtxSt) : (s.setBtx f x).nvs = s.nvs := rfl
@[simp] theorem State.setBtx_links (f : AB) (x : BtxSt) : (s.setBtx f x).links = s.links := rfl
@[simp] theorem State.setBtx_masters (f : AB) (x : BtxSt) : (s.setBtx f x).masters = s.masters := rfl
@[simp] theorem State.setBtx_mbx (f : AB) (x : BtxSt) : (s.setBtx f x).mbx = s.mbx := rfl
@[simp] theorem State.setBtx_keeper (f : AB) (x : BtxSt) : (s.setBtx f x).keeper = s.keeper := rfl
@[simp] theorem State.setBtx_fw (f : AB) (x : BtxSt) : (s.setBtx f x).fw = s.fw := rfl
@[simp] theorem State.setBtx_log (f : AB) (x : BtxSt) : (s.setBtx f x).log = s.log := rfl
@[simp] theorem State.setBtx_cls (f : AB) (x : BtxSt) : (s.setBtx f x).cls = s.cls := rfl
@[simp] theorem State.setBtx_buf (f : AB) (x : BtxSt) : (s.setBtx f x).buf = s.buf := rfl
@[simp] theorem State.setBtx_mac (f : AB) (x : BtxSt) : (s.setBtx f x).mac = s.mac := rfl
@[simp] theorem State.setBtx_tsu (f : AB) (x : BtxSt) : (s.setBtx f x).tsu = s.tsu := rfl
@[simp] theorem State.setBtx_chk (f : AB) (x : BtxSt) : (s.setBtx f x).chk = s.chk := rfl
@[simp] theorem State.setBtx_seqs (f : AB) (x : BtxSt) : (s.setBtx f x).seqs = s.seqs := rfl
@[simp] theorem State.setBtx_ecc (f : AB) (x : BtxSt) : (s.setBtx f x).ecc = s.ecc := rfl
@[simp] theorem State.setBtx_lfr (f : AB) (x : BtxSt) : (s.setBtx f x).lfr = s.lfr := rfl
@[simp] theorem State.setBtx_act (f : AB) (x : BtxSt) : (s.setBtx f x).act = s.act := rfl
@[simp] theorem State.setBtx_psw (f : AB) (x : BtxSt) : (s.setBtx f x).psw = s.psw := rfl
@[simp] theorem State.setBtx_opt (f : AB) (x : BtxSt) : (s.setBtx f x).opt = s.opt := rfl
@[simp] theorem State.setBtx_keys (f : AB) (x : BtxSt) : (s.setBtx f x).keys = s.keys := rfl
@[simp] theorem State.setBtx_omciUpQ (f : AB) (x : BtxSt) : (s.setBtx f x).omciUpQ = s.omciUpQ := rfl
@[simp] theorem State.setBtx_seg (f : AB) (x : BtxSt) : (s.setBtx f x).seg = s.seg := rfl

/-! ### setOpt -/

@[simp] theorem State.setOpt_pending (c : AB) (x : OptSt) : (s.setOpt c x).pending = s.pending := rfl
@[simp] theorem State.setOpt_regs (c : AB) (x : OptSt) : (s.setOpt c x).regs = s.regs := rfl
@[simp] theorem State.setOpt_ctrs (c : AB) (x : OptSt) : (s.setOpt c x).ctrs = s.ctrs := rfl
@[simp] theorem State.setOpt_snaps (c : AB) (x : OptSt) : (s.setOpt c x).snaps = s.snaps := rfl
@[simp] theorem State.setOpt_hdrs (c : AB) (x : OptSt) : (s.setOpt c x).hdrs = s.hdrs := rfl
@[simp] theorem State.setOpt_last (c : AB) (x : OptSt) : (s.setOpt c x).last = s.last := rfl
@[simp] theorem State.setOpt_out (c : AB) (x : OptSt) : (s.setOpt c x).out = s.out := rfl
@[simp] theorem State.setOpt_free (c : AB) (x : OptSt) : (s.setOpt c x).free = s.free := rfl
@[simp] theorem State.setOpt_clock (c : AB) (x : OptSt) : (s.setOpt c x).clock = s.clock := rfl
@[simp] theorem State.setOpt_era (c : AB) (x : OptSt) : (s.setOpt c x).era = s.era := rfl
@[simp] theorem State.setOpt_dram (c : AB) (x : OptSt) : (s.setOpt c x).dram = s.dram := rfl
@[simp] theorem State.setOpt_power (c : AB) (x : OptSt) : (s.setOpt c x).power = s.power := rfl
@[simp] theorem State.setOpt_backup (c : AB) (x : OptSt) : (s.setOpt c x).backup = s.backup := rfl
@[simp] theorem State.setOpt_nvs (c : AB) (x : OptSt) : (s.setOpt c x).nvs = s.nvs := rfl
@[simp] theorem State.setOpt_links (c : AB) (x : OptSt) : (s.setOpt c x).links = s.links := rfl
@[simp] theorem State.setOpt_masters (c : AB) (x : OptSt) : (s.setOpt c x).masters = s.masters := rfl
@[simp] theorem State.setOpt_mbx (c : AB) (x : OptSt) : (s.setOpt c x).mbx = s.mbx := rfl
@[simp] theorem State.setOpt_keeper (c : AB) (x : OptSt) : (s.setOpt c x).keeper = s.keeper := rfl
@[simp] theorem State.setOpt_fw (c : AB) (x : OptSt) : (s.setOpt c x).fw = s.fw := rfl
@[simp] theorem State.setOpt_log (c : AB) (x : OptSt) : (s.setOpt c x).log = s.log := rfl
@[simp] theorem State.setOpt_cls (c : AB) (x : OptSt) : (s.setOpt c x).cls = s.cls := rfl
@[simp] theorem State.setOpt_buf (c : AB) (x : OptSt) : (s.setOpt c x).buf = s.buf := rfl
@[simp] theorem State.setOpt_mac (c : AB) (x : OptSt) : (s.setOpt c x).mac = s.mac := rfl
@[simp] theorem State.setOpt_tsu (c : AB) (x : OptSt) : (s.setOpt c x).tsu = s.tsu := rfl
@[simp] theorem State.setOpt_chk (c : AB) (x : OptSt) : (s.setOpt c x).chk = s.chk := rfl
@[simp] theorem State.setOpt_seqs (c : AB) (x : OptSt) : (s.setOpt c x).seqs = s.seqs := rfl
@[simp] theorem State.setOpt_ecc (c : AB) (x : OptSt) : (s.setOpt c x).ecc = s.ecc := rfl
@[simp] theorem State.setOpt_lfr (c : AB) (x : OptSt) : (s.setOpt c x).lfr = s.lfr := rfl
@[simp] theorem State.setOpt_act (c : AB) (x : OptSt) : (s.setOpt c x).act = s.act := rfl
@[simp] theorem State.setOpt_btx (c : AB) (x : OptSt) : (s.setOpt c x).btx = s.btx := rfl
@[simp] theorem State.setOpt_psw (c : AB) (x : OptSt) : (s.setOpt c x).psw = s.psw := rfl
@[simp] theorem State.setOpt_keys (c : AB) (x : OptSt) : (s.setOpt c x).keys = s.keys := rfl
@[simp] theorem State.setOpt_omciUpQ (c : AB) (x : OptSt) : (s.setOpt c x).omciUpQ = s.omciUpQ := rfl
@[simp] theorem State.setOpt_seg (c : AB) (x : OptSt) : (s.setOpt c x).seg = s.seg := rfl

/-! ### setNvs -/

@[simp] theorem State.setNvs_pending (x : NvsSt) : (s.setNvs x).pending = s.pending := rfl
@[simp] theorem State.setNvs_regs (x : NvsSt) : (s.setNvs x).regs = s.regs := rfl
@[simp] theorem State.setNvs_ctrs (x : NvsSt) : (s.setNvs x).ctrs = s.ctrs := rfl
@[simp] theorem State.setNvs_snaps (x : NvsSt) : (s.setNvs x).snaps = s.snaps := rfl
@[simp] theorem State.setNvs_hdrs (x : NvsSt) : (s.setNvs x).hdrs = s.hdrs := rfl
@[simp] theorem State.setNvs_last (x : NvsSt) : (s.setNvs x).last = s.last := rfl
@[simp] theorem State.setNvs_out (x : NvsSt) : (s.setNvs x).out = s.out := rfl
@[simp] theorem State.setNvs_free (x : NvsSt) : (s.setNvs x).free = s.free := rfl
@[simp] theorem State.setNvs_clock (x : NvsSt) : (s.setNvs x).clock = s.clock := rfl
@[simp] theorem State.setNvs_era (x : NvsSt) : (s.setNvs x).era = s.era := rfl
@[simp] theorem State.setNvs_dram (x : NvsSt) : (s.setNvs x).dram = s.dram := rfl
@[simp] theorem State.setNvs_power (x : NvsSt) : (s.setNvs x).power = s.power := rfl
@[simp] theorem State.setNvs_backup (x : NvsSt) : (s.setNvs x).backup = s.backup := rfl
@[simp] theorem State.setNvs_nvs (x : NvsSt) : (s.setNvs x).nvs = x := rfl
@[simp] theorem State.setNvs_links (x : NvsSt) : (s.setNvs x).links = s.links := rfl
@[simp] theorem State.setNvs_masters (x : NvsSt) : (s.setNvs x).masters = s.masters := rfl
@[simp] theorem State.setNvs_mbx (x : NvsSt) : (s.setNvs x).mbx = s.mbx := rfl
@[simp] theorem State.setNvs_keeper (x : NvsSt) : (s.setNvs x).keeper = s.keeper := rfl
@[simp] theorem State.setNvs_fw (x : NvsSt) : (s.setNvs x).fw = s.fw := rfl
@[simp] theorem State.setNvs_log (x : NvsSt) : (s.setNvs x).log = s.log := rfl
@[simp] theorem State.setNvs_cls (x : NvsSt) : (s.setNvs x).cls = s.cls := rfl
@[simp] theorem State.setNvs_buf (x : NvsSt) : (s.setNvs x).buf = s.buf := rfl
@[simp] theorem State.setNvs_mac (x : NvsSt) : (s.setNvs x).mac = s.mac := rfl
@[simp] theorem State.setNvs_tsu (x : NvsSt) : (s.setNvs x).tsu = s.tsu := rfl
@[simp] theorem State.setNvs_chk (x : NvsSt) : (s.setNvs x).chk = s.chk := rfl
@[simp] theorem State.setNvs_seqs (x : NvsSt) : (s.setNvs x).seqs = s.seqs := rfl
@[simp] theorem State.setNvs_ecc (x : NvsSt) : (s.setNvs x).ecc = s.ecc := rfl
@[simp] theorem State.setNvs_lfr (x : NvsSt) : (s.setNvs x).lfr = s.lfr := rfl
@[simp] theorem State.setNvs_act (x : NvsSt) : (s.setNvs x).act = s.act := rfl
@[simp] theorem State.setNvs_btx (x : NvsSt) : (s.setNvs x).btx = s.btx := rfl
@[simp] theorem State.setNvs_psw (x : NvsSt) : (s.setNvs x).psw = s.psw := rfl
@[simp] theorem State.setNvs_opt (x : NvsSt) : (s.setNvs x).opt = s.opt := rfl
@[simp] theorem State.setNvs_keys (x : NvsSt) : (s.setNvs x).keys = s.keys := rfl
@[simp] theorem State.setNvs_omciUpQ (x : NvsSt) : (s.setNvs x).omciUpQ = s.omciUpQ := rfl
@[simp] theorem State.setNvs_seg (x : NvsSt) : (s.setNvs x).seg = s.seg := rfl

/-! ### setWaiting -/

@[simp] theorem State.setWaiting_pending (l : List Pkt) : (s.setWaiting l).pending = s.pending := rfl
@[simp] theorem State.setWaiting_regs (l : List Pkt) : (s.setWaiting l).regs = s.regs := rfl
@[simp] theorem State.setWaiting_ctrs (l : List Pkt) : (s.setWaiting l).ctrs = s.ctrs := rfl
@[simp] theorem State.setWaiting_snaps (l : List Pkt) : (s.setWaiting l).snaps = s.snaps := rfl
@[simp] theorem State.setWaiting_hdrs (l : List Pkt) : (s.setWaiting l).hdrs = s.hdrs := rfl
@[simp] theorem State.setWaiting_last (l : List Pkt) : (s.setWaiting l).last = s.last := rfl
@[simp] theorem State.setWaiting_out (l : List Pkt) : (s.setWaiting l).out = s.out := rfl
@[simp] theorem State.setWaiting_free (l : List Pkt) : (s.setWaiting l).free = s.free := rfl
@[simp] theorem State.setWaiting_clock (l : List Pkt) : (s.setWaiting l).clock = s.clock := rfl
@[simp] theorem State.setWaiting_era (l : List Pkt) : (s.setWaiting l).era = s.era := rfl
@[simp] theorem State.setWaiting_dram (l : List Pkt) : (s.setWaiting l).dram = s.dram := rfl
@[simp] theorem State.setWaiting_power (l : List Pkt) : (s.setWaiting l).power = s.power := rfl
@[simp] theorem State.setWaiting_backup (l : List Pkt) : (s.setWaiting l).backup = s.backup := rfl
@[simp] theorem State.setWaiting_nvs (l : List Pkt) : (s.setWaiting l).nvs = s.nvs := rfl
@[simp] theorem State.setWaiting_links (l : List Pkt) : (s.setWaiting l).links = s.links := rfl
@[simp] theorem State.setWaiting_masters (l : List Pkt) : (s.setWaiting l).masters = s.masters := rfl
@[simp] theorem State.setWaiting_mbx (l : List Pkt) : (s.setWaiting l).mbx = s.mbx := rfl
@[simp] theorem State.setWaiting_keeper (l : List Pkt) : (s.setWaiting l).keeper = s.keeper := rfl
@[simp] theorem State.setWaiting_fw (l : List Pkt) : (s.setWaiting l).fw = s.fw := rfl
@[simp] theorem State.setWaiting_log (l : List Pkt) : (s.setWaiting l).log = s.log := rfl
@[simp] theorem State.setWaiting_buf (l : List Pkt) : (s.setWaiting l).buf = s.buf := rfl
@[simp] theorem State.setWaiting_mac (l : List Pkt) : (s.setWaiting l).mac = s.mac := rfl
@[simp] theorem State.setWaiting_tsu (l : List Pkt) : (s.setWaiting l).tsu = s.tsu := rfl
@[simp] theorem State.setWaiting_chk (l : List Pkt) : (s.setWaiting l).chk = s.chk := rfl
@[simp] theorem State.setWaiting_seqs (l : List Pkt) : (s.setWaiting l).seqs = s.seqs := rfl
@[simp] theorem State.setWaiting_ecc (l : List Pkt) : (s.setWaiting l).ecc = s.ecc := rfl
@[simp] theorem State.setWaiting_lfr (l : List Pkt) : (s.setWaiting l).lfr = s.lfr := rfl
@[simp] theorem State.setWaiting_act (l : List Pkt) : (s.setWaiting l).act = s.act := rfl
@[simp] theorem State.setWaiting_btx (l : List Pkt) : (s.setWaiting l).btx = s.btx := rfl
@[simp] theorem State.setWaiting_psw (l : List Pkt) : (s.setWaiting l).psw = s.psw := rfl
@[simp] theorem State.setWaiting_opt (l : List Pkt) : (s.setWaiting l).opt = s.opt := rfl
@[simp] theorem State.setWaiting_keys (l : List Pkt) : (s.setWaiting l).keys = s.keys := rfl
@[simp] theorem State.setWaiting_omciUpQ (l : List Pkt) : (s.setWaiting l).omciUpQ = s.omciUpQ := rfl
@[simp] theorem State.setWaiting_seg (l : List Pkt) : (s.setWaiting l).seg = s.seg := rfl
@[simp] theorem State.setWaiting_lanes (l : List Pkt) : (s.setWaiting l).cls.lanes = s.cls.lanes := rfl
@[simp] theorem State.setWaiting_waiting (l : List Pkt) : (s.setWaiting l).cls.waiting = l := rfl

/-! ### Reads after writes -/

@[simp] theorem AB.other_ne (x : AB) : x.other ≠ x := by cases x <;> decide

@[simp] theorem Pair.get_set_same {α : Type} (p : Pair α) (x : AB) (v : α) : (p.set x v).get x = v := by cases x <;> rfl

theorem Pair.get_set_other {α : Type} (p : Pair α) {x y : AB} (h : y ≠ x) (v : α) : (p.set x v).get y = p.get y := by
  cases x <;> cases y <;> first | rfl | exact absurd rfl h

@[simp] theorem State.rd_wr_same (a : Nat) (v : Word) : (s.wr a v).rd a = v := tblGet_tblSet_same _ _ _ _

theorem State.rd_wr_other {a b : Nat} (h : b ≠ a) (v : Word) : (s.wr a v).rd b = s.rd b := tblGet_tblSet_other _ _ _ h _

@[simp] theorem State.hdr_setHdr_same (p : Nat) (h : Hdr) : (s.setHdr p h).hdr p = h := tblGet_tblSet_same _ _ _ _

theorem State.hdr_setHdr_other {p q : Nat} (hq : q ≠ p) (h : Hdr) : (s.setHdr p h).hdr q = s.hdr q :=
  tblGet_tblSet_other _ _ _ hq _

@[simp] theorem State.link_setLink_same (l : AB) (k : LinkSt) : (s.setLink l k).link l = k := Pair.get_set_same _ _ _

@[simp] theorem State.sem_setSem_same (n : Nat) (x : Sem) : (s.setSem n x).sem n = x := tblGet_tblSet_same _ _ _ _

theorem State.sem_setSem_other {n j : Nat} (h : j ≠ n) (x : Sem) : (s.setSem n x).sem j = s.sem j :=
  tblGet_tblSet_other _ _ _ h _

@[simp] theorem State.box_setBox_same (i : Nat) (b : Mbx) : (s.setBox i b).box i = b := tblGet_tblSet_same _ _ _ _

@[simp] theorem State.port_setPort_same (n : Nat) (x : MacPort) : (s.setPort n x).port n = x := tblGet_tblSet_same _ _ _ _

@[simp] theorem State.queue_setQueue_same (k : Nat) (q : List Pkt) : (s.setQueue k q).queue k = q := tblGet_tblSet_same _ _ _ _

@[simp] theorem State.lane_setLane_same (n : Nat) (x : Lane) : (s.setLane n x).lane n = x := tblGet_tblSet_same _ _ _ _

@[simp] theorem State.ruleAt_setRule_same (i : Nat) (r : Rule) : (s.setRule i r).ruleAt i = r := tblGet_tblSet_same _ _ _ _

@[simp] theorem State.frz_setFrz_same (m : AB) (f : Freeze) : (s.setFrz m f).frz m = f := Pair.get_set_same _ _ _

@[simp] theorem State.seq_setSeq_same (n : Nat) (q : Seq) : (s.setSeq n q).seq n = q := tblGet_tblSet_same _ _ _ _

@[simp] theorem State.chan_setChan_same (n : Nat) (x : Chk) : (s.setChan n x).chan n = x := tblGet_tblSet_same _ _ _ _

end Sys2Proof.Machine
end

