-- ==== Sys2Proof/Laws/Ops.lean ====
section
/-!
SUPPORT. What each shared operation can do, said once: interrupts, wide counters, faults, discards, and single-word accesses; with the
calculus of frames.
-/

namespace Sys2Proof.Machine

/-! ### Frames -/

/-- What both branches give. -/
theorem ite_all {P : State → Prop} {c : Prop} [Decidable c] {a b : State} (ha : P a) (hb : P b) : P (if c then a else b) := by
  split
  · exact ha
  · exact hb

theorem keeps_refl (l : List Part) (s : State) : keeps l s s := by
  intro p _
  cases p <;> rfl

theorem Part.same_trans {p : Part} {s t u : State} (a : p.same s t) (b : p.same t u) : p.same s u := by
  cases p <;> exact Eq.trans b a

theorem keeps_trans {l m : List Part} {s t u : State} (a : keeps l s t) (b : keeps m t u) : keeps (l ++ m) s u := by
  intro p h
  rw [List.mem_append, not_or] at h
  exact Part.same_trans (a p h.1) (b p h.2)

theorem keeps_mono {l m : List Part} {s t : State} (a : keeps l s t) (h : ∀ p ∈ l, p ∈ m) : keeps m s t :=
  fun p hp => a p (fun hl => hp (h p hl))

theorem keepsRegs_refl (l : List Nat) (s : State) : keepsRegs l s s := fun _ _ => rfl

theorem keepsRegs_trans {l m : List Nat} {s t u : State} (a : keepsRegs l s t) (b : keepsRegs m t u) : keepsRegs (l ++ m) s u := by
  intro x h
  rw [List.mem_append, not_or] at h
  exact (b x h.2).trans (a x h.1)

theorem keepsRegs_mono {l m : List Nat} {s t : State} (a : keepsRegs l s t) (h : ∀ x ∈ l, x ∈ m) : keepsRegs m s t :=
  fun x hx => a x (fun hl => hx (h x hl))

theorem keepsHdrs_refl (l : List Nat) (s : State) : keepsHdrs l s s := fun _ _ => rfl

theorem keepsHdrs_trans {l m : List Nat} {s t u : State} (a : keepsHdrs l s t) (b : keepsHdrs m t u) : keepsHdrs (l ++ m) s u := by
  intro x h
  rw [List.mem_append, not_or] at h
  exact (b x h.2).trans (a x h.1)

/-- A part that is kept, as an equation of registers. -/
theorem keepsRegs_of_keeps {l : List Part} {s t : State} (a : keeps l s t) (h : Part.regs ∉ l) : keepsRegs [] s t := by
  intro x _
  have e : t.regs = s.regs := a .regs h
  simp only [State.rd, e]

theorem keepsHdrs_of_keeps {l : List Part} {s t : State} (a : keeps l s t) (h : Part.hdrs ∉ l) : keepsHdrs [] s t := by
  intro x _
  have e : t.hdrs = s.hdrs := a .hdrs h
  simp only [State.hdr, e]

theorem wr_keeps (a : Nat) (v : Word) (s : State) : keeps [.regs] s (s.wr a v) := by
  intro p h
  cases p <;> first | rfl | (exact absurd (by decide) h)

theorem wr_keepsRegs (a : Nat) (v : Word) (s : State) : keepsRegs [a] s (s.wr a v) :=
  fun _ h => State.rd_wr_other s (fun e => h (by simp [e])) v

theorem setHdr_keeps (p : Nat) (x : Hdr) (s : State) : keeps [.hdrs] s (s.setHdr p x) := by
  intro q h
  cases q <;> first | rfl | (exact absurd (by decide) h)

theorem setHdr_keepsHdrs (p : Nat) (x : Hdr) (s : State) : keepsHdrs [p] s (s.setHdr p x) :=
  fun _ h => State.hdr_setHdr_other s (fun e => h (by simp [e])) x

theorem setLink_keeps (l : AB) (k : LinkSt) (s : State) : keeps [.links] s (s.setLink l k) := by
  intro q h
  cases q <;> first | rfl | (exact absurd (by decide) h)

/-! ### Interrupts (R68) -/

theorem queueEvent_keeps (l : AB) (p : Nat) (b : Bool) (s : State) : keeps [.links] s (queueEvent l p b s) := by
  unfold queueEvent
  dsimp only
  split <;> exact setLink_keeps _ _ _

theorem refreshEvent_keeps (l : AB) (p : Nat) (s : State) : keeps [.links] s (refreshEvent l p s) := by
  unfold refreshEvent
  split
  · exact queueEvent_keeps _ _ _ _
  · exact keeps_refl _ _

theorem pendChanged_keeps (p : Nat) (old : Word) (s : State) : keeps [.links] s (pendChanged p old s) := by
  have one : ∀ l s, keeps [.links] s (if (s.hdr p).pend &&& ~~~ old ≠ 0 ∧ s.eventAllowed l p = true then queueEvent l p false s
      else refreshEvent l p s) := by
    intro l s
    split
    · exact queueEvent_keeps _ _ _ _
    · exact refreshEvent_keeps _ _ _
  have two : ∀ (c : Prop) [Decidable c] l s, keeps [.links] s (if c then queueEvent l p false s else refreshEvent l p s) := by
    intro c _ l s
    split
    · exact queueEvent_keeps _ _ _ _
    · exact refreshEvent_keeps _ _ _
  unfold pendChanged
  dsimp only
  split
  · exact keeps_refl _ _
  · exact keeps_mono (keeps_trans (two _ _ _) (two _ _ _)) (by decide)

/-- Raising an interrupt touches the page's header and the EVENT records of the links. -/
theorem raise_keeps (p i : Nat) (s : State) : keeps [.hdrs, .links] s (raise p i s) := by
  unfold raise
  exact keeps_mono (keeps_trans (setHdr_keeps _ _ _) (pendChanged_keeps _ _ _)) (by decide)

theorem raise_keepsRegs (p i : Nat) (s : State) : keepsRegs [] s (raise p i s) := keepsRegs_of_keeps (raise_keeps p i s) (by decide)

/-- The header after an interrupt is raised: one more bit of INT_RAW. -/
theorem raise_hdr (p i : Nat) (s : State) : (raise p i s).hdr p = { s.hdr p with intRaw := (s.hdr p).intRaw ||| field i 1 1 } := by
  unfold raise
  have e := keepsHdrs_of_keeps (pendChanged_keeps p (s.hdr p).pend
    (s.setHdr p { s.hdr p with intRaw := (s.hdr p).intRaw ||| field i 1 1 })) (by decide) p (by simp)
  rw [e, State.hdr_setHdr_same]

theorem raise_keepsHdrs (p i : Nat) (s : State) : keepsHdrs [p] s (raise p i s) := by
  unfold raise
  exact keepsHdrs_trans (setHdr_keepsHdrs _ _ _) (keepsHdrs_of_keeps (pendChanged_keeps _ _ _) (by decide))

/-- The bit that was raised is set. -/
theorem raise_intRaw (p i : Nat) (s : State) (h : i < 32) : intRawBit (raise p i s) p i = true := by
  unfold intRawBit
  rw [raise_hdr]
  exact bit_or_field _ _ h

/-- A link keeps everything but its EVENT records when an interrupt is raised. -/
theorem queueEvent_link (l m : AB) (p : Nat) (b : Bool) (s : State) :
    ∃ e n, (queueEvent l p b s).link m = { s.link m with events := e, evtSeq := n } := by
  unfold queueEvent
  dsimp only
  split
  all_goals
    by_cases h : m = l
    · subst h
      exact ⟨_, _, State.link_setLink_same s _ _⟩
    · exact ⟨_, _, Pair.get_set_other _ h _⟩

/-! ### Wide counters (R269) -/

theorem setCtr_keeps (a n : Nat) (s : State) : keeps [.ctrs] s (s.setCtr a n) := by
  intro q h
  cases q <;> first | rfl | (exact absurd (by decide) h)

theorem ctr_setCtr_same (a n : Nat) (s : State) : (s.setCtr a n).ctr a = n := tblGet_tblSet_same _ _ _ _

theorem ctr_setCtr_other {a b : Nat} (h : b ≠ a) (n : Nat) (s : State) : (s.setCtr a n).ctr b = s.ctr b :=
  tblGet_tblSet_other _ _ _ h _

theorem ctr_of_keeps {l : List Part} {s t : State} (a : keeps l s t) (h : Part.ctrs ∉ l) (x : Nat) : t.ctr x = s.ctr x := by
  have e : t.ctrs = s.ctrs := a .ctrs h
  simp only [State.ctr, e]

/-- Counting touches the counter, its half-range bit and the page's COUNTER_HALF. -/
theorem countWide_keeps (a w k : Nat) (half intr : Option (Nat × Nat)) (s : State) :
    keeps [.ctrs, .regs, .hdrs, .links] s (countWide a w k half intr s) := by
  have h1 : keeps [.ctrs] s (s.setCtr a ((s.ctr a + k) % 2 ^ w)) := setCtr_keeps _ _ _
  unfold countWide
  dsimp only
  split
  · cases half with
    | none => cases intr with
      | none => exact keeps_mono h1 (by decide)
      | some x => exact keeps_mono (keeps_trans h1 (raise_keeps _ _ _)) (by decide)
    | some y => cases intr with
      | none => exact keeps_mono (keeps_trans h1 (wr_keeps _ _ _)) (by decide)
      | some x => exact keeps_mono (keeps_trans (keeps_trans h1 (wr_keeps _ _ _)) (raise_keeps _ _ _)) (by decide)
  · exact keeps_mono h1 (by decide)

/-- The counter after counting. -/
theorem countWide_ctr (a w k : Nat) (half intr : Option (Nat × Nat)) (s : State) :
    (countWide a w k half intr s).ctr a = (s.ctr a + k) % 2 ^ w := by
  unfold countWide
  dsimp only
  split
  · cases half <;> cases intr <;>
      first
      | exact ctr_setCtr_same _ _ _
      | exact (ctr_of_keeps (raise_keeps _ _ _) (by decide) a).trans (ctr_setCtr_same _ _ _)
  · exact ctr_setCtr_same _ _ _

/-- Every other counter. -/
theorem countWide_ctr_other {a b : Nat} (h : b ≠ a) (w k : Nat) (half intr : Option (Nat × Nat)) (s : State) :
    (countWide a w k half intr s).ctr b = s.ctr b := by
  unfold countWide
  dsimp only
  split
  · cases half <;> cases intr <;>
      first
      | exact ctr_setCtr_other h _ _
      | exact (ctr_of_keeps (raise_keeps _ _ _) (by decide) b).trans (ctr_setCtr_other h _ _)
  · exact ctr_setCtr_other h _ _

theorem countWide_keepsRegs (a w k hr hi : Nat) (intr : Option (Nat × Nat)) (s : State) :
    keepsRegs [hr] s (countWide a w k (some (hr, hi)) intr s) := by
  unfold countWide
  dsimp only
  split
  · cases intr with
    | none => exact wr_keepsRegs hr _ (s.setCtr a _)
    | some x => exact keepsRegs_mono (keepsRegs_trans (wr_keepsRegs hr _ (s.setCtr a _)) (raise_keepsRegs _ _ _)) (by simp)
  · exact keepsRegs_refl _ _

theorem countWide_keepsHdrs (a w k ip ii : Nat) (half : Option (Nat × Nat)) (s : State) :
    keepsHdrs [ip] s (countWide a w k half (some (ip, ii)) s) := by
  unfold countWide
  dsimp only
  split
  · cases half with
    | none => exact raise_keepsHdrs ip ii (s.setCtr a _)
    | some y => exact raise_keepsHdrs ip ii ((s.setCtr a _).setFlag y.1 y.2 true)
  · exact keepsHdrs_refl _ _

/-- Counter `i` of a page: its value, and all that counting can touch. -/
theorem countAt_spec (p base hoff ib w i k : Nat) (s : State) :
    (countAt p base hoff ib w i k s).ctr (regAddr p (base + 8 * i)) = (s.ctr (regAddr p (base + 8 * i)) + k) % 2 ^ w ∧
    keepsRegs [regAddr p (hoff + 4 * (i / 32))] s (countAt p base hoff ib w i k s) ∧
    keepsHdrs [p] s (countAt p base hoff ib w i k s) ∧ keeps [.ctrs, .regs, .hdrs, .links] s (countAt p base hoff ib w i k s) :=
  ⟨countWide_ctr _ _ _ _ _ _, countWide_keepsRegs _ _ _ _ _ _ _, countWide_keepsHdrs _ _ _ _ _ _ _, countWide_keeps _ _ _ _ _ _⟩

/-! ### The event log and faults (R511, R512) -/

theorem setLog_keeps (x : LogSt) (s : State) : keeps [.log] s { s with log := x } := by
  intro q h
  cases q <;> first | rfl | (exact absurd (by decide) h)

theorem setNvs_keeps (x : NvsSt) (s : State) : keeps [.nvs] s { s with nvs := x } := by
  intro q h
  cases q <;> first | rfl | (exact absurd (by decide) h)

theorem setBuf_keeps (x : BufSt) (s : State) : keeps [.buf] s { s with buf := x } := by
  intro q h
  cases q <;> first | rfl | (exact absurd (by decide) h)

/-- The log drops its oldest entry, counted in LOST, when it is full. -/
theorem addLog_spec (t : LogType) (page code : Nat) (d w5 : Word) (s : State) :
    keeps [.regs, .log, .nvs] s (addLog t page code d w5 s) ∧ keepsRegs logRegs s (addLog t page code d w5 s) := by
  have lost : ∀ (c : Prop) [Decidable c], keeps [.regs] s (if c then s else s.bump (regAddr pLog 0x104) 1) ∧
      keepsRegs logRegs s (if c then s else s.bump (regAddr pLog 0x104) 1) := by
    intro c _
    by_cases h : c
    · rw [if_pos h]
      exact ⟨keeps_refl _ _, keepsRegs_refl _ _⟩
    · rw [if_neg h]
      exact ⟨wr_keeps _ _ _, keepsRegs_mono (wr_keepsRegs _ _ _) (by simp [logRegs])⟩
  have step : ∀ (u : State) (x : LogSt), keeps [.log, .regs] u (State.bump { u with log := x } (regAddr pLog 0x100) 1) ∧
      keepsRegs logRegs u (State.bump { u with log := x } (regAddr pLog 0x100) 1) := fun u x =>
    ⟨keeps_trans (setLog_keeps x u) (wr_keeps _ _ _),
      keepsRegs_mono (keepsRegs_trans (keepsRegs_of_keeps (setLog_keeps x u) (by decide)) (wr_keepsRegs _ _ _)) (by simp [logRegs])⟩
  unfold addLog
  dsimp only
  obtain ⟨l1, l2⟩ := lost (s.log.entries.length < 512)
  generalize (if s.log.entries.length < 512 then s else s.bump (regAddr pLog 0x104) 1) = u at l1 l2 ⊢
  obtain ⟨b1, b2⟩ := step u { entries := keepLast 512 (u.log.entries ++ [[s.rp pLog 0x100,
    word (t.code * 2 ^ 28 + page * 2 ^ 16 + code), d, s.secWord, s.nsWord, w5, 0, 0]]) }
  generalize State.bump { u with log := _ } (regAddr pLog 0x100) 1 = w at b1 b2 ⊢
  have k := keeps_trans l1 b1
  have r := keepsRegs_mono (keepsRegs_trans l2 b2) (m := logRegs) (by simp)
  split
  · exact ⟨keeps_mono (keeps_trans k (setNvs_keeps _ w)) (by decide), r⟩
  · exact ⟨keeps_mono k (by decide), r⟩

/-- Recording a fault touches the page's header, the log with its registers, the stored ring and the EVENT records. -/
theorem recordFault_spec (p code : Nat) (d w5 : Word) (s : State) :
    keeps [.hdrs, .regs, .log, .nvs, .links] s (recordFault p code d w5 s) ∧ keepsRegs logRegs s (recordFault p code d w5 s) ∧
    keepsHdrs [p] s (recordFault p code d w5 s) := by
  unfold recordFault
  dsimp only
  refine ⟨?_, ?_, ?_⟩
  · exact keeps_mono (keeps_trans (keeps_trans (setHdr_keeps _ _ _) (addLog_spec _ _ _ _ _ _).1) (raise_keeps _ _ _)) (by decide)
  · exact keepsRegs_mono (keepsRegs_trans (keepsRegs_trans (keepsRegs_of_keeps (setHdr_keeps _ _ _) (by decide))
      ((addLog_spec _ _ _ _ _ _).2)) (raise_keepsRegs _ _ _)) (by simp)
  · have h := keepsHdrs_trans (keepsHdrs_trans (setHdr_keepsHdrs p (if (s.hdr p).faultCode = 0 then
        { s.hdr p with faultCode := code, faultDetail := d } else { s.hdr p with faultMore := satAdd 255 (s.hdr p).faultMore 1 }) s)
      (keepsHdrs_of_keeps (addLog_spec (logTypeOf code) p code d w5 _).1 (by decide))) (raise_keepsHdrs p 31 _)
    intro x hx
    exact h x (by simpa using hx)

/-! ### Discards (R412) -/

theorem skimSample_spec (r : Reason) (k q : Nat) (p : Option Pkt) (d : Nat) (s : State) :
    keeps [.buf, .regs, .hdrs, .links] s (skimSample r k q p d s) ∧
    keepsRegs [regAddr (pSlice k 1) 0x120] s (skimSample r k q p d s) ∧ keepsHdrs [pSlice k 1] s (skimSample r k q p d s) := by
  have buf : ∀ (u : State) (x : BufSt), keeps [.buf, .regs, .hdrs, .links] u { u with buf := x } ∧
      keepsRegs [regAddr (pSlice k 1) 0x120] u { u with buf := x } ∧ keepsHdrs [pSlice k 1] u { u with buf := x } := fun u x =>
    ⟨keeps_mono (setBuf_keeps x u) (by decide), fun _ _ => rfl, fun _ _ => rfl⟩
  have miss : ∀ u : State, keeps [.buf, .regs, .hdrs, .links] u (raise (pSlice k 1) 3 (u.bump (regAddr (pSlice k 1) 0x120) 1)) ∧
      keepsRegs [regAddr (pSlice k 1) 0x120] u (raise (pSlice k 1) 3 (u.bump (regAddr (pSlice k 1) 0x120) 1)) ∧
      keepsHdrs [pSlice k 1] u (raise (pSlice k 1) 3 (u.bump (regAddr (pSlice k 1) 0x120) 1)) := fun u =>
    ⟨keeps_mono (keeps_trans (wr_keeps _ _ u) (raise_keeps _ _ _)) (by decide),
      keepsRegs_mono (keepsRegs_trans (wr_keepsRegs _ _ u) (raise_keepsRegs _ _ _)) (by simp), raise_keepsHdrs _ 3 (u.bump _ 1)⟩
  have then_ : ∀ {u v : State} (x : BufSt), keeps [.buf, .regs, .hdrs, .links] { u with buf := x } v ∧
      keepsRegs [regAddr (pSlice k 1) 0x120] { u with buf := x } v ∧ keepsHdrs [pSlice k 1] { u with buf := x } v →
      keeps [.buf, .regs, .hdrs, .links] u v ∧ keepsRegs [regAddr (pSlice k 1) 0x120] u v ∧ keepsHdrs [pSlice k 1] u v := by
    intro u v x h
    obtain ⟨a, b, c⟩ := buf u x
    exact ⟨keeps_mono (keeps_trans a h.1) (by decide), keepsRegs_mono (keepsRegs_trans b h.2.1) (by simp),
      fun y hy => (h.2.2 y hy).trans (c y hy)⟩
  unfold skimSample
  dsimp only
  refine ite_all (P := fun t => keeps [.buf, .regs, .hdrs, .links] s t ∧ keepsRegs [regAddr (pSlice k 1) 0x120] s t ∧
    keepsHdrs [pSlice k 1] s t) ⟨keeps_refl _ _, keepsRegs_refl _ _, keepsHdrs_refl _ _⟩ ?_
  refine ite_all (P := fun t => keeps [.buf, .regs, .hdrs, .links] s t ∧ keepsRegs [regAddr (pSlice k 1) 0x120] s t ∧
    keepsHdrs [pSlice k 1] s t) (buf s _) ?_
  refine ite_all (P := fun t => keeps [.buf, .regs, .hdrs, .links] s t ∧ keepsRegs [regAddr (pSlice k 1) 0x120] s t ∧
    keepsHdrs [pSlice k 1] s t) (buf s _) ?_
  exact ite_all (P := fun t => keeps [.buf, .regs, .hdrs, .links] s t ∧ keepsRegs [regAddr (pSlice k 1) 0x120] s t ∧
    keepsHdrs [pSlice k 1] s t) (then_ _ (buf _ _)) (then_ _ (miss _))

/-- A discard is counted once; it may touch the half-range bit, the two totals, RING_MISSED, the DRP page of its slice and the samples. -/
theorem dropAt_spec (r : Reason) (k q : Nat) (p : Option Pkt) (d : Nat) (s : State) :
    counted r k q s (dropAt r k q p d s) ∧ keepsRegs (dropRegs r k q) s (dropAt r k q p d s) ∧
    keepsHdrs [pSlice k 1] s (dropAt r k q p d s) ∧ keeps [.ctrs, .regs, .hdrs, .links, .buf] s (dropAt r k q p d s) := by
  have s1 : ∀ u : State, keeps [.regs] u ((u.bump (regAddr (pSlice k 1) 0x124) 1).bump (regAddr pDrp 0x100) 1) := fun u =>
    keeps_mono (keeps_trans (wr_keeps _ _ u) (wr_keeps _ _ _)) (by decide)
  have r1 : ∀ u : State, keepsRegs [regAddr (pSlice k 1) 0x124, regAddr pDrp 0x100] u
      ((u.bump (regAddr (pSlice k 1) 0x124) 1).bump (regAddr pDrp 0x100) 1) := fun u =>
    keepsRegs_trans (wr_keepsRegs _ _ u) (wr_keepsRegs _ _ _)
  unfold dropAt
  dsimp only
  refine ⟨?_, ?_, ?_, ?_⟩
  · unfold counted
    rw [ctr_of_keeps (skimSample_spec _ _ _ _ _ _).1 (by decide), ctr_of_keeps (s1 _) (by decide)]
    exact countWide_ctr _ _ _ _ _ _
  · refine keepsRegs_mono (keepsRegs_trans (keepsRegs_trans (countWide_keepsRegs _ _ _ _ _ _ _) (r1 _)) (skimSample_spec _ _ _ _ _ _).2.1) ?_
    intro x hx
    simp only [dropRegs, List.mem_append, List.mem_cons, List.not_mem_nil, or_false] at hx ⊢
    rcases hx with (h | h | h) | h
    exacts [.inl h, .inr (.inl h), .inr (.inr (.inr h)), .inr (.inr (.inl h))]
  · have h := keepsHdrs_trans (keepsHdrs_trans (countWide_keepsHdrs (censusAddr k r.code q) 40 1 (pSlice k 1) 0
      (some (regAddr (pSlice k 1) (0x200 + 4 * ((11 * r.code + q) / 32)), (11 * r.code + q) % 32)) s)
      (keepsHdrs_of_keeps (s1 _) (by decide))) (skimSample_spec r k q p d _).2.2
    intro x hx
    exact h x (by simpa using hx)
  · exact keeps_mono (keeps_trans (keeps_trans (countWide_keeps _ _ _ _ _ _) (s1 _)) (skimSample_spec _ _ _ _ _ _).1) (by decide)

/-! ### Single-word accesses (R94) -/

/-- A write that passes every check has its effect, after one use of a presence token where it needs one. -/
theorem runWrite_passes (m : AB) (q : Req) (win : Option Nat) (p off : Nat) (fs : List Fld) (h : Handler) (v : Word) (s : State)
    (ok : passes m win p off fs h v s = true) :
    runWrite m q win p off fs h v s =
      ended .ok 0 .none (h.run m v (if touches .rwp fs v then s.bump (regAddr pPrs 0x110) 1 else s)) := by
  simp only [passes, Bool.and_eq_true, Bool.not_eq_true'] at ok
  obtain ⟨⟨⟨⟨⟨⟨⟨a, b⟩, c⟩, d⟩, e⟩, f⟩, g⟩, i⟩ := ok
  unfold runWrite
  rw [a]
  cases hd : writeDenied m (.reg win p off) s with
  | some x => rw [hd] at b; cases b
  | none => simp only [c, d, e, f, g, i, Bool.false_eq_true, if_false]

/-- An accepted write by a row. -/
theorem writeReg_admits (m : AB) (p off : Nat) (h : Handler) (v : Word) (s : State) (ok : admits m p off h v s = true) :
    writeReg m p off h v s =
      ended .ok 0 .none (h.run m v (if touches .rwp (fieldsAt p off) v then s.bump (regAddr pPrs 0x110) 1 else s)) :=
  runWrite_passes m _ none p off _ h v s ok

/-- A frozen master's write changes only the count of refused requests. -/
theorem runWrite_frozen (m : AB) (q : Req) (win : Option Nat) (p off : Nat) (fs : List Fld) (h : Handler) (v : Word) (s : State)
    (fz : frozenWrite m p off s = true) : runWrite m q win p off fs h v s = ended .frozen 0 .none (countRefused m s) := by
  unfold runWrite
  rw [if_pos fz]

/-- A read that passes its checks answers the value and has its effect. -/
theorem runRead_readable (m : AB) (p off : Nat) (v : Word) (eff : State → State) (s : State) (ok : readable m p off s = true) :
    runRead m p off v eff s = ended .ok v .none (eff s) := by
  simp only [readable, Bool.and_eq_true, Bool.not_eq_true'] at ok
  obtain ⟨⟨a, b⟩, c⟩ := ok
  unfold runRead runReadAt
  rw [a]
  cases hd : readDenied m (.reg none p off) s with
  | some x => rw [hd] at b; cases b
  | none => simp only [c, Bool.false_eq_true, if_false]

/-- While the logic domain runs, a command has its effect. -/
theorem whenOn_running {s : State} (h : s.running = true) (r : Result State) : whenOn s r = r := by
  unfold whenOn
  rw [if_pos h]

end Sys2Proof.Machine
end

