-- ==== Sys2Proof/Tests/Slice0.lean ====
section
/-!
SUPPORT. Tests: commands that are not well formed, instruction words of the sequencers spelt from their tables, and for each statement
that has hypotheses a state and operands that meet them, clause by clause.
-/

namespace Sys2Proof.Tests

open Sys2Proof.Machine

set_option maxRecDepth 100000
set_option Elab.async false

/-! ### Builders of small states -/

/-- Reset in a given phase of the start-up. -/
def inPhase (x : Phase) : State := { State.reset with power := { State.reset.power with phase := x } }

/-- A press window of a minute is open. -/
def pressed (s : State) : State := { s with backup := { s.backup with pressUs := 60000000 } }

/-- A page in a given state. -/
def withPage (p : Nat) (x : PageState) (s : State) : State := s.setHdr p { s.hdr p with state := x }

/-- The terminal in a sub-state of SERVICE. -/
def serving (x : ServSub) (s : State) : State := { s with power := { s.power with mode := .service x } }

/-- Reset with a link changed. -/
def withLink (g : LinkSt → LinkSt) : State := State.reset.setLink .a (g (State.reset.link .a))

/-- Reset with a press window open, slice 0 owned by master A with a region of 16 MiB, and 1 GiB of LPDDR4X. -/
def owned : State := ((pressed State.reset).wp pSlc 0x100 1 |>.wp (pSlice 0 0) 0x12C 16).wp pMem 0x104 1024

/-! ### Commands that are not well formed -/

theorem test_ill_formed_numbers : (Instr.linkChange 8 true false false false).wf = false ∧ (Instr.laneStall 16).wf = false ∧
    (Instr.ruleRead .a 16).wf = false ∧ (Instr.leaseExpiry 32).wf = false ∧ (Instr.mbxTake .a 6).wf = false ∧ (Instr.halt 8).wf = false ∧
    (Instr.bucketReturn 64).wf = false ∧ (Instr.schedRelease 41).wf = false ∧ (Instr.pauseExpiry 0 9).wf = false := by decide

theorem test_ill_formed_addresses : (Instr.blockDrain .a 0xFFFFF true).wf = false ∧ (Instr.regWrite .a (2 ^ 40) 0).wf = false ∧
    (Instr.read .a 65536 0 1 false).wf = false ∧ (Instr.portIdWrite .a .a 512 0).wf = false ∧
    (Instr.sliceAllocWrite .a 0 0x136 0).wf = false := by decide +kernel

theorem test_ill_formed_values : (Instr.vbatMeasure 65536).wf = false ∧ (Instr.ppsInEdge (1000 * 2 ^ 32)).wf = false ∧
    (Instr.paceWindow []).wf = false ∧ (Instr.keyLoad .a 5 (List.replicate 16 0)).wf = false ∧
    (Instr.keyLoad .a 0 []).wf = false ∧ (Instr.memReady 0 [⟨256, 0, 0⟩] []).wf = false ∧
    (Instr.logicReady ⟨0, [], 65536⟩).wf = false ∧ (Instr.ownerMaskWrite .a 0 4).wf = false := by decide

theorem test_ill_formed_sequencer_fields : (Instr.shli 0 1 1 32).wf = false ∧ (Instr.rdtime 0 1 3).wf = false ∧
    (Instr.wait 0 1 0).wf = false ∧ (Instr.tset 0 1 4).wf = false ∧ (Instr.cfeed 0 1 0x30).wf = false ∧
    (Instr.cnt 0 1 8).wf = false ∧ (Instr.cstart 0 1 16).wf = false ∧ (Instr.shaperWrite .a (.node 0 0 4) 0).wf = false := by decide

/-! ### Sequencer words, from Tables 16-2 and 16-3: OP in bits 31 to 26, rd 25 to 21, ra 20 to 16, rb 15 to 11, FN 5 to 0 -/

theorem test_words_of_each_format : seqDecode 2 0x00221800 = some (.add 2 1 2 3) ∧ seqDecode 0 0x0422FFFF = some (.addi 0 1 2 0xFFFF) ∧
    seqDecode 0 0x40E50010 = some (.lw 0 7 5 0x10) ∧ seqDecode 1 0x80430008 = some (.beq 1 2 3 8) ∧
    seqDecode 7 0xFC000000 = some (.halt 7) := by decide

theorem test_words_that_are_no_instruction : seqDecode 0 0x00221840 = none ∧ seqDecode 0 0xC8200000 = none ∧
    seqDecode 0 0x0000000C = none := by decide

/-! ### Hypotheses that can be met -/

theorem test_witness_StepRunsTheFront : ({ State.reset with pending := [.wake] } : State).pending = .wake :: [] := rfl

theorem test_witness_EmptyQueueLetsTimePass : State.reset.pending = [] ∧ (inPhase .dormant).running = false ∧
    State.reset.running = true ∧ State.reset.tsu.slew = 0 ∧ State.reset.tsu.state ≠ .host := by decide +kernel

theorem test_witness_SequencerWordsRoundTrip : (Instr.addi 7 31 31 0xFFFF).wf = true ∧
    seqEncode (.addi 7 31 31 0xFFFF) = some 0x07FFFFFF := by decide

theorem test_witness_StartUpSteps : asleep (inPhase .dormant) = true ∧ (inPhase .step1).power.phase = .step1 ∧
    (inPhase .step2).power.phase = .step2 ∧ (inPhase .step3).power.phase = .step3 ∧
    ((inPhase .step4).power.phase = .step4 ∧ (inPhase .step4).power.tries ≤ 2) ∧ (inPhase .failed).power.phase = .failed := by decide +kernel

/-- A start-up in a phase, after a number of failed attempts. -/
def tried (x : Phase) (n : Nat) : State := { inPhase x with power := { (inPhase x).power with tries := n } }

theorem test_witness_StartUpSteps_tries : ((tried .step2 0).power.phase = .step2 ∧ (tried .step2 0).power.tries < 2) ∧
    ((tried .step4 2).power.phase = .step4 ∧ (tried .step4 2).power.tries = 2 ∧ (tried .step4 2).canonical = true) := by decide +kernel

theorem test_witness_LogicReadyStartsTheLogicDomain : (inPhase .step4).power.phase = .step4 := rfl

/-- Reset with RESET_CMD of master B accepted. -/
def resetAsked : State := { State.reset with power := { State.reset.power with hostReset := some .b } }

theorem test_witness_ResetsReachTheLogicDomain : resetAsked.running = true ∧ resetAsked.power.hostReset = some .b ∧
    (resetAsked.canonical = true) := by decide +kernel

/-- A failed start-up attempt waits, with the voltage regulator ready. -/
def failedReady : State := (inPhase .failed).setFld (regAddr pPwr 0x110) 0 4 1

theorem test_witness_ResetsReachTheLogicDomain_start :
    (∀ x ∈ [Phase.step1, .step2, .failed], (inPhase x).power.phase ∈ [Phase.step1, .step2, .failed]) ∧
    (∀ x ∈ [Phase.step3, .step4], (inPhase x).power.phase ∈ [Phase.step3, .step4]) ∧
    (inPhase .step2).power.phase ∈ [Phase.step2, .step3, .step4] ∧
    failedReady.power.phase = .failed ∧ readyBits failedReady % 2 = 1 := by decide +kernel

theorem test_witness_PowerDowns : (pressed State.reset).running = true ∧
    admits .a pPwr 0x104 modeCmdHandler (field 0 1 1) (pressed State.reset) = true ∧ State.reset.power.mode ≠ .dormant ∧
    (inPhase .powerDown).power.phase = .powerDown := by decide +kernel

theorem test_witness_PowerDowns_phases :
    (∀ x ∈ [Phase.step1, .step2, .step3, .step4, .failed], (inPhase x).power.phase ∈ [Phase.step1, .step2, .step3, .step4, .failed]) ∧
    (State.reset.power.phase ≠ .unpowered ∧ State.reset.power.phase ≠ .dormant ∧ State.reset.power.mode ≠ .dormant ∧
      State.reset.canonical = true) ∧
    ((inPhase .powerDown).power.phase ≠ .unpowered ∧ (inPhase .powerDown).power.phase ≠ .dormant) ∧ (inPhase .step1).logicOn = false ∧
    ((inPhase .dormant).power.phase = .dormant ∧ (inPhase .unpowered).power.phase = .unpowered) ∧
    ((inPhase .powerDown).nvs.hist.length ≤ 16 ∧ NvItem.firmware ∉ (inPhase .powerDown).nvs.pend) := by decide +kernel

theorem test_witness_PowerCommands : (pressed State.reset).running = true ∧
    admits .a pPwr 0x128 resetCmdHandler (field 0 1 1) (pressed State.reset) = true ∧
    admits .b pPwr 0x104 modeCmdHandler (field 1 1 1) (pressed State.reset) = true ∧ State.reset.power.mode ≠ .dormant := by decide +kernel

/-- Reset with VAUX low. -/
def low : State := { State.reset with power := { State.reset.power with vauxLow := true } }

theorem test_witness_SuppliesAndHeat : State.reset.power.vauxLow = false ∧ low.power.vauxLow = true ∧ State.reset.running = true ∧
    105 ≤ 105 ∧ 127 < 128 := by decide +kernel

/-- A step up to 1 V that has been sent. -/
def aStep : VStep := ⟨1000, true, .short, 16, 0, true, false⟩

/-- Reset with a voltage step outstanding. -/
def stepping (x : VStep) (stalled : Bool) : State :=
  { State.reset with power := { State.reset.power with step := some x, stalled := stalled } }

/-- The start-up exchange with the regulator has succeeded. -/
def afterStart (s : State) : State := { s with power := { s.power with pmbUp := true } }

/-- Reset with client port 0 ACTIVE, so that units have targets above their PACE of 0. -/
def inAuto : State := (withPage (pMac 0) .active State.reset).wp (pMac 0) 0x100 1

theorem test_witness_VoltageLoop : inAuto.running = true ∧ loopMode inAuto = 0 ∧ inAuto.power.step = none ∧
    inAuto.power.stalled = false ∧ shortUnits inAuto ≠ [] ∧ vfloor inAuto ≤ vset inAuto ∧ vset inAuto < vmax inAuto ∧
    (stepping aStep false).power.step ≠ none := by decide +kernel

/-- VMAX below VSET. -/
def above : State := State.reset.setFld (regAddr pPwr 0x13C) 16 10 ((vset State.reset) - 20)

theorem test_witness_VoltageLoop_limits :
    (loopMode above = 0 ∧ above.power.step = none ∧ above.power.stalled = false ∧ vmax above < vset above) ∧
    (let s := { inAuto with power := { inAuto.power with stalled := true, shortRun := shortUnits inAuto } };
      paceLimited s = true ∧ shortUnits s ≠ [] ∧ ∀ u ∈ shortUnits s, u ∈ s.power.shortRun) := by decide +kernel

theorem test_witness_VoltageStepsEnd :
    ((stepping aStep false).power.step = some aStep ∧ aStep.sent = true ∧ aStep.target < 1024 ∧ State.reset.power.deferred = [] ∧
      statusBad 0 = false ∧ (stepping aStep false).power.stalled = false) ∧
    voutNear 1 aStep.target (stepping aStep false) = true ∧
    aStep.retries < pmbRetries (stepping aStep false) ∧ pmbRetries (stepping { aStep with retries := 3 } false) ≤ 3 ∧
    ((stepping { aStep with told := true } true).power.step = some { aStep with told := true } ∧
      (stepping { aStep with told := true } true).power.deferred = []) ∧
    (stepping { aStep with sent := false } false).running = true ∧
    (stepping { aStep with sent := false } false).power.step = some { aStep with sent := false } ∧
    (stepping { aStep with sent := false } false).power.stalled = false ∧
    (stepping aStep true).power.stalled = true ∧ (afterStart (stepping aStep true)).power.pmbUp = true ∧
    (afterStart (stepping aStep true)).power.stalled = true := by decide +kernel

theorem test_witness_VoltageStepsEnd_commands : State.reset.running = true ∧ State.reset.power.step = none ∧
    (State.reset.power.stalled = false ∧ State.reset.power.cmdRetries < pmbRetries State.reset) ∧
    (let s := { State.reset with power := { State.reset.power with cmdRetries := 3 } };
      s.power.step = none ∧ s.power.stalled = false ∧ pmbRetries s ≤ s.power.cmdRetries) ∧
    (let s := { State.reset with power := { State.reset.power with stalled := true, pmbNext := [some ⟨1, 0x17, 400⟩] } };
      s.power.step = none ∧ s.power.stalled = true ∧ s.power.pmbUp = false ∧ s.power.pmbNext = some ⟨1, 0x17, 400⟩ :: []) ∧ vmin State.reset ≤ vmax State.reset := by decide +kernel

theorem test_witness_PmbusReadings : State.reset.running = true ∧
    admits .a pPwr (loopOff .ctrl) (loopHandler (loopOff .ctrl)) 0 (pressed State.reset) = true ∧
    ((stepping aStep false).power.step = some aStep ∧ aStep.sent = true ∧
      admits .a pPwr (loopOff .fixed) (loopHandler (loopOff .fixed)) (word (vset State.reset)) (pressed (stepping aStep false)) = true) ∧
    State.reset.power.step = none := by decide +kernel

/-- A link that is up, in epoch 0, with a peer. -/
def upLink (k : LinkSt) : LinkSt := { k with lock := true, state := .up, afterReset := false, peer := some 2 }

/-- Reset with link A up and then changed. -/
def up (g : LinkSt → LinkSt) : State := withLink (fun k => g (upLink k))

/-- A control frame that passes every check of link A. -/
def goodFrame (kind epoch flags seq ack : Nat) (area : List Byte) : RxFrame :=
  let f : RxFrame := ⟨linkMac .a State.reset, 2, false, 0x88B5, true, 64 + area.length, 1, epoch, kind, flags, seq, ack, area.length, area,
    0, false, []⟩
  { f with crc := crc32c (some (word (epoch * 65536 + seq))) (crcArea f) }

theorem test_witness_FramesThatFailTheMacChecks : (up id).running = true ∧ ((up id).link .a).lock = true ∧ noFlip (up id) = true ∧
    (goodFrame 0 0 0 0 0 []).fifoFull = false ∧ { goodFrame 0 0 0 0 0 [] with size := 63 }.size < 64 ∧
    9728 < { goodFrame 0 0 0 0 0 [] with size := 9729 }.size ∧
    (64 ≤ (goodFrame 0 0 0 0 0 []).size ∧ { goodFrame 0 0 0 0 0 [] with da := 0 }.da ≠ linkMac .a (up id)) := by decide +kernel

/-- Reset with link A up and two frames unacknowledged. -/
def twoSent : State := up (fun k => { k with replay := [(65535, []), (0, [])], nextSeq := 1, expSeq := 7 })

/-- A DATA frame whose SEQ is given, which acknowledges nothing new. -/
def dataFrame (seq : Nat) : RxFrame := goodFrame 0 0 0 seq 65534 [0x20, 0, 0, 0]

theorem test_witness_DataFramesAreDeliveredInOrder :
    (∀ q ∈ [7, 6, 8], frameGood .a (dataFrame q) twoSent = true ∧ (dataFrame q).kind = 0 ∧ (dataFrame q).epoch = (twoSent.link .a).epoch) ∧
    (twoSent.link .a).waiting = false ∧ ackCount .a 65534 twoSent = 0 ∧ precedes 16 6 (twoSent.link .a).expSeq = true ∧
    precedes 16 8 (twoSent.link .a).expSeq = false ∧ (twoSent.link .a).nak = none := by decide +kernel

theorem test_witness_DataFramesAreDeliveredInOrder_naks :
    (let s := twoSent.setLink .a { twoSent.link .a with nak := some (7, 1) };
      frameGood .a (dataFrame 8) s = true ∧ (s.link .a).nak = some ((s.link .a).expSeq, 1) ∧ s.clock < 1 + 20 ∧
      (let u := { s with clock := 21 }; frameGood .a (dataFrame 8) u = true ∧ 1 + 20 ≤ u.clock)) ∧
    (twoSent.link .a).replay.length < ackCount .a 1 twoSent := by decide +kernel

theorem test_witness_AcksReleaseFrames : frameGood .a (goodFrame 1 0 0 0 0 []) twoSent = true ∧
    (goodFrame 1 0 0 0 0 []).flags.testBit 0 = false ∧ ackCount .a 0 twoSent = 2 ∧ (twoSent.link .a).replay.length = 2 ∧
    frameGood .a (goodFrame 1 0 0 0 1 []) twoSent = true ∧ ackCount .a 1 twoSent = 3 := by decide +kernel

/-- Reset with link A waiting for RESYNC_ACK in epoch 15. -/
def waitingLink (p : Option Nat) : State :=
  withLink (fun k => { k with lock := true, state := .resync, epoch := 15, waiting := true, peer := p, unconf := [(none, ⟨0x82, 0, [0], 0⟩)] })

theorem test_witness_TheInitiatorWaitsForItsAnswer :
    (frameGood .a (dataFrame 0) (waitingLink (some 2)) = true ∧ ((waitingLink (some 2)).link .a).waiting = true) ∧
    frameGood .a (goodFrame 1 15 0 0 0 []) (waitingLink (some 2)) = true ∧
    (frameGood .a (goodFrame 3 15 0 0 0 []) (waitingLink none) = true ∧ ((waitingLink none).link .a).epoch = 15 ∧
      ((waitingLink none).link .a).peer = none) ∧
    (frameGood .a (goodFrame 3 0 0 0 0 []) (up id) = true ∧ ((up id).link .a).waiting = false) := by decide +kernel

/-- Reset with link A up in epoch 15 and one response waiting. -/
def epoch15 : State := up (fun k => { k with epoch := 15, resp := [⟨0x82, 0, [0], 0⟩] })

theorem test_witness_ResyncMovesTheEpoch : frameGood .a (goodFrame 2 0 0 0 0 []) epoch15 = true ∧ (epoch15.link .a).state = .up ∧
    (epoch15.link .a).waiting = false ∧ (epoch15.link .a).chain = none ∧ 0 = ((epoch15.link .a).epoch + 1) % 16 ∧
    epoch15.flag (regAddr (pCtl .a) 0x128) 0 = false ∧ (epoch15.link .a).unconf = [] ∧ (epoch15.link .a).replay = [] := by decide +kernel

/-- Reset with link A up, a frame unacknowledged and a replay run. -/
def replayed (n : Nat) : State := up (fun k => { k with replay := [(0, [])], nextSeq := 1, replayRun := n })

theorem test_witness_ReplaysAndResyncs : (replayed 7).running = true ∧ noFlip (replayed 7) = true ∧
    (((replayed 7).link .a).state = .up ∧ ((replayed 7).link .a).replay ≠ [] ∧ ((replayed 7).link .a).replayRun < 8 ∧
      (replayed 7).ecc.upsets = [] ∧ (replayed 7).ecc.poison = []) ∧ 8 ≤ ((replayed 8).link .a).replayRun ∧
    ((waitingLink none).link .a).waiting = true ∧
    ((up (fun k => { k with hostResync := some 0 })).link .a).hostResync = some 0 := by decide +kernel

/-- Reset with link A up and one record of the greatest size waiting. -/
def oneRec : State := up (fun k => { k with ackOwed := true, resp := [⟨0x81, 0, List.replicate 65 0, 0⟩] })

theorem test_witness_RecordsArePacked : oneRec.running = true ∧ (oneRec.link .a).state = .up ∧ (oneRec.link .a).ackOwed = true ∧
    noFlip oneRec = true ∧ (oneRec.link .a).replay.length < 128 ∧ (oneRec.link .a).hostResync = none ∧
    waitingRecs (oneRec.link .a) = [⟨0x81, 0, List.replicate 65 0, 0⟩] ∧ recSize ⟨0x81, 0, List.replicate 65 0, 0⟩ ≤ 9696 := by decide +kernel

/-- Reset with link A down, after a reset or not. -/
def downLink (after : Bool) : State := withLink (fun k => { k with afterReset := after })

theorem test_witness_LinkLossAndReturn :
    ((up (fun k => { k with lock := false })).link .a).lock = false ∧ ((up id).link .a).state ≠ .down ∧
    (((downLink false).link .a).state = .down ∧ ((downLink false).link .a).afterReset = false) ∧
    (((downLink true).link .a).afterReset = true ∧ noFlip (downLink true) = true ∧ ((downLink true).link .a).chain = none ∧
      ((downLink true).link .a).replay = []) := by decide +kernel

theorem test_witness_MemoryIsReadAndWritten : owned.running = true ∧ (owned.link .a).state ≠ .resync ∧
    apertureOk .a 0 64 owned = true ∧ apertureOk .a (16 * 2 ^ 20 - 4) 1 owned = true ∧
    apertureOk .a 8 (List.replicate 64 (0 : Word)).length owned = true := by decide +kernel

/-- Reset with the malformed count of master A at its threshold. -/
def atTop : State := { State.reset with masters := { State.reset.masters with
  malf := State.reset.masters.malf.set .a (State.reset.fld (regAddr pSem 0x604) 0 10) } }

theorem test_witness_MalformedRecordsAreAnsweredWithError : requestBad (.read 1 0 65 false) State.reset ≠ 0 ∧
    (State.reset.link .a).state ≠ .resync ∧
    State.reset.masters.malf.get .a < State.reset.fld (regAddr pSem 0x604) 0 10 ∧
    atTop.masters.malf.get .a = atTop.fld (regAddr pSem 0x604) 0 10 ∧ atTop.isFrozen .a = false ∧
    resolve 0x1000000000 State.reset = none ∧ State.reset.memSize ≤ 0xFF ∧ 2 % 4 ≠ 0 := by decide +kernel

/-- A state with an OMCI_IK for the active feeder. -/
def withIk : State := let f := (activeFeeder owned).getD .a
  { owned.setFlag (regAddr pCry 0x100) (4 + 8 * f.num) true with keys := tblSet [] (8 * f.num + 4) (List.replicate 16 7) owned.keys }

/-- Slice 0 is ACTIVE and link A holds a chain of its first record. -/
def chained (c : Option Chain) : State :=
  let s := withPage (pSlice 0 0) .active owned
  s.setLink .a { s.link .a with chain := c }

theorem test_witness_HostDataAndOmci_records : (chained none).running = true ∧ ((chained none).link .a).state ≠ .resync ∧
    (chained none).isFrozen .a = false ∧ (chained none).ownsSlice .a 0 = true ∧ sliceRefusal 0 (chained none) = none ∧
    ((chained none).link .a).chain = none ∧ ((chained (some ⟨0, 20, [], [1], none, false⟩)).link .a).chain = some ⟨0, 20, [], [1], none, false⟩ ∧
    ([1] ++ [2] : List Byte).length ≠ 20 ∧ 65535 % 65536 ≠ 0 ∧ (List.replicate 20 (0 : Byte)).length = 20 := by decide +kernel

theorem test_witness_HostDataAndOmci_port : (withPage pSeg .idle owned).pstate pSeg ≠ .active ∧ owned.pstate pSeg = .active ∧
    sendRefusal 0 [] false (List.replicate 13 0) owned ≠ 0 ∧ sendRefusal 0 [] false (List.replicate 14 0) owned = 0 ∧
    owned.slc 0 0x108 = 0 := by decide +kernel

theorem test_witness_HostDataAndOmci_omci : (withIk.ecc.upsets = [] ∧ withIk.ecc.poison = [] ∧ withIk.isFrozen .a = false ∧
      withIk.ownsSlice .a 0 = true) ∧ (∃ f, activeFeeder withIk = some f ∧ keyIn f 4 withIk = some (List.replicate 16 7)) ∧
    activeFeeder { owned with power := { owned.power with mode := .dormant } } = none ∧
    ({ owned with masters := { owned.masters with frz := owned.masters.frz.set .a { Freeze.clear with frozen := true } } }).isFrozen .a = true ∧
    (owned.wp pSlc 0x100 2).ownsSlice .a 0 = false := by
  refine ⟨?_, ⟨.a, ?_⟩, ?_⟩ <;> decide +kernel

theorem test_witness_StuckUnitsAreReported : owned.running = true ∧ (owned.hdr pMem).faultCode = 0 ∧ (owned.hdr pMem).testing = false ∧
    apertureOk .a 8 64 owned = true ∧ 63 < 64 ∧ (List.replicate 64 (0 : Word)).length = 64 ∧ apertureOk .a (16 * 2 ^ 20 - 4) 1 owned = true ∧
    (owned.link .a).state ≠ .resync := by decide +kernel

theorem test_witness_AcceptedWritesStoreTheFields : (pageInfo pPwr = some ⟨.pwr, 0, 0⟩ ∧
      (∀ off ∈ [0x16C, 0x180], admits .a pPwr off (plain pPwr off) 0 (pressed State.reset) = true) ∧
      hasNvs (fieldsAt pPwr 0x16C) = true ∧ hasNvs (fieldsAt pPwr 0x180) = false) ∧
    admits .a (pCtl .a) 0x118 (ctlMacHandler .a 0x118) 0x10 (pressed State.reset) = true ∧
    admits .b (pCtl .b) 0x11C (ctlMacHandler .b 0x11C) 0x10 (pressed State.reset) = true ∧
    admits .a (pCtl .a) 0x12C (ctlCtrlHandler .a) (setBits ((pressed State.reset).rp (pCtl .a) 0x12C) 0 1 1) (pressed State.reset) = true ∧
    ((pressed State.reset).link .a).hostResync = none ∧ State.reset.flag (regAddr (pCtl .a) 0x12C) 2 = false ∧
    State.reset.flag (regAddr (pCtl .b) 0x12C) 2 = false := by decide +kernel

theorem test_plain_registers_have_plain_handlers : blockHandler pPwr 0x16C ⟨.pwr, 0, 0⟩ = plain pPwr 0x16C ∧
    blockHandler pPwr 0x180 ⟨.pwr, 0, 0⟩ = plain pPwr 0x180 := ⟨rfl, rfl⟩

/-- Reset with master A frozen. -/
def frozenA : State := { State.reset with masters := { State.reset.masters with
  frz := State.reset.masters.frz.set .a { Freeze.clear with frozen := true } } }

theorem test_witness_RefusedWritesChangeNothing : frozenWrite .a pPwr 0x16C frozenA = true ∧
    (pageInfo pPwr = some ⟨.pwr, 0, 0⟩ ∧ frozenWrite .a pPwr 0x158 (pressed State.reset) = false ∧
      writeDenied .a (.reg none pPwr 0x158) (pressed State.reset) = none ∧
      (regHandler pPwr 0x158 ⟨.pwr, 0, 0⟩).own .a 0 (pressed State.reset) = false ∧
      (regHandler pPwr 0x158 ⟨.pwr, 0, 0⟩).sem .a 0 (pressed State.reset) = false ∧ (pressed State.reset).present = true ∧
      (pressed State.reset).lockOk .a pPwr = true ∧ writeBusy pPwr 0x158 0 (pressed State.reset) = false ∧
      fieldsOutOfRange (writeFields pPwr 0x158) 0 = true) ∧
    (pageInfo (pSlice 3 0) = some ⟨.slcS, 3, 0⟩ ∧ State.reset.isFrozen .a = false ∧ blkScope .slcS = 1 ∧
      State.reset.ownsSlice .a 3 = false) ∧
    (pageInfo (pOpt .a) = some ⟨.opt, 0, 0⟩ ∧ writeDenied .a (.reg none (pOpt .a) 0x110) State.reset = none ∧
      (regHandler (pOpt .a) 0x110 ⟨.opt, 0, 0⟩).own .a 0 State.reset = false ∧
      touches .rwp (writeFields (pOpt .a) 0x110) 0 = true ∧ State.reset.present = false) := by decide +kernel

theorem test_refusals_by_range_leave_the_state (s : State) : (regHandler pPwr 0x158 ⟨.pwr, 0, 0⟩).onRange s = s := rfl

/-- Slice 3 belongs to master A and a token is present. -/
def slice3 (x : PageState) : State := withPage (pSlice 3 0) x ((pressed State.reset).wp pSlc 0x10C 1)

theorem test_witness_PagesChangeState : pageInfo (pSlice 3 0) = some ⟨.slcS, 3, 0⟩ ∧
    ((slice3 .idle).pstate (pSlice 3 0) = .idle ∧ (∀ h ∈ [b2n ((slice3 .idle).hdr (pSlice 3 0)).localHold * 8],
      headerAdmits .a (pSlice 3 0) 0x08 (word (1 + h)) (slice3 .idle) = true ∧
      (∀ e ∈ [0, 3], headerAdmits .a (pSlice 3 0) 0x08 (word (e + h)) (slice3 .active) = true))) ∧
    (slice3 .active).pstate (pSlice 3 0) = .active ∧
    headerAdmits .a (pMac 0) 0x08 (field 2 1 1) (pressed State.reset) = true ∧
    (slice3 .resetting).pstate (pSlice 3 0) = .resetting := by decide +kernel

theorem test_witness_DrainsEnd : pageInfo (pSlice 3 0) = some ⟨.slcS, 3, 0⟩ ∧ (slice3 .draining).pstate (pSlice 3 0) = .draining ∧
    drainEmpty (pSlice 3 0) (slice3 .draining) = true ∧
    ((slice3 .draining).nodes 3).1 ≤ 0 ∧ (slice3 .flushing).pstate (pSlice 3 0) = .flushing ∧
    (let s := slice3 .draining
      let t := s.wp (pSlice 3 0) 0x10C 0x40000
      (t.nodes 3).1 ≤ 3 ∧ 3 < (t.nodes 3).1 + (t.nodes 3).2 ∧ t.pstate (pSlice 3 0) = .draining) := by decide +kernel

/-- A page with its self-test under way. -/
def testing (p : Nat) : State := (pressed State.reset).setHdr p { (pressed State.reset).hdr p with testing := true }

theorem test_witness_HeadersOfPages : (pageInfo pLog).isSome = true ∧ readable .a pLog 0x24 (pressed State.reset) = true ∧
    (assertedInts pLog (pressed State.reset) = [] ∧ headerAdmits .a pLog 0x1C 0xFFFFFFFF (pressed State.reset) = true) ∧
    ((owned.hdr (pSeq 0)).testing = false ∧ (pageInfo (pSeq 0)).map PageInfo.blk ≠ some .cls ∧
      headerAdmits .a (pSeq 0) 0x28 (word (1 + 255 * 256)) owned = true) ∧
    ((testing pLog).hdr pLog).testing = true ∧
    (((testing (pSeq 7)).hdr (pSeq 7)).testing = true ∧ (pageInfo (pSeq 7)).map PageInfo.blk = some .seq) ∧
    headerAdmits .a pPwr 0x08 (field 0 1 1) (pressed State.reset) = true := by decide +kernel

theorem test_witness_SnapshotsAreTaken :
    (((pageInfo (pAct .a)).bind ctrRange) = some (0x200, 12) ∧ readable .a (pAct .a) (0x200 + 8 * 11) (pressed State.reset) = true) ∧
    readable .a pBkp 0x104 State.reset = true ∧ readable .b (pLfr .b) 0x11C State.reset = true ∧
    readable .a pTsu 0x110 State.reset = true := by decide +kernel

/-- Reset with semaphore 31 held by a master under a lease. -/
def held (m : AB) : State := { State.reset with masters := { State.reset.masters with
  sems := tblSet Sem.free 31 ⟨some m, false, 65535, some 1000⟩ State.reset.masters.sems } }

/-- Reset with master B frozen and a press window open. -/
def frozenB : State := pressed { State.reset with masters := { State.reset.masters with
  frz := State.reset.masters.frz.set .b { Freeze.clear with frozen := true } } }

theorem test_witness_SemaphoresAndReleases :
    (admits .a pSem (0x100 + 4 * 31) (semStateHandler 31) (field 8 1 1) State.reset = true ∧
      admits .b pSem (0x100 + 4 * 31) (semStateHandler 31) (field 8 1 1) State.reset = true ∧ (State.reset.sem 31).holder = none) ∧
    ((held .a).sem 31).holder = some .a ∧ ((held .a).sem 31).leaseUs ≠ none ∧
    admits .a pSem (0x100 + 4 * 31) (semStateHandler 31) (field 9 1 1) (held .a) = true ∧
    (((held .b).sem 31).holder = some AB.a.other ∧ (held .b).isFrozen .a = false) ∧
    (admits .a pSem 0x600 frzCtrlHandler (field AB.b.num 1 1) frozenB = true ∧ frozenB.isFrozen .b = true) := by decide +kernel

theorem test_witness_SemaphoresAndReleases_masked : admits .a pSem (0x100 + 4 * 31) (semStateHandler 31) (field 8 1 1) (held .b) = true ∧
    ((held .b).sem 31).holder = some AB.a.other ∧ ((held .b).link .a).state ≠ .resync := by decide +kernel

theorem test_witness_SemaphoresAndReleases_free : (State.reset.sem 0).holder = none ∧
    admits .b pSem (0x100 + 4 * 0) (semStateHandler 0) (field 9 1 1) State.reset = true := by decide +kernel

/-- Reset with a full channel 1, of which master A takes the messages. -/
def fullBox (i n : Nat) : State := { State.reset with mbx := tblSet Mbx.empty i ⟨true, n, 65535⟩ State.reset.mbx }

theorem test_witness_MailboxesCarryMessages : memClean State.reset = true ∧
    admits .a (pMbx 0) (0x140 + 4 * 15) (mbxDataHandler 0 15) 5 State.reset = true ∧
    admits .a (pMbx 0) 0x104 (mbxDoorbellHandler 0) (word 16) State.reset = true ∧
    (mbxReceiver 2 = some .a ∧ ((fullBox 2 16).box 2).full = true ∧ 1 ≤ ((fullBox 2 16).box 2).len ∧ ((fullBox 2 16).box 2).len ≤ 16 ∧
      readable .a (pMbx 2) (0x140 + 4 * 15) (fullBox 2 16) = true) := by decide +kernel

theorem test_witness_MailboxesCarryMessages_range :
    (((fullBox 0 16).box 0).full = true ∧ memClean (fullBox 0 16) = true ∧
      reachesRange .a (pMbx 0) (0x140 + 4 * 15) (mbxDataHandler 0 15) 5 (fullBox 0 16) = true ∧
      reachesRange .a (pMbx 0) 0x104 (mbxDoorbellHandler 0) (word 1) (fullBox 0 16) = true) ∧
    reachesRange .a (pMbx 0) 0x104 (mbxDoorbellHandler 0) (word 0) State.reset = true := by decide +kernel

/-- Reset with the Keeper started and one request of master A taken. -/
def asked (w : List Word) : State :=
  { State.reset with keeper := { State.reset.keeper with started := true, taken := State.reset.keeper.taken.set .a [w] } }

/-- The first word of a request of service `op`. -/
def reqHead (op : Nat) : Word := word (op * 2 ^ 24 + 0x0000)

/-- A captured packet of a slice. -/
def captured (k : Nat) : Capture := ⟨9, [1, 2], 2, k, 0, 0, false, 0, 0⟩

/-- A request to read the capture entry 9, with an entry of a slice in the store. -/
def askedRead (k : Nat) : State :=
  let s := asked [reqHead 0x21, 9, 252]
  { s with keeper := { s.keeper with capture := [captured k] } }.wp pSlc 0x100 1

theorem test_witness_KeeperServices :
    (∀ x ∈ [(0x01, [reqHead 0x01]), (0x02, reqHead 0x02 :: List.replicate 15 7), (0x20, [reqHead 0x20]),
      (0x21, [reqHead 0x21, 9, 252]), (0x22, [reqHead 0x22, 9])], served .a x.1 x.2 [] (asked x.2)) ∧
    (captured 0).slice = 0 ∧ (askedRead 0).keeper.capture.find? (fun c => word c.seq == 9) = some (captured 0) ∧
    (askedRead 0).ownsSlice .a 0 = true ∧ (askedRead 1).ownsSlice .a 1 = false ∧ served .a 0x21 [reqHead 0x21, 9, 252] [] (askedRead 1) ∧
    (let s := { State.reset with keeper := { State.reset.keeper with held := State.reset.keeper.held.set .a [List.replicate 16 0] } };
      s.keeper.held.get .a = List.replicate 16 0 :: [] ∧ replyOpen .a s = true ∧ memClean s = true) ∧
    (List.replicate 63 (captured 0)).length < 64 ∧ 64 ≤ (List.replicate 64 (captured 0)).length := by
  unfold served; decide +kernel

/-- A request that the Keeper can take. -/
def askable : State := ((asked []).wp (pMbx 0) 0x140 (reqHead 0x01)) |> fun s => { s with
  keeper := { s.keeper with taken := s.keeper.taken.set .a [] }, mbx := tblSet Mbx.empty 0 ⟨true, 1, 1⟩ s.mbx }

theorem test_witness_KeeperServices_take : knownOp (msgOp (mbxWords 0 askable)) = true ∧ askable.keeper.taken.get .a = [] ∧
    (askable.box 0).full = true ∧ (askable.box 0).len ≤ 16 ∧ askable.keeper.started = true ∧ memClean askable = true := by decide +kernel

/-- Memory is trained with 1 GiB, of which 1 MiB is reserved. -/
def trained : State := ((pressed State.reset).setFld (regAddr pMem 0x100) 0 2 2 |>.wp pMem 0x104 1024).wp pMem 0x114 1

/-- A Govar image with a body of 64 zero bytes and a signature of zeros. -/
def image : List Byte := beBytes 4 0x47565231 ++ beBytes 4 1 ++ beBytes 4 64 ++ beBytes 4 0 ++
  beBytes 4 (crc32c (some 1) (List.replicate 64 0)) ++ List.replicate 44 0 ++ List.replicate 64 0 ++ List.replicate 64 0

/-- The image stands in the reserved region and its load is at a given point. -/
def staged (x : FwLoad) : State :=
  let s := (pressed State.reset).wp pNvs 0x108 192
  { s with dram := (List.range 192).map (fun i => ((s.reserved).1 + i, image.getD i 0)), fw := { s.fw with load := x, target := 1, stager := some .a, len := 192, slot1 := image } }

theorem test_image_passes_where_its_signature_does (h : Config.signatureOk image = true) : imageCheck image image.length = 0 := by
  have e : beAt image 0 4 = 0x47565231 ∧ beAt image 4 4 = 1 ∧ beAt image 20 44 = 0 ∧ beAt image 8 4 = 64 ∧ image.length = 192 ∧
      beAt image 12 4 = 0 ∧ crc32c (some (word (beAt image 4 4))) ((image.drop 64).take 64) = beAt image 16 4 := by decide +kernel
  obtain ⟨e1, e2, e3, e4, e5, e6, e7⟩ := e
  rw [e2] at e7
  simp [imageCheck, e1, e2, e3, e4, e5, e6, e7, h]

theorem test_witness_FirmwareUpdates :
    admits .a pNvs 0x104 fwCtrlHandler (field 0 1 1) trained = true ∧
    admits .a pNvs 0x104 fwCtrlHandler (field 2 1 1) (staged .idle) = true ∧
    (admits .a pNvs 0x104 fwCtrlHandler (field 1 1 1) (staged .idle) = true ∧ (staged .idle).fw.stager = some .a) ∧
    ((staged .checking).fw.load = .checking ∧ imageCheck (stagedImage State.reset) (stagedImage State.reset).length ≠ 0 ∧
      stagedImage (staged .checking) = image ∧ freeSlot (staged .checking) = some 1) ∧
    (let s := { staged .checking with fw := { (staged .checking).fw with running := 1, nv := ⟨2, 0, false, 0⟩ } };
      s.fw.load = .checking ∧ freeSlot s = none) ∧
    ((staged .writing).fw.load = .writing ∧ imageWaits (staged .writing) = false ∧ slotImage 1 (staged .writing) = image) ∧
    (∀ n ∈ [1, 3], admits .a pNvs 0x10C fwCommitHandler (word n) (staged .loaded) = true) ∧
    (∀ n ∈ [4, 6], admits .a pNvs 0x10C fwCommitHandler (word n) (staged .idle) = true) ∧
    admits .a pNvs 0x10C fwCommitHandler (word 2) (staged .idle) = true ∧
    (State.reset.keeper.restarts.filter (fun x => decide (State.reset.clock < x + 600000000))).length < 2 := by decide +kernel

/-- An image on trial that runs. -/
def onTrial : State := { staged .idle with fw := { (staged .idle).fw with running := 1, nv := ⟨1, 0, true, 1⟩ } }

theorem test_witness_FirmwareUpdates_confirm : admits .a pNvs 0x104 fwCtrlHandler (field 3 1 1) onTrial = true := by decide +kernel

theorem test_witness_SlicesAreAllocated : 15 < 16 ∧
    admits .a pSlc (0x100 + 4 * 15) (ownerHandler 15) (word 3) (pressed State.reset) = true ∧
    (slice3 .active).sliceState 3 ≠ .idle ∧ admits .b pSlc (0x200 + 4 * 31) (permitHandler 31) 0x201 (pressed State.reset) = true ∧
    (bit (0x221 : Word) 0 = true ∧ bits (0x221 : Word) 4 4 = bits (0x221 : Word) 8 4) ∧ 0x108 ∈ allocOffs ∧
    admits .a (pSlice 3 0) 0x108 (allocHandler 3 0x108) 0x81 (slice3 .idle) = true := by decide +kernel

theorem test_witness_SlicesAreAllocated_range :
    reachesRange .a pSlc (0x100 + 4 * 0) (ownerHandler 0) 0 (pressed State.reset) = true ∧
    (slice3 .draining).sliceState 3 ≠ .idle ∧
    reachesRange .a pSlc (0x100 + 4 * 3) (ownerHandler 3) 0 (slice3 .draining) = true := by decide +kernel

/-- Reset with the seal's run of bad pairs at a number, and the strap sampled as 0. -/
def sealRun (n : Nat) : State := { State.reset with backup := { State.reset.backup with badRun := n, strapSeen := true } }

/-- The time follows the line. -/
def onLine : State := { State.reset with tsu := { State.reset.tsu with state := .line } }

theorem test_witness_BackupDomainAndSeal : (inPhase .unpowered).power.phase = .unpowered ∧ State.reset.running = true ∧
    (1899 < 1900 ∧ State.reset.flag (regAddr pBkp 0x100) 6 = false) ∧ onLine.tsu.state = .line ∧
    admits .a pBkp 0x114 rtcSetHandler 7 (pressed State.reset) = true ∧
    (∀ n ∈ [0, 1, 2], (sealRun n).backup.badRun = n ∧ (sealRun n).backup.strapSeen = true ∧
      (sealRun n).flag (regAddr pBkp 0x100) 4 = !true) ∧
    (let s := { State.reset.setFld (regAddr pBkp 0x100) 1 2 1 with backup := { State.reset.backup with badRun := 1, strapSeen := true } };
      sealState s ≠ 0 ∧ s.flag (regAddr pBkp 0x100) 3 = false ∧ s.flag (regAddr pBkp 0x100) 4 = false ∧ s.backup.strapSeen = true ∧
      (s.setFlag (regAddr pBkp 0x100) 3 true).flag (regAddr pBkp 0x100) 3 = true) ∧
    admits .a pBkp 0x118 (plain pBkp 0x118) 60 (pressed State.reset) = true ∧
    admits .a pBkp 0x11C sealAckHandler (field 0 1 1) (pressed (State.reset.setFlag (regAddr pBkp 0x100) 3 true)) = true := by decide +kernel

theorem test_witness_BackupDomainAndSeal_range : (pressed onLine).running = true ∧ (pressed onLine).tsu.state = .line ∧
    reachesRange .b pBkp 0x114 rtcSetHandler 7 (pressed onLine) = true := by decide +kernel

theorem test_witness_PresenceIsProven : 0 < State.reset.fld (regAddr pPrs 0x104) 0 7 ∧ State.reset.present = false ∧
    (pressed State.reset).present = true ∧ (pressed State.reset).strapToken = false ∧
    admits .a pPrs 0x108 prsCloseHandler (field 0 1 1) (pressed State.reset) = true ∧
    admits .a pBkp 0x13C tamperClrHandler (field 0 1 1) (pressed State.reset) = true ∧ (inPhase .dormant).running = false := by decide +kernel

/-- Reset with items that wait for the store. -/
def waitingFor (l : List NvItem) (h : List (Word × Word)) (full : Bool) : State :=
  { State.reset with nvs := { State.reset.nvs with pend := l, histQ := h, stamps := if full then List.replicate 10000 0 else [] } }

theorem test_witness_RecordsAreStored : (State.reset.opt.get .a).live = none ∧ (State.reset.opt.get .b).live = none ∧
    capOpen State.reset = true ∧ (waitingFor [.reg 0x104] [] false).nvs.pend = .reg 0x104 :: [] ∧
    capOpen (waitingFor [.reg 0x104] [] false) = true ∧
    (waitingFor [.firmware] [] false).nvs.pend = .firmware :: [] ∧
    ((waitingFor [] [(1, 2)] false).nvs.histQ = (1, 2) :: [] ∧ (waitingFor [] [(1, 2)] false).nvs.hist.length < 16) ∧
    (capOpen (waitingFor [.firmware] [] true) = false ∧ (waitingFor [.firmware] [] true).nvs.pend ≠ []) := by decide +kernel

theorem test_witness_RecordsAreStored_image :
    (let s := { staged .writing with fw := { (staged .writing).fw with slot1 := image.take 64 } };
      capOpen s = true ∧ s.nvs.pend = [] ∧ s.nvs.histQ = [] ∧ imageWaits s = true ∧ s.running = true) := by decide +kernel

/-- The receiver of feeder A is on, with a rate hunted and the synchroniser at a state. -/
def lfr (sync n : Nat) : State :=
  let s := ((State.reset.wp (pOpt .a) 0x100 0x3003).wp (pLfr .a) 0x100 0x10).wp (pAct .a) 0x100 1
  (s.setFld (regAddr (pLfr .a) 0x104) 0 2 sync).setLfr .a { s.lfr.get .a with matches_ := n, misses := n }

/-- A PSBd position without content. -/
def psbd (e : Nat) : Psbd := ⟨e, 0, true, 1, 0, 0, 0, 0, [], false, [], 0, []⟩

theorem test_witness_FramesAreSynchronised : lfrRate .a State.reset = 0 ∧
    (rxOff .a (lfr 0 0) = false ∧ losNow .a (lfr 0 0) = false ∧ lfrRate .a (lfr 0 0) ≠ 0 ∧ lfrField .a 0 2 (lfr 0 0) = 0 ∧
      (psbd 0).errors ≤ bits ((lfr 0 0).rp (pLfr .a) 0x108) 8 3 ∧ 2 ≤ bits ((lfr 0 0).rp (pLfr .a) 0x108) 0 4) ∧
    (lfrField .a 0 2 (lfr 1 2) = 1 ∧ bits ((lfr 1 2).rp (pLfr .a) 0x108) 0 4 ≤ ((lfr 1 2).lfr.get .a).matches_ + 1 ∧
      (lfr 1 2).power.mode.code = 1) ∧ ¬(psbd 64).errors ≤ bits ((lfr 1 0).rp (pLfr .a) 0x108) 8 3 ∧
    (inSync .a (lfr 2 0) = true ∧ ((lfr 2 0).lfr.get .a).misses + 1 < bits ((lfr 2 0).rp (pLfr .a) 0x108) 4 4) ∧
    ((lfr 2 0).flag (regAddr (pLfr .a) 0x110) 8 = true ∨ LosBy.clock ≠ .pin) ∧
    ((lfr 0 0).fld (regAddr (pLfr .a) 0x114) 0 16 ≤ 65535 ∧ ((lfr 0 0).lfr.get .a).secUncorr < (lfr 0 0).fld (regAddr (pLfr .a) 0x114) 0 16 ∧
      9 ≤ 9) := by decide +kernel

/-- The Keeper runs and a token is present; master A owns every slice. -/
def keeping (s : State) : State := pressed { s with keeper := { s.keeper with started := true } }

/-- A module that takes both rates is seated and accepted in cage A. -/
def seated : State := (State.reset.wp (pOpt .a) 0x100 0x3003).wp (pLfr .a) 0x100 0x10

theorem test_witness_LineTablesAreWritten :
    (inSync .a seated = false ∧ rateSet .a (seated.fld (regAddr (pLfr .a) 0x100) 0 2) seated = [1, 2] ∧ lfrRate .a seated = 1) ∧
    admits .a (pLfr .a) 0x100 (rateHandler .a) 0x00640002 (pressed State.reset) = true ∧
    (memClean owned = true ∧ bit (owned.rp (pLfr .a) (0x800 + 4 * 511)) 20 = false ∧
      admits .a (pLfr .a) (0x800 + 4 * 511) (portIdHandler .a 511) 0x100005 owned = true) ∧
    (4 < 5 ∧ keeperUp (keeping State.reset) = true ∧ memClean (keeping State.reset) = true ∧ quiet (keeping State.reset) = true) := by
  decide +kernel

/-- A delineated frame for entry 0, with its payload, last-fragment flag and entry word. -/
def xframe (w : Word) (l : List Byte) (lf : Bool) : XFrame := ⟨.entry 0 w, 0, lf, l, false, none, 0, 0, 0⟩

/-- Reset with one delineated frame waiting on a feeder. -/
def delineated (f : AB) (x : XFrame) : State := State.reset.setLfr f { State.reset.lfr.get f with xq := [x] }

theorem test_witness_LineFramesAreReassembled : noFlip State.reset = true ∧ sduOf .a 0 (delineated .a (xframe 0 [] false)) = none ∧
    ((delineated .a (xframe 0 [] false)).lfr.get .a).xq = [xframe 0 [] false] ∧ (xframe 0 [] false).dest = .entry 0 0 ∧
    (List.replicate 9600 (0 : Byte)).length ≤ 9600 ∧ bit (0 : Word) 21 = false ∧ bit (0x200000 : Word) 21 = true ∧
    (xframe 0 [1, 2, 3] true).payload.length < 4 ∧ ([] ++ fcsBytes [] : List Byte).length = 4 ∧
    dataFeeder (delineated .b (xframe 0 (fcsBytes []) true)) ≠ some .b := by decide +kernel

/-- A PLOAM message to every terminal or to this one. -/
def ploam (b : PloamBody) : Ploam := ⟨5, 1, true, b, List.replicate 48 0⟩

/-- The Keeper runs, a message waits on feeder A, and the feeder is at a state of Table 9-1. -/
def hears (p : Ploam) (x : Nat) : State :=
  let s := keeping (State.reset.setFld (regAddr (pAct .a) 0x100) 0 4 x)
  s.setActSt .a { s.act.get .a with queue := [(p, 0)] }

theorem test_witness_PloamMovesAFeeder :
    (∀ x ∈ [(PloamBody.burstProfile 15 ⟨3, 4095, 65535, [], [], true⟩, aO12), (.assignOnuId 0 1 1023, aO23), (.rangingTime 7, aO4), (.deactivate, aO5),
      (.disableSn false none, aO5), (.disableSn true none, aO7)],
      heard .a (ploam x.1) 0 [] (hears (ploam x.1) x.2) ∧ actState .a (hears (ploam x.1) x.2) = x.2) ∧
    ownSn .a ((hears (ploam .other) aO23).rp (pAct .a) 0x104).toNat ((hears (ploam .other) aO23).rp (pAct .a) 0x108).toNat
      (hears (ploam .other) aO23) = true ∧
    ((hears (ploam .other) aO4).power.mode.code = 1 ∧ lockedOut .a (hears (ploam .other) aO4) = false) ∧
    (pswActive (serving .normal (hears (ploam .deactivate) aO5)) = .a ∧
      (serving .normal (hears (ploam .deactivate) aO5)).power.mode.code = 2) ∧
    actState .a (hears (ploam .other) aO6) = aO6 := by
  unfold heard; decide +kernel

/-- The serial number that feeder A has at reset, as a message spells it. -/
def ownNumber : Nat × Nat := ((State.reset.rp (pAct .a) 0x104).toNat, (State.reset.rp (pAct .a) 0x108).toNat)

theorem test_witness_PloamMovesAFeeder_own :
    (let p := ploam (.assignOnuId ownNumber.1 ownNumber.2 1023); let s := hears p aO23;
      heard .a p 0 [] s ∧ actState .a s = aO23 ∧ ownSn .a ownNumber.1 ownNumber.2 s = true) ∧
    (let s := serving .normal (hears (ploam .deactivate) aO5);
      heard .a (ploam .deactivate) 0 [] s ∧ actState .a s = aO5 ∧ pswActive s = .a ∧ s.power.mode.code = 2) := by
  unfold heard; decide +kernel

/-- Feeder A in O5 with ONU-ID 5 and an assignment waiting. -/
def known : State := (hears (ploam (.assignAllocId 16383 true)) aO5).wp (pAct .a) 0x100 (word (5 + 5 * 2 ^ 16 + 2 ^ 31))

/-- A directed message with a bad MIC. -/
def forged : Ploam := { ploam .deactivate with micOk := false }

theorem test_witness_PloamIsAnswered :
    (∀ b ∈ [PloamBody.requestRegistration, .keyControl, .assignAllocId 16383 true, .sleepAllow true, .other],
      heard .a (ploam b) 0 [] (hears (ploam b) aO5) ∧ actState .a (hears (ploam b) aO5) = aO5 ∧ (ploam b).onuId ≠ 0x3FF ∧
      (hears (ploam b) aO5).power.mode ≠ .service .doze) ∧
    (heard .a (ploam (.assignAllocId 16383 true)) 0 [] known ∧ (onuId .a known).isSome = true ∧
      (∀ k, k < 32 → bit (known.rp (pBtx .a) (0x180 + 4 * k)) 16 = true → bits (known.rp (pBtx .a) (0x180 + 4 * k)) 0 14 ≠ 16383) ∧
      bit (known.rp (pBtx .a) (0x180 + 4 * 0)) 16 = false) ∧
    (State.reset.flag (regAddr (pAct .a) 0x180) 4 ≠ true) ∧
    (keeperUp (hears forged aO5) = true ∧ ((hears forged aO5).act.get .a).queue = [(forged, 0)] ∧ forged.onuId ≠ 0x3FF ∧
      forged.body = .deactivate) := by
  unfold heard; decide +kernel

/-- The Keeper runs, a token is present and the terminal is in a sub-state of SERVICE on feeder A, which is in O5. -/
def inService (x : ServSub) : State :=
  (serving x (keeping (State.reset.setFld (regAddr (pAct .a) 0x100) 0 4 aO5))).wp pSlc 0x100 1

/-- SLEEP_EN and Sleep_Allow are set. -/
def sleepy : State := (inService .normal).wp (pAct .a) 0x180 0x11

/-- In DOZE, with the receiver off or on. -/
def dozing (off : Bool) : State := ((inService .doze).wp (pAct .a) 0x180 0x11).setFlag (regAddr (pAct .a) 0x180) 5 off

/-- In DOZE, in a watch behind the gate. -/
def gated : State := (dozing false).setActSt .a { (dozing false).act.get .a with gate := some ⟨none, false⟩ }

theorem test_witness_WatchfulSleep : quiet sleepy = true ∧ sleepy.running = true ∧ mayDoze sleepy = true ∧
    ((dozing false).power.mode = .service .doze ∧ rxOff (pswActive (dozing false)) (dozing false) = false ∧
      ((dozing false).act.get .a).gate = none ∧ quiet (dozing false) = true) ∧
    (rxOff (pswActive (dozing true)) (dozing true) = true ∧
      admits .a (pAct .a) 0x180 (sleepCtrlHandler .a) (word ((dozing true).fld (regAddr (pAct .a) 0x180) 0 1 + 2)) (dozing true) = true) ∧
    admits .b (pAct .b) 0x180 (sleepCtrlHandler .b) (word 1) sleepy = true ∧
    ((gated.act.get .a).gate ≠ none ∧ gated.psw.sw = none ∧ inSync .a gated = false ∧ actState .a gated = aO5) ∧
    (∀ x ∈ [false, true], let s := inService .rerange
      let s := { s with psw := { s.psw with stuck := x } };
      s.power.mode = .service .rerange ∧ s.psw.stuck = x ∧ quiet s = true) := by decide +kernel

/-- An allocation of 64 bytes. -/
def grant : Grant := ⟨.alloc 5, true, 0, 0, 0, 64, true, false⟩

/-- A life record of a new module. -/
def life0 : LifeRec := ⟨List.replicate 16 0, List.replicate 16 0, 2 ^ 32 - 1, 0, 1, 0, 0, 0, 0, 0, 1⟩

/-- In SERVICE with a module that transmits in cage A and one allocation at a stage. -/
def bursting (filled started : Bool) : State :=
  let s := (inService .normal).setHdr (pOpt .a) { (inService .normal).hdr (pOpt .a) with localHold := false }
  let s := ((s.wp (pOpt .a) 0x100 0x3003).wp (pOpt .a) 0x104 1).setFlag (regAddr (pAct .a) 0x110) 16 true
  { s with btx := s.btx.set .a { s.btx.get .a with bursts := [⟨grant, 0, true, none, filled, started, []⟩] } }

theorem test_witness_BurstsCarryTheirContent :
    (((bursting false false).btx.get .a).bursts.find? (fun x => !x.filled) = some ⟨grant, 0, true, none, false, false, []⟩ ∧
      noFlip (bursting false false) = true ∧ (bursting false false).running = true ∧ quietNow .a (bursting false false) = false) ∧
    (((bursting true false).btx.get .a).bursts = [⟨grant, 0, true, none, true, false, []⟩] ∧ txOn .a (bursting true false) = true ∧
      eqdValid .a (bursting true false) = true ∧ quietNow .a (bursting true false) = false) ∧
    (let s := (bursting true false).setOpt .a { (bursting true false).opt.get .a with live := some life0 };
      let u := s.setBtx .a { s.btx.get .a with profiles := [(0, some ⟨1, 100, 512, [], [], true⟩)] };
      (u.opt.get .a).live = some life0 ∧ profileOf .a grant u = some ⟨1, 100, 512, [], [], true⟩ ∧ txOn .a u = true ∧ eqdValid .a u = true ∧
        quietNow .a u = false ∧ (u.btx.get .a).bursts = [⟨grant, 0, true, none, true, false, []⟩]) ∧
    ((bursting true true).btx.get .a).bursts.find? (fun x => x.started) = some ⟨grant, 0, true, none, true, true, []⟩ ∧
    (memClean (bursting true false) = true ∧ quiet (bursting true false) = true ∧
      admits .a (pBtx .a) (0x200 + 4 * 31) (nodeMapHandler .a 31) 5 (bursting true false) = true) := by decide +kernel

/-- In SERVICE during a switch to feeder B. -/
def switching : State := let s := inService .pswitch
  { s with psw := { s.psw with sw := some ⟨.b, 3, 0⟩ } }

/-- In SERVICE on feeder A, with feeder B in O5 and WARM. -/
def warmB : State :=
  let s := inService .normal
  let s := s.setHdr (pOpt .b) { s.hdr (pOpt .b) with localHold := false }
  (((s.wp (pOpt .b) 0x100 0x3003).wp (pLfr .b) 0x104 0x22).setFld (regAddr (pAct .b) 0x100) 0 4 aO5).setFlag
    (regAddr (pAct .b) 0x110) 16 true |>.setFld (regAddr pCry 0x100) 8 5 0x11

/-- Feeder B is WARM and a command stands. -/
def commanded (v : Word) : State := warmB.wp pPsw 0x108 v

/-- Feeder B is WARM, preferred with REVERT, and the WTR count runs. -/
def reverting : State := { warmB.wp pPsw 0x10C 3 with psw := { warmB.psw with wtr := true } }

theorem test_witness_FeedersAreSwitched :
    (quiet switching = true ∧ switching.psw.sw = some ⟨.b, 3, 0⟩ ∧ switching.power.mode = .service .pswitch ∧ switching.running = true) ∧
    (quiet warmB = true ∧ carrier warmB = some AB.b.other ∧ admits .a pPsw 0x108 pswCmdHandler (word (1 + AB.b.num)) warmB = true ∧
      admits .a pPsw 0x108 pswCmdHandler (word (3 + AB.b.num)) warmB = true) ∧
    admits .a pPsw 0x108 pswCmdHandler (word (warmB.fld (regAddr pPsw 0x108) 0 3 + b2n true * 16 + b2n false * 32)) warmB = true ∧
    admits .a pPsw 0x108 pswCmdHandler (word (lockBits (commanded 3))) (commanded 3) = true ∧
    (reverting.psw.wtr = true ∧ revertReady reverting = true) ∧ inPswitch switching = true := by decide +kernel

/-- Cage A is free and holds a module in a given OPT_STATUS, with its live record. -/
def caged (v : Word) (x : OptSt) : State :=
  let s := keeping (State.reset.setHdr (pOpt .a) { State.reset.hdr (pOpt .a) with localHold := false })
  { s.wp (pOpt .a) 0x100 v with opt := s.opt.set .a x }

/-- Identity bytes that pass the checks for cage A, and such that do not. -/
def ident (ok : Bool) : IdImage :=
  let l : List Byte := (((List.replicate 96 0).set 0 3).set 12 255).set 66 200
  ⟨true, if ok then l.set 63 (BitVec.ofNat 8 ((l.take 63).map BitVec.toNat).sum) else l, true⟩

theorem test_witness_ModulesComeAndGo :
    ((caged 0 OptSt.reset).power.vauxLow = false ∧ quiet (caged 0 OptSt.reset) = true ∧
      (caged 0 OptSt.reset).flag (regAddr (pOpt .a) 0x100) 0 = false) ∧
    (let s := withPage (pAct .a) .active ((caged 0 OptSt.reset).setFld (regAddr (pAct .a) 0x100) 0 4 aOff);
      s.flag (regAddr (pOpt .a) 0x100) 0 = false ∧ actState .a s = aOff ∧ inSync .a s = false ∧ s.pstate (pAct .a) = .active) ∧
    ((caged 3 { OptSt.reset with live := some life0 }).flag (regAddr (pOpt .a) 0x100) 0 = true) ∧
    (modPresent .a (caged 0x10001 OptSt.reset) = true ∧ cageFree .a (caged 0x10001 OptSt.reset) = true ∧
      modAccepted .a (caged 0x10001 OptSt.reset) = false ∧ (caged 0x10001 OptSt.reset).fld (regAddr (pOpt .a) 0x100) 16 4 ≠ 0) ∧
    (rejectOf .a (ident false) (caged 1 { OptSt.reset with reading := true }) ≠ 0 ∧
      rejectOf .a (ident true) (caged 1 { OptSt.reset with reading := true }) = 0) ∧
    (modPresent .a (caged 3 { OptSt.reset with twoWire := some 3 }) = true ∧
      modAccepted .a (caged 3 { OptSt.reset with twoWire := some 3 }) = true) ∧
    (((caged 3 { OptSt.reset with twoWire := some 2 }).opt.get .a).twoWire = some 2 ∧ 2 < 3) ∧
    (let s := ((caged 3 { OptSt.reset with live := some life0 }).wp (pOpt .a) 0x104 1).setFld (regAddr (pAct .a) 0x100) 0 4 aO5;
      txOn .a s = true ∧ (s.opt.get .a).live = some life0) ∧
    (let s := caged 0 { OptSt.reset with leaving := [life0] };
      capOpen s = true ∧ s.nvs.life.length < 256 ∧ (s.opt.get .a).leaving = [life0]) ∧
    admits .a (pOpt .a) 0x110 (lifeLimitHandler .a) 1000 (caged 3 OptSt.reset) = true ∧
    admits .a (pOpt .a) 0x104 (txCtrlHandler .a) 1 (caged 3 OptSt.reset) = true := by decide +kernel

/-- In SERVICE, slice 0 ACTIVE with client port 0, whose page is ACTIVE, in its first mode and with LINK or without. -/
def client (link : Bool) : State :=
  let s := (serving .normal owned).wp (pSlice 0 0) 0x108 0x101
  let s := ((withPage (pSlice 0 0) .active (withPage (pMac 0) .active s)).wp (pMac 0) 0x100 1).wp (pMac 0) 0x108 9600
  s.setFlag (regAddr (pMac 0) 0x104) 0 link

/-- A frame of 64 bytes with its FCS. -/
def clientBytes (ty : Nat) : List Byte := [1, 0x80, 0xC2, 0, 0, 1, 7, 8, 9, 10, 11, 12] ++ beBytes 2 ty ++ [0, 1, 0xFF, 0xFF] ++ List.replicate 42 0

/-- A client frame, good or with a bad FCS. -/
def clientFrame (ty : Nat) (ok : Bool) : ClientFrame := ⟨clientBytes ty, true, true, ok, false⟩

/-- A packet of the frame. -/
def pkt : Pkt := { mkPkt 0 0 (clientBytes 0x0800) State.reset with banks := [0] }

theorem test_witness_LineFramesAreReassembled_good :
    (let x := xframe 0 ([1, 2, 3] ++ fcsBytes [1, 2, 3]) true;
      let s := (client true).setLfr .a { (client true).lfr.get .a with xq := [x] };
      (s.lfr.get .a).xq = [x] ∧ x.key = none ∧ noFlip s = true ∧ s.running = true ∧ dataFeeder s = some .a ∧ s.sliceState 0 = .active ∧
        s.cls.waiting = [] ∧ lanesIn s ≠ []) := by decide +kernel

/-- Client port 0 with the state of its port. -/
def ported (link : Bool) (x : MacPort) : State := (client link).setPort 0 x

theorem test_witness_ClientPortsCarryFrames : 7 < 8 ∧ noFlip (client true) = true ∧ (client true).running = true ∧
    (client true).fld (regAddr (pMac 0) 0x100) 0 2 ≠ 0 ∧
    (macRefused 0 (clientFrame 0x0800 false) (client true)).isSome = true ∧ (client true).portSlice 0 = some 0 ∧
    (macRefused 0 (clientFrame 0x0800 true) (client true) = none ∧ beAt (clientFrame 0x0800 true).bytes 12 2 ≠ 0x8808 ∧
      (client true).sliceState 0 = .active ∧ (client true).pstate (pMac 0) = .active ∧ (client true).mode.code ≠ 1 ∧
      (client true).cls.waiting = [] ∧ lanesIn (client true) ≠ []) ∧ (owned.wp (pMac 0) 0x100 1).portSlice 0 = none ∧
    (let s := (client true).wp (pMac 0) 0x10C 5;
      macRefused 0 (clientFrame 0x8808 true) s = none ∧ beAt (clientFrame 0x8808 true).bytes 14 2 = 1 ∧ (s.portSlice 0).isSome = true ∧
      s.flag (regAddr (pMac 0) 0x10C) 2 = true) := by decide +kernel

theorem test_witness_ClientPortsCarryFrames_send :
    (let s := ((ported true { MacPort.empty with xoff := 256 }).setQueue 0 [pkt] |>.wp (pMac 0) 0x11C 0).wp (pMac 0) 0x10C 9;
      (s.port 0).xoff.testBit 8 = true ∧ macLink 0 s = true ∧ s.flag (regAddr (pMac 0) 0x10C) 3 = true ∧
      s.fld (regAddr (pMac 0) 0x10C) 0 2 = 1 ∧ s.fld (regAddr (pMac 0) 0x11C) 0 19 < heldCells 0 none s) ∧
    admits .a (pMac 0) 0x100 (macModeHandler 0) 2 (withPage (pMac 0) .idle (client true)) = true ∧
    (let s := ported true { MacPort.empty with txq := [{ pkt with tsId := some 77 }] };
      (s.port 0).txq = [{ pkt with tsId := some 77 }] ∧ macLink 0 s = true ∧ ptpEvent (padFrame pkt.bytes) = none ∧
      (s.port 0).tsq.length < 64) ∧
    macLink 0 (ported false { MacPort.empty with txq := [pkt] }) = false ∧
    (let s := ported true { MacPort.empty with tsq := [⟨7, 0, 1, 2, 3⟩] };
      readable .a (pMac 0) 0x170 s = true ∧ (s.port 0).tsq = [⟨7, 0, 1, 2, 3⟩]) := by decide +kernel

/-- A packet in lane 0 of a terminal with rules in slice 0. -/
def inLane (rules : Tbl Rule) : State :=
  let s := (client true).wp (pSlice 0 0) 0x110 0x100
  { s with cls := { s.cls with lanes := tblSet ⟨[], false⟩ 0 ⟨[pkt], false⟩ s.cls.lanes, rules := rules } }

/-- A rule that matches every packet and discards it. -/
def anyRule : Rule := { Rule.zero with act := [0xA0000000, 0, 0, 0] }

theorem test_witness_ClassificationFindsTheRule : memClean (inLane []) = true ∧ ((inLane []).lane 0).q = [pkt] ∧
    (inLane []).sliceState pkt.slice = .active ∧ (inLane []).cls.waiting = [] ∧ (inLane []).cls.rules = [] ∧
    (tblWf (fun _ => Rule.zero) [(63, anyRule)] = true ∧ (inLane [(63, anyRule)]).cls.rules = [] ++ (63, anyRule) :: [] ∧
      memClean (inLane [(63, anyRule)]) = true ∧ ((inLane [(63, anyRule)]).lane 0).q = [pkt] ∧
      ((inLane [(63, anyRule)]).ruleRange 0).1 ≤ 63 ∧
      63 < ((inLane [(63, anyRule)]).ruleRange 0).1 + ((inLane [(63, anyRule)]).ruleRange 0).2 ∧ anyRule.valid = true ∧
      anyRule.matches pkt.key = true) := by
  decide +kernel

/-- Packets wait for a second pass. -/
def churning (p : Option (Nat × Nat)) (permit : Word) : State :=
  let s := (client true).wp pSlc (0x200 + 4 * 31) permit
  { s with cls := { s.cls with churnQ := [⟨pkt, p⟩] } }

theorem test_witness_ClassificationFindsTheRule_more :
    ((churning none 0).cls.churnQ = [⟨pkt, none⟩] ∧ lanesIn (churning none 0) ≠ []) ∧
    permitOk 31 0 5 false (churning (some (31, 5)) 0x501) = true ∧ permitOk 31 0 5 false (churning (some (31, 5)) 0x500) = false ∧
    (∀ n ∈ [1, 2, 3], admits .a (pSlice 0 8) 0x104 (ruleCmdHandler 0) (word n) (inLane []) = true) ∧
    (((inLane []).ruleAt (ruleIndex 0 (inLane []))).key.length = 19 ∧ ((inLane []).ruleAt (ruleIndex 0 (inLane []))).mask.length = 19 ∧
      ((inLane []).ruleAt (ruleIndex 0 (inLane []))).act.length = 4) ∧
    ((inLane []).cls.buckets.length = 64 ∧ laneIn 0 (inLane []) = true ∧ ((inLane []).lane 0).q ≠ []) ∧
    (let s := { client true with cls := { (client true).cls with buckets := (List.range 63).map (fun b => b % 15) ++ [0] } };
      returnLane 0 s = some 15 ∧ (∀ c, c < 0 → returnLane c s = none) ∧ s.cls.waiting = []) ∧
    (churning none 0).cls.waiting = [] := by decide +kernel

/-- Node 1 under client port 0 in class EXCESS or COMMITTED, with two packets in its queue 0 and credit. -/
def queued : State :=
  let s := ((client true).wp (pSlice 0 0) 0x10C 0x40000).wr (nodeAddr 1 0) (0x10000 + 32)
  setCred 1 (500000 : Int) (500000 : Int) ((s.wr (nodeAddr 1 8) 1000).setQueue 8 [pkt, pkt])

theorem test_witness_QueuesAreServed : memClean queued = true ∧ queued.running = true ∧
    (takeFrame 32 (fun _ => true) queued).isSome = true ∧
    ((takeFrame 32 (fun _ => true) queued).map (fun x => (x.1.node, x.1.queue))) = some (1, 0) ∧ queued.queue 8 = [pkt, pkt] ∧
    pkt.cell = .clean ∧ macLink 0 queued = true ∧
    (admits .a (pSlice 0 0x28) (0x100 + 0x20 * 3 + 4) (nodeHandler 0 3 4) 0 queued = true ∧
      admits .a (pSlice 0 0x28) (0x100 + 0x20 * 3 + 16) (nodeHandler 0 3 16) 16384 queued = true) ∧
    (let s := queued.wp (pSlice 0 0) 0x114 0x10000;
      admits .a (pSlice 0 0x18) (0x100 + 12 * 0) (policerHandler 0 0 0) 77 s = true) ∧
    admits .a pSch 0x1B0 (plain pSch 0x1B0) 77 queued = true ∧ readable .a (pSlice 0 4) 0x104 queued = true := by decide +kernel

/-- Slice 0 with its ring on, and one sampled discard waiting. -/
def ring (wr : Word) : State :=
  let s := (owned.wp (pSlice 0 1) 0x10C 1).wp (pSlice 0 1) 0x114 wr
  { s with buf := { s.buf with skimQ := [⟨0, [1, 2, 3, 4, 5, 6, 7]⟩] } }

theorem test_witness_DiscardsAreRecorded : ((ring 0).buf.skimQ = [⟨0, [1, 2, 3, 4, 5, 6, 7]⟩] ∧ pushLink 0 (ring 0) = none ∧
      ringFill 0 (ring 0) < ringSize ((ring 0).rd (ringReg 0 0x10C))) ∧
    ringSize ((ring 0).rd (ringReg 0 0x10C)) ≤ ringFill 0 (ring (word (ringSize ((ring 0).rd (ringReg 0 0x10C))))) ∧
    admits .a (pSlice 0 1) 0x10C (ringCfgHandler 0) 0 (ring 7) = true ∧ admits .a (pSlice 0 1) 0x10C (ringCfgHandler 0) 1 (ring 7) = true ∧
    (ring 7).flag (ringReg 0 0x10C) 0 = true ∧
    admits .a (pSlice 0 1) 0x110 (ringBaseHandler 0) 4096 ((ring 7).wp (pSlice 0 1) 0x10C 0) = true ∧
    admits .a (pSlice 0 1) 0x118 (ringRdHandler 0) 5 (ring 7) = true := by decide +kernel

theorem test_witness_DiscardsAreRecorded_marks :
    (let n := ringSize ((ring 0).rd (ringReg 0 0x10C));
      ringFill 0 (ring (word (n / 2 - 1))) + 1 = ringSize ((ring (word (n / 2 - 1))).rd (ringReg 0 0x10C)) / 2 ∧
      (ring (word n)).rd (ringReg 0 0x11C) = 0 ∧ pushLink 0 (ring (word n)) = none) := by decide +kernel

/-- The time unit changed, with a token present. -/
def timed (g : TsuSt → TsuSt) : State := { pressed State.reset with tsu := g State.reset.tsu }

theorem test_witness_TimeIsKeptAndTold_unit :
    admits .a pTsu (0x158 + 0x20 * AB.b.num) (armHandler .b) (field 0 1 1)
      ((pressed State.reset).wp pTsu (0x144 + 0x20 * AB.b.num) 80000) = true ∧
    ((timed (fun t => { t with state := .holdover, valid := true })).tsu.state = .holdover ∧
      (timed (fun t => { t with state := .holdover, valid := true })).tsu.valid = true) ∧
    admits .a pTsu 0x1A0 calHandler (word (1 + 255 * 256)) ((timed (fun t => { t with state := .line })).wp pTsu 0x1D4 1) = true ∧
    ((timed (fun t => { t with cal := some ⟨0, [-32768, -32768]⟩ })).tsu.cal = some ⟨0, [-32768, -32768]⟩ ∧
      [(-32768 : Int), -32768].length < 256 ∧ (∀ x ∈ [(-32768 : Int), -32768], x = -32768)) ∧
    (let s := timed (fun t => { t with state := .host, time := 2 ^ 80 });
      admits .a pTsu 0x1B4 hostAdjHandler 1 s = true ∧
      (signedOf 32 (0xFFFFFFFF : Word).toNat * Int.ofNat nsUnit).natAbs ≤ slewMax s ∧
      admits .a pTsu 0x1B4 hostAdjHandler 0x7FFFFFFF s = true ∧
      slewMax s < (signedOf 32 (0x7FFFFFFF : Word).toNat * Int.ofNat nsUnit).natAbs ∧
      0 ≤ Int.ofNat s.tsu.time + signedOf 32 (0x7FFFFFFF : Word).toNat * Int.ofNat nsUnit ∧
      admits .a pTsu 0x1C4 setNsHandler 999999999 s = true) := by decide +kernel

/-- The Lantern is on, with the time unit changed. -/
def lantern (g : TsuSt → TsuSt) : State :=
  ((timed g).wp pTsu 0x1C8 1 |>.wp pTsu 0x1D0 1).wp pTsu 0x1D4 1

theorem test_witness_TimeIsKeptAndTold_lantern :
    (bit ((lantern id).rp pTsu 0x1C8) 0 = true ∧ (bit ((lantern id).rp pTsu 0x1C8) 1 = true → (lantern id).tsu.valid = true) ∧
      (∀ n ∈ (lantern id).tsu.ppsAge, 500000 ≤ n)) ∧
    (lantern (fun t => { t with ppsAge := some 499999 })).tsu.ppsAge = some 499999 ∧
    (lantern (fun t => { t with ppsHigh := true })).tsu.ppsHigh = true ∧
    ((lantern (fun t => { t with todEdge := some 5 })).tsu.todEdge = some 5 ∧ (lantern id).flag (regAddr pTsu 0x1D0) 0 = true) ∧
    ((lantern id).flag (regAddr pTsu 0x1D4) 0 = true ∧ 1000 * nsUnit - 1 < 1000 * nsUnit) ∧
    (let s := lantern (fun t => { t with edge := some 0, time := 900000000 * nsUnit, lastS := some 99 });
      s.tsu.edge = some 0 ∧ s.tsu.edgeTold = false ∧ s.tsu.time ≤ 0 + 900000000 * nsUnit ∧
      todSeconds [] = none ∧ todSeconds ((todMessage 100 s).map (fun c => BitVec.ofNat 8 c.toNat)) = some 100) ∧
    (lantern (fun t => { t with extValid := true })).tsu.extValid = true := by decide +kernel

/-- Sequencer 0 of slice 0 at an instruction boundary, with registers g1 = 100, g2 = 7 and g3 = 16 384 and channel 1. -/
def seqUp : State :=
  let s := ((((State.reset.wp (pSlice 0 0) 0x120 1).wp (pSlice 0 0) 0x124 2).wp (pSlice 0 0) 0x12C 16).wp (pSeq 0) 0x114 0x1000).wp
    pMem 0x104 1024
  let s := withPage (pSeq 0) .active (withPage (pSlice 0 0) .active (s.wp pSlc 0x100 1))
  serving .normal (pressed (s.setSeq 0 { s.seq 0 with run := .running, pc := 16, g := [(1, 100), (2, 7), (3, 0x4000)] }))

theorem test_witness_SequencersCompute : seqAt 0 seqUp = true ∧ (31 : BitVec 16).toNat < 32 := by decide +kernel

theorem test_witness_SequencersMoveData : seqAt 0 seqUp = true ∧
    seqAddrOk true (((seqUp.seq 0).reg 3) + (0 : Word)).toNat 4 = true ∧
    seqAddrOk false (((seqUp.seq 0).reg 3) + (8 : Word)).toNat 1 = true ∧
    (((seqUp.seq 0).reg 3) + (0 : Word)).toNat % 4 = 0 ∧ ((seqUp.seq 0).reg 3).toNat + 4 ≤ (seqUp.region (seqOf 0 seqUp)).2 ∧
    (let s := seqUp.setSeq 0 { seqUp.seq 0 with g := [(3, 0x1000000)] };
      seqAt 0 s = true ∧ (s.region (seqOf 0 s)).2 < ((s.seq 0).reg 3).toNat + 4) ∧
    (((seqUp.seq 0).reg 1) + (0xFFFF : Word)).toNat % 4 ≠ 0 ∧ (((seqUp.seq 0).reg 1) + (4 : Word)).toNat % 4 = 0 := by decide +kernel

/-- Sequencer 0 with channel 1 in a given state, and with a wait. -/
def seqWith (c : Chk) (w : Option SeqWait) : State :=
  let s := seqUp.setSeq 0 { seqUp.seq 0 with wait := w }
  { s with chk := tblSet Chk.none 1 c s.chk }

theorem test_witness_SequencersActOnTheirSlice : seqAt 0 seqUp = true ∧ seqEvents 0 seqUp &&& 63 = 0 ∧
    seqEvents 0 (seqUp.setSeq 0 { seqUp.seq 0 with events := 1 }) &&& 1 ≠ 0 ∧
    (seqAt 0 (seqUp.setSeq 0 { seqUp.seq 0 with events := 1 }) = true) ∧
    (bits ((seqUp.seq 0).reg 2) 0 16 < 14 ∧ 14 ≤ bits ((seqUp.seq 0).reg 1) 0 16 ∧ bits ((seqUp.seq 0).reg 1) 0 16 ≤ 2048 ∧
      bit ((seqUp.seq 0).reg 1) 0 = false ∧ seqUp.sliceState (seqOf 0 seqUp) = .active ∧ lanesIn seqUp ≠ []) ∧
    (seqUp.chkSlice (1 % 8) = seqUp.seqSlice 0 ∧ chanClosed 1 seqUp = false ∧
      feedRejected 1 4 (seqWith ⟨0, .open, false, false, 8, 0⟩ none) = false ∧
      (seqWith ⟨0, .complete, false, false, 8, 0⟩ none).chan 1 = ⟨0, .complete, false, false, 8, 0⟩ ∧
      chanLen 1 ((seqWith ⟨0, .open, false, false, 8, 0⟩ none).wp (pChk 1) 0x10C 4) ≠ 0) ∧
    seqUp.chkSlice (2 % 8) ≠ seqUp.seqSlice 0 ∧ seqDecode 0 0xC8200000 = none ∧
    (seqUp.seq 0).cache.any (fun e => e.1 == (seqUp.seq 0).pc / 64) = false := by decide +kernel

theorem test_witness_SequencersActOnTheirSlice_returns :
    ((seqWith Chk.none (some (.load 31 64))).seq 0).wait = some (.load 31 64) ∧
    (((seqWith Chk.none (some (.event 1 1))).seq 0).wait = some (.event 1 1) ∧ seqEvents 0 (seqWith Chk.none (some (.event 1 1))) &&& 1 = 0) ∧
    ((seqWith ⟨0, .complete, false, false, 8, 0⟩ (some (.check 1 1))).chan 1).state = .complete ∧
    chanWaits 1 ((seqWith ⟨0, .open, false, false, 8, 0⟩ (some (.check 1 1))).wp (pChk 1) 0x10C 4) = true ∧
    (let s := seqUp.setSeq 0 { seqUp.seq 0 with pc := 0x1000 };
      seqReady 0 s = true ∧ s.fld (regAddr (pSeq 0) 0x114) 0 25 ≤ (s.seq 0).pc) := by decide +kernel

theorem test_witness_SequencersAndChecksAreDriven :
    (tblGet SeqTimer.off 3 (seqUp.setSeq 0 { seqUp.seq 0 with timers := [(3, ⟨true, false, 1, 1⟩)] } |>.seq 0).timers).armed = true ∧
    ((seqUp.seq 0).run = .running ∧ seqUp.flag (regAddr (pSeq 0) 0x118) 31 = false ∧
      (seqUp.wp (pSeq 0) 0x118 0x80000000).flag (regAddr (pSeq 0) 0x118) 31 = true ∧ seqMayRun 0 (seqUp.wp (pSeq 0) 0x118 0x80000000) = true) ∧
    (∀ i ∈ [0, 1], admits .a (pSeq 0) 0x11C (seqCtrlHandler 0) (field i 1 1) seqUp = true) ∧
    (let s := seqUp.setSeq 0 { seqUp.seq 0 with run := .stopped };
      memClean s = true ∧ readable .a (pSeq 0) 0x128 s = true ∧ admits .a (pSeq 0) 0x128 (dmemHandler 0) 5 s = true) ∧
    (∀ f ∈ [false, true], admits .a (pChk 1) 0x114 (chanStartHandler 1) (word (1 + 2 * b2n f)) seqUp = true) ∧
    (let s := seqWith ⟨0, .open, false, false, 0, 0⟩ none;
      admits .a (pChk 1) 0x128 (chanFeedHandler 1 0x128 4) 5 s = true ∧ admits .a (pChk 1) 0x120 (chanFeedHandler 1 0x120 1) 5 s = true) ∧
    (frozenWrite .a (pChk 1) 0x128 seqUp = false ∧ writeDenied .a (.reg none (pChk 1) 0x128) seqUp = none ∧
      writeBusy (pChk 1) 0x128 5 seqUp = false ∧ seqUp.lockOk .a (pChk 1) = true ∧
      touches .rwp (fieldsAt (pChk 1) 0x128) 5 = false ∧ feedRejected 1 4 seqUp = true) ∧
    readable .a (pChk 1) 0x130 seqUp = true ∧ (seqUp.chan 1).state = .none := by decide +kernel

theorem test_witness_SequencersAndChecksAreDriven_reads :
    (let s := seqWith ⟨0, .complete, false, false, 8, 0⟩ none; readable .a (pChk 1) 0x130 s = true ∧ (s.chan 1).state = .complete) ∧
    (let s := seqWith ⟨0, .open, false, false, 8, 0⟩ none;
      readable .a (pChk 1) 0x130 s = true ∧ (s.chan 1).state = .open ∧ chanLen 1 s = 0) ∧
    (let s := (seqWith ⟨0, .open, false, false, 8, 2⟩ none).wp (pChk 1) 0x10C 4;
      readable .a (pChk 1) 0x130 s = true ∧ (s.chan 1).state = .open ∧ chanLen 1 s ≠ 0) := by decide +kernel

/-- The scrubber stands at a row of the packet buffer. -/
def scrubbing : State := (pressed State.reset).wp pEcc 0x104 0x48002000

/-- Reset with a row under test. -/
def rowTested : State := { State.reset with ecc := { State.reset.ecc with tests := [⟨0x48, 0, 2, 0⟩] } }

theorem test_witness_MemoryIsScrubbed :
    (scrubbing.flag (regAddr pEcc 0x100) 8 = true ∧ memClean scrubbing = true ∧
      (∃ l, scrubHere scrubbing = some l ∧ 0x40 ≤ l.mem ∧ (scrubNext l scrubbing).isSome = true ∧ (memShape l.mem).isSome = true) ∧
      quiet scrubbing = true ∧ scrubbing.ecc.tests = []) ∧
    (rowTested.ecc.tests = [⟨0x48, 0, 2, 0⟩] ∧ repeated ⟨0x48, 0, 2, 0⟩ rowTested = false ∧
      tblGet 0 (bankKey ⟨0x48, 0, 2, 0⟩) rowTested.ecc.spares + tblGet 0 (bankKey ⟨0x48, 0, 2, 0⟩) rowTested.ecc.failed < 8) ∧
    admits .a pEcc 0x120 flipMemHandler 0x10048 ((scrubbing.wp pEcc 0x124 1).wp pSlc 0x100 1) = true ∧
    flipBits State.reset = [] ∧
    State.reset.fld (regAddr pMem 0x100) 0 2 < 2 ∧
    admits .a pMem 0x10C retrainHandler (field 0 1 1) ((pressed State.reset).setFld (regAddr pMem 0x100) 0 2 3) = true := by
  refine ⟨⟨?_, ?_, ⟨⟨0x48, 0, 2, 0⟩, ?_⟩, ?_⟩, ?_⟩ <;> decide +kernel

theorem test_witness_TablesStayCanonical : State.reset.canonical = true ∧ State.reset.dram.wf = true := by decide +kernel

end Sys2Proof.Tests
end

/-!
PROOFS. Received control frames (R39, R41, R46, R52, R53, R75): what counting a frame changes, what the checks of R46 lead to, and what
becomes of a good DATA frame of the present epoch.
-/

namespace Sys2Proof.Machine

/-- Two changes of registers, those of the second one named first. -/
theorem keepsRegs_trans_swap {l m : List Nat} {s t u : State} (a : keepsRegs l s t) (b : keepsRegs m t u) : keepsRegs (m ++ l) s u :=
  keepsRegs_mono (keepsRegs_trans a b) fun _ h => List.mem_append.mpr (List.mem_append.mp h).symm

/-! ### Counters of a control link (Table 2-4) -/

/-- The counters of one link stand at different addresses. -/
@[simp] theorem linkCtr_inj (l : AB) {i j : Nat} : linkCtr l i = linkCtr l j ↔ i = j := by
  simp only [linkCtr, regAddr]
  omega

/-- The counters of a link stand above its other registers. -/
theorem linkCtr_ne_ctl (l : AB) (i : Nat) {off : Nat} (h : off < 0x200) : regAddr (pCtl l) off ≠ linkCtr l i := by
  simp only [linkCtr, regAddr]
  omega

/-- The counters of the links stand above the ECC page. -/
theorem linkCtr_ne_ecc (l : AB) (i : Nat) {off : Nat} (h : off < 0x1000) : regAddr pEcc off ≠ linkCtr l i := by
  simp only [linkCtr, regAddr, pCtl, pEcc]
  omega

/-- Counting replaces one register. -/
theorem linkCount_keeps (l : AB) (i : Nat) (s : State) : keeps [.regs] s (linkCount l i s) := wr_keeps _ _ _

theorem linkCount_keepsRegs (l : AB) (i : Nat) (s : State) : keepsRegs [linkCtr l i] s (linkCount l i s) := wr_keepsRegs _ _ _

@[simp] theorem linkCount_rd_same (l : AB) (i : Nat) (s : State) : (linkCount l i s).rd (linkCtr l i) = s.rd (linkCtr l i) + 1 :=
  State.rd_wr_same _ _ _

/-- Counting leaves the link's other counters alone. -/
theorem linkCount_rd_other (l : AB) {i j : Nat} (h : j ≠ i) (s : State) : (linkCount l i s).rd (linkCtr l j) = s.rd (linkCtr l j) :=
  State.rd_wr_other _ (mt (linkCtr_inj l).mp h) _

@[simp] theorem linkCount_link (l m : AB) (i : Nat) (s : State) : (linkCount l i s).link m = s.link m :=
  congrArg (Pair.get · m) (State.bump_links s _ _)
@[simp] theorem linkCount_out (l : AB) (i : Nat) (s : State) : (linkCount l i s).out = s.out :=
  linkCount_keeps l i s .out (by decide)
@[simp] theorem setLink_rd (l : AB) (k : LinkSt) (s : State) (a : Nat) : (s.setLink l k).rd a = s.rd a := rfl

/-- The replacement of a link touches no register. -/
theorem keepsRegs_setLink {cs : List Nat} {s t : State} (kept : keepsRegs cs s t) (l : AB) (k : LinkSt) : keepsRegs cs s (t.setLink l k) :=
  kept

/-- Counting and the replacement of a link commute. -/
theorem linkCount_setLink (l m : AB) (i : Nat) (k : LinkSt) (s : State) :
    linkCount l i (s.setLink m k) = (linkCount l i s).setLink m k := rfl

/-- Two replacements of a link are the second one. -/
@[simp] theorem setLink_setLink (l : AB) (j k : LinkSt) (s : State) : (s.setLink l j).setLink l k = s.setLink l k := by
  cases l <;> rfl

/-- A link replaced by itself. -/
@[simp] theorem setLink_link (l : AB) (s : State) : s.setLink l (s.link l) = s := by
  cases l <;> rfl

/-- Counting in two counters of a link, one after the other. -/
theorem linkCount_linkCount_spec (l : AB) {i j : Nat} (h : i ≠ j) (s : State) :
    (linkCount l j (linkCount l i s)).rd (linkCtr l i) = s.rd (linkCtr l i) + 1 ∧
    (linkCount l j (linkCount l i s)).rd (linkCtr l j) = s.rd (linkCtr l j) + 1 ∧
    keepsRegs [linkCtr l i, linkCtr l j] s (linkCount l j (linkCount l i s)) ∧ keeps [.regs] s (linkCount l j (linkCount l i s)) := by
  refine ⟨?_, ?_, keepsRegs_trans (linkCount_keepsRegs l i s) (linkCount_keepsRegs l j _),
    keeps_mono (keeps_trans (linkCount_keeps l i s) (linkCount_keeps l j _)) (by decide)⟩
  · rw [linkCount_rd_other l h, linkCount_rd_same]
  · rw [linkCount_rd_same, linkCount_rd_other l h.symm]

/-! ### What a change of the link's counters leaves alone -/

section
variable {l : AB} {cs : List Nat} {s t : State} (kept : keepsRegs cs s t) (ctrs : ∀ a ∈ cs, ∃ i, a = linkCtr l i)
include kept ctrs

theorem ctl_rd_of_keepsRegs {off : Nat} (h : off < 0x200) : t.rp (pCtl l) off = s.rp (pCtl l) off :=
  kept _ fun m => (ctrs _ m).elim fun i e => linkCtr_ne_ctl l i h e

theorem noFlip_of_keepsRegs : noFlip t = noFlip s := by
  have e : t.rp pEcc 0x120 = s.rp pEcc 0x120 :=
    kept _ fun m => (ctrs _ m).elim fun i e => linkCtr_ne_ecc l i (by decide) e
  simp only [noFlip, e]

theorem linkMac_of_keepsRegs : linkMac l t = linkMac l s := by
  have hi : t.rd (regAddr (pCtl l) 0x118) = s.rd (regAddr (pCtl l) 0x118) := ctl_rd_of_keepsRegs kept ctrs (by decide)
  have lo := ctl_rd_of_keepsRegs kept ctrs (off := 0x11C) (by decide)
  simp only [linkMac, State.fld, hi, lo]

theorem peerOk_of_keepsRegs (f : RxFrame) (h : t.link l = s.link l) : peerOk l f t = peerOk l f s := by
  have e : t.rd (regAddr (pCtl l) 0x128) = s.rd (regAddr (pCtl l) 0x128) := ctl_rd_of_keepsRegs kept ctrs (by decide)
  simp only [peerOk, State.flag, e, h]

theorem sourceMac_of_keepsRegs (h : (t.link l).macOld = (s.link l).macOld) : sourceMac l t = sourceMac l s := by
  simp only [sourceMac, h, linkMac_of_keepsRegs kept ctrs]

end

/-- One counter of a link is among the link's counters. -/
theorem linkCtr_of_mem_singleton (l : AB) (i : Nat) : ∀ a ∈ [linkCtr l i], ∃ j, a = linkCtr l j :=
  fun _ h => ⟨i, List.mem_singleton.mp h⟩

@[simp] theorem linkMac_linkCount (l : AB) (i : Nat) (s : State) : linkMac l (linkCount l i s) = linkMac l s :=
  linkMac_of_keepsRegs (linkCount_keepsRegs l i s) (linkCtr_of_mem_singleton l i)

@[simp] theorem noFlip_linkCount (l : AB) (i : Nat) (s : State) : noFlip (linkCount l i s) = noFlip s :=
  noFlip_of_keepsRegs (linkCount_keepsRegs l i s) (linkCtr_of_mem_singleton l i)

@[simp] theorem peerOk_linkCount (l : AB) (f : RxFrame) (i : Nat) (s : State) : peerOk l f (linkCount l i s) = peerOk l f s :=
  peerOk_of_keepsRegs (linkCount_keepsRegs l i s) (linkCtr_of_mem_singleton l i) f rfl

/-! ### The checks of R46 -/

/-- Without an armed flip what passes a transit memory is whole. -/
theorem transit_of_noFlip (mem : Nat) {s : State} (h : noFlip s = true) : transit mem s = (false, s) := by
  have disarmed : bit (s.rp pEcc 0x120) 16 = false := by simpa [noFlip] using h
  simp [transit, disarmed]

/-- A link command has its effect while the logic domain runs. -/
theorem linkOn_running {s : State} (h : s.running = true) (r : Result State) : linkOn s r = r := by
  simp [linkOn, h]

/-- A row names the kind that the frame has. -/
theorem asKind_self {f : RxFrame} {n : Nat} (h : f.kind = n) : asKind n f = f := by
  subst h
  exact ite_self _

/-- A record area that is as long as LEN says is taken as it is. -/
theorem wholeArea_self {f : RxFrame} (h : f.area.length = f.len) : wholeArea f = f := by
  have area : (f.area ++ List.replicate (f.len - f.area.length) 0).take f.len = f.area := by simp [← h]
  simp only [wholeArea, area]

section
variable {l : AB} {f : RxFrame} {s : State} (lock : (s.link l).lock = true) (room : f.fifoFull = false) (whole : noFlip s = true)
include lock room whole

/-- A bad FCS or a size outside 64 to 9 728 bytes (R39). -/
theorem receiveFrame_badMac (bad : f.size < 64 ∨ 9728 < f.size ∨ f.fcsOk = false) :
    receiveFrame l f s = linkCount l 2 (linkCount l 0 s) := by
  simp [receiveFrame, wholeArea, lock, room, transit_of_noFlip _ whole, bad]

/-- A foreign destination, a VLAN tag or another EtherType (R41). -/
theorem receiveFrame_foreign (good : ¬ (f.size < 64 ∨ 9728 < f.size ∨ f.fcsOk = false))
    (foreign : f.da ≠ linkMac l s ∨ f.tagged = true ∨ f.etype ≠ 0x88B5) :
    receiveFrame l f s = linkCount l 3 (linkCount l 0 s) := by
  rw [← linkMac_linkCount l 0] at foreign
  simp only [receiveFrame, wholeArea, lock, room, transit_of_noFlip _ whole, Bool.not_true, Bool.false_eq_true, if_false, if_neg good,
    if_pos foreign]

end

/-- What a good frame is, check by check. -/
theorem frameGood_iff {l : AB} {f : RxFrame} {s : State} : frameGood l f s = true ↔
    (s.link l).lock = true ∧ f.fifoFull = false ∧ noFlip s = true ∧ f.area.length = f.len ∧ (64 ≤ f.size ∧ f.size ≤ 9728) ∧
      f.fcsOk = true ∧ f.da = linkMac l s ∧ f.tagged = false ∧ f.etype = 0x88B5 ∧ peerOk l f s = true ∧ headerBad f = false ∧
      e2eOk f = true := by
  simp only [frameGood, Bool.and_eq_true, Bool.not_eq_true', decide_eq_true_eq, beq_iff_eq, and_assoc]

/-- A frame that passes the checks is counted and goes on to its kind and epoch (R46). -/
theorem receiveFrame_good {l : AB} {f : RxFrame} {s : State} (good : frameGood l f s = true) :
    receiveFrame l f s =
      if f.kind = 2 then takeResync l f (linkCount l 0 s)
      else if f.epoch ≠ (s.link l).epoch then staleFrame l (linkCount l 0 s)
      else takeOther l f (linkCount l 0 s) := by
  obtain ⟨lock, room, whole, area, size, fcs, da, tag, etype, peer, header, crc⟩ := frameGood_iff.mp good
  have sized : ¬ (f.size < 64 ∨ 9728 < f.size ∨ f.fcsOk = false) := by simp [fcs, size]
  simp [receiveFrame, wholeArea_self area, lock, room, transit_of_noFlip _ whole, sized, da, tag, etype, peer, header, crc]

/-- The four rows of received frames receive the frame as their kind. -/
theorem exec_receive {l : AB} {f : RxFrame} {s : State} (on : s.running = true) {i : Instr}
    (row : i ∈ [Instr.dataFrameReceive l f, .ackonlyReceive l f, .resyncReceive l f, .resyncAckReceive l f]) :
    ∃ n, exec i s = .next (receiveFrame l (asKind n f) s) := by
  simp only [List.mem_cons, List.not_mem_nil, or_false] at row
  obtain rfl | rfl | rfl | rfl := row
  exacts [⟨0, linkOn_running on _⟩, ⟨1, linkOn_running on _⟩, ⟨2, linkOn_running on _⟩, ⟨3, linkOn_running on _⟩]

/-- The checks of R39 and R41 do not look at the kind. -/
theorem asKind_header (n : Nat) (f : RxFrame) :
    (asKind n f).fifoFull = f.fifoFull ∧ (asKind n f).size = f.size ∧ (asKind n f).fcsOk = f.fcsOk ∧ (asKind n f).da = f.da ∧
    (asKind n f).tagged = f.tagged ∧ (asKind n f).etype = f.etype := by
  unfold asKind
  split <;> exact ⟨rfl, rfl, rfl, rfl, rfl, rfl⟩

/-- Settles O15: the frame ends in `receiveFrame_badMac` or `receiveFrame_foreign`, which count twice and do nothing else. -/
theorem framesThatFailTheMacChecks : Obligations.FramesThatFailTheMacChecks := by
  intro l f s on lock room whole i row
  obtain ⟨n, run⟩ := exec_receive on row
  obtain ⟨room', size, fcs, da, tag, etype⟩ := asKind_header n f
  rw [← room'] at room
  rw [run, ← size, ← fcs, ← da, ← tag, ← etype]
  refine ⟨fun bad => ⟨_, rfl, ?_⟩, fun small large good foreign => ⟨_, rfl, ?_⟩⟩
  · rw [receiveFrame_badMac lock room whole bad]
    exact linkCount_linkCount_spec l (by decide) s
  · rw [receiveFrame_foreign lock room whole (by simp [good, small, large]) foreign]
    exact linkCount_linkCount_spec l (by decide) s

/-! ### Acknowledgement (R53, R55) -/

/-- The counters that a good frame with an ACK value counts in: RX_FRAMES, and RX_ACK_RANGE where the value is out of range. -/
def ackCtrs (l : AB) (ack : Nat) (s : State) : List Nat :=
  if (s.link l).replay.length < ackCount l ack s then [linkCtr l 0, linkCtr l 10] else [linkCtr l 0]

/-- The state in which the SEQ of a good frame of the present epoch is looked at: counted, heard, and its ACK used. -/
def ackedState (l : AB) (ack : Nat) (s : State) : State :=
  ((ackCtrs l ack s).foldl (fun s a => s.bump a 1) s).setLink l { afterAck l ack s with heard := true }

/-- An ACK value is used or counted (R53): `afterAck` says what becomes of the link. -/
theorem takeAck_eq (l : AB) (ack : Nat) (s : State) :
    takeAck l ack s =
      (if (s.link l).replay.length < ackCount l ack s then linkCount l 10 s else s).setLink l (afterAck l ack s) := by
  have unfolded : takeAck l ack s = if (s.link l).replay.length < ackCount l ack s then linkCount l 10 s
      else if ackCount l ack s = 0 then s
      else s.setLink l { s.link l with replay := (s.link l).replay.drop (ackCount l ack s), replayRun := 0, stalled := false } := rfl
  rw [unfolded]
  by_cases range : (s.link l).replay.length < ackCount l ack s
  · have same : afterAck l ack s = (linkCount l 10 s).link l := if_pos (.inr range)
    rw [if_pos range, if_pos range, same, setLink_link]
  · by_cases none : ackCount l ack s = 0
    · have same : afterAck l ack s = s.link l := if_pos (.inl none)
      rw [if_neg range, if_neg range, if_pos none, same, setLink_link]
    · have used : afterAck l ack s = { s.link l with
          replay := (s.link l).replay.drop (ackCount l ack s), replayRun := 0, stalled := false } := if_neg (by simp [none, range])
      rw [if_neg range, if_neg range, if_neg none, used]

/-- A link after the use of an ACK value: as it was, or with frames released. -/
theorem afterAck_cases (l : AB) (ack : Nat) (s : State) : afterAck l ack s = s.link l ∨
    afterAck l ack s = { s.link l with replay := (s.link l).replay.drop (ackCount l ack s), replayRun := 0, stalled := false } :=
  ite_eq_or_eq _ _ _

/-- Using an ACK value and marking the link as heard commute. -/
theorem afterAck_heard (l : AB) (ack : Nat) (s : State) :
    afterAck l ack (s.setLink l { s.link l with heard := true }) = { afterAck l ack s with heard := true } := by
  have count : ackCount l ack (s.setLink l { s.link l with heard := true }) = ackCount l ack s := by simp [ackCount]
  simp only [afterAck, count, State.link_setLink_same]
  split <;> rfl

/-- The ACK of a frame that has been counted and heard. -/
theorem takeAck_heard (l : AB) (ack : Nat) (s : State) :
    takeAck l ack ((linkCount l 0 s).setLink l { s.link l with heard := true }) = ackedState l ack s := by
  have count : ackCount l ack ((linkCount l 0 s).setLink l { s.link l with heard := true }) = ackCount l ack s := by
    simp [ackCount]
  have heard : afterAck l ack ((linkCount l 0 s).setLink l { s.link l with heard := true }) = { afterAck l ack s with heard := true } :=
    afterAck_heard l ack (linkCount l 0 s)
  rw [takeAck_eq, heard, count, State.link_setLink_same, linkCount_setLink]
  unfold ackedState ackCtrs
  split
  all_goals
    rw [setLink_setLink]
    rfl

/-- A DATA frame of the present epoch while no RESYNC_ACK is awaited: its ACK is used before its SEQ (R75). -/
theorem takeOther_data {l : AB} {f : RxFrame} {s : State} (data : f.kind = 0) (waits : (s.link l).waiting = false) :
    takeOther l f (linkCount l 0 s) = takeData l f.seq f.area f.slow (ackedState l f.ack s) := by
  have step : takeOther l f (linkCount l 0 s) = takeData l f.seq f.area f.slow
      (takeAck l f.ack ((linkCount l 0 s).setLink l { s.link l with heard := true })) :=
    (if_neg (by simp [data])).trans ((if_neg (by simp [waits])).trans (if_neg (by simp [data])))
  rw [step, takeAck_heard]

/-- DATA_FRAME_RECEIVE with a good DATA frame of the present epoch comes down to its SEQ. -/
theorem exec_dataFrameReceive_good {l : AB} {f : RxFrame} {s : State} (on : s.running = true) (good : frameGood l f s = true)
    (data : f.kind = 0) (epoch : f.epoch = (s.link l).epoch) (waits : (s.link l).waiting = false) :
    exec (.dataFrameReceive l f) s = .next (takeData l f.seq f.area f.slow (ackedState l f.ack s)) := by
  have run : exec (.dataFrameReceive l f) s = .next (receiveFrame l (asKind 0 f) s) := linkOn_running on _
  rw [run, asKind_self data, receiveFrame_good good, if_neg (by simp [data]), if_neg (by simp [epoch]), takeOther_data data waits]

/-! ### What the use of the ACK leaves alone -/

/-- Adding to registers touches the registers listed. -/
theorem foldl_bump_keeps (cs : List Nat) (s : State) :
    keeps [.regs] s (cs.foldl (fun s a => s.bump a 1) s) ∧ keepsRegs cs s (cs.foldl (fun s a => s.bump a 1) s) := by
  induction cs generalizing s with
  | nil => exact ⟨keeps_refl _ _, keepsRegs_refl _ _⟩
  | cons c cs ih =>
    obtain ⟨parts, regs⟩ := ih (s.bump c 1)
    exact ⟨keeps_mono (keeps_trans (wr_keeps c _ s) parts) (by decide), keepsRegs_trans (wr_keepsRegs c _ s) regs⟩

theorem mem_ackCtrs {l : AB} {ack a : Nat} {s : State} (h : a ∈ ackCtrs l ack s) : a = linkCtr l 0 ∨ a = linkCtr l 10 := by
  unfold ackCtrs at h
  split at h
  · simpa using h
  · exact .inl (by simpa using h)

@[simp] theorem ackedState_link (l : AB) (ack : Nat) (s : State) :
    (ackedState l ack s).link l = { afterAck l ack s with heard := true } := State.link_setLink_same _ _ _

/-- The fields of the link that the use of an ACK value does not reach. -/
theorem ackedState_link_keeps (l : AB) (ack : Nat) (s : State) :
    ((ackedState l ack s).link l).expSeq = (s.link l).expSeq ∧ ((ackedState l ack s).link l).nak = (s.link l).nak ∧
    ((ackedState l ack s).link l).macOld = (s.link l).macOld ∧ ((ackedState l ack s).link l).nextSeq = (s.link l).nextSeq ∧
    ((ackedState l ack s).link l).epoch = (s.link l).epoch ∧ ((ackedState l ack s).link l).peer = (s.link l).peer := by
  rw [ackedState_link]
  obtain same | used := afterAck_cases l ack s
  · rw [same]
    exact ⟨rfl, rfl, rfl, rfl, rfl, rfl⟩
  · rw [used]
    exact ⟨rfl, rfl, rfl, rfl, rfl, rfl⟩

theorem ackedState_keeps (l : AB) (ack : Nat) (s : State) : keeps [.regs, .links] s (ackedState l ack s) :=
  keeps_trans (foldl_bump_keeps _ s).1 (setLink_keeps l _ _)

theorem ackedState_keepsRegs (l : AB) (ack : Nat) (s : State) : keepsRegs (ackCtrs l ack s) s (ackedState l ack s) :=
  keepsRegs_setLink (foldl_bump_keeps (ackCtrs l ack s) s).2 l _

theorem ackedState_rd {l : AB} {i : Nat} (h0 : i ≠ 0) (h10 : i ≠ 10) (ack : Nat) (s : State) :
    (ackedState l ack s).rd (linkCtr l i) = s.rd (linkCtr l i) :=
  ackedState_keepsRegs l ack s _ fun m => (mem_ackCtrs m).elim (by simpa using h0) (by simpa using h10)

@[simp] theorem ackedState_out (l : AB) (ack : Nat) (s : State) : (ackedState l ack s).out = s.out :=
  ackedState_keeps l ack s .out (by decide)

@[simp] theorem ackedState_clock (l : AB) (ack : Nat) (s : State) : (ackedState l ack s).clock = s.clock :=
  ackedState_keeps l ack s .clock (by decide)

theorem ackCtrs_linkCtr (l : AB) (ack : Nat) (s : State) : ∀ a ∈ ackCtrs l ack s, ∃ i, a = linkCtr l i :=
  fun _ m => (mem_ackCtrs m).elim (fun e => ⟨0, e⟩) (fun e => ⟨10, e⟩)

@[simp] theorem ackedState_noFlip (l : AB) (ack : Nat) (s : State) : noFlip (ackedState l ack s) = noFlip s :=
  noFlip_of_keepsRegs (ackedState_keepsRegs l ack s) (ackCtrs_linkCtr l ack s)

/-! ### The sequence number of a DATA frame (R52) -/

/-- A NAK for the expected value of link `l` left within the last 20 µs (R52). -/
def nakRecent (l : AB) (s : State) : Bool :=
  match (s.link l).nak with
  | some (e, c) => e == (s.link l).expSeq && decide (s.clock < c + 20)
  | none => false

theorem nakRecent_of_some {l : AB} {s : State} {c : Nat} (h : (s.link l).nak = some ((s.link l).expSeq, c)) (hc : s.clock < c + 20) :
    nakRecent l s = true := by
  simp [nakRecent, h, hc]

theorem nakRecent_eq_false {l : AB} {s : State}
    (h : ∀ x, (s.link l).nak = some x → x.1 = (s.link l).expSeq → x.2 + 20 ≤ s.clock) : nakRecent l s = false := by
  unfold nakRecent
  cases e : (s.link l).nak with
  | none => rfl
  | some x =>
    simp only [Bool.and_eq_false_imp, beq_iff_eq, decide_eq_false_iff_not]
    exact fun same => Nat.not_lt.mpr (h x e same)

/-- The use of an ACK changes nothing that decides whether a NAK is sent. -/
@[simp] theorem nakRecent_ackedState (l : AB) (ack : Nat) (s : State) : nakRecent l (ackedState l ack s) = nakRecent l s := by
  obtain ⟨exp, nak, -⟩ := ackedState_link_keeps l ack s
  simp only [nakRecent, ackedState_clock, exp, nak]

/-- The state in which the NAK of a gap leaves: the gap is counted, and the link knows the NAK (R52). -/
def nakNoted (l : AB) (s : State) : State :=
  (linkCount l 9 s).setLink l { s.link l with nak := some ((s.link l).expSeq, s.clock) }

@[simp] theorem nakNoted_link (l : AB) (s : State) :
    (nakNoted l s).link l = { s.link l with nak := some ((s.link l).expSeq, s.clock) } := State.link_setLink_same _ _ _

@[simp] theorem nakNoted_out (l : AB) (s : State) : (nakNoted l s).out = s.out := rfl

@[simp] theorem nakNoted_noFlip (l : AB) (s : State) : noFlip (nakNoted l s) = noFlip s := noFlip_linkCount l 9 s

theorem nakNoted_keepsRegs (l : AB) (s : State) : keepsRegs [linkCtr l 9] s (nakNoted l s) :=
  keepsRegs_setLink (linkCount_keepsRegs l 9 s) l _

section
variable {l : AB} {seq : Nat} (area : List Byte) (slow : List (Nat × Nat)) {s : State}

/-- The expected frame is delivered. -/
theorem takeData_expected (h : seq = (s.link l).expSeq) :
    takeData l seq area slow s =
      runRecords l slow area.length 0 false area (s.setLink l { s.link l with expSeq := (seq + 1) % 65536, ackOwed := true }) :=
  if_pos h

/-- A duplicate is counted and acknowledged again. -/
theorem takeData_duplicate (h : seq ≠ (s.link l).expSeq) (before : precedes 16 seq (s.link l).expSeq = true) :
    takeData l seq area slow s = linkCount l 8 (s.setLink l { s.link l with ackOwed := true }) :=
  (if_neg h).trans (if_pos before)

/-- A gap is counted, and a NAK leaves where none left of late. -/
theorem takeData_gap (h : seq ≠ (s.link l).expSeq) (after : precedes 16 seq (s.link l).expSeq = false) :
    takeData l seq area slow s =
      if nakRecent l s then linkCount l 9 s else sendAckonly l true (nakNoted l s) :=
  (if_neg h).trans (if_neg (by simp [after]))

end

/-! ### ACKONLY frames (R52, R54) -/

section
variable (l : AB) (kind flags seq ack : Nat) (recs : List Rec) (s : State)

@[simp] theorem frameOut_kind : (frameOut l kind flags seq ack recs s).kind = kind := rfl
@[simp] theorem frameOut_flags : (frameOut l kind flags seq ack recs s).flags = flags := rfl
@[simp] theorem frameOut_seq : (frameOut l kind flags seq ack recs s).seq = seq := rfl
@[simp] theorem frameOut_ack : (frameOut l kind flags seq ack recs s).ack = ack := rfl
@[simp] theorem frameOut_recs : (frameOut l kind flags seq ack recs s).recs = recs := rfl
@[simp] theorem frameOut_epoch : (frameOut l kind flags seq ack recs s).epoch = (s.link l).epoch := rfl
@[simp] theorem frameOut_da : (frameOut l kind flags seq ack recs s).da = (s.link l).peer.getD (2 ^ 48 - 1) := rfl
@[simp] theorem frameOut_sa : (frameOut l kind flags seq ack recs s).sa = sourceMac l s := rfl

end

/-- An ACKONLY frame leaves with the link's present values. -/
theorem sendAckonly_eq (l : AB) (nak : Bool) {s : State} (whole : noFlip s = true) :
    sendAckonly l nak s = linkCount l 1 ((s.setLink l { s.link l with ackOwed := false }).emit
      (.frame l (frameOut l 1 (b2n nak) (s.link l).nextSeq (ackNow (s.link l)) [] s) false)) := by
  have same : noFlip (s.setLink l { s.link l with ackOwed := false }) = true := whole
  simp only [sendAckonly, emitFrame, transit_of_noFlip _ same]

theorem emit_keeps (o : Output) (s : State) : keeps [.out] s (s.emit o) := by
  intro p h
  cases p with
  | out => exact absurd (by decide) h
  | _ => rfl

/-- An ACKONLY frame that leaves: the link owes no ACK, and TX_FRAMES counts. -/
theorem sendAckonly_spec (l : AB) (nak : Bool) {s : State} (whole : noFlip s = true) :
    (sendAckonly l nak s).link l = { s.link l with ackOwed := false } ∧
    (sendAckonly l nak s).out = .frame l (frameOut l 1 (b2n nak) (s.link l).nextSeq (ackNow (s.link l)) [] s) false :: s.out ∧
    keepsRegs [linkCtr l 1] s (sendAckonly l nak s) ∧ keeps [.regs, .links, .out] s (sendAckonly l nak s) := by
  rw [sendAckonly_eq l nak whole]
  exact ⟨State.link_setLink_same s l _, rfl, linkCount_keepsRegs l 1 _,
    keeps_mono (keeps_trans (keeps_trans (setLink_keeps l _ s) (emit_keeps _ _)) (linkCount_keeps l 1 _)) (by decide)⟩

/-! ### Gaps (R52) -/

section
variable {l : AB} {s : State}

/-- What a gap and its NAK, sent or not, do not reach. -/
theorem gap_keeps (whole : noFlip s = true) :
    let t := if nakRecent l s then linkCount l 9 s else sendAckonly l true (nakNoted l s)
    keepsRegs [linkCtr l 1, linkCtr l 9] s t ∧ keeps [.regs, .links, .out] s t ∧ t.rd (linkCtr l 9) = s.rd (linkCtr l 9) + 1 ∧
      (t.link l).expSeq = (s.link l).expSeq ∧ (t.link l).replay = (s.link l).replay := by
  obtain ⟨link, -, regs, parts⟩ := sendAckonly_spec l true (s := nakNoted l s) ((nakNoted_noFlip l s).trans whole)
  intro t
  by_cases recent : nakRecent l s = true
  · have e : t = linkCount l 9 s := if_pos recent
    rw [e]
    exact ⟨keepsRegs_mono (linkCount_keepsRegs l 9 s) (by simp), keeps_mono (linkCount_keeps l 9 s) (by decide),
      linkCount_rd_same l 9 s, by rw [linkCount_link], by rw [linkCount_link]⟩
  · have e : t = sendAckonly l true (nakNoted l s) := if_neg recent
    rw [e, link, regs _ (by simp)]
    exact ⟨keepsRegs_mono (keepsRegs_trans (nakNoted_keepsRegs l s) regs) (by simp),
      keeps_mono (keeps_trans (keeps_trans (linkCount_keeps l 9 s) (setLink_keeps l _ _)) parts) (by decide),
      linkCount_rd_same l 9 s, by rw [nakNoted_link], by rw [nakNoted_link]⟩

/-- The NAK of a gap: an ACKONLY frame with the values of the link. -/
theorem gap_nak (whole : noFlip s = true) :
    ((sendAckonly l true (nakNoted l s)).link l).nak = some ((s.link l).expSeq, s.clock) ∧
    (sendAckonly l true (nakNoted l s)).out =
      .frame l (frameOut l 1 1 (s.link l).nextSeq (ackNow (s.link l)) [] (nakNoted l s)) false :: s.out := by
  obtain ⟨link, out, -, -⟩ := sendAckonly_spec l true (s := nakNoted l s) ((nakNoted_noFlip l s).trans whole)
  rw [link, out, nakNoted_link, nakNoted_out]
  exact ⟨rfl, rfl⟩

end

/-! ### DATA frames of the present epoch -/

/-- A duplicate, after its ACK has been used. -/
theorem duplicate_spec (l : AB) (ack : Nat) (s : State) :
    let t := linkCount l 8 ((ackedState l ack s).setLink l { (ackedState l ack s).link l with ackOwed := true })
    t.link l = { (ackedState l ack s).link l with ackOwed := true } ∧ t.rd (linkCtr l 8) = s.rd (linkCtr l 8) + 1 ∧
      keepsRegs (linkCtr l 8 :: ackCtrs l ack s) s t ∧ keeps [.regs, .links] s t := by
  intro t
  refine ⟨?_, ?_, ?_, ?_⟩
  · rw [linkCount_link, State.link_setLink_same]
  · rw [linkCount_rd_same, setLink_rd, ackedState_rd (by decide) (by decide)]
  · exact keepsRegs_trans_swap (keepsRegs_setLink (ackedState_keepsRegs l ack s) l _) (linkCount_keepsRegs l 8 _)
  · exact keeps_mono (keeps_trans (ackedState_keeps l ack s)
      (keeps_trans (setLink_keeps l _ _) (linkCount_keeps l 8 _))) (by decide)

/-- The frame that carries the NAK of a gap is the link's present one: what the ACK of the gap changed does not show in it. -/
theorem nakFrame_spec (l : AB) (ack : Nat) (s : State) :
    ∃ x, frameOut l 1 1 ((ackedState l ack s).link l).nextSeq (ackNow ((ackedState l ack s).link l)) []
        (nakNoted l (ackedState l ack s)) = x ∧
      x.kind = 1 ∧ x.flags = 1 ∧ x.seq = (s.link l).nextSeq ∧ x.ack = ackNow (s.link l) ∧ x.recs = [] ∧
      x.epoch = (s.link l).epoch ∧ x.da = (s.link l).peer.getD (2 ^ 48 - 1) ∧ x.sa = sourceMac l s := by
  obtain ⟨exp, -, macOld, next, epoch, peer⟩ := ackedState_link_keeps l ack s
  have source : sourceMac l (nakNoted l (ackedState l ack s)) = sourceMac l s :=
    (sourceMac_of_keepsRegs (nakNoted_keepsRegs l _) (linkCtr_of_mem_singleton l 9) (by rw [nakNoted_link])).trans
      (sourceMac_of_keepsRegs (ackedState_keepsRegs l ack s) (ackCtrs_linkCtr l ack s) macOld)
  refine ⟨_, rfl, ?_⟩
  simp only [frameOut_kind, frameOut_flags, frameOut_seq, frameOut_ack, frameOut_recs, frameOut_epoch, frameOut_da, frameOut_sa, source,
    nakNoted_link, ackNow, exp, next, epoch, peer, and_self]

/-- Settles O16: the ACK is used first (`exec_dataFrameReceive_good`), then the SEQ decides between the three outcomes of `takeData`. -/
theorem dataFramesAreDeliveredInOrder : Obligations.DataFramesAreDeliveredInOrder := by
  intro l f s on good data epoch waits k ctrs
  have run := exec_dataFrameReceive_good on good data epoch waits
  have link : (ackedState l f.ack s).link l = k := ackedState_link l f.ack s
  obtain ⟨expected, -⟩ := ackedState_link_keeps l f.ack s
  refine ⟨fun seq => ?_, fun seq before => ⟨_, run, ?_⟩, fun seq after => ⟨_, run, ?_⟩⟩
  · rw [run, takeData_expected _ _ (seq.trans expected.symm), link]
    exact congrArg (fun u => Host.Outcome.next (runRecords l f.slow f.area.length 0 false f.area u)) (setLink_setLink l _ _ _)
  · rw [takeData_duplicate _ _ (by rwa [expected]) (by rwa [expected]), ← link]
    exact duplicate_spec l f.ack s
  · rw [takeData_gap _ _ (by rwa [expected]) (by rwa [expected])]
    obtain ⟨-, -, whole, -⟩ := frameGood_iff.mp good
    rw [← ackedState_noFlip l f.ack] at whole
    obtain ⟨regs, parts, counted, keptExp, keptReplay⟩ := gap_keeps whole
    refine ⟨keepsRegs_trans_swap (ackedState_keepsRegs l f.ack s) regs,
      keeps_mono (keeps_trans (ackedState_keeps l f.ack s) parts) (by decide), keptExp.trans expected, keptReplay.trans (by rw [link]),
      counted.trans (by rw [ackedState_rd (by decide) (by decide)]), fun c last young => ?_, fun old => ?_⟩
    · rw [nakRecent_ackedState, if_pos (nakRecent_of_some last young)]
      exact ⟨by rw [linkCount_link, link], by rw [linkCount_out, ackedState_out]⟩
    · rw [nakRecent_ackedState, if_neg (by simp [nakRecent_eq_false old])]
      obtain ⟨sent, out⟩ := gap_nak whole
      obtain ⟨x, frame, fields⟩ := nakFrame_spec l f.ack s
      exact ⟨by rw [sent, expected, ackedState_clock], x, by rw [out, frame, ackedState_out], fields⟩

end Sys2Proof.Machine

/-!
PROOFS. Mailboxes (R94 to R96, R121 to R123): what a refusal with RANGE and a read of one word come to, what an access of a protected
memory does while no word of it is in error, and the channels' three operations.
-/

namespace Sys2Proof.Machine

/-! ### Frames of single updates -/

theorem ended_keeps (st : Status) (d : Word) (c : Cause) (s : State) : keeps [.last] s (ended st d c s) := by
  intro p h
  cases p with
  | last => exact absurd (by decide) h
  | _ => rfl

theorem setBox_keeps (i : Nat) (b : Mbx) (s : State) : keeps [.mbx] s (s.setBox i b) := by
  intro p h
  cases p with
  | mbx => exact absurd (by decide) h
  | _ => rfl

theorem box_setBox_other {i j : Nat} (h : j ≠ i) (b : Mbx) (s : State) : (s.setBox i b).box j = s.box j :=
  tblGet_tblSet_other _ _ _ h _

/-- A channel that is kept, as an equation of its status. -/
theorem box_of_keeps {l : List Part} {s t : State} (kept : keeps l s t) (h : Part.mbx ∉ l) (i : Nat) : t.box i = s.box i := by
  have same : t.mbx = s.mbx := kept .mbx h
  simp only [State.box, same]

/-! ### Single-word accesses without a presence token (R94 to R96) -/

/-- An accepted write of a register that asks for no presence token. -/
theorem writeReg_ungated {m : AB} {p off : Nat} {h : Handler} {v : Word} {s : State} (ok : admits m p off h v s = true)
    (ungated : touches .rwp (fieldsAt p off) v = false) : writeReg m p off h v s = ended .ok 0 .none (h.run m v s) := by
  rw [writeReg_admits _ _ _ _ _ _ ok, ungated, if_neg Bool.false_ne_true]

/-- A write that reaches the range check and fails it is refused with RANGE. -/
theorem writeReg_outOfRange {m : AB} {p off : Nat} {h : Handler} {v : Word} {s : State} (reach : reachesRange m p off h v s = true)
    (out : (fieldsOutOfRange (fieldsAt p off) v || h.range m v s) = true) :
    writeReg m p off h v s = refuseWrite m .range .none none ⟨0x02, 0, regAddr p off, 0⟩ (h.onRange s) := by
  simp only [reachesRange, Bool.and_eq_true, Bool.not_eq_true', Option.isNone_iff_eq_none] at reach
  obtain ⟨⟨⟨⟨⟨⟨thawed, mine⟩, own⟩, present⟩, sem⟩, locked⟩, free⟩ := reach
  simp only [writeReg, runWrite, thawed, mine, own, present, sem, locked, free, out, Bool.false_eq_true, if_false, if_true]

/-- A refusal with RANGE counts once, records the address, and does nothing else. -/
theorem refuseWrite_range (m : AB) {p off : Nat} (type tag slice : Nat) (low : regAddr p off < 2 ^ 32) (s : State) :
    refusedRange m p off s (refuseWrite m .range .none none ⟨type, tag, regAddr p off, slice⟩ s) := by
  have apart : accBase m ≠ accBase m + 8 ∧ accBase m ≠ accBase m + 12 ∧ accBase m + 8 ≠ accBase m + 12 := by omega
  obtain ⟨h8, h12, h812⟩ := apart
  have high : regAddr p off / 2 ^ 32 % 256 + Status.range.code * 256 + Cause.none.code * 2 ^ 12 = 0x100 := by
    rw [Nat.div_eq_of_lt low]
    rfl
  have run : refuseWrite m .range .none none ⟨type, tag, regAddr p off, slice⟩ s =
      ended .range 0 .none (((s.bump (accBase m) 1).wr (accBase m + 8) (word 0x100)).wr (accBase m + 12) (word (regAddr p off))) := by
    rw [← high]
    rfl
  rw [run]
  refine ⟨rfl, ?_, ?_, State.rd_wr_same _ _ _, ?_, ?_⟩
  · exact (State.rd_wr_other _ h12 _).trans ((State.rd_wr_other _ h8 _).trans (State.rd_wr_same _ _ _))
  · exact (State.rd_wr_other _ h812 _).trans (State.rd_wr_same _ _ _)
  · exact keepsRegs_trans (keepsRegs_trans (wr_keepsRegs (accBase m) _ s) (wr_keepsRegs _ _ _)) (wr_keepsRegs _ _ _)
  · exact keeps_mono (keeps_trans (keeps_trans (keeps_trans (wr_keeps _ _ s) (wr_keeps _ _ _)) (wr_keeps _ _ _)) (ended_keeps _ _ _ _))
      (by decide)

/-- A read that passes its checks answers the value of a word that is whole, and has its effect. -/
theorem runReadAt_readable {m : AB} {p off : Nat} {pre : State → State × Bool} (v : State → Word) (eff : State → State) {s : State}
    (ok : readable m p off s = true) (whole : pre s = (s, false)) :
    runReadAt m none p off pre v eff s = ended .ok (v s) .none (eff s) := by
  simp only [readable, Bool.and_eq_true, Bool.not_eq_true', Option.isNone_iff_eq_none] at ok
  obtain ⟨⟨thawed, mine⟩, free⟩ := ok
  simp only [runReadAt, thawed, mine, free, whole, Bool.false_eq_true, if_false]

/-! ### Protected memory without errors (R491, R492) -/

/-- What clean memory is, part by part. -/
theorem memClean_iff {s : State} : memClean s = true ↔ s.ecc.upsets = [] ∧ s.ecc.poison = [] ∧ noFlip s = true := by
  simp only [memClean, Bool.and_eq_true, List.isEmpty_iff, and_assoc]

/-- A read of clean memory finds nothing. -/
theorem readLoc_of_memClean (l : MemLoc) (slice : Nat) {s : State} (clean : memClean s = true) : readLoc l slice s = (s, false) := by
  obtain ⟨upsets, poison, -⟩ := memClean_iff.mp clean
  simp [readLoc, upsets, poison]

/-- A write of a code word of clean memory leaves no mark. -/
theorem wroteWord_of_memClean (l : MemLoc) (slice : Nat) {s : State} (clean : memClean s = true) : wroteWord l slice s = s := by
  obtain ⟨upsets, poison, whole⟩ := memClean_iff.mp clean
  have same : { s with ecc := { s.ecc with
      poison := s.ecc.poison.filter (fun x => x != l),
      upsets := s.ecc.upsets.filter (fun u => !(u.loc == l && u.slice == slice)) } } = s := by
    have ecc : s.ecc = { s.ecc with poison := [], upsets := [] } := by rw [← upsets, ← poison]
    rw [upsets, poison, List.filter_nil, List.filter_nil, ← ecc]
  have disarmed : bit (s.rp pEcc 0x120) 16 = false := by simpa [noFlip] using whole
  simp only [wroteWord, same, disarmed, Bool.false_and, Bool.false_eq_true, if_false]

/-- A write of part of a code word of clean memory leaves no mark. -/
theorem wrotePart_of_memClean (l : MemLoc) (slice sib : Nat) {s : State} (clean : memClean s = true) : wrotePart l slice sib s = s := by
  obtain ⟨-, poison, -⟩ := memClean_iff.mp clean
  simp [wrotePart, poison, wroteWord_of_memClean l slice clean]

/-- A write of a register of another page keeps memory clean. -/
theorem memClean_wr {a : Nat} (h : a ≠ regAddr pEcc 0x120) (v : Word) (s : State) : memClean (s.wr a v) = memClean s := by
  have flip : (s.wr a v).rp pEcc 0x120 = s.rp pEcc 0x120 := State.rd_wr_other s h.symm v
  simp only [memClean, noFlip, flip, State.wr_ecc]

/-! ### The mailbox pages (Table 4-5) -/

section
variable {i k : Nat}

/-- The six mailbox pages of Table 3-3. -/
theorem pageInfo_pMbx (hi : i < 6) : pageInfo (pMbx i) = some ⟨.mbx, i, 0⟩ := by
  have table : ∀ i < 6, pageInfo (pMbx i) = some ⟨.mbx, i, 0⟩ := by decide
  exact table i hi

/-- MBX_DATA is one plain field. -/
theorem fieldsAt_mbxData (hi : i < 6) (hk : k < 16) : fieldsAt (pMbx i) (0x140 + 4 * k) = [fRW 0 32 0] := by
  have table : ∀ k < 16, findReg (0x140 + 4 * k) regsMbx = some (regN 0x140 16 4 [fRW 0 32 0]) := by decide
  simp only [fieldsAt, pageInfo_pMbx hi, blkRegs, table k hk, regN]

/-- MBX_DOORBELL is LEN, from 1 to 16. -/
theorem fieldsAt_mbxDoorbell (hi : i < 6) : fieldsAt (pMbx i) 0x104 = [fWO 0 5 (.rng 1 16)] := by
  have table : findReg 0x104 regsMbx = some (reg1 0x104 [fWO 0 5 (.rng 1 16)]) := by decide
  simp only [fieldsAt, pageInfo_pMbx hi, blkRegs, table, reg1]

/-- The mailbox pages lie above the ECC page. -/
theorem regAddr_pMbx_ne_ecc (i off : Nat) : regAddr (pMbx i) off ≠ regAddr pEcc 0x120 := by
  simp only [regAddr, pMbx, pEcc]
  omega

theorem regAddr_pMbx_lt {off : Nat} (hi : i < 6) (h : off < 0x1000) : regAddr (pMbx i) off < 2 ^ 32 := by
  simp only [regAddr, pMbx]
  omega

/-- A whole word stored in a register of one plain field. -/
theorem mergeFields_word (n : Nat) (old v : Word) : mergeFields [fRW 0 32 n] old v = v := by
  have mask : fieldMask 0 32 = BitVec.allOnes 32 := by decide
  have all : BitVec.ofNat 32 (bits v 0 32) = v := by simp [bits]
  simp [mergeFields, fRW, setBits, mask, all]

/-- The doorbell's LEN. -/
theorem bits_word_len {n : Nat} (h : n < 32) : bits (word n) 0 5 = n := by
  simp only [bits, word, BitVec.extractLsb'_toNat, BitVec.toNat_ofNat, Nat.shiftRight_zero]
  omega

/-! ### What the three operations of a channel come to -/

variable {m : AB} {s : State}

theorem mbxDataHandler_run (hi : i < 6) (hk : k < 16) (clean : memClean s = true) (v : Word) :
    (mbxDataHandler i k).run m v s = s.wp (pMbx i) (0x140 + 4 * k) v := by
  have stored : storeReg (pMbx i) (0x140 + 4 * k) v s = s.wp (pMbx i) (0x140 + 4 * k) v := by
    have volatile : hasNvs [fRW 0 32 0] = false := rfl
    simp only [storeReg, storeFields, fieldsAt_mbxData hi hk, mergeFields_word, volatile, Bool.false_eq_true, if_false]
  have still : memClean (s.wp (pMbx i) (0x140 + 4 * k) v) = true := (memClean_wr (regAddr_pMbx_ne_ecc i _) v s).trans clean
  simp only [mbxDataHandler, stored, wrotePart_of_memClean _ _ _ still]

/-- The three commands of a channel are single-word accesses. -/
theorem exec_mbxDataWrite (on : s.running = true) (hi : i < 6) (hk : k < 16) (v : Word) :
    exec (.mbxDataWrite m i k v) s = .next (writeReg m (pMbx i) (0x140 + 4 * k) (mbxDataHandler i k) v s) := by
  have row : exec (.mbxDataWrite m i k v) s = execMbxDataWrite m i k v s := rfl
  simp only [row, execMbxDataWrite, whenOn_running on, Nat.mod_eq_of_lt hi, Nat.mod_eq_of_lt hk]

theorem exec_mbxDoorbell {n : Nat} (on : s.running = true) (hi : i < 6) (hn : n < 32) :
    exec (.mbxDoorbell m i n) s = .next (writeReg m (pMbx i) 0x104 (mbxDoorbellHandler i) (word n) s) := by
  have row : exec (.mbxDoorbell m i n) s = execMbxDoorbell m i n s := rfl
  simp only [row, execMbxDoorbell, whenOn_running on, Nat.mod_eq_of_lt hi, Nat.mod_eq_of_lt hn]

theorem exec_mbxTake (on : s.running = true) (hi : i < 6) :
    exec (.mbxTake m i) s = .next (mbxDataRead m i ((s.box i).len - 1) none s) := by
  have row : exec (.mbxTake m i) s = execMbxTake m i s := rfl
  simp only [row, execMbxTake, whenOn_running on, Nat.mod_eq_of_lt hi]

/-- An accepted data word is stored. -/
theorem writeReg_mbxData (hi : i < 6) (hk : k < 16) (clean : memClean s = true) {v : Word}
    (ok : admits m (pMbx i) (0x140 + 4 * k) (mbxDataHandler i k) v s = true) :
    writeReg m (pMbx i) (0x140 + 4 * k) (mbxDataHandler i k) v s = ended .ok 0 .none (s.wp (pMbx i) (0x140 + 4 * k) v) := by
  have ungated : touches .rwp (fieldsAt (pMbx i) (0x140 + 4 * k)) v = false := by
    rw [fieldsAt_mbxData hi hk]
    rfl
  rw [writeReg_ungated ok ungated, mbxDataHandler_run hi hk clean]

/-- An accepted doorbell sends the message. -/
theorem writeReg_mbxDoorbell {n : Nat} (hi : i < 6) (hn : n < 32)
    (ok : admits m (pMbx i) 0x104 (mbxDoorbellHandler i) (word n) s = true) :
    writeReg m (pMbx i) 0x104 (mbxDoorbellHandler i) (word n) s = ended .ok 0 .none (mbxSend i n s) := by
  have ungated : touches .rwp (fieldsAt (pMbx i) 0x104) (word n) = false := by
    rw [fieldsAt_mbxDoorbell hi]
    rfl
  rw [writeReg_ungated ok ungated]
  simp only [mbxDoorbellHandler, bits_word_len hn]

/-- A data word is out of range while the channel is FULL (R122). -/
theorem mbxData_outOfRange (full : (s.box i).full = true) (v : Word) :
    (fieldsOutOfRange (fieldsAt (pMbx i) (0x140 + 4 * k)) v || (mbxDataHandler i k).range m v s) = true := by
  rw [Bool.or_eq_true]
  exact .inr full

/-- A doorbell is out of range while the channel is FULL, and with LEN 0 (R122). -/
theorem mbxDoorbell_outOfRange {n : Nat} (hi : i < 6) (h : (s.box i).full = true ∨ n = 0) :
    (fieldsOutOfRange (fieldsAt (pMbx i) 0x104) (word n) || (mbxDoorbellHandler i).range m (word n) s) = true := by
  rw [Bool.or_eq_true]
  obtain full | rfl := h
  · exact .inr full
  · refine .inl ?_
    rw [fieldsAt_mbxDoorbell hi]
    decide

/-- The receiver's read of the last word takes the message (R123). -/
theorem mbxDataRead_last (receiver : mbxReceiver i = some m) (full : (s.box i).full = true) (long : 1 ≤ (s.box i).len)
    (clean : memClean s = true) (ok : readable m (pMbx i) (0x140 + 4 * ((s.box i).len - 1)) s = true) :
    mbxDataRead m i ((s.box i).len - 1) none s =
      ended .ok (s.rp (pMbx i) (0x140 + 4 * ((s.box i).len - 1))) .none (mbxTaken i s) := by
  have last : (s.box i).len - 1 + 1 = (s.box i).len := Nat.sub_add_cancel long
  have taken : mbxReadEffect m i ((s.box i).len - 1) s = mbxTaken i s := by simp [mbxReadEffect, full, last, receiver]
  rw [mbxDataRead, runReadAt_readable _ _ ok (readLoc_of_memClean _ _ clean), taken]

end

/-- A channel's status replaced and an interrupt raised, by an access that ends: nothing else is reached but the EVENT records. -/
theorem setBox_raise_spec (i p : Nat) {b : Nat} (hb : b < 32) (x : Mbx) (d : Word) (s : State) :
    let t := ended .ok d .none (raise p b (s.setBox i x))
    t.box i = x ∧ (∀ j, j ≠ i → t.box j = s.box j) ∧ intRawBit t p b = true ∧ keepsRegs [] s t ∧ keepsHdrs [p] s t ∧
      keeps [.mbx, .last, .hdrs, .links] s t := by
  have raised : keeps [.hdrs, .links, .last] (s.setBox i x) (ended .ok d .none (raise p b (s.setBox i x))) :=
    keeps_trans (raise_keeps p b _) (ended_keeps _ _ _ _)
  have parts := keeps_trans (setBox_keeps i x s) raised
  refine ⟨?_, fun j h => ?_, raise_intRaw p b _ hb, keepsRegs_of_keeps parts (by decide), ?_, keeps_mono parts (by decide)⟩
  · rw [box_of_keeps raised (by decide), State.box_setBox_same]
  · rw [box_of_keeps raised (by decide), box_setBox_other h]
  · exact raise_keepsHdrs p b (s.setBox i x)

/-- Settles O34: each command is one single-word access (`exec_mbxDataWrite`, `exec_mbxDoorbell`, `exec_mbxTake`), which is accepted or
refused with RANGE. -/
theorem mailboxesCarryMessages : Obligations.MailboxesCarryMessages := by
  intro m i s on hi clean
  refine ⟨fun k v hk ok => ⟨_, exec_mbxDataWrite on hi hk v, ?_⟩, fun n hn ok => ⟨_, exec_mbxDoorbell on hi hn, ?_⟩,
    fun k v hk full reach => ⟨_, exec_mbxDataWrite on hi hk v, ?_⟩, fun n hn turned reach => ⟨_, exec_mbxDoorbell on hi hn, ?_⟩,
    fun receiver full long _ ok => ⟨_, exec_mbxTake on hi, ?_⟩⟩
  · rw [writeReg_mbxData hi hk clean ok]
    exact ⟨rfl, State.rd_wr_same _ _ _, wr_keepsRegs _ v s, keeps_trans (wr_keeps _ v s) (ended_keeps _ _ _ _)⟩
  · rw [writeReg_mbxDoorbell hi hn ok]
    exact ⟨rfl, setBox_raise_spec i (pMbx i) (by decide) _ 0 s⟩
  · rw [writeReg_outOfRange reach (mbxData_outOfRange full v)]
    exact refuseWrite_range m _ _ _ (regAddr_pMbx_lt hi (by omega)) s
  · rw [writeReg_outOfRange reach (mbxDoorbell_outOfRange hi turned)]
    exact refuseWrite_range m _ _ _ (regAddr_pMbx_lt hi (by decide)) s
  · rw [mbxDataRead_last receiver full long clean ok]
    exact ⟨rfl, setBox_raise_spec i (pMbx (peerPage i)) (by decide) _ _ s⟩

end Sys2Proof.Machine

/-!
PROOFS. Allocation of slices (R146 to R148, Table 5-5): what a stored register leaves alone, what the assignments of units settle after an
allocation register has changed, and the three commands.
-/

namespace Sys2Proof.Machine

/-! ### Frames of single updates -/

theorem setSeq_keeps (n : Nat) (q : Seq) (s : State) : keeps [.seqs] s (s.setSeq n q) := by
  intro p h
  cases p with
  | seqs => exact absurd (by decide) h
  | _ => rfl

theorem setChan_keeps (n : Nat) (x : Chk) (s : State) : keeps [.chk] s (s.setChan n x) := by
  intro p h
  cases p with
  | chk => exact absurd (by decide) h
  | _ => rfl

theorem setPort_keeps (n : Nat) (x : MacPort) (s : State) : keeps [.mac] s (s.setPort n x) := by
  intro p h
  cases p with
  | mac => exact absurd (by decide) h
  | _ => rfl

/-! ### Registers stored by their fields (R94, R220, R523) -/

theorem nvQueue_keeps (x : NvItem) (s : State) : keeps [.nvs] s (nvQueue x s) :=
  ite_all (P := keeps [.nvs] s) (keeps_refl _ _) (setNvs_keeps _ _)

/-- A store replaces one register, and its commit may wait. -/
theorem storeReg_spec (p off : Nat) (v : Word) (s : State) :
    (storeReg p off v s).rp p off = mergeFields (fieldsAt p off) (s.rp p off) v ∧
    keepsRegs [regAddr p off] s (storeReg p off v s) ∧ keeps [.regs, .nvs] s (storeReg p off v s) := by
  have kept : keeps [.nvs] (storeFields p off v s) (storeReg p off v s) :=
    ite_all (P := keeps [.nvs] (storeFields p off v s)) (nvQueue_keeps _ _) (keeps_refl _ _)
  have regs := keepsRegs_of_keeps kept (by decide)
  refine ⟨?_, ?_, keeps_trans (wr_keeps _ _ s) kept⟩
  · exact (regs _ (by simp)).trans (State.rd_wr_same _ _ _)
  · exact keepsRegs_mono (keepsRegs_trans (wr_keepsRegs _ _ s) regs) (by simp)

/-- An accepted write of a register is in range. -/
theorem range_of_admits {m : AB} {p off : Nat} {h : Handler} {v : Word} {s : State} (ok : admits m p off h v s = true) :
    h.range m v s = false := by
  simp only [admits, passes, Bool.and_eq_true, Bool.not_eq_true', Bool.or_eq_false_iff] at ok
  exact ok.2.2

/-- An accepted write whose effect is to store the value (Table 0-2). -/
theorem writeReg_stores {m : AB} {p off : Nat} {h : Handler} {v : Word} {s : State} (ok : admits m p off h v s = true)
    (stores : h.run = (plain p off).run) (other : regAddr p off ≠ regAddr pPrs 0x110) :
    let t := writeReg m p off h v s
    t.last = .done ∧ t.rp p off = mergeFields (fieldsAt p off) (s.rp p off) v ∧ keepsRegs (writeRegs p off) s t ∧
      keeps [.regs, .last, .nvs] s t := by
  have used (c : Prop) [Decidable c] : keeps [.regs] s (if c then s.bump (regAddr pPrs 0x110) 1 else s) ∧
      keepsRegs [regAddr pPrs 0x110] s (if c then s.bump (regAddr pPrs 0x110) 1 else s) :=
    ite_all (P := fun t => keeps [.regs] s t ∧ keepsRegs [regAddr pPrs 0x110] s t) ⟨wr_keeps _ _ _, wr_keepsRegs _ _ _⟩
      ⟨keeps_refl _ _, keepsRegs_refl _ _⟩
  rw [writeReg_admits _ _ _ _ _ _ ok, stores]
  obtain ⟨parts, regs⟩ := used (touches .rwp (fieldsAt p off) v = true)
  generalize (if touches .rwp (fieldsAt p off) v = true then s.bump (regAddr pPrs 0x110) 1 else s) = u at parts regs ⊢
  obtain ⟨value, others, kept⟩ := storeReg_spec p off v u
  have same : u.rp p off = s.rp p off := regs _ (by simpa using other)
  refine ⟨rfl, ?_, keepsRegs_trans_swap regs others,
    keeps_mono (keeps_trans (keeps_trans parts kept) (ended_keeps _ _ _ _)) (by decide)⟩
  rw [← same]
  exact value

/-! ### Owner masks and permits (Table 5-5) -/

/-- The page of the slices lies above the presence page. -/
theorem regAddr_pSlc_ne_uses {off : Nat} (h : off < 0x1000) : regAddr pSlc off ≠ regAddr pPrs 0x110 := by
  simp only [regAddr, pSlc, pPrs]
  omega

/-- An owner mask is one field of two bits. -/
theorem fieldsAt_owner {k : Nat} (hk : k < 16) : ∃ n, fieldsAt pSlc (0x100 + 4 * k) = [fRWPnvs 0 2 n] := by
  have table : ∀ k < 16, fieldsAt pSlc (0x100 + 4 * k) = [fRWPnvs 0 2 (if k = 0 then 3 else 0)] := by decide
  exact ⟨_, table k hk⟩

/-- The owner mask that a stored value gives. -/
theorem bits_mergeFields_owner {k n : Nat} (hk : k < 16) (hn : n < 4) (old : Word) :
    bits (mergeFields (fieldsAt pSlc (0x100 + 4 * k)) old (word n)) 0 2 = n := by
  obtain ⟨r, fields⟩ := fieldsAt_owner hk
  rw [fields]
  calc bits (setBits 0 0 2 (bits (word n) 0 2)) 0 2
    _ = bits (word n) 0 2 % 2 ^ 2 := bits_setBits_same _ _ _ _ (by decide)
    _ = n := by
      simp only [bits, word, BitVec.extractLsb'_toNat, BitVec.toNat_ofNat, Nat.shiftRight_zero]
      omega

/-- An owner mask of 0 is out of range for slice 0 and for a slice that is not IDLE (R146). -/
theorem ownerMask_outOfRange {m : AB} {k : Nat} {s : State} (kept : k = 0 ∨ s.sliceState k ≠ .idle) :
    (fieldsOutOfRange (fieldsAt pSlc (0x100 + 4 * k)) 0 || (ownerHandler k).range m 0 s) = true := by
  have range : (ownerHandler k).range m 0 s = true := by simpa [ownerHandler, bits] using kept
  rw [range, Bool.or_true]

section
variable {m : AB} {s : State} {k : Nat}

/-- The three commands are single-word writes. -/
theorem exec_ownerMaskWrite {n : Nat} (on : s.running = true) (hk : k < 16) (hn : n < 4) :
    exec (.ownerMaskWrite m k n) s = .next (writeReg m pSlc (0x100 + 4 * k) (ownerHandler k) (word n) s) := by
  have row : exec (.ownerMaskWrite m k n) s = execOwnerMaskWrite m k n s := rfl
  simp only [row, execOwnerMaskWrite, whenOn_running on, Nat.mod_eq_of_lt hk, Nat.mod_eq_of_lt hn]

theorem exec_xpermitWrite {i : Nat} (on : s.running = true) (hi : i < 32) (v : Word) :
    exec (.xpermitWrite m i v) s = .next (writeReg m pSlc (0x200 + 4 * i) (permitHandler i) v s) := by
  have row : exec (.xpermitWrite m i v) s = execXpermitWrite m i v s := rfl
  simp only [row, execXpermitWrite, whenOn_running on, Nat.mod_eq_of_lt hi]

theorem exec_sliceAllocWrite {off : Nat} (on : s.running = true) (hk : k < 16) (named : off ∈ allocOffs) (v : Word) :
    exec (.sliceAllocWrite m k off v) s = .next (writeReg m (pSlice k 0) off (allocHandler k off) v s) := by
  have row : exec (.sliceAllocWrite m k off v) s = execSliceAllocWrite m k off v s := rfl
  have listed : allocOffs.contains off = true := List.contains_iff_mem.mpr named
  simp only [row, execSliceAllocWrite, whenOn_running on, Nat.mod_eq_of_lt hk, listed, if_true]

end

/-! ### What follows a change of an allocation register (R148, R347, R399, R423, R457, R480) -/

/-- The parts that a change of assignments reaches. -/
def settledParts : List Part := [.regs, .buf, .seqs, .chk, .mac, .hdrs, .links, .ctrs, .out]

/-- The parts that no change of assignments reaches are the same, and so is every register of the slices' SLC pages. -/
def sparesSlices (s t : State) : Prop := keeps settledParts s t ∧ ∀ j o, o < 0x1000 → t.slc j o = s.slc j o

theorem sparesSlices_refl (s : State) : sparesSlices s s := ⟨keeps_refl _ _, fun _ _ _ => rfl⟩

theorem sparesSlices_trans {s t u : State} (a : sparesSlices s t) (b : sparesSlices t u) : sparesSlices s u :=
  ⟨keeps_mono (keeps_trans a.1 b.1) (by decide), fun j o h => (b.2 j o h).trans (a.2 j o h)⟩

/-- A change of registers that are none of the SLC pages. -/
theorem sparesSlices_of_keepsRegs {l : List Part} {r : Nat} {s t : State} (parts : keeps l s t) (listed : ∀ p ∈ l, p ∈ settledParts)
    (regs : keepsRegs [r] s t) (apart : ∀ j o, o < 0x1000 → regAddr (pSlice j 0) o ≠ r) : sparesSlices s t :=
  ⟨keeps_mono parts listed, fun j o h => regs _ (by simpa using apart j o h)⟩

/-- A change of no register. -/
theorem sparesSlices_of_keeps {l : List Part} {s t : State} (parts : keeps l s t) (listed : ∀ p ∈ l, p ∈ settledParts)
    (regs : Part.regs ∉ l) : sparesSlices s t :=
  ⟨keeps_mono parts listed, fun _ _ _ => keepsRegs_of_keeps parts regs _ (by simp)⟩

theorem sparesSlices_wr {r : Nat} (apart : ∀ j o, o < 0x1000 → regAddr (pSlice j 0) o ≠ r) (v : Word) (s : State) :
    sparesSlices s (s.wr r v) :=
  sparesSlices_of_keepsRegs (wr_keeps r v s) (by decide) (wr_keepsRegs r v s) apart

theorem sparesSlices_raise (p i : Nat) (s : State) : sparesSlices s (raise p i s) :=
  sparesSlices_of_keeps (raise_keeps p i s) (by decide) (by decide)

theorem sparesSlices_setSeq (n : Nat) (q : Seq) (s : State) : sparesSlices s (s.setSeq n q) :=
  sparesSlices_of_keeps (setSeq_keeps n q s) (by decide) (by decide)

theorem sparesSlices_setPort (n : Nat) (x : MacPort) (s : State) : sparesSlices s (s.setPort n x) :=
  sparesSlices_of_keeps (setPort_keeps n x s) (by decide) (by decide)

theorem sparesSlices_foldl {α : Type} (l : List α) (f : State → α → State) (each : ∀ t, ∀ a ∈ l, sparesSlices t (f t a)) (s : State) :
    sparesSlices s (l.foldl f s) :=
  List.foldlRecOn l f (motive := sparesSlices s) (sparesSlices_refl s) fun t kept a mem => sparesSlices_trans kept (each t a mem)

/-- The SLC pages lie above the pages of the client ports. -/
theorem slicePage_ne_mac {n off : Nat} (hn : n < 8) (hoff : off < 0x1000) (j o : Nat) (_ : o < 0x1000) :
    regAddr (pSlice j 0) o ≠ regAddr (pMac n) off := by
  simp only [regAddr, pSlice, pMac]
  omega

/-- The SLC pages are not the slices' DRP pages. -/
theorem slicePage_ne_drp (k : Nat) {off : Nat} (hoff : off < 0x1000) (j o : Nat) (ho : o < 0x1000) :
    regAddr (pSlice j 0) o ≠ regAddr (pSlice k 1) off := by
  simp only [regAddr, pSlice]
  omega

theorem sparesSlices_seqStop (n : Nat) (s : State) : sparesSlices s (seqStop n s) := by
  unfold seqStop
  dsimp only
  split
  · exact sparesSlices_setSeq _ _ _
  · exact sparesSlices_setSeq _ _ _
  · exact sparesSlices_refl s

/-- Sequencers start and stop (R457). -/
theorem sparesSlices_seqSync (old s : State) : sparesSlices s (seqSync old s) :=
  sparesSlices_foldl _ _ (fun t n _ =>
    ite_all (P := sparesSlices t) (sparesSlices_setSeq n _ t)
      (ite_all (P := sparesSlices t) (sparesSlices_seqStop n t) (sparesSlices_refl t))) s

section
variable {n : Nat} (hn : n < 8)
include hn

theorem sparesSlices_macCount {i : Nat} (hi : i < 128) (s : State) : sparesSlices s (macCount n i 1 s) := by
  obtain ⟨-, regs, -, parts⟩ := countAt_spec (pMac n) 0x200 0x180 2 (if i = 0 ∨ i = 1 ∨ i = 32 then 48 else 40) i 1 s
  exact sparesSlices_of_keepsRegs parts (by decide) regs (slicePage_ne_mac hn (by omega))

/-- A pause frame leaves and is counted (R355). -/
theorem sparesSlices_sendPause {pri : Nat} (hp : pri ≤ 8) (quanta : Nat) (s : State) : sparesSlices s (sendPause n pri quanta s) := by
  have sent (o : Output) : sparesSlices s (s.emit o) := sparesSlices_of_keeps (emit_keeps o s) (by decide) (by decide)
  refine ite_all (P := sparesSlices s) ?_ ?_
  · exact sparesSlices_trans (sent _) (sparesSlices_macCount hn (by decide) _)
  · exact sparesSlices_trans (sparesSlices_trans (sent _) (sparesSlices_macCount hn (by decide) _))
      (sparesSlices_macCount hn (by omega) _)

omit hn in
theorem sparesSlices_setXoff (pri : Nat) (on : Bool) (s : State) : sparesSlices s (setXoff n pri on s) :=
  ite_all (P := sparesSlices s) (sparesSlices_trans (sparesSlices_setPort _ _ s) (sparesSlices_raise _ _ _)) (sparesSlices_setPort _ _ s)

theorem sparesSlices_pauseOne {pri : Nat} (hp : pri ≤ 8) (s : State) : sparesSlices s (pauseOne n pri s) :=
  ite_all (P := sparesSlices s) (sparesSlices_trans (sparesSlices_setXoff _ _ s) (sparesSlices_sendPause hn hp _ _))
    (ite_all (P := sparesSlices s) (sparesSlices_trans (sparesSlices_setXoff _ _ s) (sparesSlices_sendPause hn hp _ _))
      (sparesSlices_refl s))

omit hn in
/-- Flow control watches the eight priorities and 802.3x. -/
theorem le_of_mem_pauseKinds {pri : Nat} {s : State} (h : pri ∈ pauseKinds n s) : pri ≤ 8 := by
  unfold pauseKinds at h
  split at h
  · exact (List.mem_singleton.mp h).le
  · exact (List.mem_range.mp h).le
  · cases h

theorem sparesSlices_pauseCheck (s : State) : sparesSlices s (pauseCheck n s) :=
  ite_all (P := sparesSlices s)
    (sparesSlices_foldl _ _ (fun t _ watched => sparesSlices_pauseOne hn (le_of_mem_pauseKinds watched) t) s) (sparesSlices_refl s)

theorem sparesSlices_endPauses (s : State) : sparesSlices s (endPauses n s) :=
  have apart := slicePage_ne_mac (off := 0x104) hn (by decide)
  sparesSlices_trans (sparesSlices_trans (sparesSlices_wr apart _ s) (sparesSlices_wr apart _ _)) (sparesSlices_setPort _ _ _)

/-- A client port's LINK follows its slice (R148, R347, R366). -/
theorem sparesSlices_linkUpdate (s : State) : sparesSlices s (linkUpdate n s) := by
  have told : sparesSlices s (raise (pMac n) 0 (s.setFlag (regAddr (pMac n) 0x104) 0 (linkNow n s))) :=
    sparesSlices_trans (sparesSlices_wr (slicePage_ne_mac hn (by decide)) _ s) (sparesSlices_raise _ _ _)
  exact ite_all (P := sparesSlices s) (sparesSlices_refl s)
    (ite_all (P := sparesSlices s) (sparesSlices_trans told (sparesSlices_pauseCheck hn _))
      (sparesSlices_trans told (sparesSlices_endPauses hn _)))

end

theorem sparesSlices_settleUnits (old s : State) : sparesSlices s (settleUnits old s) := by
  have links (t : State) : sparesSlices t ((List.range 8).foldl (fun s n => linkUpdate n s) t) :=
    sparesSlices_foldl _ _ (fun u _ mem => sparesSlices_linkUpdate (List.mem_range.mp mem) u) t
  have checks (t : State) :
      sparesSlices t ((List.range 8).foldl (fun s n => if s.chkSlice n = old.chkSlice n then s else s.setChan n Chk.none) t) :=
    sparesSlices_foldl _ _ (fun u n _ => ite_all (P := sparesSlices u) (sparesSlices_refl u)
      (sparesSlices_of_keeps (setChan_keeps n _ u) (by decide) (by decide))) t
  exact sparesSlices_trans (sparesSlices_trans (sparesSlices_seqSync old s) (links _)) (checks _)

theorem sparesSlices_cutCheck (old s : State) : sparesSlices s (cutCheck old s) :=
  ite_all (P := sparesSlices s) (sparesSlices_raise _ _ s) (sparesSlices_refl s)

/-- The slice's Skim ring stops (R423). -/
theorem sparesSlices_ringStop (k : Nat) (s : State) : sparesSlices s (ringStop k s) := by
  have drop (x : BufSt) : sparesSlices s { s with buf := x } := sparesSlices_of_keeps (setBuf_keeps x s) (by decide) (by decide)
  have stopped (x : BufSt) : sparesSlices s (State.setFlag { s with buf := x } (regAddr (pSlice k 1) 0x10C) 0 false) :=
    sparesSlices_trans (drop x) (sparesSlices_wr (slicePage_ne_drp k (by decide)) _ _)
  refine ite_all (P := sparesSlices s) (stopped _) ?_
  exact sparesSlices_trans (sparesSlices_trans (stopped _) (sparesSlices_wr (slicePage_ne_drp k (by decide)) _ _)) (sparesSlices_raise _ _ _)

/-! ### Allocation registers (R147) -/

/-- The effect of an accepted write is a store, and what follows it. -/
theorem allocHandler_run (m : AB) (k off : Nat) (v : Word) (s : State) :
    sparesSlices (storeReg (pSlice k 0) off v s) ((allocHandler k off).run m v s) := by
  have settled := sparesSlices_trans (sparesSlices_settleUnits s (storeReg (pSlice k 0) off v s)) (sparesSlices_cutCheck s _)
  exact ite_all (P := sparesSlices (storeReg (pSlice k 0) off v s)) (sparesSlices_trans settled (sparesSlices_ringStop k _)) settled

theorem pageInfo_pSlice {k : Nat} (hk : k < 16) : pageInfo (pSlice k 0) = some ⟨.slcS, k, 0⟩ := by
  have table : ∀ k < 16, pageInfo (pSlice k 0) = some ⟨.slcS, k, 0⟩ := by decide
  exact table k hk

/-- No allocation register asks for a presence token. -/
theorem alloc_ungated {k off : Nat} (hk : k < 16) (named : off ∈ allocOffs) (v : Word) :
    touches .rwp (fieldsAt (pSlice k 0) off) v = false := by
  have table : ∀ off ∈ allocOffs, ∀ f ∈ ((findReg off regsSlcS).map Reg.flds).getD [], f.acc ≠ .rwp := by decide
  have fields : fieldsAt (pSlice k 0) off = ((findReg off regsSlcS).map Reg.flds).getD [] := by
    simp only [fieldsAt, pageInfo_pSlice hk, blkRegs]
    cases findReg off regsSlcS <;> rfl
  rw [fields]
  exact List.any_eq_false.mpr fun f mem => by simp [table off named f mem]

/-- The allocation registers stand below the end of their page. -/
theorem lt_of_mem_allocOffs {off : Nat} (named : off ∈ allocOffs) : off < 0x1000 := by
  have table : ∀ off ∈ allocOffs, off < 0x1000 := by decide
  exact table off named

/-- The registers of two SLC pages, and of one page at two offsets, are different ones. -/
theorem slicePage_inj {j k o off : Nat} (ho : o < 0x1000) (hoff : off < 0x1000) :
    regAddr (pSlice j 0) o = regAddr (pSlice k 0) off ↔ j = k ∧ o = off := by
  simp only [regAddr, pSlice]
  omega

/-- An allocation register of a slice that is not IDLE is out of range. -/
theorem alloc_range_of_ne_idle {m : AB} {k off : Nat} {v : Word} {s : State} (busy : s.sliceState k ≠ .idle) :
    (allocHandler k off).range m v s = true := by
  simp [allocHandler, allocRefused, busy]

/-- An accepted write of an allocation register. -/
theorem writeReg_alloc {m : AB} {k off : Nat} {v : Word} {s : State} (hk : k < 16) (named : off ∈ allocOffs)
    (ok : admits m (pSlice k 0) off (allocHandler k off) v s = true) :
    let t := writeReg m (pSlice k 0) off (allocHandler k off) v s
    keeps [.regs, .last, .nvs, .buf, .seqs, .chk, .mac, .hdrs, .links, .ctrs, .out] s t ∧ t.last = .done ∧
      t.slc k off = mergeFields (fieldsAt (pSlice k 0) off) (s.slc k off) v ∧
      ∀ j o, o < 0x1000 → ¬ (j = k ∧ o = off) → t.slc j o = s.slc j o := by
  have hoff := lt_of_mem_allocOffs named
  obtain ⟨value, others, kept⟩ := storeReg_spec (pSlice k 0) off v s
  obtain ⟨parts, slices⟩ := allocHandler_run m k off v s
  rw [writeReg_ungated ok (alloc_ungated hk named v)]
  refine ⟨keeps_mono (keeps_trans (keeps_trans kept parts) (ended_keeps _ _ _ _)) (by decide), rfl,
    (slices k off hoff).trans value, fun j o ho ne => (slices j o ho).trans (others _ ?_)⟩
  simpa using mt (slicePage_inj ho hoff).mp ne

/-- Settles O37: each command is one single-word write (`exec_ownerMaskWrite`, `exec_xpermitWrite`, `exec_sliceAllocWrite`), which stores
what it carries or is out of range; what follows a new allocation spares the slices' SLC pages (`allocHandler_run`). -/
theorem slicesAreAllocated : Obligations.SlicesAreAllocated := by
  intro m k s on hk
  refine ⟨fun n hn ok => ⟨_, exec_ownerMaskWrite on hk hn, ?_⟩, fun kept reach => ⟨_, exec_ownerMaskWrite on hk (by decide), ?_⟩,
    fun i v hi ok => ⟨_, exec_xpermitWrite on hi v, ?_⟩, fun i v enabled self => ?_,
    fun off named v => ⟨fun ok => ⟨_, exec_sliceAllocWrite on hk named v, ?_⟩, alloc_range_of_ne_idle⟩⟩
  · obtain ⟨done, value, regs, parts⟩ := writeReg_stores ok rfl (regAddr_pSlc_ne_uses (by omega))
    refine ⟨done, ?_, fun j hj ne => congrArg (bits · 0 2) (regs _ ?_), regs, parts⟩
    · exact (congrArg (bits · 0 2) value).trans (bits_mergeFields_owner hk hn _)
    · simp only [writeRegs, List.mem_cons, List.not_mem_nil, or_false, not_or]
      exact ⟨by simp only [regAddr]; omega, regAddr_pSlc_ne_uses (by omega)⟩
  · have zero : word 0 = 0 := rfl
    rw [zero, writeReg_outOfRange reach (ownerMask_outOfRange kept)]
    exact refuseWrite_range m _ _ _ (by simp only [regAddr, pSlc]; omega) s
  · exact writeReg_stores ok rfl (regAddr_pSlc_ne_uses (by omega))
  · simp [permitHandler, enabled, self]
  · obtain ⟨parts, done, value, others⟩ := writeReg_alloc hk named ok
    have idle : s.sliceState k = .idle := by
      by_contra busy
      exact Bool.false_ne_true ((range_of_admits ok).symm.trans (alloc_range_of_ne_idle busy))
    exact ⟨parts, done, idle, value, fun o ho ne => others k o (lt_of_mem_allocOffs ho) (fun e => ne e.2),
      fun j _ ne o ho => others j o (lt_of_mem_allocOffs ho) (fun e => ne e.1)⟩

end Sys2Proof.Machine

/-!
PROOFS. What the commands of chapter 7 share (R218 to R224): fields and flags after an update, interrupts of the presence token, what a
tamper entry writes, and writes that need a presence token.
-/

namespace Sys2Proof.Machine

/-! ### Fields and flags of a register after an update -/

/-- Two offsets of one page name two registers. -/
theorem regAddr_inj {p x y : Nat} : regAddr p x = regAddr p y ↔ x = y := by
  simp only [regAddr]
  omega

/-- A field of a word that a number gives. -/
theorem bits_word {lo w : Nat} (h : lo + w ≤ 32) (n : Nat) : bits (word n) lo w = n / 2 ^ lo % 2 ^ w := by
  apply Nat.eq_of_testBit_eq
  intro i
  rw [testBit_bits, Nat.testBit_mod_two_pow, Nat.testBit_div_two_pow, word, BitVec.getLsbD_ofNat]
  by_cases hi : i < w
  · have inside : lo + i < 32 := by omega
    simp [hi, inside, Nat.add_comm]
  · simp [hi]

theorem bit_word {i : Nat} (h : i < 32) (n : Nat) : bit (word n) i = n.testBit i := by
  rw [bit, word, BitVec.getLsbD_ofNat, decide_eq_true h, Bool.true_and]

theorem flag_setFlag_same (s : State) (a : Nat) {i : Nat} (hi : i < 32) (b : Bool) : (s.setFlag a i b).flag a i = b := by
  simp only [State.flag, State.setFlag, State.setFld, State.rd_wr_same, bit_setBits _ _ _ _ _ hi]
  cases b <;> simp [b2n]

theorem flag_setFlag_other (s : State) (a : Nat) {i j : Nat} (hj : j < 32) (ne : j ≠ i) (b : Bool) :
    (s.setFlag a i b).flag a j = s.flag a j := by
  simp only [State.flag, State.setFlag, State.setFld, State.rd_wr_same]
  exact bit_setBits_other _ (by omega) hj

theorem rd_setFlag_other (s : State) {a c : Nat} (ne : c ≠ a) (i : Nat) (b : Bool) : (s.setFlag a i b).rd c = s.rd c :=
  State.rd_wr_other _ ne _

/-- A flag that is lowered somewhere stays low wherever it was low. -/
theorem flag_setFlag_low (s : State) {a c : Nat} {i : Nat} (hi : i < 32) (h : c = a ∨ s.flag c i = false) :
    (s.setFlag a i false).flag c i = false := by
  by_cases e : c = a
  · rw [e, flag_setFlag_same s a hi]
  · rw [State.flag, rd_setFlag_other s e]
    exact h.resolve_left e

/-- SEAL stands apart from the flags of BKP_STATUS above it. -/
theorem sealState_setFlag (s : State) {i : Nat} (hi : 3 ≤ i) (b : Bool) :
    sealState (s.setFlag (regAddr pBkp 0x100) i b) = sealState s := by
  simp only [sealState, State.fld, State.setFlag, State.setFld, State.rd_wr_same]
  exact bits_setBits_other _ (by omega) (by decide)

/-- What reads as one word reads as one flag and as one SEAL. -/
theorem flag_congr {s t : State} {a : Nat} (same : t.rd a = s.rd a) (i : Nat) : t.flag a i = s.flag a i := congrArg (bit · i) same

theorem sealState_congr {s t : State} (same : t.rd (regAddr pBkp 0x100) = s.rd (regAddr pBkp 0x100)) : sealState t = sealState s :=
  congrArg (bits · 1 2) same

/-! ### Frames of single updates -/

/-- Replace the live part of the backup domain that is no register. -/
def State.setBackup (s : State) (x : BackupSt) : State := { s with backup := x }

@[simp] theorem State.setBackup_backup (s : State) (x : BackupSt) : (s.setBackup x).backup = x := rfl
@[simp] theorem State.setBackup_rd (s : State) (x : BackupSt) (a : Nat) : (s.setBackup x).rd a = s.rd a := rfl

theorem setBackup_keeps (x : BackupSt) (s : State) : keeps [.backup] s (s.setBackup x) := by
  intro p h
  cases p with
  | backup => exact absurd (by decide) h
  | _ => rfl

/-- A step of a fold that touches one register touches, folded, the registers of the list. -/
theorem foldl_frame {α : Type} {ps : List Part} (f : State → α → State) (reg : α → Nat)
    (each : ∀ t x, keeps ps t (f t x) ∧ keepsRegs [reg x] t (f t x)) (l : List α) (s : State) :
    keeps ps s (l.foldl f s) ∧ keepsRegs (l.map reg) s (l.foldl f s) := by
  induction l generalizing s with
  | nil => exact ⟨keeps_refl _ _, keepsRegs_refl _ _⟩
  | cons x xs ih =>
    obtain ⟨parts, regs⟩ := each s x
    obtain ⟨parts', regs'⟩ := ih (f s x)
    exact ⟨keeps_mono (keeps_trans parts parts') (by simp), keepsRegs_trans regs regs'⟩

/-! ### Interrupts and the presence token (R218 to R220, R223) -/

@[simp] theorem raise_rd (p i : Nat) (s : State) (a : Nat) : (raise p i s).rd a = s.rd a := raise_keepsRegs p i s a (by simp)
@[simp] theorem raise_backup (p i : Nat) (s : State) : (raise p i s).backup = s.backup := raise_keeps p i s .backup (by decide)

/-- Raising another interrupt of a page leaves a bit of INT_RAW set. -/
theorem raise_intRaw_of_set {p j : Nat} {s : State} (up : intRawBit s p j = true) (i : Nat) : intRawBit (raise p i s) p j = true := by
  have old : (s.hdr p).intRaw.getLsbD j = true := up
  simp [intRawBit, raise_hdr, bit, old]

/-- Nothing changes but interrupts of page `p`, and EVENT records with them. -/
def signals (p : Nat) (s t : State) : Prop := keeps [.hdrs, .links] s t ∧ keepsHdrs [p] s t

theorem signals_refl (p : Nat) (s : State) : signals p s s := ⟨keeps_refl _ _, keepsHdrs_refl _ _⟩

theorem signals_raise {p : Nat} {s t : State} (h : signals p s t) (i : Nat) : signals p s (raise p i t) :=
  ⟨keeps_mono (keeps_trans h.1 (raise_keeps p i t)) (by decide),
    fun q hq => (raise_keepsHdrs p i t q hq).trans (h.2 q hq)⟩

theorem tokenSettle_signals (old s : State) : signals pPrs s (tokenSettle old s) := by
  have token : signals pPrs s (if (s.present && !old.present) = true then raise pPrs 0 s
      else if (old.present && !s.present) = true then raise pPrs 1 s else s) :=
    ite_all (P := signals pPrs s) (signals_raise (signals_refl _ _) 0)
      (ite_all (P := signals pPrs s) (signals_raise (signals_refl _ _) 1) (signals_refl _ _))
  exact ite_all (P := signals pPrs s) (signals_refl _ _) (ite_all (P := signals pPrs s) (signals_raise token 2) token)

theorem tokenSettle_keeps (old s : State) : keeps [.hdrs, .links] s (tokenSettle old s) := (tokenSettle_signals old s).1

@[simp] theorem tokenSettle_rd (old s : State) (a : Nat) : (tokenSettle old s).rd a = s.rd a :=
  keepsRegs_of_keeps (tokenSettle_keeps old s) (by decide) a (by simp)
@[simp] theorem tokenSettle_backup (old s : State) : (tokenSettle old s).backup = s.backup := tokenSettle_keeps old s .backup (by decide)

/-- STRAP_UNTRUSTED, raised last, leaves an interrupt of the token raised. -/
theorem intRaw_of_untrusted {i : Nat} (hi : i < 32) (old s : State) :
    intRawBit (if (strapUntrusted (raise pPrs i s) && !strapUntrusted old) = true then raise pPrs 2 (raise pPrs i s) else raise pPrs i s)
      pPrs i = true :=
  ite_all (P := fun t => intRawBit t pPrs i = true) (raise_intRaw_of_set (raise_intRaw _ _ _ hi) 2) (raise_intRaw _ _ _ hi)

/-- A token that appears is TOKEN_OPEN. -/
theorem tokenSettle_opens {old s : State} (on : s.running = true) (now : s.present = true) (before : old.present = false) :
    intRawBit (tokenSettle old s) pPrs 0 = true := by
  have run : tokenSettle old s =
      if (strapUntrusted (raise pPrs 0 s) && !strapUntrusted old) = true then raise pPrs 2 (raise pPrs 0 s) else raise pPrs 0 s := by
    simp [tokenSettle, on, now, before]
  rw [run]
  exact intRaw_of_untrusted (by decide) old s

/-- A token that ends is TOKEN_CLOSE. -/
theorem tokenSettle_closes {old s : State} (on : s.running = true) (now : s.present = false) (before : old.present = true) :
    intRawBit (tokenSettle old s) pPrs 1 = true := by
  have run : tokenSettle old s =
      if (strapUntrusted (raise pPrs 1 s) && !strapUntrusted old) = true then raise pPrs 2 (raise pPrs 1 s) else raise pPrs 1 s := by
    simp [tokenSettle, on, now, before]
  rw [run]
  exact intRaw_of_untrusted (by decide) old s

/-! ### The tamper log (R223) -/

/-- The registers as an entry of the tamper log with these two words leaves them: the words, the pointer and TAMPERS. -/
def logged (w0 w1 : Word) (s : State) : State :=
  let n := s.fld (regAddr pBkp 0x138) 0 4
  (((s.wp pBkp (0x204 + 8 * n) w1).wp pBkp (0x200 + 8 * n) w0).wp pBkp 0x138 (word ((n + 1) % 16))).bump (regAddr pBkp 0x12C) 1

@[simp] theorem logged_backup (w0 w1 : Word) (s : State) : (logged w0 w1 s).backup = s.backup := rfl
@[simp] theorem logged_logicOn (w0 w1 : Word) (s : State) : (logged w0 w1 s).logicOn = s.logicOn := rfl

theorem logged_keeps (w0 w1 : Word) (s : State) : keeps [.regs] s (logged w0 w1 s) :=
  keeps_mono (keeps_trans (keeps_trans (keeps_trans (wr_keeps _ _ s) (wr_keeps _ _ _)) (wr_keeps _ _ _)) (wr_keeps _ _ _)) (by decide)

/-- Word 0 of a tamper entry (Table 7-2). -/
def tamperWord (ev detail : Nat) (s : State) : Word := word (ev + detail % 256 * 2 ^ 8 + s.backup.tamperSeq % 256 * 2 ^ 16 + 2 ^ 31)

/-- The state with the two words of a tamper entry written. -/
def tamperLogged (ev detail : Nat) (s : State) : State :=
  logged (tamperWord ev detail s) (if rtcValid s then word s.backup.rtcSec else 0) s

/-- The backup domain after a tamper entry. -/
def tamperCount (s : State) : BackupSt :=
  { s.backup with
    tamperSeq := (s.backup.tamperSeq + 1) % 256, dirty := true, tamperOff := s.backup.tamperOff || !s.logicOn }

/-- The end of an entry, for any next SEQ: it is counted, and TAMPER rises while the logic domain is on. -/
theorem tamperEnd_eq (q : Nat) (u : State) :
    (let v := bkpChanged { u with backup := { u.backup with tamperSeq := q } }
      if v.logicOn then raise pBkp 1 v else { v with backup := { v.backup with tamperOff := true } }) =
    if u.logicOn then raise pBkp 1 (u.setBackup { u.backup with tamperSeq := q, dirty := true })
    else u.setBackup { u.backup with tamperSeq := q, dirty := true, tamperOff := true } := rfl

/-- A tamper entry: registers, count, and TAMPER while the logic domain is on. -/
theorem tamper_eq (ev detail : Nat) (s : State) : tamper ev detail s =
    if s.logicOn then raise pBkp 1 ((tamperLogged ev detail s).setBackup (tamperCount s))
    else (tamperLogged ev detail s).setBackup (tamperCount s) := by
  let u := tamperLogged ev detail s
  have on : u.logicOn = s.logicOn := logged_logicOn _ _ s
  have backup : u.backup = s.backup := logged_backup _ _ s
  have ends := tamperEnd_eq ((u.backup.tamperSeq + 1) % 256) u
  refine Eq.trans ?_ (ends.trans ?_)
  · rfl
  · rw [on, backup, tamperCount]
    cases s.logicOn <;> simp [u]

@[simp] theorem tamper_backup (ev detail : Nat) (s : State) : (tamper ev detail s).backup = tamperCount s := by
  rw [tamper_eq]
  exact ite_all (P := fun t => t.backup = tamperCount s) (raise_backup _ _ _) rfl

theorem tamper_rd (ev detail : Nat) (s : State) (a : Nat) : (tamper ev detail s).rd a = (tamperLogged ev detail s).rd a := by
  rw [tamper_eq]
  exact ite_all (P := fun t => t.rd a = (tamperLogged ev detail s).rd a) ((raise_rd _ _ _ _).trans (State.setBackup_rd _ _ _))
    (State.setBackup_rd _ _ _)

theorem tamperLogged_keeps (ev detail : Nat) (s : State) :
    keeps [.regs, .backup] s ((tamperLogged ev detail s).setBackup (tamperCount s)) :=
  keeps_trans (logged_keeps _ _ s) (setBackup_keeps _ _)

theorem tamper_keeps (ev detail : Nat) (s : State) : keeps [.regs, .backup, .hdrs, .links] s (tamper ev detail s) := by
  rw [tamper_eq]
  have words := tamperLogged_keeps ev detail s
  exact ite_all (P := keeps [.regs, .backup, .hdrs, .links] s) (keeps_mono (keeps_trans words (raise_keeps _ _ _)) (by decide))
    (keeps_mono words (by decide))

/-- While the logic domain is off, a tamper entry raises nothing. -/
theorem tamper_keeps_off {s : State} (off : s.logicOn = false) (ev detail : Nat) : keeps [.regs, .backup] s (tamper ev detail s) := by
  rw [tamper_eq, off, if_neg Bool.false_ne_true]
  exact tamperLogged_keeps ev detail s

theorem tamper_keepsRegs (ev detail : Nat) (s : State) : keepsRegs (tamperRegs s) s (tamper ev detail s) := by
  intro a ha
  simp only [tamperRegs, List.mem_cons, List.not_mem_nil, or_false, not_or] at ha
  obtain ⟨h0, h1, hp, hc⟩ := ha
  rw [tamper_rd]
  exact (State.rd_wr_other _ hc _).trans ((State.rd_wr_other _ hp _).trans ((State.rd_wr_other _ h0 _).trans (State.rd_wr_other _ h1 _)))

/-- The registers of a tamper entry are of the BKP page, TAMPERS or above. -/
theorem of_mem_tamperRegs {s : State} {a : Nat} (h : a ∈ tamperRegs s) :
    ∃ off, a = regAddr pBkp off ∧ 0x12C ≤ off ∧ off < 0x280 := by
  have lt : s.fld (regAddr pBkp 0x138) 0 4 < 16 := bits_lt _ _ _
  simp only [tamperRegs, List.mem_cons, List.not_mem_nil, or_false] at h
  obtain rfl | rfl | rfl | rfl := h
  · exact ⟨_, rfl, by omega, by omega⟩
  · exact ⟨_, rfl, by omega, by omega⟩
  · exact ⟨_, rfl, by omega, by omega⟩
  · exact ⟨_, rfl, by omega, by omega⟩

/-- BKP_STATUS does not belong to the tamper log. -/
@[simp] theorem tamper_status (ev detail : Nat) (s : State) :
    (tamper ev detail s).rd (regAddr pBkp 0x100) = s.rd (regAddr pBkp 0x100) := by
  refine tamper_keepsRegs ev detail s _ fun mem => ?_
  obtain ⟨off, same, low, -⟩ := of_mem_tamperRegs mem
  rw [regAddr_inj] at same
  omega

/-- The words of a tamper entry, its pointer and its count. -/
theorem tamper_words (ev detail : Nat) (s : State) :
    let n := s.fld (regAddr pBkp 0x138) 0 4
    (tamper ev detail s).rp pBkp (0x200 + 8 * n) = tamperWord ev detail s ∧
      (tamper ev detail s).rp pBkp 0x138 = word ((n + 1) % 16) ∧
      (tamper ev detail s).rp pBkp 0x12C = s.rp pBkp 0x12C + 1 := by
  have ne {x y : Nat} (h : x ≠ y) : regAddr pBkp x ≠ regAddr pBkp y := mt regAddr_inj.mp h
  refine ⟨?_, ?_, ?_⟩
  · refine (tamper_rd ev detail s _).trans ((State.rd_wr_other _ (ne ?_) _).trans ((State.rd_wr_other _ (ne ?_) _).trans
      (State.rd_wr_same _ _ _)))
    · omega
    · omega
  · exact (tamper_rd ev detail s _).trans ((State.rd_wr_other _ (by decide) _).trans (State.rd_wr_same _ _ _))
  · refine (tamper_rd ev detail s _).trans ((State.rd_wr_same _ _ _).trans (congrArg (· + word 1) ?_))
    refine (State.rd_wr_other _ (by decide) _).trans ((State.rd_wr_other _ (ne ?_) _).trans (State.rd_wr_other _ (ne ?_) _))
    · omega
    · omega

/-- A tamper entry stands in the log. -/
theorem tamper_tampered {ev : Nat} (hev : ev < 256) (detail : Nat) (s : State) : tampered ev s (tamper ev detail s) := by
  obtain ⟨entry, pointer, count⟩ := tamper_words ev detail s
  refine ⟨?_, ?_, ?_, by rw [tamper_backup, tamperCount], pointer, count⟩
  · rw [entry, tamperWord, bits_word (by decide)]
    omega
  · rw [entry, tamperWord, bit_word (by decide), Nat.testBit_eq_decide_div_mod_eq, decide_eq_true_iff]
    omega
  · rw [entry, tamperWord, bits_word (by decide)]
    omega

/-- The tamper log is the same in two states: the pointer, SEQ, TAMPERS and the entries. -/
def sameLog (s t : State) : Prop :=
  (∀ off, 0x12C ≤ off → off < 0x280 → t.rp pBkp off = s.rp pBkp off) ∧ t.backup.tamperSeq = s.backup.tamperSeq

theorem sameLog_refl (s : State) : sameLog s s := ⟨fun _ _ _ => rfl, rfl⟩

theorem sameLog_trans {s t u : State} (a : sameLog s t) (b : sameLog t u) : sameLog s u :=
  ⟨fun off low high => (b.1 off low high).trans (a.1 off low high), b.2.trans a.2⟩

/-- The log stands apart from BKP_STATUS and from the counts of the presence page. -/
theorem sameLog_of_keepsRegs {s t : State} (regs : keepsRegs [regAddr pBkp 0x100, regAddr pPrs 0x110] s t)
    (seq : t.backup.tamperSeq = s.backup.tamperSeq) : sameLog s t := by
  refine ⟨fun off low high => regs _ ?_, seq⟩
  simp only [List.mem_cons, List.not_mem_nil, or_false, not_or, regAddr, pBkp, pPrs]
  omega

/-- An entry is told by the pointer, SEQ and TAMPERS before it. -/
theorem tampered_of_start {ev : Nat} {s s' t : State} (pointer : s'.rp pBkp 0x138 = s.rp pBkp 0x138)
    (count : s'.rp pBkp 0x12C = s.rp pBkp 0x12C) (seq : s'.backup.tamperSeq = s.backup.tamperSeq) (h : tampered ev s' t) :
    tampered ev s t := by
  have next : s'.fld (regAddr pBkp 0x138) 0 4 = s.fld (regAddr pBkp 0x138) 0 4 := congrArg (bits · 0 4) pointer
  simpa only [tampered, next, count, seq] using h

/-- An entry is told by the log before it and the log after it. -/
theorem tampered_of_sameLog {ev : Nat} {s s' t' t : State} (before : sameLog s s') (h : tampered ev s' t') (after : sameLog t' t) :
    tampered ev s t := by
  have lt : s'.fld (regAddr pBkp 0x138) 0 4 < 16 := bits_lt _ _ _
  refine tampered_of_start (before.1 0x138 (by decide) (by decide)) (before.1 0x12C (by decide) (by decide)) before.2 ?_
  simpa only [tampered, after.2, after.1 (0x200 + 8 * s'.fld (regAddr pBkp 0x138) 0 4) (by omega) (by omega),
    after.1 0x138 (by decide) (by decide), after.1 0x12C (by decide) (by decide)] using h

/-- A change of BKP_STATUS, and of the backup domain but for SEQ, leaves the log as it is. -/
theorem sameLog_status {s t : State} (regs : keepsRegs [regAddr pBkp 0x100] s t) (seq : t.backup.tamperSeq = s.backup.tamperSeq) :
    sameLog s t :=
  sameLog_of_keepsRegs (keepsRegs_mono regs (by simp)) seq

/-- Settling the token leaves the log as it is. -/
theorem sameLog_tokenSettle (old s : State) : sameLog s (tokenSettle old s) :=
  ⟨fun _ _ _ => tokenSettle_rd old s _, by rw [tokenSettle_backup]⟩

/-! ### Writes that need a presence token (R220, R221) -/

/-- An accepted write of a register that asks for a presence token counts one use of it. -/
theorem writeReg_gated {m : AB} {p off : Nat} {h : Handler} {v : Word} {s : State} (ok : admits m p off h v s = true)
    (gated : touches .rwp (fieldsAt p off) v = true) :
    writeReg m p off h v s = ended .ok 0 .none (h.run m v (s.bump (regAddr pPrs 0x110) 1)) := by
  rw [writeReg_admits _ _ _ _ _ _ ok, if_pos gated]

/-- A register without a field of the store waits for no commit. -/
theorem storeReg_volatile {p off : Nat} (volatile : hasNvs (fieldsAt p off) = false) (v : Word) (s : State) :
    storeReg p off v s = storeFields p off v s := by
  rw [storeReg, volatile, if_neg Bool.false_ne_true]

end Sys2Proof.Machine

/-!
PROOFS. The backup domain and the seal (R208 to R217): the two samples of a seal pulse, the registers that a master writes, the power-up
after a loss, and the RTC.
-/

namespace Sys2Proof.Machine

/-! ### The seal and the strap (R214 to R217) -/

/-- The seal state has been set: nothing else changes but the marks of the change, now or for the next start. -/
def sealSet (n : Nat) (s t : State) : Prop :=
  sealState t = n ∧ (∀ i, 3 ≤ i → i < 32 → t.flag (regAddr pBkp 0x100) i = s.flag (regAddr pBkp 0x100) i) ∧
    keepsRegs [regAddr pBkp 0x100] s t ∧ keeps [.regs, .backup, .hdrs, .links] s t ∧
    ∃ d o, t.backup = { s.backup with dirty := d, sealOff := o }

theorem sealSet_field {n : Nat} (hn : n < 4) (s : State) : sealSet n s (bkpChanged (s.setFld (regAddr pBkp 0x100) 1 2 n)) := by
  have status : (bkpChanged (s.setFld (regAddr pBkp 0x100) 1 2 n)).rd (regAddr pBkp 0x100) =
      setBits (s.rd (regAddr pBkp 0x100)) 1 2 n := State.rd_wr_same _ _ _
  refine ⟨?_, fun i hi lt => ?_, wr_keepsRegs _ _ s, ?_, true, s.backup.sealOff, rfl⟩
  · rw [sealState, State.fld, status, bits_setBits_same _ _ _ _ (by decide)]
    exact Nat.mod_eq_of_lt hn
  · rw [State.flag, status]
    exact bit_setBits_other _ (by omega) lt
  · exact keeps_mono (keeps_trans (wr_keeps _ _ s) (setBackup_keeps { s.backup with dirty := true } _)) (by decide)

theorem sealSet_off {n : Nat} {s t : State} (h : sealSet n s t) : sealSet n s (t.setBackup { t.backup with sealOff := true }) := by
  obtain ⟨value, flags, regs, parts, d, o, backup⟩ := h
  refine ⟨value, flags, regs, keeps_mono (keeps_trans parts (setBackup_keeps _ t)) (by decide), d, true, ?_⟩
  rw [State.setBackup_backup, backup]

theorem sealSet_raise {n : Nat} {s t : State} (h : sealSet n s t) : sealSet n s (raise pBkp 0 t) := by
  obtain ⟨value, flags, regs, parts, d, o, backup⟩ := h
  exact ⟨(sealState_congr (raise_rd _ _ t _)).trans value, fun i hi lt => (flag_congr (raise_rd _ _ t _) i).trans (flags i hi lt),
    fun a ha => (raise_rd _ _ t a).trans (regs a ha), keeps_mono (keeps_trans parts (raise_keeps _ _ t)) (by decide), d, o,
    (raise_backup _ _ t).trans backup⟩

theorem setSeal_spec {n : Nat} (hn : n < 4) (s : State) : sealSet n s (setSeal n s) := by
  have still (same : sealState s = n) : sealSet n s s :=
    ⟨same, fun _ _ _ => rfl, keepsRegs_refl _ _, keeps_refl _ _, s.backup.dirty, s.backup.sealOff, rfl⟩
  unfold setSeal
  by_cases same : sealState s = n
  · simp only [same, if_true]
    exact ite_all (P := sealSet n s) (sealSet_off (still same)) (still same)
  · simp only [same, if_false]
    exact ite_all (P := sealSet n s) (sealSet_off (sealSet_field hn s)) (sealSet_raise (sealSet_field hn s))

/-- A seal state that is set with its entry. -/
theorem setSeal_tamper_spec {n ev : Nat} (hn : n < 4) (hev : ev < 256) (detail : Nat) (s : State) :
    let t := tamper ev detail (setSeal n s)
    sealState t = n ∧ (∀ i, 3 ≤ i → i < 32 → t.flag (regAddr pBkp 0x100) i = s.flag (regAddr pBkp 0x100) i) ∧
      t.backup.badRun = s.backup.badRun ∧ tampered ev s t ∧ keeps [.regs, .backup, .hdrs, .links] s t := by
  intro t
  obtain ⟨value, flags, regs, parts, d, o, backup⟩ := setSeal_spec hn s
  have status : t.rd (regAddr pBkp 0x100) = (setSeal n s).rd (regAddr pBkp 0x100) := tamper_status _ _ _
  have same : sameLog s (setSeal n s) := sameLog_status regs (by rw [backup])
  refine ⟨(sealState_congr status).trans value, fun i hi lt => (flag_congr status i).trans (flags i hi lt), ?_,
    tampered_of_sameLog same (tamper_tampered hev detail _) (sameLog_refl _),
    keeps_mono (keeps_trans parts (tamper_keeps ev detail _)) (by decide)⟩
  rw [tamper_backup, tamperCount, backup]

/-- A seal pulse, first half: the sample pair of the loop. -/
def loopSampled (before after : Bool) (s : State) : State :=
  let t := s.setFlag (regAddr pBkp 0x100) 3 (!before && after)
  if !before && after then
    let again := t.backup.strapSeen && !s.flag (regAddr pBkp 0x100) 3 && sealState t != 0
    let t := t.setBackup { t.backup with badRun := 0 }
    if again then tamper 0x02 0 t else t
  else badPair before after t

/-- A seal pulse, second half: the sample of the strap. -/
def strapSampled (strap : Bool) (s : State) : State :=
  let t := s.setFlag (regAddr pBkp 0x100) 4 strap
  if t.backup.strapSeen && s.flag (regAddr pBkp 0x100) 4 != strap then tamper (if strap then 0x04 else 0x05) 0 t
  else t.setBackup { t.backup with strapSeen := true }

theorem exec_sealPulse (before after strap : Bool) (s : State) :
    exec (.sealPulse before after strap) s = .next (tokenSettle s (strapSampled strap (loopSampled before after s))) := rfl

theorem badPair_first (v : Bool) {s : State} (run : s.backup.badRun = 0) :
    badPair v v s = s.setBackup { s.backup with badRun := 1 } := by
  simp [badPair, run, State.setBackup]

theorem badPair_second (v : Bool) {s : State} (run : s.backup.badRun = 1) :
    badPair v v s = tamper 0x01 (if v then 2 else 1) (setSeal 1 (s.setBackup { s.backup with badRun := 2 })) := by
  cases v <;> simp [badPair, run, State.setBackup]

theorem loopSampled_bad (v : Bool) (s : State) : loopSampled v v s = badPair v v (s.setFlag (regAddr pBkp 0x100) 3 false) := by
  cases v <;> rfl

/-- The first pair in a row that is open or short is only counted (R214). -/
theorem loopSampled_first (v : Bool) {s : State} (run : s.backup.badRun = 0) :
    let t := loopSampled v v s
    sealState t = sealState s ∧ t.backup.badRun = 1 ∧ t.flag (regAddr pBkp 0x100) 4 = s.flag (regAddr pBkp 0x100) 4 ∧
      keepsRegs [regAddr pBkp 0x100] s t ∧ keeps [.regs, .backup] s t := by
  rw [loopSampled_bad, badPair_first v (s := s.setFlag _ _ _) run]
  exact ⟨sealState_setFlag s (by decide) _, rfl, flag_setFlag_other s _ (by decide) (by decide) _, wr_keepsRegs _ _ s,
    keeps_trans (wr_keeps _ _ s) (setBackup_keeps _ _)⟩

/-- The second one declares a break (R214). -/
theorem loopSampled_second (v : Bool) {s : State} (run : s.backup.badRun = 1) :
    let t := loopSampled v v s
    sealState t = 1 ∧ t.backup.badRun = 2 ∧ t.flag (regAddr pBkp 0x100) 3 = false ∧
      t.flag (regAddr pBkp 0x100) 4 = s.flag (regAddr pBkp 0x100) 4 ∧ tampered 0x01 s t ∧
      keeps [.regs, .backup, .hdrs, .links] s t := by
  rw [loopSampled_bad, badPair_second v (s := s.setFlag _ _ _) run]
  obtain ⟨value, flags, count, entry, parts⟩ := setSeal_tamper_spec (n := 1) (ev := 0x01) (by decide) (by decide) (if v then 2 else 1)
    ((s.setFlag (regAddr pBkp 0x100) 3 false).setBackup { s.backup with badRun := 2 })
  refine ⟨value, count, (flags 3 (by decide) (by decide)).trans (flag_setFlag_same s _ (by decide) _),
    (flags 4 (by decide) (by decide)).trans (flag_setFlag_other s _ (by decide) (by decide) _),
    tampered_of_sameLog (sameLog_status (wr_keepsRegs _ _ s) rfl) entry (sameLog_refl _),
    keeps_mono (keeps_trans (keeps_trans (wr_keeps _ _ s) (setBackup_keeps _ _)) parts) (by decide)⟩

/-- A good pair, of a loop that read bad before or not (R216). -/
theorem loopSampled_good (s : State) : loopSampled false true s =
    if (s.backup.strapSeen && !s.flag (regAddr pBkp 0x100) 3 && sealState s != 0) = true then
      tamper 0x02 0 ((s.setFlag (regAddr pBkp 0x100) 3 true).setBackup { s.backup with badRun := 0 })
    else (s.setFlag (regAddr pBkp 0x100) 3 true).setBackup { s.backup with badRun := 0 } := by
  have value' : sealState (s.setFlag (regAddr pBkp 0x100) 3 true) = sealState s := sealState_setFlag s (by decide) _
  simp [loopSampled, value']

/-- A good pair without an entry: no break stands, or the loop read good before. -/
theorem loopSampled_quiet {s : State} (h : s.flag (regAddr pBkp 0x100) 3 = true ∨ sealState s = 0) :
    loopSampled false true s = (s.setFlag (regAddr pBkp 0x100) 3 true).setBackup { s.backup with badRun := 0 } := by
  rw [loopSampled_good, if_neg]
  obtain good | intact := h
  · simp [good]
  · simp [intact]

/-- A good pair leaves the seal as it is; where it follows a bad one and a break or an unknown seal stands, it leaves an entry (R216). -/
theorem loopSampled_good_spec (s : State) :
    let t := loopSampled false true s
    sealState t = sealState s ∧ t.backup.badRun = 0 ∧ t.backup.strapSeen = s.backup.strapSeen ∧
      t.flag (regAddr pBkp 0x100) 3 = true ∧
      t.flag (regAddr pBkp 0x100) 4 = s.flag (regAddr pBkp 0x100) 4 ∧ keeps [.regs, .backup, .hdrs, .links] s t ∧
      (s.backup.strapSeen = true → s.flag (regAddr pBkp 0x100) 3 = false → sealState s ≠ 0 → tampered 0x02 s t) ∧
      (s.flag (regAddr pBkp 0x100) 3 = true ∨ sealState s = 0 → keepsRegs [regAddr pBkp 0x100] s t ∧ sameLog s t) := by
  let u := (s.setFlag (regAddr pBkp 0x100) 3 true).setBackup { s.backup with badRun := 0 }
  have regs : keepsRegs [regAddr pBkp 0x100] s u := wr_keepsRegs _ _ s
  have log : sameLog s u := sameLog_status regs rfl
  have parts : keeps [.regs, .backup] s u := keeps_trans (wr_keeps _ _ s) (setBackup_keeps _ _)
  have value : sealState u = sealState s := sealState_setFlag s (by decide) _
  have loop : u.flag (regAddr pBkp 0x100) 3 = true := flag_setFlag_same s _ (by decide) _
  have strap : u.flag (regAddr pBkp 0x100) 4 = s.flag (regAddr pBkp 0x100) 4 := flag_setFlag_other s _ (by decide) (by decide) _
  by_cases quiet : s.flag (regAddr pBkp 0x100) 3 = true ∨ sealState s = 0
  · rw [loopSampled_quiet quiet]
    exact ⟨value, rfl, rfl, loop, strap, keeps_mono parts (by decide), fun _ bad latched => absurd quiet (by simp [bad, latched]),
      fun _ => ⟨regs, log⟩⟩
  · rw [loopSampled_good]
    by_cases seen : s.backup.strapSeen = true
    · rw [if_pos (by simpa [seen] using quiet)]
      have status : (tamper 0x02 0 u).rd (regAddr pBkp 0x100) = u.rd (regAddr pBkp 0x100) := tamper_status _ _ _
      exact ⟨(sealState_congr status).trans value, congrArg BackupSt.badRun (tamper_backup 0x02 0 u),
        (congrArg BackupSt.strapSeen (tamper_backup 0x02 0 u)).trans rfl, (flag_congr status 3).trans loop,
        (flag_congr status 4).trans strap,
        keeps_mono (keeps_trans parts (tamper_keeps _ _ u)) (by decide),
        fun _ _ _ => tampered_of_sameLog log (tamper_tampered (by decide) 0 u) (sameLog_refl _), fun h => absurd h quiet⟩
    · rw [if_neg (by simp [seen])]
      exact ⟨value, rfl, rfl, loop, strap, keeps_mono parts (by decide), fun h => absurd h seen, fun h => absurd h quiet⟩

/-- A strap that reads as before leaves the seal, the loop and the log as they are. -/
theorem strapSampled_same {st : Bool} {s : State} (same : s.flag (regAddr pBkp 0x100) 4 = st) :
    let t := strapSampled st s
    sealState t = sealState s ∧ t.backup.badRun = s.backup.badRun ∧ t.flag (regAddr pBkp 0x100) 3 = s.flag (regAddr pBkp 0x100) 3 ∧
      keepsRegs [regAddr pBkp 0x100] s t ∧ sameLog s t ∧ keeps [.regs, .backup] s t := by
  have run : strapSampled st s = (s.setFlag (regAddr pBkp 0x100) 4 st).setBackup { s.backup with strapSeen := true } := by
    simp [strapSampled, same]
  rw [run]
  exact ⟨sealState_setFlag s (by decide) _, rfl, flag_setFlag_other s _ (by decide) (by decide) _, wr_keepsRegs _ _ s,
    sameLog_status (wr_keepsRegs _ _ s) rfl, keeps_trans (wr_keeps _ _ s) (setBackup_keeps _ _)⟩

/-- A change of the strap is an entry (R217). -/
theorem strapSampled_change {st : Bool} {s : State} (seen : s.backup.strapSeen = true) (change : s.flag (regAddr pBkp 0x100) 4 = !st) :
    let t := strapSampled st s
    t.flag (regAddr pBkp 0x100) 4 = st ∧ tampered (if st then 0x04 else 0x05) s t ∧ keeps [.regs, .backup, .hdrs, .links] s t := by
  have run : strapSampled st s = tamper (if st then 0x04 else 0x05) 0 (s.setFlag (regAddr pBkp 0x100) 4 st) := by
    simp [strapSampled, seen, change]
  have small : (if st then 0x04 else 0x05) < 256 := by cases st <;> decide
  rw [run]
  exact ⟨(flag_congr (tamper_status _ _ _) 4).trans (flag_setFlag_same s _ (by decide) _),
    tampered_of_sameLog (sameLog_status (wr_keepsRegs _ _ s) rfl) (tamper_tampered small 0 _) (sameLog_refl _),
    keeps_mono (keeps_trans (wr_keeps _ _ s) (tamper_keeps _ _ _)) (by decide)⟩

section
variable {s : State} {st : Bool}

/-- The second pair in a row that is open or short. -/
theorem sealPulse_second (v : Bool) (run : s.backup.badRun = 1) (strap : s.flag (regAddr pBkp 0x100) 4 = st) :
    After (exec (.sealPulse v v st) s) fun t => keeps [.regs, .backup, .hdrs, .links, .free] s t ∧ sealState t = 1 ∧
      t.backup.badRun = 2 ∧ t.flag (regAddr pBkp 0x100) 3 = false ∧ tampered 0x01 s t := by
  refine ⟨_, exec_sealPulse _ _ _ s, ?_⟩
  obtain ⟨broken, count, loop, still, entry, parts⟩ := loopSampled_second v run
  generalize loopSampled v v s = u at broken count loop still entry parts ⊢
  obtain ⟨value, count', loop', -, log, parts'⟩ := strapSampled_same (still.trans strap)
  generalize strapSampled st u = w at value count' loop' log parts' ⊢
  have status : (tokenSettle s w).rd (regAddr pBkp 0x100) = w.rd (regAddr pBkp 0x100) := tokenSettle_rd _ _ _
  refine ⟨keeps_mono (keeps_trans (keeps_trans parts parts') (tokenSettle_keeps s w)) (by decide),
    (sealState_congr status).trans (value.trans broken), ?_, (flag_congr status 3).trans (loop'.trans loop),
    tampered_of_sameLog (sameLog_refl s) entry (sameLog_trans log (sameLog_tokenSettle s w))⟩
  rw [tokenSettle_backup, count', count]

/-- The first one. -/
theorem sealPulse_first (v : Bool) (run : s.backup.badRun = 0) (strap : s.flag (regAddr pBkp 0x100) 4 = st) :
    After (exec (.sealPulse v v st) s) fun t => keeps [.regs, .backup, .hdrs, .links, .free] s t ∧ sealState t = sealState s ∧
      t.backup.badRun = 1 ∧ keepsRegs [regAddr pBkp 0x100] s t := by
  refine ⟨_, exec_sealPulse _ _ _ s, ?_⟩
  obtain ⟨kept, count, still, regs, parts⟩ := loopSampled_first v run
  generalize loopSampled v v s = u at kept count still regs parts ⊢
  obtain ⟨value, count', -, regs', -, parts'⟩ := strapSampled_same (still.trans strap)
  generalize strapSampled st u = w at value count' regs' parts' ⊢
  refine ⟨keeps_mono (keeps_trans (keeps_trans parts parts') (tokenSettle_keeps s w)) (by decide),
    (sealState_congr (tokenSettle_rd _ _ _)).trans (value.trans kept), ?_,
    fun a ha => (tokenSettle_rd s w a).trans ((regs' a ha).trans (regs a ha))⟩
  rw [tokenSettle_backup, count', count]

/-- A good pair. -/
theorem sealPulse_good (seen : s.backup.strapSeen = true) (strap : s.flag (regAddr pBkp 0x100) 4 = st) :
    After (exec (.sealPulse false true st) s) fun t => keeps [.regs, .backup, .hdrs, .links] s t ∧ sealState t = sealState s ∧
      t.backup.badRun = 0 ∧ t.flag (regAddr pBkp 0x100) 3 = true ∧
      (s.flag (regAddr pBkp 0x100) 3 = false → sealState s ≠ 0 → tampered 0x02 s t) ∧
      ((s.flag (regAddr pBkp 0x100) 3 = true ∨ sealState s = 0) → keepsRegs [regAddr pBkp 0x100] s t) := by
  refine ⟨_, exec_sealPulse _ _ _ s, ?_⟩
  obtain ⟨kept, count, -, loop, still, parts, entry, quiet⟩ := loopSampled_good_spec s
  generalize loopSampled false true s = u at kept count loop still parts entry quiet ⊢
  obtain ⟨value, count', loop', regs', log, parts'⟩ := strapSampled_same (still.trans strap)
  generalize strapSampled st u = w at value count' loop' regs' log parts' ⊢
  have status : (tokenSettle s w).rd (regAddr pBkp 0x100) = w.rd (regAddr pBkp 0x100) := tokenSettle_rd _ _ _
  refine ⟨keeps_mono (keeps_trans (keeps_trans parts parts') (tokenSettle_keeps s w)) (by decide),
    (sealState_congr status).trans (value.trans kept), ?_, (flag_congr status 3).trans (loop'.trans loop),
    fun bad latched => tampered_of_sameLog (sameLog_refl s) (entry seen bad latched) (sameLog_trans log (sameLog_tokenSettle s w)),
    fun h a ha => (tokenSettle_rd s w a).trans ((regs' a ha).trans ((quiet h).1 a ha))⟩
  rw [tokenSettle_backup, count', count]

/-- A good pair after a good one, with a strap that has changed. -/
theorem sealPulse_strap (loop : s.flag (regAddr pBkp 0x100) 3 = true) (seen : s.backup.strapSeen = true)
    (change : s.flag (regAddr pBkp 0x100) 4 = !st) :
    After (exec (.sealPulse false true st) s) fun t => keeps [.regs, .backup, .hdrs, .links, .free] s t ∧
      t.flag (regAddr pBkp 0x100) 4 = st ∧ tampered (if st then 0x04 else 0x05) s t := by
  refine ⟨_, exec_sealPulse _ _ _ s, ?_⟩
  obtain ⟨-, -, seen', -, still, parts, -, quiet⟩ := loopSampled_good_spec s
  obtain ⟨-, log⟩ := quiet (.inl loop)
  generalize loopSampled false true s = u at seen' still parts log ⊢
  obtain ⟨strap, entry, parts'⟩ := strapSampled_change (seen'.trans seen) (still.trans change)
  generalize strapSampled st u = w at strap entry parts' ⊢
  exact ⟨keeps_mono (keeps_trans (keeps_trans parts parts') (tokenSettle_keeps s w)) (by decide),
    (flag_congr (tokenSettle_rd _ _ _) 4).trans strap, tampered_of_sameLog log entry (sameLog_tokenSettle s w)⟩

end

/-! ### The registers of the backup domain (R213, R214, R216) -/

section
variable {m : AB} {s : State}

/-- An accepted write of the pulse period. -/
theorem writeReg_sealPeriod {v : Word} (ok : admits m pBkp 0x118 (plain pBkp 0x118) v s = true) :
    let t := writeReg m pBkp 0x118 (plain pBkp 0x118) v s
    t.last = .done ∧ t.rp pBkp 0x118 = mergeFields (fieldsAt pBkp 0x118) (s.rp pBkp 0x118) v ∧
      keepsRegs (writeRegs pBkp 0x118) s t ∧ keeps [.regs, .last] s t := by
  obtain ⟨done, value, regs, -⟩ := writeReg_stores ok rfl (by decide)
  refine ⟨done, value, regs, ?_⟩
  rw [writeReg_gated ok (by rfl)]
  have stored := storeReg_volatile (p := pBkp) (off := 0x118) (by decide) v (s.bump (regAddr pPrs 0x110) 1)
  have parts : keeps [.regs] s (storeReg pBkp 0x118 v (s.bump (regAddr pPrs 0x110) 1)) := by
    rw [stored]
    exact keeps_mono (keeps_trans (wr_keeps _ _ s) (wr_keeps _ _ _)) (by decide)
  exact keeps_trans parts (ended_keeps _ _ _ _)

/-- An accepted write of the RTC sets it (R213). -/
theorem writeReg_rtcSet {v : Word} (ok : admits m pBkp 0x114 rtcSetHandler v s = true) :
    let t := writeReg m pBkp 0x114 rtcSetHandler v s
    t.last = .done ∧ t.backup.rtcSec = (s.rp pBkp 0x110).toNat * 2 ^ 32 + v.toNat ∧ t.backup.rtcSub = 0 ∧ rtcValid t = true ∧
      keepsRegs [regAddr pBkp 0x100, regAddr pBkp 0x114, regAddr pPrs 0x110] s t ∧ keeps [.regs, .last, .backup] s t := by
  rw [writeReg_gated ok (by rfl)]
  let u := storeFields pBkp 0x114 v (s.bump (regAddr pPrs 0x110) 1)
  have regs : keepsRegs [regAddr pPrs 0x110, regAddr pBkp 0x114] s u := keepsRegs_trans (wr_keepsRegs _ _ s) (wr_keepsRegs _ _ _)
  have high : u.rp pBkp 0x110 = s.rp pBkp 0x110 := regs _ (by decide)
  have parts : keeps [.regs] s u := keeps_mono (keeps_trans (wr_keeps _ _ s) (wr_keeps _ _ _)) (by decide)
  have run : rtcSetHandler.run m v (s.bump (regAddr pPrs 0x110) 1) =
      (u.setFlag (regAddr pBkp 0x100) 0 true).setBackup { u.backup with
        rtcSec := (s.rp pBkp 0x110).toNat * 2 ^ 32 + v.toNat, rtcSub := 0, rtcAcc := 0, dirty := true } := by
    rw [← high]
    have stored := storeReg_volatile (p := pBkp) (off := 0x114) (by decide) v (s.bump (regAddr pPrs 0x110) 1)
    simp only [rtcSetHandler, stored]
    rfl
  rw [run]
  refine ⟨rfl, rfl, rfl, flag_setFlag_same u _ (by decide) true, ?_, ?_⟩
  · exact keepsRegs_mono (keepsRegs_trans regs (wr_keepsRegs _ _ u)) (by simp)
  · exact keeps_mono (keeps_trans (keeps_trans (keeps_trans parts (wr_keeps _ _ u)) (setBackup_keeps _ _)) (ended_keeps _ _ _ _))
      (by decide)

/-- An accepted acknowledgement makes the seal INTACT with an entry (R216). -/
theorem writeReg_sealAck (ok : admits m pBkp 0x11C sealAckHandler (field 0 1 1) s = true) :
    let t := writeReg m pBkp 0x11C sealAckHandler (field 0 1 1) s
    keeps [.regs, .backup, .last, .hdrs, .links] s t ∧ t.last = .done ∧ sealState t = 0 ∧ tampered 0x03 s t := by
  have run (u : State) : sealAckHandler.run m (field 0 1 1) u = tokenSettle u (tamper 0x03 0 (setSeal 0 u)) := rfl
  rw [writeReg_gated ok (by decide), run]
  have used : sameLog s (s.bump (regAddr pPrs 0x110) 1) :=
    sameLog_of_keepsRegs (keepsRegs_mono (wr_keepsRegs (regAddr pPrs 0x110) _ s) (by simp)) rfl
  have counted : keeps [.regs] s (s.bump (regAddr pPrs 0x110) 1) := wr_keeps _ _ s
  generalize s.bump (regAddr pPrs 0x110) 1 = u at used counted ⊢
  obtain ⟨value, -, -, entry, parts⟩ := setSeal_tamper_spec (n := 0) (ev := 0x03) (by decide) (by decide) 0 u
  generalize tamper 0x03 0 (setSeal 0 u) = w at value entry parts ⊢
  exact ⟨keeps_mono (keeps_trans (keeps_trans (keeps_trans counted parts) (tokenSettle_keeps u w)) (ended_keeps _ _ _ _)) (by decide),
    rfl, (sealState_congr (tokenSettle_rd _ _ _)).trans value, tampered_of_sameLog used entry (sameLog_tokenSettle u w)⟩

end

/-! ### Supply and RTC (R208 to R213) -/

/-- A table without the keys that `p` names. -/
theorem tblGet_filter_not {V : Type} (d : V) (p : Nat → Bool) (k : Nat) (t : Tbl V) :
    tblGet d k (t.filter fun e => !p e.1) = if p k then d else tblGet d k t := by
  induction t with
  | nil => simp [tblGet]
  | cons e t ih =>
    obtain ⟨j, v⟩ := e
    by_cases key : j = k
    · subst key
      cases gone : p j with
      | true => simpa [gone] using ih
      | false => simp [tblGet, gone]
    · cases gone : p j with
      | true => simpa [gone, tblGet, key] using ih
      | false => simpa [gone, tblGet, key] using ih

/-- A register that the backup domain holds and that a loss of its state clears: those of the BKP page below the record's copies. -/
def bkpHolds (a : Nat) : Bool := a / 0x1000 == pBkp && decide (a % 0x1000 < 0x400)

/-- The backup domain as it powers up after a loss of its state, before its first entry (R208). -/
def bkpLost (s : State) : State :=
  let u := { s with
    regs := s.regs.filter (fun e => !bkpHolds e.1)
    power := { s.power with failRec := (0, 0) }
    backup := { State.reset.backup with tamperSeq := 0, sealOff := true } }
  ((u.wp pBkp 0x100 0x24).wp pBkp 0x118 250).wp pBkp 0x140 20

/-- The copies of the backup record after a loss of retention. -/
def copiesLost (s : State) : State := (List.range 16).foldl (fun s i => lostWord s (regAddr pBkp (0x400 + 4 * i))) s

theorem exec_backupPowerUp {s : State} (unpowered : s.power.phase = .unpowered) :
    exec .backupPowerUp s = .next (copiesLost (tamper 0x10 0 (bkpLost s))) := by
  have run : exec .backupPowerUp s =
      if s.power.phase ≠ .unpowered then .next s else .next (copiesLost (tamper 0x10 0 (bkpLost s))) := rfl
  rw [run, if_neg (not_not_intro unpowered)]

theorem bkpLost_keeps (s : State) : keeps [.regs, .backup, .power] s (bkpLost s) := by
  intro p h
  cases p with
  | regs => exact absurd (by decide) h
  | backup => exact absurd (by decide) h
  | power => exact absurd (by decide) h
  | _ => rfl

/-- What the loss of its state leaves of a register that is not written anew. -/
theorem bkpLost_rd {s : State} {a : Nat} (ha : a ∉ [regAddr pBkp 0x100, regAddr pBkp 0x118, regAddr pBkp 0x140]) :
    (bkpLost s).rd a = if bkpHolds a then resetWord a else s.rd a := by
  simp only [List.mem_cons, List.not_mem_nil, or_false, not_or] at ha
  obtain ⟨h0, h1, h2⟩ := ha
  exact (State.rd_wr_other _ h2 _).trans ((State.rd_wr_other _ h1 _).trans ((State.rd_wr_other _ h0 _).trans
    (tblGet_filter_not _ bkpHolds a s.regs)))

theorem bkpLost_status (s : State) : (bkpLost s).rd (regAddr pBkp 0x100) = 0x24 :=
  (State.rd_wr_other _ (by decide) _).trans ((State.rd_wr_other _ (by decide) _).trans (State.rd_wr_same _ _ _))

/-- The tamper log starts over. -/
theorem bkpLost_pointer (s : State) : (bkpLost s).fld (regAddr pBkp 0x138) 0 4 = 0 := by
  rw [State.fld, bkpLost_rd (by decide), if_pos (by decide)]
  decide

theorem bkpLost_tampers (s : State) : (bkpLost s).rp pBkp 0x12C = 0 := by
  rw [State.rp, bkpLost_rd (by decide), if_pos (by decide)]
  decide

theorem takeFree_keeps (s : State) : keeps [.free] s s.takeFree.2 := by
  intro p h
  cases p with
  | free => exact absurd (by decide) h
  | _ => rfl

/-- A word that retention may have lost. -/
theorem lostWord_frame (s : State) (a : Nat) : keeps [.regs, .free] s (lostWord s a) ∧ keepsRegs [a] s (lostWord s a) := by
  have free : keeps [.free] s s.takeFree.2.takeFree.2 := keeps_mono (keeps_trans (takeFree_keeps s) (takeFree_keeps _)) (by decide)
  exact ite_all (P := fun t => keeps [.regs, .free] s t ∧ keepsRegs [a] s t)
    ⟨keeps_mono free (by decide), keepsRegs_mono (keepsRegs_of_keeps free (by decide)) (by simp)⟩
    ⟨keeps_mono (keeps_trans free (wr_keeps a _ _)) (by decide), wr_keepsRegs a _ s.takeFree.2.takeFree.2⟩

/-- The loss of retention reaches the copies only. -/
theorem copiesLost_frame (s : State) : keeps [.regs, .free] s (copiesLost s) ∧
    (∀ off, off < 0x400 → (copiesLost s).rp pBkp off = s.rp pBkp off) ∧
    (∀ a, a / 0x1000 ≠ pBkp → (copiesLost s).rd a = s.rd a) := by
  obtain ⟨parts, regs⟩ := foldl_frame (fun s i => lostWord s (regAddr pBkp (0x400 + 4 * i))) (fun i => regAddr pBkp (0x400 + 4 * i))
    (fun t i => lostWord_frame t _) (List.range 16) s
  refine ⟨parts, fun off low => regs _ fun mem => ?_, fun a page => regs a fun mem => page ?_⟩
  · obtain ⟨i, -, same⟩ := List.mem_map.mp mem
    rw [regAddr_inj] at same
    omega
  · obtain ⟨i, range, rfl⟩ := List.mem_map.mp mem
    have lt := List.mem_range.mp range
    simp only [regAddr, pBkp]
    omega

/-- Power that returns after a loss of the backup domain (R208). -/
theorem backupPowerUp_spec {s : State} (unpowered : s.power.phase = .unpowered) :
    After (exec .backupPowerUp s) fun t => t.backup.rtcSec = 0 ∧ rtcValid t = false ∧ sealState t = 2 ∧
      t.flag (regAddr pBkp 0x100) 5 = true ∧ bits (t.rp pBkp 0x200) 0 8 = 0x10 ∧ t.rp pBkp 0x12C = 1 ∧ t.backup.sealOff = true ∧
      t.backup.tamperOff = true ∧
      t.power = { s.power with failRec := (0, 0) } ∧ (∀ a, a / 0x1000 ≠ pBkp → t.rd a = s.rd a) ∧
      keeps [.regs, .backup, .power, .free] s t := by
  refine ⟨_, exec_backupPowerUp unpowered, ?_⟩
  let u := bkpLost s
  let w := tamper 0x10 0 u
  have off : u.logicOn = false := by
    have power : u.power = { s.power with failRec := (0, 0) } := rfl
    simp [State.logicOn, State.running, power, unpowered]
  obtain ⟨parts, low, pages⟩ := copiesLost_frame w
  have backup : (copiesLost w).backup = tamperCount u := (parts .backup (by decide)).trans (tamper_backup 0x10 0 u)
  have logged : keeps [.regs, .backup] u w := tamper_keeps_off off 0x10 0
  have power : (copiesLost w).power = u.power := (parts .power (by decide)).trans (logged .power (by decide))
  have status : (copiesLost w).rd (regAddr pBkp 0x100) = 0x24 :=
    (low 0x100 (by decide)).trans ((tamper_status 0x10 0 u).trans (bkpLost_status s))
  obtain ⟨entry, -, -, -, -, count⟩ := tamper_tampered (ev := 0x10) (by decide) 0 u
  rw [bkpLost_pointer] at entry
  refine ⟨?_, congrArg (bit · 0) status, congrArg (bits · 1 2) status, congrArg (bit · 5) status, ?_, ?_, ?_, ?_, power,
    fun a page => ?_, keeps_mono (keeps_trans (keeps_trans (bkpLost_keeps s) logged) parts) (by decide)⟩
  · rw [backup]
    rfl
  · rw [low 0x200 (by decide)]
    exact entry
  · rw [low 0x12C (by decide), count, bkpLost_tampers]
    rfl
  · rw [backup]
    rfl
  · rw [backup, tamperCount, off]
    rfl
  · have apart {o : Nat} (ho : o < 0x1000) : a ≠ regAddr pBkp o := by
      rintro rfl
      exact page (by simp only [regAddr, pBkp]; omega)
    have entryApart : a ∉ tamperRegs u := fun mem => by
      obtain ⟨o, same, -, high⟩ := of_mem_tamperRegs mem
      exact apart (by omega) same
    rw [pages a page, tamper_keepsRegs 0x10 0 u a entryApart, bkpLost_rd (by simp [apart])]
    simp [bkpHolds, page]

/-- A measurement of VBAT (R209). -/
theorem measureVbat_spec {mv : Nat} (hmv : mv < 4096) (s : State) :
    let t := measureVbat mv s
    t.rp pBkp 0x120 = word mv ∧ t.flag (regAddr pBkp 0x100) 6 = decide (mv < 1900) ∧
      (mv < 1900 → s.flag (regAddr pBkp 0x100) 6 = false → intRawBit t pBkp 2 = true) ∧
      keepsRegs [regAddr pBkp 0x120, regAddr pBkp 0x100] s t ∧ keepsHdrs [pBkp] s t ∧ keeps [.regs, .hdrs, .links] s t := by
  let u := (s.wp pBkp 0x120 (word mv)).setFlag (regAddr pBkp 0x100) 6 (decide (mv < 1900))
  have run : measureVbat mv s = if mv < 1900 ∧ s.flag (regAddr pBkp 0x100) 6 = false then raise pBkp 2 u else u := by
    have whole : (if 4095 < mv then 4095 else mv) = mv := if_neg (by omega)
    rw [measureVbat, whole]
  have value : u.rp pBkp 0x120 = word mv := (rd_setFlag_other _ (by decide) _ _).trans (State.rd_wr_same _ _ _)
  have low : u.flag (regAddr pBkp 0x100) 6 = decide (mv < 1900) := flag_setFlag_same _ _ (by decide) _
  have regs : keepsRegs [regAddr pBkp 0x120, regAddr pBkp 0x100] s u := keepsRegs_trans (wr_keepsRegs _ _ s) (wr_keepsRegs _ _ _)
  have parts : keeps [.regs] s u := keeps_mono (keeps_trans (wr_keeps _ _ s) (wr_keeps _ _ _)) (by decide)
  have hdrs : keepsHdrs [] s u := keepsHdrs_of_keeps parts (by decide)
  rw [run]
  by_cases falls : mv < 1900 ∧ s.flag (regAddr pBkp 0x100) 6 = false
  · rw [if_pos falls]
    exact ⟨(raise_rd _ _ u _).trans value, (flag_congr (raise_rd _ _ u _) 6).trans low, fun _ _ => raise_intRaw _ _ _ (by decide),
      fun a ha => (raise_rd _ _ u a).trans (regs a ha), keepsHdrs_trans hdrs (raise_keepsHdrs _ _ u),
      keeps_trans parts (raise_keeps _ _ u)⟩
  · rw [if_neg falls]
    exact ⟨value, low, fun below before => absurd ⟨below, before⟩ falls, regs, fun p _ => hdrs p (by simp),
      keeps_mono parts (by decide)⟩

/-- The RTC takes line time (R212). -/
theorem rtcFromTsu_spec (s : State) :
    let t := rtcFromTsu s
    t.backup.rtcSec = s.nowSec % 2 ^ 64 ∧
      t.backup.rtcSub = s.nowNs * 32768 / 1000000000 ∧ rtcValid t = true ∧ keepsRegs [regAddr pBkp 0x100] s t ∧
      keeps [.regs, .backup] s t := by
  let b : BackupSt := { s.backup with
    rtcSec := s.nowSec % 2 ^ 64, rtcSub := s.nowNs * 32768 / 1000000000, rtcAcc := 0, dirty := s.backup.dirty || !rtcValid s }
  exact ⟨rfl, rfl, flag_setFlag_same (s.setBackup b) _ (by decide) true, wr_keepsRegs _ _ (s.setBackup b),
    keeps_mono (keeps_trans (setBackup_keeps b s) (wr_keeps _ _ _)) (by decide)⟩

/-! ### The commands of the backup domain while the logic domain runs -/

section
variable {s : State} (on : s.running = true)
include on

theorem exec_vbatMeasure (mv : Nat) : exec (.vbatMeasure mv) s = .next (measureVbat mv s) := by
  have row : exec (.vbatMeasure mv) s = execVbatMeasure mv s := rfl
  rw [row, execVbatMeasure, whenOn_running on, if_pos on]

theorem exec_rtcLineLoad (line : s.tsu.state = .line) : exec .rtcLineLoad s = .next (rtcFromTsu s) := by
  have row : exec .rtcLineLoad s = execRtcLineLoad s := rfl
  rw [row, execRtcLineLoad, whenOn_running on, if_pos ⟨on, line⟩]

theorem exec_rtcSet (m : AB) (v : Word) : exec (.rtcSet m v) s = .next (writeReg m pBkp 0x114 rtcSetHandler v s) := by
  have row : exec (.rtcSet m v) s = execRtcSet m v s := rfl
  rw [row, execRtcSet, whenOn_running on]

theorem exec_sealPeriodWrite (m : AB) (v : Word) :
    exec (.sealPeriodWrite m v) s = .next (writeReg m pBkp 0x118 (plain pBkp 0x118) v s) := by
  have row : exec (.sealPeriodWrite m v) s = execSealPeriodWrite m v s := rfl
  rw [row, execSealPeriodWrite, whenOn_running on]

theorem exec_sealAck (m : AB) : exec (.sealAck m) s = .next (writeReg m pBkp 0x11C sealAckHandler (field 0 1 1) s) := by
  have row : exec (.sealAck m) s = execSealAck m s := rfl
  rw [row, execSealAck, whenOn_running on]

end

/-- Settles O38: the supply and the RTC by the state each command leaves, the seal by the two halves of a pulse (`exec_sealPulse`) and by
what a tamper entry writes (`tamper_tampered`). -/
theorem backupDomainAndSeal : Obligations.BackupDomainAndSeal := by
  refine ⟨fun s => ⟨backupPowerUp_spec, fun on mv hmv => ⟨_, exec_vbatMeasure on mv, measureVbat_spec hmv s⟩,
      fun on line => ⟨_, exec_rtcLineLoad on line, rtcFromTsu_spec s⟩,
      fun on m v ok => ⟨_, exec_rtcSet on m v, writeReg_rtcSet ok⟩, fun on line m v reach => ⟨_, exec_rtcSet on m v, ?_⟩⟩,
    fun s => ⟨fun v st run _ strap => sealPulse_second v run strap, fun v st run _ strap => sealPulse_first v run strap,
      fun st seen strap => sealPulse_good seen strap, fun st loop seen change => sealPulse_strap loop seen change,
      fun on m v ok => ⟨_, exec_sealPeriodWrite on m v, writeReg_sealPeriod ok⟩,
      fun on m ok => ⟨_, exec_sealAck on m, writeReg_sealAck ok⟩⟩⟩
  have held : rtcSetHandler.range m v s = true := beq_iff_eq.mpr line
  rw [writeReg_outOfRange reach (by rw [held, Bool.or_true])]
  exact refuseWrite_range m _ _ _ (by decide) s

end Sys2Proof.Machine

/-!
PROOFS. Presses, press windows and the clear of the tamper log (R218, R220, R224).
-/

namespace Sys2Proof.Machine

/-! ### Press windows (R218, R220) -/

/-- A press is counted, in every mode. -/
def pressCounted (s : State) : State := (s.bump (regAddr pBkp 0x130) 1).setBackup { s.backup with dirty := true }

/-- A press while the logic runs opens a window of its full length. -/
def windowOpened (s : State) : State :=
  (pressCounted s).setBackup { (pressCounted s).backup with pressUs := (pressCounted s).fld (regAddr pPrs 0x104) 0 7 * 1000000 }

theorem exec_presencePress (s : State) : exec .presencePress s =
    if !(pressCounted s).running then .next (pressCounted s) else .next (tokenSettle s (windowOpened s)) := rfl

theorem exec_presencePress_on {s : State} (on : s.running = true) : exec .presencePress s = .next (tokenSettle s (windowOpened s)) := by
  have still : (pressCounted s).running = true := on
  rw [exec_presencePress, still, Bool.not_true, if_neg Bool.false_ne_true]

theorem exec_presencePress_off {s : State} (off : s.running = false) : exec .presencePress s = .next (pressCounted s) := by
  have still : (pressCounted s).running = false := off
  rw [exec_presencePress, still, Bool.not_false, if_pos rfl]

theorem pressCounted_keeps (s : State) : keeps [.regs, .backup] s (pressCounted s) :=
  keeps_trans (wr_keeps _ _ s) (setBackup_keeps _ _)

theorem windowOpened_keeps (s : State) : keeps [.regs, .backup] s (windowOpened s) :=
  keeps_mono (keeps_trans (pressCounted_keeps s) (setBackup_keeps _ _)) (by decide)

/-- The count of presses. -/
theorem pressCounted_rd (s : State) : (pressCounted s).rp pBkp 0x130 = s.rp pBkp 0x130 + 1 ∧
    keepsRegs [regAddr pBkp 0x130] s (pressCounted s) :=
  ⟨State.rd_wr_same _ _ _, wr_keepsRegs _ _ s⟩

/-- A token is valid while a press window is open. -/
theorem present_of_pressUs {s : State} (h : 0 < s.backup.pressUs) : s.present = true := by
  simp [State.present, State.pressOpen, h]

/-- A press while the logic runs. -/
theorem windowOpened_spec {s : State} (on : s.running = true) :
    let t := tokenSettle s (windowOpened s)
    t.backup.pressUs = s.fld (regAddr pPrs 0x104) 0 7 * 1000000 ∧
      (0 < s.fld (regAddr pPrs 0x104) 0 7 → t.present = true ∧ (s.present = false → intRawBit t pPrs 0 = true)) ∧
      keepsHdrs [pPrs] s t ∧ keeps [.regs, .backup, .hdrs, .links] s t := by
  have field : (pressCounted s).rd (regAddr pPrs 0x104) = s.rd (regAddr pPrs 0x104) := State.rd_wr_other s (by decide) _
  have length : (windowOpened s).backup.pressUs = s.fld (regAddr pPrs 0x104) 0 7 * 1000000 := by
    rw [windowOpened, State.setBackup_backup, State.fld, field, State.fld]
  have settled : (tokenSettle s (windowOpened s)).backup = (windowOpened s).backup := tokenSettle_backup _ _
  have parts := windowOpened_keeps s
  refine ⟨by rw [settled, length], fun long => ?_, ?_, keeps_trans parts (tokenSettle_keeps s _)⟩
  · have opens : 0 < (windowOpened s).backup.pressUs := by omega
    exact ⟨present_of_pressUs (by rwa [settled]), tokenSettle_opens on (present_of_pressUs opens)⟩
  · exact keepsHdrs_trans (keepsHdrs_of_keeps parts (by decide)) (tokenSettle_signals s _).2

/-- The end of a press window leaves the strap token, if there is one. -/
theorem closeWindow_spec (s : State) :
    (closeWindow s).backup = { s.backup with pressUs := 0 } ∧ keepsRegs [] s (closeWindow s) ∧ keepsHdrs [pPrs] s (closeWindow s) ∧
      keeps [.backup, .hdrs, .links] s (closeWindow s) := by
  let u := s.setBackup { s.backup with pressUs := 0 }
  have parts : keeps [.backup] s u := setBackup_keeps _ s
  exact ⟨tokenSettle_backup s u, fun a _ => tokenSettle_rd s u a,
    keepsHdrs_trans (keepsHdrs_of_keeps parts (by decide)) (tokenSettle_signals s u).2, keeps_trans parts (tokenSettle_keeps s u)⟩

/-- A window that was the only token takes it away. -/
theorem closeWindow_closes {s : State} (on : s.running = true) (before : s.present = true) (strap : s.strapToken = false) :
    intRawBit (closeWindow s) pPrs 1 = true := by
  have now : (s.setBackup { s.backup with pressUs := 0 }).present = false := by
    rw [State.present, Bool.or_eq_false_iff]
    exact ⟨rfl, strap⟩
  exact tokenSettle_closes on now before

/-! ### The clear of the tamper log (R224) -/

/-- Every entry of the tamper log loses VALID. -/
def entriesCleared (s : State) : State :=
  (List.range 16).foldl (fun s n => s.setFlag (regAddr pBkp (0x200 + 8 * n)) 31 false) s

theorem entriesCleared_frame (s : State) : keeps [.regs] s (entriesCleared s) ∧
    keepsRegs ((List.range 16).map fun n => regAddr pBkp (0x200 + 8 * n)) s (entriesCleared s) :=
  foldl_frame _ _ (fun t _ => ⟨wr_keeps _ _ t, wr_keepsRegs _ _ t⟩) _ s

/-- VALID of an entry, once lowered, stays low while the others are. -/
theorem foldl_setFlag_low (l : List Nat) {c : Nat} (s : State) (h : c ∈ l ∨ s.flag c 31 = false) :
    (l.foldl (fun s a => s.setFlag a 31 false) s).flag c 31 = false := by
  induction l generalizing s with
  | nil => exact h.resolve_left List.not_mem_nil
  | cons a l ih =>
    refine ih _ ?_
    rw [List.mem_cons, or_assoc] at h
    obtain here | there | low := h
    · exact .inr (flag_setFlag_low s (by decide) (.inl here))
    · exact .inl there
    · exact .inr (flag_setFlag_low s (by decide) (.inr low))

theorem entriesCleared_flag (s : State) {n : Nat} (hn : n < 16) :
    (entriesCleared s).flag (regAddr pBkp (0x200 + 8 * n)) 31 = false := by
  have fold : entriesCleared s =
      ((List.range 16).map fun n => regAddr pBkp (0x200 + 8 * n)).foldl (fun s a => s.setFlag a 31 false) s := by
    rw [List.foldl_map, entriesCleared]
  rw [fold]
  exact foldl_setFlag_low _ s (.inl (List.mem_map.mpr ⟨n, List.mem_range.mpr hn, rfl⟩))

/-- An accepted clear leaves the entry of the clear as the only valid one. -/
theorem writeReg_tamperClear {m : AB} {s : State} (ok : admits m pBkp 0x13C tamperClrHandler (field 0 1 1) s = true) :
    let t := writeReg m pBkp 0x13C tamperClrHandler (field 0 1 1) s
    keeps [.regs, .backup, .last, .hdrs, .links] s t ∧ t.last = .done ∧ tampered 0x20 s t ∧
      ∀ n, n < 16 → n ≠ s.fld (regAddr pBkp 0x138) 0 4 → bit (t.rp pBkp (0x200 + 8 * n)) 31 = false := by
  have set : bit (field 0 1 1) 0 = true := by decide
  have run (u : State) : tamperClrHandler.run m (field 0 1 1) u = tamper 0x20 0 (entriesCleared u) := by
    simp only [tamperClrHandler, set, if_true, entriesCleared]
  rw [writeReg_gated ok (by decide), run]
  let u := s.bump (regAddr pPrs 0x110) 1
  obtain ⟨parts, regs⟩ := entriesCleared_frame u
  have apart {off : Nat} (low : off < 0x200) : (entriesCleared u).rp pBkp off = s.rp pBkp off := by
    refine (regs _ fun mem => ?_).trans (State.rd_wr_other s (by simp only [regAddr, pBkp, pPrs]; omega) _)
    obtain ⟨n, -, same⟩ := List.mem_map.mp mem
    rw [regAddr_inj] at same
    omega
  have backup : (entriesCleared u).backup = s.backup := parts .backup (by decide)
  have entry := tamper_tampered (ev := 0x20) (by decide) 0 (entriesCleared u)
  refine ⟨?_, rfl, tampered_of_start (apart (by decide)) (apart (by decide)) (by rw [backup]) entry, fun n hn ne => ?_⟩
  · exact keeps_mono (keeps_trans (keeps_trans (keeps_trans (wr_keeps _ _ s) parts) (tamper_keeps _ _ _)) (ended_keeps _ _ _ _))
      (by decide)
  · have pointer : (entriesCleared u).fld (regAddr pBkp 0x138) 0 4 = s.fld (regAddr pBkp 0x138) 0 4 :=
      congrArg (bits · 0 4) (apart (by decide))
    have other : regAddr pBkp (0x200 + 8 * n) ∉ tamperRegs (entriesCleared u) := by
      simp only [tamperRegs, pointer, List.mem_cons, List.not_mem_nil, or_false, not_or, regAddr_inj]
      omega
    exact (congrArg (bit · 31) (tamper_keepsRegs _ _ _ _ other)).trans (entriesCleared_flag u hn)

section
variable {s : State} (on : s.running = true)
include on

theorem exec_pressWindowExpiry : exec .pressWindowExpiry s = .next (closeWindow s) := by
  have row : exec .pressWindowExpiry s = execPressWindowExpiry s := rfl
  rw [row, execPressWindowExpiry, whenOn_running on]

theorem exec_prsClose (m : AB) : exec (.prsClose m) s = .next (writeReg m pPrs 0x108 prsCloseHandler (field 0 1 1) s) := by
  have row : exec (.prsClose m) s = execPrsClose m s := rfl
  rw [row, execPrsClose, whenOn_running on]

theorem exec_tamperClear (m : AB) : exec (.tamperClear m) s = .next (writeReg m pBkp 0x13C tamperClrHandler (field 0 1 1) s) := by
  have row : exec (.tamperClear m) s = execTamperClear m s := rfl
  rw [row, execTamperClear, whenOn_running on]

end

/-- An accepted write of PRS_CLOSE ends the window. -/
theorem writeReg_prsClose {m : AB} {s : State} (ok : admits m pPrs 0x108 prsCloseHandler (field 0 1 1) s = true) :
    writeReg m pPrs 0x108 prsCloseHandler (field 0 1 1) s = ended .ok 0 .none (closeWindow s) := by
  have run : prsCloseHandler.run m (field 0 1 1) s = closeWindow s := rfl
  rw [writeReg_ungated ok (by decide), run]

/-- Settles O39: a press opens a window (`windowOpened_spec`), its end is `closeWindow` for the expiry and for PRS_CLOSE, and a clear lowers
every VALID before it writes its entry (`writeReg_tamperClear`). -/
theorem presenceIsProven : Obligations.PresenceIsProven := by
  intro m s
  obtain ⟨backup, regs, hdrs, parts⟩ := closeWindow_spec s
  refine ⟨?_, fun on => ⟨_, exec_pressWindowExpiry on, backup, ?_, closeWindow_closes on, regs, hdrs, parts⟩,
    fun on ok => ⟨_, exec_prsClose on m, ?_⟩, fun on ok => ⟨_, exec_tamperClear on m, writeReg_tamperClear ok⟩⟩
  · obtain ⟨count, others⟩ := pressCounted_rd s
    by_cases on : s.running = true
    · exact ⟨_, exec_presencePress_on on, (tokenSettle_rd s _ _).trans count, fun a ha => (tokenSettle_rd s _ a).trans (others a ha),
        fun _ => windowOpened_spec on, fun off => absurd on (by simp [off])⟩
    · exact ⟨_, exec_presencePress_off (Bool.eq_false_of_not_eq_true on), count, others, fun h => absurd h on,
        fun _ => pressCounted_keeps s⟩
  · rw [State.pressOpen, backup]
    rfl
  · rw [writeReg_prsClose ok]
    exact ⟨rfl, backup, regs, hdrs, keeps_trans parts (ended_keeps _ _ _ _)⟩

end Sys2Proof.Machine

/-!
PROOFS. The Skim rings (R416 to R419, R423, Table 14-5): runs of words in LPDDR4X, what an interrupt leaves of the control links, one
record written to its slice's ring, and the writes of the ring's registers.
-/

namespace Sys2Proof.Machine

/-! ### Runs of bytes and words in LPDDR4X -/

/-- The value that the spelling of a number gives. -/
theorem beNat_beBytes (k n : Nat) : beNat (beBytes k n) = n % 256 ^ k := by
  induction k with
  | zero => simp [beBytes, beNat, Nat.mod_one]
  | succ k ih =>
    have digit : (BitVec.ofNat 8 (n / 256 ^ k)).toNat = n / 256 ^ k % 256 := by simp
    rw [beBytes, beNat, ih, digit, length_beBytes, pow_succ, Nat.mod_mul, Nat.add_comm, Nat.mul_comm]

/-- A word is the one that its four bytes spell. -/
theorem beWord_beBytes (w : Word) : beWord (beBytes 4 w.toNat) = w := by
  have four : (beBytes 4 w.toNat ++ [0, 0, 0, 0]).take 4 = beBytes 4 w.toNat := List.take_left' (length_beBytes 4 _)
  have low : w.toNat % 256 ^ 4 = w.toNat := Nat.mod_eq_of_lt w.isLt
  rw [beWord, four, beNat_beBytes, low, word, BitVec.ofNat_toNat, BitVec.setWidth_eq]

theorem length_wordsToBytes (ws : List Word) : (wordsToBytes ws).length = 4 * ws.length := by
  simp [wordsToBytes, List.length_flatMap, Nat.mul_comm]

theorem State.dramByte_setDramByte_same (a : Nat) (b : Byte) (s : State) : (s.setDramByte a b).dramByte a = b := by
  simp [State.dramByte, State.setDramByte]

/-- A run of bytes may be stored in two parts. -/
theorem State.setDramBytes_append (l m : List Byte) (a : Nat) (s : State) :
    s.setDramBytes a (l ++ m) = (s.setDramBytes a l).setDramBytes (a + l.length) m := by
  induction l generalizing a s with
  | nil => rfl
  | cons b l ih =>
    refine (ih (a + 1) (s.setDramByte a b)).trans ?_
    rw [List.length_cons, Nat.add_right_comm a 1, Nat.add_assoc]
    rfl

/-- A run of bytes reads as it was stored. -/
theorem State.dramBytes_setDramBytes_same (l : List Byte) (a : Nat) (s : State) : (s.setDramBytes a l).dramBytes a l.length = l := by
  induction l generalizing a s with
  | nil => rfl
  | cons b l ih =>
    have first : ((s.setDramByte a b).setDramBytes (a + 1) l).dramByte a = b :=
      (State.setDramBytes_below l (a + 1) a _ (by omega)).trans (State.dramByte_setDramByte_same a b s)
    exact congrArg₂ List.cons first (ih (a + 1) (s.setDramByte a b))

/-- A run of bytes reads the same where every byte of it does. -/
theorem State.dramBytes_congr {s t : State} {a : Nat} (n : Nat) (same : ∀ c, a ≤ c → c < a + n → t.dramByte c = s.dramByte c) :
    t.dramBytes a n = s.dramBytes a n := by
  induction n generalizing a with
  | zero => rfl
  | succ n ih =>
    exact congrArg₂ List.cons (same a (by omega) (by omega)) (ih fun c low high => same c (by omega) (by omega))

theorem State.dramWord_setDramWord_same (a : Nat) (w : Word) (s : State) : (s.setDramWord a w).dramWord a = w := by
  have bytes := State.dramBytes_setDramBytes_same (beBytes 4 w.toNat) a s
  rw [length_beBytes] at bytes
  exact (congrArg beWord bytes).trans (beWord_beBytes w)

/-- The first word of a run of words, and the rest. -/
theorem State.setDramBytes_words_cons (w : Word) (ws : List Word) (a : Nat) (s : State) :
    s.setDramBytes a (wordsToBytes (w :: ws)) = (s.setDramWord a w).setDramBytes (a + 4) (wordsToBytes ws) := by
  have split : wordsToBytes (w :: ws) = beBytes 4 w.toNat ++ wordsToBytes ws := rfl
  rw [split, State.setDramBytes_append, length_beBytes]
  rfl

/-- Each word of a run reads as it was stored. -/
theorem State.dramWord_setDramBytes_words {ws : List Word} {i : Nat} (hi : i < ws.length) (a : Nat) (s : State) :
    (s.setDramBytes a (wordsToBytes ws)).dramWord (a + 4 * i) = ws.getD i 0 := by
  induction ws generalizing i a s with
  | nil => cases hi
  | cons w ws ih =>
    rw [State.setDramBytes_words_cons]
    cases i with
    | zero =>
      have first := State.dramBytes_congr (a := a) 4 fun c _ high =>
        State.setDramBytes_below (wordsToBytes ws) (a + 4) c (s.setDramWord a w) high
      exact (congrArg beWord first).trans (State.dramWord_setDramWord_same a w s)
    | succ i =>
      have shift : a + 4 * (i + 1) = a + 4 + 4 * i := by omega
      rw [shift]
      exact ih (Nat.lt_of_succ_lt_succ hi) (a + 4) (s.setDramWord a w)

/-- Words stored one by one at their places are a run of bytes. -/
theorem foldl_setDramWord (ws : List Word) (a n : Nat) (s : State) :
    (ws.zipIdx n).foldl (fun s w => s.setDramWord (a + 4 * w.2) w.1) s = s.setDramBytes (a + 4 * n) (wordsToBytes ws) := by
  induction ws generalizing n s with
  | nil => rfl
  | cons w ws ih => rw [List.zipIdx_cons, List.foldl_cons, ih, State.setDramBytes_words_cons, Nat.mul_add, ← Nat.add_assoc]

theorem setDramBytes_keeps (l : List Byte) (a : Nat) (s : State) : keeps [.dram] s (s.setDramBytes a l) := by
  induction l generalizing a s with
  | nil => exact keeps_refl _ _
  | cons b l ih =>
    have one : keeps [.dram] s (s.setDramByte a b) := fun p h => by
      cases p with
      | dram => exact absurd (by decide) h
      | _ => rfl
    exact keeps_mono (keeps_trans one (ih (a + 1) _)) (by decide)

/-- LPDDR4X that is kept, as an equation of its bytes. -/
theorem dramByte_of_keeps {l : List Part} {s t : State} (kept : keeps l s t) (dram : Part.dram ∉ l) (era : Part.era ∉ l) (a : Nat) :
    t.dramByte a = s.dramByte a := by
  have bytes : t.dram = s.dram := kept .dram dram
  have free : t.era = s.era := kept .era era
  simp only [State.dramByte, bytes, free]

/-! ### Control links and interrupts (R68) -/

/-- Raising an interrupt changes no part of a link but its EVENT records. -/
def sparesLinks (s t : State) : Prop := ∀ m, ∃ e n, t.link m = { s.link m with events := e, evtSeq := n }

theorem sparesLinks_refl (s : State) : sparesLinks s s := fun _ => ⟨_, _, rfl⟩

theorem sparesLinks_trans {s t u : State} (a : sparesLinks s t) (b : sparesLinks t u) : sparesLinks s u := fun m => by
  obtain ⟨e, n, first⟩ := a m
  obtain ⟨e', n', second⟩ := b m
  exact ⟨e', n', by rw [second, first]⟩

theorem sparesLinks_of_keeps {l : List Part} {s t : State} (kept : keeps l s t) (h : Part.links ∉ l) : sparesLinks s t := fun m => by
  have same : t.links = s.links := kept .links h
  exact ⟨_, _, by rw [State.link, same]; rfl⟩

theorem queueEvent_sparesLinks (l : AB) (p : Nat) (b : Bool) (s : State) : sparesLinks s (queueEvent l p b s) :=
  fun m => queueEvent_link l m p b s

theorem refreshEvent_sparesLinks (l : AB) (p : Nat) (s : State) : sparesLinks s (refreshEvent l p s) :=
  ite_all (P := sparesLinks s) (queueEvent_sparesLinks _ _ _ s) (sparesLinks_refl s)

theorem pendChanged_sparesLinks (p : Nat) (old : Word) (s : State) : sparesLinks s (pendChanged p old s) := by
  have one (c : Prop) [Decidable c] (l : AB) (u : State) :
      sparesLinks u (if c then queueEvent l p false u else refreshEvent l p u) :=
    ite_all (P := sparesLinks u) (queueEvent_sparesLinks _ _ _ u) (refreshEvent_sparesLinks _ _ u)
  exact ite_all (P := sparesLinks s) (sparesLinks_refl s) (sparesLinks_trans (one _ .a s) (one _ .b _))

theorem raise_sparesLinks (p i : Nat) (s : State) : sparesLinks s (raise p i s) :=
  sparesLinks_trans (sparesLinks_of_keeps (setHdr_keeps _ _ s) (by decide)) (pendChanged_sparesLinks _ _ _)

/-- Raise an interrupt where a condition holds. -/
def raiseWhen (c : Prop) [Decidable c] (p i : Nat) (s : State) : State := if c then raise p i s else s

section
variable (c : Prop) [Decidable c] (p i : Nat) (s : State)

theorem raiseWhen_signals : signals p s (raiseWhen c p i s) :=
  ite_all (P := signals p s) (signals_raise (signals_refl p s) i) (signals_refl p s)

theorem raiseWhen_sparesLinks : sparesLinks s (raiseWhen c p i s) :=
  ite_all (P := sparesLinks s) (raise_sparesLinks p i s) (sparesLinks_refl s)

theorem raiseWhen_intRaw {c : Prop} [Decidable c] {i : Nat} (h : c) (hi : i < 32) : intRawBit (raiseWhen c p i s) p i = true := by
  rw [raiseWhen, if_pos h]
  exact raise_intRaw p i s hi

theorem raiseWhen_intRaw_of_set {j : Nat} {s : State} (up : intRawBit s p j = true) : intRawBit (raiseWhen c p i s) p j = true :=
  ite_all (P := fun t => intRawBit t p j = true) (raise_intRaw_of_set up i) up

end

/-! ### Draining on a link (R418) -/

/-- A ring with EN at 0 drains on no link. -/
theorem pushLink_off {k : Nat} {s : State} (off : s.flag (ringReg k 0x10C) 0 = false) : pushLink k s = none := by
  have en : bit (s.rd (ringReg k 0x10C)) 0 = false := off
  unfold pushLink
  dsimp only
  split
  · rfl
  · simp [en]

/-- The link on which a ring drains is told by DRP_RING_CFG, the links' states and their CENSUS_PUSH. -/
theorem pushLink_congr {k : Nat} {s t : State} (cfg : t.rd (ringReg k 0x10C) = s.rd (ringReg k 0x10C))
    (push : ∀ l, t.rd (regAddr (pCtl l) 0x12C) = s.rd (regAddr (pCtl l) 0x12C)) (links : sparesLinks s t) :
    pushLink k t = pushLink k s := by
  have takes (l : AB) : (bit (s.rd (ringReg k 0x10C)) 0 && (t.link l).state == .up && t.flag (regAddr (pCtl l) 0x12C) 2) =
      (bit (s.rd (ringReg k 0x10C)) 0 && (s.link l).state == .up && s.flag (regAddr (pCtl l) 0x12C) 2) := by
    obtain ⟨e, n, same⟩ := links l
    rw [same, State.flag, push l, State.flag]
  unfold pushLink
  dsimp only
  rw [cfg]
  split
  · rfl
  · rw [takes]

/-- A ring that drains on no link, or that holds no record, stays as it is. -/
theorem pushRing_idle {k : Nat} {s : State} (idle : pushLink k s = none ∨ ringFill k s = 0) : pushRing k s = s := by
  unfold pushRing
  cases link : pushLink k s with
  | none => rfl
  | some l =>
    have empty : ringFill k s = 0 := idle.resolve_left (by simp [link])
    simp [pushLoop, empty]

/-! ### A record is written (R416, R417) -/

theorem ringReg_inj {k x y : Nat} : ringReg k x = ringReg k y ↔ x = y := regAddr_inj

/-- WR − RD has reached the ring size. -/
abbrev ringFull (k : Nat) (s : State) : Prop := ringSize (s.rd (ringReg k 0x10C)) ≤ ringFill k s

/-- One more record makes the ring half full. -/
abbrev ringHalf (k : Nat) (s : State) : Prop := ringFill k s + 1 = ringSize (s.rd (ringReg k 0x10C)) / 2

/-- The registers that a record written to a ring may change: WR, RD and OVER. -/
def recordRegs (k : Nat) : List Nat := [ringReg k 0x114, ringReg k 0x118, ringReg k 0x11C]

/-- The words of a record stand at the slot of WR, and WR moves on. -/
def recordStored (x : SkimWait) (s : State) : State :=
  let n := s.rd (ringReg x.slice 0x114)
  (s.setDramBytes (ringSlot x.slice n.toNat s) (wordsToBytes (n :: x.body))).bump (ringReg x.slice 0x114) 1

/-- RD moves past the oldest record, which OVER counts. -/
def recordLost (k : Nat) (s : State) : State := (s.bump (ringReg k 0x118) 1).bump (ringReg k 0x11C) 1

/-- The record is stored, and the oldest one is lost where the ring is full. -/
def recordPlaced (x : SkimWait) (s : State) : State :=
  if ringFull x.slice s then recordLost x.slice (recordStored x s) else recordStored x s

/-- The marks of a ring are raised: RING_OVERWRITE, then RING_HALF. -/
def recordMarked (x : SkimWait) (s : State) : State :=
  raiseWhen (ringHalf x.slice s) (pSlice x.slice 1) 1
    (raiseWhen (ringFull x.slice s ∧ s.rd (ringReg x.slice 0x11C) = 0) (pSlice x.slice 1) 2 (recordPlaced x s))

theorem rd_setDramBytes (l : List Byte) (a r : Nat) (s : State) : (s.setDramBytes a l).rd r = s.rd r :=
  keepsRegs_of_keeps (setDramBytes_keeps l a s) (by decide) r (by simp)

/-- Storing a record changes one register, WR. -/
theorem recordStored_rd_other (x : SkimWait) (s : State) {a : Nat} (h : a ≠ ringReg x.slice 0x114) :
    (recordStored x s).rd a = s.rd a :=
  (State.rd_wr_other _ h _).trans (rd_setDramBytes _ _ a s)

/-- A record is placed and its marks are raised, and then the ring drains. -/
theorem writeSkim_eq (x : SkimWait) (s : State) : writeSkim x s = pushRing x.slice (recordMarked x s) := by
  have lost : (recordStored x s).rd (ringReg x.slice 0x11C) = s.rd (ringReg x.slice 0x11C) :=
    recordStored_rd_other x s (by simp [ringReg_inj])
  have stored := foldl_setDramWord (s.rd (ringReg x.slice 0x114) :: x.body)
    (ringSlot x.slice (s.rd (ringReg x.slice 0x114)).toNat s) 0 s
  rw [Nat.mul_zero, Nat.add_zero] at stored
  have placed : (if ringFull x.slice s then
        if (recordStored x s).rd (ringReg x.slice 0x11C) = 0 then raise (pSlice x.slice 1) 2 (recordLost x.slice (recordStored x s))
        else recordLost x.slice (recordStored x s)
      else recordStored x s) =
      raiseWhen (ringFull x.slice s ∧ s.rd (ringReg x.slice 0x11C) = 0) (pSlice x.slice 1) 2 (recordPlaced x s) := by
    rw [lost]
    by_cases full : ringFull x.slice s <;> by_cases first : s.rd (ringReg x.slice 0x11C) = 0 <;>
      simp [raiseWhen, recordPlaced, full, first]
  rw [recordMarked, ← placed]
  unfold writeSkim
  dsimp only
  rw [stored]
  rfl

section
variable (x : SkimWait) (s : State)

theorem recordStored_wr : (recordStored x s).rd (ringReg x.slice 0x114) = s.rd (ringReg x.slice 0x114) + 1 :=
  (State.rd_wr_same _ _ _).trans (congrArg (· + word 1) (rd_setDramBytes _ _ _ s))

theorem recordStored_keeps : keeps [.dram, .regs] s (recordStored x s) :=
  keeps_trans (setDramBytes_keeps _ _ s) (wr_keeps _ _ _)

theorem recordLost_keepsRegs (k : Nat) : keepsRegs [ringReg k 0x118, ringReg k 0x11C] s (recordLost k s) :=
  keepsRegs_trans (wr_keepsRegs _ _ s) (wr_keepsRegs _ _ _)

theorem recordLost_rd (k : Nat) : (recordLost k s).rd (ringReg k 0x118) = s.rd (ringReg k 0x118) + 1 ∧
    (recordLost k s).rd (ringReg k 0x11C) = s.rd (ringReg k 0x11C) + 1 := by
  have apart : ringReg k 0x118 ≠ ringReg k 0x11C := by simp [ringReg_inj]
  exact ⟨(State.rd_wr_other _ apart _).trans (State.rd_wr_same s _ _),
    (State.rd_wr_same _ _ _).trans (congrArg (· + word 1) (State.rd_wr_other s apart.symm _))⟩

/-- Losing the oldest record touches no memory. -/
theorem recordPlaced_keeps : keeps [.regs] (recordStored x s) (recordPlaced x s) :=
  ite_all (P := keeps [.regs] (recordStored x s))
    (keeps_mono (keeps_trans (wr_keeps _ _ (recordStored x s)) (wr_keeps _ _ _)) (by decide)) (keeps_refl _ _)

theorem recordPlaced_keepsRegs : keepsRegs [ringReg x.slice 0x118, ringReg x.slice 0x11C] (recordStored x s) (recordPlaced x s) :=
  ite_all (P := keepsRegs _ (recordStored x s)) (recordLost_keepsRegs _ x.slice) (keepsRegs_refl _ _)

theorem recordMarked_signals : signals (pSlice x.slice 1) (recordPlaced x s) (recordMarked x s) := by
  have first := raiseWhen_signals (ringFull x.slice s ∧ s.rd (ringReg x.slice 0x11C) = 0) (pSlice x.slice 1) 2 (recordPlaced x s)
  exact ite_all (P := signals (pSlice x.slice 1) (recordPlaced x s)) (signals_raise first 1) first

theorem recordMarked_rd (a : Nat) : (recordMarked x s).rd a = (recordPlaced x s).rd a :=
  keepsRegs_of_keeps (recordMarked_signals x s).1 (by decide) a (by simp)

/-- What a record changes: LPDDR4X, the registers of its ring, the header of its page and EVENT records. -/
theorem recordMarked_frame : keeps [.dram, .regs, .hdrs, .links] s (recordMarked x s) ∧
    keepsRegs (recordRegs x.slice) s (recordMarked x s) ∧ keepsHdrs [pSlice x.slice 1] s (recordMarked x s) ∧
    sparesLinks s (recordMarked x s) := by
  have parts : keeps [.dram, .regs] s (recordPlaced x s) :=
    keeps_mono (keeps_trans (recordStored_keeps x s) (recordPlaced_keeps x s)) (by decide)
  obtain ⟨signalled, hdrs⟩ := recordMarked_signals x s
  refine ⟨keeps_mono (keeps_trans parts signalled) (by decide), fun a ha => ?_, ?_, ?_⟩
  · simp only [recordRegs, List.mem_cons, List.not_mem_nil, or_false, not_or] at ha
    obtain ⟨wr, rd, lost⟩ := ha
    rw [recordMarked_rd, recordPlaced_keepsRegs x s a (by simp [rd, lost]), recordStored_rd_other x s wr]
  · exact fun p hp => (hdrs p hp).trans (keepsHdrs_of_keeps parts (by decide) p (by simp))
  · exact sparesLinks_trans (sparesLinks_of_keeps parts (by decide))
      (sparesLinks_trans (raiseWhen_sparesLinks _ _ _ _) (raiseWhen_sparesLinks _ _ _ _))

/-- The bytes of LPDDR4X are those that storing the words leaves. -/
theorem recordMarked_dramByte (a : Nat) : (recordMarked x s).dramByte a =
    (s.setDramBytes (ringSlot x.slice (s.rd (ringReg x.slice 0x114)).toNat s)
      (wordsToBytes (s.rd (ringReg x.slice 0x114) :: x.body))).dramByte a := by
  have parts := keeps_trans (keeps_trans (wr_keeps _ _ _) (recordPlaced_keeps x s)) (recordMarked_signals x s).1
  exact dramByte_of_keeps parts (by decide) (by decide) a

/-- A record stands at the slot of WR, word by word, and no other byte changes (R416). -/
theorem recordMarked_memory :
    let n := s.rd (ringReg x.slice 0x114)
    let at_ := ringSlot x.slice n.toNat s
    (∀ i < x.body.length + 1, (recordMarked x s).dramWord (at_ + 4 * i) = (n :: x.body).getD i 0) ∧
      ∀ a, a < at_ ∨ at_ + 4 * (x.body.length + 1) ≤ a → (recordMarked x s).dramByte a = s.dramByte a := by
  intro n at_
  have bytes (a : Nat) : (recordMarked x s).dramByte a = (s.setDramBytes at_ (wordsToBytes (n :: x.body))).dramByte a :=
    recordMarked_dramByte x s a
  refine ⟨fun i hi => ?_, fun a ha => (bytes a).trans ?_⟩
  · exact (congrArg beWord (State.dramBytes_congr 4 fun c _ _ => bytes c)).trans (State.dramWord_setDramBytes_words hi at_ s)
  · rcases ha with below | above
    · exact State.setDramBytes_below _ at_ a s below
    · exact State.setDramBytes_above _ at_ a s (by simpa [length_wordsToBytes] using above)

/-- WR counts a record; in a full ring RD and OVER count the one that is lost (R416, R417). -/
theorem recordMarked_counts :
    (recordMarked x s).rd (ringReg x.slice 0x114) = s.rd (ringReg x.slice 0x114) + 1 ∧
    (¬ ringFull x.slice s → (recordMarked x s).rd (ringReg x.slice 0x118) = s.rd (ringReg x.slice 0x118)) ∧
    (ringFull x.slice s → (recordMarked x s).rd (ringReg x.slice 0x118) = s.rd (ringReg x.slice 0x118) + 1 ∧
      (recordMarked x s).rd (ringReg x.slice 0x11C) = s.rd (ringReg x.slice 0x11C) + 1) := by
  have rd : (recordStored x s).rd (ringReg x.slice 0x118) = s.rd (ringReg x.slice 0x118) :=
    recordStored_rd_other x s (by simp [ringReg_inj])
  have lost : (recordStored x s).rd (ringReg x.slice 0x11C) = s.rd (ringReg x.slice 0x11C) :=
    recordStored_rd_other x s (by simp [ringReg_inj])
  simp only [recordMarked_rd]
  refine ⟨?_, fun room => ?_, fun full => ?_⟩
  · rw [recordPlaced_keepsRegs x s _ (by simp [ringReg_inj]), recordStored_wr]
  · rw [recordPlaced, if_neg room, rd]
  · rw [recordPlaced, if_pos full, ← rd, ← lost]
    exact recordLost_rd _ _

/-- RING_HALF rises when the ring becomes half full, RING_OVERWRITE when OVER leaves 0 (R417). -/
theorem recordMarked_intRaw : (ringHalf x.slice s → intRawBit (recordMarked x s) (pSlice x.slice 1) 1 = true) ∧
    (ringFull x.slice s → s.rd (ringReg x.slice 0x11C) = 0 → intRawBit (recordMarked x s) (pSlice x.slice 1) 2 = true) :=
  ⟨fun half => raiseWhen_intRaw _ _ half (by decide),
    fun full none => raiseWhen_intRaw_of_set _ _ _ (raiseWhen_intRaw _ _ ⟨full, none⟩ (by decide))⟩

/-- A ring that drains on no link keeps a record that is written to it. -/
theorem writeSkim_undrained (idle : pushLink x.slice s = none) : writeSkim x s = recordMarked x s := by
  obtain ⟨-, regs, -, links⟩ := recordMarked_frame x s
  have apart (a : Nat) (h : a % 0x1000 ∉ [0x114, 0x118, 0x11C]) : (recordMarked x s).rd a = s.rd a := by
    refine regs a fun mem => h ?_
    simp only [recordRegs, List.mem_cons, List.not_mem_nil, or_false, ringReg, regAddr] at mem ⊢
    omega
  have same := pushLink_congr (k := x.slice) (apart _ (by simp [ringReg, regAddr])) (fun l => apart _ (by simp [regAddr])) links
  rw [writeSkim_eq, pushRing_idle (.inl (same.trans idle))]

end

/-- The records that wait for LPDDR4X are replaced. -/
def withSkimQ (q : List SkimWait) (s : State) : State := { s with buf := { s.buf with skimQ := q } }

theorem withSkimQ_keeps (q : List SkimWait) (s : State) : keeps [.buf] s (withSkimQ q s) := setBuf_keeps _ s

theorem exec_skimRecordWrite {x : SkimWait} {rest : List SkimWait} {s : State} (on : s.running = true)
    (waits : s.buf.skimQ = x :: rest) : exec .skimRecordWrite s = .next (writeSkim x (withSkimQ rest s)) := by
  have row : exec .skimRecordWrite s = execSkimRecordWrite s := rfl
  rw [row, execSkimRecordWrite, whenOn_running on, waits]
  rfl

/-! ### The registers of a ring (Table 14-5) -/

theorem pageInfo_ring {k : Nat} (hk : k < 16) : pageInfo (pSlice k 1) = some ⟨.drpS, k, 0⟩ := by
  have table : ∀ k < 16, pageInfo (pSlice k 1) = some ⟨.drpS, k, 0⟩ := by decide
  exact table k hk

/-- RING_BASE and RING_RD are one field each. -/
theorem fieldsAt_ringWord {k off : Nat} (hk : k < 16) (named : off = 0x110 ∨ off = 0x118) :
    fieldsAt (pSlice k 1) off = [fRWS 0 32 0] := by
  simp only [fieldsAt, pageInfo_ring hk]
  rcases named with rfl | rfl <;> rfl

/-- The fields of DRP_RING_CFG: EN, PUSH and SIZE. -/
theorem fieldsAt_ringCfg {k : Nat} (hk : k < 16) :
    fieldsAt (pSlice k 1) 0x10C = [fRWS 0 1 0, fRWS 1 2 0 (.rng 0 2), fRWS 12 4 0 (.rng 0 10)] := by
  simp only [fieldsAt, pageInfo_ring hk]
  rfl

section
variable {m : AB} {k off : Nat} {v : Word} {s : State}

/-- The pages of the slices lie above the presence page. -/
theorem ringReg_ne_uses (ho : off < 0x1000) : ringReg k off ≠ regAddr pPrs 0x110 := by
  simp only [ringReg, regAddr, pSlice, pPrs]
  omega

/-- An accepted write of RING_BASE or RING_RD stores the value. -/
theorem writeReg_ringWord {h : Handler} (hk : k < 16) (named : off = 0x110 ∨ off = 0x118)
    (stores : h.run = (plain (pSlice k 1) off).run) (ok : admits m (pSlice k 1) off h v s = true) :
    let t := writeReg m (pSlice k 1) off h v s
    t.last = .done ∧ t.rd (ringReg k off) = mergeFields (fieldsAt (pSlice k 1) off) (s.rd (ringReg k off)) v ∧
      keepsRegs (writeRegs (pSlice k 1) off) s t ∧ keeps [.regs, .last] s t := by
  have fields := fieldsAt_ringWord hk named
  have volatile : hasNvs (fieldsAt (pSlice k 1) off) = false := by
    rw [fields]
    rfl
  obtain ⟨done, value, regs, -⟩ := writeReg_stores ok stores (ringReg_ne_uses (by omega))
  refine ⟨done, value, regs, ?_⟩
  have run : (plain (pSlice k 1) off).run m v s = storeFields (pSlice k 1) off v s := storeReg_volatile volatile v s
  rw [writeReg_ungated ok (by rw [fields]; rfl), stores, run]
  exact keeps_trans (wr_keeps _ _ s) (ended_keeps _ _ _ _)

/-! ### DRP_RING_CFG (R416, R423, Table 14-5) -/

/-- The value of DRP_RING_CFG that a store leaves does not depend on the old one. -/
theorem mergeFields_ringCfg (hk : k < 16) (old old' : Word) :
    mergeFields (fieldsAt (pSlice k 1) 0x10C) old v = mergeFields (fieldsAt (pSlice k 1) 0x10C) old' v := by
  rw [fieldsAt_ringCfg hk]
  rfl

/-- EN of the stored value is that of the written one. -/
theorem bit_mergeFields_ringCfg (hk : k < 16) (old : Word) : bit (mergeFields (fieldsAt (pSlice k 1) 0x10C) old v) 0 = bit v 0 := by
  have stored : mergeFields (fieldsAt (pSlice k 1) 0x10C) old v =
      setBits (setBits (setBits 0 0 1 (bits v 0 1)) 1 2 (bits v 1 2)) 12 4 (bits v 12 4) := by
    rw [fieldsAt_ringCfg hk]
    rfl
  rw [stored, bit_setBits_other _ (by decide) (by decide), bit_setBits_other _ (by decide) (by decide), bit_setBits _ _ _ _ _ (by decide),
    if_pos (by decide), testBit_bits]
  simp [bit]

/-- A store of DRP_RING_CFG, whose fields the non-volatile store does not hold, is one write of the register. -/
theorem storeReg_ringCfg (hk : k < 16) (v : Word) (s : State) :
    storeReg (pSlice k 1) 0x10C v s = s.wr (ringReg k 0x10C) (mergeFields (fieldsAt (pSlice k 1) 0x10C) (s.rd (ringReg k 0x10C)) v) := by
  have volatile : hasNvs (fieldsAt (pSlice k 1) 0x10C) = false := by
    rw [fieldsAt_ringCfg hk]
    rfl
  exact storeReg_volatile volatile v s

/-- WR, RD, OVER and MISSED of a ring. -/
def ringCounts : List Nat := [0x114, 0x118, 0x11C, 0x120]

/-- The ring's counts are zeroed. -/
def ringZeroed (k : Nat) (s : State) : State := ringCounts.foldl (fun s o => s.wp (pSlice k 1) o 0) s

theorem ringZeroed_frame (k : Nat) (s : State) :
    keeps [.regs] s (ringZeroed k s) ∧ keepsRegs (ringCounts.map (ringReg k)) s (ringZeroed k s) :=
  foldl_frame _ (ringReg k) (fun t _ => ⟨wr_keeps _ _ t, wr_keepsRegs _ _ t⟩) ringCounts s

/-- A register that is zeroed, or zero before, is zero after a list of zeroed registers. -/
theorem foldl_wp_zero (p : Nat) (l : List Nat) {c : Nat} (s : State) (h : c ∈ l ∨ s.rp p c = 0) :
    (l.foldl (fun s o => s.wp p o 0) s).rp p c = 0 := by
  induction l generalizing s with
  | nil => exact h.resolve_left (by simp)
  | cons o l ih =>
    refine ih (s.wp p o 0) ?_
    by_cases same : c = o
    · exact .inr (by rw [same]; exact State.rd_wr_same _ _ _)
    · refine h.imp (fun mem => (List.mem_cons.mp mem).resolve_left same) fun zero => ?_
      exact (State.rd_wr_other s (mt regAddr_inj.mp same) 0).trans zero

theorem ringZeroed_zero (k : Nat) (s : State) {o : Nat} (listed : o ∈ ringCounts) : (ringZeroed k s).rd (ringReg k o) = 0 :=
  foldl_wp_zero _ _ s (.inl listed)

/-- Setting EN stores the value and zeroes the counts; a ring without records drains nothing. -/
theorem ringCfgHandler_run_on (m : AB) (s : State) (en : bit v 0 = true) :
    (ringCfgHandler k).run m v s = ringZeroed k (storeReg (pSlice k 1) 0x10C v s) := by
  have empty : ringFill k (ringZeroed k (storeReg (pSlice k 1) 0x10C v s)) = 0 := by
    rw [ringFill, ringZeroed_zero k _ (by decide), ringZeroed_zero k _ (by decide)]
    rfl
  refine Eq.trans ?_ (pushRing_idle (.inr empty))
  simp [ringCfgHandler, en, ringZeroed, ringCounts]

/-- Clearing EN stops a ring that runs and stores the value; the ring drains no more. -/
theorem ringCfgHandler_run_off (hk : k < 16) (m : AB) (s : State) (en : bit v 0 = false) :
    (ringCfgHandler k).run m v s = storeReg (pSlice k 1) 0x10C v (if s.flag (ringReg k 0x10C) 0 then ringStop k s else s) := by
  have off (u : State) : (storeReg (pSlice k 1) 0x10C v u).flag (ringReg k 0x10C) 0 = false := by
    rw [storeReg_ringCfg hk, State.flag, State.rd_wr_same, bit_mergeFields_ringCfg hk, en]
  refine Eq.trans ?_ (pushRing_idle (.inl (pushLink_off (off _))))
  simp [ringCfgHandler, en]

/-- A ring that stops discards the records that wait for it; MISSED counts them (R423). -/
theorem ringStop_spec (k : Nat) (s : State) :
    (ringStop k s).buf.skimQ = s.buf.skimQ.filter (fun x => x.slice != k) ∧ keeps [.regs, .buf, .hdrs, .links] s (ringStop k s) := by
  let u := (withSkimQ (s.buf.skimQ.filter (fun x => x.slice != k)) s).setFlag (ringReg k 0x10C) 0 false
  have parts : keeps [.buf, .regs] s u := keeps_trans (withSkimQ_keeps _ s) (wr_keeps _ _ _)
  have counted (n : Nat) : keeps [.regs, .hdrs, .links] u (raise (pSlice k 1) 3 (u.bump (ringReg k 0x120) n)) :=
    keeps_trans (wr_keeps _ _ u) (raise_keeps _ _ _)
  have left : keeps [.regs, .hdrs, .links] u (ringStop k s) :=
    ite_all (P := keeps [.regs, .hdrs, .links] u) (keeps_refl _ u) (counted _)
  have queue : (ringStop k s).buf = u.buf := left .buf (by decide)
  exact ⟨congrArg BufSt.skimQ queue, keeps_mono (keeps_trans parts left) (by decide)⟩

/-- What a write of DRP_RING_CFG does: EN set zeroes the counts, EN cleared discards the records that wait. -/
theorem ringCfgHandler_run_spec (hk : k < 16) (m : AB) (v : Word) (s : State) :
    let t := (ringCfgHandler k).run m v s
    keeps [.regs, .buf, .hdrs, .links] s t ∧
      t.rd (ringReg k 0x10C) = mergeFields (fieldsAt (pSlice k 1) 0x10C) (s.rd (ringReg k 0x10C)) v ∧
      (bit v 0 = true → ∀ o ∈ ringCounts, t.rd (ringReg k o) = 0) ∧
      (s.flag (ringReg k 0x10C) 0 = true → bit v 0 = false → t.buf.skimQ = s.buf.skimQ.filter (fun x => x.slice != k)) := by
  by_cases en : bit v 0 = true
  · rw [ringCfgHandler_run_on m s en, storeReg_ringCfg hk]
    obtain ⟨parts, regs⟩ := ringZeroed_frame k
      (s.wr (ringReg k 0x10C) (mergeFields (fieldsAt (pSlice k 1) 0x10C) (s.rd (ringReg k 0x10C)) v))
    refine ⟨keeps_mono (keeps_trans (wr_keeps _ _ s) parts) (by decide), (regs _ ?_).trans (State.rd_wr_same _ _ _),
      fun _ _ => ringZeroed_zero k _, fun _ off => absurd en (by simp [off])⟩
    simp [ringCounts, ringReg_inj]
  · rw [Bool.not_eq_true] at en
    rw [ringCfgHandler_run_off hk m s en, storeReg_ringCfg hk]
    obtain ⟨queue, stopped⟩ := ringStop_spec k s
    have parts : keeps [.regs, .buf, .hdrs, .links] s (if s.flag (ringReg k 0x10C) 0 then ringStop k s else s) :=
      ite_all (P := keeps [.regs, .buf, .hdrs, .links] s) stopped (keeps_refl _ s)
    refine ⟨keeps_mono (keeps_trans parts (wr_keeps _ _ _)) (by decide), (State.rd_wr_same _ _ _).trans (mergeFields_ringCfg hk _ _),
      fun on => absurd on (by simp [en]), fun on _ => ?_⟩
    rw [if_pos on]
    exact queue

/-- An accepted write of DRP_RING_CFG has its effect. -/
theorem writeReg_ringCfg (hk : k < 16) (ok : admits m (pSlice k 1) 0x10C (ringCfgHandler k) v s = true) :
    writeReg m (pSlice k 1) 0x10C (ringCfgHandler k) v s = ended .ok 0 .none ((ringCfgHandler k).run m v s) :=
  writeReg_ungated ok (by rw [fieldsAt_ringCfg hk]; rfl)

end

/-! ### The commands of the rings -/

section
variable {s : State} (on : s.running = true) (m : AB) {k : Nat} (hk : k < 16) (v : Word)
include on hk

theorem exec_ringCfgWrite_ctrl :
    exec (.ringCfgWrite m k .ctrl v) s = .next (writeReg m (pSlice k 1) 0x10C (ringCfgHandler k) v s) := by
  have row : exec (.ringCfgWrite m k .ctrl v) s = execRingCfgWrite m k .ctrl v s := rfl
  simp only [row, execRingCfgWrite, whenOn_running on, Nat.mod_eq_of_lt hk]

theorem exec_ringCfgWrite_base :
    exec (.ringCfgWrite m k .base v) s = .next (writeReg m (pSlice k 1) 0x110 (ringBaseHandler k) v s) := by
  have row : exec (.ringCfgWrite m k .base v) s = execRingCfgWrite m k .base v s := rfl
  simp only [row, execRingCfgWrite, whenOn_running on, Nat.mod_eq_of_lt hk]

theorem exec_ringRdWrite : exec (.ringRdWrite m k v) s = .next (writeReg m (pSlice k 1) 0x118 (ringRdHandler k) v s) := by
  have row : exec (.ringRdWrite m k v) s = execRingRdWrite m k v s := rfl
  simp only [row, execRingRdWrite, whenOn_running on, Nat.mod_eq_of_lt hk]

end

/-- Settles O53: a record leaves the ring as `recordMarked` does, since the ring drains on no link (`writeSkim_undrained`); a write of
DRP_RING_CFG has the effect of `ringCfgHandler_run_spec`, and RING_BASE and RING_RD are stored (`writeReg_ringWord`). -/
theorem discardsAreRecorded : Obligations.DiscardsAreRecorded := by
  intro s on
  refine ⟨fun x rest waits whole idle => ⟨_, exec_skimRecordWrite on waits, ?_⟩,
    fun m k v hk ok => ⟨_, exec_ringCfgWrite_ctrl on m hk v, ?_⟩,
    fun m k v hk ok => ⟨_, exec_ringCfgWrite_base on m hk v, writeReg_ringWord hk (.inl rfl) rfl ok⟩,
    fun m k v hk ok => ⟨_, exec_ringRdWrite on m hk v, writeReg_ringWord hk (.inr rfl) rfl ok⟩⟩
  · let u := withSkimQ rest s
    have taken : keeps [.buf] s u := withSkimQ_keeps rest s
    obtain ⟨parts, regs, hdrs, -⟩ := recordMarked_frame x u
    obtain ⟨wr, room, lost⟩ := recordMarked_counts x u
    obtain ⟨half, overwrite⟩ := recordMarked_intRaw x u
    obtain ⟨words, others⟩ := recordMarked_memory x u
    have queue : (recordMarked x u).buf = u.buf := parts .buf (by decide)
    rw [writeSkim_undrained x u idle]
    rw [whole] at words others
    refine ⟨congrArg BufSt.skimQ queue, wr, words, others, fun some => room (Nat.not_le.mpr some), fun full => ?_, half, regs, hdrs,
      keeps_mono (keeps_trans taken parts) (by decide)⟩
    obtain ⟨rd, count⟩ := lost full
    exact ⟨rd, count, overwrite full⟩
  · rw [writeReg_ringCfg hk ok]
    obtain ⟨parts, value, zero, queue⟩ := ringCfgHandler_run_spec hk m v s
    exact ⟨keeps_mono (keeps_trans parts (ended_keeps _ _ _ _)) (by decide), rfl, value, zero, queue⟩

end Sys2Proof.Machine

/-!
PROOFS. Sequencers under a master (R455, R457, R463, R465, R475): their memories, what a fault of a sequencer leaves alone, and the commands
by which a timer, the watchdog and a master reach a sequencer.
-/

namespace Sys2Proof.Machine

/-! ### Sequencers and their memories -/

theorem seq_setSeq_other {i j : Nat} (h : j ≠ i) (q : Seq) (s : State) : (s.setSeq i q).seq j = s.seq j :=
  tblGet_tblSet_other _ _ _ h _

/-- Sequencer `n` is `q`, and every other one is as before. -/
def seqSet (n : Nat) (q : Seq) (s t : State) : Prop := t.seq n = q ∧ ∀ j, j ≠ n → t.seq j = s.seq j

theorem seqSet_setSeq (n : Nat) (q : Seq) (s : State) : seqSet n q s (s.setSeq n q) :=
  ⟨State.seq_setSeq_same s n q, fun _ h => seq_setSeq_other h q s⟩

/-- Sequencers that are kept, as equations. -/
theorem seq_of_keeps {l : List Part} {s t : State} (kept : keeps l s t) (h : Part.seqs ∉ l) (i : Nat) : t.seq i = s.seq i := by
  have same : t.seqs = s.seqs := kept .seqs h
  simp only [State.seq, same]

theorem seqSet_of_keeps {n : Nat} {q : Seq} {s t u : State} (set : seqSet n q s t) {l : List Part} (kept : keeps l t u)
    (h : Part.seqs ∉ l) : seqSet n q s u :=
  ⟨(seq_of_keeps kept h n).trans set.1, fun j ne => (seq_of_keeps kept h j).trans (set.2 j ne)⟩

theorem seqSet_trans {n : Nat} {q r : Seq} {s t u : State} (a : seqSet n q s t) (b : seqSet n r t u) : seqSet n r s u :=
  ⟨b.1, fun j ne => (b.2 j ne).trans (a.2 j ne)⟩

theorem SeqMem.get_put_same (a : Nat) (b : Byte) (m : SeqMem) : (m.put a b).get a = b := by
  by_cases blank : m.era = none ∧ b = 0
  · simp [SeqMem.put, SeqMem.get, blank, tblGet_erase_same]
  · simp only [SeqMem.put, SeqMem.get, if_neg blank, tblGet_tblSet_same]

theorem SeqMem.get_put_other {a c : Nat} (h : c ≠ a) (b : Byte) (m : SeqMem) : (m.put a b).get c = m.get c := by
  by_cases blank : m.era = none ∧ b = 0
  · simp [SeqMem.put, SeqMem.get, blank, tblGet_erase_other _ h]
  · simp only [SeqMem.put, SeqMem.get, if_neg blank, tblGet_tblSet_other _ _ _ h]

/-- A run of bytes leaves every byte outside it alone. -/
theorem SeqMem.get_write_outside (l : List Byte) {a c : Nat} (h : c < a ∨ a + l.length ≤ c) (m : SeqMem) :
    (m.write a l).get c = m.get c := by
  induction l generalizing a m with
  | nil => rfl
  | cons b l ih =>
    rw [List.length_cons] at h
    exact (ih (a := a + 1) (by omega) (m.put a b)).trans (SeqMem.get_put_other (by omega) b m)

/-- A run of bytes reads as it was written. -/
theorem SeqMem.read_write_same (l : List Byte) (a : Nat) (m : SeqMem) : (m.write a l).read a l.length = l := by
  induction l generalizing a m with
  | nil => rfl
  | cons b l ih =>
    have first : ((m.put a b).write (a + 1) l).get a = b :=
      (SeqMem.get_write_outside l (.inl (Nat.lt_succ_self a)) _).trans (SeqMem.get_put_same a b m)
    exact congrArg₂ List.cons first (ih (a + 1) (m.put a b))

/-! ### What tells whether a sequencer may run (R26, R457) -/

theorem raise_pstate (p i : Nat) (s : State) (x : Nat) : (raise p i s).pstate x = s.pstate x := by
  by_cases h : x = p
  · rw [h, State.pstate, raise_hdr, State.pstate]
  · exact congrArg Hdr.state (raise_keepsHdrs p i s x (by simpa using h))

theorem countAt_pstate (p base hoff ib w i k : Nat) (s : State) (x : Nat) : (countAt p base hoff ib w i k s).pstate x = s.pstate x :=
  ite_all (P := fun t => t.pstate x = s.pstate x) ((raise_pstate _ _ _ _).trans rfl) rfl

/-- A recorded fault leaves the STATE of every page. -/
theorem recordFault_pstate (p code : Nat) (d w5 : Word) (s : State) (x : Nat) :
    (recordFault p code d w5 s).pstate x = s.pstate x := by
  let h := if (s.hdr p).faultCode = 0 then { s.hdr p with faultCode := code, faultDetail := d }
    else { s.hdr p with faultMore := satAdd 255 (s.hdr p).faultMore 1 }
  have state : h.state = (s.hdr p).state := by
    by_cases first : (s.hdr p).faultCode = 0
    · simp [h, first]
    · simp [h, first]
  have logged := keepsHdrs_of_keeps (addLog_spec (logTypeOf code) p code d w5 (s.setHdr p h)).1 (by decide) x (by simp)
  have noted : (s.setHdr p h).pstate x = s.pstate x := by
    by_cases here : x = p
    · rw [here, State.pstate, State.hdr_setHdr_same, state, State.pstate]
    · rw [State.pstate, State.hdr_setHdr_other s here, State.pstate]
  exact (raise_pstate p 31 _ x).trans ((congrArg Hdr.state logged).trans noted)

/-- Whether a sequencer may run is told by the STATE of the pages, the mode, SEQ_CODE_SIZE and the slices' SLC pages. -/
theorem seqMayRun_congr {n : Nat} {s t : State} (states : ∀ p, t.pstate p = s.pstate p) (power : t.power = s.power)
    (size : t.rd (regAddr (pSeq n) 0x114) = s.rd (regAddr (pSeq n) 0x114)) (slices : ∀ j o, o < 0x1000 → t.slc j o = s.slc j o) :
    seqMayRun n t = seqMayRun n s := by
  have slice : t.seqSlice n = s.seqSlice n := by
    simp only [State.seqSlice, State.holders, slices _ 0x120 (by decide)]
  simp only [seqMayRun, slice, State.sliceState, State.fld, State.mode, states, size, power, slices _ 0x100 (by decide)]

/-! ### A fault of a sequencer (R470) -/

/-- A sequencer as a fault leaves it. -/
def faultedSeq (code : Nat) (q : Seq) : Seq := { q with run := .faulted, lastFault := code, faultPc := q.pc, wait := none }

/-- A fault that asks for no self-test. -/
theorem seqFault_spec (n : Nat) {code : Nat} (untested : ¬ (code = 4 ∨ code = 6)) (s : State) :
    let t := seqFault n code s
    seqSet n (faultedSeq code (s.seq n)) s t ∧ keeps [.seqs, .hdrs, .links, .regs, .log, .nvs] s t ∧ keepsRegs logRegs s t ∧
      ∀ p, t.pstate p = s.pstate p := by
  intro t
  let u := s.setSeq n (faultedSeq code (s.seq n))
  let v := recordFault (pSeq n) (0x0600 + code) (word (code + (s.seq n).pc % 65536 * 65536)) 0 u
  have run : t = raise (pSeq n) 1 v := if_neg untested
  obtain ⟨recorded, logged, -⟩ := recordFault_spec (pSeq n) (0x0600 + code) (word (code + (s.seq n).pc % 65536 * 65536)) 0 u
  have kept : keeps [.hdrs, .regs, .log, .nvs, .links] u (raise (pSeq n) 1 v) :=
    keeps_mono (keeps_trans recorded (raise_keeps _ _ v)) (by decide)
  rw [run]
  refine ⟨seqSet_of_keeps (seqSet_setSeq n _ s) kept (by decide), keeps_mono (keeps_trans (setSeq_keeps n _ s) kept) (by decide),
    fun a ha => (raise_rd _ _ v a).trans (logged a ha), fun p => ?_⟩
  exact (raise_pstate _ _ v p).trans (recordFault_pstate _ _ _ _ u p)

/-! ### Timers and the watchdog (R463, R465) -/

/-- A sequencer of which timer `i` has fired: the event is latched, and a periodic timer runs again. -/
def firedSeq (i : Nat) (q : Seq) : Seq :=
  let x := tblGet SeqTimer.off i q.timers
  { q with
    timers := tblSet SeqTimer.off i (if x.periodic then { x with left := x.period } else SeqTimer.off) q.timers
    events := (q.events % 16) ||| 2 ^ i }

/-- A timer that is not periodic disarms. -/
theorem firedSeq_timer_of_once {i : Nat} {q : Seq} (once : (tblGet SeqTimer.off i q.timers).periodic = false) :
    tblGet SeqTimer.off i (firedSeq i q).timers = SeqTimer.off := by
  refine (tblGet_tblSet_same _ _ _ _).trans ?_
  rw [once, if_neg Bool.false_ne_true]

/-- The watchdog of a sequencer has expired: fault WDOG, counted and marked. -/
def wdogExpired (n : Nat) (s : State) : State := raise (pSeq n) 2 (seqCount n 6 1 (seqFault n 5 s))

/-- The registers that an expiry may change: those of the event log, and the half-range marks of the sequencer's page. -/
def wdogRegs (n : Nat) : List Nat := logRegs ++ [regAddr (pSeq n) 0x1D0]

theorem wdogExpired_spec (n : Nat) (s : State) :
    let t := wdogExpired n s
    seqSet n (faultedSeq 5 (s.seq n)) s t ∧ keeps [.seqs, .ctrs, .hdrs, .links, .regs, .log, .nvs] s t ∧ keepsRegs (wdogRegs n) s t ∧
      (∀ p, t.pstate p = s.pstate p) ∧ intRawBit t (pSeq n) 2 = true ∧
      t.ctr (regAddr (pSeq n) 0x230) = (s.ctr (regAddr (pSeq n) 0x230) + 1) % 2 ^ 40 := by
  intro t
  obtain ⟨set, parts, regs, states⟩ := seqFault_spec n (code := 5) (by decide) s
  have before : (seqFault n 5 s).ctr (regAddr (pSeq n) 0x230) = s.ctr (regAddr (pSeq n) 0x230) := ctr_of_keeps parts (by decide) _
  let u := seqCount n 6 1 (seqFault n 5 s)
  obtain ⟨count, half, -, counted⟩ := countAt_spec (pSeq n) 0x200 0x1D0 5 40 6 1 (seqFault n 5 s)
  have raised : keeps [.ctrs, .regs, .hdrs, .links] (seqFault n 5 s) t :=
    keeps_mono (keeps_trans counted (raise_keeps (pSeq n) 2 u)) (by decide)
  refine ⟨seqSet_of_keeps set raised (by decide), keeps_mono (keeps_trans parts raised) (by decide),
    fun a ha => (raise_rd _ _ u a).trans (keepsRegs_trans regs half a ha),
    fun p => (raise_pstate _ _ u p).trans ((countAt_pstate _ _ _ _ _ _ _ _ p).trans (states p)), raise_intRaw _ _ u (by decide), ?_⟩
  exact (ctr_of_keeps (raise_keeps (pSeq n) 2 u) (by decide) _).trans (count.trans (by rw [before]))

/-- The registers that an expiry changes are none of a sequencer's own below the marks. -/
theorem not_mem_wdogRegs {n off : Nat} (h : off < 0x1D0) : regAddr (pSeq n) off ∉ wdogRegs n := by
  simp only [wdogRegs, logRegs, List.cons_append, List.nil_append, List.mem_cons, List.not_mem_nil, or_false, not_or, regAddr, pSeq, pLog]
  omega

/-- An expiry changes no register of a slice's SLC page. -/
theorem slicePage_not_mem_wdogRegs {n : Nat} (hn : n < 8) (j : Nat) {o : Nat} (ho : o < 0x1000) :
    regAddr (pSlice j 0) o ∉ wdogRegs n := by
  simp only [wdogRegs, logRegs, List.cons_append, List.nil_append, List.mem_cons, List.not_mem_nil, or_false, not_or, regAddr, pSeq, pLog,
    pSlice]
  omega

/-- An expiry leaves the sequencer free to run or not, as it was. -/
theorem seqMayRun_wdogExpired {n : Nat} (hn : n < 8) (s : State) : seqMayRun n (wdogExpired n s) = seqMayRun n s := by
  obtain ⟨-, parts, regs, states, -⟩ := wdogExpired_spec n s
  exact seqMayRun_congr states (parts .power (by decide)) (regs _ (not_mem_wdogRegs (by decide)))
    fun j o ho => regs _ (slicePage_not_mem_wdogRegs hn j ho)

/-- A sequencer as a start leaves it (R457). -/
def startedSeq (entry : Nat) (q : Seq) : Seq :=
  { q with
    run := .running, pc := entry, g := [], timers := [], events := 0, slots := [], txbuf := SeqMem.zero, cache := [], wait := none,
    wdogUs := 0 }

theorem seqStart_eq (n : Nat) (s : State) :
    seqStart n s = s.setSeq n (startedSeq (s.fld (regAddr (pSeq n) 0x10C) 0 25) (s.seq n)) := rfl

/-- A start after an expiry. -/
theorem seqStart_wdogExpired_spec (n : Nat) (s : State) :
    let t := seqStart n (wdogExpired n s)
    seqSet n (startedSeq (s.fld (regAddr (pSeq n) 0x10C) 0 25) (faultedSeq 5 (s.seq n))) s t ∧
      keeps [.seqs, .ctrs, .hdrs, .links, .regs, .log, .nvs] s t := by
  obtain ⟨set, parts, regs, -⟩ := wdogExpired_spec n s
  have entry : (wdogExpired n s).fld (regAddr (pSeq n) 0x10C) 0 25 = s.fld (regAddr (pSeq n) 0x10C) 0 25 :=
    congrArg (bits · 0 25) (regs _ (not_mem_wdogRegs (by decide)))
  rw [seqStart_eq, entry, set.1]
  exact ⟨seqSet_trans set (seqSet_setSeq n _ _), keeps_mono (keeps_trans parts (setSeq_keeps n _ _)) (by decide)⟩

/-! ### The commands on a sequencer -/

section
variable {m : AB} {n : Nat} {s : State} (on : s.running = true) (hn : n < 8)
include on hn

theorem exec_seqTimerFire {i : Nat} (hi : i < 4) (armed : (tblGet SeqTimer.off i (s.seq n).timers).armed = true) :
    exec (.seqTimerFire n i) s = .next (s.setSeq n (firedSeq i (s.seq n))) := by
  have row : exec (.seqTimerFire n i) s = execSeqTimerFire n i s := rfl
  simp only [row, execSeqTimerFire, whenOn_running on, Nat.mod_eq_of_lt hn, Nat.mod_eq_of_lt hi, armed, Bool.not_true,
    Bool.false_eq_true, if_false, firedSeq]

theorem exec_seqWatchdog (busy : (s.seq n).run = .running ∨ (s.seq n).run = .waiting) :
    exec (.seqWatchdog n) s = .next (if (s.flag (regAddr (pSeq n) 0x118) 31 && seqMayRun n s) = true
      then seqStart n (wdogExpired n s) else wdogExpired n s) := by
  have row : exec (.seqWatchdog n) s = execSeqWatchdog n s := rfl
  obtain ⟨-, -, regs, -⟩ := wdogExpired_spec n s
  have again : (wdogExpired n s).flag (regAddr (pSeq n) 0x118) 31 = s.flag (regAddr (pSeq n) 0x118) 31 :=
    flag_congr (regs _ (not_mem_wdogRegs (by decide))) 31
  rw [row, execSeqWatchdog, whenOn_running on, ← again, ← seqMayRun_wdogExpired hn s]
  simp only [Nat.mod_eq_of_lt hn]
  obtain h | h := busy
  · rw [h]
    rfl
  · rw [h]
    rfl

/-- Without AUTORESTART an expiry stops the sequencer with WDOG. -/
theorem seqWatchdog_stops (busy : (s.seq n).run = .running ∨ (s.seq n).run = .waiting)
    (once : s.flag (regAddr (pSeq n) 0x118) 31 = false) :
    exec (.seqWatchdog n) s = .next (wdogExpired n s) := by
  rw [exec_seqWatchdog on hn busy, once, Bool.false_and, if_neg Bool.false_ne_true]

/-- With AUTORESTART a sequencer that may run starts again. -/
theorem seqWatchdog_restarts (busy : (s.seq n).run = .running) (again : s.flag (regAddr (pSeq n) 0x118) 31 = true)
    (may : seqMayRun n s = true) :
    exec (.seqWatchdog n) s = .next (seqStart n (wdogExpired n s)) := by
  rw [exec_seqWatchdog on hn (.inl busy), again, may, Bool.and_self, if_pos rfl]

theorem exec_seqRestart : exec (.seqRestart m n) s = .next (writeReg m (pSeq n) 0x11C (seqCtrlHandler n) (field 0 1 1) s) := by
  have row : exec (.seqRestart m n) s = execSeqRestart m n s := rfl
  rw [row, execSeqRestart, whenOn_running on, Nat.mod_eq_of_lt hn]

theorem exec_seqInv : exec (.seqInv m n) s = .next (writeReg m (pSeq n) 0x11C (seqCtrlHandler n) (field 1 1 1) s) := by
  have row : exec (.seqInv m n) s = execSeqInv m n s := rfl
  rw [row, execSeqInv, whenOn_running on, Nat.mod_eq_of_lt hn]

theorem exec_dmemDataRead : exec (.dmemDataRead m n) s = .next (dmemRead m n none s) := by
  have row : exec (.dmemDataRead m n) s = execDmemDataRead m n s := rfl
  rw [row, execDmemDataRead, whenOn_running on, Nat.mod_eq_of_lt hn]

theorem exec_dmemDataWrite (v : Word) : exec (.dmemDataWrite m n v) s = .next (writeReg m (pSeq n) 0x128 (dmemHandler n) v s) := by
  have row : exec (.dmemDataWrite m n v) s = execDmemDataWrite m n v s := rfl
  rw [row, execDmemDataWrite, whenOn_running on, Nat.mod_eq_of_lt hn]

end

/-- A register with no field of the access code RWP asks for no presence token. -/
theorem ungated_of_acc {p off : Nat} (acc : ∀ f ∈ fieldsAt p off, f.acc ≠ .rwp) (v : Word) :
    touches .rwp (fieldsAt p off) v = false :=
  List.any_eq_false.mpr fun f mem => by simp [acc f mem]

/-- SEQ_CTRL and SEQ_DMEM_DATA ask for no presence token. -/
theorem seq_ungated {n off : Nat} (hn : n < 8) (named : off ∈ [0x11C, 0x128]) (v : Word) :
    touches .rwp (fieldsAt (pSeq n) off) v = false := by
  have table : ∀ n < 8, ∀ off ∈ [0x11C, 0x128], ∀ f ∈ fieldsAt (pSeq n) off, f.acc ≠ .rwp := by decide
  exact ungated_of_acc (table n hn off named) v

section
variable {m : AB} {n : Nat} {s : State}

/-- RESTART starts the sequencer. -/
theorem seqCtrlHandler_restart : (seqCtrlHandler n).run m (field 0 1 1) s =
    s.setSeq n (startedSeq (s.fld (regAddr (pSeq n) 0x10C) 0 25) (s.seq n)) := rfl

/-- INV empties the instruction cache. -/
theorem seqCtrlHandler_inv : (seqCtrlHandler n).run m (field 1 1 1) s = s.setSeq n { s.seq n with cache := [] } := rfl

/-- A sequencer that an accepted write of SEQ_CTRL replaces. -/
theorem writeReg_seqCtrl {v : Word} {q : Seq} (hn : n < 8) (run : (seqCtrlHandler n).run m v s = s.setSeq n q)
    (ok : admits m (pSeq n) 0x11C (seqCtrlHandler n) v s = true) :
    let t := writeReg m (pSeq n) 0x11C (seqCtrlHandler n) v s
    keeps [.seqs, .last] s t ∧ t.last = .done ∧ (∀ j, j ≠ n → t.seq j = s.seq j) ∧ t.seq n = q := by
  rw [writeReg_ungated ok (seq_ungated hn (by decide) v), run]
  obtain ⟨set, others⟩ := seqSet_setSeq n q s
  exact ⟨keeps_trans (setSeq_keeps n q s) (ended_keeps _ _ _ _), rfl, others, set⟩

/-! ### The DMEM window (R475) -/

/-- SEL moves to the next word, and nothing else changes. -/
theorem dmemStep_spec (n : Nat) (s : State) :
    dmemSel n (dmemStep n s) = (dmemSel n s + 4) % 8192 ∧ keepsRegs [regAddr (pSeq n) 0x124] s (dmemStep n s) ∧
      keeps [.regs] s (dmemStep n s) := by
  refine ⟨?_, wr_keepsRegs _ _ s, wr_keeps _ _ s⟩
  have field : (dmemStep n s).fld (regAddr (pSeq n) 0x124) 2 11 = (s.fld (regAddr (pSeq n) 0x124) 2 11 + 1) % 2 ^ 11 :=
    (congrArg (bits · 2 11) (State.rd_wr_same s _ _)).trans (bits_setBits_same _ _ _ _ (by decide))
  rw [dmemSel, dmemSel, field]
  omega

/-- SEL names a word of DMEM. -/
theorem dmemSel_lt (n : Nat) (s : State) : dmemSel n s < 8192 := by
  have field : s.fld (regAddr (pSeq n) 0x124) 2 11 < 2 ^ 11 := bits_lt _ _ _
  rw [dmemSel]
  omega

/-- A word of a clean memory is whole. -/
theorem seqTouch_of_memClean (n a : Nat) (clean : memClean s = true) : seqTouch n a s = (s, false) := by
  obtain ⟨upsets, poison, -⟩ := memClean_iff.mp clean
  simp [seqTouch, readRow, upsets, poison]

/-- A store to DMEM of a clean memory writes its bytes. -/
theorem seqStore_of_memClean {a : Nat} (low : a < 0x4000) (l : List Byte) (clean : memClean s = true) :
    seqStore n a l s = s.setSeq n { s.seq n with dmem := (s.seq n).dmem.write a l } := by
  obtain ⟨-, poison, -⟩ := memClean_iff.mp clean
  have still : memClean (s.setSeq n { s.seq n with dmem := (s.seq n).dmem.write a l }) = true := clean
  simp [seqStore, poison, Seq.putBytes, low, wroteWord_of_memClean _ _ still]

theorem dmemRead_of_memClean (clean : memClean s = true) (ok : readable m (pSeq n) 0x128 s = true) :
    dmemRead m n none s = ended .ok (dmemWord n s) .none (dmemStep n s) :=
  runReadAt_readable _ _ ok (seqTouch_of_memClean n _ clean)

theorem dmemRead_spec (clean : memClean s = true) (ok : readable m (pSeq n) 0x128 s = true) :
    let t := dmemRead m n none s
    t.last = ⟨.ok, dmemWord n s, .none⟩ ∧ t.seq n = s.seq n ∧ dmemSel n t = (dmemSel n s + 4) % 8192 ∧
      keepsRegs [regAddr (pSeq n) 0x124] s t ∧ keeps [.regs, .last] s t := by
  rw [dmemRead_of_memClean clean ok]
  obtain ⟨next, regs, parts⟩ := dmemStep_spec n s
  exact ⟨rfl, seq_of_keeps parts (by decide) n, next, regs, keeps_trans parts (ended_keeps _ _ _ _)⟩

theorem writeReg_dmem {v : Word} (hn : n < 8) (clean : memClean s = true)
    (ok : admits m (pSeq n) 0x128 (dmemHandler n) v s = true) :
    let t := writeReg m (pSeq n) 0x128 (dmemHandler n) v s
    t.last = .done ∧ (∀ j, j ≠ n → t.seq j = s.seq j) ∧ (t.seq n).dmem.read (dmemSel n s) 4 = beBytes 4 v.toNat ∧
      dmemSel n t = (dmemSel n s + 4) % 8192 ∧
      (∀ a, a < dmemSel n s ∨ dmemSel n s + 4 ≤ a → (t.seq n).dmem.get a = (s.seq n).dmem.get a) ∧
      keepsRegs [regAddr (pSeq n) 0x124, regAddr pPrs 0x110] s t ∧ keeps [.seqs, .regs, .last] s t := by
  have low : dmemSel n s < 0x4000 := Nat.lt_trans (dmemSel_lt n s) (by decide)
  let w := (s.seq n).dmem.write (dmemSel n s) (beBytes 4 v.toNat)
  let u := s.setSeq n { s.seq n with dmem := w }
  have run : (dmemHandler n).run m v s = dmemStep n u := congrArg (dmemStep n) (seqStore_of_memClean low _ clean)
  rw [writeReg_ungated ok (seq_ungated hn (by decide) v), run]
  obtain ⟨next, regs, parts⟩ := dmemStep_spec n u
  obtain ⟨set, others⟩ := seqSet_of_keeps (seqSet_setSeq n { s.seq n with dmem := w } s) parts (by decide)
  have memory : ((dmemStep n u).seq n).dmem = w := congrArg Seq.dmem set
  have stored := SeqMem.read_write_same (beBytes 4 v.toNat) (dmemSel n s) (s.seq n).dmem
  have frame (a : Nat) (outside : a < dmemSel n s ∨ dmemSel n s + 4 ≤ a) : w.get a = (s.seq n).dmem.get a :=
    SeqMem.get_write_outside _ (by rwa [length_beBytes]) _
  rw [length_beBytes] at stored
  exact ⟨rfl, others, (congrArg (SeqMem.read · _ 4) memory).trans stored, next,
    fun a outside => (congrArg (SeqMem.get · a) memory).trans (frame a outside), keepsRegs_mono regs (by simp),
    keeps_trans (keeps_trans (setSeq_keeps n _ s) parts) (ended_keeps _ _ _ _)⟩

end

end Sys2Proof.Machine

/-!
PROOFS. Check channels under a master (R481 to R484): what the operations of a channel leave of its computation, and the commands by which a
master starts, feeds and reads one.
-/

namespace Sys2Proof.Machine

/-! ### Operations of a channel -/

theorem chan_setChan_other {i j : Nat} (h : j ≠ i) (x : Chk) (s : State) : (s.setChan i x).chan j = s.chan j :=
  tblGet_tblSet_other _ _ _ h _

/-- Channels that are kept, as equations. -/
theorem chan_of_keeps {l : List Part} {s t : State} (kept : keeps l s t) (h : Part.chk ∉ l) (i : Nat) : t.chan i = s.chan i := by
  have same : t.chk = s.chk := kept .chk h
  simp only [State.chan, same]

/-- An interrupt of headers that are kept. -/
theorem intRawBit_of_keeps {l : List Part} {s t : State} (kept : keeps l s t) (h : Part.hdrs ∉ l) (p i : Nat) :
    intRawBit t p i = intRawBit s p i :=
  congrArg (fun x : Hdr => bit x.intRaw i) (keepsHdrs_of_keeps kept h p (by simp))

/-- The parts that an operation of a check channel may change. -/
def chanParts : List Part := [.chk, .regs, .ctrs, .hdrs, .links]

/-- Channel `n` holds the computation `x`; no other channel and no register but the page's half-range marks has changed, and no part but the
page's counters and interrupts. -/
def chanSet (n : Nat) (x : Chk) (s t : State) : Prop :=
  t.chan n = x ∧ (∀ j, j ≠ n → t.chan j = s.chan j) ∧ keepsRegs [regAddr (pChk n) 0x1F0] s t ∧ keeps chanParts s t

theorem chanSet_trans {n : Nat} {x y : Chk} {s t u : State} (a : chanSet n x s t) (b : chanSet n y t u) : chanSet n y s u := by
  obtain ⟨-, others, regs, parts⟩ := a
  obtain ⟨value, others', regs', parts'⟩ := b
  exact ⟨value, fun j ne => (others' j ne).trans (others j ne), keepsRegs_mono (keepsRegs_trans regs regs') (by simp),
    keeps_mono (keeps_trans parts parts') (by decide)⟩

theorem chanSet_setChan (n : Nat) (x : Chk) (s : State) : chanSet n x s (s.setChan n x) :=
  ⟨State.chan_setChan_same s n x, fun _ h => chan_setChan_other h x s, fun _ _ => rfl, keeps_mono (setChan_keeps n x s) (by decide)⟩

theorem chanSet_refl (n : Nat) (s : State) : chanSet n (s.chan n) s s :=
  ⟨rfl, fun _ _ => rfl, keepsRegs_refl _ _, keeps_refl _ _⟩

theorem chanSet_raise (n i : Nat) {x : Chk} {s t : State} (set : chanSet n x s t) : chanSet n x s (raise (pChk n) i t) := by
  obtain ⟨value, others, regs, parts⟩ := set
  have raised := raise_keeps (pChk n) i t
  exact ⟨(chan_of_keeps raised (by decide) n).trans value, fun j ne => (chan_of_keeps raised (by decide) j).trans (others j ne),
    fun a ha => (raise_rd _ _ t a).trans (regs a ha), keeps_mono (keeps_trans parts raised) (by decide)⟩

/-- Counting in one of the counters of Table 17-2 leaves every computation alone. -/
theorem chanSet_chanCount (n : Nat) {i : Nat} (hi : i < 32) (w k : Nat) {x : Chk} {s t : State} (set : chanSet n x s t) :
    chanSet n x s (chanCount n i w k t) := by
  obtain ⟨value, others, regs, parts⟩ := set
  obtain ⟨-, half, -, counted⟩ := countAt_spec (pChk n) 0x200 0x1F0 3 w i k t
  rw [Nat.div_eq_of_lt hi] at half
  exact ⟨(chan_of_keeps counted (by decide) n).trans value, fun j ne => (chan_of_keeps counted (by decide) j).trans (others j ne),
    keepsRegs_mono (keepsRegs_trans regs half) (by simp), keeps_mono (keeps_trans parts counted) (by decide)⟩

section
variable {n : Nat} {x : Chk} {s t : State} (set : chanSet n x s t)
include set

/-- The registers of a channel below its half-range marks stand. -/
theorem chan_rp_of_chanSet {off : Nat} (h : off < 0x1F0) : t.rp (pChk n) off = s.rp (pChk n) off := by
  obtain ⟨-, -, regs, -⟩ := set
  refine regs _ fun mem => ?_
  rw [List.mem_singleton, regAddr_inj] at mem
  omega

theorem chanParam_of_chanSet : chanParam n t = chanParam n s := by
  simp only [chanParam, chan_rp_of_chanSet set (off := 0x100) (by decide), chan_rp_of_chanSet set (off := 0x104) (by decide),
    chan_rp_of_chanSet set (off := 0x108) (by decide)]

theorem chanLen_of_chanSet : chanLen n t = chanLen n s := by
  simp only [chanLen, chan_rp_of_chanSet set (off := 0x10C) (by decide)]

/-- The end of a single-word access of which the channel is what changed. -/
theorem ended_of_chanSet (st : Status) (d : Word) (c : Cause) :
    (ended st d c t).last = ⟨st, d, c⟩ ∧ (ended st d c t).chan n = x ∧ (∀ j, j ≠ n → (ended st d c t).chan j = s.chan j) ∧
      keeps [.chk, .last, .regs, .ctrs, .hdrs, .links] s (ended st d c t) := by
  obtain ⟨value, others, -, parts⟩ := set
  exact ⟨rfl, value, others, keeps_mono (keeps_trans parts (ended_keeps st d c t)) (by decide)⟩

end

/-- The computation moves to COMPLETE. -/
theorem chanComplete_spec (n : Nat) (s : State) : chanSet n { s.chan n with state := .complete } s (chanComplete n s) := by
  have moved := chanSet_setChan n { s.chan n with state := .complete } s
  exact ite_all (P := chanSet n { s.chan n with state := .complete } s) (chanSet_raise n 0 moved) moved

/-- A computation as a start leaves it: open, over the bytes of a folded context word. -/
def startedChk (n starter : Nat) (fold : Option Word) (s : State) : Chk :=
  let p := chanParam n s
  let r := match fold with
    | some w => crcBytes p p.init (beBytes 4 w.toNat)
    | none => p.init
  ⟨r, .open, false, false, starter, 0⟩

theorem chanStart_spec (n starter : Nat) (fold : Option Word) (s : State) :
    chanSet n (startedChk n starter fold s) s (chanStart n starter fold s) := by
  let u := if (s.chan n).state = .open then chanCount n 3 40 1 s else s
  have abandoned : chanSet n (s.chan n) s u :=
    ite_all (P := chanSet n (s.chan n) s) (chanSet_chanCount n (by decide) 40 1 (chanSet_refl n s)) (chanSet_refl n s)
  have param : startedChk n starter fold u = startedChk n starter fold s := by
    simp only [startedChk, chanParam_of_chanSet abandoned]
  rw [← param]
  exact chanSet_chanCount n (by decide) 40 1 (chanSet_trans abandoned (chanSet_setChan n _ u))

/-- A computation after an accepted feed: COMPLETE as soon as COUNT reaches CHK_LEN (R483). -/
def fedChk (n : Nat) (l : List Byte) (s : State) : Chk :=
  let c := s.chan n
  { c with
    crc := crcBytes (chanParam n s) c.crc l, count := c.count + l.length
    state := if chanLen n s ≠ 0 ∧ c.count + l.length = chanLen n s then .complete else c.state }

theorem chanFeed_spec (n : Nat) (l : List Byte) (s : State) : chanSet n (fedChk n l s) s (chanFeed n l s) := by
  let c : Chk := { s.chan n with crc := crcBytes (chanParam n s) (s.chan n).crc l, count := (s.chan n).count + l.length }
  let u := chanCount n 1 48 l.length (s.setChan n c)
  have taken : chanSet n c s u := chanSet_chanCount n (by decide) 48 _ (chanSet_setChan n c s)
  have run : chanFeed n l s =
      if chanLen n u ≠ 0 ∧ (s.chan n).count + l.length = chanLen n u then chanComplete n u else u := rfl
  rw [run, chanLen_of_chanSet taken]
  by_cases full : chanLen n s ≠ 0 ∧ (s.chan n).count + l.length = chanLen n s
  · have last : fedChk n l s = { u.chan n with state := .complete } := by rw [fedChk, if_pos full, taken.1]
    rw [if_pos full, last]
    exact chanSet_trans taken (chanComplete_spec n u)
  · have stillOpen : fedChk n l s = c := by rw [fedChk, if_neg full]
    rw [if_neg full, stillOpen]
    exact taken

/-- A rejected feed or start leaves REJECT and its interrupt (R482). -/
theorem chanReject_spec (n : Nat) (s : State) :
    chanSet n { s.chan n with reject := true } s (chanReject n s) ∧ intRawBit (chanReject n s) (pChk n) 1 = true :=
  ⟨chanSet_raise n 1 (chanSet_chanCount n (by decide) 40 1 (chanSet_setChan n _ s)), raise_intRaw _ _ _ (by decide)⟩

/-! ### The commands of a master (R481, R482, R484) -/

/-- CHK_START and the feed registers. -/
def chanWriteOffs : List Nat := [0x114, 0x120, 0x124, 0x128]

/-- They ask for no presence token. -/
theorem chk_ungated {n off : Nat} (hn : n < 8) (named : off ∈ chanWriteOffs) (v : Word) :
    touches .rwp (fieldsAt (pChk n) off) v = false := by
  have table : ∀ n < 8, ∀ off ∈ chanWriteOffs, ∀ f ∈ fieldsAt (pChk n) off, f.acc ≠ .rwp := by decide
  exact ungated_of_acc (table n hn off named) v

/-- A feed command, with its register and its count of bytes (Table 17-1): it is a master's feed through that register. -/
def feedRow (m : AB) (n : Nat) (x : (Word → Instr) × Nat × Nat) : Prop :=
  x.2.1 ∈ chanWriteOffs ∧ ∀ v s, exec (x.1 v) s = whenOn s (.next (masterFeed m n x.2.1 x.2.2 v s))

theorem feedRow_of_mem {m : AB} {n : Nat} :
    ∀ x ∈ [(Instr.chkFeedByte m n, 0x120, 1), (.chkFeedHalf m n, 0x124, 2), (.chkFeedWord m n, 0x128, 4)], feedRow m n x := by
  simp only [List.forall_mem_cons, List.not_mem_nil, false_implies, implies_true, and_true]
  have listed : 0x120 ∈ chanWriteOffs ∧ 0x124 ∈ chanWriteOffs ∧ 0x128 ∈ chanWriteOffs := by decide
  obtain ⟨byte, half, whole⟩ := listed
  exact ⟨⟨byte, fun _ _ => rfl⟩, ⟨half, fun _ _ => rfl⟩, whole, fun _ _ => rfl⟩

section
variable {m : AB} {n : Nat} {s : State}

theorem exec_chkStart (on : s.running = true) (f : Bool) :
    exec (.chkStart m n f) s = .next (writeReg m (pChk n) 0x114 (chanStartHandler n) (word (1 + 2 * b2n f)) s) := by
  have row : exec (.chkStart m n f) s = execChkStart m n f s := rfl
  rw [row, execChkStart, whenOn_running on]

theorem exec_feed (on : s.running = true) {x : (Word → Instr) × Nat × Nat} (row : feedRow m n x) (v : Word) :
    exec (x.1 v) s = .next (writeReg m (pChk n) x.2.1 (chanFeedHandler n x.2.1 x.2.2) v s) := by
  rw [row.2, whenOn_running on, masterFeed]

theorem exec_chkResultRead (on : s.running = true) (hn : n < 8) :
    exec (.chkResultRead m n) s = .next (runReadAt m none (pChk n) 0x130 (fun s => (s, false)) (chanRead n) (chanReadEffect n) s) := by
  have row : exec (.chkResultRead m n) s = execChkResultRead m n s := rfl
  rw [row, execChkResultRead, whenOn_running on, Nat.mod_eq_of_lt hn]

/-- START is set in the value that CHK_START carries, and FOLD where it is asked for. -/
theorem chanStartHandler_run (f : Bool) : (chanStartHandler n).run m (word (1 + 2 * b2n f)) s =
    chanStart n m.num (if f then some (s.rp (pChk n) 0x110) else none) s := by
  cases f <;> rfl

theorem writeReg_chkStart {f : Bool} (hn : n < 8) (ok : admits m (pChk n) 0x114 (chanStartHandler n) (word (1 + 2 * b2n f)) s = true) :
    let t := writeReg m (pChk n) 0x114 (chanStartHandler n) (word (1 + 2 * b2n f)) s
    keeps [.chk, .last, .regs, .ctrs, .hdrs, .links] s t ∧ t.last = .done ∧ (∀ j, j ≠ n → t.chan j = s.chan j) ∧
      t.chan n = ⟨(if f then crcBytes (chanParam n s) (chanParam n s).init (beBytes 4 (s.rp (pChk n) 0x110).toNat)
        else (chanParam n s).init), .open, false, false, m.num, 0⟩ := by
  rw [writeReg_ungated ok (chk_ungated hn (by decide) _), chanStartHandler_run]
  obtain ⟨last, value, others, parts⟩ :=
    ended_of_chanSet (chanStart_spec n m.num (if f then some (s.rp (pChk n) 0x110) else none) s) .ok 0 .none
  refine ⟨parts, last, others, value.trans ?_⟩
  cases f <;> rfl

/-- An accepted feed of an OPEN computation. -/
theorem writeReg_feed {off k : Nat} {v : Word} (hn : n < 8) (named : off ∈ chanWriteOffs)
    (ok : admits m (pChk n) off (chanFeedHandler n off k) v s = true) :
    let t := writeReg m (pChk n) off (chanFeedHandler n off k) v s
    keeps [.chk, .last, .regs, .ctrs, .hdrs, .links] s t ∧ t.last = .done ∧ (∀ j, j ≠ n → t.chan j = s.chan j) ∧
      (t.chan n).count = (s.chan n).count + k ∧ (t.chan n).crc = crcBytes (chanParam n s) (s.chan n).crc (beBytes k v.toNat) ∧
      (t.chan n).state = if chanLen n s ≠ 0 ∧ (s.chan n).count + k = chanLen n s then .complete else .open := by
  have accepted : feedRejected n k s = false := range_of_admits ok
  have stillOpen : (s.chan n).state = .open := by
    simp only [feedRejected, Bool.or_eq_false_iff, bne_eq_false_iff_eq] at accepted
    exact accepted.1.2
  have run : (chanFeedHandler n off k).run m v s = chanFeed n (beBytes k v.toNat) s := rfl
  rw [writeReg_ungated ok (chk_ungated hn named v), run]
  obtain ⟨last, value, others, parts⟩ := ended_of_chanSet (chanFeed_spec n (beBytes k v.toNat) s) .ok 0 .none
  refine ⟨parts, last, others, ?_, congrArg Chk.crc value, ?_⟩
  · rw [value, fedChk, length_beBytes]
  · rw [value, fedChk, length_beBytes, stillOpen]

/-- A rejected feed changes nothing of the computations but REJECT. -/
theorem writeReg_feed_rejected {off k : Nat} {v : Word} (hn : n < 8) (named : off ∈ chanWriteOffs)
    (reach : reachesRange m (pChk n) off (chanFeedHandler n off k) v s = true) (rejected : feedRejected n k s = true) :
    let t := writeReg m (pChk n) off (chanFeedHandler n off k) v s
    keeps [.chk, .last, .regs, .ctrs, .hdrs, .links] s t ∧ t.last = ⟨.range, 0, .none⟩ ∧
      t.chan n = { s.chan n with reject := true } ∧ (∀ j, j ≠ n → t.chan j = s.chan j) ∧ intRawBit t (pChk n) 1 = true := by
  have range : (chanFeedHandler n off k).range m v s = true := rejected
  have effect : (chanFeedHandler n off k).onRange s = chanReject n s := rfl
  have below : ∀ x ∈ chanWriteOffs, x < 0x1000 := by decide
  have low : regAddr (pChk n) off < 2 ^ 32 := by
    have := below off named
    simp only [regAddr, pChk]
    omega
  rw [writeReg_outOfRange reach (by rw [range, Bool.or_true]), effect]
  obtain ⟨⟨value, others, -, parts⟩, marked⟩ := chanReject_spec n s
  obtain ⟨last, -, -, -, -, refused⟩ := refuseWrite_range m 0x02 0 0 low (chanReject n s)
  exact ⟨keeps_mono (keeps_trans parts refused) (by decide), last, (chan_of_keeps refused (by decide) n).trans value,
    fun j ne => (chan_of_keeps refused (by decide) j).trans (others j ne), (intRawBit_of_keeps refused (by decide) _ 1).trans marked⟩

/-! ### A read of CHK_RESULT (R484) -/

theorem chkResultRead_eq (ok : readable m (pChk n) 0x130 s = true) :
    runReadAt m none (pChk n) 0x130 (fun s => (s, false)) (chanRead n) (chanReadEffect n) s =
      ended .ok (chanRead n s) .none (chanReadEffect n s) :=
  runReadAt_readable _ _ ok rfl

/-- The result of a finished or an open computation is over the bytes taken so far. -/
theorem chanRead_of_live (h : (s.chan n).state = .complete ∨ (s.chan n).state = .open) : chanRead n s = chanResult n s := by
  obtain h | h := h <;> rw [chanRead, h]

theorem chanRead_of_dead (h : (s.chan n).state = .none ∨ (s.chan n).state = .invalid) : chanRead n s = 0 := by
  obtain h | h := h <;> rw [chanRead, h]

theorem chanReadEffect_of_dead (h : (s.chan n).state = .none ∨ (s.chan n).state = .invalid) : chanReadEffect n s = s := by
  obtain h | h := h <;> simp only [chanReadEffect, h]

theorem chanReadEffect_of_complete (h : (s.chan n).state = .complete) :
    chanReadEffect n s = s.setChan n { s.chan n with read := true } := by
  simp only [chanReadEffect, h]

/-- With CHK_LEN 0 a read ends an open computation. -/
theorem chanReadEffect_of_open (h : (s.chan n).state = .open) (unbounded : chanLen n s = 0) :
    chanReadEffect n s = (chanComplete n s).setChan n { (chanComplete n s).chan n with read := true } := by
  simp only [chanReadEffect, h, unbounded, if_true]

theorem chanReadEffect_of_bounded (h : (s.chan n).state = .open) (bounded : chanLen n s ≠ 0) : chanReadEffect n s = s := by
  simp only [chanReadEffect, h, bounded, if_false]

/-- An interrupt apart, moving to COMPLETE changes the computation alone. -/
theorem chanComplete_keeps (n : Nat) (s : State) : keeps [.chk, .hdrs, .links] s (chanComplete n s) := by
  have moved := setChan_keeps n { s.chan n with state := .complete } s
  exact ite_all (P := keeps [.chk, .hdrs, .links] s) (keeps_trans moved (raise_keeps _ _ _)) (keeps_mono moved (by decide))

/-- A read ends an open computation without CHK_LEN, and marks its result read. -/
theorem chkResultRead_open (ok : readable m (pChk n) 0x130 s = true) (h : (s.chan n).state = .open) (unbounded : chanLen n s = 0) :
    let t := runReadAt m none (pChk n) 0x130 (fun s => (s, false)) (chanRead n) (chanReadEffect n) s
    keeps [.chk, .last, .hdrs, .links] s t ∧ t.last = ⟨.ok, chanResult n s, .none⟩ ∧
      t.chan n = { s.chan n with state := .complete, read := true } := by
  rw [chkResultRead_eq ok, chanRead_of_live (.inr h), chanReadEffect_of_open h unbounded]
  refine ⟨keeps_mono (keeps_trans (keeps_trans (chanComplete_keeps n s) (setChan_keeps n _ _)) (ended_keeps _ _ _ _)) (by decide),
    rfl, (State.chan_setChan_same _ n _).trans ?_⟩
  rw [(chanComplete_spec n s).1]

end

/-- Settles O58: a timer and an expiry by the sequencer that each leaves (`firedSeq`, `wdogExpired_spec`), every other command as one
single-word access: of SEQ_CTRL, of the DMEM window, or of the channel's registers. -/
theorem sequencersAndChecksAreDriven : Obligations.SequencersAndChecksAreDriven := by
  intro m n s on hn
  refine ⟨fun i hi armed => ⟨_, exec_seqTimerFire on hn hi armed, ?_⟩,
    fun busy once => ⟨_, seqWatchdog_stops on hn busy once, ?_⟩,
    fun busy again may => ⟨_, seqWatchdog_restarts on hn busy again may, ?_⟩,
    fun ok => ⟨_, exec_seqRestart on hn, ?_⟩,
    fun ok => ⟨_, exec_seqInv on hn, ?_⟩,
    fun clean ok => ⟨_, exec_dmemDataRead on hn, dmemRead_spec clean ok⟩,
    fun v clean ok => ⟨_, exec_dmemDataWrite on hn v, writeReg_dmem hn clean ok⟩,
    fun f ok => ⟨_, exec_chkStart on f, writeReg_chkStart hn ok⟩,
    fun x row v => ⟨fun ok => ⟨_, exec_feed on (feedRow_of_mem x row) v, writeReg_feed hn (feedRow_of_mem x row).1 ok⟩,
      fun thawed mine free locked ungated rejected => ⟨_, exec_feed on (feedRow_of_mem x row) v,
        writeReg_feed_rejected hn (feedRow_of_mem x row).1 ?_ rejected⟩⟩,
    fun ok => ⟨fun done => ⟨_, exec_chkResultRead on hn, ?_⟩,
      fun live unbounded => ⟨_, exec_chkResultRead on hn, chkResultRead_open ok live unbounded⟩,
      fun live bounded => ⟨_, exec_chkResultRead on hn, ?_⟩, fun dead => ⟨_, exec_chkResultRead on hn, ?_⟩⟩⟩
  · obtain ⟨value, others⟩ := seqSet_setSeq n (firedSeq i (s.seq n)) s
    rw [value]
    exact ⟨others, setSeq_keeps _ _ s, rfl, firedSeq_timer_of_once⟩
  · obtain ⟨⟨value, others⟩, parts, -, -, marked, counted⟩ := wdogExpired_spec n s
    exact ⟨keeps_mono parts (by decide), others, value, marked, counted⟩
  · obtain ⟨⟨value, others⟩, parts⟩ := seqStart_wdogExpired_spec n s
    rw [value]
    exact ⟨keeps_mono parts (by decide), others, rfl, rfl, rfl, rfl⟩
  · obtain ⟨parts, last, others, value⟩ := writeReg_seqCtrl hn seqCtrlHandler_restart ok
    exact ⟨keeps_mono parts (by decide), last, others, value⟩
  · obtain ⟨parts, last, others, value⟩ := writeReg_seqCtrl hn seqCtrlHandler_inv ok
    exact ⟨keeps_mono parts (by decide), last, others, value⟩
  · simp [reachesRange, thawed, mine, free, locked, ungated, chanFeedHandler, plain]
  · rw [chkResultRead_eq ok, chanRead_of_live (.inl done), chanReadEffect_of_complete done]
    exact ⟨rfl, State.chan_setChan_same s n _, fun _ _ => rfl,
      keeps_mono (keeps_trans (setChan_keeps n _ s) (ended_keeps _ _ _ _)) (by decide)⟩
  · rw [chkResultRead_eq ok, chanRead_of_live (.inr live), chanReadEffect_of_bounded live bounded]
    exact ⟨rfl, ended_keeps _ _ _ s⟩
  · rw [chkResultRead_eq ok, chanRead_of_dead dead, chanReadEffect_of_dead dead]
    exact ⟨rfl, ended_keeps _ _ _ s⟩

end Sys2Proof.Machine

/-!
PROOFS. The words of the sequencers' instructions (R460): the fields that an encoded word holds, and decoding by them.
-/

namespace Sys2Proof

/-! ### The fields of an instruction word (Tables 16-2 and 16-3) -/

section
variable {op fn : Nat} (rd ra rb : BitVec 5) (imm : BitVec 16) (off : BitVec 21)

theorem encR_fields (hop : op < 64) (hfn : fn < 64) :
    encR op fn rd ra rb < 2 ^ 32 ∧ encR op fn rd ra rb / 2 ^ 26 = op ∧ encR op fn rd ra rb % 64 = fn ∧
    encR op fn rd ra rb / 64 % 32 = 0 ∧ encR op fn rd ra rb % 2 ^ 11 = fn := by
  unfold encR
  omega

theorem encR_regs (hfn : fn < 64) :
    regField (encR op fn rd ra rb) 21 = rd ∧ regField (encR op fn rd ra rb) 16 = ra ∧ regField (encR op fn rd ra rb) 11 = rb := by
  refine ⟨?_, ?_, ?_⟩ <;>
  · apply BitVec.eq_of_toNat_eq
    simp only [regField, encR, BitVec.toNat_ofNat]
    omega

theorem encI_fields (hop : op < 64) :
    encI op rd ra imm < 2 ^ 32 ∧ encI op rd ra imm / 2 ^ 26 = op ∧
    encI op rd ra imm % 2 ^ 26 = rd.toNat * 2 ^ 21 + ra.toNat * 2 ^ 16 + imm.toNat := by
  unfold encI
  omega

theorem encI_operands : regField (encI op rd ra imm) 21 = rd ∧ regField (encI op rd ra imm) 16 = ra ∧
    BitVec.ofNat 16 (encI op rd ra imm) = imm := by
  refine ⟨?_, ?_, ?_⟩ <;>
  · apply BitVec.eq_of_toNat_eq
    simp only [regField, encI, BitVec.toNat_ofNat]
    omega

/-- The word of JAL, whose offset takes the low 21 bits. -/
theorem encJ_fields (w : Nat) (hw : w = 0x24 * 2 ^ 26 + rd.toNat * 2 ^ 21 + off.toNat) :
    w < 2 ^ 32 ∧ w / 2 ^ 26 = 0x24 ∧ regField w 21 = rd ∧ BitVec.ofNat 21 w = off := by
  refine ⟨by omega, by omega, BitVec.eq_of_toNat_eq ?_, BitVec.eq_of_toNat_eq ?_⟩
  · simp only [regField, BitVec.toNat_ofNat]
    omega
  · simp only [BitVec.toNat_ofNat]
    omega

/-! ### Decoding -/

/-- The word of an instruction decodes to it. -/
def roundTrips (w : Nat) (i : Instr) : Prop := w < 2 ^ 32 ∧ ∃ n, n < 8 ∧ seqDecode n w = some i

/-- An instruction of OP 0 is found by its FN. -/
theorem roundTrips_encR0 {n : Nat} {i : Instr} (hn : isSeq n = true) (hfn : fn < 64) (row : decodeFn n fn rd ra rb = some i) :
    roundTrips (encR 0 fn rd ra rb) i := by
  obtain ⟨size, op0, fnSame, clear, -⟩ := encR_fields rd ra rb (op := 0) (by decide) hfn
  obtain ⟨hrd, hra, hrb⟩ := encR_regs rd ra rb (op := 0) hfn
  refine ⟨size, n, by simpa [isSeq] using hn, ?_⟩
  simp only [seqDecode, op0, fnSame, clear, hrd, hra, hrb, if_true, row]

/-- An instruction of the I and B formats is found by its OP, once its operands are read out of the word. -/
theorem roundTrips_encI {n : Nat} {i : Instr} (hn : isSeq n = true) (hop : op < 64)
    (row : ∀ w, w / 2 ^ 26 = op → regField w 21 = rd → regField w 16 = ra → BitVec.ofNat 16 w = imm →
      w % 2 ^ 26 = rd.toNat * 2 ^ 21 + ra.toNat * 2 ^ 16 + imm.toNat → seqDecode n w = some i) :
    roundTrips (encI op rd ra imm) i := by
  obtain ⟨size, opSame, low⟩ := encI_fields rd ra imm hop
  obtain ⟨hrd, hra, himm⟩ := encI_operands (op := op) rd ra imm
  exact ⟨size, n, by simpa [isSeq] using hn, row _ opSame hrd hra himm low⟩

end

/-- Settles O5: the fields of the word are the operands, and a well-formed operand has its unused bits 0. -/
theorem sequencerWordsRoundTrip : Obligations.SequencerWordsRoundTrip := by
  intro w i wf enc
  cases i <;> simp only [seqEncode, Option.some.injEq, reduceCtorEq] at enc <;> subst enc
  case add | sub | and | or | xor | shl | shr | sra | sltu | slt | mul | mulhu =>
    exact roundTrips_encR0 _ _ _ wf (by decide) rfl
  case jal n rd off =>
    obtain ⟨size, op, hrd, hoff⟩ := encJ_fields rd off _ rfl
    exact ⟨size, n, by simpa [Instr.wf, isSeq] using wf, by simp only [seqDecode, op, hrd, hoff]⟩
  case fsend n rd ra rb =>
    obtain ⟨size, op, -, -, low⟩ := encR_fields rd ra rb (op := 0x38) (fn := 0) (by decide) (by decide)
    obtain ⟨hrd, hra, hrb⟩ := encR_regs rd ra rb (op := 0x38) (fn := 0) (by decide)
    exact ⟨size, n, by simpa [Instr.wf, isSeq] using wf, by simp only [seqDecode, op, low, hrd, hra, hrb, unused, BEq.rfl, if_true]⟩
  case addi | andi | ori | xori | sltiu | lw | lh | lb | sw | sh | sb | ldx | stx | beq | bne | bltu | bgeu | jalr =>
    exact roundTrips_encI _ _ _ wf (by decide) fun w op hrd hra himm _ => by simp only [seqDecode, op, hrd, hra, himm]
  case wdog | rxfree | halt =>
    exact roundTrips_encI _ _ _ wf (by decide) fun w op _ _ _ low => by
      have clear : w % 2 ^ 26 = 0 := low
      simp only [seqDecode, op, clear, unused, BEq.rfl, if_true]
  case shli | shri | lui | rdtime | tset | wait | evt | cnt | rxhead | cstart | cfeed | cres =>
    simp only [Instr.wf, Bool.and_eq_true, decide_eq_true_eq, beq_iff_eq, bne_iff_ne] at wf
    refine roundTrips_encI _ _ _ (by tauto) (by decide) fun w op hrd hra himm _ => ?_
    simp only [seqDecode, op, hrd, hra, himm]
    simp [unused, wf]

end Sys2Proof

/-!
PROOFS. The step of the queue and the state of a reset (O1, O3).
-/

namespace Sys2Proof.Machine

/-- Settles O1, by the equation of `step` on a queue that holds a command. -/
theorem stepRunsTheFront : Obligations.StepRunsTheFront := by
  intro c rest s front
  simp only [step, front]

end Sys2Proof.Machine

namespace Sys2Proof

/-- Settles O3, by evaluation of the reset state, its two masters and its two links. -/
theorem resetState : Obligations.ResetState := by
  refine ⟨by decide, rfl, fun _ => rfl, fun m => ?_, fun l => ?_, fun _ => rfl, fun _ => rfl, by decide, rfl⟩
  · cases m <;> rfl
  · cases l <;> exact ⟨rfl, rfl, rfl⟩

end Sys2Proof

/-!
PROOFS. What each operation of the model moves: the parts of the state that it can change, and that it keeps the tables canonical. One
lemma per function, in the order of the model; the frames of the obligations and the canonical form (O60) are read off them.
-/

namespace Sys2Proof.Machine

/-! ### Moves -/

/-- From one state to another at most the parts listed change, and the tables stay canonical. -/
def moves (l : List Part) (s t : State) : Prop := keeps l s t ∧ (s.canonical = true → t.canonical = true)

/-- All parts of the state. -/
def allParts : List Part :=
  [.pending, .regs, .ctrs, .snaps, .hdrs, .last, .out, .free, .clock, .era, .dram, .power, .backup, .nvs, .links, .masters, .mbx, .keeper,
    .fw, .log, .cls, .buf, .mac, .tsu, .chk, .seqs, .ecc, .lfr, .act, .btx, .psw, .opt, .keys, .omciUpQ, .seg]

theorem mem_allParts (p : Part) : p ∈ allParts := by cases p <;> decide

/-- All parts but those listed. -/
def but (l : List Part) : List Part := allParts.filter (!l.contains ·)

theorem moves_refl (l : List Part) (s : State) : moves l s s := ⟨keeps_refl l s, id⟩

theorem moves_rfl {l : List Part} {s : State} : moves l s s := moves_refl l s

/-- Every part of the first list is in the second one. -/
def covers (m l : List Part) : Bool := m.all (fun p => l.contains p)

theorem mem_of_covers {m l : List Part} (h : covers m l = true) : ∀ p ∈ m, p ∈ l :=
  fun p hp => List.contains_iff_mem.mp (List.all_eq_true.mp h p hp)

theorem covers_trans {k m l : List Part} (a : covers k m = true) (b : covers m l = true) : covers k l = true :=
  List.all_eq_true.mpr fun p h => List.contains_iff_mem.mpr (mem_of_covers b p (mem_of_covers a p h))

/-- A step of fewer parts after a move. -/
theorem moves.after {l m : List Part} {s t u : State} (step : moves m t u) (covered : covers m l = true) (h : moves l s t) :
    moves l s u :=
  ⟨keeps_mono (keeps_trans h.1 step.1) fun p hp => (List.mem_append.mp hp).elim id (mem_of_covers covered p), step.2 ∘ h.2⟩

theorem moves_trans {l : List Part} {s t u : State} (a : moves l s t) (b : moves l t u) : moves l s u :=
  ⟨keeps_mono (keeps_trans a.1 b.1) (by simp), b.2 ∘ a.2⟩

theorem moves.within {l m : List Part} {s t : State} (h : moves m s t) (covered : covers m l = true) : moves l s t :=
  h.after covered (moves_refl l s)

theorem moves_ite {l : List Part} {s a b : State} {c : Prop} [Decidable c] (ha : moves l s a) (hb : moves l s b) :
    moves l s (if c then a else b) := ite_all ha hb

/-- A run over a list moves what each of its steps moves. -/
theorem moves_foldl {α : Type} {l : List Part} {s t : State} {xs : List α} {f : State → α → State} (each : ∀ u a, moves l u (f u a))
    (h : moves l s t) : moves l s (xs.foldl f t) := by
  induction xs generalizing t with
  | nil => exact h
  | cons x xs ih => exact ih (⟨keeps_mono (keeps_trans h.1 (each t x).1) (by simp), (each t x).2 ∘ h.2⟩)

theorem moves_foldr {α : Type} {l : List Part} {s t : State} {xs : List α} {f : α → State → State} (each : ∀ a u, moves l u (f a u))
    (h : moves l s t) : moves l s (xs.foldr f t) := by
  induction xs with
  | nil => exact h
  | cons x xs ih => exact moves_trans ih (each x _)

/-- A run that carries a value next to the state. -/
theorem moves_foldl_snd {α β : Type} {l : List Part} {s : State} {xs : List α} {f : β × State → α → β × State} {x : β × State}
    (each : ∀ y a, moves l y.2 (f y a).2) (h : moves l s x.2) : moves l s (xs.foldl f x).2 := by
  induction xs generalizing x with
  | nil => exact h
  | cons a xs ih => exact ih (moves_trans h (each x a))

/-- What an accepted write and a refusal with RANGE do under a handler. -/
def Handler.moves (l : List Part) (h : Handler) : Prop :=
  (∀ m v s, Machine.moves l s (h.run m v s)) ∧ ∀ s, Machine.moves l s (h.onRange s)

theorem Handler.moves.within {l k : List Part} {h : Handler} (hm : h.moves k) (covered : covers k l = true) : h.moves l :=
  ⟨fun m v s => (hm.1 m v s).within covered, fun s => (hm.2 s).within covered⟩

theorem handler_ite {l : List Part} {c : Prop} [Decidable c] {a b : Handler} (ha : a.moves l) (hb : b.moves l) :
    (if c then a else b).moves l := by
  split
  · exact ha
  · exact hb

/-- The command goes on, and moves at most the parts listed. -/
def goes (l : List Part) (s : State) (r : Result State) : Prop := After r (moves l s)

theorem goes.whole {l : List Part} {s : State} {r : Result State} (h : goes l s r) : goes allParts s r :=
  let ⟨t, next, moved⟩ := h
  ⟨t, next, moved.within (List.all_eq_true.mpr fun p _ => List.contains_iff_mem.mpr (mem_allParts p))⟩

theorem goes_next {l : List Part} {s t : State} (h : moves l s t) : goes l s (.next t) := ⟨t, rfl, h⟩

theorem goes_ite {l : List Part} {s : State} {a b : Result State} {c : Prop} [Decidable c] (ha : goes l s a) (hb : goes l s b) :
    goes l s (if c then a else b) := by
  split
  · exact ha
  · exact hb

theorem goes_whenOn {l : List Part} {s : State} {r : Result State} (h : goes l s r) : goes l s (whenOn s r) :=
  goes_ite h (goes_next moves_rfl)

theorem goes_linkOn {l : List Part} {s : State} {r : Result State} (h : goes l s r) : goes l s (linkOn s r) :=
  goes_ite h (goes_next moves_rfl)

/-- What leaves the four tables as they are leaves them canonical. -/
theorem moves_of_tables {l : List Part} {s t : State} (kept : keeps l s t) (regs : t.regs = s.regs) (ctrs : t.ctrs = s.ctrs)
    (hdrs : t.hdrs = s.hdrs) (dram : t.dram = s.dram) : moves l s t :=
  ⟨kept, by simp only [State.canonical, regs, ctrs, hdrs, dram, imp_self]⟩

theorem canonical_iff {s : State} : s.canonical = true ↔ tblWf resetWord s.regs = true ∧ tblWf (fun _ => 0) s.ctrs = true ∧
    tblWf hdrReset s.hdrs = true ∧ s.dram.wf = true := by
  simp only [State.canonical, Bool.and_eq_true, and_assoc]

theorem wr_moves {a : Nat} {v : Word} {s : State} : moves [.regs] s (s.wr a v) := by
  refine ⟨wr_keeps a v s, fun h => ?_⟩
  obtain ⟨regs, ctrs, hdrs, dram⟩ := canonical_iff.mp h
  exact canonical_iff.mpr ⟨tblWf_tblSet resetWord a v _ regs, ctrs, hdrs, dram⟩

theorem setHdr_moves {p : Nat} {x : Hdr} {s : State} : moves [.hdrs] s (s.setHdr p x) := by
  refine ⟨setHdr_keeps p x s, fun h => ?_⟩
  obtain ⟨regs, ctrs, hdrs, dram⟩ := canonical_iff.mp h
  exact canonical_iff.mpr ⟨regs, ctrs, tblWf_tblSet hdrReset p x _ hdrs, dram⟩

theorem setCtr_moves {a n : Nat} {s : State} : moves [.ctrs] s (s.setCtr a n) := by
  refine ⟨setCtr_keeps a n s, fun h => ?_⟩
  obtain ⟨regs, ctrs, hdrs, dram⟩ := canonical_iff.mp h
  exact canonical_iff.mpr ⟨regs, tblWf_tblSet (fun _ => 0) a n _ ctrs, hdrs, dram⟩

/-- A table that is rewritten entry by entry, less what reads the same without an entry. -/
theorem tblWfFrom_remap {V : Type} [DecidableEq V] {d : Nat → V} {g : Nat × V → Nat × V} (key : ∀ e, (g e).1 = e.1) (a : Nat) (t : Tbl V)
    (h : tblWfFrom d a t = true) : tblWfFrom d a ((t.map g).filter (fun e => e.2 != d e.1)) = true := by
  induction t generalizing a with
  | nil => rfl
  | cons e t ih =>
    simp only [tblWfFrom, Bool.and_eq_true, decide_eq_true_eq] at h
    obtain ⟨⟨low, -⟩, rest⟩ := h
    rw [List.map_cons, List.filter_cons]
    split
    · rename_i new
      have shown : g e = (e.1, (g e).2) := Prod.ext (key e) rfl
      rw [shown] at new ⊢
      simp only [tblWfFrom, Bool.and_eq_true, decide_eq_true_eq]
      exact ⟨⟨low, by simpa using new⟩, ih _ rest⟩
    · exact tblWfFrom_mono d (by omega) _ (ih _ rest)

theorem tblWfFrom_filter {V : Type} [DecidableEq V] {d : Nat → V} (f : Nat × V → Bool) (a : Nat) (t : Tbl V) (h : tblWfFrom d a t = true) :
    tblWfFrom d a (t.filter f) = true := by
  induction t generalizing a with
  | nil => rfl
  | cons e t ih =>
    simp only [tblWfFrom, Bool.and_eq_true, decide_eq_true_eq] at h
    obtain ⟨⟨low, new⟩, rest⟩ := h
    rw [List.filter_cons]
    split
    · simp only [tblWfFrom, Bool.and_eq_true, decide_eq_true_eq]
      exact ⟨⟨low, new⟩, ih _ rest⟩
    · exact tblWfFrom_mono d (by omega) _ (ih _ rest)

/-- The counters, less some of them. -/
theorem filter_ctrs_moves {f : Nat × Nat → Bool} {s : State} : moves [.ctrs] s { s with ctrs := s.ctrs.filter f } := by
  refine ⟨fun q h => by cases q <;> simp_all [Part.same], fun h => ?_⟩
  obtain ⟨regs, ctrs, hdrs, dram⟩ := canonical_iff.mp h
  exact canonical_iff.mpr ⟨regs, tblWfFrom_filter f 0 _ ctrs, hdrs, dram⟩

/-- The registers, rewritten entry by entry. -/
theorem remap_regs_moves {g : Nat × Word → Nat × Word} {s : State} (key : ∀ e, (g e).1 = e.1) :
    moves [.regs] s { s with regs := (s.regs.map g).filter (fun e => e.2 != resetWord e.1) } := by
  refine ⟨fun q h => by cases q <;> simp_all [Part.same], fun h => ?_⟩
  obtain ⟨regs, ctrs, hdrs, dram⟩ := canonical_iff.mp h
  exact canonical_iff.mpr ⟨tblWfFrom_remap key 0 _ regs, ctrs, hdrs, dram⟩

theorem setDramBytes_moves {a : Nat} {l : List Byte} {s : State} : moves [.dram] s (s.setDramBytes a l) := by
  have tables : ∀ p ∈ [Part.regs, .ctrs, .hdrs], p.same s (s.setDramBytes a l) := fun p h =>
    setDramBytes_keeps l a s p (by rintro m; rw [List.mem_singleton] at m; subst m; simp at h)
  refine ⟨setDramBytes_keeps l a s, fun h => ?_⟩
  obtain ⟨regs, ctrs, hdrs, dram⟩ := canonical_iff.mp h
  have er : (s.setDramBytes a l).regs = s.regs := tables .regs (by simp)
  have ec : (s.setDramBytes a l).ctrs = s.ctrs := tables .ctrs (by simp)
  have eh : (s.setDramBytes a l).hdrs = s.hdrs := tables .hdrs (by simp)
  exact canonical_iff.mpr ⟨er ▸ regs, ec ▸ ctrs, eh ▸ hdrs, State.setDramBytes_wf l a s dram⟩

/-! ### The replacement of one part -/

/-- Two states that agree in every other part. -/
theorem moves_part {p : Part} {s t : State} (same : ∀ q, q ≠ p → q.same s t) (kind : p ∉ [Part.regs, .ctrs, .hdrs, .dram]) :
    moves [p] s t := by
  simp only [List.mem_cons, List.not_mem_nil, or_false, not_or] at kind
  obtain ⟨regs, ctrs, hdrs, dram⟩ := kind
  exact moves_of_tables (fun q h => same q (by simpa using h)) (same .regs (Ne.symm regs)) (same .ctrs (Ne.symm ctrs))
    (same .hdrs (Ne.symm hdrs)) (same .dram (Ne.symm dram))

section
variable {s : State}

theorem with_pending_moves {x : List Instr} : moves [.pending] s { s with pending := x } :=
  moves_part (fun q h => by cases q <;> trivial) (by decide)
theorem with_snaps_moves {x : Pair (Tbl (Option Word))} : moves [.snaps] s { s with snaps := x } :=
  moves_part (fun q h => by cases q <;> trivial) (by decide)
theorem with_last_moves {x : Txn} : moves [.last] s { s with last := x } :=
  moves_part (fun q h => by cases q <;> trivial) (by decide)
theorem with_out_moves {x : List Output} : moves [.out] s { s with out := x } :=
  moves_part (fun q h => by cases q <;> trivial) (by decide)
theorem with_free_moves {x : Nat} : moves [.free] s { s with free := x } :=
  moves_part (fun q h => by cases q <;> trivial) (by decide)
theorem with_clock_moves {x : Nat} : moves [.clock] s { s with clock := x } :=
  moves_part (fun q h => by cases q <;> trivial) (by decide)
theorem with_era_moves {x : Nat} : moves [.era] s { s with era := x } :=
  moves_part (fun q h => by cases q <;> trivial) (by decide)
theorem with_power_moves {x : PowerSt} : moves [.power] s { s with power := x } :=
  moves_part (fun q h => by cases q <;> trivial) (by decide)
theorem with_backup_moves {x : BackupSt} : moves [.backup] s { s with backup := x } :=
  moves_part (fun q h => by cases q <;> trivial) (by decide)
theorem with_nvs_moves {x : NvsSt} : moves [.nvs] s { s with nvs := x } :=
  moves_part (fun q h => by cases q <;> trivial) (by decide)
theorem with_links_moves {x : Pair LinkSt} : moves [.links] s { s with links := x } :=
  moves_part (fun q h => by cases q <;> trivial) (by decide)
theorem with_masters_moves {x : MastersSt} : moves [.masters] s { s with masters := x } :=
  moves_part (fun q h => by cases q <;> trivial) (by decide)
theorem with_mbx_moves {x : Tbl Mbx} : moves [.mbx] s { s with mbx := x } :=
  moves_part (fun q h => by cases q <;> trivial) (by decide)
theorem with_keeper_moves {x : KeeperSt} : moves [.keeper] s { s with keeper := x } :=
  moves_part (fun q h => by cases q <;> trivial) (by decide)
theorem with_fw_moves {x : FwSt} : moves [.fw] s { s with fw := x } :=
  moves_part (fun q h => by cases q <;> trivial) (by decide)
theorem with_log_moves {x : LogSt} : moves [.log] s { s with log := x } :=
  moves_part (fun q h => by cases q <;> trivial) (by decide)
theorem with_cls_moves {x : ClsSt} : moves [.cls] s { s with cls := x } :=
  moves_part (fun q h => by cases q <;> trivial) (by decide)
theorem with_buf_moves {x : BufSt} : moves [.buf] s { s with buf := x } :=
  moves_part (fun q h => by cases q <;> trivial) (by decide)
theorem with_mac_moves {x : Tbl MacPort} : moves [.mac] s { s with mac := x } :=
  moves_part (fun q h => by cases q <;> trivial) (by decide)
theorem with_tsu_moves {x : TsuSt} : moves [.tsu] s { s with tsu := x } :=
  moves_part (fun q h => by cases q <;> trivial) (by decide)
theorem with_chk_moves {x : Tbl Chk} : moves [.chk] s { s with chk := x } :=
  moves_part (fun q h => by cases q <;> trivial) (by decide)
theorem with_seqs_moves {x : Tbl Seq} : moves [.seqs] s { s with seqs := x } :=
  moves_part (fun q h => by cases q <;> trivial) (by decide)
theorem with_ecc_moves {x : EccSt} : moves [.ecc] s { s with ecc := x } :=
  moves_part (fun q h => by cases q <;> trivial) (by decide)
theorem with_lfr_moves {x : Pair LfrSt} : moves [.lfr] s { s with lfr := x } :=
  moves_part (fun q h => by cases q <;> trivial) (by decide)
theorem with_act_moves {x : Pair ActSt} : moves [.act] s { s with act := x } :=
  moves_part (fun q h => by cases q <;> trivial) (by decide)
theorem with_btx_moves {x : Pair BtxSt} : moves [.btx] s { s with btx := x } :=
  moves_part (fun q h => by cases q <;> trivial) (by decide)
theorem with_psw_moves {x : PswSt} : moves [.psw] s { s with psw := x } :=
  moves_part (fun q h => by cases q <;> trivial) (by decide)
theorem with_opt_moves {x : Pair OptSt} : moves [.opt] s { s with opt := x } :=
  moves_part (fun q h => by cases q <;> trivial) (by decide)
theorem with_keys_moves {x : Tbl (List Byte)} : moves [.keys] s { s with keys := x } :=
  moves_part (fun q h => by cases q <;> trivial) (by decide)
theorem with_omciUpQ_moves {x : List (List Byte)} : moves [.omciUpQ] s { s with omciUpQ := x } :=
  moves_part (fun q h => by cases q <;> trivial) (by decide)
theorem with_seg_moves {x : List SegFrame} : moves [.seg] s { s with seg := x } :=
  moves_part (fun q h => by cases q <;> trivial) (by decide)

theorem with_act_keys_moves {x : Pair ActSt} {y : Tbl (List Byte)} :
    moves [.act, .keys] s { s with act := x, keys := y } :=
  moves_of_tables (fun q h => by cases q <;> simp_all [Part.same]) rfl rfl rfl rfl
theorem with_keeper_fw_moves {x : KeeperSt} {y : FwSt} :
    moves [.keeper, .fw] s { s with keeper := x, fw := y } :=
  moves_of_tables (fun q h => by cases q <;> simp_all [Part.same]) rfl rfl rfl rfl
theorem with_cls_buf_moves {x : ClsSt} {y : BufSt} :
    moves [.cls, .buf] s { s with cls := x, buf := y } :=
  moves_of_tables (fun q h => by cases q <;> simp_all [Part.same]) rfl rfl rfl rfl
theorem with_buf_mac_moves {x : BufSt} {y : Tbl MacPort} :
    moves [.buf, .mac] s { s with buf := x, mac := y } :=
  moves_of_tables (fun q h => by cases q <;> simp_all [Part.same]) rfl rfl rfl rfl
theorem with_clock_backup_moves {x : Nat} {y : BackupSt} :
    moves [.clock, .backup] s { s with clock := x, backup := y } :=
  moves_of_tables (fun q h => by cases q <;> simp_all [Part.same]) rfl rfl rfl rfl
theorem with_log_ecc_moves {x : LogSt} {y : EccSt} :
    moves [.log, .ecc] s { s with log := x, ecc := y } :=
  moves_of_tables (fun q h => by cases q <;> simp_all [Part.same]) rfl rfl rfl rfl
theorem with_power_backup_moves {x : PowerSt} {y : BackupSt} :
    moves [.power, .backup] s { s with power := x, backup := y } :=
  moves_of_tables (fun q h => by cases q <;> simp_all [Part.same]) rfl rfl rfl rfl
theorem with_nvs_opt_moves {x : NvsSt} {y : Pair OptSt} :
    moves [.nvs, .opt] s { s with nvs := x, opt := y } :=
  moves_of_tables (fun q h => by cases q <;> simp_all [Part.same]) rfl rfl rfl rfl

end

/-! ### Moves of the state operations -/

theorem setFld_moves {s : State} {a lo w n : Nat} : moves [.regs] s (s.setFld a lo w n) := wr_moves.within rfl

theorem setFlag_moves {s : State} {a i : Nat} {b : Bool} : moves [.regs] s (s.setFlag a i b) := setFld_moves.within rfl

theorem bump_moves {s : State} {a k : Nat} : moves [.regs] s (s.bump a k) := wr_moves.within rfl

theorem bumpFld_moves {s : State} {a lo w k : Nat} : moves [.regs] s (s.bumpFld a lo w k) := setFld_moves.within rfl

theorem wp_moves {s : State} {p off : Nat} {v : Word} : moves [.regs] s (s.wp p off v) := wr_moves.within rfl

theorem setDramByte_moves {s : State} {a : Nat} {b : Byte} : moves [.dram] s (s.setDramByte a b) :=
  setDramBytes_moves (l := [b])

theorem setDramWord_moves {s : State} {a : Nat} {w : Word} : moves [.dram] s (s.setDramWord a w) := setDramBytes_moves.within rfl

theorem setLink_moves {s : State} {l : AB} {k : LinkSt} : moves [.links] s (s.setLink l k) := with_links_moves.within rfl

theorem emit_moves {s : State} {o : Output} : moves [.out] s (s.emit o) := with_out_moves.within rfl

theorem setSnap_moves {s : State} {m : AB} {a : Nat} {v : Word} : moves [.snaps] s (s.setSnap m a v) := with_snaps_moves.within rfl

theorem takeFree_moves {s : State} : moves [.free] s (s.takeFree).2 := with_free_moves.within rfl

theorem setSem_moves {s : State} {n : Nat} {x : Sem} : moves [.masters] s (s.setSem n x) := with_masters_moves.within rfl

theorem setBox_moves {s : State} {i : Nat} {b : Mbx} : moves [.mbx] s (s.setBox i b) := with_mbx_moves.within rfl

theorem setPort_moves {s : State} {n : Nat} {x : MacPort} : moves [.mac] s (s.setPort n x) := with_mac_moves.within rfl

theorem setQueue_moves {s : State} {k : Nat} {q : List Pkt} : moves [.buf] s (s.setQueue k q) := with_buf_moves.within rfl

theorem setLane_moves {s : State} {n : Nat} {x : Lane} : moves [.cls] s (s.setLane n x) := with_cls_moves.within rfl

theorem setRule_moves {s : State} {i : Nat} {r : Rule} : moves [.cls] s (s.setRule i r) := with_cls_moves.within rfl

/-! ### Moves of flags, faults and the event log -/

theorem queueEvent_moves {l : AB} {p : Nat} {summary : Bool} {s : State} : moves [.links] s (queueEvent l p summary s) :=
  moves_ite (setLink_moves.within rfl) (setLink_moves.within rfl)

theorem refreshEvent_moves {l : AB} {p : Nat} {s : State} : moves [.links] s (refreshEvent l p s) :=
  moves_ite (queueEvent_moves.within rfl) moves_rfl

theorem pendChanged_moves {p : Nat} {old : Word} {s : State} : moves [.links] s (pendChanged p old s) :=
  moves_ite moves_rfl <| moves_ite (queueEvent_moves.after rfl <|
    moves_ite (queueEvent_moves.within rfl) (refreshEvent_moves.within rfl)) <| refreshEvent_moves.after rfl <|
    moves_ite (queueEvent_moves.within rfl) (refreshEvent_moves.within rfl)

theorem raise_moves {p i : Nat} {s : State} : moves [.hdrs, .links] s (raise p i s) :=
  pendChanged_moves.after rfl <| setHdr_moves.within rfl

theorem countWide_moves {a w k : Nat} {half intr : Option (Nat × Nat)} {s : State} :
    moves [.regs, .ctrs, .hdrs, .links] s (countWide a w k half intr s) := by
  have counted : moves [.regs, .ctrs, .hdrs, .links] s (s.setCtr a ((s.ctr a + k) % 2 ^ w)) := setCtr_moves.within rfl
  unfold countWide
  refine moves_ite ?_ counted
  cases half <;> cases intr
  · exact counted
  · exact raise_moves.after rfl counted
  · exact setFlag_moves.after rfl counted
  · exact raise_moves.after rfl <| setFlag_moves.after rfl counted

theorem countAt_moves {p base hoff ib w i k : Nat} {s : State} :
    moves [.regs, .ctrs, .hdrs, .links] s (countAt p base hoff ib w i k s) := countWide_moves.within rfl

theorem addLog_moves {t : LogType} {page code : Nat} {detail w5 : Word} {s : State} :
    moves [.regs, .nvs, .log] s (addLog t page code detail w5 s) :=
  moves_trans (bump_moves.after rfl <| with_log_moves.after rfl <| moves_ite moves_rfl (bump_moves.within rfl)) <|
    moves_ite (with_nvs_moves.within rfl) moves_rfl

theorem recordFault_moves {p code : Nat} {detail w5 : Word} {s : State} :
    moves [.regs, .hdrs, .nvs, .links, .log] s (recordFault p code detail w5 s) :=
  raise_moves.after rfl <| addLog_moves.after rfl <| setHdr_moves.within rfl

theorem nvQueue_moves {x : NvItem} {s : State} : moves [.nvs] s (nvQueue x s) := moves_ite moves_rfl (with_nvs_moves.within rfl)

theorem nvQueueHist_moves {e : Word × Word} {s : State} : moves [.regs, .hdrs, .nvs, .links] s (nvQueueHist e s) :=
  moves_ite (with_nvs_moves.within rfl) <| raise_moves.after rfl <| bump_moves.after rfl <| with_nvs_moves.within rfl

theorem writeHist_moves {src dst : Mode} {cause : Nat} {rtc : Bool} {s : State} :
    moves [.regs, .hdrs, .nvs, .links] s (writeHist src dst cause rtc s) :=
  moves_trans (wp_moves.after rfl <| wp_moves.after rfl <| wp_moves.within rfl) <| moves_ite moves_rfl (nvQueueHist_moves.within rfl)

theorem transition_moves {dst : Mode} {cause : Nat} {s : State} :
    moves [.regs, .hdrs, .power, .nvs, .links] s (transition dst cause s) :=
  moves_trans (writeHist_moves.within rfl) <| raise_moves.after rfl <| with_power_moves.after rfl <|
    moves_ite (bump_moves.within rfl) moves_rfl

/-! ### Moves of the census of packets -/

theorem skimSample_moves {r : Reason} {k q : Nat} {p : Option Pkt} {detail : Nat} {s : State} :
    moves [.regs, .hdrs, .links, .buf] s (skimSample r k q p detail s) :=
  moves_ite moves_rfl <| moves_ite (with_buf_moves.within rfl) <| moves_trans (with_buf_moves.within rfl) <| moves_ite moves_rfl <|
    moves_ite (with_buf_moves.within rfl) <| raise_moves.after rfl <| bump_moves.within rfl

theorem ringStop_moves {k : Nat} {s : State} : moves [.regs, .hdrs, .links, .buf] s (ringStop k s) :=
  moves_trans (setFlag_moves.after rfl <| with_buf_moves.within rfl) <| moves_ite moves_rfl <| raise_moves.after rfl <|
    bump_moves.within rfl

theorem dropAt_moves {r : Reason} {k q : Nat} {p : Option Pkt} {detail : Nat} {s : State} :
    moves [.regs, .ctrs, .hdrs, .links, .buf] s (dropAt r k q p detail s) :=
  skimSample_moves.after rfl <| bump_moves.after rfl <| bump_moves.after rfl <| countWide_moves.within rfl

theorem dropUnowned_moves {r : Reason} {s : State} : moves [.regs, .ctrs, .hdrs, .links] s (dropUnowned r s) :=
  bump_moves.after rfl <| countWide_moves.within rfl

theorem dropSrc_moves {r : Reason} {p : Pkt} {detail : Nat} {s : State} :
    moves [.regs, .ctrs, .hdrs, .links, .buf] s (dropSrc r p detail s) := dropAt_moves.within rfl

theorem dropMany_moves {r : Reason} {k q n : Nat} {s : State} : moves [.regs, .ctrs, .hdrs, .links, .buf] s (dropMany r k q n s) := by
  induction n generalizing s with
  | zero => exact moves_rfl
  | succ n ih => exact ih.after rfl <| dropAt_moves.within rfl

theorem sepRecord_moves {k ref blk idx : Nat} {value : Word} {s : State} :
    moves [.regs, .hdrs, .links] s (sepRecord k ref blk idx value s) :=
  raise_moves.after rfl <| bump_moves.after rfl <| bump_moves.after rfl <| wp_moves.after rfl <| wp_moves.within rfl

theorem dropSepRef_moves {k ref blk idx : Nat} {value : Word} {p : Pkt} {s : State} :
    moves [.regs, .ctrs, .hdrs, .links, .buf] s (dropSepRef k ref blk idx value p s) :=
  dropAt_moves.after rfl <| sepRecord_moves.within rfl

theorem dropXslice_moves {p : Pkt} {s : State} : moves [.regs, .ctrs, .hdrs, .links, .buf] s (dropXslice p s) :=
  dropAt_moves.after rfl <| raise_moves.after rfl <| bump_moves.after rfl <| bump_moves.within rfl

theorem macCount_moves {n i k : Nat} {s : State} : moves [.regs, .ctrs, .hdrs, .links] s (macCount n i k s) := countAt_moves.within rfl

theorem cutCheck_moves {old s : State} : moves [.hdrs, .links] s (cutCheck old s) := moves_ite (raise_moves.within rfl) moves_rfl

theorem sendPause_moves {n pri quanta : Nat} {s : State} : moves [.regs, .ctrs, .hdrs, .out, .links] s (sendPause n pri quanta s) :=
  moves_ite (macCount_moves.after rfl <| emit_moves.within rfl) <| macCount_moves.after rfl <| macCount_moves.after rfl <|
    emit_moves.within rfl

theorem setXoff_moves {n pri : Nat} {on : Bool} {s : State} : moves [.hdrs, .links, .mac] s (setXoff n pri on s) :=
  moves_trans (setPort_moves.within rfl) <| moves_ite (raise_moves.within rfl) moves_rfl

theorem pauseOne_moves {n pri : Nat} {s : State} : moves [.regs, .ctrs, .hdrs, .out, .links, .mac] s (pauseOne n pri s) :=
  moves_ite (sendPause_moves.after rfl <| setXoff_moves.within rfl) <| moves_ite (sendPause_moves.after rfl <|
    setXoff_moves.within rfl) moves_rfl

theorem pauseCheck_moves {n : Nat} {s : State} : moves [.regs, .ctrs, .hdrs, .out, .links, .mac] s (pauseCheck n s) :=
  moves_ite (moves_foldl (fun _ _ => pauseOne_moves.within rfl) <| moves_rfl) moves_rfl

theorem freed_moves {l : List Pkt} {s : State} : moves [.regs, .ctrs, .hdrs, .out, .links, .mac] s (freed l s) :=
  moves_foldl (fun _ _ => pauseCheck_moves.within rfl) <| moves_rfl

theorem badCell_moves {b : Nat} {s : State} : moves [.free] s (badCell b s).2 := takeFree_moves.within rfl

theorem eccCount_moves {i k : Nat} {s : State} : moves [.regs, .ctrs, .hdrs, .links] s (eccCount i k s) := countAt_moves.within rfl

theorem setTest_moves {p : Nat} {st : TestStatus} {auto : Bool} {unit detail : Nat} {s : State} :
    moves [.hdrs] s (setTest p st auto unit detail s) := setHdr_moves.within rfl

theorem startRowTest_moves {l : MemLoc} {s : State} : moves [.regs, .ctrs, .hdrs, .links, .ecc] s (startRowTest l s) :=
  moves_ite moves_rfl <| eccCount_moves.after rfl <| setTest_moves.after rfl <| with_ecc_moves.within rfl

theorem startUnitTest_moves {p unit : Nat} {s : State} : moves [.regs, .ctrs, .hdrs, .links] s (startUnitTest p unit s) :=
  setHdr_moves.after rfl <| eccCount_moves.after rfl <| setTest_moves.within rfl

theorem poisoned_moves {e : Nat} {p : Pkt} {s : State} : moves [.regs, .ctrs, .hdrs, .free, .links, .buf] s (poisoned e p s) :=
  dropAt_moves.after rfl <| badCell_moves.within rfl

theorem settleEmpty_moves {a : Nat} {s : State} : moves [.buf] s (settleEmpty a s) := with_buf_moves.within rfl

theorem poisonQueue_moves {a q : Nat} {s : State} :
    moves [.regs, .ctrs, .hdrs, .out, .free, .links, .buf, .mac] s (poisonQueue a q s) :=
  freed_moves.after rfl <| settleEmpty_moves.after rfl <| setQueue_moves.after rfl <|
    moves_foldl (fun _ _ => poisoned_moves.within rfl) <| moves_rfl

theorem dropPoison_moves {page e : Nat} {p : Pkt} {s : State} :
    moves [.regs, .ctrs, .hdrs, .nvs, .links, .log, .buf] s (dropPoison page e p s) :=
  dropAt_moves.after rfl <| recordFault_moves.after rfl <| eccCount_moves.within rfl

theorem loseKey_moves {feeder slot : Nat} {s : State} :
    moves [.regs, .hdrs, .nvs, .links, .log, .act, .keys] s (loseKey feeder slot s) :=
  moves_ite moves_rfl <| raise_moves.after rfl <| recordFault_moves.after rfl <| with_act_keys_moves.after rfl <| setFlag_moves.within rfl

theorem pushMark_moves {f : AB} {d : XDest} {s : State} : moves [.lfr] s (pushMark f d s) := with_lfr_moves.within rfl

theorem setSdu_moves {f : AB} {e : Nat} {x : Option Sdu} {s : State} : moves [.lfr] s (setSdu f e x s) := with_lfr_moves.within rfl

theorem deaden_moves {f : AB} {e k : Nat} {quiet lf : Bool} {s : State} : moves [.lfr] s (deaden f e k quiet lf s) :=
  setSdu_moves.within rfl

theorem dropSdu_moves {f : AB} {e : Nat} {s : State} : moves [.regs, .ctrs, .hdrs, .links, .buf, .lfr] s (dropSdu f e s) := by
  unfold dropSdu
  split
  · exact moves_rfl
  · exact moves_ite moves_rfl <| dropAt_moves.after rfl <| setSdu_moves.within rfl

theorem cutSdu_moves {f : AB} {e : Nat} {keep : Bool} {s : State} :
    moves [.regs, .ctrs, .hdrs, .links, .buf, .lfr] s (cutSdu f e keep s) := by
  unfold cutSdu
  split
  · exact moves_rfl
  · exact moves_ite (deaden_moves.after rfl <| dropSdu_moves.within rfl) <| setSdu_moves.after rfl <| dropSdu_moves.within rfl

theorem cutChain_moves {f : AB} {e : Nat} {keep : Bool} {s : State} :
    moves [.regs, .ctrs, .hdrs, .links, .buf, .lfr] s (cutChain f e keep s) :=
  moves_ite (cutSdu_moves.within rfl) (pushMark_moves.within rfl)

theorem memEffect_moves {l : MemLoc} {slice : Nat} {s : State} :
    moves [.regs, .ctrs, .hdrs, .out, .free, .nvs, .links, .log, .cls, .buf, .mac, .lfr, .act, .keys] s (memEffect l slice s) :=
  moves_ite (setRule_moves.within rfl) <| moves_ite (setFlag_moves.within rfl) <| moves_ite (setCtr_moves.within rfl) <|
    moves_ite (setFld_moves.within rfl) <| moves_ite (poisonQueue_moves.after rfl <| setFld_moves.within rfl) <|
    moves_ite (setFld_moves.after rfl <| setFld_moves.within rfl) <| moves_ite (setFlag_moves.after rfl <| setFlag_moves.after rfl <|
    cutChain_moves.after rfl <| cutChain_moves.within rfl) <| moves_ite (loseKey_moves.within rfl) <|
    moves_ite (setFlag_moves.within rfl) moves_rfl

theorem poisonUse_moves {l : MemLoc} {slice : Nat} {s : State} :
    moves [.regs, .ctrs, .hdrs, .out, .free, .nvs, .links, .log, .cls, .buf, .mac, .ecc, .lfr, .act, .keys] s (poisonUse l slice s) :=
  recordFault_moves.after rfl <| eccCount_moves.after rfl <| memEffect_moves.after rfl <| with_ecc_moves.within rfl

theorem foundUe_moves {l : MemLoc} {scrub : Bool} {s : State} :
    moves [.regs, .ctrs, .hdrs, .nvs, .links, .log, .ecc] s (foundUe l scrub s) :=
  moves_trans (recordFault_moves.after rfl <| raise_moves.after rfl <| eccCount_moves.after rfl <| with_ecc_moves.within rfl) <|
    moves_ite moves_rfl (startRowTest_moves.within rfl)

theorem foundCe_moves {l : MemLoc} {bit : Nat} {s : State} :
    moves [.regs, .ctrs, .hdrs, .nvs, .links, .log, .ecc, .act, .keys] s (foundCe l bit s) :=
  moves_trans (startRowTest_moves.after rfl <| recordFault_moves.after rfl <| with_ecc_moves.after rfl <| raise_moves.after rfl <|
    eccCount_moves.within rfl) <| moves_ite (loseKey_moves.within rfl) moves_rfl

theorem scrubEffect_moves {l : MemLoc} {slice : Nat} {s : State} :
    moves [.regs, .ctrs, .hdrs, .out, .free, .nvs, .links, .log, .cls, .buf, .mac, .ecc, .lfr, .act, .keys] s (scrubEffect l slice s) :=
  moves_ite (poisonUse_moves.within rfl) <| moves_ite (loseKey_moves.after rfl <| with_ecc_moves.within rfl) moves_rfl

theorem clearUpset_moves {u : Upset} {s : State} : moves [.ecc] s (clearUpset u s) := with_ecc_moves.within rfl

theorem readUpset_moves {scrub : Bool} {u : Upset} {s : State} :
    moves [.regs, .ctrs, .hdrs, .out, .free, .nvs, .links, .log, .cls, .buf, .mac, .ecc, .lfr, .act, .keys] s (readUpset scrub u s) := by
  unfold readUpset
  dsimp only
  split
  · exact foundCe_moves.after rfl <| clearUpset_moves.within rfl
  · exact moves_trans (foundUe_moves.after rfl <| clearUpset_moves.within rfl) <| moves_ite (scrubEffect_moves.within rfl) <|
      moves_ite (poisonUse_moves.within rfl) moves_rfl

theorem readRow_moves {mem bank row slice : Nat} {s : State} :
    moves [.regs, .ctrs, .hdrs, .out, .free, .nvs, .links, .log, .cls, .buf, .mac, .ecc, .lfr, .act, .keys] s
      (readRow mem bank row slice s) :=
  moves_foldl (fun _ _ => moves_ite (poisonUse_moves.within rfl) moves_rfl) <| moves_foldl (fun _ _ => readUpset_moves.within rfl) <|
    moves_rfl

theorem wroteWord_moves {l : MemLoc} {slice : Nat} {s : State} : moves [.regs, .hdrs, .links, .ecc] s (wroteWord l slice s) :=
  moves_trans (with_ecc_moves.within rfl) <| moves_ite (raise_moves.after rfl <| setFlag_moves.after rfl <|
    with_ecc_moves.within rfl) moves_rfl

theorem wrotePart_moves {l : MemLoc} {slice sib : Nat} {s : State} :
    moves [.regs, .ctrs, .hdrs, .links, .buf, .ecc, .lfr] s (wrotePart l slice sib s) :=
  wroteWord_moves.after rfl <| moves_ite (eccCount_moves.after rfl <| wr_moves.after rfl <|
    moves_ite (cutChain_moves.within rfl) moves_rfl) moves_rfl

theorem readLoc_moves {l : MemLoc} {slice : Nat} {s : State} :
    moves [.regs, .ctrs, .hdrs, .out, .free, .nvs, .links, .log, .cls, .buf, .mac, .ecc, .lfr, .act, .keys] s (readLoc l slice s).1 := by
  unfold readLoc
  split
  · exact readUpset_moves.within rfl
  · split
    · exact moves_ite (poisonUse_moves.within rfl) moves_rfl
    · exact moves_rfl

theorem transit_moves {mem : Nat} {s : State} : moves [.regs, .ctrs, .hdrs, .free, .nvs, .links, .log, .ecc, .act, .keys] s
    (transit mem s).2 := by
  unfold transit
  dsimp only
  split
  · split
    · exact foundCe_moves.after rfl <| raise_moves.after rfl <| setFlag_moves.after rfl <| takeFree_moves.within rfl
    · exact with_ecc_moves.after rfl <| foundUe_moves.after rfl <| raise_moves.after rfl <| setFlag_moves.after rfl <|
        takeFree_moves.within rfl
  · exact moves_rfl

/-! ### Moves of accesses and their refusals -/

theorem setFrz_moves {s : State} {m : AB} {f : Freeze} : moves [.masters] s (s.setFrz m f) := with_masters_moves.within rfl

theorem freezeMaster_moves {m : AB} {cause : Nat} {q : Req} {s : State} :
    moves [.regs, .hdrs, .nvs, .links, .masters, .fw, .log] s (freezeMaster m cause q s) :=
  moves_trans (addLog_moves.after rfl <| queueEvent_moves.after rfl <| raise_moves.after rfl <| setFrz_moves.within rfl) <|
    moves_ite (with_fw_moves.within rfl) moves_rfl

theorem countRefused_moves {m : AB} {s : State} : moves [.masters] s (countRefused m s) := setFrz_moves.within rfl

theorem countQueued_moves {m : AB} {w : QWrite} {s : State} : moves [.masters] s (countQueued m w s) := setFrz_moves.within rfl

theorem recordRefusal_moves {m : AB} {st : Status} {c : Cause} {addr : Nat} {s : State} :
    moves [.regs] s (recordRefusal m st c addr s) := wr_moves.after rfl <| wr_moves.after rfl <| bump_moves.within rfl

theorem ended_moves {st : Status} {d : Word} {c : Cause} {s : State} : moves [.last] s (ended st d c s) := with_last_moves.within rfl

theorem refuseWrite_moves {m : AB} {st : Status} {c : Cause} {freeze : Option Nat} {q : Req} {s : State} :
    moves [.regs, .hdrs, .last, .nvs, .links, .masters, .fw, .log] s (refuseWrite m st c freeze q s) := by
  refine ended_moves.after rfl <| ?_
  split
  · exact freezeMaster_moves.after rfl <| moves_ite (bump_moves.after rfl <| moves_ite (recordRefusal_moves.within rfl) moves_rfl) <|
      moves_ite (recordRefusal_moves.within rfl) moves_rfl
  · exact moves_ite (bump_moves.after rfl <| moves_ite (recordRefusal_moves.within rfl) moves_rfl) <|
      moves_ite (recordRefusal_moves.within rfl) moves_rfl

theorem storeFields_moves {p off : Nat} {v : Word} {s : State} : moves [.regs] s (storeFields p off v s) := wp_moves.within rfl

theorem storeReg_moves {p off : Nat} {v : Word} {s : State} : moves [.regs, .nvs] s (storeReg p off v s) :=
  moves_trans (storeFields_moves.within rfl) <| moves_ite (nvQueue_moves.within rfl) moves_rfl

theorem plain_moves {p off : Nat} : Handler.moves [.regs, .nvs] (plain p off) :=
  ⟨fun _ _ _ => storeReg_moves.within rfl, fun _ => moves_rfl⟩

/-- The parts that the checks of R94 and the record of a refusal reach (R95, R96, R112). -/
def writeParts : List Part := [.regs, .hdrs, .last, .nvs, .links, .masters, .fw, .log]

theorem runWrite_moves {k l : List Part} {m : AB} {q : Req} {win : Option Nat} {p off : Nat} {fs : List Fld} {h : Handler} {v : Word}
    {s : State} (hm : h.moves k) (record : covers writeParts l = true) (effect : covers k l = true) :
    moves l s (runWrite m q win p off fs h v s) := by
  have refused : ∀ st c fz t, moves l s t → moves l s (refuseWrite m st c fz q t) := fun _ _ _ _ h =>
    moves_trans h <| (refuseWrite_moves.within (l := writeParts) rfl).within record
  have counted : moves writeParts s (ended .frozen 0 .none (countRefused m s)) := ended_moves.after rfl <| countRefused_moves.within rfl
  have used : moves writeParts s (if touches .rwp fs v then s.bump (regAddr pPrs 0x110) 1 else s) :=
    moves_ite (bump_moves.within rfl) moves_rfl
  have done : ∀ t, moves writeParts t (ended .ok 0 .none t) := fun _ => ended_moves.within rfl
  unfold runWrite
  refine moves_ite (counted.within record) ?_
  split
  · exact refused _ _ _ _ moves_rfl
  · refine moves_ite (refused _ _ _ _ moves_rfl) <| moves_ite (refused _ _ _ _ moves_rfl) <|
      moves_ite (refused _ _ _ _ moves_rfl) <| moves_ite (refused _ _ _ _ moves_rfl) <|
      moves_ite (refused _ _ _ _ moves_rfl) <| moves_ite (refused _ _ _ _ ((hm.2 s).within effect)) ?_
    exact (done _).after record <| (hm.1 m v _).after effect <| used.within record

theorem writeReg_moves {k l : List Part} {m : AB} {p off : Nat} {h : Handler} {v : Word} {s : State} (hm : h.moves k)
    (record : covers writeParts l = true) (effect : covers k l = true) : moves l s (writeReg m p off h v s) :=
  runWrite_moves hm record effect

/-! ### Moves of masters, semaphores and mailboxes -/

theorem raiseFreed_moves {n : Nat} {s : State} : moves [.hdrs, .links] s (raiseFreed n s) :=
  moves_trans (moves_ite (raise_moves.within rfl) moves_rfl) <| moves_ite (raise_moves.within rfl) moves_rfl

theorem semAcq_moves {m : AB} {n : Nat} {s : State} : moves [.masters] s (semAcq m n s) := by
  unfold semAcq
  dsimp only
  split
  · exact setSem_moves.within rfl
  · exact moves_ite (setSem_moves.within rfl) moves_rfl

theorem semFree_moves {n : Nat} {expired : Bool} {s : State} : moves [.hdrs, .links, .masters] s (semFree n expired s) := by
  unfold semFree
  dsimp only
  split
  · exact moves_rfl
  · exact raiseFreed_moves.after rfl <| setSem_moves.within rfl

theorem semStateHandler_moves {n : Nat} : Handler.moves [.hdrs, .links, .masters] (semStateHandler n) :=
  ⟨fun _ _ _ => moves_ite (semAcq_moves.within rfl) <| moves_ite (semFree_moves.within rfl) moves_rfl, fun _ => moves_rfl⟩

theorem semLeaseHandler_moves {n : Nat} : Handler.moves [.regs, .nvs] (semLeaseHandler n) :=
  ⟨fun _ _ _ => storeReg_moves.within rfl, fun _ => moves_rfl⟩

theorem semWatchHandler_moves {x : AB} : Handler.moves [.regs, .nvs] (semWatchHandler x) :=
  ⟨fun _ _ _ => storeReg_moves.within rfl, fun _ => moves_rfl⟩

theorem execSemRelease_moves {m : AB} {n : Nat} {s : State} :
    goes [.regs, .hdrs, .last, .nvs, .links, .masters, .fw, .log] s (execSemRelease m n s) :=
  goes_whenOn <| goes_next <| writeReg_moves semStateHandler_moves rfl rfl

theorem execLeaseExpiry_moves {n : Nat} {s : State} : goes [.hdrs, .links, .masters] s (execLeaseExpiry n s) := by
  refine goes_whenOn <| ?_
  dsimp only
  split
  · exact goes_next <| raise_moves.after rfl <| semFree_moves.within rfl
  · exact goes_next moves_rfl

theorem countMalformed_moves {m : AB} {q : Req} {s : State} :
    moves [.regs, .hdrs, .nvs, .links, .masters, .fw, .log] s (countMalformed m q s) :=
  moves_trans (with_masters_moves.after rfl <| bump_moves.within rfl) <| moves_ite (freezeMaster_moves.within rfl) moves_rfl

theorem malfWindow_moves {s : State} : moves [.masters] s (malfWindow s) := with_masters_moves.within rfl

theorem execMalfWindowEnd_moves {s : State} : goes [.masters] s (execMalfWindowEnd s) :=
  goes_whenOn <| goes_next <| malfWindow_moves.within rfl

theorem release_moves {m : AB} {s : State} : moves [.hdrs, .links, .masters] s (release m s) :=
  moves_ite (raise_moves.after rfl <| setFrz_moves.within rfl) moves_rfl

theorem frzCtrlHandler_moves : Handler.moves [.hdrs, .links, .masters] frzCtrlHandler :=
  ⟨fun _ _ _ => moves_trans (moves_ite (release_moves.within rfl) moves_rfl) <|
    moves_ite (release_moves.within rfl) moves_rfl, fun _ => moves_rfl⟩

theorem execReleaseA_moves {m : AB} {s : State} :
    goes [.regs, .hdrs, .last, .nvs, .links, .masters, .fw, .log] s (execReleaseA m s) :=
  goes_whenOn <| goes_next <| writeReg_moves frzCtrlHandler_moves rfl rfl

theorem execReleaseB_moves {m : AB} {s : State} :
    goes [.regs, .hdrs, .last, .nvs, .links, .masters, .fw, .log] s (execReleaseB m s) :=
  goes_whenOn <| goes_next <| writeReg_moves frzCtrlHandler_moves rfl rfl

theorem mbxTaken_moves {i : Nat} {s : State} : moves [.hdrs, .links, .mbx] s (mbxTaken i s) :=
  raise_moves.after rfl <| setBox_moves.within rfl

theorem mbxSend_moves {i len : Nat} {s : State} : moves [.hdrs, .links, .mbx] s (mbxSend i len s) :=
  raise_moves.after rfl <| setBox_moves.within rfl

theorem mbxDataHandler_moves {i k : Nat} :
    Handler.moves [.regs, .ctrs, .hdrs, .nvs, .links, .buf, .ecc, .lfr] (mbxDataHandler i k) :=
  ⟨fun _ _ _ => wrotePart_moves.after rfl <| storeReg_moves.within rfl, fun _ => moves_rfl⟩

theorem mbxDoorbellHandler_moves {i : Nat} : Handler.moves [.hdrs, .links, .mbx] (mbxDoorbellHandler i) :=
  ⟨fun _ _ _ => mbxSend_moves.within rfl, fun _ => moves_rfl⟩

theorem mbxReadEffect_moves {m : AB} {i k : Nat} {s : State} : moves [.hdrs, .links, .mbx] s (mbxReadEffect m i k s) :=
  moves_ite (mbxTaken_moves.within rfl) moves_rfl

theorem mbxBlockReset_moves {i : Nat} {s : State} : moves [.regs, .mbx] s (mbxBlockReset i s) :=
  moves_ite (bump_moves.after rfl <| setBox_moves.within rfl) (setBox_moves.within rfl)

theorem execMbxDataWrite_moves {m : AB} {i k : Nat} {v : Word} {s : State} :
    goes [.regs, .ctrs, .hdrs, .last, .nvs, .links, .masters, .fw, .log, .buf, .ecc, .lfr] s (execMbxDataWrite m i k v s) :=
  goes_whenOn <| goes_next <| writeReg_moves mbxDataHandler_moves rfl rfl

theorem execMbxDoorbell_moves {m : AB} {i len : Nat} {s : State} :
    goes [.regs, .hdrs, .last, .nvs, .links, .masters, .mbx, .fw, .log] s (execMbxDoorbell m i len s) :=
  goes_whenOn <| goes_next <| writeReg_moves mbxDoorbellHandler_moves rfl rfl

/-- The parts that the checks of a read reach. -/
def readParts : List Part := [.regs, .last, .masters]

theorem runReadAt_moves {l : List Part} {m : AB} {win : Option Nat} {p off : Nat} {pre : State → State × Bool} {v : State → Word}
    {eff : State → State} {s : State} (covered : covers readParts l = true) (hp : ∀ t, moves l t (pre t).1)
    (he : ∀ t, moves l t (eff t)) : moves l s (runReadAt m win p off pre v eff s) := by
  have counted : moves readParts s (ended .frozen 0 .none (countRefused m s)) := ended_moves.after rfl <| countRefused_moves.within rfl
  have denied : ∀ c, moves readParts s (ended .denied 0 c (s.bump (accBase m + 4) 1)) := fun _ => ended_moves.after rfl <|
    bump_moves.within rfl
  have done : ∀ st d c t, moves readParts t (ended st d c t) := fun _ _ _ _ => ended_moves.within rfl
  unfold runReadAt
  refine moves_ite (counted.within covered) ?_
  split
  · exact (denied _).within covered
  · exact moves_ite ((done _ _ _ _).within covered) <| moves_ite ((done _ _ _ _).after covered (hp s)) <|
      (done _ _ _ _).after covered <| moves_trans (hp s) (he _)

theorem runRead_moves {l : List Part} {m : AB} {p off : Nat} {v : Word} {eff : State → State} {s : State}
    (covered : covers readParts l = true) (he : ∀ t, moves l t (eff t)) : moves l s (runRead m p off v eff s) :=
  runReadAt_moves covered (fun _ => moves_rfl) he

theorem mbxDataRead_moves {m : AB} {i k : Nat} {win : Option Nat} {s : State} :
    moves [.regs, .ctrs, .hdrs, .last, .out, .free, .nvs, .links, .masters, .mbx, .log, .cls, .buf, .mac, .ecc, .lfr, .act, .keys] s
      (mbxDataRead m i k win s) := runReadAt_moves rfl (fun _ => readLoc_moves.within rfl) fun _ => mbxReadEffect_moves.within rfl

theorem execMbxTake_moves {m : AB} {i : Nat} {s : State} :
    goes [.regs, .ctrs, .hdrs, .last, .out, .free, .nvs, .links, .masters, .mbx, .log, .cls, .buf, .mac, .ecc, .lfr, .act, .keys] s
      (execMbxTake m i s) := goes_whenOn <| goes_next <| mbxDataRead_moves.within rfl

/-! ### Moves of the non-volatile store -/

theorem setNvs_moves {s : State} {x : NvsSt} : moves [.nvs] s (s.setNvs x) := with_nvs_moves.within rfl

theorem wearBlock_moves {s : State} : moves [.regs, .hdrs, .free, .nvs, .links] s (wearBlock s) :=
  moves_trans (bump_moves.after rfl <| setNvs_moves.after rfl <| takeFree_moves.within rfl) <|
    moves_ite (raise_moves.within rfl) moves_rfl

theorem cappedWrite_moves {s : State} : moves [.regs, .hdrs, .free, .nvs, .links] s (cappedWrite s) :=
  wearBlock_moves.after rfl <| setNvs_moves.within rfl

theorem storeLife_moves {r : LifeRec} {s : State} : moves [.regs, .nvs] s (storeLife r s) := by
  refine moves_ite (setNvs_moves.within rfl) <| moves_ite (setNvs_moves.within rfl) ?_
  split
  · exact moves_rfl
  · exact bumpFld_moves.after rfl <| setNvs_moves.within rfl

theorem writeLife_moves {c : AB} {s : State} : moves [.regs, .nvs, .opt] s (writeLife c s) := by
  unfold writeLife
  dsimp only
  split
  · exact with_opt_moves.after rfl <| storeLife_moves.within rfl
  · exact moves_rfl

theorem writeLeft_moves {c : AB} {s : State} : moves [.regs, .nvs, .opt] s (writeLeft c s) := by
  unfold writeLeft
  dsimp only
  split
  · exact with_opt_moves.after rfl <| storeLife_moves.within rfl
  · exact moves_rfl

theorem setSlot_moves {k : Nat} {l : List Byte} {v : Word} {s : State} : moves [.fw] s (setSlot k l v s) :=
  moves_ite (with_fw_moves.within rfl) (with_fw_moves.within rfl)

theorem writeImageBlock_moves {s : State} : moves [.regs, .fw] s (writeImageBlock s) := wp_moves.after rfl <| setSlot_moves.within rfl

theorem commitItem_moves {x : NvItem} {s : State} : moves [.regs, .nvs, .fw, .opt] s (commitItem x s) := by
  unfold commitItem
  split
  · exact setNvs_moves.within rfl
  · exact setNvs_moves.within rfl
  · exact writeLife_moves.within rfl
  · exact writeLeft_moves.within rfl
  · exact setNvs_moves.within rfl
  · exact setNvs_moves.within rfl

theorem commitHist_moves {e : Word × Word} {s : State} : moves [.nvs] s (commitHist e s) := setNvs_moves.within rfl

theorem deferred_moves {s : State} : moves [.hdrs, .nvs, .links] s (deferred s) :=
  moves_ite moves_rfl <| raise_moves.after rfl <| setNvs_moves.within rfl

theorem writeOrDefer_moves {x : NvItem} {s : State} : moves [.regs, .hdrs, .free, .nvs, .links, .fw, .opt] s (writeOrDefer x s) :=
  moves_ite (commitItem_moves.after rfl <| cappedWrite_moves.after rfl <| setNvs_moves.within rfl) <| deferred_moves.after rfl <|
    nvQueue_moves.within rfl

theorem execNvsCommit_moves {s : State} : goes [.regs, .hdrs, .free, .nvs, .links, .fw, .opt] s (execNvsCommit s) := by
  refine goes_whenOn <| ?_
  split
  · exact goes_ite (goes_next <| writeImageBlock_moves.after rfl <| cappedWrite_moves.within rfl) <| goes_next moves_rfl
  · exact goes_ite (goes_next <| commitItem_moves.after rfl <| cappedWrite_moves.after rfl <| setNvs_moves.within rfl) <| goes_next <|
      deferred_moves.within rfl
  · exact goes_ite (goes_next <| commitHist_moves.after rfl <| cappedWrite_moves.after rfl <| setNvs_moves.within rfl) <| goes_next <|
      deferred_moves.within rfl

theorem saveLeft_moves {c : AB} {s : State} : moves [.regs, .hdrs, .free, .nvs, .links, .fw, .opt] s (saveLeft c s) :=
  moves_foldl (fun _ _ => writeOrDefer_moves.within rfl) <| moves_rfl

theorem execNvsCheckpoint_moves {s : State} : goes [.regs, .hdrs, .free, .nvs, .links, .fw, .opt] s (execNvsCheckpoint s) :=
  goes_whenOn <| goes_next <| writeOrDefer_moves.after rfl <| moves_trans (saveLeft_moves.after rfl <|
    moves_trans (saveLeft_moves.within rfl) <| moves_ite (writeOrDefer_moves.within rfl) moves_rfl) <|
    moves_ite (writeOrDefer_moves.within rfl) moves_rfl

theorem flushNvs_moves {s : State} : moves [.regs, .hdrs, .free, .nvs, .links, .fw, .opt] s (flushNvs s) :=
  setNvs_moves.after rfl <| moves_foldl (fun _ _ => commitHist_moves.after rfl <| wearBlock_moves.within rfl) <|
    moves_foldl (fun _ _ => commitItem_moves.after rfl <| wearBlock_moves.within rfl) <| moves_rfl

/-! ### Moves of the Keeper -/

theorem putReply_moves {m : AB} {w : List Word} {s : State} :
    moves [.regs, .ctrs, .hdrs, .links, .mbx, .buf, .ecc, .lfr] s (putReply m w s) :=
  mbxSend_moves.after rfl <| moves_foldl (fun _ _ => wrotePart_moves.after rfl <| wp_moves.within rfl) <| moves_rfl

theorem sendReply_moves {m : AB} {w : List Word} {s : State} :
    moves [.regs, .ctrs, .hdrs, .links, .mbx, .keeper, .buf, .ecc, .lfr] s (sendReply m w s) :=
  moves_ite (putReply_moves.within rfl) <| moves_ite (with_keeper_moves.within rfl) (bump_moves.within rfl)

theorem answerUnknown_moves {n : Nat} {m : AB} {s : State} : moves [.regs, .ctrs, .hdrs, .links, .mbx, .keeper, .buf, .ecc, .lfr] s
    (answerUnknown n m s) := by
  induction n generalizing s with
  | zero => exact moves_rfl
  | succ n ih =>
    unfold answerUnknown
    split
    · exact moves_rfl
    · exact moves_ite moves_rfl <| ih.after rfl <| sendReply_moves.after rfl <| with_keeper_moves.within rfl

theorem keeperReads_moves {i n : Nat} {s : State} : moves [.regs, .ctrs, .hdrs, .out, .free, .nvs, .links, .log, .cls, .buf, .mac, .ecc,
    .lfr, .act, .keys] s (keeperReads i n s).1 := by
  induction n with
  | zero => exact moves_rfl
  | succ n ih => exact readLoc_moves.after rfl ih

theorem execKeeperTake_moves {m : AB} {s : State} :
    goes [.regs, .ctrs, .hdrs, .out, .free, .nvs, .links, .mbx, .keeper, .log, .cls, .buf, .mac, .ecc, .lfr, .act, .keys] s
      (execKeeperTake m s) :=
  goes_whenOn <| goes_ite (goes_ite (goes_next <| mbxBlockReset_moves.after rfl <| keeperReads_moves.within rfl) <| goes_next <|
    answerUnknown_moves.after rfl <| with_keeper_moves.after rfl <| mbxTaken_moves.after rfl <| keeperReads_moves.within rfl) <|
    goes_next moves_rfl

theorem serve_moves {l : List Part} {m : AB} {op : Nat} {f : List Word → State → Nat × List Word × State} {s : State}
    (covered : covers [.regs, .ctrs, .hdrs, .links, .mbx, .keeper, .buf, .ecc, .lfr] l = true) (hf : ∀ w t, moves l t (f w t).2.2) :
      moves l s (serve m op f s) := by
  have answered : ∀ n w x t, moves [.regs, .ctrs, .hdrs, .links, .mbx, .keeper, .buf, .ecc, .lfr] t
    (answerUnknown n m (sendReply m w { t with keeper := x })) := fun _ _ _ _ =>
    answerUnknown_moves.after rfl <| sendReply_moves.after rfl <| with_keeper_moves.within rfl
  unfold serve
  split
  · exact moves_rfl
  · refine moves_ite moves_rfl <| (answered _ _ _ _).after covered ?_
    split
    · exact hf _ s
    · exact moves_rfl

theorem execInfo_moves {m : AB} {s : State} :
    goes [.regs, .ctrs, .hdrs, .links, .mbx, .keeper, .buf, .ecc, .lfr] s (execInfo m s) := by
  refine goes_whenOn <| goes_next <| serve_moves rfl fun w t => ?_
  split <;> exact moves_rfl

theorem execEcho_moves {m : AB} {s : State} :
    goes [.regs, .ctrs, .hdrs, .links, .mbx, .keeper, .buf, .ecc, .lfr] s (execEcho m s) :=
  goes_whenOn <| goes_next <| serve_moves rfl fun _ _ => moves_rfl

theorem execCaptureStatus_moves {m : AB} {s : State} :
    goes [.regs, .ctrs, .hdrs, .links, .mbx, .keeper, .buf, .ecc, .lfr] s (execCaptureStatus m s) := by
  refine goes_whenOn <| goes_next <| serve_moves rfl fun w t => ?_
  dsimp only
  split <;> exact moves_rfl

theorem execCaptureRead_moves {m : AB} {s : State} :
    goes [.regs, .ctrs, .hdrs, .links, .mbx, .keeper, .buf, .ecc, .lfr] s (execCaptureRead m s) := by
  refine goes_whenOn <| goes_next <| serve_moves rfl fun w t => ?_
  dsimp only
  split
  · exact moves_rfl
  split
  · exact moves_rfl
  · split <;> exact moves_rfl

theorem execCaptureFree_moves {m : AB} {s : State} :
    goes [.regs, .ctrs, .hdrs, .links, .mbx, .keeper, .buf, .ecc, .lfr] s (execCaptureFree m s) := by
  refine goes_whenOn <| goes_next <| serve_moves rfl fun w t => ?_
  dsimp only
  split
  · exact moves_rfl
  · exact with_keeper_moves.within rfl

theorem execKeeperReply_moves {m : AB} {s : State} :
    goes [.regs, .ctrs, .hdrs, .links, .mbx, .keeper, .buf, .ecc, .lfr] s (execKeeperReply m s) := by
  refine goes_whenOn <| ?_
  split
  · exact goes_next moves_rfl
  · exact goes_ite (goes_next moves_rfl) <| goes_next <| putReply_moves.after rfl <| with_keeper_moves.within rfl

theorem execPuntCapture_moves {s : State} : goes [.regs, .keeper] s (execPuntCapture s) := by
  refine goes_whenOn <| ?_
  split
  · exact goes_next moves_rfl
  · exact goes_ite (goes_next <| with_keeper_moves.after rfl <| with_keeper_moves.within rfl) <| goes_next <| bump_moves.after rfl <|
      with_keeper_moves.within rfl

theorem loadBad_moves {c : Nat} {s : State} : moves [.hdrs, .links, .fw] s (loadBad c s) :=
  raise_moves.after rfl <| with_fw_moves.within rfl

theorem fwCtrlHandler_moves : Handler.moves [.hdrs, .nvs, .links, .fw] fwCtrlHandler :=
  ⟨fun _ _ _ => moves_trans (moves_ite (with_fw_moves.within rfl) moves_rfl) <|
    moves_trans (moves_ite (with_fw_moves.within rfl) moves_rfl) <| moves_trans (moves_ite (with_fw_moves.within rfl) moves_rfl) <|
    moves_ite (raise_moves.after rfl <| nvQueue_moves.after rfl <| with_fw_moves.within rfl) moves_rfl, fun _ => moves_rfl⟩

theorem fwLenHandler_moves : Handler.moves [.regs, .nvs] fwLenHandler :=
  ⟨fun _ v s => storeReg_moves (p := pNvs) (off := 0x108) (v := v) (s := s), fun _ => moves_rfl⟩

theorem keeperStart_moves {s : State} : moves [.regs, .hdrs, .nvs, .links, .keeper, .fw] s (keeperStart s) :=
  moves_trans (with_keeper_fw_moves.after rfl <| bump_moves.within rfl) <|
    moves_trans (moves_ite (nvQueue_moves.within rfl) moves_rfl) <| moves_ite (raise_moves.within rfl) moves_rfl

theorem fwCommitHandler_moves : Handler.moves [.regs, .hdrs, .nvs, .links, .keeper, .fw] fwCommitHandler :=
  ⟨fun _ _ _ => moves_trans (moves_ite (nvQueue_moves.after rfl <| with_fw_moves.within rfl) moves_rfl) <|
    moves_trans (moves_ite (nvQueue_moves.after rfl <| with_fw_moves.within rfl) moves_rfl) <|
    moves_ite (keeperStart_moves.within rfl) moves_rfl, fun _ => moves_rfl⟩

theorem execFwOpen_moves {m : AB} {s : State} : goes [.regs, .hdrs, .last, .nvs, .links, .masters, .fw, .log] s (execFwOpen m s) :=
  goes_whenOn <| goes_next <| writeReg_moves fwCtrlHandler_moves rfl rfl

theorem execFwClose_moves {m : AB} {s : State} : goes [.regs, .hdrs, .last, .nvs, .links, .masters, .fw, .log] s (execFwClose m s) :=
  goes_whenOn <| goes_next <| writeReg_moves fwCtrlHandler_moves rfl rfl

theorem execFwLoad_moves {m : AB} {s : State} : goes [.regs, .hdrs, .last, .nvs, .links, .masters, .fw, .log] s (execFwLoad m s) :=
  goes_whenOn <| goes_next <| writeReg_moves fwCtrlHandler_moves rfl rfl

theorem execFwConfirm_moves {m : AB} {s : State} :
    goes [.regs, .hdrs, .last, .nvs, .links, .masters, .fw, .log] s (execFwConfirm m s) :=
  goes_whenOn <| goes_next <| writeReg_moves fwCtrlHandler_moves rfl rfl

theorem execFwCheckDone_moves {s : State} : goes [.regs, .hdrs, .links, .fw] s (execFwCheckDone s) := by
  refine goes_whenOn <| goes_ite (goes_next moves_rfl) <| goes_ite (goes_next <| loadBad_moves.within rfl) ?_
  split
  · exact goes_next <| loadBad_moves.within rfl
  · exact goes_next <| wp_moves.after rfl <| setSlot_moves.after rfl <| with_fw_moves.within rfl

theorem execFwWriteDone_moves {readBackOk : Bool} {s : State} : goes [.hdrs, .links, .fw] s (execFwWriteDone readBackOk s) :=
  goes_whenOn <| goes_ite (goes_next moves_rfl) <| goes_ite (goes_next <| raise_moves.after rfl <| setSlot_moves.after rfl <|
    with_fw_moves.within rfl) <| goes_next <| loadBad_moves.within rfl

theorem execFwCommit_moves {m : AB} {restart : Bool} {s : State} :
    goes [.regs, .hdrs, .last, .power, .nvs, .links, .masters, .keeper, .fw, .log] s (execFwCommit m restart s) :=
  goes_whenOn <| goes_next <| writeReg_moves fwCommitHandler_moves rfl rfl

theorem execFwRom_moves {m : AB} {restart : Bool} {s : State} :
    goes [.regs, .hdrs, .last, .power, .nvs, .links, .masters, .keeper, .fw, .log] s (execFwRom m restart s) :=
  goes_whenOn <| goes_next <| writeReg_moves fwCommitHandler_moves rfl rfl

theorem execFwRestart_moves {m : AB} {s : State} :
    goes [.regs, .hdrs, .last, .nvs, .links, .masters, .keeper, .fw, .log] s (execFwRestart m s) :=
  goes_whenOn <| goes_next <| writeReg_moves fwCommitHandler_moves rfl rfl

/-! ### Moves of the packet buffer -/

theorem setPolCredit_moves {j : Nat} {c : Int} {s : State} : moves [.buf] s (setPolCredit j c s) := with_buf_moves.within rfl

theorem meter_moves {k r blk idx : Nat} {node : Bool} {p : Pkt} {s : State} : moves [.regs, .ctrs, .hdrs, .out, .free, .nvs, .links,
    .log, .cls, .buf, .mac, .ecc, .lfr, .act, .keys] s (meter k r blk idx node p s).1 := by
  unfold meter
  dsimp only
  split
  · exact dropSepRef_moves.within rfl
  · split
    · exact dropAt_moves.within rfl
    · split
      · exact setPolCredit_moves.after rfl <| readRow_moves.within rfl
      · exact dropAt_moves.after rfl <| bump_moves.after rfl <| readRow_moves.within rfl

theorem wroteCell_moves {n k : Nat} {s : State} : moves [.regs, .hdrs, .free, .links] s (wroteCell n k s).2 := by
  unfold wroteCell
  dsimp only
  split
  · exact raise_moves.after rfl <| setFlag_moves.after rfl <| takeFree_moves.after rfl <| badCell_moves.within rfl
  · exact moves_rfl

theorem poisonHome_moves {banks : List Nat} {c : CellErr} {s : State} : moves [.free] s (poisonHome banks c s).2 := by
  unfold poisonHome
  split
  · exact badCell_moves (b := banks.headD 0)
  · exact moves_rfl

theorem place_moves {k a q : Nat} {p : Pkt} {s : State} : moves [.regs, .ctrs, .hdrs, .out, .free, .links, .buf, .mac] s
    (place k a q p s) := by
  refine pauseCheck_moves.after rfl ?_
  refine moves_trans ?_ (moves_ite (raise_moves.within rfl) moves_rfl)
  refine moves_trans ?_ (moves_ite (wp_moves.within rfl) moves_rfl)
  refine setQueue_moves.after rfl ?_
  refine moves_foldl_snd (fun _ _ => wroteCell_moves.within rfl) ?_
  exact poisonHome_moves.after rfl <| with_buf_moves.within rfl

theorem enqueue_moves {m q ref : Nat} {meterNode : Bool} {p : Pkt} {s : State} : moves [.regs, .ctrs, .hdrs, .out, .free, .nvs, .links,
    .log, .cls, .buf, .mac, .ecc, .lfr, .act, .keys] s (enqueue m q ref meterNode p s).1 := by
  have read : ∀ (c : Prop) [Decidable c] (r e r' e' : Nat),
      moves [.regs, .ctrs, .hdrs, .out, .free, .nvs, .links, .log, .cls, .buf, .mac, .ecc, .lfr, .act, .keys] s
        (if c then readRow 0x61 r e 0 (readRow 0x60 r' e' 0 s) else s) := fun _ _ _ _ _ _ =>
    moves_ite (readRow_moves.after rfl <| readRow_moves.within rfl) moves_rfl
  unfold enqueue
  extract_lets k nd a u p'
  have hu : moves [.regs, .ctrs, .hdrs, .out, .free, .nvs, .links, .log, .cls, .buf, .mac, .ecc, .lfr, .act, .keys] s u := read _ _ _ _ _
  have drop : ∀ r d t, moves [.regs, .ctrs, .hdrs, .out, .free, .nvs, .links, .log, .cls, .buf, .mac, .ecc, .lfr, .act,
    .keys] s t → moves [.regs, .ctrs, .hdrs, .out, .free, .nvs, .links, .log, .cls, .buf, .mac, .ecc, .lfr, .act, .keys] s
    (dropAt r k p'.src (some p') d t) := fun _ _ _ h => dropAt_moves.after rfl h
  have metered : ∀ (c : Bool) r j, moves [.regs, .ctrs, .hdrs, .out, .free, .nvs, .links, .log, .cls, .buf, .mac, .ecc, .lfr, .act,
    .keys] s (if c then meter k r 0x43 j true p' u else (u, true)).1 := fun c _ _ => by
    cases c
    · exact hu
    · exact meter_moves.after rfl hu
  split
  · exact drop _ _ _ hu
  split
  · exact dropSepRef_moves.after rfl hu
  split
  · exact drop _ _ _ hu
  split
  · exact dropSepRef_moves.after rfl hu
  split
  · exact drop _ _ _ hu
  split
  · exact metered _ _ _
  split
  · exact drop _ _ _ <| moves_ite (macCount_moves.after rfl (metered _ _ _)) (metered _ _ _)
  · exact place_moves.after rfl (metered _ _ _)

theorem queueDataRx_moves {l : AB} {p : Pkt} {s : State} :
    moves [.regs, .ctrs, .hdrs, .nvs, .links, .log, .buf] s (queueDataRx l p s) :=
  moves_ite (dropPoison_moves.within rfl) <| moves_ite (dropAt_moves.within rfl) <|
    moves_ite (setLink_moves.within rfl) (dropAt_moves.within rfl)

theorem puntTo_moves {m : AB} {blk idx : Nat} {p : Pkt} {s : State} :
    moves [.regs, .ctrs, .hdrs, .nvs, .links, .log, .buf] s (puntTo m blk idx p s) :=
  moves_ite (queueDataRx_moves.within rfl) (dropSepRef_moves.within rfl)

theorem queueOmci_moves {msg : List Byte} {s : State} : moves [.regs, .ctrs, .hdrs, .links, .buf] s (queueOmci msg s) :=
  moves_ite (dropAt_moves.within rfl) <| moves_ite (setLink_moves.within rfl) (dropAt_moves.within rfl)

theorem queueCensus_moves {l : AB} {k : Nat} {recs : List Word} {s : State} : moves [.links] s (queueCensus l k recs s) :=
  setLink_moves.within rfl

/-! ### Moves of scheduling and policing -/

theorem setCred_moves {a : Nat} {c p : Int} {s : State} : moves [.buf] s (setCred a c p s) := with_buf_moves.within rfl

theorem settleDeficit_moves {pn a : Nat} {s : State} : moves [.buf] s (settleDeficit pn a s) := by
  refine moves_ite (with_buf_moves.after rfl <| with_buf_moves.within rfl) <| moves_ite moves_rfl ?_
  split
  · exact with_buf_moves.within rfl
  · exact with_buf_moves.within rfl
  · exact with_buf_moves.after rfl <| with_buf_moves.within rfl

theorem readCells_moves {p : Pkt} {s : State} :
    moves [.regs, .ctrs, .hdrs, .nvs, .links, .log, .ecc, .act, .keys] s (readCells p s).2 := by
  unfold readCells
  split
  · exact foundCe_moves.within rfl
  · exact startRowTest_moves.after rfl <| recordFault_moves.after rfl <| raise_moves.after rfl <| eccCount_moves.within rfl
  · exact moves_rfl

theorem takeFrame_moves {pn : Nat} {ok : Nat → Bool} {s : State} {x : Taken × State} (h : takeFrame pn ok s = some x) :
    moves [.regs, .ctrs, .hdrs, .out, .free, .nvs, .links, .log, .buf, .mac, .ecc, .act, .keys] s x.2 := by
  have settled : ∀ l : List Nat, moves [.regs, .ctrs, .hdrs, .out, .free, .nvs, .links, .log, .buf, .mac, .ecc, .act, .keys] s
    (l.foldl (fun s a => settleDeficit pn a s) s) := fun _ =>
    moves_foldl (fun _ _ => settleDeficit_moves.within rfl) moves_rfl
  unfold takeFrame at h
  dsimp only at h
  split at h
  · cases h
  split at h
  · cases h
  split at h
  · cases h
  cases h
  refine settleDeficit_moves.after rfl ?_
  refine moves_trans ?_ (moves_ite (poisonQueue_moves.within rfl) moves_rfl)
  exact readCells_moves.after rfl <| setCred_moves.after rfl <| setQueue_moves.after rfl <| with_buf_moves.after rfl <| settled _

theorem flushQueue_moves {a q : Nat} {s : State} : moves [.regs, .ctrs, .hdrs, .out, .links, .buf, .mac] s (flushQueue a q s) :=
  freed_moves.after rfl <| settleEmpty_moves.after rfl <| setQueue_moves.after rfl <|
    moves_foldl (fun _ _ => moves_trans (dropAt_moves.after rfl <| bump_moves.within rfl) <|
    moves_ite (macCount_moves.within rfl) moves_rfl) <| moves_rfl

theorem flushNode_moves {a : Nat} {s : State} : moves [.regs, .ctrs, .hdrs, .out, .links, .buf, .mac] s (flushNode a s) :=
  moves_foldl (fun _ _ => flushQueue_moves.within rfl) <| moves_rfl

theorem countFlushed_moves {p : Pkt} {s : State} : moves [.regs] s (countFlushed p s) := by
  unfold countFlushed
  split
  · exact bump_moves.within rfl
  · exact moves_rfl

theorem flushPort_moves {n k : Nat} {s : State} : moves [.regs, .ctrs, .hdrs, .out, .links, .buf, .mac] s (flushPort n k s) :=
  freed_moves.after rfl <| setPort_moves.after rfl <| moves_foldl (fun _ _ => macCount_moves.after rfl <| dropAt_moves.after rfl <|
    countFlushed_moves.within rfl) <| moves_rfl

theorem releaseClient_moves {n : Nat} {p : Pkt} {s : State} :
    moves [.regs, .ctrs, .hdrs, .out, .nvs, .links, .log, .buf, .mac] s (releaseClient n p s) :=
  moves_ite (freed_moves.after rfl <| dropPoison_moves.within rfl) <| moves_ite (setPort_moves.within rfl) <| freed_moves.after rfl <|
    macCount_moves.after rfl <| dropAt_moves.within rfl

theorem releaseHost_moves {a : Nat} {p : Pkt} {s : State} :
    moves [.regs, .ctrs, .hdrs, .out, .nvs, .links, .log, .buf, .mac] s (releaseHost a p s) :=
  moves_ite (freed_moves.after rfl <| dropPoison_moves.within rfl) <| freed_moves.after rfl <|
    moves_foldl (fun _ _ => moves_ite (dropSepRef_moves.within rfl) <|
    moves_ite (dropAt_moves.within rfl) (queueDataRx_moves.within rfl)) <| moves_rfl

theorem execSchedRelease_moves {pn : Nat} {s : State} :
    goes [.regs, .ctrs, .hdrs, .out, .free, .nvs, .links, .log, .buf, .mac, .ecc, .act, .keys] s (execSchedRelease pn s) := by
  refine goes_whenOn <| goes_ite ?_ <| goes_ite ?_ (goes_next moves_rfl)
  · split
    · exact goes_next moves_rfl
    · rename_i h
      exact goes_next <| releaseClient_moves.after rfl <| (takeFrame_moves h).within rfl
  · split
    · exact goes_next moves_rfl
    · rename_i h
      exact goes_next <| releaseHost_moves.after rfl <| with_buf_moves.after rfl <| (takeFrame_moves h).within rfl

theorem fillNode_moves {a : Nat} {s : State} : moves [.buf] s (fillNode a s) := setCred_moves.within rfl

theorem nodeHandler_moves {k m d : Nat} : Handler.moves [.regs, .hdrs, .links, .buf, .ecc] (nodeHandler k m d) :=
  ⟨fun _ _ _ => moves_trans (wroteWord_moves.after rfl <| wr_moves.within rfl) <|
    moves_trans (moves_ite (with_buf_moves.within rfl) moves_rfl) <| moves_ite (fillNode_moves.within rfl) moves_rfl, fun _ => moves_rfl⟩

theorem queueHandler_moves {k m q d : Nat} : Handler.moves [.regs, .hdrs, .links, .ecc] (queueHandler k m q d) :=
  ⟨fun _ _ _ => wroteWord_moves.after rfl <| wr_moves.within rfl, fun _ => moves_rfl⟩

theorem policerHandler_moves {k j d : Nat} : Handler.moves [.regs, .hdrs, .links, .ecc] (policerHandler k j d) :=
  ⟨fun _ _ _ => wroteWord_moves.after rfl <| wr_moves.within rfl, fun _ => moves_rfl⟩

theorem shaperWrite_moves {m : AB} {r : ShaperReg} {v : Word} {s : State} :
    moves [.regs, .hdrs, .last, .nvs, .links, .masters, .fw, .log, .buf, .ecc] s (shaperWrite m r v s) := by
  unfold shaperWrite
  split
  · exact writeReg_moves nodeHandler_moves rfl rfl
  · exact writeReg_moves policerHandler_moves rfl rfl
  · exact writeReg_moves plain_moves rfl rfl

theorem execShaperWrite_moves {m : AB} {r : ShaperReg} {v : Word} {s : State} :
    goes [.regs, .hdrs, .last, .nvs, .links, .masters, .fw, .log, .buf, .ecc] s (execShaperWrite m r v s) :=
  goes_whenOn <| goes_next <| shaperWrite_moves.within rfl

theorem refillNode_moves {a : Nat} {s : State} : moves [.buf] s (refillNode a s) := setCred_moves.within rfl

theorem refillPolicer_moves {j : Nat} {s : State} : moves [.buf] s (refillPolicer j s) := setPolCredit_moves.within rfl

theorem refillBuckets_moves {s : State} : moves [.buf] s (refillBuckets s) :=
  with_buf_moves.after rfl <| moves_foldl (fun _ _ => refillPolicer_moves.within rfl) <|
    moves_foldl (fun _ _ => refillNode_moves.within rfl) <| moves_rfl

theorem setSeq_moves {s : State} {n : Nat} {q : Seq} : moves [.seqs] s (s.setSeq n q) := with_seqs_moves.within rfl

theorem seqCount_moves {n i k : Nat} {s : State} : moves [.regs, .ctrs, .hdrs, .links] s (seqCount n i k s) := countAt_moves.within rfl

theorem seqStart_moves {n : Nat} {s : State} : moves [.seqs] s (seqStart n s) := setSeq_moves.within rfl

theorem seqStop_moves {n : Nat} {s : State} : moves [.seqs] s (seqStop n s) := by
  unfold seqStop
  dsimp only
  split
  · exact setSeq_moves.within rfl
  · exact setSeq_moves.within rfl
  · exact moves_rfl

theorem seqSync_moves {old s : State} : moves [.seqs] s (seqSync old s) :=
  moves_foldl (fun _ _ => moves_ite (seqStart_moves.within rfl) <| moves_ite (seqStop_moves.within rfl) moves_rfl) <| moves_rfl

theorem rxCopy_moves {n k : Nat} {p : Pkt} {s : State} : moves [.regs, .ctrs, .hdrs, .links, .seqs] s (rxCopy n k p s) := by
  unfold rxCopy
  dsimp only
  split
  · exact raise_moves.after rfl <| seqCount_moves.within rfl
  · exact seqCount_moves.after rfl <| setSeq_moves.within rfl

theorem rxCopies_moves {k : Nat} {p : Pkt} {s : State} : moves [.regs, .ctrs, .hdrs, .links, .seqs] s (rxCopies k p s) :=
  moves_foldl (fun _ _ => moves_ite (rxCopy_moves.within rfl) moves_rfl) <| moves_rfl

/-! ### Moves of classification and churn -/

theorem handOver_moves {l : List Pkt} {held : List Nat} {s : State} : moves [.cls] s (handOver l held s).2 := by
  induction l generalizing held s with
  | nil => exact moves_rfl
  | cons p l ih =>
    unfold handOver
    dsimp only
    split
    · exact ih
    · exact ih.after rfl <| setLane_moves.within rfl

theorem setWaiting_moves {s : State} {l : List Pkt} : moves [.cls] s (s.setWaiting l) := with_cls_moves.within rfl

theorem settleWaiting_moves {s : State} : moves [.regs, .ctrs, .hdrs, .links, .cls, .buf] s (settleWaiting s) :=
  moves_ite moves_rfl <| moves_ite
    (moves_foldl (fun _ _ => dropSrc_moves.within rfl) <| setWaiting_moves.within rfl)
    (setWaiting_moves.after rfl <| handOver_moves.within rfl)

theorem laneRemove_moves {n : Nat} {s : State} : moves [.regs, .ctrs, .hdrs, .out, .links, .cls, .buf] s (laneRemove n s) :=
  moves_ite moves_rfl <| settleWaiting_moves.after rfl <| with_cls_moves.after rfl <| setLane_moves.within rfl

theorem laneReturn_moves {n : Nat} {s : State} : moves [.regs, .ctrs, .hdrs, .out, .links, .cls, .buf] s (laneReturn n s) :=
  moves_ite moves_rfl <| settleWaiting_moves.after rfl <| with_cls_moves.after rfl <| setLane_moves.within rfl

theorem dispatch_moves {p : Pkt} {s : State} : moves [.regs, .ctrs, .hdrs, .links, .cls, .buf] s (dispatch p s) :=
  settleWaiting_moves.after rfl <| setWaiting_moves.within rfl

theorem redispatch_moves {n : Nat} {s : State} : moves [.cls] s (redispatch n s) := setLane_moves.after rfl <| setWaiting_moves.within rfl

theorem ingress_moves {src k : Nat} {l : List Byte} {f : Pkt → Pkt} {s : State} :
    moves [.regs, .ctrs, .hdrs, .links, .cls, .buf] s (ingress src k l f s) :=
  moves_ite (dropSrc_moves.within rfl) <| moves_ite (dropSrc_moves.within rfl) (dispatch_moves.within rfl)

theorem laneFault_moves {n : Nat} {s : State} :
    moves [.regs, .ctrs, .hdrs, .out, .nvs, .links, .log, .cls, .buf] s (laneFault n s) :=
  startUnitTest_moves.after rfl <| recordFault_moves.after rfl <| raise_moves.after rfl <| settleWaiting_moves.after rfl <|
    laneRemove_moves.after rfl <| redispatch_moves.after rfl <| countAt_moves.after rfl <| bump_moves.after rfl <|
    moves_foldl (fun _ _ => dropSrc_moves.within rfl) <| setLane_moves.within rfl

theorem execLaneStall_moves {n : Nat} {s : State} :
    goes [.regs, .ctrs, .hdrs, .out, .nvs, .links, .log, .cls, .buf] s (execLaneStall n s) :=
  goes_whenOn <| goes_ite (goes_next <| laneFault_moves.within rfl) <| goes_next moves_rfl

theorem execBucketReturn_moves {b : Nat} {s : State} : goes [.regs, .ctrs, .hdrs, .links, .cls, .buf] s (execBucketReturn b s) := by
  refine goes_whenOn <| ?_
  dsimp only
  split
  · exact goes_next moves_rfl
  · exact goes_ite (goes_next moves_rfl) <| goes_next <| settleWaiting_moves.after rfl <| with_cls_moves.within rfl

theorem lookup_moves {k : Nat} {key : List Word} {l : List (Nat × Rule)} {s : State} : moves [.regs, .ctrs, .hdrs, .out, .free, .nvs,
    .links, .log, .cls, .buf, .mac, .ecc, .lfr, .act, .keys] s (lookup k key l s).2 := by
  induction l generalizing s with
  | nil => exact moves_rfl
  | cons x l ih =>
    unfold lookup
    dsimp only
    split
    · split
      · exact readRow_moves.within rfl
      · exact ih.after rfl <| readRow_moves.within rfl
    · exact ih

theorem cross_moves {i dst : Nat} {mirror : Bool} {p : Pkt} {s : State} :
    moves [.regs, .ctrs, .hdrs, .out, .free, .nvs, .links, .log, .cls, .buf, .mac, .ecc, .lfr, .act, .keys] s
      (cross i dst mirror p s).2 := by
  unfold cross
  split
  · exact bump_moves.within rfl
  · exact dropXslice_moves.within rfl

theorem churnCount_moves {k i : Nat} {s : State} : moves [.regs, .ctrs, .hdrs, .links] s (churnCount k i s) := countAt_moves.within rfl

theorem toChurn_moves {r : Rule} {p : Pkt} {s : State} : moves [.regs, .ctrs, .hdrs, .links, .cls, .buf] s (toChurn r p s) :=
  moves_ite (dropSrc_moves.after rfl <| churnCount_moves.within rfl) <| moves_ite (dropSrc_moves.within rfl) <|
    moves_ite (dropSrc_moves.after rfl <| churnCount_moves.within rfl) <| with_cls_buf_moves.after rfl <| churnCount_moves.within rfl

theorem execChurnPass_moves {s : State} :
    goes [.regs, .ctrs, .hdrs, .out, .free, .nvs, .links, .log, .cls, .buf, .mac, .ecc, .lfr, .act, .keys] s (execChurnPass s) := by
  refine goes_whenOn ?_
  split
  · exact goes_next moves_rfl
  dsimp only
  split
  · exact goes_next <| dispatch_moves.after rfl <| with_cls_moves.within rfl
  · rename_i c t _ _ i dst _
    have crossed := cross_moves (i := i) (dst := dst) (mirror := false) (p := c.pkt) (s := { s with cls := { s.cls with churnQ := t } })
    split <;> rename_i h <;> rw [h] at crossed
    · exact goes_next <| dispatch_moves.after rfl <| crossed.after rfl <| with_cls_moves.within rfl
    · exact goes_next <| crossed.after rfl <| with_cls_moves.within rfl

theorem ruleCount_moves {k c : Nat} {p : Pkt} {s : State} : moves [.regs, .ctrs, .hdrs, .out, .free, .nvs, .links, .log, .cls, .buf,
    .mac, .ecc, .lfr, .act, .keys] s (ruleCount k c p s) := by
  unfold ruleCount
  exact countWide_moves.after rfl <| countWide_moves.after rfl <| readRow_moves.within rfl

theorem puntKeeper_moves {p : Pkt} {s : State} : moves [.regs, .ctrs, .hdrs, .links, .keeper, .buf] s (puntKeeper p s) :=
  moves_ite (with_keeper_moves.within rfl) (dropSrc_moves.within rfl)

theorem touchNode_moves {k m : Nat} {s : State} :
    moves [.regs, .ctrs, .hdrs, .out, .free, .nvs, .links, .log, .cls, .buf, .mac, .ecc, .lfr, .act, .keys] s (touchNode k m s) :=
  moves_ite (readRow_moves.within rfl) moves_rfl

theorem touchTargets_moves {i : Nat} {r : Rule} {k e : Nat} {s : State} :
    moves [.regs, .ctrs, .hdrs, .out, .free, .nvs, .links, .log, .cls, .buf, .mac, .ecc, .lfr, .act, .keys] s (touchTargets i r k e s) :=
      by
  unfold touchTargets
  dsimp only
  split
  · exact touchNode_moves.after rfl <| moves_ite (touchNode_moves.after rfl <| moves_ite (readRow_moves.within rfl) moves_rfl) <|
      moves_ite (readRow_moves.within rfl) moves_rfl
  · exact moves_ite (touchNode_moves.after rfl <| moves_ite (readRow_moves.within rfl) moves_rfl) <|
      moves_ite (readRow_moves.within rfl) moves_rfl

theorem dropTarget_moves {b : TargetBad} {p : Pkt} {s : State} : moves [.regs, .ctrs, .hdrs, .links, .buf] s (dropTarget b p s) := by
  unfold dropTarget
  split
  · exact dropSepRef_moves.within rfl
  · exact dropXslice_moves.within rfl

theorem mirror_moves {r : Rule} {p : Pkt} {s : State} : moves [.regs, .ctrs, .hdrs, .out, .free, .nvs, .links, .log, .cls, .buf, .mac,
    .ecc, .lfr, .act, .keys] s (mirror r p s) := by
  unfold mirror
  dsimp only
  split
  · have crossed := cross_moves (i := r.permit) (dst := r.dst) (mirror := true) (p := { p with tsId := none }) (s := s)
    split <;> rename_i h <;> rw [h] at crossed
    · exact enqueue_moves.after rfl <| crossed.within rfl
    · exact crossed.within rfl
  · exact enqueue_moves.within rfl

theorem forward_moves {r : Rule} {node queue : Nat} {p : Pkt} {s : State} : moves [.regs, .ctrs, .hdrs, .out, .free, .nvs, .links, .log,
    .cls, .buf, .mac, .ecc, .lfr, .act, .keys] s (forward r node queue p s) := by
  unfold forward
  dsimp only
  split
  · have crossed := cross_moves (i := r.permit) (dst := r.dst) (mirror := false) (p := p) (s := s)
    split <;> rename_i h <;> rw [h] at crossed
    · exact enqueue_moves.after rfl <| crossed.within rfl
    · exact crossed.within rfl
  · exact enqueue_moves.within rfl

theorem dispose_moves {r : Rule} {e : Nat} {p : Pkt} {s : State} :
    moves [.regs, .ctrs, .hdrs, .out, .free, .nvs, .links, .keeper, .log, .cls, .buf, .mac, .ecc, .lfr, .act, .keys] s
      (dispose r e p s) :=
  moves_ite (forward_moves.within rfl) <| moves_ite (moves_ite (forward_moves.within rfl) (dropSrc_moves.within rfl)) <|
    moves_ite (dropSrc_moves.within rfl) <| moves_ite (moves_foldl (fun _ _ => puntTo_moves.within rfl) <| moves_rfl) <|
    moves_ite (puntKeeper_moves.within rfl) <| moves_ite (toChurn_moves.within rfl) (dropSrc_moves.within rfl)

theorem applyRule_moves {i : Nat} {r : Rule} {p : Pkt} {s : State} :
    moves [.regs, .ctrs, .hdrs, .out, .free, .nvs, .links, .keeper, .log, .cls, .buf, .mac, .seqs, .ecc, .lfr, .act, .keys] s
      (applyRule i r p s) := by
  unfold applyRule
  extract_lets k p1 s1 pri p2 s2 m s3 e s4
  have copied : moves [.regs, .ctrs, .hdrs, .out, .free, .nvs, .links, .keeper, .log, .cls, .buf, .mac, .seqs, .ecc, .lfr, .act,
    .keys] s s2 := rxCopies_moves.after rfl <| moves_ite (ruleCount_moves.within rfl) moves_rfl
  have metered : moves [.regs, .ctrs, .hdrs, .out, .free, .nvs, .links, .keeper, .log, .cls, .buf, .mac, .seqs, .ecc, .lfr, .act,
    .keys] s m.1 := by
    unfold m
    split
    · exact meter_moves.after rfl copied
    · exact copied
  have touched : moves [.regs, .ctrs, .hdrs, .out, .free, .nvs, .links, .keeper, .log, .cls, .buf, .mac, .seqs, .ecc, .lfr, .act,
    .keys] s s4 := touchTargets_moves.after rfl metered
  refine moves_ite metered ?_
  split
  · exact dropTarget_moves.after rfl touched
  · exact dispose_moves.after rfl <| moves_trans touched <| moves_ite (mirror_moves.within rfl) moves_rfl

theorem classify_moves {p : Pkt} {s : State} : moves [.regs, .ctrs, .hdrs, .out, .free, .nvs, .links, .keeper, .log, .cls, .buf, .mac,
    .seqs, .ecc, .lfr, .act, .keys] s (classify p s) := by
  refine moves_ite (dropSrc_moves.within rfl) ?_
  have found := lookup_moves (k := p.slice) (key := p.key) (l := s.cls.rules) (s := s)
  split <;> rename_i h <;> rw [h] at found
  · exact dropSrc_moves.after rfl <| found.within rfl
  · exact applyRule_moves.after rfl <| found.within rfl

theorem laneWrote_moves {n : Nat} {s : State} : moves [.regs, .hdrs, .free, .links, .ecc] s (laneWrote n s) :=
  moves_ite (wroteWord_moves.after rfl <| takeFree_moves.within rfl) moves_rfl

theorem laneRead_moves {n : Nat} {s : State} :
    moves [.regs, .ctrs, .hdrs, .out, .free, .nvs, .links, .log, .cls, .buf, .mac, .ecc, .lfr, .act, .keys] s (laneRead n s).2 := by
  unfold laneRead
  dsimp only
  split
  · exact moves_foldl (fun _ _ => readUpset_moves.within rfl) <| moves_rfl
  · exact recordFault_moves.after rfl <| eccCount_moves.after rfl <| with_ecc_moves.after rfl <|
      moves_foldl (fun _ _ => readUpset_moves.within rfl) <| moves_rfl

theorem ruleCmdHandler_moves {k : Nat} :
    Handler.moves [.regs, .ctrs, .hdrs, .out, .free, .nvs, .links, .log, .cls, .buf, .mac, .ecc, .lfr, .act, .keys] (ruleCmdHandler k) :=
  ⟨fun _ _ _ => moves_ite (wroteWord_moves.after rfl <| setRule_moves.within rfl) <| moves_ite (wroteWord_moves.after rfl <|
    setRule_moves.within rfl) <| moves_foldl (fun _ _ => wp_moves.within rfl) <| moves_foldl (fun _ _ => wp_moves.within rfl) <|
    moves_foldl (fun _ _ => wp_moves.within rfl) <| readRow_moves.within rfl, fun _ => moves_rfl⟩

theorem indirectionHandler_moves {k e : Nat} : Handler.moves [.regs, .hdrs, .nvs, .links, .ecc] (indirectionHandler k e) :=
  ⟨fun _ _ _ => wroteWord_moves.after rfl <| storeReg_moves.within rfl, fun _ => moves_rfl⟩

theorem churnRateHandler_moves {k : Nat} : Handler.moves [.regs, .nvs] (churnRateHandler k) :=
  ⟨fun _ _ _ => storeReg_moves.within rfl, fun _ => moves_rfl⟩

theorem churnBurstHandler_moves {k : Nat} : Handler.moves [.regs, .nvs, .buf] (churnBurstHandler k) :=
  ⟨fun _ _ _ => with_buf_moves.after rfl <| storeReg_moves.within rfl, fun _ => moves_rfl⟩

theorem refillChurn_moves {s : State} : moves [.buf] s (refillChurn s) := with_buf_moves.within rfl

theorem ruleCmd_moves {m : AB} {k op : Nat} {s : State} :
    moves [.regs, .ctrs, .hdrs, .last, .out, .free, .nvs, .links, .masters, .fw, .log, .cls, .buf, .mac, .ecc, .lfr, .act, .keys] s
      (ruleCmd m k op s) := writeReg_moves ruleCmdHandler_moves rfl rfl

theorem execRuleRead_moves {m : AB} {k : Nat} {s : State} :
    goes [.regs, .ctrs, .hdrs, .last, .out, .free, .nvs, .links, .masters, .fw, .log, .cls, .buf, .mac, .ecc, .lfr, .act, .keys] s
      (execRuleRead m k s) := goes_whenOn <| goes_next <| ruleCmd_moves.within rfl

theorem execRuleWrite_moves {m : AB} {k : Nat} {s : State} :
    goes [.regs, .ctrs, .hdrs, .last, .out, .free, .nvs, .links, .masters, .fw, .log, .cls, .buf, .mac, .ecc, .lfr, .act, .keys] s
      (execRuleWrite m k s) := goes_whenOn <| goes_next <| ruleCmd_moves.within rfl

theorem execRuleClear_moves {m : AB} {k : Nat} {s : State} :
    goes [.regs, .ctrs, .hdrs, .last, .out, .free, .nvs, .links, .masters, .fw, .log, .cls, .buf, .mac, .ecc, .lfr, .act, .keys] s
      (execRuleClear m k s) := goes_whenOn <| goes_next <| ruleCmd_moves.within rfl

/-! ### Moves of the core of the line -/

theorem setLfr_moves {s : State} {f : AB} {x : LfrSt} : moves [.lfr] s (s.setLfr f x) := with_lfr_moves.within rfl

theorem setActSt_moves {s : State} {f : AB} {x : ActSt} : moves [.act] s (s.setActSt f x) := with_act_moves.within rfl

theorem setBtx_moves {s : State} {f : AB} {x : BtxSt} : moves [.btx] s (s.setBtx f x) := with_btx_moves.within rfl

theorem setOpt_moves {s : State} {c : AB} {x : OptSt} : moves [.opt] s (s.setOpt c x) := with_opt_moves.within rfl

theorem setPswActive_moves {f : AB} {s : State} : moves [.regs] s (setPswActive f s) := setFlag_moves.within rfl

theorem syncAttach_moves {s : State} : moves [.power] s (syncAttach s) := by
  unfold syncAttach
  split
  · exact with_power_moves.within rfl
  · exact moves_rfl

theorem dropKeys_moves {f : AB} {s : State} : moves [.regs, .keys] s (dropKeys f s) :=
  with_keys_moves.after rfl <| setFld_moves.within rfl

/-! ### Moves of bursts -/

theorem btxCount_moves {f : AB} {i k : Nat} {s : State} : moves [.regs, .ctrs, .hdrs, .links] s (btxCount f i k s) :=
  countAt_moves.within rfl

theorem actCount_moves {f : AB} {i : Nat} {s : State} : moves [.regs, .ctrs, .hdrs, .links] s (actCount f i s) := countAt_moves.within rfl

theorem logPloam_moves {f : AB} {up : Bool} {ty : Nat} {bytes : List Byte} {s : State} :
    moves [.regs, .hdrs, .links, .act] s (logPloam f up ty bytes s) :=
  raise_moves.after rfl <| setActSt_moves.after rfl <| wp_moves.after rfl <| wp_moves.after rfl <|
    moves_foldl (fun _ _ => wp_moves.within rfl) <| moves_rfl

theorem sentPloamu_moves {f : AB} {p : Ploamu} {s : State} : moves [.regs, .ctrs, .hdrs, .links, .act] s (sentPloamu f p s) :=
  moves_trans (logPloam_moves.after rfl <| actCount_moves.within rfl) <| moves_ite (setActSt_moves.within rfl) moves_rfl

theorem holdLine_moves {p : Pkt} {s : State} : moves [.buf] s (holdLine p s) := with_buf_moves.within rfl

theorem freeLine_moves {p : Pkt} {s : State} : moves [.regs, .ctrs, .hdrs, .out, .links, .buf, .mac] s (freeLine p s) :=
  freed_moves.after rfl <| with_buf_moves.within rfl

theorem requeue_moves {p : Pkt} {a q : Nat} {s : State} : moves [.buf] s (requeue p a q s) :=
  setQueue_moves.after rfl <| with_buf_moves.within rfl

theorem setRemain_moves {f : AB} {n : Nat} {r : Option Remain} {s : State} : moves [.btx] s (setRemain f n r s) := setBtx_moves.within rfl

theorem dropRemains_moves {f : AB} {s : State} : moves [.regs, .ctrs, .hdrs, .out, .links, .buf, .mac, .btx] s (dropRemains f s) :=
  moves_foldl (fun _ _ => freeLine_moves.after rfl <| dropAt_moves.within rfl) <| setBtx_moves.within rfl

theorem fillSdus_moves {f : AB} {n fuel space : Nat} {s : State} : moves [.regs, .ctrs, .hdrs, .out, .free, .nvs, .links, .log, .buf,
    .mac, .ecc, .act, .btx, .keys] s (fillSdus f n fuel space s).2 := by
  induction fuel generalizing space s with
  | zero => exact moves_rfl
  | succ fuel ih =>
    unfold fillSdus
    split
    · exact moves_rfl
    rename_i t s2 h
    have taken : moves [.regs, .ctrs, .hdrs, .out, .free, .nvs, .links, .log, .buf, .mac, .ecc, .act, .btx, .keys] s s2 :=
      (takeFrame_moves h).within rfl
    have dropped : moves [.regs, .ctrs, .hdrs, .out, .free, .nvs, .links, .log, .buf, .mac, .ecc, .act, .btx, .keys] s
      (freed [t.pkt] (dropPoison (pBtx f) 8 t.pkt s2)) := freed_moves.after rfl <| dropPoison_moves.after rfl taken
    have held : moves [.regs, .ctrs, .hdrs, .out, .free, .nvs, .links, .log, .buf, .mac, .ecc, .act, .btx, .keys] s (holdLine t.pkt s2) :=
      holdLine_moves.after rfl taken
    split
    · dsimp only
      split
      · exact moves_trans dropped ih
      · exact moves_trans dropped ih
    split
    · exact moves_trans held ih
    split
    · exact setRemain_moves.after rfl held
    · exact moves_rfl

theorem fillFresh_moves {f : AB} {n space : Nat} {s : State} : moves [.regs, .ctrs, .hdrs, .out, .free, .nvs, .links, .log, .buf, .mac,
    .ecc, .act, .btx, .keys, .omciUpQ] s (fillFresh f n space s).2 :=
  fillSdus_moves.after rfl <| with_omciUpQ_moves.within rfl

theorem fillPort_moves {f : AB} {n space : Nat} {s : State} :
    moves [.regs, .ctrs, .hdrs, .out, .free, .nvs, .links, .log, .buf, .mac, .ecc, .act, .btx, .keys, .omciUpQ] s
      (fillPort f n space s).2 := by
  unfold fillPort
  split
  · exact fillFresh_moves.within rfl
  · dsimp only
    split
    · exact fillFresh_moves.after rfl <| setRemain_moves.within rfl
    · split
      · exact setRemain_moves.within rfl
      · exact moves_rfl

theorem fillBurst_moves {f : AB} {b : Burst} {s : State} : moves [.regs, .ctrs, .hdrs, .out, .free, .nvs, .links, .log, .buf, .mac, .ecc,
    .act, .btx, .keys, .omciUpQ] s (fillBurst f b s).2 := by
  unfold fillBurst
  extract_lets s1 b1 act hasDbru space a pl s2 space2 body s3 left units s4 items
  have unmapped : moves [.regs, .ctrs, .hdrs, .out, .free, .nvs, .links, .log, .buf, .mac, .ecc, .act, .btx, .keys, .omciUpQ] s s1 :=
    moves_ite (btxCount_moves.within rfl) moves_rfl
  have ploam : moves [.regs, .ctrs, .hdrs, .out, .free, .nvs, .links, .log, .buf, .mac, .ecc, .act, .btx, .keys, .omciUpQ] s s2 := by
    refine moves_trans unmapped ?_
    unfold s2 pl
    split
    · exact moves_rfl
    · split
      · exact setActSt_moves.within rfl
      · exact moves_rfl
  have filled : moves [.regs, .ctrs, .hdrs, .out, .free, .nvs, .links, .log, .buf, .mac, .ecc, .act, .btx, .keys, .omciUpQ] s s3 := by
    refine moves_trans ploam ?_
    unfold s3 body
    split
    · exact moves_rfl
    · split
      · exact fillPort_moves.within rfl
      · exact moves_rfl
  refine moves_trans filled ?_
  dsimp only
  unfold s4
  split
  · exact moves_ite (wp_moves.within rfl) moves_rfl
  · exact moves_rfl

theorem accountItem_moves {f : AB} {s : State} {i : UpItem} :
    moves [.regs, .ctrs, .hdrs, .out, .links, .buf, .mac, .act] s (accountItem f s i) := by
  unfold accountItem
  split
  · exact btxCount_moves.within rfl
  · exact sentPloamu_moves.after rfl <| btxCount_moves.within rfl
  · exact btxCount_moves.within rfl
  · exact btxCount_moves.after rfl <| btxCount_moves.within rfl
  · exact btxCount_moves.after rfl <| btxCount_moves.within rfl
  · exact moves_trans (btxCount_moves.after rfl <| btxCount_moves.within rfl) <|
      moves_trans (moves_ite moves_rfl (btxCount_moves.within rfl)) <| moves_ite (freeLine_moves.within rfl) moves_rfl

theorem recallItem_moves {f : AB} {node : Option Nat} {i : UpItem} {s : State} :
    moves [.buf, .act, .btx, .omciUpQ] s (recallItem f node i s) := by
  unfold recallItem
  split
  · exact setActSt_moves.within rfl
  · exact with_omciUpQ_moves.within rfl
  · split
    · exact moves_rfl
    · exact moves_ite (requeue_moves.after rfl <| setRemain_moves.within rfl) (setRemain_moves.within rfl)
  · exact moves_rfl

theorem recallItems_moves {f : AB} {node : Option Nat} {l : List UpItem} {s : State} : moves [.buf, .act, .btx, .omciUpQ] s
    (recallItems f node l s) :=
  moves_foldr (fun _ _ => recallItem_moves.within rfl) moves_rfl

theorem recallBursts_moves {f : AB} {s : State} : moves [.buf, .act, .btx, .omciUpQ] s (recallBursts f s) :=
  moves_foldr (fun _ _ => recallItems_moves.within rfl) <| setBtx_moves.within rfl

theorem useProfile_moves {f : AB} {i : Nat} {p : Profile} {s : State} : moves [.regs] s (useProfile f i p s) :=
  setFld_moves.after rfl <| wp_moves.after rfl <| wp_moves.within rfl

theorem benCount_moves {f : AB} {s : State} : moves [.opt] s (benCount f s) := by
  unfold benCount
  split
  · exact setOpt_moves.within rfl
  · exact moves_rfl

theorem benLow_moves {f : AB} {s : State} : moves [.regs] s (benLow f s) := setFlag_moves.within rfl

theorem abortBurst_moves {f : AB} {s : State} : moves [.regs, .ctrs, .hdrs, .out, .free, .links, .buf, .mac, .act, .btx, .omciUpQ] s
    (abortBurst f s) := by
  unfold abortBurst
  split
  · exact moves_rfl
  extract_lets v n _ s1 s2 s3 s4 s5
  have accounted : moves [.regs, .ctrs, .hdrs, .out, .free, .links, .buf, .mac, .act, .btx, .omciUpQ] s s3 :=
    moves_foldl (fun _ _ => accountItem_moves.within rfl) <| recallItems_moves.after rfl <| setBtx_moves.after rfl <|
      takeFree_moves.within rfl
  have dropped : moves [.regs, .ctrs, .hdrs, .out, .free, .links, .buf, .mac, .act, .btx, .omciUpQ] s3 s4 := by
    unfold s4
    split
    · refine freeLine_moves.after rfl <| dropAt_moves.after rfl ?_
      split
      · exact moves_ite (setRemain_moves.within rfl) moves_rfl
      · exact moves_rfl
    · exact dropAt_moves.within rfl
    · exact moves_rfl
  exact benLow_moves.after rfl <| emit_moves.after rfl <| raise_moves.after rfl <| btxCount_moves.after rfl <| btxCount_moves.after rfl <|
    moves_trans accounted dropped

theorem abortAll_moves {f : AB} {s : State} :
    moves [.regs, .ctrs, .hdrs, .out, .free, .links, .buf, .mac, .act, .btx, .omciUpQ] s (abortAll f s) :=
  abortBurst_moves.after rfl <| recallBursts_moves.within rfl

theorem btxFlush_moves {f : AB} {s : State} :
    moves [.regs, .ctrs, .hdrs, .out, .links, .buf, .mac, .act, .btx, .omciUpQ] s (btxFlush f s) :=
  benLow_moves.after rfl <| moves_foldl (fun _ _ => dropAt_moves.within rfl) <|
    moves_foldl (fun _ _ => moves_ite (freeLine_moves.after rfl <| dropAt_moves.within rfl) moves_rfl) <| setBtx_moves.after rfl <|
    recallBursts_moves.within rfl

theorem acceptAlloc_moves {f : AB} {g : Grant} {id : Nat} {w : MapWalk} {s : State} :
    moves [.regs, .ctrs, .hdrs, .out, .free, .nvs, .links, .log, .cls, .buf, .mac, .ecc, .lfr, .act, .btx, .keys] s
      (acceptAlloc f g id w s).2 := by
  have refused : ∀ i, moves [.regs, .ctrs, .hdrs, .out, .free, .nvs, .links, .log, .cls, .buf, .mac, .ecc, .lfr, .act, .btx, .keys] s
    (raise (pBtx f) 1 (btxCount f i 1 s)) := fun _ =>
    raise_moves.after rfl <| btxCount_moves.within rfl
  unfold acceptAlloc
  extract_lets dflt s1 node s2 s3
  have read : moves [.regs, .ctrs, .hdrs, .out, .free, .nvs, .links, .log, .cls, .buf, .mac, .ecc, .lfr, .act, .btx, .keys] s s1 := by
    unfold s1
    split
    · exact moves_ite moves_rfl (readRow_moves.within rfl)
    · exact moves_rfl
  have counted : moves [.regs, .ctrs, .hdrs, .out, .free, .nvs, .links, .log, .cls, .buf, .mac, .ecc, .lfr, .act, .btx, .keys] s s3 :=
    moves_trans (btxCount_moves.after rfl read) <| moves_ite (btxCount_moves.within rfl) moves_rfl
  split
  · exact moves_rfl
  split
  · exact moves_rfl
  split
  · exact refused _
  split
  · exact refused _
  split
  · exact moves_rfl
  · exact setBtx_moves.after rfl counted

theorem answerGrant_moves {f : AB} {o : Output} {s : State} :
    moves [.regs, .ctrs, .hdrs, .out, .links, .opt] s (answerGrant f o s) :=
  emit_moves.after rfl <| btxCount_moves.after rfl <| benCount_moves.within rfl

theorem acceptGrant_moves {f : AB} {x : MapWalk × State} {g : Grant} : moves [.regs, .ctrs, .hdrs, .out, .free, .nvs, .links, .log, .cls,
    .buf, .mac, .ecc, .lfr, .act, .btx, .opt, .keys] x.2 (acceptGrant f x g).2 := by
  unfold acceptGrant
  dsimp only
  split
  · exact acceptAlloc_moves.within rfl
  · split
    · exact answerGrant_moves.after rfl <| sentPloamu_moves.after rfl <| actCount_moves.after rfl <| takeFree_moves.within rfl
    · exact moves_rfl
  · split
    · exact answerGrant_moves.after rfl <| setActSt_moves.after rfl <| actCount_moves.within rfl
    · exact moves_rfl

theorem acceptGrants_moves {f : AB} {l : List Grant} {s : State} : moves [.regs, .ctrs, .hdrs, .out, .free, .nvs, .links, .log, .cls,
    .buf, .mac, .ecc, .lfr, .act, .btx, .opt, .keys] s (acceptGrants f l s) :=
  moves_foldl_snd (x := (_, s)) (fun _ _ => acceptGrant_moves.within rfl) moves_rfl

theorem spoil_moves {f : AB} {b : Burst} {s : State} : moves [.buf, .btx] s (spoil f b s).2 := by
  unfold spoil
  split
  · exact moves_rfl
  · exact setBtx_moves.after rfl <| with_buf_moves.within rfl

theorem execAllocPrefetch_moves {f : AB} {s : State} :
    goes [.regs, .ctrs, .hdrs, .out, .free, .nvs, .links, .log, .buf, .mac, .ecc, .act, .btx, .keys, .omciUpQ] s
      (execAllocPrefetch f s) := by
  refine goes_whenOn <| ?_
  split
  · exact goes_next moves_rfl
  · refine goes_ite (goes_next <| recallBursts_moves.within rfl) <| goes_next <| setBtx_moves.after rfl <| ?_
    split
    · exact spoil_moves.after rfl <| transit_moves.after rfl <| fillBurst_moves.within rfl
    · exact transit_moves.after rfl <| fillBurst_moves.within rfl

theorem execBenAssert_moves {f : AB} {late : Option Nat} {s : State} :
    goes [.regs, .hdrs, .links, .buf, .act, .btx, .opt, .omciUpQ] s (execBenAssert f late s) := by
  refine goes_whenOn <| goes_ite (goes_next moves_rfl) ?_
  split
  · exact goes_next moves_rfl
  · refine goes_ite (goes_next moves_rfl) <| goes_ite (goes_next <| recallItems_moves.after rfl <| setBtx_moves.within rfl) <|
      goes_next <| setFlag_moves.after rfl <| benCount_moves.after rfl <| ?_
    split
    · exact useProfile_moves.after rfl <| moves_ite (setBtx_moves.within rfl) <| recallItems_moves.after rfl <|
        raise_moves.after rfl <| bump_moves.after rfl <| setBtx_moves.within rfl
    · exact moves_ite (setBtx_moves.within rfl) <| recallItems_moves.after rfl <| raise_moves.after rfl <| bump_moves.after rfl <|
        setBtx_moves.within rfl

theorem execBurstEnd_moves {f : AB} {s : State} :
    goes [.regs, .ctrs, .hdrs, .out, .links, .buf, .mac, .act, .btx] s (execBurstEnd f s) := by
  refine goes_whenOn <| ?_
  split
  · exact goes_next moves_rfl
  · exact goes_next <| benLow_moves.after rfl <| emit_moves.after rfl <| btxCount_moves.after rfl <|
      moves_foldl (fun _ _ => accountItem_moves.within rfl) <| setBtx_moves.within rfl

theorem mapCheck_moves {f : AB} {old s : State} : moves [.hdrs, .links] s (mapCheck f old s) :=
  moves_ite (raise_moves.within rfl) moves_rfl

/-! ### Moves of time -/

theorem tsuCount_moves {i : Nat} {s : State} : moves [.regs, .ctrs, .hdrs, .links] s (tsuCount i s) := countAt_moves.within rfl

theorem setTsu_moves {s : State} {t : TsuSt} : moves [.tsu] s (s.setTsu t) := with_tsu_moves.within rfl

theorem stepTime_moves {d : Int} {s : State} : moves [.regs, .ctrs, .hdrs, .links, .tsu] s (stepTime d s) :=
  raise_moves.after rfl <| tsuCount_moves.after rfl <| wp_moves.after rfl <| setTsu_moves.within rfl

theorem adjustTime_moves {first : Bool} {d : Int} {s : State} : moves [.regs, .ctrs, .hdrs, .links, .tsu] s (adjustTime first d s) :=
  moves_ite (stepTime_moves.after rfl <| setTsu_moves.within rfl) (setTsu_moves.within rfl)

theorem shiftTime_moves {d : Int} {s : State} : moves [.regs, .ctrs, .hdrs, .links, .tsu] s (shiftTime d s) :=
  moves_ite (stepTime_moves.within rfl) (setTsu_moves.within rfl)

theorem rtcFromTsu_moves {s : State} : moves [.regs, .backup] s (rtcFromTsu s) := setFlag_moves.after rfl <| with_backup_moves.within rfl

theorem calAbort_moves {s : State} : moves [.regs, .hdrs, .links, .tsu] s (calAbort s) := by
  unfold calAbort
  split
  · exact moves_rfl
  · exact raise_moves.after rfl <| setTsu_moves.after rfl <| wp_moves.within rfl

theorem synceUpdate_moves {s : State} : moves [.regs, .ctrs, .hdrs, .links] s (synceUpdate s) :=
  moves_trans (setFlag_moves.within rfl) <| moves_ite (raise_moves.after rfl <| tsuCount_moves.within rfl) moves_rfl

theorem setTsuState_moves {st : TsuState} {s : State} : moves [.regs, .hdrs, .links, .tsu] s (setTsuState st s) :=
  moves_ite moves_rfl <| moves_trans (raise_moves.after rfl <| setTsu_moves.within rfl) <| moves_ite moves_rfl (calAbort_moves.within rfl)

theorem tsuUpdate_moves {s : State} : moves [.regs, .ctrs, .hdrs, .links, .tsu] s (tsuUpdate s) := by
  unfold tsuUpdate
  extract_lets _ s1 s2 _ s3
  have chosen : moves [.regs, .ctrs, .hdrs, .links, .tsu] s s1 := by
    unfold s1
    split
    · exact moves_ite moves_rfl (setTsu_moves.within rfl)
    · exact moves_rfl
  have valid : moves [.regs, .ctrs, .hdrs, .links, .tsu] s2 s3 := by
    unfold s3
    split
    · exact setTsu_moves.within rfl
    · exact moves_ite moves_rfl (setTsu_moves.within rfl)
    · exact moves_rfl
  exact synceUpdate_moves.after rfl <| moves_trans (setTsuState_moves.after rfl chosen) valid

theorem tsuStart_moves {s : State} : moves [.tsu] s (tsuStart s) := setTsu_moves.within rfl

theorem applyLoad_moves {err : Int} {s : State} : moves [.regs, .ctrs, .hdrs, .backup, .links, .tsu] s (applyLoad err s) :=
  moves_trans (tsuUpdate_moves.after rfl <| setTsu_moves.after rfl <| adjustTime_moves.within rfl) <|
    moves_ite (rtcFromTsu_moves.within rfl) moves_rfl

theorem lineLoad_moves {f : AB} {sfc arrival : Nat} {s : State} :
    moves [.regs, .ctrs, .hdrs, .backup, .links, .tsu] s (lineLoad f sfc arrival s) :=
  moves_ite moves_rfl <| moves_ite (moves_trans (raise_moves.after rfl <| tsuCount_moves.after rfl <| setFlag_moves.after rfl <|
    wp_moves.within rfl) <| moves_ite (applyLoad_moves.within rfl) moves_rfl) <| moves_ite (raise_moves.after rfl <|
    tsuCount_moves.after rfl <| setFlag_moves.after rfl <| setFlag_moves.within rfl) moves_rfl

theorem eqdShift_moves {f : AB} {d : Int} {s : State} : moves [.regs, .ctrs, .hdrs, .links, .tsu] s (eqdShift f d s) :=
  moves_ite (shiftTime_moves.within rfl) moves_rfl

theorem driftShift_moves {d : Int} {s : State} : moves [.tsu] s (driftShift d s) := moves_ite (setTsu_moves.within rfl) moves_rfl

theorem armHandler_moves {f : AB} : Handler.moves [.regs] (armHandler f) :=
  ⟨fun _ _ _ => moves_trans (setFlag_moves.within rfl) <| moves_ite (setFlag_moves.within rfl) moves_rfl, fun _ => moves_rfl⟩

theorem execArmLoad_moves {m f : AB} {s : State} :
    goes [.regs, .hdrs, .last, .nvs, .links, .masters, .fw, .log] s (execArmLoad m f s) :=
  goes_whenOn <| goes_next <| writeReg_moves armHandler_moves rfl rfl

theorem execSlewDone_moves {s : State} : goes [.tsu] s (execSlewDone s) := goes_whenOn <| goes_next <| setTsu_moves.within rfl

theorem execHoldoverLimit_moves {s : State} : goes [.hdrs, .links, .tsu] s (execHoldoverLimit s) :=
  goes_whenOn <| goes_ite (goes_next <| raise_moves.after rfl <| setTsu_moves.within rfl) <| goes_next moves_rfl

theorem tsuCfgHandler_moves {off : Nat} : Handler.moves [.regs, .ctrs, .hdrs, .nvs, .links, .tsu] (tsuCfgHandler off) :=
  ⟨fun _ _ _ => tsuUpdate_moves.after rfl <| storeReg_moves.within rfl, fun _ => moves_rfl⟩

theorem hostAdjHandler_moves : Handler.moves [.regs, .ctrs, .hdrs, .links, .tsu] hostAdjHandler :=
  ⟨fun _ _ _ => adjustTime_moves.within rfl, fun _ => moves_rfl⟩

theorem execHostAdjust_moves {m : AB} {v : Word} {s : State} :
    goes [.regs, .ctrs, .hdrs, .last, .nvs, .links, .masters, .fw, .log, .tsu] s (execHostAdjust m v s) :=
  goes_whenOn <| goes_next <| writeReg_moves hostAdjHandler_moves rfl rfl

theorem setSecHandler_moves {hi : Bool} : Handler.moves [.tsu] (setSecHandler hi) :=
  ⟨fun _ _ _ => setTsu_moves.within rfl, fun _ => moves_rfl⟩

theorem setNsHandler_moves : Handler.moves [.regs, .ctrs, .hdrs, .links, .tsu] setNsHandler :=
  ⟨fun _ _ _ => stepTime_moves.after rfl <| setTsu_moves.within rfl, fun _ => moves_rfl⟩

theorem execTimeSet_moves {m : AB} {v : Word} {s : State} :
    goes [.regs, .ctrs, .hdrs, .last, .nvs, .links, .masters, .fw, .log, .tsu] s (execTimeSet m v s) :=
  goes_whenOn <| goes_next <| writeReg_moves setNsHandler_moves rfl rfl

theorem calHandler_moves : Handler.moves [.regs, .nvs, .tsu] calHandler :=
  ⟨fun _ _ _ => moves_trans (storeReg_moves.within rfl) <| moves_ite (setTsu_moves.after rfl <|
    wp_moves.within rfl) moves_rfl, fun _ => moves_rfl⟩

theorem execCalStart_moves {m : AB} {seconds : Nat} {s : State} :
    goes [.regs, .hdrs, .last, .nvs, .links, .masters, .fw, .log, .tsu] s (execCalStart m seconds s) :=
  goes_whenOn <| goes_next <| writeReg_moves calHandler_moves rfl rfl

theorem execCalDone_moves {s : State} : goes [.regs, .hdrs, .links, .tsu] s (execCalDone s) := by
  refine goes_whenOn <| ?_
  split
  · exact goes_next <| raise_moves.after rfl <| setTsu_moves.after rfl <| wp_moves.after rfl <| wp_moves.within rfl
  · exact goes_next moves_rfl

theorem execPpsOutEdge_moves {s : State} : goes [.out, .tsu] s (execPpsOutEdge s) :=
  goes_whenOn <| goes_ite (goes_next moves_rfl) <| goes_next <| emit_moves.after rfl <| setTsu_moves.within rfl

theorem execPpsOutFall_moves {s : State} : goes [.out, .tsu] s (execPpsOutFall s) :=
  goes_whenOn <| goes_ite (goes_next <| emit_moves.after rfl <| setTsu_moves.within rfl) <| goes_next moves_rfl

theorem execTodOutSend_moves {s : State} : goes [.out, .tsu] s (execTodOutSend s) := by
  refine goes_whenOn <| ?_
  split
  · exact goes_next moves_rfl
  · exact goes_ite (goes_next <| emit_moves.after rfl <| setTsu_moves.within rfl) <| goes_next <| setTsu_moves.within rfl

theorem ppsOutHandler_moves : Handler.moves [.regs, .out, .nvs, .tsu] ppsOutHandler :=
  ⟨fun _ _ _ => moves_trans (storeReg_moves.within rfl) <| moves_ite (emit_moves.after rfl <|
    setTsu_moves.within rfl) moves_rfl, fun _ => moves_rfl⟩

theorem extLost_moves {s : State} : moves [.regs, .ctrs, .hdrs, .links, .tsu] s (extLost s) :=
  tsuUpdate_moves.after rfl <| setTsu_moves.within rfl

theorem execPpsInEdge_moves {frac : Nat} {s : State} : goes [.regs, .ctrs, .hdrs, .links, .tsu] s (execPpsInEdge frac s) :=
  goes_whenOn <| goes_ite (goes_next moves_rfl) <| goes_next <| tsuCount_moves.after rfl <| wp_moves.after rfl <| wp_moves.after rfl <|
    wp_moves.after rfl <| setTsu_moves.within rfl

theorem execTodInMessage_moves {msg : List Byte} {s : State} : goes [.regs, .ctrs, .hdrs, .links, .tsu] s (execTodInMessage msg s) := by
  refine goes_whenOn <| goes_ite (goes_next moves_rfl) ?_
  split
  · exact goes_next moves_rfl
  · refine goes_ite (goes_next moves_rfl) ?_
    split
    · exact goes_next <| extLost_moves.after rfl <| raise_moves.after rfl <| tsuCount_moves.within rfl
    · exact goes_ite (goes_next <| extLost_moves.after rfl <| raise_moves.after rfl <| tsuCount_moves.within rfl) <|
        goes_ite (goes_next <| adjustTime_moves.after rfl <| tsuUpdate_moves.after rfl <| setTsu_moves.within rfl) <| goes_next <|
        tsuUpdate_moves.after rfl <| setTsu_moves.within rfl

theorem execPpsInLoss_moves {s : State} : goes [.regs, .ctrs, .hdrs, .links, .tsu] s (execPpsInLoss s) :=
  goes_whenOn <| goes_ite (goes_next <| raise_moves.after rfl <| extLost_moves.after rfl <| setTsu_moves.after rfl <|
    calAbort_moves.within rfl) <| goes_next <| setTsu_moves.after rfl <| calAbort_moves.within rfl

theorem execSynceSquelchEnd_moves {s : State} : goes [.regs, .ctrs, .hdrs, .links, .tsu] s (execSynceSquelchEnd s) :=
  goes_whenOn <| goes_next <| synceUpdate_moves.after rfl <| setTsu_moves.within rfl

theorem tsuTick_moves {s : State} : moves [.tsu] s (tsuTick s) := setTsu_moves.within rfl

/-! ### Moves of the feeders -/

theorem wakeRx_moves {f : AB} {s : State} : moves [.regs, .act] s (wakeRx f s) := setActSt_moves.after rfl <| setFlag_moves.within rfl

/-- What follows a transition: bursts of a service that ends, the receiver after DOZE, regain, sequencers and the time unit. -/
theorem modeTo_settles {dst : Mode} {cause : Nat} {s : State} :
    moves [.regs, .ctrs, .hdrs, .links, .buf, .tsu, .seqs, .act, .btx, .psw, .omciUpQ] (transition dst cause s) (modeTo dst cause s) := by
  unfold modeTo
  extract_lets _ s1 _ _ _ _ _ s2 s3 _ s4
  have recalled : moves [.buf, .act, .btx, .psw, .omciUpQ] s1 s2 := by
    unfold s2
    split
    · exact moves_rfl
    · exact setBtx_moves.after rfl <| setBtx_moves.after rfl <| with_psw_moves.after rfl <| recallBursts_moves.after rfl <|
        recallBursts_moves.within rfl
    · exact moves_rfl
  have awake : moves [.regs, .act] s2 s3 := by
    unfold s3
    split
    · exact moves_ite moves_rfl (wakeRx_moves.within rfl)
    · exact moves_rfl
  have regained : moves [.psw] s3 s4 := by
    unfold s4
    split
    · exact moves_rfl
    · exact with_psw_moves.within rfl
  exact tsuUpdate_moves.after rfl <| seqSync_moves.after rfl <| regained.after rfl <| awake.after rfl <| recalled.within rfl

theorem modeTo_moves {dst : Mode} {cause : Nat} {s : State} : moves [.regs, .ctrs, .hdrs, .out, .power, .nvs, .links, .buf, .tsu, .seqs,
    .act, .btx, .psw, .omciUpQ] s (modeTo dst cause s) :=
  modeTo_settles.after rfl <| transition_moves.within rfl

theorem setActive_moves {f : AB} {s : State} : moves [.regs, .ctrs, .hdrs, .out, .links, .buf, .mac, .btx, .psw] s (setActive f s) :=
  moves_ite moves_rfl <| with_psw_moves.after rfl <| setPswActive_moves.after rfl <| dropRemains_moves.within rfl

theorem lineReturn_moves {f : AB} {s : State} :
    moves [.regs, .ctrs, .hdrs, .out, .power, .nvs, .links, .buf, .mac, .tsu, .seqs, .act, .btx, .psw, .omciUpQ] s (lineReturn f s) :=
  modeTo_moves.after rfl <| setActive_moves.within rfl

theorem regainCheck_moves {s : State} :
    moves [.regs, .ctrs, .hdrs, .out, .power, .nvs, .links, .buf, .mac, .tsu, .seqs, .act, .btx, .psw, .omciUpQ] s (regainCheck s) := by
  refine moves_ite moves_rfl ?_
  dsimp only
  split
  · exact moves_rfl
  · exact moves_trans (with_psw_moves.after rfl <| modeTo_moves.within rfl) <| moves_ite (lineReturn_moves.within rfl) moves_rfl

theorem lineLost_moves {s : State} :
    moves [.regs, .ctrs, .hdrs, .out, .power, .nvs, .links, .buf, .mac, .tsu, .seqs, .act, .btx, .psw, .omciUpQ] s (lineLost s) :=
  regainCheck_moves.after rfl <| modeTo_moves.within rfl

theorem startSwitch_moves {dst : AB} {cause : Nat} {s : State} : moves [.regs, .ctrs, .hdrs, .out, .free, .power, .nvs, .links, .buf,
    .mac, .tsu, .seqs, .act, .btx, .psw, .omciUpQ] s (startSwitch dst cause s) := by
  unfold startSwitch
  refine modeTo_moves.after rfl <| with_psw_moves.after rfl ?_
  exact moves_trans (setBtx_moves.within rfl) (moves_ite (abortAll_moves.within rfl) (recallBursts_moves.within rfl))

theorem reportLoss_moves {f : AB} {cause : Nat} {s : State} :
    moves [.regs, .ctrs, .hdrs, .out, .free, .power, .nvs, .links, .buf, .mac, .tsu, .seqs, .act, .btx, .psw, .omciUpQ] s
      (reportLoss f cause s) := by
  unfold reportLoss
  split
  · split
    · exact moves_ite (lineLost_moves.within rfl) (abortAll_moves.within rfl)
    · exact moves_ite moves_rfl <| moves_ite (startSwitch_moves.within rfl) <| moves_trans (lineLost_moves.after rfl <|
        abortAll_moves.within rfl) <| moves_ite (raise_moves.within rfl) moves_rfl
  · exact moves_rfl

theorem switchComplete_moves {s : State} :
    moves [.regs, .ctrs, .hdrs, .out, .power, .nvs, .links, .buf, .mac, .tsu, .seqs, .act, .btx, .psw, .omciUpQ] s (switchComplete s) :=
      by
  unfold switchComplete
  split
  · exact raise_moves.after rfl <| modeTo_moves.after rfl <| setFld_moves.after rfl <| wp_moves.after rfl <| bump_moves.after rfl <|
      setActive_moves.after rfl <| with_psw_moves.after rfl <| setBtx_moves.within rfl
  · exact moves_rfl

theorem standing_moves {s : State} :
    moves [.regs, .ctrs, .hdrs, .out, .free, .power, .nvs, .links, .buf, .mac, .tsu, .seqs, .act, .btx, .psw, .omciUpQ] s (standing s) :=
      by
  unfold standing
  split
  · exact moves_rfl
  · exact moves_ite moves_rfl <| moves_ite (startSwitch_moves.within rfl) <| moves_ite (startSwitch_moves.within rfl) moves_rfl

theorem lineSettle_moves {old s : State} :
    moves [.regs, .ctrs, .hdrs, .out, .free, .power, .nvs, .links, .buf, .mac, .tsu, .seqs, .act, .btx, .psw, .omciUpQ] s
      (lineSettle old s) :=
  moves_trans (tsuUpdate_moves.after rfl <| syncAttach_moves.after rfl <| standing_moves.within rfl) <|
    moves_trans (moves_ite (moves_ite moves_rfl <| raise_moves.after rfl <| with_psw_moves.within rfl) (with_psw_moves.within rfl)) <|
    moves_trans (moves_ite (abortAll_moves.after rfl <| moves_ite (abortAll_moves.within rfl) moves_rfl) <|
    moves_ite (abortAll_moves.within rfl) moves_rfl) <| moves_ite (raise_moves.within rfl) moves_rfl

theorem setOmciPort_moves {f : AB} {port : Nat} {valid : Bool} {s : State} :
    moves [.regs, .ctrs, .hdrs, .links, .buf, .lfr] s (setOmciPort f port valid s) :=
  moves_ite moves_rfl <| wp_moves.after rfl <| cutChain_moves.within rfl

theorem clearAllocs_moves {f : AB} {s : State} : moves [.regs, .hdrs, .links] s (clearAllocs f s) :=
  moves_ite moves_rfl <| mapCheck_moves.after rfl <| raise_moves.after rfl <| moves_foldl (fun _ _ => wp_moves.within rfl) <| moves_rfl

theorem clearRegistration_moves {f : AB} {s : State} :
    moves [.regs, .ctrs, .hdrs, .links, .buf, .lfr, .act, .btx, .keys, .omciUpQ] s (clearRegistration f s) :=
  setOmciPort_moves.after rfl <| clearAllocs_moves.after rfl <| dropKeys_moves.after rfl <| recallBursts_moves.after rfl <|
    setActSt_moves.after rfl <| setFlag_moves.after rfl <| wp_moves.after rfl <| setFlag_moves.after rfl <| setFld_moves.within rfl

theorem setActReg_moves {f : AB} {new cause : Nat} {s : State} :
    moves [.regs, .ctrs, .hdrs, .links, .buf, .lfr, .act, .btx, .psw, .keys, .omciUpQ] s (setActReg f new cause s) :=
  moves_trans (setFld_moves.after rfl <| setFld_moves.after rfl <| setFld_moves.within rfl) <|
    moves_trans (moves_ite (clearRegistration_moves.within rfl) moves_rfl) <|
    moves_trans (moves_ite (with_psw_moves.within rfl) moves_rfl) <| raise_moves.after rfl <| moves_ite (with_psw_moves.after rfl <|
    setOmciPort_moves.within rfl) <| moves_ite (setOmciPort_moves.within rfl) moves_rfl

theorem actMode_moves {f : AB} {old new cause : Nat} {s : State} :
    moves [.regs, .ctrs, .hdrs, .out, .power, .nvs, .links, .buf, .mac, .tsu, .seqs, .act, .btx, .psw, .omciUpQ] s
      (actMode f old new cause s) := by
  refine moves_ite ?_ <| moves_ite ?_ moves_rfl
  · split
    · exact modeTo_moves.after rfl <| setActive_moves.within rfl
    · exact moves_ite moves_rfl (lineReturn_moves.within rfl)
    · exact moves_rfl
  · split
    · exact moves_ite (modeTo_moves.within rfl) <| moves_ite (modeTo_moves.within rfl) <| moves_ite (modeTo_moves.within rfl) moves_rfl
    · exact moves_ite (modeTo_moves.within rfl) <| moves_ite (modeTo_moves.within rfl) <| moves_ite (modeTo_moves.within rfl) moves_rfl
    · exact moves_rfl

theorem setAct_moves {f : AB} {new cause : Nat} {s : State} :
    moves [.regs, .ctrs, .hdrs, .out, .power, .nvs, .links, .buf, .mac, .tsu, .seqs, .lfr, .act, .btx, .psw, .keys, .omciUpQ] s
      (setAct f new cause s) :=
  moves_trans (syncAttach_moves.after rfl <| actMode_moves.after rfl <| setActReg_moves.within rfl) <|
    moves_ite (syncAttach_moves.after rfl <| setActReg_moves.within rfl) moves_rfl

theorem leaveOff_moves {f : AB} {s : State} :
    moves [.regs, .ctrs, .hdrs, .out, .power, .nvs, .links, .buf, .mac, .tsu, .seqs, .lfr, .act, .btx, .psw, .keys, .omciUpQ] s
      (leaveOff f s) := moves_ite (setAct_moves.within rfl) moves_rfl

theorem reattach_moves {s : State} :
    moves [.regs, .ctrs, .hdrs, .out, .free, .power, .nvs, .links, .buf, .mac, .tsu, .seqs, .lfr, .act, .btx, .psw, .keys, .omciUpQ] s
      (reattach s) :=
  moves_ite moves_rfl <| moves_trans (modeTo_moves.within rfl) <| lineSettle_moves.after rfl <|
    moves_ite (moves_ite moves_rfl (setAct_moves.within rfl)) <| setAct_moves.after rfl <| moves_ite moves_rfl (setAct_moves.within rfl)

theorem breakAll_moves {f : AB} {s : State} : moves [.regs, .ctrs, .hdrs, .links, .buf, .lfr] s (breakAll f s) :=
  moves_foldl (fun _ _ => dropSdu_moves.within rfl) <| moves_rfl

theorem enterSync_moves {f : AB} {s : State} :
    moves [.regs, .ctrs, .hdrs, .out, .power, .nvs, .links, .buf, .mac, .tsu, .seqs, .lfr, .act, .btx, .psw, .keys, .omciUpQ] s
      (enterSync f s) :=
  moves_trans (regainCheck_moves.after rfl <| raise_moves.after rfl <| setLfr_moves.after rfl <| setFlag_moves.after rfl <|
    setFld_moves.within rfl) <| moves_ite moves_rfl <| moves_ite (setAct_moves.within rfl) <|
    moves_ite (setAct_moves.within rfl) moves_rfl

theorem loseChains_moves {f : AB} {s : State} : moves [.regs, .ctrs, .hdrs, .links, .buf, .lfr] s (loseChains f s) :=
  moves_ite (breakAll_moves.within rfl) (pushMark_moves.within rfl)

theorem toHunt_moves {f : AB} {s : State} : moves [.regs, .ctrs, .hdrs, .links, .buf, .lfr] s (toHunt f s) :=
  loseChains_moves.after rfl <| setLfr_moves.after rfl <| setFld_moves.after rfl <| setFld_moves.within rfl

theorem frameLost_moves {f : AB} {cause : Nat} {s : State} :
    moves [.regs, .ctrs, .hdrs, .out, .free, .power, .nvs, .links, .buf, .mac, .tsu, .seqs, .lfr, .act, .btx, .psw, .keys, .omciUpQ] s
      (frameLost f cause s) :=
  moves_trans (reportLoss_moves.after rfl <| moves_ite (setAct_moves.within rfl) <| moves_ite (setAct_moves.within rfl) moves_rfl) <|
    moves_ite (regainCheck_moves.after rfl <| modeTo_moves.within rfl) moves_rfl

theorem declareLof_moves {f : AB} {cause : Nat} {s : State} :
    moves [.regs, .ctrs, .hdrs, .out, .free, .power, .nvs, .links, .buf, .mac, .tsu, .seqs, .lfr, .act, .btx, .psw, .keys, .omciUpQ] s
      (declareLof f cause s) := frameLost_moves.after rfl <| raise_moves.after rfl <| countAt_moves.after rfl <| setFlag_moves.within rfl

/-! ### Moves of the line -/

theorem lfrCount_moves {f : AB} {i k : Nat} {s : State} : moves [.regs, .ctrs, .hdrs, .links] s (lfrCount f i k s) :=
  countAt_moves.within rfl

theorem cryCount_moves {i : Nat} {s : State} : moves [.regs, .ctrs, .hdrs, .links] s (cryCount i s) := countWide_moves.within rfl

theorem setRate_moves {f : AB} {r : Nat} {s : State} : moves [.regs, .hdrs, .links] s (setRate f r s) :=
  moves_ite moves_rfl <| moves_trans (setFld_moves.within rfl) <| raise_moves.after rfl <| moves_ite (setFld_moves.within rfl) moves_rfl

theorem startHunt_moves {f : AB} {s : State} : moves [.regs, .hdrs, .links] s (startHunt f s) :=
  moves_ite moves_rfl (setRate_moves.within rfl)

theorem execRateDwellExpiry_moves {f : AB} {s : State} : goes [.regs, .hdrs, .links, .lfr] s (execRateDwellExpiry f s) :=
  goes_whenOn <| goes_ite (goes_next moves_rfl) <| goes_next <| setRate_moves.after rfl <| setLfr_moves.within rfl

theorem rateHandler_moves {f : AB} : Handler.moves [.regs, .nvs] (rateHandler f) :=
  ⟨fun _ _ _ => storeReg_moves.within rfl, fun _ => moves_rfl⟩

theorem execRateModeWrite_moves {m f : AB} {v : Word} {s : State} :
    goes [.regs, .hdrs, .last, .nvs, .links, .masters, .fw, .log] s (execRateModeWrite m f v s) :=
  goes_whenOn <| goes_next <| writeReg_moves rateHandler_moves rfl rfl

theorem declareLos_moves {f : AB} {s : State} :
    moves [.regs, .ctrs, .hdrs, .out, .free, .power, .nvs, .links, .buf, .mac, .tsu, .seqs, .lfr, .act, .btx, .psw, .keys, .omciUpQ] s
      (declareLos f s) :=
  moves_ite moves_rfl <| moves_trans (toHunt_moves.after rfl <| raise_moves.after rfl <| lfrCount_moves.after rfl <|
    setFlag_moves.within rfl) <| moves_ite (frameLost_moves.within rfl) (declareLof_moves.within rfl)

theorem restartFramer_moves {f : AB} {s : State} :
    moves [.regs, .ctrs, .hdrs, .out, .free, .power, .nvs, .links, .buf, .mac, .tsu, .seqs, .lfr, .act, .btx, .psw, .keys, .omciUpQ] s
      (restartFramer f s) :=
  moves_trans (startHunt_moves.after rfl <| setLfr_moves.after rfl <| toHunt_moves.within rfl) <|
    moves_ite moves_rfl (declareLof_moves.within rfl)

theorem execLosDeclare_moves {f : AB} {by_ : LosBy} {s : State} :
    goes [.regs, .ctrs, .hdrs, .out, .free, .power, .nvs, .links, .buf, .mac, .tsu, .seqs, .lfr, .act, .btx, .psw, .keys, .omciUpQ] s
      (execLosDeclare f by_ s) :=
  goes_whenOn <| goes_ite (goes_next moves_rfl) <| goes_next <| lineSettle_moves.after rfl <| declareLos_moves.within rfl

theorem execLosClear_moves {f : AB} {s : State} :
    goes [.regs, .ctrs, .hdrs, .out, .free, .power, .nvs, .links, .buf, .mac, .tsu, .seqs, .act, .btx, .psw, .omciUpQ] s
      (execLosClear f s) :=
  goes_whenOn <| goes_next <| lineSettle_moves.after rfl <| setFlag_moves.within rfl

theorem execSdSecond_moves {f : AB} {s : State} : goes [.regs, .hdrs, .links, .lfr] s (execSdSecond f s) :=
  goes_whenOn <| goes_ite (goes_next <| moves_ite (setLfr_moves.after rfl <| wp_moves.within rfl) <| raise_moves.after rfl <|
    setFlag_moves.after rfl <| setLfr_moves.after rfl <| wp_moves.within rfl) <| goes_next <| moves_ite (setFlag_moves.after rfl <|
    setLfr_moves.after rfl <| wp_moves.within rfl) <| setLfr_moves.after rfl <| wp_moves.within rfl

theorem keyedFrame_moves {f : AB} {d : XDest} {mcast : Bool} {p : FsPay} {h : XHdr} {s : State} :
    moves [.regs, .ctrs, .hdrs, .out, .free, .nvs, .links, .log, .cls, .buf, .mac, .ecc, .lfr, .act, .keys] s
      (keyedFrame f d mcast p h s).2 := by
  unfold keyedFrame
  dsimp only
  split
  · exact readRow_moves.within rfl
  · exact moves_rfl

theorem takeHeader_moves {f : AB} {p : FsPay} {h : XHdr} {s : State} :
    moves [.regs, .ctrs, .hdrs, .out, .free, .nvs, .links, .log, .cls, .buf, .mac, .ecc, .lfr, .act, .keys] s (takeHeader f p h s) := by
  refine moves_ite (lfrCount_moves.after rfl <| lfrCount_moves.after rfl <| lfrCount_moves.within rfl) <|
    moves_ite (setLfr_moves.after rfl <| keyedFrame_moves.after rfl <| lfrCount_moves.after rfl <| lfrCount_moves.within rfl) ?_
  dsimp only
  split
  · refine setLfr_moves.after rfl <| keyedFrame_moves.after rfl <| ?_
    split
    · exact readRow_moves.after rfl <| lfrCount_moves.after rfl <| lfrCount_moves.within rfl
    · exact lfrCount_moves.after rfl <| lfrCount_moves.within rfl
  · refine lfrCount_moves.after rfl <| ?_
    split
    · exact readRow_moves.after rfl <| lfrCount_moves.after rfl <| lfrCount_moves.within rfl
    · exact lfrCount_moves.after rfl <| lfrCount_moves.within rfl

theorem takeFound_moves {f : AB} {s : State} {x : FsPay × Option XHdr} :
    moves [.regs, .ctrs, .hdrs, .out, .free, .nvs, .links, .log, .cls, .buf, .mac, .ecc, .lfr, .act, .keys] s (takeFound f s x) := by
  unfold takeFound
  split
  · exact takeHeader_moves.within rfl
  · exact pushMark_moves.within rfl

theorem takePayload_moves {f : AB} {p : Psbd} {at_ : Nat} {s : State} :
    moves [.regs, .ctrs, .hdrs, .out, .free, .nvs, .links, .log, .cls, .buf, .mac, .ecc, .lfr, .act, .keys] s (takePayload f p at_ s) :=
  moves_trans (setLfr_moves.after rfl <| setFld_moves.after rfl <| moves_foldl (fun _ _ => takeFound_moves.within rfl) <|
    lfrCount_moves.after rfl <| lfrCount_moves.after rfl <| lfrCount_moves.after rfl <| lfrCount_moves.within rfl) <|
    moves_ite (setFlag_moves.within rfl) <| moves_ite (raise_moves.after rfl <| lfrCount_moves.after rfl <|
    setFlag_moves.within rfl) moves_rfl

theorem deliverOmci_moves {f : AB} {l : List Byte} {s : State} :
    moves [.regs, .ctrs, .hdrs, .out, .free, .nvs, .links, .log, .cls, .buf, .mac, .ecc, .lfr, .act, .keys] s (deliverOmci f l s) :=
  moves_ite (raise_moves.after rfl <| cryCount_moves.after rfl <| dropAt_moves.after rfl <| readRow_moves.within rfl) <|
    moves_ite (dropAt_moves.after rfl <| readRow_moves.within rfl) <| queueOmci_moves.after rfl <| readRow_moves.within rfl

theorem deliverFrame_moves {f : AB} {k at_ : Nat} {bad : Bool} {l : List Byte} {s : State} :
    moves [.regs, .ctrs, .hdrs, .links, .cls, .buf] s (deliverFrame f k at_ bad l s) :=
  moves_ite (dropAt_moves.within rfl) <| moves_ite (dropAt_moves.within rfl) (ingress_moves.within rfl)

theorem gapAll_moves {f : AB} {s : State} : moves [.regs, .ctrs, .hdrs, .links, .buf, .lfr] s (gapAll f s) := by
  refine moves_foldl (fun _ _ => ?_) <| moves_rfl
  split
  · exact moves_ite moves_rfl <| deaden_moves.after rfl <| dropSdu_moves.within rfl
  · exact moves_rfl

theorem takeXgem_moves {f : AB} {e k : Nat} {enc omci fifoFull : Bool} {x : XFrame} {s : State} :
    moves [.regs, .ctrs, .hdrs, .out, .free, .nvs, .links, .log, .cls, .buf, .mac, .ecc, .lfr, .act, .keys] s
      (takeXgem f e k enc omci fifoFull x s) := by
  have counted : ∀ (c : Option Nat), moves [.regs, .ctrs, .hdrs, .out, .free, .nvs, .links, .log, .cls, .buf, .mac, .ecc, .lfr, .act,
    .keys] s
      (match c with | some i => cryCount (i + f.num) s | none => s) := fun c => by
    cases c
    · exact moves_rfl
    · exact cryCount_moves.within rfl
  have stopped : ∀ k r t, moves [.regs, .ctrs, .hdrs, .out, .free, .nvs, .links, .log, .cls, .buf, .mac, .ecc, .lfr, .act,
    .keys] s t → moves [.regs, .ctrs, .hdrs, .out, .free, .nvs, .links, .log, .cls, .buf, .mac, .ecc, .lfr, .act, .keys] s
      (deaden f e k false x.lf (dropSdu f e (dropAt r k 8 none 0 t))) := fun _ _ _ h =>
    deaden_moves.after rfl <| dropSdu_moves.after rfl <| dropAt_moves.after rfl h
  have quiet : moves [.regs, .ctrs, .hdrs, .out, .free, .nvs, .links, .log, .cls, .buf, .mac, .ecc, .lfr, .act, .keys] s
    (if x.lf then setSdu f e none s else s) :=
    moves_ite (setSdu_moves.within rfl) moves_rfl
  have decrypted : moves [.regs, .ctrs, .hdrs, .out, .free, .nvs, .links, .log, .cls, .buf, .mac, .ecc, .lfr, .act, .keys] s
      (transit (0x80 + f.num) (if x.keyIdx = 0 then s else cryCount f.num s)).2 :=
    transit_moves.after rfl <| moves_ite moves_rfl (cryCount_moves.within rfl)
  unfold takeXgem
  extract_lets dead quiet' k' s1 stop
  refine moves_ite (deaden_moves.after rfl <| moves_ite (raise_moves.after rfl <| bump_moves.within rfl) <|
    dropUnowned_moves.after rfl <| raise_moves.after rfl <| bump_moves.within rfl) <| moves_ite quiet <|
    moves_ite (stopped _ _ _ (counted none)) <| moves_ite (stopped _ _ _ (counted (some 2))) <|
    moves_ite (stopped _ _ _ (counted (some 4))) <| moves_ite quiet ?_
  refine moves_ite (deaden_moves.after rfl <| dropAt_moves.after rfl decrypted) <|
    moves_ite (setSdu_moves.after rfl decrypted) <| moves_ite (moves_ite ?_ ?_) ?_
  · exact dropAt_moves.after rfl <| setSdu_moves.after rfl decrypted
  · exact deliverOmci_moves.after rfl <| setSdu_moves.after rfl decrypted
  · exact deliverFrame_moves.after rfl <| setSdu_moves.after rfl decrypted

theorem execXgemFrameReceive_moves {f : AB} {fifoFull : Bool} {s : State} :
    goes [.regs, .ctrs, .hdrs, .out, .free, .nvs, .links, .log, .cls, .buf, .mac, .ecc, .lfr, .act, .keys] s
      (execXgemFrameReceive f fifoFull s) := by
  refine goes_whenOn <| ?_
  split
  · exact goes_next moves_rfl
  · dsimp only
    split
    · exact goes_next <| gapAll_moves.after rfl <| setLfr_moves.within rfl
    · exact goes_next <| breakAll_moves.after rfl <| setLfr_moves.within rfl
    · exact goes_next <| cutSdu_moves.after rfl <| setLfr_moves.within rfl
    · exact goes_next <| takeXgem_moves.after rfl <| setLfr_moves.within rfl
    · exact goes_next <| takeXgem_moves.after rfl <| setLfr_moves.within rfl

theorem stimulus_moves {s : State} :
    moves [.regs, .ctrs, .hdrs, .out, .power, .nvs, .links, .buf, .tsu, .seqs, .act, .btx, .psw, .omciUpQ] s (stimulus s) := by
  refine moves_ite moves_rfl <| moves_ite (tsuUpdate_moves.after rfl <| setActSt_moves.after rfl <| actCount_moves.after rfl <|
    setFlag_moves.within rfl) ?_
  split
  · exact setActSt_moves.within rfl
  · exact modeTo_moves.within rfl

theorem wakeOn_moves {old s : State} :
    moves [.regs, .ctrs, .hdrs, .out, .power, .nvs, .links, .buf, .tsu, .seqs, .act, .btx, .psw, .omciUpQ] s (wakeOn old s) :=
  moves_ite (stimulus_moves.within rfl) moves_rfl

theorem gateDecide_moves {f : AB} {sfc at_ : Nat} {g : Gate} {s : State} :
    moves [.regs, .ctrs, .hdrs, .out, .power, .nvs, .links, .buf, .mac, .tsu, .seqs, .lfr, .act, .btx, .psw, .keys, .omciUpQ] s
      (gateDecide f sfc at_ g s) :=
  moves_trans (wp_moves.within rfl) <| moves_ite (setAct_moves.after rfl <| raise_moves.after rfl <| actCount_moves.within rfl) <|
    moves_trans (raise_moves.after rfl <| wp_moves.within rfl) <| moves_ite (modeTo_moves.after rfl <| actCount_moves.after rfl <|
    recallBursts_moves.after rfl <| with_psw_moves.after rfl <| setActSt_moves.within rfl) <|
    moves_trans (driftShift_moves.within rfl) <| moves_ite (modeTo_moves.within rfl) (setActSt_moves.within rfl)

theorem gatePsbd_moves {f : AB} {sfc at_ : Nat} {s : State} :
    moves [.regs, .ctrs, .hdrs, .out, .power, .nvs, .links, .buf, .mac, .tsu, .seqs, .lfr, .act, .btx, .psw, .keys, .omciUpQ] s
      (gatePsbd f sfc at_ s) := by
  unfold gatePsbd
  split
  · exact moves_rfl
  · exact moves_ite (gateDecide_moves.within rfl) (setActSt_moves.within rfl)

theorem acceptPloam_moves {f : AB} {s : State} {p : Ploam} :
    moves [.regs, .ctrs, .hdrs, .free, .nvs, .links, .log, .ecc, .act, .keys] s (acceptPloam f s p) :=
  moves_ite moves_rfl <| moves_ite (actCount_moves.within rfl) <| moves_trans (transit_moves.after rfl <| logPloam_moves.after rfl <|
    actCount_moves.within rfl) <| moves_ite (raise_moves.after rfl <| actCount_moves.within rfl) <|
    moves_ite (setActSt_moves.within rfl) <| raise_moves.after rfl <| actCount_moves.within rfl

theorem takeSfc_moves {f : AB} {p : Psbd} {at_ : Nat} {s : State} :
    moves [.regs, .ctrs, .hdrs, .links, .lfr] s (takeSfc f p at_ s) :=
  moves_ite moves_rfl <| setLfr_moves.after rfl <| wp_moves.after rfl <| wp_moves.after rfl <|
    moves_ite (lfrCount_moves.within rfl) moves_rfl

theorem measureStandby_moves {f : AB} {s : State} : moves [.buf, .act, .btx, .psw, .omciUpQ] s (measureStandby f s) :=
  moves_ite moves_rfl <| moves_trans (with_psw_moves.within rfl) <| moves_ite (recallBursts_moves.after rfl <|
    with_psw_moves.within rfl) moves_rfl

theorem syncStep_moves {f : AB} {hit : Bool} {s : State} :
    moves [.regs, .ctrs, .hdrs, .out, .free, .power, .nvs, .links, .buf, .mac, .tsu, .seqs, .lfr, .act, .btx, .psw, .keys, .omciUpQ] s
      (syncStep f hit s) := by
  unfold syncStep
  dsimp only
  split
  · exact moves_ite (setLfr_moves.within rfl) <| moves_ite (declareLof_moves.after rfl <|
      toHunt_moves.within rfl) (setLfr_moves.within rfl)
  · exact moves_ite (setLfr_moves.after rfl <| setFld_moves.within rfl) <|
      moves_ite (enterSync_moves.within rfl) (setLfr_moves.within rfl)
  · exact moves_ite moves_rfl <| moves_ite (enterSync_moves.within rfl) <| setLfr_moves.after rfl <| setFld_moves.within rfl

theorem takeFsFrame_moves {f : AB} {p : Psbd} {hit : Bool} {at_ : Nat} {s : State} :
    moves (but [.pending, .snaps, .last, .clock, .era, .dram, .masters, .mbx, .keeper, .fw, .chk, .seg]) s (takeFsFrame f p hit at_ s) :=
  moves_trans (setLfr_moves.after rfl <| lfrCount_moves.after rfl <| lfrCount_moves.after rfl <| lfrCount_moves.after rfl <|
    lfrCount_moves.after rfl <| lfrCount_moves.within rfl) <| moves_trans (moves_foldl (fun _ _ => acceptPloam_moves.within rfl) <|
    moves_ite (lineLoad_moves.within rfl) moves_rfl) <| takePayload_moves.after rfl <| acceptGrants_moves.after rfl <|
    moves_ite (stimulus_moves.within rfl) moves_rfl

theorem execPsbdArrival_moves {f : AB} {p : Psbd} {s : State} :
    goes (but [.pending, .snaps, .last, .clock, .era, .dram, .masters, .mbx, .keeper, .fw, .chk, .seg]) s (execPsbdArrival f p s) :=
  goes_whenOn <| goes_ite (goes_next moves_rfl) <| goes_next <| lineSettle_moves.after rfl <| moves_ite (takeFsFrame_moves.after rfl <|
    moves_ite (gatePsbd_moves.after rfl <| syncStep_moves.after rfl <| moves_ite (measureStandby_moves.after rfl <|
    takeSfc_moves.within rfl) moves_rfl) <| syncStep_moves.after rfl <| moves_ite (measureStandby_moves.after rfl <|
    takeSfc_moves.within rfl) moves_rfl) <| moves_ite (gatePsbd_moves.after rfl <| syncStep_moves.after rfl <|
    moves_ite (measureStandby_moves.after rfl <| takeSfc_moves.within rfl) moves_rfl) <| syncStep_moves.after rfl <|
    moves_ite (measureStandby_moves.after rfl <| takeSfc_moves.within rfl) moves_rfl

theorem portIdHandler_moves {f : AB} {e : Nat} :
    Handler.moves [.regs, .ctrs, .hdrs, .nvs, .links, .buf, .ecc, .lfr] (portIdHandler f e) :=
  ⟨fun _ _ _ => wrotePart_moves.after rfl <| storeReg_moves.after rfl <|
    moves_ite (cutChain_moves.within rfl) moves_rfl, fun _ => moves_rfl⟩

theorem execPortIdWrite_moves {m f : AB} {e : Nat} {v : Word} {s : State} :
    goes [.regs, .ctrs, .hdrs, .last, .nvs, .links, .masters, .fw, .log, .buf, .ecc, .lfr] s (execPortIdWrite m f e v s) :=
  goes_whenOn <| goes_next <| writeReg_moves portIdHandler_moves rfl rfl

theorem execKeyLoad_moves {f : AB} {slot : Nat} {key : List Byte} {s : State} :
    goes [.regs, .ctrs, .hdrs, .out, .free, .power, .nvs, .links, .buf, .mac, .tsu, .seqs, .ecc, .act, .btx, .psw, .keys, .omciUpQ] s
      (execKeyLoad f slot key s) :=
  goes_whenOn <| goes_ite (goes_next moves_rfl) <| goes_next <| lineSettle_moves.after rfl <| wroteWord_moves.after rfl <|
    raise_moves.after rfl <| moves_ite (bumpFld_moves.after rfl <| setFlag_moves.after rfl <| with_act_keys_moves.within rfl) <|
    setFlag_moves.after rfl <| with_act_keys_moves.within rfl

theorem flushXgem_moves {f : AB} {s : State} {x : XFrame} : moves [.regs, .ctrs, .hdrs, .links, .buf, .lfr] s (flushXgem f s x) := by
  unfold flushXgem
  dsimp only
  split
  · split
    · exact moves_ite (moves_ite (setSdu_moves.within rfl) moves_rfl) <| moves_ite (dropAt_moves.after rfl <|
        setSdu_moves.within rfl) moves_rfl
    · exact moves_ite (dropAt_moves.within rfl) (setSdu_moves.within rfl)
  · split
    · exact moves_ite (moves_ite (setSdu_moves.within rfl) moves_rfl) <| moves_ite (dropAt_moves.after rfl <|
        setSdu_moves.within rfl) moves_rfl
    · exact moves_ite (dropAt_moves.within rfl) (setSdu_moves.within rfl)
  · exact gapAll_moves.within rfl
  · exact breakAll_moves.within rfl
  · exact cutSdu_moves.within rfl

theorem lfrBlockReset_moves {f : AB} {s : State} :
    moves [.regs, .ctrs, .hdrs, .out, .free, .power, .nvs, .links, .buf, .mac, .tsu, .seqs, .lfr, .act, .btx, .psw, .keys, .omciUpQ] s
      (lfrBlockReset f s) :=
  moves_trans (setLfr_moves.after rfl <| toHunt_moves.after rfl <| moves_foldl (fun _ _ => wp_moves.within rfl) <|
    moves_foldl (fun _ _ => flushXgem_moves.within rfl) <| setLfr_moves.within rfl) <| lineSettle_moves.after rfl <|
    moves_ite (declareLof_moves.within rfl) moves_rfl

/-! ### Moves of activation and sleep -/

theorem reply_moves {f : AB} {p : Ploamu} {s : State} :
    moves [.regs, .ctrs, .hdrs, .out, .power, .nvs, .links, .buf, .tsu, .seqs, .act, .btx, .psw, .omciUpQ] s (reply f p s) :=
  moves_trans (setActSt_moves.within rfl) <| moves_ite (stimulus_moves.within rfl) moves_rfl

theorem markActed_moves {f : AB} {p : Ploam} {idx : Nat} {s : State} : moves [.regs] s (markActed f p idx s) :=
  moves_ite (setFlag_moves.within rfl) moves_rfl

theorem sendAck_moves {f : AB} {p : Ploam} {a : Option Bool} {s : State} :
    moves [.regs, .ctrs, .hdrs, .out, .power, .nvs, .links, .buf, .tsu, .seqs, .act, .btx, .psw, .omciUpQ] s (sendAck f p a s) := by
  unfold sendAck
  split
  · exact reply_moves.within rfl
  · exact moves_rfl

theorem takePloam_moves {l : List Part} {f : AB} {is : PloamBody → Bool} {run : Ploam → State → Option State} {s : State}
    (covered : covers [.regs, .ctrs, .hdrs, .out, .free, .power, .nvs, .links, .buf, .mac, .tsu, .seqs, .act, .btx, .psw,
      .omciUpQ] l = true) (hr : ∀ p t u, run p t = some u → moves l t u) : moves l s (takePloam f is run s) := by
  have took : ∀ x, moves l s (s.setActSt f x) := fun _ => (setActSt_moves.within (l := [.regs, .ctrs, .hdrs, .out, .free, .power, .nvs,
    .links, .buf, .mac, .tsu, .seqs, .act, .btx, .psw, .omciUpQ]) rfl).within covered
  have noted : ∀ (c : Bool) x t, moves [.regs, .ctrs, .hdrs, .out, .free, .power, .nvs, .links, .buf, .mac, .tsu, .seqs, .act, .btx,
    .psw, .omciUpQ] t (if c then t.setActSt f x else t) := fun _ _ _ => moves_ite (setActSt_moves.within rfl) moves_rfl
  have counted : ∀ n t, moves [.regs, .ctrs, .hdrs, .out, .free, .power, .nvs, .links, .buf, .mac, .tsu, .seqs, .act, .btx, .psw,
    .omciUpQ] t (actCount f n t) := fun _ _ => actCount_moves.within rfl
  have settled : ∀ p b t, moves [.regs, .ctrs, .hdrs, .out, .free, .power, .nvs, .links, .buf, .mac, .tsu, .seqs, .act, .btx, .psw,
    .omciUpQ] t (lineSettle s (sendAck f p b t)) := fun _ _ _ => lineSettle_moves.after rfl <| sendAck_moves.within rfl
  have acted : ∀ p n t, moves [.regs, .ctrs, .hdrs, .out, .free, .power, .nvs, .links, .buf, .mac, .tsu, .seqs, .act, .btx, .psw,
    .omciUpQ] t (markActed f p n t) := fun _ _ _ => markActed_moves.within rfl
  unfold takePloam
  split
  · exact moves_rfl
  refine moves_ite moves_rfl <| moves_ite ((counted _ _).after covered (took _)) <| moves_ite ((settled _ _ _).after covered (took _)) ?_
  refine moves_ite ((settled _ _ _).after covered <| (noted _ _ _).after covered <| (counted _ _).after covered (took _)) ?_
  split
  · rename_i h
    exact (settled _ _ _).after covered <| (noted _ _ _).after covered <| (acted _ _ _).after covered <| moves_trans (took _) (hr _ _ _ h)
  · exact (noted _ _ _).after covered (took _)

theorem execBurstProfile_moves {f : AB} {s : State} :
    goes [.regs, .ctrs, .hdrs, .out, .free, .power, .nvs, .links, .buf, .mac, .tsu, .seqs, .lfr, .act, .btx, .psw, .keys, .omciUpQ] s
      (execBurstProfile f s) := by
  refine goes_whenOn <| goes_next <| takePloam_moves rfl fun p t u h => ?_
  dsimp only at h
  split at h
  · cases h
    exact moves_trans (useProfile_moves.after rfl <| setBtx_moves.within rfl) <| moves_ite (setAct_moves.within rfl) moves_rfl
  · cases h

theorem execAssignOnuId_moves {f : AB} {s : State} :
    goes [.regs, .ctrs, .hdrs, .out, .free, .power, .nvs, .links, .buf, .mac, .tsu, .seqs, .lfr, .act, .btx, .psw, .keys, .omciUpQ] s
      (execAssignOnuId f s) := by
  refine goes_whenOn <| goes_next <| takePloam_moves rfl fun p t u h => ?_
  dsimp only at h
  split at h
  · split at h
    · cases h
    · cases h
      exact setAct_moves.after rfl <| raise_moves.after rfl <| wp_moves.after rfl <| setFlag_moves.after rfl <| setFld_moves.within rfl
  · cases h

theorem execRangingTime_moves {f : AB} {s : State} :
    goes [.regs, .ctrs, .hdrs, .out, .free, .power, .nvs, .links, .buf, .mac, .tsu, .seqs, .lfr, .act, .btx, .psw, .keys, .omciUpQ] s
      (execRangingTime f s) := by
  refine goes_whenOn <| goes_next <| takePloam_moves rfl fun p t u h => ?_
  dsimp only at h
  split at h
  · split at h
    · cases h
    · cases h
      refine moves_trans ?_ (moves_ite (modeTo_moves.within rfl) moves_rfl)
      refine moves_trans ?_ (moves_ite (setAct_moves.within rfl) moves_rfl)
      exact setActSt_moves.after rfl <| setFlag_moves.after rfl <| wp_moves.within rfl
  · cases h

theorem execDeactivateOnuId_moves {f : AB} {s : State} :
    goes [.regs, .ctrs, .hdrs, .out, .free, .power, .nvs, .links, .buf, .mac, .tsu, .seqs, .lfr, .act, .btx, .psw, .keys, .omciUpQ] s
      (execDeactivateOnuId f s) := by
  refine goes_whenOn <| goes_next <| takePloam_moves rfl fun p t u h => ?_
  dsimp only at h
  split at h
  · cases h
  · cases h
    exact setAct_moves.within rfl

theorem execDisableSerialNumber_moves {f : AB} {s : State} :
    goes [.regs, .ctrs, .hdrs, .out, .free, .power, .nvs, .links, .buf, .mac, .tsu, .seqs, .lfr, .act, .btx, .psw, .keys, .omciUpQ] s
      (execDisableSerialNumber f s) := by
  refine goes_whenOn <| goes_next <| takePloam_moves rfl fun p t u h => ?_
  have acted : ∀ (c : Bool) (en : Bool), (if c then none else if en then (if actState f t = aO7 then some (setAct f aO11 12 t) else none)
      else if actState f t = aO7 then none else some (setAct f aO7 11 (abortAll f t))) = some u → moves [.regs, .ctrs, .hdrs, .out,
        .free, .power, .nvs, .links, .buf, .mac, .tsu, .seqs, .lfr, .act, .btx, .psw, .keys, .omciUpQ] t u := by
    intro c en h
    cases c <;> cases en <;> simp only [Bool.false_eq_true, if_false, if_true, reduceCtorEq, Option.ite_none_left_eq_some,
      Option.ite_none_right_eq_some, Option.some.injEq] at h
    · obtain ⟨-, rfl⟩ := h
      exact setAct_moves.after rfl <| abortAll_moves.within rfl
    · obtain ⟨-, rfl⟩ := h
      exact setAct_moves.within rfl
  dsimp only at h
  split at h
  · exact acted _ _ h
  · cases h

theorem execRequestRegistration_moves {f : AB} {s : State} :
    goes [.regs, .ctrs, .hdrs, .out, .free, .power, .nvs, .links, .buf, .mac, .tsu, .seqs, .act, .btx, .psw, .omciUpQ] s
      (execRequestRegistration f s) := by
  refine goes_whenOn <| goes_next <| takePloam_moves rfl fun p t u h => ?_
  split at h
  · cases h
    exact reply_moves.within rfl
  · cases h

theorem execAssignAllocId_moves {f : AB} {s : State} :
    goes [.regs, .ctrs, .hdrs, .out, .free, .power, .nvs, .links, .buf, .mac, .tsu, .seqs, .act, .btx, .psw, .omciUpQ] s
      (execAssignAllocId f s) := by
  refine goes_whenOn <| goes_next <| takePloam_moves rfl fun p t u h => ?_
  dsimp only at h
  split at h
  · have entered : ∀ n w, moves [.regs, .ctrs, .hdrs, .out, .free, .power, .nvs, .links, .buf, .mac, .tsu, .seqs, .act, .btx, .psw,
      .omciUpQ] t (mapCheck f t (raise (pBtx f) 0 (t.wp (pBtx f) n w))) := fun _ _ =>
      mapCheck_moves.after rfl <| raise_moves.after rfl <| wp_moves.within rfl
    split at h
    · cases h
    split at h
    · split at h
      · cases h
        exact moves_rfl
      · cases h
        exact entered _ _
    · split at h
      · cases h
        exact moves_rfl
      · cases h
        exact entered _ _
    · split at h
      · cases h
      · cases h
        exact moves_rfl
  · cases h

theorem execKeyControl_moves {f : AB} {s : State} :
    goes [.regs, .ctrs, .hdrs, .out, .free, .power, .nvs, .links, .buf, .mac, .tsu, .seqs, .act, .btx, .psw, .omciUpQ] s
      (execKeyControl f s) := by
  refine goes_whenOn <| goes_next <| takePloam_moves rfl fun p t u h => ?_
  split at h
  · cases h
    exact reply_moves.within rfl
  · cases h

theorem execSleepAllow_moves {f : AB} {s : State} :
    goes [.regs, .ctrs, .hdrs, .out, .free, .power, .nvs, .links, .buf, .mac, .tsu, .seqs, .act, .btx, .psw, .omciUpQ] s
      (execSleepAllow f s) := by
  refine goes_whenOn <| goes_next <| takePloam_moves rfl fun p t u h => ?_
  dsimp only at h
  split at h
  · cases h
    refine moves_trans ?_ (moves_ite (stimulus_moves.within rfl) moves_rfl)
    exact moves_trans (setFlag_moves.within rfl) (moves_ite moves_rfl (raise_moves.within rfl))
  · cases h

theorem execUnsupportedPloam_moves {f : AB} {s : State} :
    goes [.regs, .ctrs, .hdrs, .out, .free, .power, .nvs, .links, .buf, .mac, .tsu, .seqs, .act, .btx, .psw, .omciUpQ] s
      (execUnsupportedPloam f s) := by
  refine goes_whenOn <| goes_next <| takePloam_moves rfl fun p t u h => ?_
  cases h

theorem execEqdApply_moves {f : AB} {s : State} :
    goes [.regs, .ctrs, .hdrs, .out, .free, .power, .nvs, .links, .buf, .mac, .tsu, .seqs, .act, .btx, .psw, .omciUpQ] s
      (execEqdApply f s) := by
  refine goes_whenOn <| ?_
  split
  · exact goes_next moves_rfl
  · refine goes_next <| lineSettle_moves.after rfl <| eqdShift_moves.after rfl <| ?_
    split
    · exact with_psw_moves.after rfl <| with_psw_moves.after rfl <| raise_moves.after rfl <| actCount_moves.after rfl <|
        bumpFld_moves.after rfl <| setActSt_moves.within rfl
    · exact with_psw_moves.after rfl <| raise_moves.after rfl <| actCount_moves.after rfl <| bumpFld_moves.after rfl <|
        setActSt_moves.within rfl

theorem execTo1Expiry_moves {f : AB} {s : State} :
    goes [.regs, .ctrs, .hdrs, .out, .free, .power, .nvs, .links, .buf, .mac, .tsu, .seqs, .lfr, .act, .btx, .psw, .keys, .omciUpQ] s
      (execTo1Expiry f s) :=
  goes_whenOn <| goes_ite (goes_next <| lineSettle_moves.after rfl <| setAct_moves.after rfl <| raise_moves.within rfl) <|
    goes_next moves_rfl

theorem execTo2Expiry_moves {f : AB} {s : State} :
    goes [.regs, .ctrs, .hdrs, .out, .free, .power, .nvs, .links, .buf, .mac, .tsu, .seqs, .lfr, .act, .btx, .psw, .keys, .omciUpQ] s
      (execTo2Expiry f s) :=
  goes_whenOn <| goes_ite (goes_next <| lineSettle_moves.after rfl <| setAct_moves.after rfl <| raise_moves.within rfl) <|
    goes_next moves_rfl

theorem execDozeEnter_moves {s : State} :
    goes [.regs, .ctrs, .hdrs, .out, .free, .power, .nvs, .links, .buf, .mac, .tsu, .seqs, .act, .btx, .psw, .omciUpQ] s
      (execDozeEnter s) :=
  goes_whenOn <| goes_ite (goes_next moves_rfl) <| goes_next <| lineSettle_moves.after rfl <| modeTo_moves.after rfl <|
    setActSt_moves.within rfl

theorem execLowPowerStart_moves {s : State} :
    goes [.regs, .ctrs, .hdrs, .out, .free, .power, .nvs, .links, .buf, .mac, .tsu, .seqs, .lfr, .act, .btx, .psw, .omciUpQ] s
      (execLowPowerStart s) :=
  goes_whenOn <| goes_ite (goes_next moves_rfl) <| goes_next <| lineSettle_moves.after rfl <| toHunt_moves.after rfl <|
    setFlag_moves.after rfl <| wp_moves.after rfl <| setActSt_moves.within rfl

theorem execWatch_moves {s : State} :
    goes [.regs, .ctrs, .hdrs, .out, .free, .power, .nvs, .links, .buf, .mac, .tsu, .seqs, .act, .btx, .psw, .omciUpQ] s (execWatch s) :=
  goes_whenOn <| goes_ite (goes_next moves_rfl) <| goes_next <| lineSettle_moves.after rfl <| setActSt_moves.after rfl <|
    actCount_moves.after rfl <| setFlag_moves.within rfl

theorem sleepCtrlHandler_moves {f : AB} :
    Handler.moves [.regs, .ctrs, .hdrs, .out, .free, .power, .nvs, .links, .buf, .mac, .tsu, .seqs, .act, .btx, .psw, .omciUpQ]
      (sleepCtrlHandler f) :=
  ⟨fun _ _ _ => moves_trans (storeReg_moves.within rfl) <| moves_ite (lineSettle_moves.after rfl <|
    stimulus_moves.within rfl) moves_rfl, fun _ => moves_rfl⟩

theorem execWakeCmd_moves {m f : AB} {s : State} :
    goes (but [.pending, .snaps, .clock, .era, .dram, .backup, .mbx, .keeper, .cls, .chk, .ecc, .lfr, .opt, .keys, .seg]) s
      (execWakeCmd m f s) := goes_whenOn <| goes_next <| writeReg_moves sleepCtrlHandler_moves rfl rfl

theorem execSleepEnWrite_moves {m f : AB} {on : Bool} {s : State} :
    goes (but [.pending, .snaps, .clock, .era, .dram, .backup, .mbx, .keeper, .cls, .chk, .ecc, .lfr, .opt, .keys, .seg]) s
      (execSleepEnWrite m f on s) := goes_whenOn <| goes_next <| writeReg_moves sleepCtrlHandler_moves rfl rfl

theorem execGateReacqTimeout_moves {s : State} :
    goes [.regs, .ctrs, .hdrs, .out, .free, .power, .nvs, .links, .buf, .mac, .tsu, .seqs, .lfr, .act, .btx, .psw, .keys, .omciUpQ] s
      (execGateReacqTimeout s) :=
  goes_whenOn <| goes_ite (goes_next moves_rfl) <| goes_next <| lineSettle_moves.after rfl <| declareLof_moves.within rfl

theorem execRerangeTimeout_moves {s : State} : goes [.hdrs, .links, .psw] s (execRerangeTimeout s) :=
  goes_whenOn <| goes_ite (goes_next moves_rfl) <| goes_next <| raise_moves.after rfl <| with_psw_moves.within rfl

theorem actBlockReset_moves {f : AB} {s : State} :
    moves [.regs, .ctrs, .hdrs, .out, .free, .power, .nvs, .links, .buf, .mac, .tsu, .seqs, .lfr, .act, .btx, .psw, .keys, .omciUpQ] s
      (actBlockReset f s) := lineSettle_moves.after rfl <| setActSt_moves.after rfl <| setAct_moves.after rfl <| abortAll_moves.within rfl

/-! ### Moves of the modules -/

theorem updateLife_moves {c : AB} {s : State} : moves [.regs, .hdrs, .links, .opt] s (updateLife c s) := by
  unfold updateLife
  dsimp only
  split
  · exact moves_rfl
  · exact moves_foldl (fun _ _ => moves_ite (raise_moves.within rfl) moves_rfl) <| setFld_moves.after rfl <| setOpt_moves.within rfl

theorem writeWords_moves {p off : Nat} {l : List Word} {s : State} : moves [.regs] s (writeWords p off l s) :=
  moves_foldl (fun _ _ => wp_moves.within rfl) <| moves_rfl

theorem showIdentity_moves {c : AB} {i : IdImage} {s : State} : moves [.regs] s (showIdentity c i s) :=
  wp_moves.after rfl <| writeWords_moves.after rfl <| writeWords_moves.after rfl <| writeWords_moves.within rfl

theorem loadBadRecord_moves {sn vendor : List Byte} {s : State} : moves [.regs] s (loadBadRecord sn vendor s).2 := by
  unfold loadBadRecord
  dsimp only
  split
  · exact setFld_moves.within rfl
  · exact moves_rfl

theorem acceptModule_moves {c : AB} {i : IdImage} {s : State} :
    moves [.regs, .hdrs, .free, .nvs, .links, .fw, .opt] s (acceptModule c i s) := by
  refine moves_trans (setNvs_moves.after rfl <| setOpt_moves.after rfl <| setOpt_moves.after rfl <| setOpt_moves.after rfl <| ?_) <|
    startHunt_moves.after rfl <| updateLife_moves.after rfl <| moves_ite (writeOrDefer_moves.within rfl) moves_rfl
  split
  · exact setFlag_moves.after rfl <| setFld_moves.after rfl <| setFld_moves.after rfl <| setFlag_moves.within rfl
  · exact loadBadRecord_moves.after rfl <| setFlag_moves.after rfl <| setFld_moves.after rfl <| setFld_moves.after rfl <|
      setFlag_moves.within rfl

theorem execIdReadStart_moves {c : AB} {s : State} : goes [.opt] s (execIdReadStart c s) :=
  goes_whenOn <| goes_ite (goes_next <| setOpt_moves.within rfl) <| goes_next moves_rfl

theorem execIdReadRetry_moves {c : AB} {s : State} : goes [.opt] s (execIdReadRetry c s) :=
  goes_whenOn <| goes_ite (goes_next moves_rfl) <| goes_ite (goes_next <| setOpt_moves.within rfl) <| goes_next moves_rfl

theorem execIdReadDone_moves {c : AB} {i : IdImage} {s : State} :
    goes [.regs, .ctrs, .hdrs, .out, .free, .power, .nvs, .links, .fw, .buf, .mac, .tsu, .seqs, .act, .btx, .psw, .opt, .omciUpQ] s
      (execIdReadDone c i s) :=
  goes_whenOn <| goes_ite (goes_next moves_rfl) <| goes_next <| lineSettle_moves.after rfl <|
    moves_ite (acceptModule_moves.after rfl <| moves_ite (showIdentity_moves.after rfl <|
    setOpt_moves.within rfl) (setOpt_moves.within rfl)) <| raise_moves.after rfl <| setFld_moves.after rfl <|
    moves_ite (showIdentity_moves.after rfl <| setOpt_moves.within rfl) (setOpt_moves.within rfl)

theorem execModuleInsert_moves {c : AB} {s : State} :
    goes (but [.pending, .snaps, .last, .clock, .era, .dram, .backup, .masters, .mbx, .keeper, .fw, .log, .cls, .chk, .ecc, .seg]) s
      (execModuleInsert c s) :=
  goes_ite (goes_next moves_rfl) <| goes_ite (goes_next <| setOpt_moves.after rfl <| setFlag_moves.within rfl) <| goes_next <|
    lineSettle_moves.after rfl <| leaveOff_moves.after rfl <| restartFramer_moves.after rfl <| raise_moves.after rfl <|
    setOpt_moves.after rfl <| setFlag_moves.within rfl

theorem forgetModule_moves {c : AB} {s : State} : moves [.regs, .opt] s (forgetModule c s) :=
  setFld_moves.after rfl <| setFld_moves.after rfl <| setFld_moves.after rfl <| setFld_moves.after rfl <| setOpt_moves.within rfl

theorem moduleGone_moves {c : AB} {s : State} :
    moves (but [.pending, .snaps, .last, .clock, .era, .dram, .backup, .masters, .mbx, .keeper, .fw, .log, .cls, .chk, .ecc, .seg]) s
      (moduleGone c s) :=
  moves_trans (forgetModule_moves.after rfl <| abortAll_moves.within rfl) <| restartFramer_moves.after rfl <|
    declareLos_moves.after rfl <| moves_ite moves_rfl (setAct_moves.within rfl)

theorem execModuleRemove_moves {c : AB} {s : State} :
    goes (but [.pending, .snaps, .last, .clock, .era, .dram, .backup, .masters, .mbx, .keeper, .fw, .log, .cls, .chk, .ecc, .seg]) s
      (execModuleRemove c s) :=
  goes_ite (goes_next moves_rfl) <| goes_ite (goes_next <| setFlag_moves.within rfl) <| goes_ite (goes_next <|
    moves_ite (setFlag_moves.within rfl) <| setFlag_moves.after rfl <| setFlag_moves.within rfl) <| goes_next <|
    lineSettle_moves.after rfl <| moduleGone_moves.after rfl <| raise_moves.after rfl <| moves_ite (setFlag_moves.within rfl) <|
    setFlag_moves.after rfl <| setFlag_moves.within rfl

theorem execLifeRecordWrite_moves {c : AB} {s : State} :
    goes [.regs, .hdrs, .free, .nvs, .links, .fw, .opt] s (execLifeRecordWrite c s) :=
  goes_whenOn <| goes_next <| saveLeft_moves.within rfl

theorem takeDiag_moves {c : AB} {l : List Byte} {s : State} : moves [.regs, .hdrs, .links, .opt] s (takeDiag c l s) :=
  moves_trans (setOpt_moves.after rfl <| setFlag_moves.after rfl <| wp_moves.after rfl <| wp_moves.after rfl <| wp_moves.after rfl <|
    wp_moves.within rfl) <| moves_trans (moves_ite moves_rfl (raise_moves.within rfl)) <| moves_ite moves_rfl (raise_moves.within rfl)

theorem execDiagPoll_moves {c : AB} {bytes : Option (List Byte)} {s : State} :
    goes [.regs, .hdrs, .links, .opt] s (execDiagPoll c bytes s) := by
  refine goes_whenOn <| goes_ite (goes_next moves_rfl) ?_
  split
  · exact goes_next <| takeDiag_moves.within rfl
  · split
    · exact goes_next <| setOpt_moves.within rfl
    · exact goes_ite (goes_next moves_rfl) <| goes_next <| raise_moves.after rfl <| setFlag_moves.after rfl <| setOpt_moves.within rfl

theorem execTwoWireRetry_moves {c : AB} {s : State} : goes [.opt] s (execTwoWireRetry c s) := by
  refine goes_whenOn <| ?_
  split
  · exact goes_next moves_rfl
  · exact goes_next <| setOpt_moves.within rfl

theorem execLaserSecond_moves {c : AB} {s : State} :
    goes [.regs, .ctrs, .hdrs, .out, .free, .power, .nvs, .links, .buf, .mac, .tsu, .seqs, .act, .btx, .psw, .opt, .omciUpQ] s
      (execLaserSecond c s) :=
  goes_whenOn <| goes_ite (goes_next moves_rfl) <| goes_next <| lineSettle_moves.after rfl <| updateLife_moves.after rfl <|
    setOpt_moves.within rfl

theorem lifeLimitHandler_moves {c : AB} :
    Handler.moves [.regs, .ctrs, .hdrs, .out, .free, .power, .nvs, .links, .buf, .mac, .tsu, .seqs, .act, .btx, .psw, .opt, .omciUpQ]
      (lifeLimitHandler c) :=
  ⟨fun _ _ _ => lineSettle_moves.after rfl <| updateLife_moves.after rfl <| updateLife_moves.after rfl <|
    storeReg_moves.within rfl, fun _ => moves_rfl⟩

theorem execLifeLimitWrite_moves {m c : AB} {v : Word} {s : State} :
    goes (but [.pending, .snaps, .clock, .era, .dram, .backup, .mbx, .keeper, .cls, .chk, .ecc, .lfr, .keys, .seg]) s
      (execLifeLimitWrite m c v s) := goes_whenOn <| goes_next <| writeReg_moves lifeLimitHandler_moves rfl rfl

theorem txCtrlHandler_moves {c : AB} :
    Handler.moves [.regs, .ctrs, .hdrs, .out, .free, .power, .nvs, .links, .buf, .mac, .tsu, .seqs, .act, .btx, .psw, .omciUpQ]
      (txCtrlHandler c) := ⟨fun _ _ _ => lineSettle_moves.after rfl <| storeReg_moves.within rfl, fun _ => moves_rfl⟩

theorem execTxCtrlWrite_moves {m c : AB} {v : Word} {s : State} :
    goes (but [.pending, .snaps, .clock, .era, .dram, .backup, .mbx, .keeper, .cls, .chk, .ecc, .lfr, .opt, .keys, .seg]) s
      (execTxCtrlWrite m c v s) := goes_whenOn <| goes_next <| writeReg_moves txCtrlHandler_moves rfl rfl

theorem optRateHandler_moves {c : AB} :
    Handler.moves [.regs, .ctrs, .hdrs, .out, .free, .power, .nvs, .links, .buf, .mac, .tsu, .seqs, .act, .btx, .psw, .omciUpQ]
      (optRateHandler c) :=
  ⟨fun _ _ _ => moves_trans (storeReg_moves.within rfl) <| moves_ite moves_rfl <| lineSettle_moves.after rfl <|
    startHunt_moves.after rfl <| setFld_moves.within rfl, fun _ => moves_rfl⟩

/-! ### Moves of feeder protection -/

theorem nodeMapHandler_moves {f : AB} {n : Nat} :
    Handler.moves [.regs, .ctrs, .hdrs, .out, .free, .power, .nvs, .links, .buf, .mac, .tsu, .seqs, .ecc, .act, .btx, .psw, .omciUpQ]
      (nodeMapHandler f n) :=
  ⟨fun _ _ _ => lineSettle_moves.after rfl <| mapCheck_moves.after rfl <| wroteWord_moves.after rfl <|
    storeReg_moves.within rfl, fun _ => moves_rfl⟩

theorem execNodeMapWrite_moves {m f : AB} {n : Nat} {v : Word} {s : State} :
    goes (but [.pending, .snaps, .clock, .era, .dram, .backup, .mbx, .keeper, .cls, .chk, .lfr, .opt, .keys, .seg]) s
      (execNodeMapWrite m f n v s) := goes_whenOn <| goes_next <| writeReg_moves nodeMapHandler_moves rfl rfl

theorem guardHandler_moves {f : AB} :
    Handler.moves [.regs, .ctrs, .hdrs, .out, .free, .power, .nvs, .links, .buf, .mac, .tsu, .seqs, .act, .btx, .psw, .omciUpQ]
      (guardHandler f) := ⟨fun _ _ _ => lineSettle_moves.after rfl <| storeReg_moves.within rfl, fun _ => moves_rfl⟩

theorem execSwitchComplete_moves {s : State} :
    goes [.regs, .ctrs, .hdrs, .out, .free, .power, .nvs, .links, .buf, .mac, .tsu, .seqs, .act, .btx, .psw, .omciUpQ] s
      (execSwitchComplete s) := goes_whenOn <| goes_next <| lineSettle_moves.after rfl <| switchComplete_moves.within rfl

theorem pswCmdHandler_moves :
    Handler.moves [.regs, .ctrs, .hdrs, .out, .free, .power, .nvs, .links, .buf, .mac, .tsu, .seqs, .act, .btx, .psw, .omciUpQ]
      pswCmdHandler :=
  ⟨fun _ _ _ => moves_trans (standing_moves.after rfl <| wp_moves.within rfl) <| lineSettle_moves.after rfl <|
    regainCheck_moves.after rfl <| moves_ite (startSwitch_moves.within rfl) moves_rfl, fun _ => moves_rfl⟩

theorem execPswClear_moves {m : AB} {s : State} :
    goes (but [.pending, .snaps, .clock, .era, .dram, .backup, .mbx, .keeper, .cls, .chk, .ecc, .lfr, .opt, .keys, .seg]) s
      (execPswClear m s) := goes_whenOn <| goes_next <| writeReg_moves pswCmdHandler_moves rfl rfl

theorem execPswManual_moves {m f : AB} {s : State} :
    goes (but [.pending, .snaps, .clock, .era, .dram, .backup, .mbx, .keeper, .cls, .chk, .ecc, .lfr, .opt, .keys, .seg]) s
      (execPswManual m f s) := goes_whenOn <| goes_next <| writeReg_moves pswCmdHandler_moves rfl rfl

theorem execPswForce_moves {m f : AB} {s : State} :
    goes (but [.pending, .snaps, .clock, .era, .dram, .backup, .mbx, .keeper, .cls, .chk, .ecc, .lfr, .opt, .keys, .seg]) s
      (execPswForce m f s) := goes_whenOn <| goes_next <| writeReg_moves pswCmdHandler_moves rfl rfl

theorem execPswLockout_moves {m : AB} {a b : Bool} {s : State} :
    goes (but [.pending, .snaps, .clock, .era, .dram, .backup, .mbx, .keeper, .cls, .chk, .ecc, .lfr, .opt, .keys, .seg]) s
      (execPswLockout m a b s) := goes_whenOn <| goes_next <| writeReg_moves pswCmdHandler_moves rfl rfl

theorem pswCfgHandler_moves :
    Handler.moves [.regs, .ctrs, .hdrs, .out, .free, .power, .nvs, .links, .buf, .mac, .tsu, .seqs, .act, .btx, .psw, .omciUpQ]
      pswCfgHandler :=
  ⟨fun _ _ _ => lineSettle_moves.after rfl <| regainCheck_moves.after rfl <| storeReg_moves.within rfl, fun _ => moves_rfl⟩

theorem execWtrExpiry_moves {s : State} :
    goes [.regs, .ctrs, .hdrs, .out, .free, .power, .nvs, .links, .buf, .mac, .tsu, .seqs, .act, .btx, .psw, .omciUpQ] s
      (execWtrExpiry s) :=
  goes_whenOn <| goes_ite (goes_next <| lineSettle_moves.after rfl <| startSwitch_moves.within rfl) <| goes_next moves_rfl

/-! ### Moves of the client MACs -/

theorem countGood_moves {n : Nat} {l : List Byte} {s : State} : moves [.regs, .ctrs, .hdrs, .links] s (countGood n l s) :=
  moves_trans (macCount_moves.after rfl <| macCount_moves.after rfl <| macCount_moves.within rfl) <| macCount_moves.after rfl <|
    moves_ite (macCount_moves.within rfl) moves_rfl

theorem applyPause_moves {n pri quanta : Nat} {s : State} : moves [.regs, .hdrs, .links, .mac] s (applyPause n pri quanta s) :=
  moves_trans (setFlag_moves.after rfl <| setPort_moves.within rfl) <| moves_ite (raise_moves.within rfl) moves_rfl

theorem rxPause_moves {n : Nat} {l : List Byte} {s : State} : moves [.regs, .ctrs, .hdrs, .links, .mac] s (rxPause n l s) :=
  moves_ite (moves_trans (macCount_moves.within rfl) <| moves_ite (applyPause_moves.within rfl) moves_rfl) <|
    moves_foldl (fun _ _ => moves_ite (moves_trans (macCount_moves.within rfl) <|
    moves_ite (applyPause_moves.within rfl) moves_rfl) moves_rfl) <| macCount_moves.within rfl

theorem dropPort_moves {r : Reason} {n : Nat} {s : State} : moves [.regs, .ctrs, .hdrs, .links, .buf] s (dropPort r n s) := by
  unfold dropPort
  split
  · exact dropAt_moves.within rfl
  · exact dropUnowned_moves.within rfl

theorem execClientFrameReceive_moves {n : Nat} {f : ClientFrame} {s : State} :
    goes [.regs, .ctrs, .hdrs, .free, .nvs, .links, .log, .cls, .buf, .mac, .ecc, .act, .keys] s (execClientFrameReceive n f s) := by
  have counted : ∀ n k, moves [.regs, .ctrs, .hdrs, .free, .nvs, .links, .log, .cls, .buf, .mac, .ecc, .act, .keys] s
    (macCount n 1 k s) := fun _ _ => macCount_moves.within rfl
  have good : ∀ n k, moves [.regs, .ctrs, .hdrs, .free, .nvs, .links, .log, .cls, .buf, .mac, .ecc, .act, .keys] s
    (countGood n f.bytes (macCount n 1 k s)) := fun _ _ => countGood_moves.after rfl (counted _ _)
  have dropped : ∀ n k r p, moves [.regs, .ctrs, .hdrs, .free, .nvs, .links, .log, .cls, .buf, .mac, .ecc, .act, .keys] s
    (dropSrc r p 0 (macCount n 26 1 (countGood n f.bytes (macCount n 1 k s)))) := fun _ _ _ _ =>
    dropSrc_moves.after rfl <| macCount_moves.after rfl (good _ _)
  refine goes_whenOn <| goes_ite (goes_next moves_rfl) <|
    goes_ite (goes_next <| dropPort_moves.after rfl <| raise_moves.after rfl <| bump_moves.within rfl) ?_
  dsimp only
  split
  · exact goes_next <| dropPort_moves.after rfl <| macCount_moves.after rfl (counted _ _)
  split
  · exact goes_next <| dropUnowned_moves.after rfl <| macCount_moves.after rfl (good _ _)
  · exact goes_ite (goes_next <| rxPause_moves.after rfl (good _ _)) <| goes_ite (goes_next (dropped _ _ _ _)) <|
      goes_ite (goes_next (dropped _ _ _ _)) <| goes_next <| ingress_moves.after rfl <| transit_moves.after rfl (good _ _)

theorem execPauseExpiry_moves {n pri : Nat} {s : State} : goes [.regs, .hdrs, .links, .mac] s (execPauseExpiry n pri s) :=
  goes_whenOn <| goes_next <| applyPause_moves.within rfl

theorem execXoffRefresh_moves {n pri : Nat} {s : State} : goes [.regs, .ctrs, .hdrs, .out, .links] s (execXoffRefresh n pri s) :=
  goes_whenOn <| goes_ite (goes_next <| sendPause_moves.within rfl) <| goes_next moves_rfl

theorem endPauses_moves {n : Nat} {s : State} : moves [.regs, .mac] s (endPauses n s) :=
  setPort_moves.after rfl <| setFld_moves.after rfl <| setFlag_moves.within rfl

theorem linkUpdate_moves {n : Nat} {s : State} : moves [.regs, .ctrs, .hdrs, .out, .links, .mac] s (linkUpdate n s) :=
  moves_ite moves_rfl <| moves_trans (raise_moves.after rfl <| setFlag_moves.within rfl) <|
    moves_ite (pauseCheck_moves.within rfl) (endPauses_moves.within rfl)

theorem execLinkChange_moves {n : Nat} {lock fec localFault remoteFault : Bool} {s : State} :
    goes [.regs, .ctrs, .hdrs, .out, .power, .links, .mac] s (execLinkChange n lock fec localFault remoteFault s) :=
  goes_whenOn <| goes_next <| linkUpdate_moves.after rfl <| moves_ite (with_power_moves.after rfl <|
    moves_ite (raise_moves.after rfl <| setFlag_moves.after rfl <| setFlag_moves.after rfl <| setFlag_moves.after rfl <|
    setPort_moves.within rfl) <| setFlag_moves.after rfl <| setFlag_moves.after rfl <| setFlag_moves.after rfl <|
    setPort_moves.within rfl) <| moves_ite (raise_moves.after rfl <| setFlag_moves.after rfl <| setFlag_moves.after rfl <|
    setFlag_moves.after rfl <| setPort_moves.within rfl) <| setFlag_moves.after rfl <| setFlag_moves.after rfl <|
    setFlag_moves.after rfl <| setPort_moves.within rfl

theorem stamp_moves {n t id : Nat} {s : State} :
    moves [.regs, .ctrs, .hdrs, .free, .nvs, .links, .log, .mac, .ecc, .act, .keys] s (stamp n t id s) :=
  moves_trans (transit_moves.after rfl <| transit_moves.within rfl) <| moves_ite (raise_moves.after rfl <|
    macCount_moves.within rfl) <| moves_ite (moves_trans (macCount_moves.after rfl <| setPort_moves.within rfl) <|
    moves_ite (raise_moves.within rfl) moves_rfl) <| raise_moves.after rfl <| macCount_moves.within rfl

theorem countSent_moves {n : Nat} {l : List Byte} {segment : Bool} {s : State} :
    moves [.regs, .ctrs, .hdrs, .links] s (countSent n l segment s) :=
  moves_trans (macCount_moves.after rfl <| macCount_moves.after rfl <| macCount_moves.within rfl) <|
    moves_trans (macCount_moves.after rfl <| moves_ite (macCount_moves.within rfl) moves_rfl) <|
    moves_ite (macCount_moves.within rfl) moves_rfl

theorem execFrameTransmit_moves {n : Nat} {poisoned fifo14Full : Bool} {s : State} :
    goes [.regs, .ctrs, .hdrs, .out, .free, .nvs, .links, .log, .buf, .mac, .ecc, .act, .keys] s
      (execFrameTransmit n poisoned fifo14Full s) := by
  refine goes_whenOn ?_
  dsimp only
  split
  · exact goes_next moves_rfl
  rename_i p q _
  have taken : moves [.regs, .ctrs, .hdrs, .out, .free, .nvs, .links, .log, .buf, .mac, .ecc, .act, .keys] s
    (s.setPort (n % 8) { s.port (n % 8) with txq := q }) := setPort_moves.within rfl
  refine goes_ite (goes_next <| freed_moves.after rfl <| macCount_moves.after rfl <| dropAt_moves.after rfl taken) <| goes_next ?_
  refine freed_moves.after rfl ?_
  have sent : ∀ t b l o, moves [.regs, .ctrs, .hdrs, .out, .free, .nvs, .links, .log, .buf, .mac, .ecc, .act, .keys] s t → moves [.regs,
    .ctrs, .hdrs, .out, .free, .nvs, .links, .log, .buf, .mac, .ecc, .act, .keys] s
    (countSent (n % 8) l b ((transit (0x90 + n % 8) t).2.emit o)) := fun _ _ _ _ h =>
    countSent_moves.after rfl <| emit_moves.after rfl <| transit_moves.after rfl h
  cases p.tsId
  · refine sent _ _ _ _ ?_
    split
    · exact countAt_moves.after rfl taken
    · exact taken
  · refine moves_trans (sent _ _ _ _ ?_) (moves_ite (raise_moves.after rfl <| bump_moves.within rfl) (stamp_moves.within rfl))
    split
    · exact countAt_moves.after rfl taken
    · exact taken

theorem tsqPop_moves {n : Nat} {s : State} : moves [.regs, .mac] s (tsqPop n s) := by
  unfold tsqPop
  split
  · exact moves_rfl
  · exact bumpFld_moves.after rfl <| setPort_moves.within rfl

theorem flushTsq_moves {n : Nat} {s : State} : moves [.regs, .ctrs, .hdrs, .links, .mac] s (flushTsq n s) :=
  macCount_moves.after rfl <| setPort_moves.within rfl

theorem execTsqPop_moves {m : AB} {n : Nat} {s : State} : goes [.regs, .last, .masters, .mac] s (execTsqPop m n s) :=
  goes_whenOn <| goes_next <| runRead_moves rfl fun _ => tsqPop_moves.within rfl

theorem macFcHandler_moves {n off : Nat} : Handler.moves [.regs, .ctrs, .hdrs, .out, .nvs, .links, .mac] (macFcHandler n off) :=
  ⟨fun _ _ _ => moves_trans (storeReg_moves.within rfl) <| pauseCheck_moves.after rfl <|
    moves_ite (endPauses_moves.within rfl) moves_rfl, fun _ => moves_rfl⟩

theorem macModeHandler_moves {n : Nat} : Handler.moves [.regs, .ctrs, .hdrs, .out, .nvs, .links, .mac] (macModeHandler n) :=
  ⟨fun _ _ _ => linkUpdate_moves.after rfl <| storeReg_moves.within rfl, fun _ => moves_rfl⟩

theorem macXHandler_moves {n off : Nat} : Handler.moves [.regs, .ctrs, .hdrs, .out, .nvs, .links, .mac] (macXHandler n off) :=
  ⟨fun _ _ _ => pauseCheck_moves.after rfl <| storeReg_moves.within rfl, fun _ => moves_rfl⟩

theorem execMacModeWrite_moves {m : AB} {n : Nat} {v : Word} {s : State} :
    goes [.regs, .ctrs, .hdrs, .last, .out, .nvs, .links, .masters, .fw, .log, .mac] s (execMacModeWrite m n v s) :=
  goes_whenOn <| goes_next <| writeReg_moves macModeHandler_moves rfl rfl

/-! ### Moves of segmentation -/

theorem sendFrame_moves {k : Nat} {d : List Word} {i : Nat} {l : List Byte} {s : State} :
    moves [.regs, .ctrs, .hdrs, .out, .free, .nvs, .links, .log, .cls, .buf, .mac, .ecc, .lfr, .act, .keys] s (sendFrame k d i l s) :=
  moves_ite (dropSrc_moves.within rfl) <|
    moves_ite (moves_ite (dropSrc_moves.within rfl) (enqueue_moves.within rfl)) (ingress_moves.within rfl)

theorem segNext_moves {s : State} :
    moves [.regs, .ctrs, .hdrs, .out, .free, .nvs, .links, .log, .cls, .buf, .mac, .ecc, .lfr, .act, .keys, .seg] s (segNext s) := by
  unfold segNext
  split
  · exact moves_rfl
  · exact sendFrame_moves.after rfl <| with_seg_moves.within rfl

theorem segRun_moves {n : Nat} {s : State} : moves [.regs, .ctrs, .hdrs, .out, .free, .nvs, .links, .log, .cls, .buf, .mac, .ecc, .lfr,
    .act, .keys, .seg] s (segRun n s) := by
  induction n generalizing s with
  | zero => exact moves_rfl
  | succ n ih => exact moves_trans segNext_moves ih

theorem hostSend_moves {k tag : Nat} {d : List Word} {late : Bool} {l : List Byte} {s : State} :
    moves [.regs, .ctrs, .hdrs, .out, .free, .nvs, .links, .log, .cls, .buf, .mac, .ecc, .lfr, .act, .keys, .seg] s
      (hostSend k tag d late l s).1 := by
  unfold hostSend
  split
  · exact moves_rfl
  · dsimp only
    split
    · exact raise_moves.after rfl <| wp_moves.after rfl <| dropAt_moves.after rfl <| bump_moves.within rfl
    · exact segNext_moves.after rfl <| with_seg_moves.after rfl <| bump_moves.after rfl <| bump_moves.within rfl

/-! ### Moves of the check units -/

theorem setChan_moves {s : State} {n : Nat} {x : Chk} : moves [.chk] s (s.setChan n x) := with_chk_moves.within rfl

theorem chanCount_moves {n i w k : Nat} {s : State} : moves [.regs, .ctrs, .hdrs, .links] s (chanCount n i w k s) :=
  countAt_moves.within rfl

theorem chanComplete_moves {n : Nat} {s : State} : moves [.hdrs, .links, .chk] s (chanComplete n s) :=
  moves_trans (setChan_moves.within rfl) <| moves_ite (raise_moves.within rfl) moves_rfl

theorem chanReject_moves {n : Nat} {s : State} : moves [.regs, .ctrs, .hdrs, .links, .chk] s (chanReject n s) :=
  raise_moves.after rfl <| chanCount_moves.after rfl <| setChan_moves.within rfl

theorem chanStart_moves {n starter : Nat} {fold : Option Word} {s : State} :
    moves [.regs, .ctrs, .hdrs, .links, .chk] s (chanStart n starter fold s) :=
  chanCount_moves.after rfl <| setChan_moves.after rfl <| moves_ite (chanCount_moves.within rfl) moves_rfl

theorem chanFeed_moves {n : Nat} {l : List Byte} {s : State} : moves [.regs, .ctrs, .hdrs, .links, .chk] s (chanFeed n l s) :=
  moves_trans (chanCount_moves.after rfl <| setChan_moves.within rfl) <| moves_ite (chanComplete_moves.within rfl) moves_rfl

theorem chanReadEffect_moves {n : Nat} {s : State} : moves [.hdrs, .links, .chk] s (chanReadEffect n s) := by
  unfold chanReadEffect
  dsimp only
  split
  · exact setChan_moves.within rfl
  · exact moves_ite (setChan_moves.after rfl <| chanComplete_moves.within rfl) moves_rfl
  · exact moves_rfl
  · exact moves_rfl

theorem chanInvalidate_moves {n : Nat} {s : State} : moves [.regs, .ctrs, .hdrs, .links, .chk] s (chanInvalidate n s) :=
  moves_ite (raise_moves.after rfl <| chanCount_moves.after rfl <| setChan_moves.within rfl) moves_rfl

theorem chanCfgHandler_moves {n off : Nat} : Handler.moves [.regs, .nvs] (chanCfgHandler n off) :=
  ⟨fun _ _ _ => storeReg_moves.within rfl, fun _ => moves_rfl⟩

theorem chanLenHandler_moves {n : Nat} : Handler.moves [.regs, .nvs] (chanLenHandler n) :=
  ⟨fun _ _ _ => storeReg_moves.within rfl, fun _ => moves_rfl⟩

theorem chanStartHandler_moves {n : Nat} : Handler.moves [.regs, .ctrs, .hdrs, .links, .chk] (chanStartHandler n) :=
  ⟨fun _ _ _ => moves_ite moves_rfl (chanStart_moves.within rfl), fun _ => chanReject_moves.within rfl⟩

theorem chanFeedHandler_moves {n off k : Nat} : Handler.moves [.regs, .ctrs, .hdrs, .links, .chk] (chanFeedHandler n off k) :=
  ⟨fun _ _ _ => chanFeed_moves.within rfl, fun _ => chanReject_moves.within rfl⟩

theorem masterFeed_moves {m : AB} {n off k : Nat} {v : Word} {s : State} :
    moves [.regs, .ctrs, .hdrs, .last, .nvs, .links, .masters, .fw, .log, .chk] s (masterFeed m n off k v s) :=
  writeReg_moves chanFeedHandler_moves rfl rfl

theorem execChkStart_moves {m : AB} {n : Nat} {fold : Bool} {s : State} :
    goes [.regs, .ctrs, .hdrs, .last, .nvs, .links, .masters, .fw, .log, .chk] s (execChkStart m n fold s) :=
  goes_whenOn <| goes_next <| writeReg_moves chanStartHandler_moves rfl rfl

theorem execChkFeedByte_moves {m : AB} {n : Nat} {v : Word} {s : State} :
    goes [.regs, .ctrs, .hdrs, .last, .nvs, .links, .masters, .fw, .log, .chk] s (execChkFeedByte m n v s) :=
  goes_whenOn <| goes_next <| masterFeed_moves.within rfl

theorem execChkFeedHalf_moves {m : AB} {n : Nat} {v : Word} {s : State} :
    goes [.regs, .ctrs, .hdrs, .last, .nvs, .links, .masters, .fw, .log, .chk] s (execChkFeedHalf m n v s) :=
  goes_whenOn <| goes_next <| masterFeed_moves.within rfl

theorem execChkFeedWord_moves {m : AB} {n : Nat} {v : Word} {s : State} :
    goes [.regs, .ctrs, .hdrs, .last, .nvs, .links, .masters, .fw, .log, .chk] s (execChkFeedWord m n v s) :=
  goes_whenOn <| goes_next <| masterFeed_moves.within rfl

/-! ### Moves of the sequencers -/

theorem setSeqReg_moves {n : Nat} {r : BitVec 5} {v : Word} {s : State} : moves [.seqs] s (setSeqReg n r v s) := setSeq_moves.within rfl

theorem seqGoto_moves {n pc : Nat} {s : State} : moves [.regs, .ctrs, .hdrs, .links, .seqs] s (seqGoto n pc s) :=
  seqCount_moves.after rfl <| setSeq_moves.within rfl

theorem seqNext_moves {n : Nat} {s : State} : moves [.regs, .ctrs, .hdrs, .links, .seqs] s (seqNext n s) := seqGoto_moves.within rfl

theorem seqFault_moves {n code : Nat} {s : State} : moves [.regs, .ctrs, .hdrs, .nvs, .links, .log, .seqs] s (seqFault n code s) :=
  moves_trans (raise_moves.after rfl <| recordFault_moves.after rfl <| setSeq_moves.within rfl) <|
    moves_ite (startUnitTest_moves.within rfl) moves_rfl

theorem seqSep_moves {n k ref : Nat} {v : Word} {s : State} :
    moves [.regs, .ctrs, .hdrs, .nvs, .links, .log, .seqs] s (seqSep n k ref v s) :=
  seqFault_moves.after rfl <| sepRecord_moves.within rfl

theorem seqIllegal_moves {n : Nat} {s : State} : moves [.regs, .ctrs, .hdrs, .free, .nvs, .links, .log, .seqs] s (seqIllegal n s) :=
  moves_trans (moves_foldl (fun _ _ => setCtr_moves.within rfl) <| setSeq_moves.after rfl <| with_free_moves.within rfl) <|
    moves_ite (setSeq_moves.after rfl <| seqFault_moves.after rfl <| setSeq_moves.within rfl) moves_rfl

theorem seqTouch_moves {n a : Nat} {s : State} :
    moves [.regs, .ctrs, .hdrs, .out, .free, .nvs, .links, .log, .cls, .buf, .mac, .ecc, .lfr, .act, .keys] s (seqTouch n a s).1 :=
  readRow_moves.within rfl

theorem seqStore_moves {n a : Nat} {l : List Byte} {s : State} :
    moves [.regs, .ctrs, .hdrs, .links, .seqs, .ecc] s (seqStore n a l s) :=
  wroteWord_moves.after rfl <| setSeq_moves.after rfl <| moves_ite (eccCount_moves.after rfl <| setSeq_moves.within rfl) moves_rfl

theorem fillLine_moves {n line : Nat} {s : State} :
    moves [.regs, .ctrs, .hdrs, .nvs, .links, .log, .seqs, .ecc] s (fillLine n line s) :=
  moves_ite (seqSep_moves.within rfl) <| wroteWord_moves.after rfl <| seqCount_moves.after rfl <| setSeq_moves.within rfl

theorem fetchLine_moves {n : Nat} {s : State} :
    moves [.regs, .ctrs, .hdrs, .out, .free, .nvs, .links, .log, .cls, .buf, .mac, .seqs, .ecc, .lfr, .act, .keys] s (fetchLine n s) := by
  unfold fetchLine
  dsimp only
  split
  · exact fillLine_moves.within rfl
  · exact moves_trans (readRow_moves.within rfl) <| moves_ite (fillLine_moves.within rfl) (setSeq_moves.within rfl)

theorem seqExec_moves {l : List Part} {n : Nat} {legal : Bool} {f : Nat → State → State} {s : State} (covered : covers [.regs, .ctrs,
    .hdrs, .out, .free, .nvs, .links, .log, .cls, .buf, .mac, .seqs, .ecc, .lfr, .act, .keys] l = true)
    (hf : ∀ n t, moves l t (f n t)) : moves l s (seqExec n legal f s) := by
  have fetched : ∀ n, moves [.regs, .ctrs, .hdrs, .out, .free, .nvs, .links, .log, .cls, .buf, .mac, .seqs, .ecc, .lfr, .act, .keys] s
    (fetchLine n s) := fun _ => fetchLine_moves.within rfl
  have faulted : ∀ n, moves [.regs, .ctrs, .hdrs, .out, .free, .nvs, .links, .log, .cls, .buf, .mac, .seqs, .ecc, .lfr, .act, .keys] s
    (seqFault n 3 s) := fun _ => seqFault_moves.within rfl
  have stopped : ∀ n t, moves [.regs, .ctrs, .hdrs, .out, .free, .nvs, .links, .log, .cls, .buf, .mac, .seqs, .ecc, .lfr, .act, .keys] t
    (seqIllegal n t) := fun _ _ => seqIllegal_moves.within rfl
  exact moves_ite moves_rfl <| moves_ite ((faulted _).within covered) <| moves_ite ((fetched _).within covered) <|
    moves_ite (moves_trans ((fetched _).within covered) (hf _ _)) <| (stopped _ _).after covered <| (fetched _).within covered

theorem seqAlu_moves {n : Nat} {legal : Bool} {rd : BitVec 5} {f : Seq → Word} {s : State} :
    moves [.regs, .ctrs, .hdrs, .out, .free, .nvs, .links, .log, .cls, .buf, .mac, .seqs, .ecc, .lfr, .act, .keys] s
      (seqAlu n legal rd f s) :=
  seqExec_moves rfl fun _ _ => seqNext_moves.after rfl <| setSeqReg_moves.within rfl

theorem execAdd_moves {n : Nat} {rd ra rb : BitVec 5} {s : State} :
    goes [.regs, .ctrs, .hdrs, .out, .free, .nvs, .links, .log, .cls, .buf, .mac, .seqs, .ecc, .lfr, .act, .keys] s
      (execAdd n rd ra rb s) :=
  goes_whenOn <| goes_next <| seqAlu_moves.within rfl

theorem execSub_moves {n : Nat} {rd ra rb : BitVec 5} {s : State} :
    goes [.regs, .ctrs, .hdrs, .out, .free, .nvs, .links, .log, .cls, .buf, .mac, .seqs, .ecc, .lfr, .act, .keys] s
      (execSub n rd ra rb s) :=
  goes_whenOn <| goes_next <| seqAlu_moves.within rfl

theorem execAnd_moves {n : Nat} {rd ra rb : BitVec 5} {s : State} :
    goes [.regs, .ctrs, .hdrs, .out, .free, .nvs, .links, .log, .cls, .buf, .mac, .seqs, .ecc, .lfr, .act, .keys] s
      (execAnd n rd ra rb s) :=
  goes_whenOn <| goes_next <| seqAlu_moves.within rfl

theorem execOr_moves {n : Nat} {rd ra rb : BitVec 5} {s : State} :
    goes [.regs, .ctrs, .hdrs, .out, .free, .nvs, .links, .log, .cls, .buf, .mac, .seqs, .ecc, .lfr, .act, .keys] s
      (execOr n rd ra rb s) :=
  goes_whenOn <| goes_next <| seqAlu_moves.within rfl

theorem execXor_moves {n : Nat} {rd ra rb : BitVec 5} {s : State} :
    goes [.regs, .ctrs, .hdrs, .out, .free, .nvs, .links, .log, .cls, .buf, .mac, .seqs, .ecc, .lfr, .act, .keys] s
      (execXor n rd ra rb s) :=
  goes_whenOn <| goes_next <| seqAlu_moves.within rfl

theorem execShl_moves {n : Nat} {rd ra rb : BitVec 5} {s : State} :
    goes [.regs, .ctrs, .hdrs, .out, .free, .nvs, .links, .log, .cls, .buf, .mac, .seqs, .ecc, .lfr, .act, .keys] s
      (execShl n rd ra rb s) :=
  goes_whenOn <| goes_next <| seqAlu_moves.within rfl

theorem execShr_moves {n : Nat} {rd ra rb : BitVec 5} {s : State} :
    goes [.regs, .ctrs, .hdrs, .out, .free, .nvs, .links, .log, .cls, .buf, .mac, .seqs, .ecc, .lfr, .act, .keys] s
      (execShr n rd ra rb s) :=
  goes_whenOn <| goes_next <| seqAlu_moves.within rfl

theorem execSra_moves {n : Nat} {rd ra rb : BitVec 5} {s : State} :
    goes [.regs, .ctrs, .hdrs, .out, .free, .nvs, .links, .log, .cls, .buf, .mac, .seqs, .ecc, .lfr, .act, .keys] s
      (execSra n rd ra rb s) :=
  goes_whenOn <| goes_next <| seqAlu_moves.within rfl

theorem execSltu_moves {n : Nat} {rd ra rb : BitVec 5} {s : State} :
    goes [.regs, .ctrs, .hdrs, .out, .free, .nvs, .links, .log, .cls, .buf, .mac, .seqs, .ecc, .lfr, .act, .keys] s
      (execSltu n rd ra rb s) :=
  goes_whenOn <| goes_next <| seqAlu_moves.within rfl

theorem execSlt_moves {n : Nat} {rd ra rb : BitVec 5} {s : State} :
    goes [.regs, .ctrs, .hdrs, .out, .free, .nvs, .links, .log, .cls, .buf, .mac, .seqs, .ecc, .lfr, .act, .keys] s
      (execSlt n rd ra rb s) :=
  goes_whenOn <| goes_next <| seqAlu_moves.within rfl

theorem execMul_moves {n : Nat} {rd ra rb : BitVec 5} {s : State} :
    goes [.regs, .ctrs, .hdrs, .out, .free, .nvs, .links, .log, .cls, .buf, .mac, .seqs, .ecc, .lfr, .act, .keys] s
      (execMul n rd ra rb s) :=
  goes_whenOn <| goes_next <| seqAlu_moves.within rfl

theorem execMulhu_moves {n : Nat} {rd ra rb : BitVec 5} {s : State} :
    goes [.regs, .ctrs, .hdrs, .out, .free, .nvs, .links, .log, .cls, .buf, .mac, .seqs, .ecc, .lfr, .act, .keys] s
      (execMulhu n rd ra rb s) :=
  goes_whenOn <| goes_next <| seqAlu_moves.within rfl

theorem execAddi_moves {n : Nat} {rd ra : BitVec 5} {imm : BitVec 16} {s : State} :
    goes [.regs, .ctrs, .hdrs, .out, .free, .nvs, .links, .log, .cls, .buf, .mac, .seqs, .ecc, .lfr, .act, .keys] s
      (execAddi n rd ra imm s) :=
  goes_whenOn <| goes_next <| seqAlu_moves.within rfl

theorem execAndi_moves {n : Nat} {rd ra : BitVec 5} {imm : BitVec 16} {s : State} :
    goes [.regs, .ctrs, .hdrs, .out, .free, .nvs, .links, .log, .cls, .buf, .mac, .seqs, .ecc, .lfr, .act, .keys] s
      (execAndi n rd ra imm s) :=
  goes_whenOn <| goes_next <| seqAlu_moves.within rfl

theorem execOri_moves {n : Nat} {rd ra : BitVec 5} {imm : BitVec 16} {s : State} :
    goes [.regs, .ctrs, .hdrs, .out, .free, .nvs, .links, .log, .cls, .buf, .mac, .seqs, .ecc, .lfr, .act, .keys] s
      (execOri n rd ra imm s) :=
  goes_whenOn <| goes_next <| seqAlu_moves.within rfl

theorem execXori_moves {n : Nat} {rd ra : BitVec 5} {imm : BitVec 16} {s : State} :
    goes [.regs, .ctrs, .hdrs, .out, .free, .nvs, .links, .log, .cls, .buf, .mac, .seqs, .ecc, .lfr, .act, .keys] s
      (execXori n rd ra imm s) :=
  goes_whenOn <| goes_next <| seqAlu_moves.within rfl

theorem execShli_moves {n : Nat} {rd ra : BitVec 5} {imm : BitVec 16} {s : State} :
    goes [.regs, .ctrs, .hdrs, .out, .free, .nvs, .links, .log, .cls, .buf, .mac, .seqs, .ecc, .lfr, .act, .keys] s
      (execShli n rd ra imm s) :=
  goes_whenOn <| goes_next <| seqAlu_moves.within rfl

theorem execShri_moves {n : Nat} {rd ra : BitVec 5} {imm : BitVec 16} {s : State} :
    goes [.regs, .ctrs, .hdrs, .out, .free, .nvs, .links, .log, .cls, .buf, .mac, .seqs, .ecc, .lfr, .act, .keys] s
      (execShri n rd ra imm s) :=
  goes_whenOn <| goes_next <| seqAlu_moves.within rfl

theorem execLui_moves {n : Nat} {rd : BitVec 5} {imm : BitVec 16} {s : State} :
    goes [.regs, .ctrs, .hdrs, .out, .free, .nvs, .links, .log, .cls, .buf, .mac, .seqs, .ecc, .lfr, .act, .keys] s
      (execLui n rd imm s) :=
  goes_whenOn <| goes_next <| seqAlu_moves.within rfl

theorem execSltiu_moves {n : Nat} {rd ra : BitVec 5} {imm : BitVec 16} {s : State} :
    goes [.regs, .ctrs, .hdrs, .out, .free, .nvs, .links, .log, .cls, .buf, .mac, .seqs, .ecc, .lfr, .act, .keys] s
      (execSltiu n rd ra imm s) := goes_whenOn <| goes_next <| seqAlu_moves.within rfl

theorem seqLoad_moves {k n : Nat} {rd ra : BitVec 5} {imm : BitVec 16} {s : State} :
    moves [.regs, .ctrs, .hdrs, .out, .free, .nvs, .links, .log, .cls, .buf, .mac, .seqs, .ecc, .lfr, .act, .keys] s
      (seqLoad k n rd ra imm s) :=
  seqExec_moves rfl fun _ _ => moves_ite (seqIllegal_moves.within rfl) <| moves_ite (seqFault_moves.after rfl <|
    seqTouch_moves.within rfl) <| seqNext_moves.after rfl <| setSeqReg_moves.after rfl <| seqTouch_moves.within rfl

theorem seqSave_moves {k n : Nat} {rs ra : BitVec 5} {imm : BitVec 16} {s : State} :
    moves [.regs, .ctrs, .hdrs, .out, .free, .nvs, .links, .log, .cls, .buf, .mac, .seqs, .ecc, .lfr, .act, .keys] s
      (seqSave k n rs ra imm s) :=
  seqExec_moves rfl fun _ _ => moves_ite (seqIllegal_moves.within rfl) <| seqNext_moves.after rfl <| seqStore_moves.within rfl

theorem execLw_moves {n : Nat} {rd ra : BitVec 5} {imm : BitVec 16} {s : State} :
    goes [.regs, .ctrs, .hdrs, .out, .free, .nvs, .links, .log, .cls, .buf, .mac, .seqs, .ecc, .lfr, .act, .keys] s
      (execLw n rd ra imm s) :=
  goes_whenOn <| goes_next <| seqLoad_moves.within rfl

theorem execLh_moves {n : Nat} {rd ra : BitVec 5} {imm : BitVec 16} {s : State} :
    goes [.regs, .ctrs, .hdrs, .out, .free, .nvs, .links, .log, .cls, .buf, .mac, .seqs, .ecc, .lfr, .act, .keys] s
      (execLh n rd ra imm s) :=
  goes_whenOn <| goes_next <| seqLoad_moves.within rfl

theorem execLb_moves {n : Nat} {rd ra : BitVec 5} {imm : BitVec 16} {s : State} :
    goes [.regs, .ctrs, .hdrs, .out, .free, .nvs, .links, .log, .cls, .buf, .mac, .seqs, .ecc, .lfr, .act, .keys] s
      (execLb n rd ra imm s) :=
  goes_whenOn <| goes_next <| seqLoad_moves.within rfl

theorem execSw_moves {n : Nat} {rs ra : BitVec 5} {imm : BitVec 16} {s : State} :
    goes [.regs, .ctrs, .hdrs, .out, .free, .nvs, .links, .log, .cls, .buf, .mac, .seqs, .ecc, .lfr, .act, .keys] s
      (execSw n rs ra imm s) :=
  goes_whenOn <| goes_next <| seqSave_moves.within rfl

theorem execSh_moves {n : Nat} {rs ra : BitVec 5} {imm : BitVec 16} {s : State} :
    goes [.regs, .ctrs, .hdrs, .out, .free, .nvs, .links, .log, .cls, .buf, .mac, .seqs, .ecc, .lfr, .act, .keys] s
      (execSh n rs ra imm s) :=
  goes_whenOn <| goes_next <| seqSave_moves.within rfl

theorem execSb_moves {n : Nat} {rs ra : BitVec 5} {imm : BitVec 16} {s : State} :
    goes [.regs, .ctrs, .hdrs, .out, .free, .nvs, .links, .log, .cls, .buf, .mac, .seqs, .ecc, .lfr, .act, .keys] s
      (execSb n rs ra imm s) :=
  goes_whenOn <| goes_next <| seqSave_moves.within rfl

theorem seqExt_moves {l : List Part} {n : Nat} {ra : BitVec 5} {imm : BitVec 16} {f : Nat → Nat → State → State} {s : State}
    (covered : covers [.regs, .ctrs, .hdrs, .out, .free, .nvs, .links, .log, .cls, .buf, .mac, .seqs, .ecc, .lfr, .act,
      .keys] l = true) (hf : ∀ n a t, moves l t (f n a t)) : moves l s (seqExt n ra imm f s) := by
  have base : covers [.regs, .ctrs, .hdrs, .out, .free, .nvs, .links, .log, .cls, .buf, .mac, .seqs, .ecc, .lfr, .act, .keys] l = true :=
    covers_trans rfl covered
  have stopped : ∀ n t, moves [.regs, .ctrs, .hdrs, .out, .free, .nvs, .links, .log, .cls, .buf, .mac, .seqs, .ecc, .lfr, .act, .keys] t
    (seqIllegal n t) := fun _ _ => seqIllegal_moves.within rfl
  have outside : ∀ n k c w t, moves [.regs, .ctrs, .hdrs, .out, .free, .nvs, .links, .log, .cls, .buf, .mac, .seqs, .ecc, .lfr, .act,
    .keys] t (seqSep n k c w t) := fun _ _ _ _ _ => seqSep_moves.within rfl
  exact seqExec_moves base fun _ _ => moves_ite ((stopped _ _).within covered) <|
    moves_ite ((outside _ _ _ _ _).within covered) (hf _ _ _)

theorem execLdx_moves {n : Nat} {rd ra : BitVec 5} {imm : BitVec 16} {s : State} :
    goes [.regs, .ctrs, .hdrs, .out, .free, .nvs, .links, .log, .cls, .buf, .mac, .seqs, .ecc, .lfr, .act, .keys] s
      (execLdx n rd ra imm s) :=
  goes_whenOn <| goes_next <| seqExt_moves rfl fun _ _ _ => setSeq_moves.within rfl

theorem execLdxReturn_moves {n : Nat} {s : State} : goes [.regs, .ctrs, .hdrs, .links, .seqs] s (execLdxReturn n s) := by
  refine goes_whenOn <| ?_
  dsimp only
  split
  · exact goes_next <| seqNext_moves.after rfl <| setSeq_moves.within rfl
  · exact goes_next moves_rfl

theorem execStx_moves {n : Nat} {rs ra : BitVec 5} {imm : BitVec 16} {s : State} :
    goes [.regs, .ctrs, .hdrs, .out, .free, .dram, .nvs, .links, .log, .cls, .buf, .mac, .seqs, .ecc, .lfr, .act, .keys] s
      (execStx n rs ra imm s) :=
  goes_whenOn <| goes_next <| seqExt_moves rfl fun _ _ _ => seqNext_moves.after rfl <| setDramWord_moves.within rfl

theorem seqBranch_moves {n : Nat} {a b : BitVec 5} {off : BitVec 16} {test : Word → Word → Bool} {s : State} :
    moves [.regs, .ctrs, .hdrs, .out, .free, .nvs, .links, .log, .cls, .buf, .mac, .seqs, .ecc, .lfr, .act, .keys] s
      (seqBranch n a b off test s) := seqExec_moves rfl fun _ _ => moves_ite (seqGoto_moves.within rfl) (seqNext_moves.within rfl)

theorem execBeq_moves {n : Nat} {a b : BitVec 5} {off : BitVec 16} {s : State} :
    goes [.regs, .ctrs, .hdrs, .out, .free, .nvs, .links, .log, .cls, .buf, .mac, .seqs, .ecc, .lfr, .act, .keys] s
      (execBeq n a b off s) :=
  goes_whenOn <| goes_next <| seqBranch_moves.within rfl

theorem execBne_moves {n : Nat} {a b : BitVec 5} {off : BitVec 16} {s : State} :
    goes [.regs, .ctrs, .hdrs, .out, .free, .nvs, .links, .log, .cls, .buf, .mac, .seqs, .ecc, .lfr, .act, .keys] s
      (execBne n a b off s) :=
  goes_whenOn <| goes_next <| seqBranch_moves.within rfl

theorem execBltu_moves {n : Nat} {a b : BitVec 5} {off : BitVec 16} {s : State} :
    goes [.regs, .ctrs, .hdrs, .out, .free, .nvs, .links, .log, .cls, .buf, .mac, .seqs, .ecc, .lfr, .act, .keys] s
      (execBltu n a b off s) :=
  goes_whenOn <| goes_next <| seqBranch_moves.within rfl

theorem execBgeu_moves {n : Nat} {a b : BitVec 5} {off : BitVec 16} {s : State} :
    goes [.regs, .ctrs, .hdrs, .out, .free, .nvs, .links, .log, .cls, .buf, .mac, .seqs, .ecc, .lfr, .act, .keys] s
      (execBgeu n a b off s) :=
  goes_whenOn <| goes_next <| seqBranch_moves.within rfl

theorem execJal_moves {n : Nat} {rd : BitVec 5} {off : BitVec 21} {s : State} :
    goes [.regs, .ctrs, .hdrs, .out, .free, .nvs, .links, .log, .cls, .buf, .mac, .seqs, .ecc, .lfr, .act, .keys] s
      (execJal n rd off s) :=
  goes_whenOn <| goes_next <| seqExec_moves rfl fun _ _ => seqGoto_moves.after rfl <| setSeqReg_moves.within rfl

theorem execJalr_moves {n : Nat} {rd ra : BitVec 5} {imm : BitVec 16} {s : State} :
    goes [.regs, .ctrs, .hdrs, .out, .free, .nvs, .links, .log, .cls, .buf, .mac, .seqs, .ecc, .lfr, .act, .keys] s
      (execJalr n rd ra imm s) :=
  goes_whenOn <| goes_next <| seqExec_moves rfl fun _ _ => moves_ite (seqIllegal_moves.within rfl) <| seqGoto_moves.after rfl <|
    setSeqReg_moves.within rfl

theorem execRdtime_moves {n : Nat} {rd : BitVec 5} {imm : BitVec 16} {s : State} :
    goes [.regs, .ctrs, .hdrs, .out, .free, .nvs, .links, .log, .cls, .buf, .mac, .seqs, .ecc, .lfr, .act, .keys] s
      (execRdtime n rd imm s) :=
  goes_whenOn <| goes_next <| seqExec_moves rfl fun _ _ => seqNext_moves.after rfl <| setSeqReg_moves.within rfl

theorem execTset_moves {n : Nat} {ra : BitVec 5} {imm : BitVec 16} {s : State} :
    goes [.regs, .ctrs, .hdrs, .out, .free, .nvs, .links, .log, .cls, .buf, .mac, .seqs, .ecc, .lfr, .act, .keys] s
      (execTset n ra imm s) :=
  goes_whenOn <| goes_next <| seqExec_moves rfl fun _ _ => seqNext_moves.after rfl <| setSeq_moves.within rfl

theorem waitDone_moves {n rd hit : Nat} {s : State} : moves [.regs, .ctrs, .hdrs, .links, .seqs] s (waitDone n rd hit s) :=
  seqNext_moves.after rfl <| setSeq_moves.within rfl

theorem execWait_moves {n : Nat} {rd : BitVec 5} {imm : BitVec 16} {s : State} :
    goes [.regs, .ctrs, .hdrs, .out, .free, .nvs, .links, .log, .cls, .buf, .mac, .seqs, .ecc, .lfr, .act, .keys] s
      (execWait n rd imm s) :=
  goes_whenOn <| goes_next <| seqExec_moves rfl fun _ _ => moves_ite (waitDone_moves.within rfl) (setSeq_moves.within rfl)

theorem execWaitReturn_moves {n : Nat} {s : State} : goes [.regs, .ctrs, .hdrs, .links, .seqs] s (execWaitReturn n s) := by
  refine goes_whenOn <| ?_
  dsimp only
  split
  · exact goes_next <| moves_ite (waitDone_moves.within rfl) moves_rfl
  · exact goes_next moves_rfl

theorem execWdog_moves {n : Nat} {s : State} :
    goes [.regs, .ctrs, .hdrs, .out, .free, .nvs, .links, .log, .cls, .buf, .mac, .seqs, .ecc, .lfr, .act, .keys] s (execWdog n s) :=
  goes_whenOn <| goes_next <| seqExec_moves rfl fun _ _ => seqNext_moves.after rfl <| setSeq_moves.within rfl

theorem execEvt_moves {n : Nat} {imm : BitVec 16} {s : State} :
    goes [.regs, .ctrs, .hdrs, .out, .free, .nvs, .links, .log, .cls, .buf, .mac, .seqs, .ecc, .lfr, .act, .keys] s (execEvt n imm s) :=
  goes_whenOn <| goes_next <| seqExec_moves rfl fun _ _ => seqNext_moves.after rfl <| raise_moves.after rfl <|
    bumpFld_moves.after rfl <| setFld_moves.within rfl

theorem execCnt_moves {n : Nat} {ra : BitVec 5} {imm : BitVec 16} {s : State} :
    goes [.regs, .ctrs, .hdrs, .out, .free, .nvs, .links, .log, .cls, .buf, .mac, .seqs, .ecc, .lfr, .act, .keys] s
      (execCnt n ra imm s) :=
  goes_whenOn <| goes_next <| seqExec_moves rfl fun _ _ => seqNext_moves.after rfl <| seqCount_moves.within rfl

theorem execSeqTimerFire_moves {n t : Nat} {s : State} : goes [.seqs] s (execSeqTimerFire n t s) :=
  goes_whenOn <| goes_ite (goes_next moves_rfl) <| goes_next <| setSeq_moves.within rfl

theorem execSeqWatchdog_moves {n : Nat} {s : State} :
    goes [.regs, .ctrs, .hdrs, .nvs, .links, .log, .seqs] s (execSeqWatchdog n s) := by
  have stopped : ∀ n, moves [.regs, .ctrs, .hdrs, .nvs, .links, .log, .seqs] s (raise (pSeq n) 2 (seqCount n 6 1 (seqFault n 5 s))) :=
    fun _ =>
    raise_moves.after rfl <| seqCount_moves.after rfl <| seqFault_moves.within rfl
  have again : ∀ n c t, moves [.regs, .ctrs, .hdrs, .nvs, .links, .log, .seqs] t (if c = true then seqStart n t else t) := fun _ _ _ =>
    moves_ite (seqStart_moves.within rfl) moves_rfl
  refine goes_whenOn ?_
  dsimp only
  split
  · exact goes_next <| moves_trans (stopped _) (again _ _ _)
  · exact goes_next <| moves_trans (stopped _) (again _ _ _)
  · exact goes_next moves_rfl

theorem seqSend_moves {n : Nat} {a b : Word} {s : State} : moves [.regs, .ctrs, .hdrs, .out, .free, .nvs, .links, .log, .cls, .buf, .mac,
    .ecc, .lfr, .act, .keys] s (seqSend n a b s).2 := by
  unfold seqSend
  dsimp only
  split
  · exact moves_rfl
  generalize h : List.foldl _ s _ = u
  have read : moves [.regs, .ctrs, .hdrs, .out, .free, .nvs, .links, .log, .cls, .buf, .mac, .ecc, .lfr, .act, .keys] s u :=
    h ▸ moves_foldl (fun _ _ => readRow_moves.within rfl) moves_rfl
  split
  · exact dropSepRef_moves.after rfl read
  split
  · exact dropSrc_moves.after rfl read
  split
  · exact enqueue_moves.after rfl read
  · dsimp only
    exact ingress_moves.after rfl read

theorem execFsend_moves {n : Nat} {rd ra rb : BitVec 5} {s : State} :
    goes (but [.pending, .snaps, .last, .clock, .era, .dram, .backup, .masters, .mbx, .keeper, .fw, .chk, .opt, .seg]) s
      (execFsend n rd ra rb s) :=
  goes_whenOn <| goes_next <| seqExec_moves rfl fun _ _ => wakeOn_moves.after rfl <| seqNext_moves.after rfl <|
    setSeqReg_moves.after rfl <| seqCount_moves.after rfl <| seqSend_moves.within rfl

theorem execRxhead_moves {n : Nat} {rd : BitVec 5} {s : State} :
    goes [.regs, .ctrs, .hdrs, .out, .free, .nvs, .links, .log, .cls, .buf, .mac, .seqs, .ecc, .lfr, .act, .keys] s (execRxhead n rd s) :=
  goes_whenOn <| goes_next <| seqAlu_moves.within rfl

theorem execRxfree_moves {n : Nat} {s : State} :
    goes [.regs, .ctrs, .hdrs, .out, .free, .nvs, .links, .log, .cls, .buf, .mac, .seqs, .ecc, .lfr, .act, .keys] s (execRxfree n s) :=
  goes_whenOn <| goes_next <| seqExec_moves rfl fun _ _ => seqNext_moves.after rfl <| setSeq_moves.within rfl

theorem seqChan_moves {l : List Part} {n c : Nat} {legal : Bool} {f : Nat → State → State} {s : State}
    (covered : covers [.regs, .ctrs, .hdrs, .out, .free, .nvs, .links, .log, .cls, .buf, .mac, .seqs, .ecc, .lfr, .act,
      .keys] l = true) (hf : ∀ n t, moves l t (f n t)) : moves l s (seqChan n c legal f s) := by
  have base : covers [.regs, .ctrs, .hdrs, .out, .free, .nvs, .links, .log, .cls, .buf, .mac, .seqs, .ecc, .lfr, .act, .keys] l = true :=
    covers_trans rfl covered
  have outside : ∀ n k c w t, moves [.regs, .ctrs, .hdrs, .out, .free, .nvs, .links, .log, .cls, .buf, .mac, .seqs, .ecc, .lfr, .act,
    .keys] t (seqSep n k c w t) := fun _ _ _ _ _ => seqSep_moves.within rfl
  exact seqExec_moves base fun _ _ => moves_ite (hf _ _) ((outside _ _ _ _ _).within covered)

theorem execCstart_moves {n : Nat} {ra : BitVec 5} {imm : BitVec 16} {s : State} :
    goes [.regs, .ctrs, .hdrs, .out, .free, .nvs, .links, .log, .cls, .buf, .mac, .chk, .seqs, .ecc, .lfr, .act, .keys] s
      (execCstart n ra imm s) :=
  goes_whenOn <| goes_next <| seqChan_moves rfl fun _ _ => seqNext_moves.after rfl <|
    moves_ite (chanReject_moves.within rfl) (chanStart_moves.within rfl)

theorem execCfeed_moves {n : Nat} {ra : BitVec 5} {imm : BitVec 16} {s : State} :
    goes [.regs, .ctrs, .hdrs, .out, .free, .nvs, .links, .log, .cls, .buf, .mac, .chk, .seqs, .ecc, .lfr, .act, .keys] s
      (execCfeed n ra imm s) :=
  goes_whenOn <| goes_next <| seqChan_moves rfl fun _ _ => seqNext_moves.after rfl <|
    moves_ite (chanReject_moves.within rfl) (chanFeed_moves.within rfl)

theorem execCres_moves {n : Nat} {rd : BitVec 5} {imm : BitVec 16} {s : State} :
    goes [.regs, .ctrs, .hdrs, .out, .free, .nvs, .links, .log, .cls, .buf, .mac, .chk, .seqs, .ecc, .lfr, .act, .keys] s
      (execCres n rd imm s) :=
  goes_whenOn <| goes_next <| seqChan_moves rfl fun _ _ => moves_ite (seqIllegal_moves.within rfl) <|
    moves_ite (seqNext_moves.after rfl <| setSeqReg_moves.within rfl) <| moves_ite (setSeq_moves.within rfl) <|
    seqNext_moves.after rfl <| chanReadEffect_moves.after rfl <| setSeqReg_moves.within rfl

theorem execCresReturn_moves {n : Nat} {s : State} : goes [.regs, .ctrs, .hdrs, .links, .chk, .seqs] s (execCresReturn n s) := by
  refine goes_whenOn <| ?_
  dsimp only
  split
  · exact goes_ite (goes_next moves_rfl) <| goes_next <| seqNext_moves.after rfl <| chanReadEffect_moves.after rfl <|
      setSeq_moves.within rfl
  · exact goes_next moves_rfl

theorem execHalt_moves {n : Nat} {s : State} :
    goes [.regs, .ctrs, .hdrs, .out, .free, .nvs, .links, .log, .cls, .buf, .mac, .seqs, .ecc, .lfr, .act, .keys] s (execHalt n s) :=
  goes_whenOn <| goes_next <| seqExec_moves rfl fun _ _ => raise_moves.after rfl <| setSeq_moves.after rfl <| seqNext_moves.within rfl

theorem execIllegalInstruction_moves {n : Nat} {w : Word} {s : State} :
    goes [.regs, .ctrs, .hdrs, .out, .free, .nvs, .links, .log, .cls, .buf, .mac, .seqs, .ecc, .lfr, .act, .keys] s
      (execIllegalInstruction n w s) := by
  refine goes_whenOn <| ?_
  split
  · exact goes_next moves_rfl
  · exact goes_next <| seqExec_moves rfl fun _ _ => moves_rfl

theorem execIcacheFill_moves {n : Nat} {s : State} :
    goes [.regs, .ctrs, .hdrs, .nvs, .links, .log, .seqs, .ecc] s (execIcacheFill n s) :=
  goes_whenOn <| goes_ite (goes_next moves_rfl) <| goes_next <| fillLine_moves.within rfl

theorem seqCtrlHandler_moves {n : Nat} : Handler.moves [.seqs] (seqCtrlHandler n) :=
  ⟨fun _ _ _ => moves_trans (moves_ite (seqStart_moves.within rfl) moves_rfl) <|
    moves_ite (setSeq_moves.within rfl) moves_rfl, fun _ => moves_rfl⟩

theorem execSeqRestart_moves {m : AB} {n : Nat} {s : State} :
    goes [.regs, .hdrs, .last, .nvs, .links, .masters, .fw, .log, .seqs] s (execSeqRestart m n s) :=
  goes_whenOn <| goes_next <| writeReg_moves seqCtrlHandler_moves rfl rfl

theorem execSeqInv_moves {m : AB} {n : Nat} {s : State} :
    goes [.regs, .hdrs, .last, .nvs, .links, .masters, .fw, .log, .seqs] s (execSeqInv m n s) :=
  goes_whenOn <| goes_next <| writeReg_moves seqCtrlHandler_moves rfl rfl

theorem seqCodeHandler_moves {n off : Nat} : Handler.moves [.regs, .nvs] (seqCodeHandler n off) :=
  ⟨fun _ _ _ => storeReg_moves.within rfl, fun _ => moves_rfl⟩

theorem seqBindHandler_moves {n i : Nat} : Handler.moves [.regs, .nvs] (seqBindHandler n i) :=
  ⟨fun _ _ _ => storeReg_moves.within rfl, fun _ => moves_rfl⟩

theorem dmemStep_moves {n : Nat} {s : State} : moves [.regs] s (dmemStep n s) := bumpFld_moves.within rfl

theorem dmemHandler_moves {n : Nat} : Handler.moves [.regs, .ctrs, .hdrs, .links, .seqs, .ecc] (dmemHandler n) :=
  ⟨fun _ _ _ => dmemStep_moves.after rfl <| seqStore_moves.within rfl, fun _ => moves_rfl⟩

theorem dmemRead_moves {m : AB} {n : Nat} {win : Option Nat} {s : State} :
    moves [.regs, .ctrs, .hdrs, .last, .out, .free, .nvs, .links, .masters, .log, .cls, .buf, .mac, .ecc, .lfr, .act, .keys] s
      (dmemRead m n win s) := runReadAt_moves rfl (fun _ => seqTouch_moves.within rfl) fun _ => dmemStep_moves.within rfl

theorem execDmemDataRead_moves {m : AB} {n : Nat} {s : State} :
    goes [.regs, .ctrs, .hdrs, .last, .out, .free, .nvs, .links, .masters, .log, .cls, .buf, .mac, .ecc, .lfr, .act, .keys] s
      (execDmemDataRead m n s) := goes_whenOn <| goes_next <| dmemRead_moves.within rfl

theorem execDmemDataWrite_moves {m : AB} {n : Nat} {v : Word} {s : State} :
    goes [.regs, .ctrs, .hdrs, .last, .nvs, .links, .masters, .fw, .log, .seqs, .ecc] s (execDmemDataWrite m n v s) :=
  goes_whenOn <| goes_next <| writeReg_moves dmemHandler_moves rfl rfl

theorem execChkResultRead_moves {m : AB} {n : Nat} {s : State} :
    goes [.regs, .hdrs, .last, .links, .masters, .chk] s (execChkResultRead m n s) :=
  goes_whenOn <| goes_next <| runReadAt_moves rfl (fun _ => moves_rfl) fun _ => chanReadEffect_moves.within rfl

/-! ### Moves of slices -/

theorem ownerHandler_moves {k : Nat} : Handler.moves [.regs, .nvs] (ownerHandler k) :=
  ⟨fun _ _ _ => storeReg_moves.within rfl, fun _ => moves_rfl⟩

theorem permitHandler_moves {i : Nat} : Handler.moves [.regs, .nvs] (permitHandler i) :=
  ⟨fun _ _ _ => storeReg_moves.within rfl, fun _ => moves_rfl⟩

theorem settleUnits_moves {old s : State} : moves [.regs, .ctrs, .hdrs, .out, .links, .mac, .chk, .seqs] s (settleUnits old s) :=
  moves_foldl (fun _ _ => moves_ite moves_rfl (setChan_moves.within rfl)) <| moves_foldl (fun _ _ => linkUpdate_moves.within rfl) <|
    seqSync_moves.within rfl

theorem allocHandler_moves {k off : Nat} :
    Handler.moves [.regs, .ctrs, .hdrs, .out, .nvs, .links, .buf, .mac, .chk, .seqs] (allocHandler k off) :=
  ⟨fun _ _ _ => moves_trans (cutCheck_moves.after rfl <| settleUnits_moves.after rfl <| storeReg_moves.within rfl) <|
    moves_ite (ringStop_moves.within rfl) moves_rfl, fun _ => moves_rfl⟩

theorem localOkHandler_moves {k : Nat} :
    Handler.moves [.regs, .ctrs, .hdrs, .out, .nvs, .links, .mac, .chk, .seqs] (localOkHandler k) :=
  ⟨fun _ _ _ => settleUnits_moves.after rfl <| storeReg_moves.within rfl, fun _ => moves_rfl⟩

theorem execOwnerMaskWrite_moves {m : AB} {slice mask : Nat} {s : State} :
    goes [.regs, .hdrs, .last, .nvs, .links, .masters, .fw, .log] s (execOwnerMaskWrite m slice mask s) :=
  goes_whenOn <| goes_next <| writeReg_moves ownerHandler_moves rfl rfl

theorem execXpermitWrite_moves {m : AB} {i : Nat} {v : Word} {s : State} :
    goes [.regs, .hdrs, .last, .nvs, .links, .masters, .fw, .log] s (execXpermitWrite m i v s) :=
  goes_whenOn <| goes_next <| writeReg_moves permitHandler_moves rfl rfl

theorem execSliceAllocWrite_moves {m : AB} {slice off : Nat} {v : Word} {s : State} :
    goes [.regs, .ctrs, .hdrs, .last, .out, .nvs, .links, .masters, .fw, .log, .buf, .mac, .chk, .seqs] s
      (execSliceAllocWrite m slice off v s) := goes_whenOn <| goes_next <| writeReg_moves allocHandler_moves rfl rfl

theorem dropLine_moves {r : Reason} {sel : Pkt → Bool} {s : State} :
    moves [.regs, .ctrs, .hdrs, .out, .links, .buf, .mac, .btx] s (dropLine r sel s) :=
  moves_foldl (fun _ _ => freeLine_moves.after rfl <| dropAt_moves.after rfl <| moves_ite (countFlushed_moves.within rfl) moves_rfl) <|
    setBtx_moves.after rfl <| setBtx_moves.within rfl

theorem flushSlice_moves {k : Nat} {s : State} :
    moves [.regs, .ctrs, .hdrs, .out, .links, .buf, .mac, .chk, .btx] s (flushSlice k s) :=
  moves_foldl (fun _ _ => flushTsq_moves.within rfl) <| moves_foldl (fun _ _ => chanInvalidate_moves.within rfl) <|
    dropLine_moves.after rfl <| moves_foldl (fun _ _ => flushPort_moves.within rfl) <|
    moves_foldl (fun _ _ => flushNode_moves.within rfl) <| moves_rfl

theorem flushLane_moves {n : Nat} {s : State} : moves [.regs, .ctrs, .hdrs, .links, .cls, .buf] s (flushLane n s) :=
  settleWaiting_moves.after rfl <| moves_foldl (fun _ _ => dropSrc_moves.within rfl) <| setLane_moves.within rfl

theorem flushMac_moves {n : Nat} {s : State} : moves [.regs, .ctrs, .hdrs, .out, .links, .buf, .mac] s (flushMac n s) :=
  moves_foldl (fun _ _ => flushPort_moves.within rfl) <| moves_foldl (fun _ _ => flushNode_moves.within rfl) <| moves_rfl

theorem flushSeg_moves {s : State} : moves [.regs, .ctrs, .hdrs, .links, .buf, .seg] s (flushSeg s) :=
  moves_foldl (fun _ _ => dropAt_moves.within rfl) <| with_seg_moves.within rfl

theorem flushBlock_moves {p : Nat} {s : State} :
    moves [.regs, .ctrs, .hdrs, .out, .links, .cls, .buf, .mac, .chk, .act, .btx, .omciUpQ, .seg] s (flushBlock p s) := by
  unfold flushBlock
  split
  · exact moves_rfl
  · split
    · exact flushMac_moves.within rfl
    · exact flushLane_moves.within rfl
    · exact moves_foldl (fun _ _ => flushNode_moves.within rfl) <| moves_rfl
    · exact chanInvalidate_moves.within rfl
    · exact btxFlush_moves.within rfl
    · exact flushSeg_moves.within rfl
    · exact moves_rfl

theorem settle_moves {old s : State} :
    moves [.regs, .ctrs, .hdrs, .out, .free, .power, .nvs, .links, .buf, .mac, .tsu, .chk, .seqs, .act, .btx, .psw, .omciUpQ] s
      (settle old s) := lineSettle_moves.after rfl <| settleUnits_moves.within rfl

theorem startDrain_moves {p : Nat} {s : State} :
    moves [.regs, .ctrs, .hdrs, .out, .free, .power, .nvs, .links, .cls, .buf, .mac, .tsu, .chk, .seqs, .act, .btx, .psw, .omciUpQ] s
      (startDrain p s) := by
  refine settle_moves.after rfl <| ?_
  split
  · exact moves_ite (laneRemove_moves.after rfl <| setHdr_moves.within rfl) (setHdr_moves.within rfl)
  · exact setHdr_moves.within rfl

theorem flushStamps_moves {p : Nat} {s : State} : moves [.regs, .ctrs, .hdrs, .links, .mac] s (flushStamps p s) := by
  unfold flushStamps
  split
  · exact moves_ite (flushTsq_moves.within rfl) moves_rfl
  · exact moves_rfl

theorem enterFlush_moves {p : Nat} {limited : Bool} {s : State} :
    moves (but [.pending, .snaps, .last, .clock, .era, .dram, .backup, .masters, .mbx, .keeper, .fw, .log, .ecc, .lfr, .opt, .keys]) s
      (enterFlush p limited s) := by
  refine settle_moves.after rfl <| ?_
  split
  · exact wp_moves.after rfl <| flushSlice_moves.after rfl <| setHdr_moves.within rfl
  · exact moves_ite (flushStamps_moves.after rfl <| flushBlock_moves.after rfl <| setHdr_moves.within rfl) <|
      flushBlock_moves.after rfl <| setHdr_moves.within rfl

theorem finishDrain_moves {p : Nat} {s : State} :
    moves [.regs, .ctrs, .hdrs, .out, .free, .power, .nvs, .links, .buf, .mac, .tsu, .chk, .seqs, .act, .btx, .psw, .omciUpQ] s
      (finishDrain p s) := by
  refine settle_moves.after rfl <| ?_
  split
  · exact raise_moves.after rfl <| wp_moves.after rfl <| setHdr_moves.within rfl
  · exact setHdr_moves.within rfl

theorem execDrainQueuesEmpty_moves {page : Nat} {s : State} :
    goes (but [.pending, .snaps, .last, .clock, .era, .dram, .backup, .masters, .mbx, .keeper, .fw, .log, .ecc, .lfr, .opt, .keys]) s
      (execDrainQueuesEmpty page s) := goes_whenOn <| goes_ite (goes_next <| enterFlush_moves.within rfl) <| goes_next moves_rfl

theorem execDrainLimitExpiry_moves {page : Nat} {s : State} :
    goes (but [.pending, .snaps, .last, .clock, .era, .dram, .backup, .masters, .mbx, .keeper, .fw, .log, .ecc, .lfr, .opt, .keys]) s
      (execDrainLimitExpiry page s) := goes_whenOn <| goes_ite (goes_next <| enterFlush_moves.within rfl) <| goes_next moves_rfl

theorem execFlushDone_moves {page : Nat} {s : State} :
    goes [.regs, .ctrs, .hdrs, .out, .free, .power, .nvs, .links, .buf, .mac, .tsu, .chk, .seqs, .act, .btx, .psw, .omciUpQ] s
      (execFlushDone page s) := goes_whenOn <| goes_ite (goes_next <| finishDrain_moves.within rfl) <| goes_next moves_rfl

/-! ### Moves of integrity -/

theorem fenceQueue_moves {b k : Nat} {s : State} :
    moves [.regs, .ctrs, .hdrs, .out, .free, .links, .buf, .mac] s (fenceQueue b k s) :=
  moves_ite moves_rfl <| freed_moves.after rfl <| moves_foldl (fun _ _ => poisoned_moves.within rfl) <| settleEmpty_moves.after rfl <|
    setQueue_moves.within rfl

theorem fencePort_moves {b n : Nat} {s : State} : moves [.regs, .ctrs, .hdrs, .out, .free, .links, .buf, .mac] s (fencePort b n s) :=
  moves_ite moves_rfl <| freed_moves.after rfl <| moves_foldl (fun _ _ => poisoned_moves.within rfl) <| setPort_moves.within rfl

theorem fenceBank_moves {b : Nat} {s : State} :
    moves [.regs, .ctrs, .hdrs, .out, .free, .nvs, .links, .log, .buf, .mac, .btx] s (fenceBank b s) :=
  moves_ite moves_rfl <| recordFault_moves.after rfl <| cutCheck_moves.after rfl <| raise_moves.after rfl <|
    with_buf_moves.after rfl <| dropLine_moves.after rfl <| moves_foldl (fun _ _ => fencePort_moves.within rfl) <|
    moves_foldl (fun _ _ => fenceQueue_moves.within rfl) <| moves_rfl

theorem unfenceBank_moves {b : Nat} {s : State} : moves [.regs, .hdrs, .nvs, .links, .log, .buf] s (unfenceBank b s) :=
  recordFault_moves.after rfl <| with_buf_moves.within rfl

theorem freeInFlight_moves {p : Nat} {i : PageInfo} {s : State} :
    moves [.regs, .ctrs, .hdrs, .out, .links, .cls, .buf, .mac, .chk, .act, .btx, .omciUpQ, .seg] s (freeInFlight p i s) := by
  unfold freeInFlight
  split
  · split
    · exact moves_rfl
    · exact freed_moves.after rfl <| macCount_moves.after rfl <| dropAt_moves.after rfl <| setPort_moves.within rfl
  · exact btxFlush_moves.within rfl
  · exact moves_rfl
  · exact flushBlock_moves.within rfl

theorem stuckUnit_moves {p unit code : Nat} {detail : Word} {s : State} :
    moves [.regs, .ctrs, .hdrs, .out, .nvs, .links, .log, .cls, .buf, .mac, .chk, .seqs, .act, .btx, .omciUpQ, .seg] s
      (stuckUnit p unit code detail s) := by
  unfold stuckUnit
  split
  · exact moves_rfl
  · refine moves_ite (recordFault_moves.within rfl) ?_
    split
    · exact moves_ite (laneFault_moves.after rfl <| recordFault_moves.within rfl) <| startUnitTest_moves.after rfl <|
        recordFault_moves.within rfl
    · exact seqFault_moves.after rfl <| recordFault_moves.within rfl
    · exact startUnitTest_moves.after rfl <| chanInvalidate_moves.after rfl <| recordFault_moves.within rfl
    · exact startUnitTest_moves.after rfl <| recordFault_moves.within rfl
    · exact startUnitTest_moves.after rfl <| recordFault_moves.within rfl
    · exact startUnitTest_moves.after rfl <| recordFault_moves.within rfl
    · exact startUnitTest_moves.after rfl <| recordFault_moves.within rfl
    · exact startUnitTest_moves.after rfl <| freeInFlight_moves.after rfl <| recordFault_moves.within rfl

theorem execHandshakeStuck_moves {page unit : Nat} {s : State} :
    goes (but [.pending, .snaps, .last, .clock, .era, .dram, .backup, .masters, .mbx, .keeper, .fw, .ecc, .lfr, .opt, .keys]) s
      (execHandshakeStuck page unit s) := by
  refine goes_whenOn <| ?_
  split
  · exact goes_next moves_rfl
  · exact goes_next <| settle_moves.after rfl <| stuckUnit_moves.within rfl

theorem fencePage_moves {p unit : Nat} {s : State} : moves [.regs, .hdrs, .nvs, .links, .log] s (fencePage p unit s) :=
  recordFault_moves.after rfl <| setHdr_moves.within rfl

theorem unfencePage_moves {p unit : Nat} {s : State} : moves [.regs, .hdrs, .nvs, .links, .log] s (unfencePage p unit s) :=
  recordFault_moves.after rfl <| setHdr_moves.within rfl

theorem unitTested_moves {p : Nat} {pass : Bool} {s : State} :
    moves [.regs, .ctrs, .hdrs, .out, .free, .nvs, .links, .log, .cls, .buf, .mac, .chk, .seqs, .btx] s (unitTested p pass s) := by
  unfold unitTested
  dsimp only
  split
  · exact moves_rfl
  · split
    · exact moves_ite (moves_trans (moves_ite (unfencePage_moves.within rfl) moves_rfl) <| moves_ite (raise_moves.after rfl <|
        laneReturn_moves.within rfl) moves_rfl) <| moves_trans (settleWaiting_moves.after rfl <| laneRemove_moves.after rfl <|
        redispatch_moves.within rfl) <| moves_ite moves_rfl <| fencePage_moves.after rfl <| raise_moves.within rfl
    · exact moves_ite (moves_ite (unfencePage_moves.within rfl) moves_rfl) <| moves_trans (setSeq_moves.within rfl) <|
        moves_ite moves_rfl (fencePage_moves.within rfl)
    · exact moves_ite (moves_ite (unfencePage_moves.within rfl) moves_rfl) <| moves_ite moves_rfl <| fencePage_moves.after rfl <|
        chanInvalidate_moves.within rfl
    · exact moves_ite (moves_ite moves_rfl (recordFault_moves.within rfl)) <|
        moves_ite (moves_ite (unfenceBank_moves.within rfl) moves_rfl) (fenceBank_moves.within rfl)
    · exact moves_ite moves_rfl (recordFault_moves.within rfl)

theorem execSelftestDone_moves {page : Nat} {pass : Bool} {detail : Nat} {s : State} :
    goes (but [.pending, .snaps, .last, .clock, .era, .dram, .backup, .masters, .mbx, .keeper, .fw, .ecc, .lfr, .opt, .keys, .seg]) s
      (execSelftestDone page pass detail s) :=
  goes_whenOn <| goes_ite (goes_next moves_rfl) <| goes_next <| settle_moves.after rfl <| unitTested_moves.after rfl <|
    moves_ite (moves_ite (addLog_moves.after rfl <| setHdr_moves.after rfl <| setTest_moves.within rfl) <| setHdr_moves.after rfl <|
    setTest_moves.within rfl) <| recordFault_moves.after rfl <| eccCount_moves.after rfl <| moves_ite (addLog_moves.after rfl <|
    setHdr_moves.after rfl <| setTest_moves.within rfl) <| setHdr_moves.after rfl <| setTest_moves.within rfl

theorem sparesOut_moves {l : MemLoc} {s : State} :
    moves [.regs, .ctrs, .hdrs, .out, .free, .nvs, .links, .log, .cls, .buf, .mac, .btx] s (sparesOut l s) :=
  moves_ite (fenceBank_moves.within rfl) <| moves_ite (laneFault_moves.within rfl) <| moves_ite (startUnitTest_moves.within rfl) <|
    recordFault_moves.after rfl <| raise_moves.after rfl <| recordFault_moves.within rfl

theorem remapRow_moves {l : MemLoc} {s : State} :
    moves [.regs, .ctrs, .hdrs, .out, .free, .nvs, .links, .log, .cls, .buf, .mac, .ecc, .btx] s (remapRow l s) :=
  moves_ite (sparesOut_moves.within rfl) <| nvQueue_moves.after rfl <| raise_moves.after rfl <| eccCount_moves.after rfl <|
    recordFault_moves.after rfl <| with_ecc_moves.within rfl

theorem execTargetedSelftestDone_moves {pass : Bool} {s : State} :
    goes (but [.pending, .snaps, .last, .clock, .era, .dram, .backup, .masters, .mbx, .keeper, .fw, .lfr, .opt, .keys, .seg]) s
      (execTargetedSelftestDone pass s) := by
  refine goes_whenOn <| ?_
  split
  · exact goes_next moves_rfl
  · exact goes_ite (goes_next <| settle_moves.after rfl <| remapRow_moves.after rfl <| moves_ite (addLog_moves.after rfl <|
      setTest_moves.after rfl <| with_ecc_moves.within rfl) <| eccCount_moves.after rfl <| addLog_moves.after rfl <|
      setTest_moves.after rfl <| with_ecc_moves.within rfl) <| goes_next <| moves_ite (addLog_moves.after rfl <|
      setTest_moves.after rfl <| with_ecc_moves.within rfl) <| eccCount_moves.after rfl <| addLog_moves.after rfl <|
      setTest_moves.after rfl <| with_ecc_moves.within rfl

theorem flipMemHandler_moves : Handler.moves [.regs, .nvs] flipMemHandler :=
  ⟨fun _ v s => storeReg_moves (p := pEcc) (off := 0x120) (v := v) (s := s), fun _ => moves_rfl⟩

theorem execFlipArm_moves {m : AB} {v : Word} {s : State} :
    goes [.regs, .hdrs, .last, .nvs, .links, .masters, .fw, .log] s (execFlipArm m v s) :=
  goes_whenOn <| goes_next <| writeReg_moves flipMemHandler_moves rfl rfl

theorem startTraining_moves {s : State} : moves [.regs] s (startTraining s) := wp_moves.within rfl

theorem execTrainComplete_moves {o : TrainOut} {s : State} : goes [.regs, .hdrs, .links] s (execTrainComplete o s) := by
  refine goes_whenOn <| goes_ite (goes_next moves_rfl) ?_
  split
  · exact goes_next <| raise_moves.after rfl <| wp_moves.after rfl <| wp_moves.after rfl <| wp_moves.within rfl
  · exact goes_next <| raise_moves.after rfl <| wp_moves.after rfl <| wp_moves.within rfl

theorem retrainHandler_moves : Handler.moves [.regs] retrainHandler :=
  ⟨fun _ _ _ => moves_ite (startTraining_moves.within rfl) moves_rfl, fun _ => moves_rfl⟩

theorem execRetrain_moves {m : AB} {s : State} : goes [.regs, .hdrs, .last, .nvs, .links, .masters, .fw, .log] s (execRetrain m s) :=
  goes_whenOn <| goes_next <| writeReg_moves retrainHandler_moves rfl rfl

theorem reserveHandler_moves {off : Nat} : Handler.moves [.regs, .nvs] (reserveHandler off) :=
  ⟨fun _ _ _ => storeReg_moves.within rfl, fun _ => moves_rfl⟩

theorem execThermalWarn_moves {tj : Nat} {s : State} : goes [.regs, .hdrs, .links] s (execThermalWarn tj s) :=
  goes_whenOn <| goes_next <| moves_ite (raise_moves.after rfl <| setFld_moves.within rfl) (setFld_moves.within rfl)

/-! ### Moves of blocks and their headers -/

theorem setHold_moves {p : Nat} {on : Bool} {s : State} : moves [.hdrs, .power] s (setHold p on s) :=
  moves_trans (setHdr_moves.within rfl) <| moves_ite (with_power_moves.within rfl) moves_rfl

theorem enablePage_moves {p : Nat} {s : State} : moves [.regs, .ctrs, .hdrs, .out, .links, .cls, .buf] s (enablePage p s) := by
  unfold enablePage
  dsimp only
  split
  · exact moves_ite (laneReturn_moves.after rfl <| setHdr_moves.within rfl) (setHdr_moves.within rfl)
  · exact setHdr_moves.within rfl

theorem resetWork_moves {p : Nat} {i : PageInfo} {s : State} :
    moves (but [.pending, .snaps, .last, .clock, .era, .dram, .backup, .masters, .keeper, .fw, .log, .ecc]) s (resetWork p i s) := by
  unfold resetWork
  split
  · exact flushLane_moves.after rfl <| laneRemove_moves.within rfl
  · exact mbxBlockReset_moves.within rfl
  · exact lfrBlockReset_moves.within rfl
  · exact actBlockReset_moves.within rfl
  · exact forgetModule_moves.after rfl <| abortAll_moves.within rfl
  · exact seqStop_moves.within rfl
  · exact setChan_moves.within rfl
  · exact flushTsq_moves.after rfl <| flushBlock_moves.within rfl
  · exact flushBlock_moves.within rfl

theorem startReset_moves {p : Nat} {s : State} :
    moves (but [.pending, .snaps, .last, .clock, .era, .dram, .backup, .masters, .keeper, .fw, .ecc]) s (startReset p s) := by
  unfold startReset
  split
  · exact moves_rfl
  · exact resetWork_moves.after rfl <| setHdr_moves.after rfl <| moves_ite (addLog_moves.within rfl) moves_rfl

theorem ctrlHandler_moves {p : Nat} :
    Handler.moves (but [.pending, .snaps, .last, .clock, .era, .dram, .backup, .masters, .keeper, .fw, .ecc]) (ctrlHandler p) := by
  refine ⟨fun _ _ _ => moves_ite (settle_moves.after rfl <| startReset_moves.within rfl) <| settle_moves.after rfl <|
    ?_, fun _ => moves_rfl⟩
  split
  · exact moves_ite (enablePage_moves.after rfl <| moves_ite (setHold_moves.within rfl) moves_rfl) <|
      moves_ite (setHold_moves.within rfl) moves_rfl
  · exact moves_ite (startDrain_moves.after rfl <| moves_ite (setHold_moves.within rfl) moves_rfl) <|
      moves_ite (setHold_moves.within rfl) moves_rfl
  · exact moves_ite (setHold_moves.within rfl) moves_rfl

theorem resetRegsOf_moves {sel : Nat → Bool} {s : State} : moves [.regs] s (resetRegsOf sel s) :=
  moves_foldl (fun _ _ => moves_ite wr_moves moves_rfl) <| remap_regs_moves fun _ => by split <;> rfl

theorem resetParts_moves {i : PageInfo} {s : State} : moves [.mbx, .mac, .chk, .seqs] s (resetParts i s) := by
  unfold resetParts
  split
  · exact setPort_moves.within rfl
  · exact setSeq_moves.within rfl
  · exact setChan_moves.within rfl
  · exact setBox_moves.within rfl
  · exact moves_rfl

theorem resetPage_moves {p : Nat} {i : PageInfo} {s : State} : moves [.regs, .ctrs, .mbx, .mac, .chk, .seqs] s (resetPage p i s) :=
  filter_ctrs_moves.after rfl <| resetRegsOf_moves.after rfl <| resetParts_moves.within rfl

theorem execBlockResetDone_moves {page : Nat} {s : State} :
    goes (but [.pending, .snaps, .last, .clock, .era, .dram, .backup, .masters, .keeper, .fw, .log, .ecc, .opt, .seg]) s
      (execBlockResetDone page s) := by
  refine goes_whenOn <| goes_ite (goes_next moves_rfl) ?_
  split
  · exact goes_next moves_rfl
  · refine goes_next <| settle_moves.after rfl <| ?_
    split
    · exact laneReturn_moves.after rfl <| pendChanged_moves.after rfl <| setHdr_moves.after rfl <| resetPage_moves.within rfl
    · exact leaveOff_moves.after rfl <| pendChanged_moves.after rfl <| setHdr_moves.after rfl <| resetPage_moves.within rfl
    · exact pendChanged_moves.after rfl <| setHdr_moves.after rfl <| resetPage_moves.within rfl

theorem clearInts_moves {p : Nat} {v : Word} {s : State} : moves [.hdrs, .links] s (clearInts p v s) :=
  moves_foldl (fun _ _ => moves_ite (raise_moves.within rfl) moves_rfl) <| pendChanged_moves.after rfl <| setHdr_moves.within rfl

theorem setIntEnable_moves {p : Nat} {v : Word} {s : State} : moves [.hdrs, .links] s (setIntEnable p v s) :=
  pendChanged_moves.after rfl <| setHdr_moves.within rfl

theorem clearFault_moves {p : Nat} {s : State} : moves [.hdrs] s (clearFault p s) := setHdr_moves.within rfl

theorem startTest_moves {p unit : Nat} {s : State} : moves [.regs, .ctrs, .hdrs, .out, .links, .cls, .buf] s (startTest p unit s) := by
  refine moves_ite moves_rfl <| setHdr_moves.after rfl <| eccCount_moves.after rfl <| setTest_moves.after rfl <| ?_
  split
  · exact moves_ite (laneRemove_moves.within rfl) moves_rfl
  · exact moves_rfl

theorem testHandler_moves {p : Nat} : Handler.moves [.regs, .ctrs, .hdrs, .out, .links, .cls, .buf] (testHandler p) :=
  ⟨fun _ _ _ => moves_trans (setHdr_moves.within rfl) <| moves_ite (startTest_moves.within rfl) moves_rfl, fun _ => moves_rfl⟩

theorem lockHandler_moves {p : Nat} : Handler.moves [.hdrs] (lockHandler p) := ⟨fun _ _ _ => setHdr_moves.within rfl, fun _ => moves_rfl⟩

theorem headerHandler_moves {p off : Nat} : Handler.moves (but [.pending, .snaps, .last, .clock, .era, .dram, .backup, .masters, .keeper,
    .fw, .ecc]) (headerHandler p off) := by
  have enable : Handler.moves (but [.pending, .snaps, .last, .clock, .era, .dram, .backup, .masters, .keeper, .fw,
    .ecc]) { plain p off with run := fun _ v s => setIntEnable p v s } :=
    ⟨fun _ _ _ => setIntEnable_moves.within rfl, fun _ => moves_rfl⟩
  have clear : Handler.moves (but [.pending, .snaps, .last, .clock, .era, .dram, .backup, .masters, .keeper, .fw,
    .ecc]) { plain p off with run := fun _ v s => clearInts p v s } :=
    ⟨fun _ _ _ => clearInts_moves.within rfl, fun _ => moves_rfl⟩
  exact handler_ite (ctrlHandler_moves.within rfl) <| handler_ite enable <| handler_ite clear <|
    handler_ite (testHandler_moves.within rfl) <| handler_ite (lockHandler_moves.within rfl) ⟨fun _ _ _ => moves_rfl, fun _ => moves_rfl⟩

theorem headerWrite_moves {m : AB} {p off : Nat} {v : Word} {s : State} :
    moves (but [.pending, .snaps, .clock, .era, .dram, .backup, .keeper, .ecc]) s (headerWrite m p off v s) :=
  runWrite_moves headerHandler_moves rfl rfl

theorem execBlockEnable_moves {m : AB} {page : Nat} {s : State} :
    goes (but [.pending, .snaps, .clock, .era, .dram, .backup, .keeper, .ecc]) s (execBlockEnable m page s) :=
  goes_whenOn <| goes_next <| headerWrite_moves.within rfl

theorem execBlockDrain_moves {m : AB} {page : Nat} {byEnable : Bool} {s : State} :
    goes (but [.pending, .snaps, .clock, .era, .dram, .backup, .keeper, .ecc]) s (execBlockDrain m page byEnable s) :=
  goes_whenOn <| goes_next <| headerWrite_moves.within rfl

theorem execBlockReset_moves {m : AB} {page : Nat} {s : State} :
    goes (but [.pending, .snaps, .clock, .era, .dram, .backup, .keeper, .ecc]) s (execBlockReset m page s) :=
  goes_whenOn <| goes_next <| headerWrite_moves.within rfl

theorem execLocalHoldRelease_moves {m : AB} {page : Nat} {s : State} :
    goes (but [.pending, .snaps, .clock, .era, .dram, .backup, .keeper, .ecc]) s (execLocalHoldRelease m page s) :=
  goes_whenOn <| goes_next <| headerWrite_moves.within rfl

theorem execFaultDetailRead_moves {m : AB} {page : Nat} {s : State} :
    goes [.regs, .hdrs, .last, .masters] s (execFaultDetailRead m page s) :=
  goes_whenOn <| goes_next <| runRead_moves rfl fun _ => clearFault_moves.within rfl

theorem execSelftestStart_moves {m : AB} {page unit : Nat} {s : State} :
    goes (but [.pending, .snaps, .clock, .era, .dram, .backup, .keeper, .ecc]) s (execSelftestStart m page unit s) :=
  goes_whenOn <| goes_next <| headerWrite_moves.within rfl

theorem execIntClear_moves {m : AB} {page : Nat} {v : Word} {s : State} :
    goes (but [.pending, .snaps, .clock, .era, .dram, .backup, .keeper, .ecc]) s (execIntClear m page v s) :=
  goes_whenOn <| goes_next <| headerWrite_moves.within rfl

theorem takeSnap_moves {m : AB} {a : Nat} {s : State} : moves [.snaps] s (takeSnap m a s) :=
  moves_foldl (fun _ _ => setSnap_moves.within rfl) <| moves_rfl

theorem execCounterHiRead_moves {m : AB} {page i : Nat} {s : State} :
    goes [.regs, .snaps, .last, .masters] s (execCounterHiRead m page i s) := by
  refine goes_whenOn <| ?_
  split
  · exact goes_next moves_rfl
  · exact goes_next <| runRead_moves rfl fun _ => takeSnap_moves.within rfl

theorem execRtcHiRead_moves {m : AB} {s : State} : goes [.regs, .snaps, .last, .masters] s (execRtcHiRead m s) :=
  goes_whenOn <| goes_next <| runRead_moves rfl fun _ => takeSnap_moves.within rfl

theorem execSfcHiRead_moves {m f : AB} {s : State} : goes [.regs, .snaps, .last, .masters] s (execSfcHiRead m f s) :=
  goes_whenOn <| goes_next <| runRead_moves rfl fun _ => takeSnap_moves.within rfl

theorem execTsuTimeRead_moves {m : AB} {s : State} : goes [.regs, .snaps, .last, .masters] s (execTsuTimeRead m s) :=
  goes_whenOn <| goes_next <| runRead_moves rfl fun _ => takeSnap_moves.within rfl

/-! ### Moves of the backup domain -/

theorem bkpChanged_moves {s : State} : moves [.backup] s (bkpChanged s) := with_backup_moves.within rfl

theorem tamper_moves {ev detail : Nat} {s : State} : moves [.regs, .hdrs, .backup, .links] s (tamper ev detail s) :=
  moves_trans (bkpChanged_moves.after rfl <| with_backup_moves.after rfl <| bump_moves.after rfl <| wp_moves.after rfl <|
    wp_moves.after rfl <| wp_moves.within rfl) <| moves_ite (raise_moves.within rfl) (with_backup_moves.within rfl)

theorem tokenSettle_moves {old s : State} : moves [.hdrs, .links] s (tokenSettle old s) :=
  moves_ite moves_rfl <| moves_trans (moves_ite (raise_moves.within rfl) <| moves_ite (raise_moves.within rfl) moves_rfl) <|
    moves_ite (raise_moves.within rfl) moves_rfl

theorem closeWindow_moves {s : State} : moves [.hdrs, .backup, .links] s (closeWindow s) :=
  tokenSettle_moves.after rfl <| with_backup_moves.within rfl

theorem execPresencePress_moves {s : State} : goes [.regs, .hdrs, .backup, .links] s (execPresencePress s) :=
  goes_ite (goes_next <| bkpChanged_moves.after rfl <| bump_moves.within rfl) <| goes_next <| tokenSettle_moves.after rfl <|
    with_backup_moves.after rfl <| bkpChanged_moves.after rfl <| bump_moves.within rfl

theorem execPressWindowExpiry_moves {s : State} : goes [.hdrs, .backup, .links] s (execPressWindowExpiry s) :=
  goes_whenOn <| goes_next <| closeWindow_moves.within rfl

theorem prsCloseHandler_moves : Handler.moves [.hdrs, .backup, .links] prsCloseHandler :=
  ⟨fun _ _ _ => moves_ite (closeWindow_moves.within rfl) moves_rfl, fun _ => moves_rfl⟩

theorem execPrsClose_moves {m : AB} {s : State} :
    goes [.regs, .hdrs, .last, .backup, .nvs, .links, .masters, .fw, .log] s (execPrsClose m s) :=
  goes_whenOn <| goes_next <| writeReg_moves prsCloseHandler_moves rfl rfl

theorem prsCfgHandler_moves : Handler.moves [.regs, .hdrs, .nvs, .links] prsCfgHandler :=
  ⟨fun _ _ _ => tokenSettle_moves.after rfl <| storeReg_moves.within rfl, fun _ => moves_rfl⟩

theorem setSeal_moves {n : Nat} {s : State} : moves [.regs, .hdrs, .backup, .links] s (setSeal n s) :=
  moves_ite (with_backup_moves.after rfl <| moves_ite moves_rfl <| bkpChanged_moves.after rfl <| setFld_moves.within rfl) <|
    moves_ite moves_rfl <| raise_moves.after rfl <| moves_ite moves_rfl <| bkpChanged_moves.after rfl <| setFld_moves.within rfl

theorem badPair_moves {before after : Bool} {s : State} : moves [.regs, .hdrs, .free, .backup, .links] s (badPair before after s) :=
  moves_trans (with_backup_moves.within rfl) <| moves_ite moves_rfl <| moves_trans (setSeal_moves.within rfl) <|
    moves_ite (tamper_moves.after rfl <| takeFree_moves.within rfl) (tamper_moves.within rfl)

theorem execSealPulse_moves {before after strap : Bool} {s : State} :
    goes [.regs, .hdrs, .free, .backup, .links] s (execSealPulse before after strap s) :=
  goes_next <| tokenSettle_moves.after rfl <| moves_ite (tamper_moves.after rfl <| setFlag_moves.after rfl <|
    moves_ite (moves_trans (with_backup_moves.after rfl <| setFlag_moves.within rfl) <|
    moves_ite (tamper_moves.within rfl) moves_rfl) <| badPair_moves.after rfl <| setFlag_moves.within rfl) <|
    with_backup_moves.after rfl <| setFlag_moves.after rfl <| moves_ite (moves_trans (with_backup_moves.after rfl <|
    setFlag_moves.within rfl) <| moves_ite (tamper_moves.within rfl) moves_rfl) <| badPair_moves.after rfl <| setFlag_moves.within rfl

theorem execSealPeriodWrite_moves {m : AB} {v : Word} {s : State} :
    goes [.regs, .hdrs, .last, .nvs, .links, .masters, .fw, .log] s (execSealPeriodWrite m v s) :=
  goes_whenOn <| goes_next <| writeReg_moves plain_moves rfl rfl

theorem sealAckHandler_moves : Handler.moves [.regs, .hdrs, .backup, .links] sealAckHandler :=
  ⟨fun _ _ _ => moves_ite (tokenSettle_moves.after rfl <| tamper_moves.after rfl <|
    setSeal_moves.within rfl) moves_rfl, fun _ => moves_rfl⟩

theorem execSealAck_moves {m : AB} {s : State} :
    goes [.regs, .hdrs, .last, .backup, .nvs, .links, .masters, .fw, .log] s (execSealAck m s) :=
  goes_whenOn <| goes_next <| writeReg_moves sealAckHandler_moves rfl rfl

theorem tamperClrHandler_moves : Handler.moves [.regs, .hdrs, .backup, .links] tamperClrHandler :=
  ⟨fun _ _ _ => moves_ite (tamper_moves.after rfl <| moves_foldl (fun _ _ => setFlag_moves.within rfl) <|
    moves_rfl) moves_rfl, fun _ => moves_rfl⟩

theorem execTamperClear_moves {m : AB} {s : State} :
    goes [.regs, .hdrs, .last, .backup, .nvs, .links, .masters, .fw, .log] s (execTamperClear m s) :=
  goes_whenOn <| goes_next <| writeReg_moves tamperClrHandler_moves rfl rfl

theorem lostWord_moves {s : State} {a : Nat} : moves [.regs, .free] s (lostWord s a) :=
  moves_ite (takeFree_moves.after rfl <| takeFree_moves.within rfl) <| wr_moves.after rfl <| takeFree_moves.after rfl <|
    takeFree_moves.within rfl

/-- The registers less some of them, with another power and backup state. -/
theorem filter_regs_moves {f : Nat × Word → Bool} {x : PowerSt} {y : BackupSt} {s : State} :
    moves [.regs, .power, .backup] s { s with regs := s.regs.filter f, power := x, backup := y } := by
  refine ⟨fun q h => by cases q <;> simp_all [Part.same], fun h => ?_⟩
  obtain ⟨regs, ctrs, hdrs, dram⟩ := canonical_iff.mp h
  exact canonical_iff.mpr ⟨tblWfFrom_filter f 0 _ regs, ctrs, hdrs, dram⟩

theorem execBackupPowerUp_moves {s : State} : goes [.regs, .hdrs, .free, .power, .backup, .links] s (execBackupPowerUp s) := by
  refine goes_ite (goes_next moves_rfl) <| goes_next <| moves_foldl (fun _ _ => lostWord_moves.within rfl) ?_
  exact tamper_moves.after rfl <| wp_moves.after rfl <| wp_moves.after rfl <| wp_moves.after rfl <| filter_regs_moves.within rfl

theorem measureVbat_moves {mv : Nat} {s : State} : moves [.regs, .hdrs, .links] s (measureVbat mv s) :=
  moves_trans (setFlag_moves.after rfl <| wp_moves.within rfl) <| moves_ite (raise_moves.within rfl) moves_rfl

theorem execVbatMeasure_moves {mv : Nat} {s : State} : goes [.regs, .hdrs, .links] s (execVbatMeasure mv s) :=
  goes_whenOn <| goes_ite (goes_next <| measureVbat_moves.within rfl) <| goes_next moves_rfl

theorem execRtcLineLoad_moves {s : State} : goes [.regs, .backup] s (execRtcLineLoad s) :=
  goes_whenOn <| goes_ite (goes_next <| rtcFromTsu_moves.within rfl) <| goes_next moves_rfl

theorem rtcSetHandler_moves : Handler.moves [.regs, .backup, .nvs] rtcSetHandler :=
  ⟨fun _ _ _ => bkpChanged_moves.after rfl <| setFlag_moves.after rfl <| with_backup_moves.after rfl <|
    storeReg_moves.within rfl, fun _ => moves_rfl⟩

theorem execRtcSet_moves {m : AB} {v : Word} {s : State} :
    goes [.regs, .hdrs, .last, .backup, .nvs, .links, .masters, .fw, .log] s (execRtcSet m v s) :=
  goes_whenOn <| goes_next <| writeReg_moves rtcSetHandler_moves rfl rfl

theorem rtcTick_moves {s : State} : moves [.backup] s (rtcTick s) := by
  unfold rtcTick
  exact moves_ite with_backup_moves with_backup_moves

theorem writeCopy_moves {c : Nat} {l : List Word} {s : State} : moves [.regs] s (writeCopy c l s) :=
  moves_foldl (fun _ _ => wp_moves.within rfl) <| moves_rfl

theorem writeRecord_moves {s : State} : moves [.regs, .backup] s (writeRecord s) :=
  with_backup_moves.after rfl <| wp_moves.after rfl <| writeCopy_moves.within rfl

theorem tearRecord_moves {s : State} : moves [.regs, .free] s (tearRecord s) :=
  moves_ite (writeCopy_moves.after rfl <| takeFree_moves.after rfl <| takeFree_moves.within rfl) (takeFree_moves.within rfl)

theorem execBackupRecordWrite_moves {s : State} : goes [.regs, .backup] s (execBackupRecordWrite s) :=
  goes_whenOn <| goes_ite (goes_next <| writeRecord_moves.within rfl) <| goes_next moves_rfl

theorem restoreCounts_moves {src : List Nat} {s : State} : moves [.regs, .backup] s (restoreCounts src s) :=
  bkpChanged_moves.after rfl <| with_backup_moves.after rfl <| moves_foldl (fun _ _ => wp_moves.within rfl) <| moves_rfl

/-- `startRecord` is unfolded as a function: on `startRecord s` the kernel would compute the CRC of the stored record. -/
theorem startRecord_moves {s : State} : moves [.regs, .hdrs, .backup, .links] s (startRecord s) := by
  generalize h : startRecord = f
  delta startRecord at h
  subst h
  beta_reduce
  extract_lets a src s1 s2
  have chosen : moves [.regs, .hdrs, .backup, .links] s s1 := by
    unfold s1
    cases src
    · exact setFld_moves.within rfl
    · exact moves_trans (setFld_moves.within rfl) <| moves_ite moves_rfl <| tamper_moves.after rfl <| setFlag_moves.within rfl
  have counted : moves [.regs, .hdrs, .backup, .links] s s2 := moves_trans chosen <| moves_ite (restoreCounts_moves.within rfl) moves_rfl
  clear_value s2
  cases rtcInvalid src s2
  · exact setFlag_moves.after rfl counted
  · exact raise_moves.after rfl <| tamper_moves.after rfl <| setFlag_moves.after rfl counted

/-! ### Moves of the voltage loop -/

theorem vhistEntry_moves {v : Nat} {up failed : Bool} {why : VReason} {unit : Nat} {s : State} :
    moves [.regs, .power] s (vhistEntry v up failed why unit s) := with_power_moves.after rfl <| wp_moves.after rfl <| wp_moves.within rfl

theorem pmbSend_moves {code : Nat} {data : List Byte} {s : State} : moves [.out] s (pmbSend code data s) := emit_moves.within rfl

theorem sendStep_moves {st : VStep} {s : State} : moves [.out, .power] s (sendStep st s) :=
  pmbSend_moves.after rfl <| with_power_moves.within rfl

theorem request_moves {v : Nat} {up : Bool} {why : VReason} {unit : Nat} {s : State} :
    moves [.out, .power] s (request v up why unit s) := moves_ite moves_rfl (sendStep_moves.within rfl)

theorem autoStep_moves {s : State} : moves [.out, .power] s (autoStep s) :=
  moves_ite (request_moves.within rfl) <| moves_ite (request_moves.within rfl) <| moves_ite (request_moves.within rfl) <|
    moves_ite (request_moves.within rfl) moves_rfl

theorem fixedStep_moves {s : State} : moves [.out, .power] s (fixedStep s) :=
  moves_ite (request_moves.within rfl) <| moves_ite (request_moves.within rfl) moves_rfl

theorem execLoopPeriod_moves {s : State} : goes [.hdrs, .out, .power, .links] s (execLoopPeriod s) := by
  refine goes_whenOn <| goes_next <| ?_
  split
  · exact autoStep_moves.after rfl <| with_power_moves.after rfl <| with_power_moves.after rfl <|
      moves_ite (raise_moves.within rfl) moves_rfl
  · exact fixedStep_moves.after rfl <| with_power_moves.after rfl <| with_power_moves.after rfl <|
      moves_ite (raise_moves.within rfl) moves_rfl
  · exact with_power_moves.after rfl <| with_power_moves.after rfl <| moves_ite (raise_moves.within rfl) moves_rfl

theorem storePace_moves {units : List (Nat × Nat)} {s : State} : moves [.regs] s (storePace units s) :=
  moves_foldl (fun _ _ => wr_moves.within rfl) <| moves_rfl

theorem execPaceWindow_moves {units : List (Nat × Nat)} {s : State} : goes [.regs, .out, .power] s (execPaceWindow units s) :=
  goes_whenOn <| goes_ite (goes_next <| request_moves.after rfl <| with_power_moves.after rfl <| storePace_moves.within rfl) <|
    goes_next <| with_power_moves.after rfl <| storePace_moves.within rfl

theorem showVout_moves {n : Nat} {s : State} : moves [.regs] s (showVout n s) := setFld_moves.within rfl

theorem applyDeferred_moves {s : State} : moves [.regs, .hdrs, .power, .nvs, .links] s (applyDeferred s) :=
  moves_foldl (fun _ _ => storeReg_moves.within rfl) <| with_power_moves.within rfl

theorem execVstepAck_moves {readVout statusWord : Nat} {s : State} :
    goes [.regs, .hdrs, .out, .power, .nvs, .links] s (execVstepAck readVout statusWord s) := by
  unfold execVstepAck
  split
  · exact goes_next moves_rfl
  · exact goes_ite (goes_next <| setFld_moves.after rfl <| showVout_moves.after rfl <| pmbSend_moves.after rfl <|
      pmbSend_moves.after rfl <| with_power_moves.within rfl) <| goes_next <| applyDeferred_moves.after rfl <| raise_moves.after rfl <|
      vhistEntry_moves.after rfl <| with_power_moves.after rfl <| bumpFld_moves.after rfl <| setFld_moves.after rfl <|
      setFld_moves.after rfl <| showVout_moves.after rfl <| pmbSend_moves.after rfl <| pmbSend_moves.after rfl <|
      with_power_moves.within rfl

theorem stepFailed_moves {st : VStep} {s : State} : moves [.regs, .hdrs, .power, .nvs, .links] s (stepFailed st s) :=
  moves_trans (with_power_moves.within rfl) <| moves_trans (moves_ite moves_rfl <| raise_moves.after rfl <|
    vhistEntry_moves.within rfl) <| applyDeferred_moves.after rfl <| moves_ite moves_rfl (raise_moves.within rfl)

theorem execStepSettleTimeout_moves {s : State} : goes [.regs, .hdrs, .power, .nvs, .links] s (execStepSettleTimeout s) := by
  unfold execStepSettleTimeout
  split
  · exact goes_next moves_rfl
  · exact goes_ite (goes_next moves_rfl) <| goes_ite (goes_next <| with_power_moves.within rfl) <| goes_next <|
      stepFailed_moves.within rfl

theorem cmdFailed_moves {s : State} : moves [.regs] s (cmdFailed s) := bumpFld_moves.within rfl

theorem execPmbusRetry_moves {s : State} : goes [.regs, .hdrs, .out, .power, .nvs, .links] s (execPmbusRetry s) := by
  refine goes_whenOn <| ?_
  split
  · exact goes_ite (goes_next <| cmdFailed_moves.within rfl) <| goes_ite (goes_next <| with_power_moves.after rfl <|
      cmdFailed_moves.within rfl) <| goes_next <| raise_moves.after rfl <| with_power_moves.after rfl <| cmdFailed_moves.within rfl
  · exact goes_ite (goes_next moves_rfl) <| goes_ite (goes_next <| sendStep_moves.after rfl <|
      moves_ite (cmdFailed_moves.within rfl) moves_rfl) <| goes_ite (goes_next <| stepFailed_moves.after rfl <|
      moves_ite (cmdFailed_moves.within rfl) moves_rfl) <| goes_next moves_rfl

theorem pmbExchange_moves {s : State} : moves [.regs, .out, .power] s (pmbExchange s) := by
  unfold pmbExchange
  dsimp only
  split
  · exact bumpFld_moves.after rfl <| moves_foldl (fun _ _ => pmbSend_moves.within rfl) <| with_power_moves.within rfl
  · exact vhistEntry_moves.after rfl <| setFld_moves.after rfl <| pmbSend_moves.after rfl <| with_power_moves.after rfl <|
      showVout_moves.after rfl <| setFld_moves.after rfl <| setFld_moves.after rfl <| pmbSend_moves.after rfl <|
      pmbSend_moves.after rfl <| pmbSend_moves.after rfl <| pmbSend_moves.after rfl <| with_power_moves.within rfl

theorem pmbStart_moves {l : List (Option PmbStart)} {s : State} : moves [.regs, .hdrs, .out, .power, .links] s (pmbStart l s) :=
  moves_trans (pmbExchange_moves.after rfl <| with_power_moves.within rfl) <| moves_ite moves_rfl <| raise_moves.after rfl <|
    with_power_moves.within rfl

theorem execStalledRetry_moves {s : State} : goes [.regs, .out, .power] s (execStalledRetry s) := by
  refine goes_whenOn <| goes_ite (goes_next moves_rfl) <| goes_ite (goes_next <| moves_ite moves_rfl (pmbExchange_moves.within rfl)) ?_
  split
  · exact goes_next <| sendStep_moves.after rfl <| moves_ite moves_rfl (pmbExchange_moves.within rfl)
  · exact goes_next <| sendStep_moves.after rfl <| moves_ite moves_rfl (pmbExchange_moves.within rfl)

theorem execPmbAlert_moves {statusWord : Nat} {s : State} :
    goes [.regs, .hdrs, .out, .power, .links] s (execPmbAlert statusWord s) :=
  goes_whenOn <| goes_next <| pmbSend_moves.after rfl <| raise_moves.after rfl <| setFld_moves.after rfl <| pmbSend_moves.after rfl <|
    with_power_moves.within rfl

theorem execPmbusPoll_moves {k : PollKind} {v : Nat} {s : State} : goes [.regs, .out, .power] s (execPmbusPoll k v s) := by
  refine goes_whenOn <| ?_
  dsimp only
  split
  · exact goes_next <| showVout_moves.after rfl <| pmbSend_moves.after rfl <| with_power_moves.within rfl
  · exact goes_next <| setFld_moves.after rfl <| pmbSend_moves.after rfl <| with_power_moves.within rfl
  · exact goes_next <| setFld_moves.after rfl <| pmbSend_moves.after rfl <| with_power_moves.within rfl

theorem loopHandler_moves {off : Nat} : Handler.moves [.regs, .hdrs, .power, .nvs, .links] (loopHandler off) :=
  ⟨fun _ _ _ => moves_ite (with_power_moves.within rfl) (storeReg_moves.within rfl), fun _ => moves_rfl⟩

theorem execLoopConfigWrite_moves {m : AB} {r : LoopReg} {v : Word} {s : State} :
    goes [.regs, .hdrs, .last, .power, .nvs, .links, .masters, .fw, .log] s (execLoopConfigWrite m r v s) :=
  goes_whenOn <| goes_next <| writeReg_moves loopHandler_moves rfl rfl

/-! ### Moves of power and start-up -/

theorem setPower_moves {s : State} {p : PowerSt} : moves [.power] s (s.setPower p) := with_power_moves.within rfl

theorem recordLoss_moves {s : State} : moves [.regs, .hdrs, .free, .nvs, .links] s (recordLoss s) :=
  wearBlock_moves.after rfl <| setNvs_moves.within rfl

theorem keepLife_moves {c : AB} {s : State} : moves [.opt] s (keepLife c s) := setOpt_moves.within rfl

theorem resetState_moves {s : State} : moves (but [.pending, .regs, .last, .out, .free, .clock]) s (resetState s) := by
  refine ⟨fun q h => ?_, fun h => ?_⟩
  · have kept : q ∈ [Part.pending, .regs, .last, .out, .free, .clock] := by
      revert h
      cases q <;> decide
    simp only [List.mem_cons, List.not_mem_nil, or_false] at kept
    rcases kept with rfl | rfl | rfl | rfl | rfl | rfl <;> rfl
  · obtain ⟨regs, -, -, -⟩ := canonical_iff.mp h
    exact canonical_iff.mpr ⟨regs, rfl, rfl, rfl⟩

theorem resetLogic_moves {s : State} : moves (but [.pending, .last, .out, .free, .clock]) s (resetLogic s) :=
  setFlag_moves.after rfl <| setFlag_moves.after rfl <| resetRegsOf_moves.after rfl <| resetState_moves.after rfl <|
    keepLife_moves.after rfl <| keepLife_moves.within rfl

theorem enterStep_moves {p : Phase} {ready : Nat} {s : State} : moves [.regs, .power] s (enterStep p ready s) :=
  setFld_moves.after rfl <| setPower_moves.within rfl

theorem startUp_moves {entry reset : Nat} {s : State} : moves [.regs, .power] s (startUp entry reset s) :=
  enterStep_moves.after rfl <| setPower_moves.within rfl

theorem execWake_moves {s : State} : goes [.regs, .power] s (execWake s) :=
  goes_ite (goes_next <| startUp_moves.within rfl) <| goes_next moves_rfl

theorem execPowerOn_moves {s : State} : goes [.regs, .power] s (execPowerOn s) :=
  goes_ite (goes_next <| startUp_moves.within rfl) <| goes_next moves_rfl

theorem stepTook_moves {i us : Nat} {s : State} : moves [.regs] s (stepTook i us s) := setFld_moves.within rfl

theorem execRegReady_moves {us : Nat} {s : State} : goes [.regs, .power] s (execRegReady us s) :=
  goes_ite (goes_next <| enterStep_moves.after rfl <| stepTook_moves.within rfl) <| goes_next moves_rfl

theorem execOscReady_moves {us : Nat} {s : State} : goes [.regs, .power] s (execOscReady us s) :=
  goes_ite (goes_next <| enterStep_moves.after rfl <| stepTook_moves.within rfl) <| goes_next moves_rfl

theorem spareFailed_moves {m b : Nat} {s : State} : moves [.ecc] s (spareFailed m b s) := with_ecc_moves.within rfl

theorem execMemReady_moves {us : Nat} {rows : List BadRow} {spares : List (Nat × Nat)} {s : State} :
    goes [.regs, .ctrs, .hdrs, .out, .free, .power, .nvs, .links, .log, .cls, .buf, .mac, .ecc, .btx] s (execMemReady us rows spares s) :=
  goes_ite (goes_next moves_rfl) <| goes_next <| enterStep_moves.after rfl <| stepTook_moves.after rfl <|
    moves_foldl (fun _ _ => remapRow_moves.within rfl) <| moves_foldl (fun _ _ => spareFailed_moves.within rfl) <| moves_rfl

theorem restoreHist_moves {s : State} : moves [.regs] s (restoreHist s) :=
  wp_moves.after rfl <| moves_foldl (fun _ _ => wp_moves.after rfl <| wp_moves.within rfl) <| moves_rfl

theorem lossEntry_moves {s : State} : moves [.regs, .hdrs, .free, .power, .nvs, .links] s (lossEntry s) := by
  refine moves_ite moves_rfl <| writeHist_moves.after rfl <| setPower_moves.after rfl <| ?_
  split
  · exact moves_rfl
  · exact takeFree_moves.within rfl

theorem wakeRecords_moves {s : State} : moves [.regs, .hdrs, .free, .power, .backup, .nvs, .links] s (wakeRecords s) :=
  bkpChanged_moves.after rfl <| bump_moves.after rfl <| lossEntry_moves.after rfl <| restoreHist_moves.within rfl

theorem startRegisters_moves {s : State} : moves [.regs, .power, .backup, .nvs] s (startRegisters s) :=
  setNvs_moves.after rfl <| wp_moves.after rfl <| bumpFld_moves.after rfl <| setFld_moves.after rfl <|
    moves_ite (wp_moves.within rfl) <| bkpChanged_moves.after rfl <| setPower_moves.after rfl <| wp_moves.within rfl

theorem startNews_moves {s : State} : moves [.hdrs, .backup, .links] s (startNews s) :=
  moves_trans (moves_ite (raise_moves.within rfl) moves_rfl) <| moves_trans (with_backup_moves.after rfl <|
    moves_ite (raise_moves.within rfl) moves_rfl) <| moves_trans (moves_ite (raise_moves.within rfl) moves_rfl) <|
    moves_ite (raise_moves.within rfl) moves_rfl

theorem autoRelease_moves {s : State} : moves [.hdrs, .power] s (autoRelease s) :=
  moves_trans (moves_ite (setHold_moves.within rfl) moves_rfl) <| moves_trans (moves_ite (setHold_moves.within rfl) moves_rfl) <|
    moves_ite (setHold_moves.within rfl) moves_rfl

theorem execLogicReady_moves {i : StartIn} {s : State} :
    goes (but [.pending, .snaps, .last, .clock, .era, .dram, .masters, .mbx, .log, .cls, .ecc, .lfr, .opt, .keys, .seg]) s
      (execLogicReady i s) :=
  goes_ite (goes_next moves_rfl) <| goes_next <| settle_moves.after rfl <| pmbStart_moves.after rfl <| keeperStart_moves.after rfl <|
    startTraining_moves.after rfl <| autoRelease_moves.after rfl <| startNews_moves.after rfl <| measureVbat_moves.after rfl <|
    transition_moves.after rfl <| tsuStart_moves.after rfl <| moves_ite (wakeRecords_moves.after rfl <| setPower_moves.after rfl <|
    startRegisters_moves.after rfl <| startRecord_moves.after rfl <| stepTook_moves.within rfl) <| setPower_moves.after rfl <|
    startRegisters_moves.after rfl <| startRecord_moves.after rfl <| stepTook_moves.within rfl

theorem startFailed_moves {k : Nat} {s : State} : moves (but [.pending, .last, .out, .free, .clock]) s (startFailed k s) :=
  moves_trans (enterStep_moves.after rfl <| bkpChanged_moves.after rfl <| setPower_moves.after rfl <| resetLogic_moves.within rfl) <|
    moves_ite moves_rfl <| tamper_moves.after rfl <| enterStep_moves.after rfl <| setPower_moves.within rfl

theorem execStartupStepTimeout_moves {s : State} : goes (but [.pending, .last, .out, .free, .clock]) s (execStartupStepTimeout s) := by
  unfold execStartupStepTimeout
  split
  · exact goes_next <| startFailed_moves.within rfl
  · exact goes_next <| startFailed_moves.within rfl
  · exact goes_next <| startFailed_moves.within rfl
  · exact goes_next <| startFailed_moves.within rfl
  · exact goes_next moves_rfl

theorem execStartupRetry_moves {s : State} : goes [.regs, .power] s (execStartupRetry s) :=
  goes_ite (goes_next <| enterStep_moves.within rfl) <| goes_next moves_rfl

theorem resetTo_moves {cause : Nat} {p : Phase} {ready : Nat} {s : State} :
    moves (but [.pending, .last, .out, .free, .clock]) s (resetTo cause p ready s) :=
  enterStep_moves.after rfl <| setPower_moves.after rfl <| resetLogic_moves.within rfl

theorem restart_moves {cause : Nat} {p : Phase} {ready : Nat} {s : State} : moves [.regs, .power] s (restart cause p ready s) :=
  enterStep_moves.after rfl <| setPower_moves.within rfl

theorem execResetPin_moves {s : State} : goes (but [.pending, .last, .out, .free, .clock]) s (execResetPin s) := by
  unfold execResetPin
  split
  · exact goes_next <| resetTo_moves.within rfl
  · exact goes_next <| restart_moves.within rfl
  · exact goes_next <| restart_moves.within rfl
  · exact goes_next <| restart_moves.within rfl
  · exact goes_next <| restart_moves.after rfl <| resetLogic_moves.within rfl
  · exact goes_next <| restart_moves.after rfl <| resetLogic_moves.within rfl
  · exact goes_next moves_rfl

theorem execPgoodLoss_moves {s : State} : goes (but [.pending, .last, .out, .free, .clock]) s (execPgoodLoss s) := by
  unfold execPgoodLoss
  split
  · exact goes_next <| resetTo_moves.within rfl
  · exact goes_next <| restart_moves.after rfl <| resetLogic_moves.within rfl
  · exact goes_next <| restart_moves.after rfl <| resetLogic_moves.within rfl
  · exact goes_next <| restart_moves.after rfl <| resetLogic_moves.within rfl
  · exact goes_ite (goes_next <| restart_moves.within rfl) <| goes_next moves_rfl
  · exact goes_next moves_rfl

theorem resetCmdHandler_moves : Handler.moves [.power] resetCmdHandler :=
  ⟨fun _ _ _ => moves_ite (setPower_moves.within rfl) moves_rfl, fun _ => moves_rfl⟩

theorem execResetCmd_moves {m : AB} {s : State} :
    goes [.regs, .hdrs, .last, .power, .nvs, .links, .masters, .fw, .log] s (execResetCmd m s) :=
  goes_whenOn <| goes_next <| writeReg_moves resetCmdHandler_moves rfl rfl

theorem execHostReset_moves {s : State} : goes (but [.pending, .last, .out, .clock]) s (execHostReset s) := by
  refine goes_whenOn <| ?_
  split
  · exact goes_next moves_rfl
  · exact goes_next <| resetTo_moves.after rfl <| recordLoss_moves.within rfl

theorem startPowerDown_moves {cause : Nat} {s : State} :
    moves [.regs, .ctrs, .hdrs, .out, .free, .power, .backup, .nvs, .links, .buf, .mac, .act, .btx, .omciUpQ] s
      (startPowerDown cause s) :=
  setPower_moves.after rfl <| abortAll_moves.after rfl <| abortAll_moves.after rfl <| closeWindow_moves.after rfl <|
    transition_moves.within rfl

theorem modeCmdHandler_moves :
    Handler.moves (but [.pending, .snaps, .last, .clock, .era, .dram, .masters, .mbx, .keeper, .fw, .log, .cls, .chk, .ecc, .opt, .seg])
      modeCmdHandler :=
  ⟨fun _ _ _ => moves_ite (startPowerDown_moves.within rfl) <| moves_ite (reattach_moves.within rfl) moves_rfl, fun _ => moves_rfl⟩

theorem execShutdown_moves {m : AB} {s : State} :
    goes (but [.pending, .snaps, .clock, .era, .dram, .mbx, .keeper, .cls, .chk, .ecc, .opt, .seg]) s (execShutdown m s) :=
  goes_whenOn <| goes_next <| writeReg_moves modeCmdHandler_moves rfl rfl

theorem execReattach_moves {m : AB} {s : State} :
    goes (but [.pending, .snaps, .clock, .era, .dram, .mbx, .keeper, .cls, .chk, .ecc, .opt, .seg]) s (execReattach m s) :=
  goes_whenOn <| goes_next <| writeReg_moves modeCmdHandler_moves rfl rfl

theorem execThermal_moves {s : State} : goes (but [.pending, .last, .clock]) s (execThermal s) := by
  have ended : ∀ x y, goes (but [.pending, .last,
    .clock]) s (.next (tamper 0x13 5 (enterStep x 0 ((bkpChanged (resetLogic s)).setPower y)))) := fun _ _ =>
    goes_next <| tamper_moves.after rfl <| enterStep_moves.after rfl <| setPower_moves.after rfl <| bkpChanged_moves.after rfl <|
      resetLogic_moves.within rfl
  unfold execThermal
  split
  · exact goes_next <| startPowerDown_moves.within rfl
  · exact ended _ _
  · exact ended _ _
  · exact ended _ _
  · exact ended _ _
  · exact ended _ _
  · exact goes_next moves_rfl

theorem checkpointLife_moves {c : AB} {s : State} : moves [.regs, .hdrs, .free, .nvs, .links, .opt] s (checkpointLife c s) :=
  moves_trans (moves_foldl (fun _ _ => writeLeft_moves.after rfl <| wearBlock_moves.within rfl) <| moves_rfl) <|
    setOpt_moves.after rfl <| moves_ite (writeLife_moves.after rfl <| wearBlock_moves.within rfl) moves_rfl

theorem execPowerdownComplete_moves {s : State} : goes (but [.pending, .last, .out, .clock]) s (execPowerdownComplete s) :=
  goes_ite (goes_next moves_rfl) <| goes_next <| enterStep_moves.after rfl <| resetLogic_moves.after rfl <|
    writeRecord_moves.after rfl <| recordLoss_moves.after rfl <| commitItem_moves.after rfl <| wearBlock_moves.after rfl <|
    checkpointLife_moves.after rfl <| checkpointLife_moves.after rfl <| flushNvs_moves.within rfl

theorem uncontrolled_moves {s : State} : moves (but [.pending, .last, .out, .clock]) s (uncontrolled s) :=
  moves_trans (setNvs_moves.after rfl <| enterStep_moves.after rfl <| setPower_moves.after rfl <| resetLogic_moves.after rfl <|
    with_nvs_opt_moves.after rfl <| moves_ite (tearRecord_moves.within rfl) moves_rfl) <| moves_ite (bkpChanged_moves.after rfl <|
    bump_moves.within rfl) moves_rfl

theorem powerLost_moves {s : State} : moves (but [.pending, .last, .out, .clock]) s (powerLost s) := by
  unfold powerLost
  split
  · exact moves_rfl
  · exact setPower_moves.within rfl
  · exact uncontrolled_moves.within rfl

theorem execMainPowerLoss_moves {s : State} : goes (but [.pending, .last, .out, .clock]) s (execMainPowerLoss s) :=
  goes_next <| powerLost_moves.within rfl

theorem execVioLoss_moves {s : State} : goes (but [.pending, .last, .out, .clock]) s (execVioLoss s) :=
  goes_next <| setPower_moves.after rfl <| powerLost_moves.within rfl

theorem execVauxLow_moves {s : State} :
    goes (but [.pending, .snaps, .last, .clock, .era, .dram, .backup, .masters, .mbx, .keeper, .fw, .log, .cls, .chk, .ecc, .seg]) s
      (execVauxLow s) :=
  goes_ite (goes_next moves_rfl) <| goes_ite (goes_next <| setPower_moves.within rfl) <| goes_next <| lineSettle_moves.after rfl <|
    moves_ite (moduleGone_moves.after rfl <| setOpt_moves.after rfl <| moves_ite (moduleGone_moves.after rfl <|
    setOpt_moves.after rfl <| raise_moves.after rfl <| setPower_moves.within rfl) <| raise_moves.after rfl <|
    setPower_moves.within rfl) <| moves_ite (moduleGone_moves.after rfl <| setOpt_moves.after rfl <| raise_moves.after rfl <|
    setPower_moves.within rfl) <| raise_moves.after rfl <| setPower_moves.within rfl

theorem execVauxRestore_moves {s : State} :
    goes [.regs, .ctrs, .hdrs, .out, .free, .power, .nvs, .links, .buf, .mac, .tsu, .seqs, .lfr, .act, .btx, .psw, .keys, .omciUpQ] s
      (execVauxRestore s) :=
  goes_ite (goes_next moves_rfl) <| goes_ite (goes_next <| lineSettle_moves.after rfl <| leaveOff_moves.after rfl <|
    leaveOff_moves.after rfl <| setPower_moves.within rfl) <| goes_next <| setPower_moves.within rfl

theorem execRefclkLoss_moves {s : State} : goes [.regs, .ctrs, .hdrs, .out, .power, .links, .mac] s (execRefclkLoss s) :=
  goes_next <| moves_foldl (fun _ _ => linkUpdate_moves.after rfl <| setPort_moves.within rfl) <| setPower_moves.within rfl

theorem keeperDied_moves {s : State} : moves (but [.pending, .last, .out, .clock]) s (keeperDied s) :=
  moves_trans (keeperStart_moves.after rfl <| recordFault_moves.after rfl <| with_keeper_fw_moves.after rfl <|
    bump_moves.within rfl) <| moves_ite (resetTo_moves.after rfl <| recordLoss_moves.within rfl) moves_rfl

theorem execKeeperWatchdog_moves {s : State} : goes (but [.pending, .last, .out, .clock]) s (execKeeperWatchdog s) :=
  goes_whenOn <| goes_next <| keeperDied_moves.within rfl

/-! ### Moves of scrubbing and rings -/

theorem setScrubPos_moves {l : MemLoc} {s : State} : moves [.regs] s (setScrubPos l s) := wp_moves.within rfl

theorem scrubCellUe_moves {l : MemLoc} {s : State} : moves [.regs, .ctrs, .hdrs, .nvs, .links, .log, .ecc] s (scrubCellUe l s) :=
  startRowTest_moves.after rfl <| recordFault_moves.after rfl <| raise_moves.after rfl <| eccCount_moves.within rfl

theorem mapBuffered_moves {f : Pkt → Pkt} {s : State} : moves [.buf, .mac] s (mapBuffered f s) := with_buf_mac_moves.within rfl

theorem scrubCells_moves {l : MemLoc} {s : State} :
    moves [.regs, .ctrs, .hdrs, .nvs, .links, .log, .buf, .mac, .ecc, .act, .keys] s (scrubCells l s) := by
  refine moves_foldl (fun _ _ => ?_) <| mapBuffered_moves.within rfl
  split
  · exact foundCe_moves.within rfl
  · exact scrubCellUe_moves.within rfl
  · exact moves_rfl

theorem poisonCell_moves {l : MemLoc} {s : State} : moves [.free, .buf] s (poisonCell l s) := by
  unfold poisonCell
  dsimp only
  split
  · exact takeFree_moves.within rfl
  · exact setQueue_moves.after rfl <| takeFree_moves.within rfl

theorem scrubErr_moves {slice : Nat} {l : MemLoc} {e : RowErr} {s : State} :
    moves (but [.pending, .last, .clock]) s (scrubErr slice l e s) := by
  refine moves_ite moves_rfl ?_
  split
  · exact moves_rfl
  · exact foundCe_moves.within rfl
  · exact moves_ite (poisonCell_moves.after rfl <| scrubCellUe_moves.within rfl) <| moves_ite (keeperDied_moves.after rfl <|
      with_ecc_moves.after rfl <| foundUe_moves.within rfl) <| scrubEffect_moves.after rfl <| foundUe_moves.within rfl

theorem passEnd_moves {s : State} : moves [.regs, .hdrs, .nvs, .links, .log, .ecc] s (passEnd s) :=
  moves_trans (bump_moves.after rfl <| wp_moves.within rfl) <| moves_ite (raise_moves.after rfl <| recordFault_moves.after rfl <|
    with_ecc_moves.within rfl) moves_rfl

theorem execScrubRow_moves {slice : Nat} {errs : List RowErr} {s : State} :
    goes (but [.pending, .last, .clock]) s (execScrubRow slice errs s) := by
  refine goes_whenOn <| goes_ite (goes_next moves_rfl) ?_
  split
  · exact goes_next moves_rfl
  extract_lets _ _ s1 s2 s3 s4 s5
  have restarted : moves (but [.pending, .last, .clock]) s s1 := moves_ite (with_ecc_moves.within rfl) moves_rfl
  have read : moves (but [.pending, .last, .clock]) s1 s2 := moves_foldl (fun _ _ => readUpset_moves.within rfl) moves_rfl
  have cells : moves (but [.pending, .last, .clock]) s2 s3 := moves_ite (scrubCells_moves.within rfl) moves_rfl
  have scrubbed : moves (but [.pending, .last, .clock]) s3 s4 := moves_foldl (fun _ _ => scrubErr_moves.within rfl) moves_rfl
  have moved : moves (but [.pending, .last, .clock]) s4 s5 := by
    refine moves_ite ?_ moves_rfl
    split
    · exact setScrubPos_moves.within rfl
    · exact passEnd_moves.within rfl
  exact goes_next <| settle_moves.after rfl <| moves_trans (moves_trans restarted read) <| moves_trans cells <| moves_trans scrubbed moved

theorem pushLoop_moves {k fuel : Nat} {l : AB} {s : State} : moves [.regs, .links] s (pushLoop k l fuel s) := by
  induction fuel generalizing s with
  | zero => exact moves_rfl
  | succ fuel ih => exact moves_ite moves_rfl <| moves_trans (queueCensus_moves.after rfl <| bump_moves.within rfl) ih

theorem pushRing_moves {k : Nat} {s : State} : moves [.regs, .links] s (pushRing k s) := by
  unfold pushRing
  split
  · exact moves_rfl
  · exact pushLoop_moves

theorem pushRings_moves {s : State} : moves [.regs, .links] s (pushRings s) :=
  moves_foldl (fun _ _ => pushRing_moves.within rfl) <| moves_rfl

theorem writeSkim_moves {x : SkimWait} {s : State} : moves [.regs, .hdrs, .dram, .links] s (writeSkim x s) :=
  moves_trans (bump_moves.after rfl <| moves_foldl (fun _ _ => setDramWord_moves.within rfl) <| moves_rfl) <|
    moves_trans (moves_ite (moves_trans (bump_moves.after rfl <| bump_moves.within rfl) <|
    moves_ite (raise_moves.within rfl) moves_rfl) moves_rfl) <| pushRing_moves.after rfl <| moves_ite (raise_moves.within rfl) moves_rfl

theorem execSkimRecordWrite_moves {s : State} : goes [.regs, .hdrs, .dram, .links, .buf] s (execSkimRecordWrite s) := by
  refine goes_whenOn <| ?_
  split
  · exact goes_next moves_rfl
  · exact goes_next <| writeSkim_moves.after rfl <| with_buf_moves.within rfl

theorem ringCfgHandler_moves {k : Nat} : Handler.moves [.regs, .hdrs, .nvs, .links, .buf] (ringCfgHandler k) :=
  ⟨fun _ _ _ => moves_trans (storeReg_moves.after rfl <| moves_ite (ringStop_moves.within rfl) moves_rfl) <|
    pushRing_moves.after rfl <| moves_ite (moves_foldl (fun _ _ => wp_moves.within rfl) <| moves_rfl) moves_rfl, fun _ => moves_rfl⟩

theorem ringBaseHandler_moves {k : Nat} : Handler.moves [.regs, .nvs] (ringBaseHandler k) :=
  ⟨fun _ _ _ => storeReg_moves.within rfl, fun _ => moves_rfl⟩

theorem execRingCfgWrite_moves {m : AB} {k : Nat} {r : RingReg} {v : Word} {s : State} :
    goes [.regs, .hdrs, .last, .nvs, .links, .masters, .fw, .log, .buf] s (execRingCfgWrite m k r v s) := by
  refine goes_whenOn <| ?_
  dsimp only
  split
  · exact goes_next <| writeReg_moves ringCfgHandler_moves rfl rfl
  · exact goes_next <| writeReg_moves ringBaseHandler_moves rfl rfl

theorem ringRdHandler_moves {k : Nat} : Handler.moves [.regs, .nvs] (ringRdHandler k) :=
  ⟨fun _ _ _ => storeReg_moves.within rfl, fun _ => moves_rfl⟩

theorem execRingRdWrite_moves {m : AB} {k : Nat} {v : Word} {s : State} :
    goes [.regs, .hdrs, .last, .nvs, .links, .masters, .fw, .log] s (execRingRdWrite m k v s) :=
  goes_whenOn <| goes_next <| writeReg_moves ringRdHandler_moves rfl rfl

theorem clearPeak_moves {k : Nat} {s : State} : moves [.regs] s (clearPeak k s) := wp_moves.within rfl

theorem execBufPeakRead_moves {m : AB} {k : Nat} {s : State} : goes [.regs, .last, .masters] s (execBufPeakRead m k s) :=
  goes_whenOn <| goes_next <| runRead_moves rfl fun _ => clearPeak_moves.within rfl

/-! ### Moves of register accesses -/

theorem ctlMacHandler_moves {l : AB} {off : Nat} : Handler.moves [.regs, .nvs, .links] (ctlMacHandler l off) :=
  ⟨fun _ _ _ => storeReg_moves.after rfl <| setLink_moves.within rfl, fun _ => moves_rfl⟩

theorem ctlCtrlHandler_moves {l : AB} : Handler.moves [.regs, .nvs, .links] (ctlCtrlHandler l) :=
  ⟨fun _ _ _ => pushRings_moves.after rfl <| storeReg_moves.after rfl <|
    moves_ite (setLink_moves.within rfl) moves_rfl, fun _ => moves_rfl⟩

theorem noResponse_moves {l : AB} {s : State} : moves [.links] s (noResponse l s) := setLink_moves.within rfl

theorem logPre_moves {w : Nat} {s : State} : moves [.regs, .ctrs, .hdrs, .out, .free, .nvs, .links, .log, .cls, .buf, .mac, .ecc, .lfr,
    .act, .keys] s (logPre w s).1 := by
  unfold logPre
  dsimp only
  split
  · exact with_log_ecc_moves.after rfl <| readLoc_moves.within rfl
  · exact readLoc_moves.within rfl

theorem regPre_moves {off : Nat} {i : PageInfo} {s : State} :
    moves [.regs, .ctrs, .hdrs, .out, .free, .nvs, .links, .log, .cls, .buf, .mac, .ecc, .lfr, .act, .keys] s (regPre off i s).1 := by
  unfold regPre
  split
  · exact logPre_moves.within rfl
  · split
    · exact seqTouch_moves.within rfl
    · split
      · exact readLoc_moves.within rfl
      · exact moves_rfl

theorem useFree_moves {i : PageInfo} {off : Nat} {s : State} : moves [.free] s (useFree i off s) :=
  moves_ite (with_free_moves.within rfl) moves_rfl

theorem readEffect_moves {m : AB} {p off : Nat} {i : PageInfo} {s : State} :
    moves [.regs, .snaps, .hdrs, .free, .links, .mbx, .mac, .chk] s (readEffect m p off i s) := by
  refine moves_ite (clearFault_moves.after rfl <| useFree_moves.after rfl <| takeSnap_moves.within rfl) ?_
  split
  · exact moves_ite (mbxReadEffect_moves.after rfl <| useFree_moves.after rfl <| takeSnap_moves.within rfl) <|
      useFree_moves.after rfl <| takeSnap_moves.within rfl
  · exact moves_ite (tsqPop_moves.after rfl <| useFree_moves.after rfl <| takeSnap_moves.within rfl) <| useFree_moves.after rfl <|
      takeSnap_moves.within rfl
  · exact moves_ite (clearPeak_moves.after rfl <| useFree_moves.after rfl <| takeSnap_moves.within rfl) <| useFree_moves.after rfl <|
      takeSnap_moves.within rfl
  · exact moves_ite (dmemStep_moves.after rfl <| useFree_moves.after rfl <| takeSnap_moves.within rfl) <| useFree_moves.after rfl <|
      takeSnap_moves.within rfl
  · exact moves_ite (chanReadEffect_moves.after rfl <| useFree_moves.after rfl <| takeSnap_moves.within rfl) <|
      useFree_moves.after rfl <| takeSnap_moves.within rfl
  · exact useFree_moves.after rfl <| takeSnap_moves.within rfl

theorem blockHandler_moves {p off : Nat} {i : PageInfo} : Handler.moves (but [.pending, .snaps, .last, .clock, .era, .dram,
    .seg]) (blockHandler p off i) := by
  have free : Handler.moves (but [.pending, .snaps, .last, .clock, .era, .dram, .seg]) (plain p off) := plain_moves.within rfl
  have stored : Handler.moves (but [.pending, .snaps, .last, .clock, .era, .dram, .seg])
      { plain p off with run := fun _ v s => storeReg (pLane 0) off v s } :=
    ⟨fun _ _ _ => storeReg_moves.within rfl, fun _ => moves_rfl⟩
  unfold blockHandler
  split
  · exact handler_ite (modeCmdHandler_moves.within rfl) <| handler_ite (resetCmdHandler_moves.within rfl) <|
      handler_ite (loopHandler_moves.within rfl) free
  · exact handler_ite (rtcSetHandler_moves.within rfl) <| handler_ite (sealAckHandler_moves.within rfl) <|
      handler_ite (tamperClrHandler_moves.within rfl) free
  · exact handler_ite (prsCloseHandler_moves.within rfl) <| handler_ite (prsCfgHandler_moves.within rfl) free
  · exact handler_ite (fwCtrlHandler_moves.within rfl) <| handler_ite (fwLenHandler_moves.within rfl) <|
      handler_ite (fwCommitHandler_moves.within rfl) free
  · exact handler_ite (flipMemHandler_moves.within rfl) free
  · exact handler_ite (retrainHandler_moves.within rfl) <| handler_ite (reserveHandler_moves.within rfl) free
  · exact handler_ite (ctlMacHandler_moves.within rfl) <| handler_ite (ctlCtrlHandler_moves.within rfl) free
  · exact handler_ite (semStateHandler_moves.within rfl) <| handler_ite (semLeaseHandler_moves.within rfl) <|
      handler_ite (semWatchHandler_moves.within rfl) <| handler_ite (semWatchHandler_moves.within rfl) <|
      handler_ite (frzCtrlHandler_moves.within rfl) free
  · exact handler_ite (mbxDoorbellHandler_moves.within rfl) <| handler_ite (mbxDataHandler_moves.within rfl) free
  · exact handler_ite (rateHandler_moves.within rfl) <| handler_ite (portIdHandler_moves.within rfl) free
  · exact handler_ite (sleepCtrlHandler_moves.within rfl) <| handler_ite (guardHandler_moves.within rfl) free
  · exact handler_ite (nodeMapHandler_moves.within rfl) free
  · exact handler_ite (pswCmdHandler_moves.within rfl) <| handler_ite (pswCfgHandler_moves.within rfl) free
  · exact handler_ite (txCtrlHandler_moves.within rfl) <| handler_ite (optRateHandler_moves.within rfl) <|
      handler_ite (lifeLimitHandler_moves.within rfl) free
  · exact handler_ite (tsuCfgHandler_moves.within rfl) <| handler_ite (armHandler_moves.within rfl) <|
      handler_ite (armHandler_moves.within rfl) <| handler_ite (calHandler_moves.within rfl) <|
      handler_ite (hostAdjHandler_moves.within rfl) <| handler_ite (setSecHandler_moves.within rfl) <|
      handler_ite (setSecHandler_moves.within rfl) <| handler_ite (setNsHandler_moves.within rfl) <|
      handler_ite (ppsOutHandler_moves.within rfl) free
  · exact handler_ite (macModeHandler_moves.within rfl) <| handler_ite (macFcHandler_moves.within rfl) <|
      handler_ite (macXHandler_moves.within rfl) free
  · exact handler_ite stored free
  · exact handler_ite (ownerHandler_moves.within rfl) <| handler_ite (permitHandler_moves.within rfl) free
  · exact handler_ite (allocHandler_moves.within rfl) <| handler_ite (localOkHandler_moves.within rfl) free
  · exact handler_ite free <| handler_ite (ringCfgHandler_moves.within rfl) <| handler_ite (ringBaseHandler_moves.within rfl) <|
      handler_ite (ringRdHandler_moves.within rfl) free
  · exact handler_ite (churnRateHandler_moves.within rfl) <| handler_ite (churnBurstHandler_moves.within rfl) free
  · exact handler_ite (ruleCmdHandler_moves.within rfl) <| handler_ite (indirectionHandler_moves.within rfl) free
  · exact handler_ite (handler_ite (nodeHandler_moves.within rfl) free) <| handler_ite (queueHandler_moves.within rfl) free
  · exact handler_ite (policerHandler_moves.within rfl) free
  · exact handler_ite (seqCodeHandler_moves.within rfl) <| handler_ite (seqCtrlHandler_moves.within rfl) <|
      handler_ite (dmemHandler_moves.within rfl) <| handler_ite (seqBindHandler_moves.within rfl) free
  · exact handler_ite (chanCfgHandler_moves.within rfl) <| handler_ite (chanLenHandler_moves.within rfl) <|
      handler_ite (chanStartHandler_moves.within rfl) <| handler_ite (chanFeedHandler_moves.within rfl) <|
      handler_ite (chanFeedHandler_moves.within rfl) <| handler_ite (chanFeedHandler_moves.within rfl) free
  · exact free

theorem regHandler_moves {p off : Nat} {i : PageInfo} : Handler.moves (but [.pending, .snaps, .last, .clock, .era,
    .dram]) (regHandler p off i) :=
  handler_ite (headerHandler_moves.within rfl) (blockHandler_moves.within rfl)

theorem memRefused_moves {m : AB} {q : Req} {a : Nat} {write : Bool} {s t : State} (h : memRefused m q a write s = some t) :
    moves [.regs, .hdrs, .last, .nvs, .links, .masters, .fw, .log] s t := by
  unfold memRefused at h
  split at h
  · cases h
    exact ended_moves.after rfl <| countRefused_moves.within rfl
  split at h
  · cases h
  split at h
  · cases h
    exact refuseWrite_moves.within rfl
  · cases h
    exact ended_moves.after rfl <| bump_moves.within rfl

theorem readWord_moves {m : AB} {addr : Nat} {s : State} : moves (but [.pending, .clock, .era, .dram, .power, .backup, .keeper, .tsu,
    .seqs, .btx, .psw, .opt, .omciUpQ, .seg]) s (readWord m addr s) := by
  unfold readWord
  split
  · exact moves_rfl
  · split
    · rename_i h
      exact (memRefused_moves h).within rfl
    · exact ended_moves.within rfl
  · refine moves_ite (ended_moves.after rfl <| countRefused_moves.within rfl) ?_
    split
    · exact ended_moves.after rfl <| bump_moves.within rfl
    · exact ended_moves.within rfl
  · split
    · exact moves_rfl
    · exact runReadAt_moves rfl (fun _ => regPre_moves.within rfl) (fun _ => readEffect_moves.within rfl)

theorem writeWord_moves {m : AB} {q : Req} {v : Word} {s : State} : moves (but [.pending, .snaps, .clock, .era]) s (writeWord m q v s) :=
    by
  unfold writeWord
  split
  · exact moves_rfl
  · split
    · rename_i h
      exact (memRefused_moves h).within rfl
    · exact ended_moves.after rfl <| setDramWord_moves.within rfl
  · refine moves_ite (ended_moves.after rfl <| countRefused_moves.within rfl) ?_
    split
    · exact refuseWrite_moves.within rfl
    · exact ended_moves.within rfl
  · split
    · exact moves_rfl
    · exact runWrite_moves regHandler_moves rfl rfl

theorem maskedWord_moves {m : AB} {q : Req} {mask v : Word} {s : State} : moves (but [.pending, .snaps, .clock,
    .era]) s (maskedWord m q mask v s) := by
  have written : ∀ win p off fs i w t, moves (but [.pending, .snaps, .clock,
    .era]) t (runWrite m q win p off fs (regHandler p off i) w t) := fun _ _ _ _ _ _ _ =>
    runWrite_moves regHandler_moves rfl rfl
  unfold maskedWord
  split
  · split
    · exact moves_rfl
    · refine moves_ite (written _ _ _ _ _ _ _) <| moves_ite (ended_moves.after rfl <| regPre_moves.within rfl) ?_
      exact ended_moves.after rfl <| useFree_moves.after rfl <| moves_trans (regPre_moves.within rfl) (written _ _ _ _ _ _ _)
  · split
    · rename_i h
      exact (memRefused_moves h).within rfl
    · exact ended_moves.after rfl <| setDramWord_moves.within rfl
  · exact writeWord_moves

theorem execRegWrite_moves {m : AB} {addr : Nat} {v : Word} {s : State} :
    goes (but [.pending, .snaps, .clock, .era]) s (execRegWrite m addr v s) :=
  goes_whenOn <| goes_ite (goes_next moves_rfl) <| goes_next <| noResponse_moves.after rfl <| writeWord_moves.within rfl

theorem execCtlResyncCmd_moves {m : AB} {s : State} :
    goes [.regs, .hdrs, .last, .nvs, .links, .masters, .fw, .log] s (execCtlResyncCmd m s) :=
  goes_whenOn <| goes_next <| writeReg_moves ctlCtrlHandler_moves rfl rfl

theorem execCtlMacWrite_moves {m : AB} {hi : Bool} {v : Word} {s : State} :
    goes [.regs, .hdrs, .last, .nvs, .links, .masters, .fw, .log] s (execCtlMacWrite m hi v s) :=
  goes_whenOn <| goes_next <| noResponse_moves.after rfl <| writeReg_moves ctlMacHandler_moves rfl rfl

theorem execLaneLookup_moves {n : Nat} {s : State} :
    goes (but [.pending, .snaps, .last, .clock, .era, .dram, .backup, .masters, .mbx, .fw, .chk, .opt, .seg]) s (execLaneLookup n s) := by
  refine goes_whenOn <| ?_
  dsimp only
  split
  · exact goes_next moves_rfl
  · exact goes_ite (goes_next <| laneFault_moves.after rfl <| laneRead_moves.within rfl) <| goes_next <| wakeOn_moves.after rfl <|
      classify_moves.after rfl <| moves_ite (countAt_moves.after rfl <| countAt_moves.after rfl <| settleWaiting_moves.after rfl <|
      setLane_moves.after rfl <| laneWrote_moves.after rfl <| laneRead_moves.within rfl) <| countAt_moves.after rfl <|
      settleWaiting_moves.after rfl <| setLane_moves.after rfl <| laneWrote_moves.after rfl <| laneRead_moves.within rfl

/-! ### Moves of transactions -/

theorem respond_moves {l : AB} {r : Rec} {s : State} : moves [.links] s (respond l r s) :=
  moves_ite (setLink_moves.within rfl) (setLink_moves.within rfl)

theorem closeMarks_moves {l : AB} {had : Bool} {s : State} : moves [.links] s (closeMarks l had s) := setLink_moves.within rfl

theorem readLoop_moves {m : AB} {fixed : Bool} {n a : Nat} {acc : List Word} {s : State} :
    moves (but [.pending, .clock, .era, .dram, .power, .backup, .keeper, .tsu, .seqs, .btx, .psw, .opt, .omciUpQ,
      .seg]) s (readLoop m fixed n a acc s).2.2 := by
  induction n generalizing a acc s with
  | zero => exact moves_rfl
  | succ n ih =>
    unfold readLoop
    dsimp only
    split
    · exact moves_trans readWord_moves ih
    · exact readWord_moves

theorem writeLoop_moves {m : AB} {type tag a done : Nat} {fixed : Bool} {l : List Word} {s : State} :
    moves (but [.pending, .snaps, .clock, .era]) s (writeLoop m type tag fixed l a done s).2.2 := by
  induction l generalizing a done s with
  | nil => exact moves_rfl
  | cons v l ih =>
    unfold writeLoop
    dsimp only
    split
    · exact moves_trans writeWord_moves ih
    · exact writeWord_moves

theorem runReadRec_moves {m : AB} {tag addr count : Nat} {fixed : Bool} {s : State} :
    moves (but [.pending, .clock, .era, .dram, .power, .backup, .keeper, .tsu, .seqs, .btx, .psw, .opt, .omciUpQ,
      .seg]) s (runReadRec m tag addr count fixed s) :=
  respond_moves.after rfl <| readLoop_moves.within rfl

theorem runWriteRec_moves {m : AB} {tag addr : Nat} {fixed : Bool} {data : List Word} {s : State} :
    moves (but [.pending, .snaps, .clock, .era]) s (runWriteRec m tag addr fixed data s) :=
  respond_moves.after rfl <| writeLoop_moves.within rfl

theorem runMaskedRec_moves {m : AB} {tag addr : Nat} {mask value : Word} {s : State} :
    moves (but [.pending, .snaps, .clock, .era]) s (runMaskedRec m tag addr mask value s) :=
  respond_moves.after rfl <| maskedWord_moves.within rfl

theorem dataResp_moves {m : AB} {tag : Nat} {st : Status} {s : State} : moves [.links] s (dataResp m tag st s) :=
  moves_ite moves_rfl (respond_moves.within rfl)

theorem setChain_moves {m : AB} {c : Option Chain} {s : State} : moves [.links] s (setChain m c s) := setLink_moves.within rfl

theorem breakChain_moves {m : AB} {s : State} : moves [.regs, .ctrs, .hdrs, .links, .buf] s (breakChain m s) := by
  unfold breakChain
  split
  · exact moves_rfl
  · exact moves_trans (setChain_moves.within rfl) <| moves_ite (dropAt_moves.within rfl) moves_rfl

theorem refuseSend_moves {l : List Part} {m : AB} {tag k : Nat} {first last : Bool} {st : Status} {count : State → State} {s : State}
    (covered : covers [.regs, .ctrs, .hdrs, .links, .buf] l = true) (hc : ∀ t, moves l t (count t)) :
      moves l s (refuseSend m tag k first last st count s) := by
  have broken : moves [.regs, .ctrs, .hdrs, .links, .buf] s (if onChain m k first s then s else breakChain m s) :=
    moves_ite moves_rfl (breakChain_moves.within rfl)
  have answered : ∀ c t, moves [.regs, .ctrs, .hdrs, .links, .buf] t (dataResp m tag st (setChain m c t)) := fun _ _ =>
    dataResp_moves.after rfl <| setChain_moves.within rfl
  exact (answered _ _).after covered <| moves_trans (broken.within covered) (hc _)

theorem finishSend_moves {m : AB} {tag : Nat} {c : Chain} {s : State} :
    moves [.regs, .ctrs, .hdrs, .out, .free, .nvs, .links, .log, .cls, .buf, .mac, .ecc, .lfr, .act, .keys, .seg] s
      (finishSend m tag c s) :=
  moves_ite (dataResp_moves.after rfl <| dropAt_moves.within rfl) <| dataResp_moves.after rfl <| hostSend_moves.within rfl

theorem takeChain_moves {m : AB} {tag : Nat} {last : Bool} {c : Chain} {s : State} :
    moves [.regs, .ctrs, .hdrs, .out, .free, .nvs, .links, .log, .cls, .buf, .mac, .ecc, .lfr, .act, .keys, .seg] s
      (takeChain m tag last c s) :=
  moves_ite (finishSend_moves.after rfl <| setChain_moves.within rfl) <| dataResp_moves.after rfl <| setChain_moves.within rfl

theorem sendRec_moves {m : AB} {tag k : Nat} {first last : Bool} {total : Nat} {desc : List Word} {bytes : List Byte} {s : State} :
    moves [.regs, .ctrs, .hdrs, .out, .free, .nvs, .links, .masters, .fw, .log, .cls, .buf, .mac, .ecc, .lfr, .act, .keys, .seg] s
      (sendRec m tag k first last total desc bytes s) := by
  refine moves_ite (refuseSend_moves rfl fun _ => freezeMaster_moves.after rfl <| dropUnowned_moves.within rfl) ?_
  split
  · exact refuseSend_moves rfl fun _ => dropAt_moves.within rfl
  · split
    · exact takeChain_moves.within rfl
    · exact moves_trans (breakChain_moves.within rfl) <| moves_ite (takeChain_moves.within rfl) <| dataResp_moves.after rfl <|
        dropAt_moves.within rfl

theorem runDataTx_moves {m : AB} {tag k : Nat} {first last : Bool} {total : Nat} {desc : List Word} {bytes : List Byte} {s : State} :
    moves [.regs, .ctrs, .hdrs, .out, .free, .nvs, .links, .masters, .fw, .log, .cls, .buf, .mac, .ecc, .lfr, .act, .keys, .seg] s
      (runDataTx m tag k first last total desc bytes s) := by
  unfold runDataTx
  dsimp only
  split
  · exact moves_trans (moves_ite (countRefused_moves.within rfl) moves_rfl) <| dataResp_moves.after rfl <|
      moves_ite (setChain_moves.within rfl) moves_rfl
  · exact moves_ite (moves_trans (countRefused_moves.within rfl) <|
      refuseSend_moves rfl fun _ => moves_ite (dropAt_moves.within rfl) (dropUnowned_moves.within rfl)) (sendRec_moves.within rfl)

theorem omciKey_moves {s : State} :
    moves [.regs, .ctrs, .hdrs, .out, .free, .nvs, .links, .log, .cls, .buf, .mac, .ecc, .lfr, .act, .keys] s (omciKey s).1 := by
  unfold omciKey
  split
  · exact moves_rfl
  · exact readRow_moves.within rfl

theorem runOmciUp_moves {m : AB} {msg : List Byte} {s : State} :
    moves [.regs, .ctrs, .hdrs, .out, .free, .nvs, .links, .masters, .fw, .log, .cls, .buf, .mac, .ecc, .lfr, .act, .keys, .omciUpQ] s
      (runOmciUp m msg s) := by
  refine moves_ite (moves_ite (dropAt_moves.within rfl) (dropUnowned_moves.within rfl)) <| moves_ite (freezeMaster_moves.after rfl <|
    dropUnowned_moves.within rfl) ?_
  dsimp only
  split
  · exact dropAt_moves.after rfl <| omciKey_moves.within rfl
  · exact with_omciUpQ_moves.after rfl <| omciKey_moves.within rfl

theorem runRequest_moves {m : AB} {r : Request} {s : State} : moves (but [.pending, .clock, .era]) s (runRequest m r s) := by
  unfold runRequest
  split
  · exact runReadRec_moves.within rfl
  · exact runWriteRec_moves.within rfl
  · exact runMaskedRec_moves.within rfl
  · exact runDataTx_moves.within rfl
  · exact runOmciUp_moves.within rfl

theorem stirs_moves {r : Request} {old s : State} :
    moves [.regs, .ctrs, .hdrs, .out, .power, .nvs, .links, .buf, .tsu, .seqs, .act, .btx, .psw, .omciUpQ] s (stirs r old s) := by
  unfold stirs
  split
  · exact wakeOn_moves.within rfl
  · exact wakeOn_moves.within rfl
  · exact moves_rfl

theorem runRecord_moves {m : AB} {r : Request} {s : State} : moves (but [.pending, .clock, .era]) s (runRecord m r s) :=
  closeMarks_moves.after rfl <| stirs_moves.after rfl <| runRequest_moves.within rfl

theorem malformed_moves {m : AB} {type tag off cause : Nat} {s : State} :
    moves [.regs, .hdrs, .nvs, .links, .masters, .fw, .log] s (malformed m type tag off cause s) :=
  countMalformed_moves.after rfl <| respond_moves.within rfl

theorem oneRecord_moves {m : AB} {r : Request} {s : State} : moves (but [.pending, .clock, .era]) s (oneRecord m r s) :=
  moves_ite (runRecord_moves.within rfl) (malformed_moves.within rfl)

theorem execRead_moves {m : AB} {tag addr count : Nat} {fixed : Bool} {s : State} :
    goes (but [.pending, .clock, .era]) s (execRead m tag addr count fixed s) := goes_whenOn <| goes_next <| oneRecord_moves.within rfl

theorem execWrite_moves {m : AB} {tag addr : Nat} {fixed : Bool} {data : List Word} {s : State} :
    goes (but [.pending, .clock, .era]) s (execWrite m tag addr fixed data s) := goes_whenOn <| goes_next <| oneRecord_moves.within rfl

theorem execMaskedWrite_moves {m : AB} {tag addr : Nat} {mask value : Word} {s : State} :
    goes (but [.pending, .clock, .era]) s (execMaskedWrite m tag addr mask value s) :=
  goes_whenOn <| goes_next <| oneRecord_moves.within rfl

theorem execDataTx_moves {m : AB} {tag slice : Nat} {first last : Bool} {total : Nat} {desc : List Word} {bytes : List Byte} {s : State} :
    goes (but [.pending, .clock, .era]) s (execDataTx m tag slice first last total desc bytes s) :=
  goes_whenOn <| goes_next <| oneRecord_moves.within rfl

theorem execOmciUp_moves {m : AB} {msg : List Byte} {s : State} : goes (but [.pending, .clock, .era]) s (execOmciUp m msg s) :=
  goes_whenOn <| goes_next <| oneRecord_moves.within rfl

theorem acquireWrite_moves {m : AB} {n : Nat} {f : AcqForm} {s : State} :
    moves (but [.pending, .clock, .era]) s (acquireWrite m n f s) := by
  unfold acquireWrite
  split
  · exact writeReg_moves semStateHandler_moves rfl rfl
  · exact runRecord_moves.within rfl

theorem execSemAcquire_moves {m : AB} {n : Nat} {x : AcqIn} {s : State} :
    goes (but [.pending, .clock, .era]) s (execSemAcquire m n x s) := by
  refine goes_whenOn <| ?_
  dsimp only
  split
  · exact goes_next <| acquireWrite_moves.within rfl
  · exact goes_ite (goes_next <| with_masters_moves.after rfl <| acquireWrite_moves.after rfl <| acquireWrite_moves.within rfl) <|
      goes_next <| acquireWrite_moves.after rfl <| acquireWrite_moves.within rfl

theorem lateUnit_moves {p addr : Nat} {s : State} :
    moves [.regs, .ctrs, .hdrs, .last, .out, .nvs, .links, .log, .cls, .buf, .mac, .chk, .seqs, .act, .btx, .omciUpQ, .seg] s
      (lateUnit p addr s) := stuckUnit_moves.after rfl <| ended_moves.within rfl

theorem mayHaveRun_moves {l : List Part} {effect : State → State} {s : State} (covered : covers [.free] l = true)
    (he : ∀ t, moves l t (effect t)) : moves l s (mayHaveRun effect s) := by
  have drawn : moves [.free] s s.takeFree.2 := takeFree_moves
  exact moves_ite (moves_trans (drawn.within covered) (he _)) (drawn.within covered)

theorem lateRead_moves {m : AB} {tag addr count done : Nat} {fixed : Bool} {s : State} :
    moves (but [.pending, .clock, .era, .dram, .power, .backup, .keeper, .tsu, .psw, .opt]) s (lateRead m tag addr count fixed done s) :=
      by
  unfold lateRead
  dsimp only
  split
  · exact moves_ite (respond_moves.after rfl <| lateUnit_moves.after rfl <| readLoop_moves.within rfl) (runReadRec_moves.within rfl)
  · exact runReadRec_moves.within rfl

theorem lateWrite_moves {m : AB} {tag addr done : Nat} {fixed : Bool} {data : List Word} {s : State} :
    moves (but [.pending, .snaps, .clock, .era]) s (lateWrite m tag addr fixed data done s) := by
  have wrote : ∀ d a, moves (but [.pending, .snaps, .clock, .era]) s (writeLoop m 0x02 tag fixed d a 0 s).2.2 := fun _ _ =>
    writeLoop_moves.within rfl
  have ran : ∀ q v t, moves (but [.pending, .snaps, .clock, .era]) t (mayHaveRun (writeWord m q v) t) := fun _ _ _ =>
    mayHaveRun_moves rfl fun _ => writeWord_moves.within rfl
  unfold lateWrite
  dsimp only
  split
  · refine moves_ite ?_ (runWriteRec_moves.within rfl)
    exact respond_moves.after rfl <| lateUnit_moves.after rfl <| moves_trans (wrote _ _) (ran _ _ _)
  · exact runWriteRec_moves.within rfl

theorem lateMasked_moves {m : AB} {tag addr : Nat} {mask value : Word} {s : State} :
    moves (but [.pending, .snaps, .clock, .era]) s (lateMasked m tag addr mask value s) := by
  unfold lateMasked
  dsimp only
  split
  · exact moves_ite (respond_moves.after rfl <| lateUnit_moves.after rfl <|
      mayHaveRun_moves rfl fun _ => maskedWord_moves.within rfl) (runMaskedRec_moves.within rfl)
  · exact runMaskedRec_moves.within rfl

theorem lateDataTx_moves {m : AB} {tag k : Nat} {first last : Bool} {total : Nat} {desc : List Word} {bytes : List Byte} {s : State} :
    moves (but [.pending, .snaps, .clock, .era, .dram, .power, .backup, .mbx, .keeper, .tsu, .psw, .opt]) s
      (lateDataTx m tag k first last total desc bytes s) :=
  moves_ite (runDataTx_moves.within rfl) <| dataResp_moves.after rfl <| lateUnit_moves.after rfl <|
    mayHaveRun_moves rfl fun _ => runDataTx_moves.within rfl

theorem runLate_moves {m : AB} {r : Request} {done : Nat} {s : State} :
    moves (but [.pending, .clock, .era]) s (runLate m r done s) := by
  refine settle_moves.after rfl <| closeMarks_moves.after rfl <| stirs_moves.after rfl <| ?_
  split
  · exact lateRead_moves.within rfl
  · exact lateWrite_moves.within rfl
  · exact lateMasked_moves.within rfl
  · exact lateDataTx_moves.within rfl
  · exact runOmciUp_moves.within rfl

theorem execTxnTimeout_moves {m : AB} {x : RecForm} {tag addr done : Nat} {s : State} :
    goes (but [.pending, .clock, .era]) s (execTxnTimeout m x tag addr done s) :=
  goes_whenOn <| goes_ite (goes_next <| runLate_moves.within rfl) <| goes_next <| oneRecord_moves.within rfl

theorem runRecords_moves {m : AB} {slow : List (Nat × Nat)} {fuel off : Nat} {free : Bool} {l : List Byte} {s : State} :
    moves (but [.pending, .clock, .era]) s (runRecords m slow fuel off free l s) := by
  induction fuel generalizing off free l s with
  | zero => exact moves_rfl
  | succ fuel ih =>
    unfold runRecords
    split
    · exact moves_rfl
    split
    · exact malformed_moves.within rfl
    dsimp only
    refine moves_trans ?_ ih
    cases slow.find? (fun e => e.1 == off)
    · refine runRecord_moves.after rfl ?_
      split
      · exact countQueued_moves.within rfl
      · exact moves_rfl
    · refine runLate_moves.after rfl ?_
      split
      · exact countQueued_moves.within rfl
      · exact moves_rfl

/-! ### Moves of the control links -/

theorem linkCount_moves {l : AB} {i : Nat} {s : State} : moves [.regs] s (linkCount l i s) := bump_moves.within rfl

theorem emitFrame_moves {l : AB} {f : TxFrame} {s : State} :
    moves [.regs, .ctrs, .hdrs, .out, .free, .nvs, .links, .log, .ecc, .act, .keys] s (emitFrame l f s) :=
  linkCount_moves.after rfl <| emit_moves.after rfl <| transit_moves.within rfl

theorem sendResync_moves {l : AB} {s : State} :
    moves [.regs, .ctrs, .hdrs, .out, .free, .nvs, .links, .log, .ecc, .act, .keys] s (sendResync l s) := emitFrame_moves.within rfl

theorem sendResyncAck_moves {l : AB} {s : State} :
    moves [.regs, .ctrs, .hdrs, .out, .free, .nvs, .links, .log, .ecc, .act, .keys] s (sendResyncAck l s) := emitFrame_moves.within rfl

theorem sendAckonly_moves {l : AB} {nak : Bool} {s : State} :
    moves [.regs, .ctrs, .hdrs, .out, .free, .nvs, .links, .log, .ecc, .act, .keys] s (sendAckonly l nak s) :=
  emitFrame_moves.after rfl <| setLink_moves.within rfl

theorem sendData_moves {l : AB} {seq : Nat} {recs : List Rec} {s : State} :
    moves [.regs, .ctrs, .hdrs, .out, .free, .nvs, .links, .log, .ecc, .act, .keys] s (sendData l seq recs s) :=
  emitFrame_moves.after rfl <| setLink_moves.within rfl

theorem sendNew_moves {l : AB} {s : State} :
    moves [.regs, .ctrs, .hdrs, .out, .free, .nvs, .links, .log, .ecc, .act, .keys] s (sendNew l s) :=
  setLink_moves.after rfl <| sendData_moves.after rfl <| setLink_moves.after rfl <| wroteWord_moves.within rfl

theorem sendWaiting_moves {l : AB} {fuel : Nat} {s : State} : moves [.regs, .ctrs, .hdrs, .out, .free, .nvs, .links, .log, .ecc, .act,
    .keys] s (sendWaiting l fuel s) := by
  induction fuel generalizing s with
  | zero => exact moves_rfl
  | succ fuel ih =>
    exact moves_ite moves_rfl <| moves_ite (moves_ite moves_rfl <| linkCount_moves.after rfl <| setLink_moves.within rfl) <|
      moves_trans (sendNew_moves.within rfl) ih

theorem execPackDelayExpiry_moves {l : AB} {s : State} :
    goes [.regs, .ctrs, .hdrs, .out, .free, .nvs, .links, .log, .ecc, .act, .keys] s (execPackDelayExpiry l s) :=
  goes_linkOn <| goes_next <| sendWaiting_moves.within rfl

theorem execAckDelayExpiry_moves {l : AB} {s : State} :
    goes [.regs, .ctrs, .hdrs, .out, .free, .nvs, .links, .log, .ecc, .act, .keys] s (execAckDelayExpiry l s) :=
  goes_linkOn <| goes_ite (goes_next <| sendAckonly_moves.within rfl) <| goes_next moves_rfl

theorem loseRec_moves {e : Reason} {r : Rec} {s : State} : moves [.regs, .ctrs, .hdrs, .links, .buf] s (loseRec e r s) :=
  moves_ite (dropAt_moves.within rfl) <| moves_ite (dropAt_moves.within rfl) <| moves_ite (dropAt_moves.within rfl) moves_rfl

theorem openEpoch_moves {l : AB} {cause epoch : Nat} {s : State} :
    moves [.regs, .ctrs, .hdrs, .links, .buf] s (openEpoch l cause epoch s) :=
  setLink_moves.after rfl <| moves_foldl (fun _ _ => loseRec_moves.within rfl) <| breakChain_moves.within rfl

theorem startResync_moves {l : AB} {cause : Nat} {s : State} :
    moves [.regs, .ctrs, .hdrs, .out, .free, .nvs, .links, .log, .buf, .ecc, .act, .keys] s (startResync l cause s) :=
  sendResync_moves.after rfl <| setLink_moves.after rfl <| openEpoch_moves.within rfl

theorem startAfterReset_moves {l : AB} {s : State} :
    moves [.regs, .ctrs, .hdrs, .out, .free, .nvs, .links, .log, .buf, .ecc, .act, .keys] s (startAfterReset l s) :=
  sendResync_moves.after rfl <| setLink_moves.after rfl <| openEpoch_moves.within rfl

theorem summaries_moves {l : AB} {s : State} : moves [.links] s (summaries l s) :=
  moves_trans (moves_foldl (fun _ _ => queueEvent_moves.within rfl) <| moves_rfl) <| moves_ite (queueEvent_moves.within rfl) moves_rfl

theorem completeResync_moves {l : AB} {ack : Option Nat} {s : State} : moves [.regs, .hdrs, .links] s (completeResync l ack s) :=
  pushRings_moves.after rfl <| summaries_moves.after rfl <| setLink_moves.after rfl <| raise_moves.after rfl <|
    linkCount_moves.after rfl <| bump_moves.after rfl <| setLink_moves.within rfl

theorem learnPeer_moves {l : AB} {sa : Nat} {s : State} : moves [.links] s (learnPeer l sa s) :=
  moves_ite moves_rfl (setLink_moves.within rfl)

theorem takeAck_moves {l : AB} {ack : Nat} {s : State} : moves [.regs, .links] s (takeAck l ack s) :=
  moves_ite (linkCount_moves.within rfl) <| moves_ite moves_rfl (setLink_moves.within rfl)

theorem replayFrames_moves {l : AB} {fs : List (Nat × List Rec)} {s : State} : moves [.regs, .ctrs, .hdrs, .out, .free, .nvs, .links,
    .log, .cls, .buf, .mac, .ecc, .lfr, .act, .keys] s (replayFrames l fs s) := by
  induction fs generalizing s with
  | nil => exact moves_rfl
  | cons f fs ih =>
    exact moves_ite (startResync_moves.after rfl <| readLoc_moves.within rfl) <|
      moves_trans (sendData_moves.after rfl <| readLoc_moves.within rfl) ih

theorem replayAll_moves {l : AB} {s : State} : moves [.regs, .ctrs, .hdrs, .out, .free, .nvs, .links, .log, .cls, .buf, .mac, .ecc, .lfr,
    .act, .keys] s (replayAll l s) :=
  moves_ite (setLink_moves.within rfl) <| replayFrames_moves.after rfl <| linkCount_moves.after rfl <| setLink_moves.within rfl

theorem takeData_moves {l : AB} {seq : Nat} {area : List Byte} {slow : List (Nat × Nat)} {s : State} :
    moves (but [.pending, .clock, .era]) s (takeData l seq area slow s) := by
  have gap : moves (but [.pending, .clock, .era]) s (linkCount l 9 s) := linkCount_moves.within rfl
  unfold takeData
  refine moves_ite (runRecords_moves.after rfl <| setLink_moves.within rfl) <|
    moves_ite (linkCount_moves.after rfl <| setLink_moves.within rfl) ?_
  exact moves_ite gap <| sendAckonly_moves.after rfl <| setLink_moves.after rfl gap

theorem staleFrame_moves {l : AB} {s : State} : moves [.regs, .hdrs, .links] s (staleFrame l s) :=
  raise_moves.after rfl <| linkCount_moves.within rfl

theorem acceptResync_moves {l : AB} {f : RxFrame} {s : State} :
    moves [.regs, .ctrs, .hdrs, .out, .free, .nvs, .links, .log, .buf, .ecc, .act, .keys] s (acceptResync l f s) :=
  completeResync_moves.after rfl <| sendResyncAck_moves.after rfl <| setLink_moves.after rfl <| learnPeer_moves.after rfl <|
    openEpoch_moves.within rfl

theorem takeResync_moves {l : AB} {f : RxFrame} {s : State} :
    moves [.regs, .ctrs, .hdrs, .out, .free, .nvs, .links, .log, .buf, .ecc, .act, .keys] s (takeResync l f s) :=
  moves_ite (moves_ite (completeResync_moves.after rfl <| sendResyncAck_moves.after rfl <|
    learnPeer_moves.within rfl) (sendResyncAck_moves.within rfl)) <| moves_ite (sendResyncAck_moves.within rfl) <|
    moves_ite (acceptResync_moves.within rfl) (staleFrame_moves.within rfl)

theorem takeOther_moves {l : AB} {f : RxFrame} {s : State} : moves (but [.pending, .clock, .era]) s (takeOther l f s) :=
  moves_trans (setLink_moves.within rfl) <| moves_ite (moves_ite (completeResync_moves.after rfl <|
    learnPeer_moves.within rfl) moves_rfl) <| moves_ite (staleFrame_moves.within rfl) <| moves_trans (takeAck_moves.within rfl) <|
    moves_ite (moves_ite (replayAll_moves.within rfl) moves_rfl) (takeData_moves.within rfl)

theorem receiveFrame_moves {l : AB} {f : RxFrame} {s : State} : moves (but [.pending, .clock, .era]) s (receiveFrame l f s) :=
  moves_ite moves_rfl <| moves_ite (dropUnowned_moves.after rfl <| raise_moves.after rfl <| bump_moves.within rfl) <|
    moves_trans (linkCount_moves.after rfl <| transit_moves.within rfl) <| moves_ite (linkCount_moves.within rfl) <|
    moves_ite (linkCount_moves.within rfl) <| moves_ite (raise_moves.after rfl <| linkCount_moves.within rfl) <|
    moves_ite (linkCount_moves.within rfl) <| moves_ite (linkCount_moves.within rfl) <| moves_ite (takeResync_moves.within rfl) <|
    moves_ite (staleFrame_moves.within rfl) (takeOther_moves.within rfl)

theorem execDataFrameReceive_moves {l : AB} {f : RxFrame} {s : State} :
    goes (but [.pending, .clock, .era]) s (execDataFrameReceive l f s) := goes_linkOn <| goes_next <| receiveFrame_moves.within rfl

theorem execAckonlyReceive_moves {l : AB} {f : RxFrame} {s : State} :
    goes (but [.pending, .clock, .era]) s (execAckonlyReceive l f s) := goes_linkOn <| goes_next <| receiveFrame_moves.within rfl

theorem execResyncReceive_moves {l : AB} {f : RxFrame} {s : State} :
    goes (but [.pending, .clock, .era]) s (execResyncReceive l f s) := goes_linkOn <| goes_next <| receiveFrame_moves.within rfl

theorem execResyncAckReceive_moves {l : AB} {f : RxFrame} {s : State} :
    goes (but [.pending, .clock, .era]) s (execResyncAckReceive l f s) := goes_linkOn <| goes_next <| receiveFrame_moves.within rfl

theorem execAckTimeout_moves {l : AB} {s : State} :
    goes [.regs, .ctrs, .hdrs, .out, .free, .nvs, .links, .log, .cls, .buf, .mac, .ecc, .lfr, .act, .keys] s (execAckTimeout l s) :=
  goes_linkOn <| goes_ite (goes_next moves_rfl) <| goes_ite (goes_next <| startResync_moves.within rfl) <| goes_next <|
    replayAll_moves.within rfl

theorem execResyncStart_moves {l : AB} {s : State} :
    goes [.regs, .ctrs, .hdrs, .out, .free, .nvs, .links, .log, .buf, .ecc, .act, .keys] s (execResyncStart l s) :=
  goes_linkOn <| goes_ite (goes_next <| startResync_moves.within rfl) <| goes_next moves_rfl

theorem execResyncRepeat_moves {l : AB} {s : State} :
    goes [.regs, .ctrs, .hdrs, .out, .free, .nvs, .links, .log, .ecc, .act, .keys] s (execResyncRepeat l s) :=
  goes_linkOn <| goes_ite (goes_next <| sendResync_moves.within rfl) <| goes_next moves_rfl

theorem execLinkLoss_moves {l : AB} {s : State} : goes [.links] s (execLinkLoss l s) :=
  goes_linkOn <| goes_next <| setLink_moves.within rfl

theorem execLinkdownExpiry_moves {l : AB} {s : State} : goes [.regs, .ctrs, .hdrs, .links, .buf] s (execLinkdownExpiry l s) :=
  goes_linkOn <| goes_ite (goes_next moves_rfl) <| goes_next <| raise_moves.after rfl <|
    moves_foldl (fun _ _ => loseRec_moves.within rfl) <| setLink_moves.within rfl

theorem execLinkReturn_moves {l : AB} {s : State} :
    goes [.regs, .ctrs, .hdrs, .out, .free, .nvs, .links, .log, .buf, .ecc, .act, .keys] s (execLinkReturn l s) :=
  goes_linkOn <| goes_ite (goes_next <| setLink_moves.within rfl) <| goes_ite (goes_next <| startAfterReset_moves.after rfl <|
    setLink_moves.within rfl) <| goes_next <| startResync_moves.after rfl <| setLink_moves.within rfl

/-! ### Moves of the passing of time -/

theorem tickSem_moves {n : Nat} {s : State} : moves [.masters] s (tickSem n s) := setSem_moves.within rfl

theorem tickMasters_moves {s : State} : moves [.masters] s (tickMasters s) :=
  with_masters_moves.after rfl <| moves_foldl (fun _ _ => tickSem_moves.within rfl) <| moves_rfl

theorem tickDrain_moves {p : Nat} {s : State} : moves [.hdrs] s (tickDrain p s) := moves_ite (setHdr_moves.within rfl) moves_rfl

theorem tickSeq_moves {n : Nat} {s : State} : moves [.seqs] s (tickSeq n s) := setSeq_moves.within rfl

theorem tickKeeper_moves {s : State} : moves [.keeper] s (tickKeeper s) := with_keeper_moves.within rfl

theorem tickLogic_moves {s : State} :
    moves (but [.pending, .snaps, .last, .clock, .era, .dram, .backup, .mbx, .fw, .chk, .opt]) s (tickLogic s) :=
  with_ecc_moves.after rfl <| moves_foldl (fun _ _ => tickSeq_moves.within rfl) <|
    moves_foldl (fun _ _ => tickDrain_moves.within rfl) <| tickKeeper_moves.after rfl <| tickMasters_moves.after rfl <|
    refillChurn_moves.after rfl <| refillBuckets_moves.after rfl <| tsuTick_moves.after rfl <| wakeOn_moves.after rfl <|
    segRun_moves.within rfl

theorem tick_moves {s : State} : moves (but [.pending, .snaps, .last, .era, .dram, .mbx, .fw, .chk, .opt]) s (tick s) := by
  unfold tick
  exact moves_trans (rtcTick_moves.after rfl <| with_clock_backup_moves.within rfl) <| moves_ite (tickLogic_moves.within rfl) moves_rfl

theorem withFetchWord_moves {s : State} {nbits w : Nat} : moves [.pending] s (s.withFetchWord nbits w) := by
  unfold State.withFetchWord
  split
  · exact with_pending_moves.within rfl
  · exact moves_rfl

/-! ### Every command -/

/-- Every command goes on and keeps the tables canonical. -/
theorem exec_goes (i : Instr) (s : State) : goes allParts s (exec i s) := by
  cases i with
  | wake => exact execWake_moves.whole
  | powerOn => exact execPowerOn_moves.whole
  | regReady => exact execRegReady_moves.whole
  | oscReady => exact execOscReady_moves.whole
  | memReady => exact execMemReady_moves.whole
  | logicReady => exact execLogicReady_moves.whole
  | startupStepTimeout => exact execStartupStepTimeout_moves.whole
  | startupRetry => exact execStartupRetry_moves.whole
  | resetPin => exact execResetPin_moves.whole
  | pgoodLoss => exact execPgoodLoss_moves.whole
  | resetCmd => exact execResetCmd_moves.whole
  | hostReset => exact execHostReset_moves.whole
  | shutdown => exact execShutdown_moves.whole
  | reattach => exact execReattach_moves.whole
  | thermal => exact execThermal_moves.whole
  | powerdownComplete => exact execPowerdownComplete_moves.whole
  | mainPowerLoss => exact execMainPowerLoss_moves.whole
  | vioLoss => exact execVioLoss_moves.whole
  | vauxLow => exact execVauxLow_moves.whole
  | vauxRestore => exact execVauxRestore_moves.whole
  | refclkLoss => exact execRefclkLoss_moves.whole
  | paceWindow => exact execPaceWindow_moves.whole
  | loopPeriod => exact execLoopPeriod_moves.whole
  | vstepAck => exact execVstepAck_moves.whole
  | stepSettleTimeout => exact execStepSettleTimeout_moves.whole
  | pmbusRetry => exact execPmbusRetry_moves.whole
  | stalledRetry => exact execStalledRetry_moves.whole
  | pmbAlert => exact execPmbAlert_moves.whole
  | pmbusPoll => exact execPmbusPoll_moves.whole
  | loopConfigWrite => exact execLoopConfigWrite_moves.whole
  | handshakeStuck => exact execHandshakeStuck_moves.whole
  | dataFrameReceive => exact execDataFrameReceive_moves.whole
  | ackonlyReceive => exact execAckonlyReceive_moves.whole
  | resyncReceive => exact execResyncReceive_moves.whole
  | resyncAckReceive => exact execResyncAckReceive_moves.whole
  | ackTimeout => exact execAckTimeout_moves.whole
  | resyncStart => exact execResyncStart_moves.whole
  | resyncRepeat => exact execResyncRepeat_moves.whole
  | ackDelayExpiry => exact execAckDelayExpiry_moves.whole
  | packDelayExpiry => exact execPackDelayExpiry_moves.whole
  | linkLoss => exact execLinkLoss_moves.whole
  | linkdownExpiry => exact execLinkdownExpiry_moves.whole
  | linkReturn => exact execLinkReturn_moves.whole
  | txnTimeout => exact execTxnTimeout_moves.whole
  | read => exact execRead_moves.whole
  | write => exact execWrite_moves.whole
  | maskedWrite => exact execMaskedWrite_moves.whole
  | dataTx => exact execDataTx_moves.whole
  | omciUp => exact execOmciUp_moves.whole
  | ctlResyncCmd => exact execCtlResyncCmd_moves.whole
  | ctlMacWrite => exact execCtlMacWrite_moves.whole
  | regWrite => exact execRegWrite_moves.whole
  | blockEnable => exact execBlockEnable_moves.whole
  | blockDrain => exact execBlockDrain_moves.whole
  | blockReset => exact execBlockReset_moves.whole
  | blockResetDone => exact execBlockResetDone_moves.whole
  | localHoldRelease => exact execLocalHoldRelease_moves.whole
  | faultDetailRead => exact execFaultDetailRead_moves.whole
  | selftestStart => exact execSelftestStart_moves.whole
  | selftestDone => exact execSelftestDone_moves.whole
  | intClear => exact execIntClear_moves.whole
  | counterHiRead => exact execCounterHiRead_moves.whole
  | rtcHiRead => exact execRtcHiRead_moves.whole
  | sfcHiRead => exact execSfcHiRead_moves.whole
  | tsuTimeRead => exact execTsuTimeRead_moves.whole
  | semAcquire => exact execSemAcquire_moves.whole
  | semRelease => exact execSemRelease_moves.whole
  | leaseExpiry => exact execLeaseExpiry_moves.whole
  | malfWindowEnd => exact execMalfWindowEnd_moves.whole
  | releaseA => exact execReleaseA_moves.whole
  | releaseB => exact execReleaseB_moves.whole
  | mbxDataWrite => exact execMbxDataWrite_moves.whole
  | mbxDoorbell => exact execMbxDoorbell_moves.whole
  | mbxTake => exact execMbxTake_moves.whole
  | keeperTake => exact execKeeperTake_moves.whole
  | info => exact execInfo_moves.whole
  | echo => exact execEcho_moves.whole
  | captureStatus => exact execCaptureStatus_moves.whole
  | captureRead => exact execCaptureRead_moves.whole
  | captureFree => exact execCaptureFree_moves.whole
  | keeperReply => exact execKeeperReply_moves.whole
  | fwOpen => exact execFwOpen_moves.whole
  | fwClose => exact execFwClose_moves.whole
  | fwLoad => exact execFwLoad_moves.whole
  | fwCheckDone => exact execFwCheckDone_moves.whole
  | fwWriteDone => exact execFwWriteDone_moves.whole
  | fwCommit => exact execFwCommit_moves.whole
  | fwRom => exact execFwRom_moves.whole
  | fwRestart => exact execFwRestart_moves.whole
  | fwConfirm => exact execFwConfirm_moves.whole
  | keeperWatchdog => exact execKeeperWatchdog_moves.whole
  | ownerMaskWrite => exact execOwnerMaskWrite_moves.whole
  | xpermitWrite => exact execXpermitWrite_moves.whole
  | sliceAllocWrite => exact execSliceAllocWrite_moves.whole
  | drainQueuesEmpty => exact execDrainQueuesEmpty_moves.whole
  | drainLimitExpiry => exact execDrainLimitExpiry_moves.whole
  | flushDone => exact execFlushDone_moves.whole
  | backupPowerUp => exact execBackupPowerUp_moves.whole
  | vbatMeasure => exact execVbatMeasure_moves.whole
  | rtcLineLoad => exact execRtcLineLoad_moves.whole
  | rtcSet => exact execRtcSet_moves.whole
  | sealPulse => exact execSealPulse_moves.whole
  | sealPeriodWrite => exact execSealPeriodWrite_moves.whole
  | sealAck => exact execSealAck_moves.whole
  | presencePress => exact execPresencePress_moves.whole
  | pressWindowExpiry => exact execPressWindowExpiry_moves.whole
  | prsClose => exact execPrsClose_moves.whole
  | tamperClear => exact execTamperClear_moves.whole
  | backupRecordWrite => exact execBackupRecordWrite_moves.whole
  | nvsCheckpoint => exact execNvsCheckpoint_moves.whole
  | psbdArrival => exact execPsbdArrival_moves.whole
  | rateDwellExpiry => exact execRateDwellExpiry_moves.whole
  | xgemFrameReceive => exact execXgemFrameReceive_moves.whole
  | losDeclare => exact execLosDeclare_moves.whole
  | losClear => exact execLosClear_moves.whole
  | sdSecond => exact execSdSecond_moves.whole
  | portIdWrite => exact execPortIdWrite_moves.whole
  | rateModeWrite => exact execRateModeWrite_moves.whole
  | keyLoad => exact execKeyLoad_moves.whole
  | burstProfile => exact execBurstProfile_moves.whole
  | assignOnuId => exact execAssignOnuId_moves.whole
  | rangingTime => exact execRangingTime_moves.whole
  | deactivateOnuId => exact execDeactivateOnuId_moves.whole
  | disableSerialNumber => exact execDisableSerialNumber_moves.whole
  | requestRegistration => exact execRequestRegistration_moves.whole
  | assignAllocId => exact execAssignAllocId_moves.whole
  | keyControl => exact execKeyControl_moves.whole
  | sleepAllow => exact execSleepAllow_moves.whole
  | unsupportedPloam => exact execUnsupportedPloam_moves.whole
  | eqdApply => exact execEqdApply_moves.whole
  | to1Expiry => exact execTo1Expiry_moves.whole
  | to2Expiry => exact execTo2Expiry_moves.whole
  | dozeEnter => exact execDozeEnter_moves.whole
  | watch => exact execWatch_moves.whole
  | lowPowerStart => exact execLowPowerStart_moves.whole
  | wakeCmd => exact execWakeCmd_moves.whole
  | sleepEnWrite => exact execSleepEnWrite_moves.whole
  | gateReacqTimeout => exact execGateReacqTimeout_moves.whole
  | rerangeTimeout => exact execRerangeTimeout_moves.whole
  | allocPrefetch => exact execAllocPrefetch_moves.whole
  | benAssert => exact execBenAssert_moves.whole
  | burstEnd => exact execBurstEnd_moves.whole
  | nodeMapWrite => exact execNodeMapWrite_moves.whole
  | switchComplete => exact execSwitchComplete_moves.whole
  | pswClear => exact execPswClear_moves.whole
  | pswManual => exact execPswManual_moves.whole
  | pswForce => exact execPswForce_moves.whole
  | pswLockout => exact execPswLockout_moves.whole
  | wtrExpiry => exact execWtrExpiry_moves.whole
  | moduleInsert => exact execModuleInsert_moves.whole
  | moduleRemove => exact execModuleRemove_moves.whole
  | idReadStart => exact execIdReadStart_moves.whole
  | idReadDone => exact execIdReadDone_moves.whole
  | idReadRetry => exact execIdReadRetry_moves.whole
  | diagPoll => exact execDiagPoll_moves.whole
  | laserSecond => exact execLaserSecond_moves.whole
  | lifeRecordWrite => exact execLifeRecordWrite_moves.whole
  | lifeLimitWrite => exact execLifeLimitWrite_moves.whole
  | txCtrlWrite => exact execTxCtrlWrite_moves.whole
  | clientFrameReceive => exact execClientFrameReceive_moves.whole
  | pauseExpiry => exact execPauseExpiry_moves.whole
  | xoffRefresh => exact execXoffRefresh_moves.whole
  | linkChange => exact execLinkChange_moves.whole
  | macModeWrite => exact execMacModeWrite_moves.whole
  | frameTransmit => exact execFrameTransmit_moves.whole
  | tsqPop => exact execTsqPop_moves.whole
  | laneLookup => exact execLaneLookup_moves.whole
  | churnPass => exact execChurnPass_moves.whole
  | ruleRead => exact execRuleRead_moves.whole
  | ruleWrite => exact execRuleWrite_moves.whole
  | ruleClear => exact execRuleClear_moves.whole
  | puntCapture => exact execPuntCapture_moves.whole
  | laneStall => exact execLaneStall_moves.whole
  | bucketReturn => exact execBucketReturn_moves.whole
  | schedRelease => exact execSchedRelease_moves.whole
  | skimRecordWrite => exact execSkimRecordWrite_moves.whole
  | ringCfgWrite => exact execRingCfgWrite_moves.whole
  | ringRdWrite => exact execRingRdWrite_moves.whole
  | shaperWrite => exact execShaperWrite_moves.whole
  | bufPeakRead => exact execBufPeakRead_moves.whole
  | armLoad => exact execArmLoad_moves.whole
  | slewDone => exact execSlewDone_moves.whole
  | holdoverLimit => exact execHoldoverLimit_moves.whole
  | calStart => exact execCalStart_moves.whole
  | calDone => exact execCalDone_moves.whole
  | ppsOutEdge => exact execPpsOutEdge_moves.whole
  | ppsOutFall => exact execPpsOutFall_moves.whole
  | todOutSend => exact execTodOutSend_moves.whole
  | ppsInEdge => exact execPpsInEdge_moves.whole
  | todInMessage => exact execTodInMessage_moves.whole
  | ppsInLoss => exact execPpsInLoss_moves.whole
  | synceSquelchEnd => exact execSynceSquelchEnd_moves.whole
  | hostAdjust => exact execHostAdjust_moves.whole
  | timeSet => exact execTimeSet_moves.whole
  | add => exact execAdd_moves.whole
  | sub => exact execSub_moves.whole
  | and => exact execAnd_moves.whole
  | or => exact execOr_moves.whole
  | xor => exact execXor_moves.whole
  | shl => exact execShl_moves.whole
  | shr => exact execShr_moves.whole
  | sra => exact execSra_moves.whole
  | sltu => exact execSltu_moves.whole
  | slt => exact execSlt_moves.whole
  | mul => exact execMul_moves.whole
  | mulhu => exact execMulhu_moves.whole
  | addi => exact execAddi_moves.whole
  | andi => exact execAndi_moves.whole
  | ori => exact execOri_moves.whole
  | xori => exact execXori_moves.whole
  | shli => exact execShli_moves.whole
  | shri => exact execShri_moves.whole
  | lui => exact execLui_moves.whole
  | sltiu => exact execSltiu_moves.whole
  | lw => exact execLw_moves.whole
  | lh => exact execLh_moves.whole
  | lb => exact execLb_moves.whole
  | sw => exact execSw_moves.whole
  | sh => exact execSh_moves.whole
  | sb => exact execSb_moves.whole
  | ldx => exact execLdx_moves.whole
  | ldxReturn => exact execLdxReturn_moves.whole
  | stx => exact execStx_moves.whole
  | beq => exact execBeq_moves.whole
  | bne => exact execBne_moves.whole
  | bltu => exact execBltu_moves.whole
  | bgeu => exact execBgeu_moves.whole
  | jal => exact execJal_moves.whole
  | jalr => exact execJalr_moves.whole
  | rdtime => exact execRdtime_moves.whole
  | tset => exact execTset_moves.whole
  | wait => exact execWait_moves.whole
  | waitReturn => exact execWaitReturn_moves.whole
  | wdog => exact execWdog_moves.whole
  | evt => exact execEvt_moves.whole
  | cnt => exact execCnt_moves.whole
  | fsend => exact execFsend_moves.whole
  | rxhead => exact execRxhead_moves.whole
  | rxfree => exact execRxfree_moves.whole
  | cstart => exact execCstart_moves.whole
  | cfeed => exact execCfeed_moves.whole
  | cres => exact execCres_moves.whole
  | cresReturn => exact execCresReturn_moves.whole
  | halt => exact execHalt_moves.whole
  | illegalInstruction => exact execIllegalInstruction_moves.whole
  | icacheFill => exact execIcacheFill_moves.whole
  | seqTimerFire => exact execSeqTimerFire_moves.whole
  | seqWatchdog => exact execSeqWatchdog_moves.whole
  | seqRestart => exact execSeqRestart_moves.whole
  | seqInv => exact execSeqInv_moves.whole
  | dmemDataRead => exact execDmemDataRead_moves.whole
  | dmemDataWrite => exact execDmemDataWrite_moves.whole
  | chkStart => exact execChkStart_moves.whole
  | chkFeedByte => exact execChkFeedByte_moves.whole
  | chkFeedHalf => exact execChkFeedHalf_moves.whole
  | chkFeedWord => exact execChkFeedWord_moves.whole
  | chkResultRead => exact execChkResultRead_moves.whole
  | scrubRow => exact execScrubRow_moves.whole
  | targetedSelftestDone => exact execTargetedSelftestDone_moves.whole
  | flipArm => exact execFlipArm_moves.whole
  | nvsCommit => exact execNvsCommit_moves.whole
  | trainComplete => exact execTrainComplete_moves.whole
  | retrain => exact execRetrain_moves.whole
  | twoWireRetry => exact execTwoWireRetry_moves.whole
  | thermalWarn => exact execThermalWarn_moves.whole

theorem step_goes (s : State) : ∃ t, step s = .next t ∧ (s.canonical = true → t.canonical = true) := by
  unfold step
  split
  · exact ⟨_, rfl, tick_moves.2⟩
  · rename_i c rest _
    obtain ⟨t, done, moved⟩ := exec_goes c { s with pending := rest }
    exact ⟨t, done, moved.2 ∘ with_pending_moves.2⟩

/-- Settles O4, by the rules of every command and of the passing of time. -/
theorem everyStepGoesOn : Obligations.EveryStepGoesOn := fun s =>
  let ⟨t, done, _⟩ := step_goes s
  ⟨t, done⟩

/-- Settles O60, by the rules of every command and of the passing of time. -/
theorem tablesStayCanonical : Obligations.TablesStayCanonical := by
  intro s t canonical done
  obtain ⟨u, next, kept⟩ := step_goes s
  obtain rfl : u = t := Host.Outcome.next.inj (next.symm.trans done)
  exact kept canonical

end Sys2Proof.Machine

/-!
PROOFS. What the statements' proofs share: addresses, and frames read off moves.
-/

namespace Sys2Proof.Machine

/-! ### Register addresses -/

theorem regAddr_eq_iff {p q x y : Nat} (hx : x < 0x1000) (hy : y < 0x1000) : regAddr p x = regAddr q y ↔ p = q ∧ x = y := by
  simp only [regAddr]
  omega

theorem regAddr_div {p x : Nat} (hx : x < 0x1000) : regAddr p x / 0x1000 = p := by
  simp only [regAddr]
  omega

theorem regAddr_mod {p x : Nat} (hx : x < 0x1000) : regAddr p x % 0x1000 = x := by
  simp only [regAddr]
  omega

/-! ### Frames read off moves -/

/-- The parts outside a list of parts that may move are alike. -/
theorem alike_of_moves {l m : List Part} {s t : State} (h : moves m s t) (apart : l.all (fun p => !m.contains p) = true) : alike l s t :=
  fun p hp => h.1 p fun hm => by
    have := List.all_eq_true.mp apart p hp
    rw [List.contains_iff_mem.mpr hm] at this
    cases this

theorem part_of_moves {m : List Part} {s t : State} (p : Part) (h : moves m s t) (apart : m.contains p = false) : p.same s t :=
  h.1 p fun hm => by
    rw [List.contains_iff_mem.mpr hm] at apart
    cases apart

/-- An accepted write has its effect, where one use of a presence token may be counted before (R220). -/
theorem writeReg_used {m : AB} {p off : Nat} {h : Handler} {v : Word} {s : State} (ok : admits m p off h v s = true) :
    ∃ u, moves [.regs] s u ∧ keepsRegs [regAddr pPrs 0x110] s u ∧ writeReg m p off h v s = ended .ok 0 .none (h.run m v u) :=
  ⟨_, moves_ite bump_moves moves_rfl, ite_all (P := keepsRegs _ s) (wr_keepsRegs _ _ _) (keepsRegs_refl _ _),
    writeReg_admits _ _ _ _ _ _ ok⟩

end Sys2Proof.Machine

/-!
PROOFS. Snapshots (R557): what a read of a HI word keeps for its master (O32).
-/

namespace Sys2Proof.Machine

/-! ### Snapshots -/

section
variable {m : AB} {a : Nat} {s : State}

@[simp] theorem snap_setSnap_same (v : Word) : (s.setSnap m a v).snap m a = some v := by
  simp only [State.snap, State.setSnap, Pair.get_set_same, tblGet_tblSet_same]

theorem snap_setSnap_other {b : Nat} (h : b ≠ a) (v : Word) : (s.setSnap m a v).snap m b = s.snap m b := by
  simp only [State.snap, State.setSnap, Pair.get_set_same]
  exact tblGet_tblSet_other none none _ h _

/-- Words kept for one master leave the other master's as they are. -/
theorem foldl_setSnap_other (l : List (Nat × Word)) (s : State) :
    (l.foldl (fun s e => s.setSnap m e.1 e.2) s).snaps.get m.other = s.snaps.get m.other := by
  induction l generalizing s with
  | nil => rfl
  | cons e l ih => exact (ih _).trans (Pair.get_set_other _ (AB.other_ne m) _)

/-- A read that takes a snapshot answers its value, and the snapshot is all that it changes. -/
theorem runRead_takeSnap {p off : Nat} (v : Word) (ok : readable m p off s = true) {P : State → Prop}
    (kept : P (ended .ok v .none (takeSnap m (regAddr p off) s))) :
    ∃ t, Host.Outcome.next (runRead m p off v (takeSnap m (regAddr p off)) s) = (.next t : Result State) ∧
      t.last = ⟨.ok, v, .none⟩ ∧ P t ∧ t.snaps.get m.other = s.snaps.get m.other ∧ keepsRegs [] s t ∧ keeps [.last, .snaps] s t := by
  have moved : keeps [.last, .snaps] s (ended .ok v .none (takeSnap m (regAddr p off) s)) :=
    (ended_moves.after rfl <| takeSnap_moves.within rfl : moves [.last, .snaps] _ _).1
  exact ⟨_, congrArg _ (runRead_readable m p off v _ s ok), rfl, kept, foldl_setSnap_other _ s, keepsRegs_of_keeps moved (by decide), moved⟩

theorem ended_snap (st : Status) (d : Word) (c : Cause) (t : State) (b : Nat) : (ended st d c t).snap m b = t.snap m b := rfl

/-- The wide counters of a page lie in its register area. -/
theorem ctrRange_bounds {i : PageInfo} {b n : Nat} (h : ctrRange i = some (b, n)) : 0x100 ≤ b ∧ b + 8 * n ≤ 0x1000 := by
  grind [ctrRange]

/-- The HI word of a wide counter stands in no other group of words. -/
theorem snapGroup_counter {p b n k : Nat} {i : PageInfo} (page : pageInfo p = some i) (range : ctrRange i = some (b, n)) (hk : k < n) :
    snapGroup (regAddr p (b + 8 * k)) s = [(regAddr p (b + 8 * k) + 4, ctrLoWord (regAddr p (b + 8 * k)) s)] := by
  obtain ⟨-, high⟩ := ctrRange_bounds range
  have low : b + 8 * k < 0x1000 := by omega
  have apart : ∀ {q off : Nat} {j : PageInfo}, off < 0x1000 → pageInfo q = some j → (ctrRange j).all (fun x => decide (off < x.1)) = true →
      regAddr p (b + 8 * k) ≠ regAddr q off := by
    intro q off j hoff hq hj he
    obtain ⟨rfl, rfl⟩ := (regAddr_eq_iff low hoff).mp he
    obtain rfl : i = j := Option.some.inj (page.symm.trans hq)
    rw [range, Option.all_some, decide_eq_true_eq] at hj
    omega
  have hi : ctrHi i (b + 8 * k) = some (b + 8 * k) := by
    simp only [ctrHi, range]
    rw [if_pos (by omega)]
    congr 1
    omega
  unfold snapGroup
  rw [if_neg (apart (by decide) (j := ⟨.bkp, 0, 0⟩) rfl rfl),
    if_neg (not_or.mpr ⟨apart (by decide) (j := ⟨.lfr, 0, 0⟩) rfl rfl, apart (by decide) (j := ⟨.lfr, 1, 0⟩) rfl rfl⟩),
    if_neg (apart (by decide) (j := ⟨.tsu, 0, 0⟩) rfl rfl), regAddr_div low, regAddr_mod low]
  simp only [page, hi, if_true]

end

/-! ### The statement -/

/-- Settles O32, by the words of each group. -/
theorem snapshotsAreTaken : Obligations.SnapshotsAreTaken := by
  intro m s on
  refine ⟨fun p i b n k page range hk ok => ?_, fun ok => ?_, fun f ok => ?_, fun ok => ?_⟩
  · simp only [exec, execCounterHiRead, whenOn_running on, page, Option.bind_some, range, Nat.mod_eq_of_lt hk]
    refine runRead_takeSnap _ ok ?_
    simp only [ended_snap, takeSnap, snapGroup_counter page range hk, List.foldl_cons, List.foldl_nil, snap_setSnap_same, ctrLoWord]
  · simp only [exec, execRtcHiRead, whenOn_running on]
    obtain ⟨t, next, last, ⟨sec, sub⟩, frame⟩ := runRead_takeSnap (word (s.backup.rtcSec / 2 ^ 32)) ok (P := fun t =>
      t.snap m (regAddr pBkp 0x108) = some (word s.backup.rtcSec) ∧ t.snap m (regAddr pBkp 0x10C) = some (word s.backup.rtcSub)) (by
        have group : snapGroup (regAddr pBkp 0x104) s =
          [(regAddr pBkp 0x108, word s.backup.rtcSec), (regAddr pBkp 0x10C, word s.backup.rtcSub)] := if_pos rfl
        simp only [takeSnap, group, List.foldl_cons, List.foldl_nil]
        exact ⟨(snap_setSnap_other (by decide) _).trans (snap_setSnap_same _), snap_setSnap_same _⟩)
    exact ⟨t, next, last, sec, sub, frame⟩
  · simp only [exec, execSfcHiRead, whenOn_running on]
    refine runRead_takeSnap _ ok ?_
    have group : snapGroup (regAddr (pLfr f) 0x11C) s = [(regAddr (pLfr f) 0x120, s.rp (pLfr f) 0x120)] := by
      cases f
      · exact (if_neg (by decide)).trans (if_pos (by decide))
      · exact (if_neg (by decide)).trans (if_pos (by decide))
    rw [takeSnap, group]
    exact snap_setSnap_same _
  · simp only [exec, execTsuTimeRead, whenOn_running on]
    obtain ⟨t, next, last, ⟨sec, ns, frac⟩, frame⟩ := runRead_takeSnap (word (s.nowSec / 2 ^ 32 % 65536)) ok (P := fun t =>
      t.snap m (regAddr pTsu 0x114) = some (word s.nowSec) ∧ t.snap m (regAddr pTsu 0x118) = some (word s.nowNs) ∧
        t.snap m (regAddr pTsu 0x11C) = some (word s.nowFrac)) (by
        have group : snapGroup (regAddr pTsu 0x110) s =
          [(regAddr pTsu 0x114, word s.nowSec), (regAddr pTsu 0x118, word s.nowNs), (regAddr pTsu 0x11C, word s.nowFrac)] :=
          (if_neg (by decide)).trans ((if_neg (by decide)).trans (if_pos rfl))
        simp only [takeSnap, group, List.foldl_cons, List.foldl_nil]
        exact ⟨(snap_setSnap_other (by decide) _).trans ((snap_setSnap_other (by decide) _).trans (snap_setSnap_same _)),
          (snap_setSnap_other (by decide) _).trans (snap_setSnap_same _), snap_setSnap_same _⟩)
    exact ⟨t, next, last, sec, ns, frac, frame⟩

end Sys2Proof.Machine

/-!
PROOFS. Operating modes under events of the line, and the power commands of a master (O10).
-/

namespace Sys2Proof.Machine

/-! ### The operating mode -/

section
variable {s : State}

theorem transition_power (dst : Mode) (cause : Nat) (s : State) :
    (transition dst cause s).power = { s.power with mode := dst, lastCause := cause } := by
  have hist : ∀ rtc, (writeHist s.power.mode dst cause rtc s).power = s.power := fun _ =>
    part_of_moves .power writeHist_moves rfl
  have counted : ∀ t : State, (if cause = 0x30 then t.bump (regAddr pPwr 0x10C) 1 else t).power = t.power := fun t => by
    split <;> rfl
  have raised : ∀ t, (raise pPwr 0 t).power = t.power := fun _ => part_of_moves .power raise_moves rfl
  unfold transition
  rw [raised]
  simp only [counted, hist]

/-- A transition names the mode and its cause; what follows it leaves the power state. -/
theorem modeTo_power (dst : Mode) (cause : Nat) (s : State) :
    (modeTo dst cause s).power = { s.power with mode := dst, lastCause := cause } :=
  (part_of_moves .power modeTo_settles rfl).trans (transition_power dst cause s)

/-- The terminal is in ATTACH, for the reason given. -/
def attaching (cause : Nat) (s : State) : Prop := (∃ x, s.power.mode = .attach x) ∧ s.power.lastCause = cause

theorem attaching_of_moves {c : Nat} {m : List Part} {t : State} (h : moves m s t) (apart : m.contains .power = false) (a : attaching c s) :
    attaching c t := by
  have same : t.power = s.power := part_of_moves .power h apart
  rw [attaching, same]
  exact a

theorem attaching_syncAttach {c : Nat} (a : attaching c s) : attaching c (syncAttach s) := by
  obtain ⟨⟨x, mode⟩, cause⟩ := a
  simp only [attaching, syncAttach, mode]
  exact ⟨⟨_, rfl⟩, cause⟩

theorem standing_of_attaching {c : Nat} (a : attaching c s) : standing s = s := by
  obtain ⟨⟨x, mode⟩, -⟩ := a
  simp only [standing, carrier, mode]

/-- What follows the switches and the state of ATTACH when the line settles. -/
theorem lineSettle_settles {old : State} :
    moves [.regs, .ctrs, .hdrs, .out, .free, .links, .buf, .mac, .tsu, .act, .btx, .psw, .omciUpQ] (syncAttach (standing s))
      (lineSettle old s) := by
  unfold lineSettle
  extract_lets s1 _ s2 dark s3 moved
  have waits : moves [.hdrs, .links, .psw] s1 s2 :=
    moves_ite (moves_ite moves_rfl <| raise_moves.after rfl <| with_psw_moves.within rfl) (with_psw_moves.within rfl)
  have darkened : ∀ f t, moves [.regs, .ctrs, .hdrs, .out, .free, .links, .buf, .mac, .act, .btx, .omciUpQ] t (dark f t) := fun _ _ =>
    moves_ite (abortAll_moves.within rfl) moves_rfl
  exact moves_ite (raise_moves.after rfl <| (darkened _ _).after rfl <| (darkened _ _).after rfl <| waits.after rfl <|
    tsuUpdate_moves.within rfl) <| (darkened _ _).after rfl <| (darkened _ _).after rfl <| waits.after rfl <| tsuUpdate_moves.within rfl

theorem attaching_lineSettle {c : Nat} {old : State} (a : attaching c s) : attaching c (lineSettle old s) := by
  refine attaching_of_moves lineSettle_settles rfl ?_
  rw [standing_of_attaching a]
  exact attaching_syncAttach a

/-- A new activation state short of O5 leaves ATTACH as it is. -/
theorem attaching_setAct {c : Nat} (f : AB) {new : Nat} (h : new ≠ aO5) (cause : Nat) (a : attaching c s) : attaching c (setAct f new cause s) := by
  have reg : ∀ n k t, attaching c t → attaching c (setActReg f n k t) := fun _ _ _ => attaching_of_moves setActReg_moves rfl
  have same : ∀ old t, attaching c t → actMode f old new cause t = t := fun old t ⟨⟨_, mode⟩, _⟩ => by
    simp only [actMode, h, false_and, if_false, mode, ite_self]
  unfold setAct
  dsimp only
  rw [same _ _ (reg _ _ _ a)]
  exact ite_all (attaching_syncAttach <| reg _ _ _ <| attaching_syncAttach <| reg _ _ _ a) (attaching_syncAttach <| reg _ _ _ a)

theorem attaching_reattach (on : s.power.mode ≠ .dormant) : attaching 0x23 (reattach s) := by
  have one : ∀ f t, attaching 0x23 t → attaching 0x23 (if actState f t = aOff then t else setAct f aO11 14 t) := fun f _ a =>
    ite_all a (attaching_setAct f (by decide) 14 a)
  unfold reattach
  rw [if_neg on]
  refine attaching_lineSettle (one _ _ (one _ _ ?_))
  rw [attaching, modeTo_power]
  exact ⟨⟨_, rfl⟩, rfl⟩

end

/-! ### The statement -/

/-- Settles O10, by the handlers of the two registers. -/
theorem powerCommands : Obligations.PowerCommands := by
  intro s m on
  refine ⟨fun ok => ?_, fun mode ok => ?_⟩
  · have run : ∀ t : State, resetCmdHandler.run m (field 0 1 1) t = t.setPower { t.power with hostReset := some m } := fun _ => rfl
    obtain ⟨u, used, -, wrote⟩ := writeReg_used ok
    have power : u.power = s.power := part_of_moves .power used rfl
    simp only [exec, execResetCmd, whenOn_running on, wrote, run, power]
    exact ⟨_, rfl, rfl, rfl, (ended_moves.after rfl <| setPower_moves.after rfl <| used.within rfl : moves [.power, .last, .regs] _ _).1⟩
  · have run : ∀ t : State, modeCmdHandler.run m (field 1 1 1) t = reattach t := fun _ => rfl
    obtain ⟨u, used, -, wrote⟩ := writeReg_used ok
    have power : u.power = s.power := part_of_moves .power used rfl
    obtain ⟨⟨x, attach⟩, cause⟩ := attaching_reattach (s := u) (by rwa [power])
    simp only [exec, execReattach, whenOn_running on, wrote, run]
    refine ⟨_, rfl, alike_of_moves (m := but (.opt :: lineKept)) (ended_moves.after rfl <| reattach_moves.after rfl <| used.within rfl) rfl,
      rfl, ?_, cause⟩
    show (reattach u).power.mode.code = 1
    rw [attach]
    rfl

end Sys2Proof.Machine

/-!
PROOFS. Control frames without data and the re-synchronisation of a link (O17, O18, O20, O22).
-/

namespace Sys2Proof.Machine

/-! ### Acknowledgements without data (O17) -/

/-- An ACKONLY frame of the present epoch without NAK comes down to its ACK. -/
theorem exec_ackonlyReceive_good {l : AB} {f : RxFrame} {s : State} (on : s.running = true) (good : frameGood l f s = true)
    (kind : f.kind = 1) (epoch : f.epoch = (s.link l).epoch) (waits : (s.link l).waiting = false) (nak : f.flags.testBit 0 = false) :
    exec (.ackonlyReceive l f) s = .next (ackedState l f.ack s) := by
  have run : exec (.ackonlyReceive l f) s = .next (receiveFrame l (asKind 1 f) s) := linkOn_running on _
  have step : takeOther l f (linkCount l 0 s) = takeAck l f.ack ((linkCount l 0 s).setLink l { s.link l with heard := true }) :=
    (if_neg (by simp [kind])).trans ((if_neg (by simp [waits])).trans ((if_pos kind).trans (if_neg (by simp [nak]))))
  rw [run, asKind_self kind, receiveFrame_good good, if_neg (by simp [kind]), if_neg (by simp [epoch]), step, takeAck_heard]

/-- A link after an ACK in range. -/
theorem afterAck_inRange {l : AB} {ack : Nat} {s : State} (range : ackCount l ack s ≤ (s.link l).replay.length) :
    (afterAck l ack s).replay = (s.link l).replay.drop (ackCount l ack s) ∧
    (afterAck l ack s).replayRun = (if ackCount l ack s = 0 then (s.link l).replayRun else 0) := by
  unfold afterAck
  by_cases none : ackCount l ack s = 0
  · simp [none]
  · simp [none, Nat.not_lt.mpr range]

/-- Settles O17: the counters of `ackedState` are those of `ackCtrs`, and its link is that of `afterAck`. -/
theorem acksReleaseFrames : Obligations.AcksReleaseFrames := by
  intro l f s on good kind epoch waits nak
  have regs := ackedState_keepsRegs l f.ack s
  refine ⟨_, exec_ackonlyReceive_good on good kind epoch waits nak, fun range => ?_, fun beyond => ?_, ackedState_keeps l f.ack s⟩
  · obtain ⟨replay, run⟩ := afterAck_inRange range
    rw [ackCtrs, if_neg (Nat.not_lt.mpr range)] at regs
    rw [ackedState_link]
    exact ⟨replay, run, regs⟩
  · have same : afterAck l f.ack s = s.link l := if_pos (.inr beyond)
    rw [ackCtrs, if_pos beyond] at regs
    refine ⟨by rw [ackedState_link, same], ?_, regs⟩
    have counted : ackedState l f.ack s = (linkCount l 10 (linkCount l 0 s)).setLink l { afterAck l f.ack s with heard := true } := by
      unfold ackedState ackCtrs
      rw [if_pos beyond]
      rfl
    rw [counted, setLink_rd, linkCount_rd_same, linkCount_rd_other l (by decide)]

end Sys2Proof.Machine

namespace Sys2Proof.Machine

/-! ### What spares the links -/

section
variable {s : State}

theorem sparesLinks_of_moves {m : List Part} {t : State} (h : moves m s t) (apart : m.contains .links = false) : sparesLinks s t :=
  sparesLinks_of_keeps h.1 fun hm => by
    rw [List.contains_iff_mem.mpr hm] at apart
    cases apart

theorem countWide_sparesLinks (a w k : Nat) (half intr : Option (Nat × Nat)) : sparesLinks s (countWide a w k half intr s) := by
  have flagged : ∀ u : State, sparesLinks u (match half with | some (h, i) => u.setFlag h i true | none => u) := fun u => by
    cases half with
    | none => exact sparesLinks_refl u
    | some x => exact sparesLinks_of_moves setFlag_moves rfl
  have raised : ∀ u : State, sparesLinks u (match intr with | some (p, i) => raise p i u | none => u) := fun u => by
    cases intr with
    | none => exact sparesLinks_refl u
    | some x => exact raise_sparesLinks _ _ _
  have stored : sparesLinks s (s.setCtr a ((s.ctr a + k) % 2 ^ w)) := sparesLinks_of_moves setCtr_moves rfl
  exact sparesLinks_trans stored <| ite_all (P := sparesLinks _) (sparesLinks_trans (flagged _) (raised _)) (sparesLinks_refl _)

theorem skimSample_sparesLinks (r : Reason) (k q : Nat) (p : Option Pkt) (d : Nat) : sparesLinks s (skimSample r k q p d s) := by
  have buf : ∀ (u : State) (b : BufSt), sparesLinks u { u with buf := b } := fun _ _ => sparesLinks_of_moves with_buf_moves rfl
  unfold skimSample
  refine ite_all (P := sparesLinks s) (sparesLinks_refl s) <| ite_all (P := sparesLinks s) (buf _ _) <|
    ite_all (P := sparesLinks s) (buf _ _) <| ite_all (P := sparesLinks s) ?_ ?_
  · exact sparesLinks_trans (buf s _) (buf _ _)
  · exact sparesLinks_trans (buf s _) <| sparesLinks_trans (sparesLinks_of_moves bump_moves rfl) (raise_sparesLinks _ _ _)

theorem dropAt_sparesLinks (r : Reason) (k q : Nat) (p : Option Pkt) (d : Nat) : sparesLinks s (dropAt r k q p d s) :=
  sparesLinks_trans (countWide_sparesLinks _ _ _ _ _) <|
    sparesLinks_trans (sparesLinks_of_moves (bump_moves.after rfl <| bump_moves.within rfl : moves [.regs] _ _) rfl)
      (skimSample_sparesLinks _ _ _ _ _)

theorem loseRec_sparesLinks (e : Reason) (r : Rec) : sparesLinks s (loseRec e r s) :=
  ite_all (P := sparesLinks s) (dropAt_sparesLinks _ _ _ _ _) <| ite_all (P := sparesLinks s) (dropAt_sparesLinks _ _ _ _ _) <|
    ite_all (P := sparesLinks s) (dropAt_sparesLinks _ _ _ _ _) (sparesLinks_refl s)

theorem foldl_sparesLinks {α : Type} {f : State → α → State} (one : ∀ u x, sparesLinks u (f u x)) (xs : List α) :
    sparesLinks s (xs.foldl f s) := by
  induction xs generalizing s with
  | nil => exact sparesLinks_refl s
  | cons x xs ih => exact sparesLinks_trans (one s x) ih

theorem recordFault_sparesLinks (p code : Nat) (d w : Word) : sparesLinks s (recordFault p code d w s) :=
  sparesLinks_trans (sparesLinks_of_moves (addLog_moves.after rfl <| setHdr_moves.within rfl : moves [.regs, .nvs, .log, .hdrs] _ _) rfl)
    (raise_sparesLinks _ _ _)

theorem startRowTest_sparesLinks (l : MemLoc) : sparesLinks s (startRowTest l s) :=
  ite_all (P := sparesLinks s) (sparesLinks_refl s) <|
    sparesLinks_trans (sparesLinks_of_moves (setTest_moves.after rfl <| with_ecc_moves.within rfl : moves [.hdrs, .ecc] _ _) rfl)
      (countWide_sparesLinks _ _ _ _ _)

/-! ### Transit memories (R497, R509) -/

/-- A flip in a memory that holds no keys: the links lose nothing but EVENT records, and no feeder is asked for a key. -/
theorem foundCe_keyless (l : MemLoc) (b : Nat) (h : l.mem ≠ 0x69) :
    moves [.regs, .ctrs, .hdrs, .nvs, .links, .log, .ecc] s (foundCe l b s) ∧ sparesLinks s (foundCe l b s) := by
  unfold foundCe
  dsimp only
  rw [if_neg h]
  exact ⟨startRowTest_moves.after rfl <| recordFault_moves.after rfl <| with_ecc_moves.after rfl <| raise_moves.after rfl <|
      eccCount_moves.within rfl,
    sparesLinks_trans (countWide_sparesLinks _ _ _ _ _) <| sparesLinks_trans (raise_sparesLinks _ _ _) <|
      sparesLinks_trans (sparesLinks_of_moves with_ecc_moves rfl) <| sparesLinks_trans (recordFault_sparesLinks _ _ _ _)
        (startRowTest_sparesLinks _)⟩

theorem foundUe_sparesLinks (l : MemLoc) (scrub : Bool) : sparesLinks s (foundUe l scrub s) := by
  have found : ∀ (e : EccSt) (i p code : Nat) (d w : Word),
      sparesLinks s (recordFault p code d w (raise pEcc 1 (eccCount i 1 { s with ecc := e }))) := fun _ _ _ _ _ _ =>
    sparesLinks_trans (sparesLinks_of_moves with_ecc_moves rfl) <| sparesLinks_trans (countWide_sparesLinks _ _ _ _ _) <|
      sparesLinks_trans (raise_sparesLinks _ _ _) (recordFault_sparesLinks _ _ _ _)
  exact ite_all (P := sparesLinks s) (found _ _ _ _ _ _) (sparesLinks_trans (found _ _ _ _ _ _) (startRowTest_sparesLinks _))

/-- What passes a memory without keys. -/
theorem transit_keyless (mem : Nat) (h : mem ≠ 0x69) :
    moves [.regs, .ctrs, .hdrs, .free, .nvs, .links, .log, .ecc] s (transit mem s).2 ∧ sparesLinks s (transit mem s).2 := by
  unfold transit
  dsimp only
  split
  · have armed : ∀ u : State, moves [.free, .hdrs, .links, .regs] u (raise pEcc 6 (u.takeFree.2.setFlag (regAddr pEcc 0x120) 16 false)) ∧
        sparesLinks u (raise pEcc 6 (u.takeFree.2.setFlag (regAddr pEcc 0x120) 16 false)) := fun u =>
      ⟨raise_moves.after rfl <| setFlag_moves.after rfl <| takeFree_moves.within rfl,
        sparesLinks_trans (sparesLinks_of_moves (setFlag_moves.after rfl <| takeFree_moves.within rfl : moves [.regs, .free] _ _) rfl)
          (raise_sparesLinks _ _ _)⟩
    split
    · exact ⟨(foundCe_keyless _ _ h).1.after rfl <| (armed s).1.within rfl, sparesLinks_trans (armed s).2 (foundCe_keyless _ _ h).2⟩
    · exact ⟨with_ecc_moves.after rfl <| foundUe_moves.after rfl <| (armed s).1.within rfl,
        sparesLinks_trans (armed s).2 <| sparesLinks_trans (foundUe_sparesLinks _ _) (sparesLinks_of_moves with_ecc_moves rfl)⟩
  · exact ⟨moves_rfl, sparesLinks_refl s⟩

/-- A frame leaves, whatever the transmit FIFO does to it. -/
theorem emitFrame_keyless (l : AB) (f : TxFrame) :
    moves [.regs, .ctrs, .hdrs, .out, .free, .nvs, .links, .log, .ecc] s (emitFrame l f s) ∧ sparesLinks s (emitFrame l f s) := by
  have fifo : 0x98 + l.num ≠ 0x69 := by cases l <;> decide
  obtain ⟨parts, links⟩ := transit_keyless (s := s) _ fifo
  exact ⟨linkCount_moves.after rfl <| emit_moves.after rfl <| parts.within rfl, sparesLinks_trans links <|
    sparesLinks_of_moves (linkCount_moves.after rfl <| emit_moves.within rfl : moves [.regs, .out] _ _) rfl⟩

/-- A frame leaves whole while no flip is armed. -/
theorem emitFrame_of_noFlip (l : AB) (f : TxFrame) (whole : noFlip s = true) :
    emitFrame l f s = linkCount l 1 (s.emit (.frame l f false)) := by
  simp only [emitFrame, transit_of_noFlip _ whole]

end


/-! ### Opening an epoch (R58) -/

section
variable {s : State}

theorem noFlip_of_regs {cs : List Nat} {t : State} (kept : keepsRegs cs s t) (apart : regAddr pEcc 0x120 ∉ cs) : noFlip t = noFlip s := by
  have same : t.rp pEcc 0x120 = s.rp pEcc 0x120 := kept _ apart
  simp only [noFlip, same]

theorem noFlip_of_moves {m : List Part} {t : State} (h : moves m s t) (apart : m.contains .regs = false) : noFlip t = noFlip s := by
  have same : t.regs = s.regs := part_of_moves .regs h apart
  simp only [noFlip, State.rp, State.rd, same]

theorem noFlip_dropAt (r : Reason) (k q : Nat) (p : Option Pkt) (d : Nat) : noFlip (dropAt r k q p d s) = noFlip s := by
  refine noFlip_of_regs (dropAt_spec r k q p d s).2.1 ?_
  simp only [dropRegs, List.mem_cons, List.not_mem_nil, or_false, regAddr, pEcc, pSlice, pDrp]
  omega

theorem noFlip_loseRec (e : Reason) (r : Rec) : noFlip (loseRec e r s) = noFlip s :=
  ite_all (P := fun t => noFlip t = noFlip s) (noFlip_dropAt _ _ _ _ _) <|
    ite_all (P := fun t => noFlip t = noFlip s) (noFlip_dropAt _ _ _ _ _) <|
      ite_all (P := fun t => noFlip t = noFlip s) (noFlip_dropAt _ _ _ _ _) rfl

theorem noFlip_loseRecs (e : Reason) (rs : List Rec) : noFlip (rs.foldl (fun s r => loseRec e r s) s) = noFlip s := by
  induction rs generalizing s with
  | nil => rfl
  | cons r rs ih => exact ih.trans (noFlip_loseRec e r)

theorem noFlip_breakChain (l : AB) : noFlip (breakChain l s) = noFlip s := by
  unfold breakChain
  split
  · rfl
  · exact ite_all (P := fun t => noFlip t = noFlip s) (noFlip_dropAt _ _ _ _ _) rfl

theorem noFlip_openEpoch (l : AB) (cause epoch : Nat) : noFlip (openEpoch l cause epoch s) = noFlip s :=
  (noFlip_loseRecs .ctlResync _).trans (noFlip_breakChain l)

/-- The link of a new epoch, which waits for its RESYNC_ACK. -/
theorem openEpoch_link (l : AB) (cause epoch : Nat) :
    ((openEpoch l cause epoch s).link l).state = .resync ∧ ((openEpoch l cause epoch s).link l).epoch = epoch ∧
    ((openEpoch l cause epoch s).link l).cause = cause ∧ ((openEpoch l cause epoch s).link l).replay = [] := by
  unfold openEpoch
  dsimp only
  rw [State.link_setLink_same]
  exact ⟨rfl, rfl, rfl, rfl⟩

/-- A terminal that opens an epoch of its own waits for the answer of its RESYNC. -/
def resyncing (l : AB) (cause epoch : Nat) (t : State) : Prop :=
  (t.link l).state = .resync ∧ (t.link l).cause = cause ∧ (t.link l).epoch = epoch ∧ (t.link l).replay = [] ∧ (t.link l).waiting = true

theorem resyncing_of_spares {l : AB} {cause epoch : Nat} {t : State} (h : sparesLinks s t) (a : resyncing l cause epoch s) :
    resyncing l cause epoch t := by
  obtain ⟨e, n, same⟩ := h l
  rw [resyncing, same]
  exact a

/-- The state in which the RESYNC of `startResync` leaves. -/
def resyncOpened (l : AB) (cause : Nat) (s : State) : State :=
  let t := openEpoch l cause (((s.link l).epoch + 1) % 16) s
  t.setLink l { t.link l with waiting := true, afterReset := false, fell := false }

theorem resyncing_resyncOpened (l : AB) (cause : Nat) : resyncing l cause (((s.link l).epoch + 1) % 16) (resyncOpened l cause s) := by
  obtain ⟨state, epoch, why, replay⟩ := openEpoch_link (s := s) l cause (((s.link l).epoch + 1) % 16)
  rw [resyncing, resyncOpened, State.link_setLink_same]
  exact ⟨state, why, epoch, replay, rfl⟩

theorem resyncOpened_moves {l : AB} {cause : Nat} : moves [.regs, .ctrs, .hdrs, .links, .buf] s (resyncOpened l cause s) :=
  setLink_moves.after rfl openEpoch_moves

theorem startResync_spec (l : AB) (cause : Nat) :
    moves [.regs, .ctrs, .hdrs, .out, .free, .nvs, .links, .log, .buf, .ecc] s (startResync l cause s) ∧
    resyncing l cause (((s.link l).epoch + 1) % 16) (startResync l cause s) := by
  obtain ⟨parts, links⟩ := emitFrame_keyless (s := resyncOpened l cause s) l
    (frameOut l 2 (if ((resyncOpened l cause s).link l).afterReset then 2 else 0) 0 ((resyncOpened l cause s).link l).oldAck []
      (resyncOpened l cause s))
  exact ⟨parts.after rfl (resyncOpened_moves.within rfl), resyncing_of_spares links (resyncing_resyncOpened l cause)⟩

/-- A RESYNC leaves whole while no flip is armed. -/
theorem sendResync_of_noFlip (l : AB) (whole : noFlip s = true) :
    sendResync l s = linkCount l 1 (s.emit (.frame l
      (frameOut l 2 (if (s.link l).afterReset then 2 else 0) 0 (s.link l).oldAck [] s) false)) := emitFrame_of_noFlip l _ whole

theorem startResync_whole (l : AB) (cause : Nat) (whole : noFlip s = true) :
    keeps [.regs, .hdrs, .links, .out, .ctrs, .buf] s (startResync l cause s) := by
  have opened : noFlip (resyncOpened l cause s) = true := (noFlip_openEpoch l cause _ : noFlip (openEpoch l cause (((s.link l).epoch + 1) % 16) s) = _).trans whole
  have sent : startResync l cause s = _ := sendResync_of_noFlip l opened
  rw [sent]
  exact (linkCount_moves.after rfl <| emit_moves.after rfl <| resyncOpened_moves.within rfl : moves _ _ _).1

/-! ### Replaying frames (R55) -/

/-- What a DATA frame that leaves carries. -/
def dataSent : Output → Option (Nat × List Rec)
  | .frame _ x _ => some (x.seq, x.recs)
  | _ => none

theorem sendData_of_noFlip (l : AB) (seq : Nat) (recs : List Rec) (whole : noFlip s = true) :
    (∃ o, (sendData l seq recs s).out = o :: s.out ∧ dataSent o = some (seq, recs)) ∧
    (sendData l seq recs s).link l = { s.link l with ackOwed := false } ∧ keepsRegs [linkCtr l 1] s (sendData l seq recs s) ∧
    keeps [.regs, .links, .out] s (sendData l seq recs s) := by
  have sent : sendData l seq recs s = _ := emitFrame_of_noFlip (s := s.setLink l { s.link l with ackOwed := false }) l _ whole
  rw [sent]
  exact ⟨⟨_, rfl, rfl⟩, State.link_setLink_same _ _ _, linkCount_keepsRegs l 1 _,
    (linkCount_moves.after rfl <| emit_moves.after rfl <| setLink_moves.within rfl : moves _ _ _).1⟩

theorem memClean_of_kept {l : AB} {i : Nat} {t : State} (regs : keepsRegs [linkCtr l i] s t) (kept : keeps [.regs, .links, .out] s t) :
    memClean t = memClean s := by
  have ecc : t.ecc = s.ecc := kept .ecc (by decide)
  simp only [memClean, ecc, noFlip_of_keepsRegs regs (linkCtr_of_mem_singleton l i)]

/-- Every frame of the replay buffer leaves once more, in order, where no word of it is in error. -/
theorem replayFrames_of_memClean (l : AB) (fs : List (Nat × List Rec)) (clean : memClean s = true) :
    (∃ o, (replayFrames l fs s).out = o ++ s.out ∧ o.length = fs.length ∧ o.filterMap dataSent = fs.reverse) ∧
    (∃ owed, (replayFrames l fs s).link l = { s.link l with ackOwed := owed }) ∧ keepsRegs [linkCtr l 1] s (replayFrames l fs s) ∧
    keeps [.regs, .links, .out] s (replayFrames l fs s) := by
  induction fs generalizing s with
  | nil => exact ⟨⟨[], rfl, rfl, rfl⟩, ⟨_, rfl⟩, keepsRegs_refl _ _, keeps_refl _ _⟩
  | cons f fs ih =>
    obtain ⟨-, -, whole⟩ := memClean_iff.mp clean
    obtain ⟨⟨o, out, sent⟩, link, regs, kept⟩ := sendData_of_noFlip l f.1 f.2 whole
    obtain ⟨⟨os, outs, count, all⟩, ⟨owed, links⟩, regs', kept'⟩ := ih (s := sendData l f.1 f.2 s) ((memClean_of_kept regs kept).trans clean)
    have step : replayFrames l (f :: fs) s = replayFrames l fs (sendData l f.1 f.2 s) := by
      simp only [replayFrames, readLoc_of_memClean _ _ clean, Bool.false_eq_true, if_false]
    rw [step]
    refine ⟨⟨os ++ [o], by rw [outs, out]; simp, by simp [count], ?_⟩, ⟨owed, by rw [links, link]⟩,
      keepsRegs_mono (keepsRegs_trans regs regs') (by simp), keeps_mono (keeps_trans kept kept') (by decide)⟩
    simp [all, sent]

end

/-! ### The acknowledgement timer and the RESYNC of the terminal (O20) -/

/-- Settles O20: `replayFrames_of_memClean` below run 8, `startResync_spec` from run 8 on and for a master's RESYNC. -/
theorem replaysAndResyncs : Obligations.ReplaysAndResyncs := by
  intro l s on whole
  refine ⟨fun up some run noUpset noPoison => ?_, fun up some run => ?_, fun waits => ?_, fun due up => ?_⟩
  · let u := linkCount l 11 (s.setLink l { s.link l with replayRun := (s.link l).replayRun + 1 })
    have regs : keepsRegs [linkCtr l 11] s u := linkCount_keepsRegs l 11 _
    have whole' : noFlip u = true := (noFlip_of_keepsRegs regs (linkCtr_of_mem_singleton l 11)).trans whole
    have clean : memClean u = true := memClean_iff.mpr ⟨noUpset, noPoison, whole'⟩
    have some' : (s.link l).replay.isEmpty = false := by simpa using some
    have step : exec (.ackTimeout l) s = .next (replayFrames l (s.link l).replay u) := by
      have idle : ¬ ((s.link l).state ≠ .up ∨ (s.link l).replay.isEmpty = true) := by simp [up, some']
      exact (linkOn_running on _).trans <| (if_neg idle).trans <| (if_neg (Nat.not_le.mpr run)).trans <|
        congrArg Host.Outcome.next (if_neg (by simp [some']))
    have link : u.link l = { s.link l with replayRun := (s.link l).replayRun + 1 } := State.link_setLink_same _ _ _
    obtain ⟨⟨o, out, count, sent⟩, ⟨owed, links⟩, regs', kept⟩ := replayFrames_of_memClean l (s.link l).replay clean
    refine ⟨_, step, ?_, by rw [links, link], by rw [links, link], ?_, ?_⟩
    · exact keeps_mono (keeps_trans (linkCount_moves.after rfl <| setLink_moves.within rfl : moves [.regs, .links] s u).1 kept) (by decide)
    · rw [regs' _ (by simp), linkCount_rd_same, setLink_rd]
    · rw [out, ← count, List.take_left]
      exact (congrArg List.reverse sent).trans (List.reverse_reverse _)
  · have some' : (s.link l).replay.isEmpty = false := by simpa using some
    have idle : ¬ ((s.link l).state ≠ .up ∨ (s.link l).replay.isEmpty = true) := by simp [up, some']
    obtain ⟨state, cause, epoch, replay, waiting⟩ := (startResync_spec (s := s) l 1).2
    simp only [exec, execAckTimeout, linkOn_running on, if_neg idle, if_pos run]
    exact ⟨_, rfl, startResync_whole l 1 whole, state, cause, epoch, replay, waiting⟩
  · simp only [exec, execResyncRepeat, linkOn_running on, waits, if_true, sendResync_of_noFlip l whole]
    exact ⟨_, rfl, rfl, _, rfl, rfl, rfl, rfl, linkCount_keepsRegs l 1 _,
      (linkCount_moves.after rfl <| emit_moves.within rfl : moves _ _ _).1⟩
  · obtain ⟨state, cause, epoch, replay, waiting⟩ := (startResync_spec (s := s) l 5).2
    simp only [exec, execResyncStart, linkOn_running on, due, up, and_self, if_true]
    exact ⟨_, rfl, startResync_whole l 5 whole, state, cause, epoch, replay, waiting⟩

end Sys2Proof.Machine

namespace Sys2Proof.Machine

/-! ### Loss and return of a link (O22) -/

section
variable {s : State}

/-- What waits on a link that goes down is lost, and the interrupt of the loss is raised (R64, R79). -/
theorem linkdown_spec (l : AB) (lost : List Rec) (k : LinkSt) :
    let t := raise (pCtl l) 1 (lost.foldl (fun s r => loseRec .ctlDown r s) (s.setLink l k))
    keeps [.regs, .links, .hdrs, .ctrs, .buf] s t ∧ (∃ e n, t.link l = { k with events := e, evtSeq := n }) ∧
      intRawBit t (pCtl l) 1 = true := by
  refine ⟨(raise_moves.after rfl <| moves_foldl (fun _ _ => loseRec_moves.within rfl) <| setLink_moves.within rfl : moves _ _ _).1, ?_,
    raise_intRaw _ 1 _ (by decide)⟩
  obtain ⟨e, n, same⟩ := sparesLinks_trans (foldl_sparesLinks (fun u r => loseRec_sparesLinks (s := u) .ctlDown r) lost)
    (raise_sparesLinks (pCtl l) 1 (lost.foldl (fun s r => loseRec .ctlDown r s) (s.setLink l k))) l
  exact ⟨e, n, by rw [same, State.link_setLink_same]⟩

/-- Leaving UP keeps what is queued. -/
theorem leaveUp_resp (k : LinkSt) : (leaveUp k).resp = k.resp := by
  unfold leaveUp
  split <;> rfl

theorem leaveUp_lock (k : LinkSt) : (leaveUp k).lock = k.lock := by
  unfold leaveUp
  split <;> rfl

/-- A new epoch has nothing to do with block lock. -/
theorem openEpoch_lock (l : AB) (cause epoch : Nat) : ((openEpoch l cause epoch s).link l).lock = (s.link l).lock := by
  have spared : ∀ {u t : State}, sparesLinks u t → (t.link l).lock = (u.link l).lock := fun h => by
    obtain ⟨e, n, same⟩ := h l
    rw [same]
  have broken : ((breakChain l s).link l).lock = (s.link l).lock := by
    have unchained : ∀ c, ((setChain l c s).link l).lock = (s.link l).lock := fun c => by rw [setChain, State.link_setLink_same]
    unfold breakChain
    split
    · rfl
    · exact ite_all (P := fun t => (t.link l).lock = (s.link l).lock) ((spared (dropAt_sparesLinks _ _ _ _ _)).trans (unchained _))
        (unchained _)
  unfold openEpoch
  dsimp only
  rw [State.link_setLink_same]
  exact (leaveUp_lock _).trans <|
    (spared (foldl_sparesLinks (fun u r => loseRec_sparesLinks (s := u) .ctlResync r) _)).trans broken

theorem startResync_spares (l : AB) (cause : Nat) : sparesLinks (resyncOpened l cause s) (startResync l cause s) :=
  (emitFrame_keyless l _).2

theorem startResync_lock (l : AB) (cause : Nat) : ((startResync l cause s).link l).lock = (s.link l).lock := by
  obtain ⟨e, n, same⟩ := startResync_spares (s := s) l cause l
  rw [same, resyncOpened, State.link_setLink_same]
  exact openEpoch_lock l cause _

/-- Without a broken chain and without unacknowledged frames a new epoch changes its link only. -/
theorem openEpoch_quiet (l : AB) (cause epoch : Nat) (chain : (s.link l).chain = none) (replay : (s.link l).replay = []) :
    ∃ k, openEpoch l cause epoch s = s.setLink l k ∧ k.peer = (s.link l).peer ∧ k.afterReset = (s.link l).afterReset := by
  have unbroken : breakChain l s = s := by simp only [breakChain, chain]
  have left : (leaveUp (s.link l)).peer = (s.link l).peer ∧ (leaveUp (s.link l)).afterReset = (s.link l).afterReset := by
    unfold leaveUp
    split <;> exact ⟨rfl, rfl⟩
  simp only [openEpoch, unbroken, replay, List.flatMap_nil, List.foldl_nil]
  exact ⟨_, rfl, left⟩

end

/-- Settles O22: the loss of the link ends in `linkdown_spec`, its return in `startResync_spec`, or in a RESYNC of epoch 0 (`openEpoch_quiet`). -/
theorem linkLossAndReturn : Obligations.LinkLossAndReturn := by
  intro l s on
  refine ⟨⟨_, linkOn_running on _, rfl⟩, fun loss state => ?_, fun state => ?_, fun down old => ?_, fun down reset whole chain replay => ?_⟩
  · have lasts : ¬ ((s.link l).lock = true ∨ (s.link l).state = .down) := by simp [loss, state]
    refine ⟨_, (linkOn_running on _).trans (if_neg lasts), ?_⟩
    obtain ⟨kept, ⟨e, n, link⟩, raised⟩ := linkdown_spec (s := s) l ((s.link l).omci ++ (s.link l).rx ++ (s.link l).census)
      { leaveUp (s.link l) with state := .down, waiting := false, fell := true, omci := [], rx := [], census := [] }
    refine ⟨kept, ?_⟩
    rw [link]
    exact ⟨rfl, rfl, rfl, rfl, rfl, leaveUp_resp _, raised⟩
  · exact ⟨_, (linkOn_running on _).trans (if_pos state), rfl⟩
  · let u := s.setLink l { s.link l with lock := true }
    have step : exec (.linkReturn l) s = .next (startResync l 3 u) :=
      (linkOn_running on _).trans <| (if_neg (not_not_intro down)).trans (if_neg (by simp [old]))
    obtain ⟨moved, state, cause, epoch, -, waiting⟩ := startResync_spec (s := u) l 3
    refine ⟨_, step, (moved.after rfl <| setLink_moves.within rfl : moves _ _ _).1, ?_, state, cause, ?_, waiting⟩
    · rw [startResync_lock, State.link_setLink_same]
    · rw [epoch, State.link_setLink_same]
  · let u := s.setLink l { s.link l with lock := true }
    have link : u.link l = { s.link l with lock := true } := State.link_setLink_same _ _ _
    have step : exec (.linkReturn l) s = .next (startAfterReset l u) :=
      (linkOn_running on _).trans <| (if_neg (not_not_intro down)).trans (if_pos reset)
    obtain ⟨k, opened, peer, after⟩ := openEpoch_quiet (s := u) l (if (u.link l).fell then 3 else 4) 0 (by rw [link]; exact chain)
      (by rw [link]; exact replay)
    obtain ⟨state, epoch, cause, -⟩ := openEpoch_link (s := u) l (if (u.link l).fell then 3 else 4) 0
    rw [opened, State.link_setLink_same] at state epoch cause
    rw [link] at cause peer after
    let v := u.setLink l { k with waiting := true, oldAck := 0xFFFF, fell := false }
    have linked : v.link l = { k with waiting := true, oldAck := 0xFFFF, fell := false } := State.link_setLink_same _ _ _
    have sent : startAfterReset l u = sendResync l v := by
      unfold startAfterReset
      rw [opened]
      dsimp only
      rw [State.link_setLink_same, setLink_setLink]
    rw [step, sent, sendResync_of_noFlip l (s := v) whole, linked]
    refine ⟨_, rfl, (linkCount_moves.after rfl <| emit_moves.after rfl <| setLink_moves.after rfl <| setLink_moves.within rfl : moves _ _ _).1, ?_⟩
    have kept : (linkCount l 1 (v.emit (.frame l (frameOut l 2 (if k.afterReset = true then 2 else 0) 0 0xFFFF [] v) false))).link l =
        { k with waiting := true, oldAck := 0xFFFF, fell := false } := (linkCount_link l l 1 _).trans linked
    rw [kept]
    refine ⟨state, cause, epoch, rfl, _, rfl, rfl, ?_, ?_, rfl, ?_⟩
    · rw [frameOut_epoch, linked]
      exact epoch
    · rw [frameOut_flags, after, reset, if_pos rfl]
    · rw [frameOut_da, linked]
      exact congrArg (Option.getD · _) peer

end Sys2Proof.Machine

namespace Sys2Proof.Machine

/-! ### The wait for RESYNC_ACK (O18) -/

section
variable {l : AB} {f : RxFrame} {s : State}

/-- A discarded frame of another epoch is counted and raises the interrupt of the stale frames; its link keeps what is not an EVENT. -/
theorem staleFrame_spec (l : AB) (s : State) : (staleFrame l s).rd (linkCtr l 7) = s.rd (linkCtr l 7) + 1 ∧
    intRawBit (staleFrame l s) (pCtl l) 3 = true ∧ keepsRegs [linkCtr l 7] s (staleFrame l s) ∧ sparesLinks s (staleFrame l s) := by
  refine ⟨?_, raise_intRaw _ 3 _ (by decide), ?_, ?_⟩
  · rw [staleFrame, raise_rd, linkCount_rd_same]
  · exact keepsRegs_mono (keepsRegs_trans (linkCount_keepsRegs l 7 s) (raise_keepsRegs _ _ _)) (by simp)
  · exact sparesLinks_trans (sparesLinks_of_moves linkCount_moves rfl) (raise_sparesLinks _ _ _)

/-- While RESYNC_ACK is awaited a good frame that is no RESYNC and no RESYNC_ACK ends as a stale one. -/
theorem receiveFrame_waiting (good : frameGood l f s = true) (kind : f.kind = 0 ∨ f.kind = 1) (waits : (s.link l).waiting = true) :
    ∃ b, receiveFrame l f s = staleFrame l ((linkCount l 0 s).setLink l { s.link l with heard := b }) := by
  have other : f.kind ≠ 2 ∧ f.kind ≠ 3 := by omega
  rw [receiveFrame_good good, if_neg other.1]
  split
  · exact ⟨(s.link l).heard, congrArg (staleFrame l) (setLink_link l (linkCount l 0 s)).symm⟩
  · refine ⟨true, ?_⟩
    have waits' : (((linkCount l 0 s).setLink l { (linkCount l 0 s).link l with heard := true }).link l).waiting = true := by
      rw [State.link_setLink_same]
      exact waits
    exact (if_neg other.2).trans (if_pos waits')

/-- What the initiator discards (R58). -/
theorem stale_while_waiting (good : frameGood l f s = true) (kind : f.kind = 0 ∨ f.kind = 1) (waits : (s.link l).waiting = true) :
    let t := receiveFrame l f s
    t.rd (linkCtr l 7) = s.rd (linkCtr l 7) + 1 ∧ (t.link l).replay = (s.link l).replay ∧
      (t.link l).expSeq = (s.link l).expSeq ∧ (t.link l).resp = (s.link l).resp ∧ (t.link l).state = (s.link l).state ∧
      intRawBit t (pCtl l) 3 = true ∧ keepsRegs [linkCtr l 0, linkCtr l 7] s t ∧ keeps [.regs, .hdrs, .links] s t := by
  obtain ⟨b, run⟩ := receiveFrame_waiting good kind waits
  intro t
  have run : t = _ := run
  rw [run]
  obtain ⟨counted, raised, regs, links⟩ := staleFrame_spec l ((linkCount l 0 s).setLink l { s.link l with heard := b })
  obtain ⟨e, n, link⟩ := links l
  rw [State.link_setLink_same] at link
  rw [link]
  refine ⟨?_, rfl, rfl, rfl, rfl, raised, keepsRegs_trans (keepsRegs_setLink (linkCount_keepsRegs l 0 s) l _) regs,
    (staleFrame_moves.after rfl <| setLink_moves.after rfl <| linkCount_moves.within rfl : moves _ _ _).1⟩
  rw [counted, setLink_rd, linkCount_rd_other l (by decide)]

/-! ### Completing a re-synchronisation (R62) -/

/-- The link changes in nothing but what is queued of EVENT and CENSUS records. -/
def sparesAnswers (s t : State) : Prop := ∀ m, ∃ e n c, t.link m = { s.link m with events := e, evtSeq := n, census := c }

theorem sparesAnswers_refl (s : State) : sparesAnswers s s := fun _ => ⟨_, _, _, rfl⟩

theorem sparesAnswers_trans {s t u : State} (a : sparesAnswers s t) (b : sparesAnswers t u) : sparesAnswers s u := fun m => by
  obtain ⟨e, n, c, first⟩ := a m
  obtain ⟨e', n', c', second⟩ := b m
  exact ⟨e', n', c', by rw [second, first]⟩

theorem sparesAnswers_of_sparesLinks {s t : State} (a : sparesLinks s t) : sparesAnswers s t := fun m => by
  obtain ⟨e, n, same⟩ := a m
  exact ⟨e, n, _, same⟩

theorem sparesAnswers_setLink {k : LinkSt} {e : List Ev} {n : Nat} {c : List Rec}
    (h : k = { s.link l with events := e, evtSeq := n, census := c }) : sparesAnswers s (s.setLink l k) := fun m => by
  by_cases same : m = l
  · subst same
    exact ⟨e, n, c, (State.link_setLink_same _ _ _).trans h⟩
  · exact ⟨_, _, _, Pair.get_set_other _ same _⟩

/-- The registers of a ring stand outside the pages of the links. -/
theorem ringReg_ne_linkCtr (k off : Nat) (l : AB) {i : Nat} (h : i < 0x200) : linkCtr l i ≠ ringReg k off := by
  have num : l.num < 2 := by cases l <;> decide
  simp only [ringReg, linkCtr, regAddr, pSlice, pCtl]
  omega

/-- The rings that a link drains give it CENSUS records, and their read pointers move on. -/
def drained (s t : State) : Prop := sparesAnswers s t ∧ ∀ l i, i < 0x200 → t.rd (linkCtr l i) = s.rd (linkCtr l i)

theorem drained_refl (s : State) : drained s s := ⟨sparesAnswers_refl s, fun _ _ _ => rfl⟩

theorem drained_trans {s t u : State} (a : drained s t) (b : drained t u) : drained s u :=
  ⟨sparesAnswers_trans a.1 b.1, fun l i h => (b.2 l i h).trans (a.2 l i h)⟩

theorem drained_pushLoop (k : Nat) (l : AB) (fuel : Nat) : drained s (pushLoop k l fuel s) := by
  induction fuel generalizing s with
  | zero => exact drained_refl s
  | succ n ih =>
    have read : ∀ c, drained s (s.bump (ringReg k 0x118) c) := fun c =>
      ⟨sparesAnswers_of_sparesLinks (sparesLinks_of_moves bump_moves rfl), fun l i h =>
        State.rd_wr_other s (ringReg_ne_linkCtr k 0x118 l h) _⟩
    have queued : ∀ w (u : State), drained u (queueCensus l k w u) := fun w u => ⟨sparesAnswers_setLink rfl, fun _ _ _ => rfl⟩
    unfold pushLoop
    exact ite_all (P := drained s) (drained_refl s) (drained_trans (read _) (drained_trans (queued _ _) ih))

theorem drained_pushRings : drained s (pushRings s) := by
  have one : ∀ k (u : State), drained u (pushRing k u) := fun k u => by
    unfold pushRing
    split
    · exact drained_refl u
    · exact drained_pushLoop _ _ _
  unfold pushRings
  generalize List.range 16 = ks
  induction ks generalizing s with
  | nil => exact drained_refl s
  | cons k ks ih => exact drained_trans (one k s) ih

theorem summaries_sparesLinks (l : AB) : sparesLinks s (summaries l s) := by
  have told : ∀ ps : List Nat, sparesLinks s (ps.foldl (fun s p => queueEvent l p true s) s) := fun ps =>
    foldl_sparesLinks (fun u p => queueEvent_sparesLinks l p true u) ps
  exact ite_all (P := sparesLinks s) (sparesLinks_trans (told _) (queueEvent_sparesLinks _ _ _ _)) (told _)

/-- The old-epoch responses that the peer's ACK does not acknowledge, in the form of R62. -/
def unconfirmed (k : LinkSt) (ack : Option Nat) : List Rec :=
  (k.unconf.filter (fun x => !ackedOld k.oldWin ack x)).map (fun x => unconfirmedRec x.2)

/-- A link on which a re-synchronisation has completed (R60, R62). -/
def completed (k : LinkSt) (ack : Option Nat) : LinkSt :=
  { k with state := .up, waiting := false, afterReset := false, unconf := [], oldWin := none, resp := unconfirmed k ack ++ k.resp }

/-- The counters, the interrupt and the summaries with which a re-synchronisation completes. -/
def announced (l : AB) (n : Nat) (s : State) : State :=
  let u := raise (pCtl l) 0 (linkCount l 12 (s.bump (regAddr (pCtl l) 0x23C) n))
  pushRings (summaries l (u.setLink l { u.link l with events := [], evtSeq := 0 }))

theorem announced_spec (l : AB) (n : Nat) (s : State) : sparesAnswers s (announced l n s) ∧
    (announced l n s).rd (linkCtr l 12) = s.rd (linkCtr l 12) + 1 ∧ intRawBit (announced l n s) (pCtl l) 0 = true := by
  let u := raise (pCtl l) 0 (linkCount l 12 (s.bump (regAddr (pCtl l) 0x23C) n))
  let v := u.setLink l { u.link l with events := [], evtSeq := 0 }
  have counted : sparesLinks s u := sparesLinks_trans
    (sparesLinks_of_moves (linkCount_moves.after rfl <| bump_moves.within rfl : moves [.regs] s _) rfl) (raise_sparesLinks _ _ _)
  have regs : (summaries l v).rd (linkCtr l 12) = u.rd (linkCtr l 12) :=
    keepsRegs_of_keeps (summaries_moves (l := l) (s := v)).1 (by decide) _ List.not_mem_nil
  have ctr : linkCtr l 12 ≠ regAddr (pCtl l) 0x23C := by simp [linkCtr, regAddr]
  refine ⟨?_, ?_, ?_⟩
  · exact sparesAnswers_trans (sparesAnswers_of_sparesLinks counted) <|
      sparesAnswers_trans (sparesAnswers_setLink (c := (u.link l).census) rfl) <|
      sparesAnswers_trans (sparesAnswers_of_sparesLinks (summaries_sparesLinks l)) (drained_pushRings (s := summaries l v)).1
  · refine ((drained_pushRings (s := summaries l v)).2 l 12 (by decide)).trans (regs.trans ?_)
    rw [raise_rd, linkCount_rd_same, State.bump, State.rd_wr_other _ ctr]
  · exact (intRawBit_of_keeps (pushRings_moves.after rfl <| summaries_moves.after rfl <| setLink_moves.within rfl :
      moves [.regs, .links] u (announced l n s)).1 (by decide) _ _).trans (raise_intRaw _ 0 _ (by decide))

theorem completeResync_spec (l : AB) (ack : Option Nat) (s : State) :
    (∃ e n c, (completeResync l ack s).link l = { completed (s.link l) ack with events := e, evtSeq := n, census := c }) ∧
    (completeResync l ack s).rd (linkCtr l 12) = s.rd (linkCtr l 12) + 1 ∧ intRawBit (completeResync l ack s) (pCtl l) 0 = true := by
  have old : (((s.link l).unconf.filter (fun x => !ackedOld (s.link l).oldWin ack x)).map Prod.snd).map unconfirmedRec =
      unconfirmed (s.link l) ack := List.map_map
  have steps : ∃ n, completeResync l ack s = announced l n (s.setLink l (completed (s.link l) ack)) := by
    rw [completed, ← old]
    exact ⟨_, rfl⟩
  obtain ⟨n, steps⟩ := steps
  obtain ⟨links, counted, raised⟩ := announced_spec l n (s.setLink l (completed (s.link l) ack))
  obtain ⟨e, m, c, link⟩ := links l
  rw [steps]
  exact ⟨⟨e, m, c, by rw [link, State.link_setLink_same]⟩, counted, raised⟩

/-- The first good frame of a peer makes it known while none is. -/
theorem learnPeer_unknown (sa : Nat) (none : (s.link l).peer = none) : learnPeer l sa s = s.setLink l { s.link l with peer := some sa } :=
  if_neg (by simp [none])

/-- A good RESYNC_ACK of the present epoch completes what the terminal has begun, or has nothing to complete. -/
theorem exec_resyncAckReceive_good (on : s.running = true) (good : frameGood l f s = true) (kind : f.kind = 3)
    (epoch : f.epoch = (s.link l).epoch) :
    let u := (linkCount l 0 s).setLink l { s.link l with heard := true }
    exec (.resyncAckReceive l f) s = .next (if (s.link l).waiting then completeResync l (some f.ack) (learnPeer l f.sa u) else u) := by
  intro u
  have run : exec (.resyncAckReceive l f) s = .next (receiveFrame l (asKind 3 f) s) := linkOn_running on _
  have waits : (u.link l).waiting = (s.link l).waiting := by rw [State.link_setLink_same]
  have step : takeOther l f (linkCount l 0 s) = if (u.link l).waiting then completeResync l (some f.ack) (learnPeer l f.sa u) else u :=
    if_pos kind
  rw [run, asKind_self kind, receiveFrame_good good, if_neg (by simp [kind]), if_neg (by simp [epoch]), step, waits]

/-- What the answer of an unknown peer leaves. -/
theorem resyncAck_completes (ack sa : Nat) (unknown : (s.link l).peer = none) :
    let t := completeResync l (some ack) (learnPeer l sa ((linkCount l 0 s).setLink l { s.link l with heard := true }))
    keeps [.regs, .hdrs, .links] s t ∧ (t.link l).state = .up ∧ (t.link l).waiting = false ∧ (t.link l).peer = some sa ∧
      (t.link l).unconf = [] ∧ (t.link l).resp = unconfirmed (s.link l) (some ack) ++ (s.link l).resp ∧
      t.rd (linkCtr l 12) = s.rd (linkCtr l 12) + 1 ∧ intRawBit t (pCtl l) 0 = true := by
  have learnt : learnPeer l sa ((linkCount l 0 s).setLink l { s.link l with heard := true }) =
      (linkCount l 0 s).setLink l { s.link l with heard := true, peer := some sa } := by
    rw [learnPeer_unknown _ (by rw [State.link_setLink_same]; exact unknown), State.link_setLink_same, setLink_setLink]
  obtain ⟨⟨e, n, c, link⟩, counted, raised⟩ := completeResync_spec l (some ack)
    ((linkCount l 0 s).setLink l { s.link l with heard := true, peer := some sa })
  intro t
  have run : t = _ := congrArg (completeResync l (some ack)) learnt
  rw [State.link_setLink_same] at link
  rw [run, link]
  refine ⟨(completeResync_moves.after rfl <| setLink_moves.after rfl <| linkCount_moves.within rfl : moves _ _ _).1,
    rfl, rfl, rfl, rfl, rfl, counted.trans ?_, raised⟩
  rw [setLink_rd, linkCount_rd_other l (by decide)]

end

/-- Settles O18: frames without the answer end in `stale_while_waiting`, the answer itself in `completeResync_spec`. -/
theorem theInitiatorWaitsForItsAnswer : Obligations.TheInitiatorWaitsForItsAnswer := by
  refine ⟨fun l f s on good waits => ⟨fun kind => ?_, fun kind => ?_⟩, fun l f s on good kind epoch => ⟨fun waits peer => ?_, fun idle => ?_⟩⟩
  · have run : exec (.dataFrameReceive l f) s = .next (receiveFrame l (asKind 0 f) s) := linkOn_running on _
    rw [run, asKind_self kind]
    exact ⟨_, rfl, stale_while_waiting good (.inl kind) waits⟩
  · have run : exec (.ackonlyReceive l f) s = .next (receiveFrame l (asKind 1 f) s) := linkOn_running on _
    rw [run, asKind_self kind]
    exact ⟨_, rfl, stale_while_waiting good (.inr kind) waits⟩
  · exact ⟨_, (exec_resyncAckReceive_good on good kind epoch).trans (by rw [if_pos waits]), resyncAck_completes f.ack f.sa peer⟩
  · refine ⟨_, (exec_resyncAckReceive_good on good kind epoch).trans (by rw [if_neg (by simp [idle])]), State.link_setLink_same _ _ _,
      keepsRegs_setLink (linkCount_keepsRegs l 0 s) l _, (setLink_moves.after rfl <| linkCount_moves.within rfl : moves _ _ _).1⟩

end Sys2Proof.Machine

/-!
PROOFS. Records that address LPDDR4X (R47, R48, R50, R84): single words, runs of words, and the response that closes a record (O23).
-/

namespace Sys2Proof.Machine

/-! ### One word of LPDDR4X -/

/-- Word `a` of LPDDR4X passes every check that a master's access makes. -/
def wordOk (m : AB) (a : Nat) (s : State) : Prop := s.isFrozen m = false ∧ a < s.memSize ∧ memAllowed m a s = true

section
variable {m : AB} {a : Nat} {s : State}

theorem resolve_mem (h : a < s.memSize) : resolve (0x100000000 + a) s = some (.mem a) := by
  have above : ¬ 0x100000000 + a < 0x1000000 ∧ ¬ 0x100000000 + a < 0x2000000 := by omega
  have inside : 0x100000000 ≤ 0x100000000 + a ∧ 0x100000000 + a < 0x100000000 + s.memSize := by omega
  rw [resolve, if_neg above.1, if_neg above.2, if_pos inside, Nat.add_sub_cancel_left]

theorem memRefused_of_wordOk (ok : wordOk m a s) (q : Req) (write : Bool) : memRefused m q a write s = none := by
  obtain ⟨thawed, -, own⟩ := ok
  simp [memRefused, thawed, own]

theorem readWord_of_wordOk (ok : wordOk m a s) : readWord m (0x100000000 + a) s = ended .ok (s.dramWord a) .none s := by
  simp only [readWord, resolve_mem ok.2.1, memRefused_of_wordOk ok]

theorem writeWord_of_wordOk (ok : wordOk m a s) (type tag lock : Nat) (v : Word) :
    writeWord m ⟨type, tag, 0x100000000 + a, lock⟩ v s = ended .ok 0 .none (s.setDramWord a v) := by
  simp only [writeWord, resolve_mem ok.2.1, memRefused_of_wordOk ok]

theorem maskedWord_of_wordOk (ok : wordOk m a s) (type tag lock : Nat) (k v : Word) :
    maskedWord m ⟨type, tag, 0x100000000 + a, lock⟩ k v s =
      ended .ok (s.dramWord a) .none (s.setDramWord a (mergeMasked [] (s.dramWord a) k v)) := by
  simp only [maskedWord, resolve_mem ok.2.1, memRefused_of_wordOk ok]

theorem rd_of_keeps {l : List Part} {s t : State} (kept : keeps l s t) (h : Part.regs ∉ l) : t.rd = s.rd :=
  funext fun b => keepsRegs_of_keeps kept h b List.not_mem_nil

/-- Writing LPDDR4X and ending an access change no check. -/
theorem wordOk_of_keeps {t : State} (kept : keeps [.last, .dram] s t) (ok : wordOk m a s) : wordOk m a t := by
  have regs : t.rd = s.rd := rd_of_keeps kept (by decide)
  have fw : t.fw = s.fw := kept .fw (by decide)
  have masters : t.masters = s.masters := kept .masters (by decide)
  have region : t.region = s.region := funext fun k => by simp only [State.region, State.slc, State.rp, regs]
  have reserved : t.reserved = s.reserved := by simp only [State.reserved, State.fld, regs]
  have owner : t.ownsSlice = s.ownsSlice := by
    funext n k
    simp only [State.ownsSlice, State.ownerMask, State.fld, regs]
  obtain ⟨thawed, size, own⟩ := ok
  refine ⟨?_, ?_, ?_⟩
  · rwa [State.isFrozen, State.frz, masters]
  · rwa [State.memSize, State.fld, regs]
  · rwa [memAllowed, inOwnRegion, inReserved, region, reserved, owner, fw]

theorem wrote_keeps (d v : Word) (st : Status) (c : Cause) : keeps [.last, .dram] s (ended st d c (s.setDramWord a v)) :=
  (ended_moves.after rfl <| setDramWord_moves.within rfl : moves [.last, .dram] s _).1

/-- The end of an access is no write. -/
theorem dramByte_ended (b : Nat) (st : Status) (d : Word) (c : Cause) : (ended st d c s).dramByte b = s.dramByte b := rfl

theorem dramWord_ended (b : Nat) (st : Status) (d : Word) (c : Cause) : (ended st d c s).dramWord b = s.dramWord b := rfl

/-- What LPDDR4X holds after a write does not depend on the last access. -/
theorem setDramBytes_ended (l : List Byte) (b : Nat) (st : Status) (d : Word) (c : Cause) :
    (ended st d c s).setDramBytes b l = ended st d c (s.setDramBytes b l) := by
  induction l generalizing b s with
  | nil => rfl
  | cons x l ih => exact ih (s := s.setDramByte b x) (b + 1)

/-- Every word of an access that passes the checks. -/
theorem wordOk_of_apertureOk {n : Nat} (ok : apertureOk m a n s = true) :
    (1 ≤ n ∧ n ≤ 64 ∧ a % 4 = 0 ∧ a + 4 * n ≤ s.memSize) ∧ ∀ i, i < n → wordOk m (a + 4 * i) s := by
  simp only [apertureOk, Bool.and_eq_true, Bool.not_eq_true', decide_eq_true_eq, List.all_eq_true, List.mem_range] at ok
  obtain ⟨⟨thawed, size⟩, own⟩ := ok
  exact ⟨size, fun i hi => ⟨thawed, by omega, own i hi⟩⟩

theorem firstWord_of_apertureOk {n : Nat} (ok : apertureOk m a n s = true) (some : 0 < n) : wordOk m a s :=
  Nat.add_zero a ▸ Nat.mul_zero 4 ▸ (wordOk_of_apertureOk ok).2 0 some

/-! ### Runs of words (R47) -/

/-- The next word of a run. -/
theorem next_word (a : Nat) : 0x100000000 + a + 4 = 0x100000000 + (a + 4) := Nat.add_assoc _ _ _

theorem readLoop_run (n : Nat) (acc : List Word) (ok : ∀ i, i < n → wordOk m (a + 4 * i) s) :
    ∃ t, readLoop m false n (0x100000000 + a) acc s = (acc ++ (List.range n).map (fun i => s.dramWord (a + 4 * i)), .ok, t) ∧
      (t = s ∨ ∃ d, t = ended .ok d .none s) := by
  induction n generalizing a acc s with
  | zero => exact ⟨s, by simp [readLoop], .inl rfl⟩
  | succ n ih =>
    have first : wordOk m a s := ok 0 (Nat.succ_pos n)
    have rest : ∀ i, i < n → wordOk m (a + 4 + 4 * i) (ended .ok (s.dramWord a) .none s) := fun i hi => by
      have h := ok (i + 1) (by omega)
      rwa [Nat.mul_add, Nat.mul_one, Nat.add_comm (4 * i), ← Nat.add_assoc] at h
    obtain ⟨t, run, same⟩ := ih (acc ++ [s.dramWord a]) rest
    refine ⟨t, ?_, .inr (same.elim (fun e => ⟨_, e⟩) (fun ⟨d, e⟩ => ⟨d, e⟩))⟩
    have words : (List.range n).map (fun i => (ended .ok (s.dramWord a) .none s).dramWord (a + 4 + 4 * i)) =
        (List.range n).map (fun i => s.dramWord (a + 4 * (i + 1))) :=
      List.map_congr_left fun i _ => congrArg s.dramWord (by omega)
    rw [words] at run
    simp only [readLoop, readWord_of_wordOk first]
    rw [List.range_succ_eq_map, List.map_cons, List.map_map, next_word]
    refine run.trans ?_
    simp [Function.comp_def]

/-- A FIXED read reads its word again and again. -/
theorem readLoop_fixed (n : Nat) (acc : List Word) (ok : wordOk m a s) :
    ∃ t, readLoop m true n (0x100000000 + a) acc s = (acc ++ List.replicate n (s.dramWord a), .ok, t) ∧
      (t = s ∨ ∃ d, t = ended .ok d .none s) := by
  induction n generalizing acc s with
  | zero => exact ⟨s, by simp [readLoop], .inl rfl⟩
  | succ n ih =>
    obtain ⟨t, run, same⟩ := ih (s := ended .ok (s.dramWord a) .none s) (acc ++ [s.dramWord a]) ok
    refine ⟨t, ?_, .inr (same.elim (fun e => ⟨_, e⟩) (fun ⟨d, e⟩ => ⟨d, e⟩))⟩
    simp only [readLoop, readWord_of_wordOk ok]
    refine run.trans ?_
    rw [List.replicate_succ, List.append_assoc]
    rfl

theorem writeLoop_run (type tag : Nat) (d : List Word) (done : Nat) (ok : ∀ i, i < d.length → wordOk m (a + 4 * i) s) :
    ∃ t, writeLoop m type tag false d (0x100000000 + a) done s = (done + d.length, .ok, t) ∧
      keeps [.last, .dram] s t ∧ t.dram = (s.setDramBytes a (wordsToBytes d)).dram := by
  induction d generalizing a done s with
  | nil => exact ⟨s, rfl, keeps_refl _ _, rfl⟩
  | cons v d ih =>
    have first : wordOk m a s := ok 0 (Nat.succ_pos _)
    have rest : ∀ i, i < d.length → wordOk m (a + 4 + 4 * i) (ended .ok 0 .none (s.setDramWord a v)) := fun i hi => by
      have h := ok (i + 1) (Nat.succ_lt_succ hi)
      rw [Nat.mul_add, Nat.mul_one, Nat.add_comm (4 * i), ← Nat.add_assoc] at h
      exact wordOk_of_keeps (wrote_keeps _ _ _ _) h
    obtain ⟨t, run, kept, dram⟩ := ih (done + 1) rest
    refine ⟨t, ?_, ?_, ?_⟩
    · simp only [writeLoop, writeWord_of_wordOk first]
      refine run.trans ?_
      rw [List.length_cons, Nat.add_assoc, Nat.add_comm 1]
    · exact keeps_mono (keeps_trans (wrote_keeps _ _ _ _) kept) (by decide)
    · rw [dram, State.setDramBytes_words_cons, setDramBytes_ended]
      rfl

/-- A FIXED write leaves its last word. -/
theorem writeLoop_fixed (type tag : Nat) (d : List Word) (v : Word) (done : Nat) (ok : wordOk m a s) :
    ∃ t, writeLoop m type tag true (d ++ [v]) (0x100000000 + a) done s = (done + (d.length + 1), .ok, t) ∧
      keeps [.last, .dram] s t ∧ t.dramWord a = v ∧ ∀ x, x < a ∨ a + 4 ≤ x → t.dramByte x = s.dramByte x := by
  induction d generalizing done s with
  | nil =>
    refine ⟨ended .ok 0 .none (s.setDramWord a v), ?_, wrote_keeps _ _ _ _, State.dramWord_setDramWord_same a v s,
      fun x h => State.setDramWord_frame a x v s h⟩
    simp only [List.nil_append, writeLoop, writeWord_of_wordOk ok]
    rfl
  | cons w d ih =>
    obtain ⟨t, run, kept, word, other⟩ := ih (done + 1) (wordOk_of_keeps (wrote_keeps 0 w .ok .none) ok)
    refine ⟨t, ?_, keeps_mono (keeps_trans (wrote_keeps _ _ _ _) kept) (by decide), word, fun x h =>
      (other x h).trans (State.setDramWord_frame a x w s h)⟩
    simp only [List.cons_append, writeLoop, writeWord_of_wordOk ok]
    refine run.trans ?_
    rw [List.length_cons, Nat.add_assoc, Nat.add_comm 1]

/-! ### The response (R49) -/

/-- What closes a request changes the marks that wait for its response. -/
theorem closeMarks_link (m : AB) (had : Bool) (s : State) : ∃ mo hr,
    (closeMarks m had s).link m = { s.link m with macOld := mo, hostResync := hr } ∧ (closeMarks m had s).link m.other = s.link m.other := by
  have other : m.other ≠ m := by cases m <;> decide
  exact ⟨_, _, State.link_setLink_same _ _ _, Pair.get_set_other _ other _⟩

/-- Outside a re-synchronisation a response waits behind the others. -/
theorem respond_up (up : (s.link m).state ≠ .resync) (r : Rec) :
    respond m r s = s.setLink m { s.link m with resp := (s.link m).resp ++ [r] } := if_neg up

/-- A request that changes no link is answered by one record. -/
theorem answers_closeMarks {t : State} (up : (s.link m).state ≠ .resync) (links : t.links = s.links) (had : Bool) (r : Rec) :
    answers m r s (closeMarks m had (respond m r t)) := by
  have link : ∀ l, t.link l = s.link l := fun l => congrArg (Pair.get · l) links
  have other : m.other ≠ m := by cases m <;> decide
  have queued := respond_up (s := t) (m := m) (by rwa [link]) r
  obtain ⟨mo, hr, same, away⟩ := closeMarks_link m had (respond m r t)
  refine ⟨mo, hr, ?_, ?_⟩
  · rw [same, queued, State.link_setLink_same, link]
  · rw [away, queued]
    exact (Pair.get_set_other _ other _).trans (link _)

theorem answered_keeps {t : State} {l : List Part} (kept : keeps (.links :: l) s t) (had : Bool) (r : Rec) :
    keeps (.links :: l) s (closeMarks m had (respond m r t)) :=
  keeps_mono (keeps_trans kept (closeMarks_moves.after rfl <| respond_moves.within rfl : moves [.links] t _).1) fun p h => by
    simp only [List.mem_append, List.mem_cons, List.not_mem_nil, or_false] at h ⊢
    tauto

/-- LPDDR4X behind the response is LPDDR4X before it. -/
theorem answered_dram {t : State} (had : Bool) (r : Rec) (b : Nat) :
    (closeMarks m had (respond m r t)).dramByte b = t.dramByte b :=
  dramByte_of_keeps (closeMarks_moves.after rfl <| respond_moves.within rfl : moves [.links] t _).1 (by decide) (by decide) b

/-- The addresses of an access that passes the checks are in the map (R50). -/
theorem addrBad_of_apertureOk {n : Nat} (ok : apertureOk m a n s = true) : addrBad (0x100000000 + a) n false s = false := by
  obtain ⟨⟨-, -, aligned, -⟩, words⟩ := wordOk_of_apertureOk ok
  have mapped : ∀ i, i < n → resolve (0x100000000 + a + 4 * i) s = some (.mem (a + 4 * i)) := fun i hi => by
    rw [Nat.add_assoc]
    exact resolve_mem (words i hi).2.1
  have even : (0x100000000 + a) % 4 = 0 := by omega
  simp only [addrBad, wordAddrs, even, Bool.false_eq_true, if_false, List.any_map, bne_self_eq_false, Bool.false_or, List.any_eq_false,
    List.mem_range, Function.comp_def]
  exact fun i hi => by simp [mapped i hi]

theorem addrBad_fixed (ok : apertureOk m a 1 s = true) (n : Nat) : addrBad (0x100000000 + a) n true s = false := by
  have first := addrBad_of_apertureOk ok
  simpa [addrBad, wordAddrs] using first

/-- The state behind a run of reads. -/
theorem read_keeps {t : State} (h : t = s ∨ ∃ d, t = ended .ok d .none s) : keeps [.last] s t := by
  obtain rfl | ⟨d, rfl⟩ := h
  · exact keeps_refl _ _
  · exact (ended_moves.within rfl : moves [.last] s _).1

/-- A bit mask merges into a word of memory as into a plain one. -/
theorem mergeMasked_nil (old k v : Word) : mergeMasked [] old k v = (old &&& ~~~ k) ||| (v &&& k) := rfl

/-! ### Records by themselves -/

/-- A good READ whose words all read with OK. -/
theorem exec_read_ok {tag addr n : Nat} {fx : Bool} {ws : List Word} {t : State} (on : s.running = true) (size : 1 ≤ n ∧ n ≤ 64)
    (mapped : addrBad addr n fx s = false) (run : readLoop m fx n addr [] s = (ws, .ok, t)) :
    exec (.read m tag addr n fx) s =
      .next (closeMarks m (s.link m).hostResync.isSome (respond m ⟨0x81, 0, tagWord tag ws.length :: ws, 0⟩ t)) := by
  have good : requestBad (.read tag addr n fx) s = 0 := (if_neg (by omega)).trans (if_neg (by simp [mapped]))
  refine (whenOn_running on _).trans (congrArg Host.Outcome.next ((if_pos good).trans ?_))
  simp only [runRecord, runRequest, stirs, runReadRec, run]
  rfl

/-- A good WRITE whose words are all written with OK. -/
theorem exec_write_ok {tag addr k : Nat} {fx : Bool} {d : List Word} {t : State} (on : s.running = true)
    (size : 1 ≤ d.length ∧ d.length ≤ 64) (mapped : addrBad addr d.length fx s = false)
    (run : writeLoop m 0x02 tag fx d addr 0 s = (k, .ok, t)) :
    exec (.write m tag addr fx d) s =
      .next (closeMarks m (s.link m).hostResync.isSome (respond m ⟨0x82, 0, [tagWord tag k], 0⟩ t)) := by
  have good : requestBad (.write tag addr fx d) s = 0 := (if_neg (by omega)).trans (if_neg (by simp [mapped]))
  refine (whenOn_running on _).trans (congrArg Host.Outcome.next ((if_pos good).trans ?_))
  simp only [runRecord, runRequest, stirs, runWriteRec, run]
  rfl

/-- A MASKED_WRITE of a word that passes the checks. -/
theorem exec_maskedWrite_ok {tag : Nat} (k v : Word) (on : s.running = true) (ok : apertureOk m a 1 s = true) :
    exec (.maskedWrite m tag (0x100000000 + a) k v) s =
      .next (closeMarks m (s.link m).hostResync.isSome (respond m ⟨0x83, 0, [tagWord tag 0, s.dramWord a], 0⟩
        (ended .ok (s.dramWord a) .none (s.setDramWord a (mergeMasked [] (s.dramWord a) k v))))) := by
  have good : requestBad (.masked tag (0x100000000 + a) k v) s = 0 := if_neg (by simp [addrBad_of_apertureOk ok])
  refine (whenOn_running on _).trans (congrArg Host.Outcome.next ((if_pos good).trans ?_))
  simp only [runRecord, runRequest, stirs, runMaskedRec, maskedWord_of_wordOk (firstWord_of_apertureOk ok (by decide)), tagWord,
    Nat.zero_mul, Nat.add_zero]
  rfl

/-- Equal bytes, equal words. -/
theorem dramWord_congr {t : State} {b : Nat} (same : ∀ c, t.dramByte c = s.dramByte c) : t.dramWord b = s.dramWord b :=
  congrArg beWord (State.dramBytes_congr 4 fun c _ _ => same c)

theorem dramByte_congr {t : State} (dram : t.dram = s.dram) (era : t.era = s.era) (c : Nat) : t.dramByte c = s.dramByte c := by
  simp only [State.dramByte, dram, era]

end

/-! ### The statement -/

/-- Settles O23: the loops over the words are `readLoop_run`, `readLoop_fixed`, `writeLoop_run` and `writeLoop_fixed`, and every
response closes the record as in `answers_closeMarks`. -/
theorem memoryIsReadAndWritten : Obligations.MemoryIsReadAndWritten := by
  intro m tag a s on up
  have links : ∀ {l : List Part} {t : State}, keeps l s t → Part.links ∉ l → t.links = s.links := fun k h => k .links h
  refine ⟨fun n ok => ?_, fun n one most ok => ?_, fun d ok => ?_, fun d v few ok => ?_, fun k v ok => ?_⟩
  · obtain ⟨⟨one, most, -⟩, words⟩ := wordOk_of_apertureOk ok
    obtain ⟨t, run, same⟩ := readLoop_run n [] words
    have kept := read_keeps same
    refine ⟨_, exec_read_ok on ⟨one, most⟩ (addrBad_of_apertureOk ok) run, ?_, ?_⟩
    · simpa using answers_closeMarks up (links kept (by decide)) _ _
    · exact answered_keeps (l := [.last]) (keeps_mono kept (by decide)) _ _
  · obtain ⟨t, run, same⟩ := readLoop_fixed n [] (firstWord_of_apertureOk ok (by decide))
    have kept := read_keeps same
    refine ⟨_, exec_read_ok on ⟨one, most⟩ (addrBad_fixed ok n) run, ?_, ?_⟩
    · simpa using answers_closeMarks up (links kept (by decide)) _ _
    · exact answered_keeps (l := [.last]) (keeps_mono kept (by decide)) _ _
  · obtain ⟨⟨one, most, -⟩, words⟩ := wordOk_of_apertureOk ok
    obtain ⟨t, run, kept, dram⟩ := writeLoop_run 0x02 tag d 0 words
    have era : t.era = (s.setDramBytes a (wordsToBytes d)).era :=
      (kept .era (by decide)).trans (setDramBytes_keeps (wordsToBytes d) a s .era (by decide)).symm
    refine ⟨_, exec_write_ok on ⟨one, most⟩ (addrBad_of_apertureOk ok) run, ?_, fun i hi => ?_, fun x outside => ?_,
      answered_keeps (l := [.last, .dram]) (keeps_mono kept (by decide)) _ _⟩
    · rw [Nat.zero_add]
      exact answers_closeMarks up (links kept (by decide)) _ _
    · rw [dramWord_congr (answered_dram _ _), dramWord_congr (dramByte_congr dram era)]
      exact State.dramWord_setDramBytes_words hi a s
    · rw [answered_dram, dramByte_congr dram era]
      exact outside.elim (State.setDramBytes_below _ a x s) fun h =>
        State.setDramBytes_above _ a x s (by rwa [length_wordsToBytes])
  · obtain ⟨t, run, kept, word, other⟩ := writeLoop_fixed 0x02 tag d v 0 (firstWord_of_apertureOk ok (by decide))
    have size : 1 ≤ (d ++ [v]).length ∧ (d ++ [v]).length ≤ 64 := by simp; omega
    refine ⟨_, exec_write_ok on size (addrBad_fixed ok _) run, ?_, ?_, fun x outside => ?_,
      answered_keeps (l := [.last, .dram]) (keeps_mono kept (by decide)) _ _⟩
    · rw [Nat.zero_add]
      exact answers_closeMarks up (links kept (by decide)) _ _
    · rw [dramWord_congr (answered_dram _ _)]
      exact word
    · rw [answered_dram]
      exact other x outside
  · have kept := wrote_keeps (s := s) (a := a) (s.dramWord a) (mergeMasked [] (s.dramWord a) k v) .ok .none
    refine ⟨_, exec_maskedWrite_ok k v on ok, answers_closeMarks up (links kept (by decide)) _ _, ?_, fun x outside => ?_,
      answered_keeps (l := [.last, .dram]) (keeps_mono kept (by decide)) _ _⟩
    · rw [dramWord_congr (answered_dram _ _), dramWord_ended, ← mergeMasked_nil]
      exact State.dramWord_setDramWord_same a (mergeMasked [] (s.dramWord a) k v) s
    · rw [answered_dram, dramByte_ended]
      exact State.setDramWord_frame a x _ s outside

end Sys2Proof.Machine

/-!
PROOFS. Malformed records (R50, R113): what a freeze leaves, and the ERROR record of a bad field (O24).
-/

namespace Sys2Proof.Machine

section
variable {m : AB} {s : State}

/-! ### Freezing a master (R111, R114) -/

/-- An entry of the event log that the store does not keep. -/
theorem addLog_volatile {t : LogType} {page code : Nat} {d w : Word}
    (h : ¬ (code = 0x0105 ∨ code = 0x0106 ∨ code = 0x0302 ∨ code = 0x0304)) : moves [.regs, .log] s (addLog t page code d w s) := by
  unfold addLog
  dsimp only
  rw [if_neg h]
  exact bump_moves.after rfl <| with_log_moves.after rfl <| moves_ite moves_rfl (bump_moves.within rfl)

/-- The freeze record of a master at its freeze. -/
def frozenFor (m : AB) (cause : Nat) (q : Req) (s : State) : Freeze :=
  { frozen := true, cause := cause, freezes := satAdd 255 (s.frz m).freezes 1,
    addr := if decide (q.type = 0x10 ∨ q.type = 0x20 ∨ cause = 4) then 0 else q.addr, type := q.type, slice := q.slice, tag := q.tag,
    seq := s.lastSeq m, sec := s.secWord, ns := s.nsWord, discarded := 0, refused := 0, queued := [] }

/-- The master is frozen, and its interrupt is raised. -/
def frozenState (m : AB) (cause : Nat) (q : Req) (s : State) : State :=
  queueEvent m pSem false (raise pSem m.num (s.setFrz m (frozenFor m cause q s)))

theorem frozenState_spec (cause : Nat) (q : Req) :
    moves [.hdrs, .links, .masters] s (frozenState m cause q s) ∧ (frozenState m cause q s).frz m = frozenFor m cause q s ∧
    intRawBit (frozenState m cause q s) pSem m.num = true ∧ keepsHdrs [pSem] s (frozenState m cause q s) ∧
    sparesLinks s (frozenState m cause q s) := by
  have num : m.num < 32 := by cases m <;> decide
  have told : keeps [.links] (raise pSem m.num (s.setFrz m (frozenFor m cause q s))) (frozenState m cause q s) := queueEvent_moves.1
  have masters : (frozenState m cause q s).masters = (s.setFrz m (frozenFor m cause q s)).masters :=
    (queueEvent_moves.after rfl <| raise_moves.within rfl : moves [.hdrs, .links] (s.setFrz m _) (frozenState m cause q s)).1
      .masters (by decide)
  refine ⟨queueEvent_moves.after rfl <| raise_moves.after rfl <| setFrz_moves.within rfl, ?_, ?_, ?_, ?_⟩
  · rw [State.frz, masters]
    exact Pair.get_set_same _ _ _
  · exact (intRawBit_of_keeps told (by decide) _ _).trans (raise_intRaw _ _ _ num)
  · exact fun p hp => (keepsHdrs_of_keeps told (by decide) p List.not_mem_nil).trans (raise_keepsHdrs pSem m.num (s.setFrz m _) p hp)
  · exact sparesLinks_trans (sparesLinks_of_moves setFrz_moves rfl) <| sparesLinks_trans (raise_sparesLinks _ _ _)
      (queueEvent_sparesLinks _ _ _ _)

/-- Behind the freeze the event log has one more entry, and the master gives up the staging window. -/
theorem freezeMaster_after (m : AB) (cause : Nat) (q : Req) (s : State) :
    moves [.regs, .log, .fw] (frozenState m cause q s) (freezeMaster m cause q s) ∧
    keepsRegs logRegs (frozenState m cause q s) (freezeMaster m cause q s) := by
  have staging : ∀ t : State, moves [.fw] t (if t.fw.stager = some m then { t with fw := { t.fw with stager := none } } else t) :=
    fun _ => moves_ite with_fw_moves moves_rfl
  refine ⟨(staging _).after rfl <| (addLog_volatile (by decide)).within rfl, fun a ha => ?_⟩
  exact (keepsRegs_of_keeps (staging _).1 (by decide) a List.not_mem_nil).trans ((addLog_spec _ _ _ _ _ _).2 a ha)

theorem freezeMaster_spec (m : AB) (cause : Nat) (q : Req) (s : State) :
    keeps [.regs, .hdrs, .links, .masters, .fw, .log] s (freezeMaster m cause q s) ∧
    (freezeMaster m cause q s).frz m = frozenFor m cause q s ∧ intRawBit (freezeMaster m cause q s) pSem m.num = true ∧
    keepsRegs logRegs s (freezeMaster m cause q s) ∧ keepsHdrs [pSem] s (freezeMaster m cause q s) ∧
    sparesLinks s (freezeMaster m cause q s) := by
  obtain ⟨parts, frz, raised, hdrs, links⟩ := frozenState_spec (m := m) (s := s) cause q
  obtain ⟨after, regs⟩ := freezeMaster_after m cause q s
  have masters : (freezeMaster m cause q s).masters = (frozenState m cause q s).masters := part_of_moves .masters after rfl
  refine ⟨(after.after rfl <| parts.within rfl : moves _ _ _).1, ?_, ?_, fun a ha => ?_, fun p hp => ?_, ?_⟩
  · rwa [State.frz, masters]
  · exact (intRawBit_of_keeps after.1 (by decide) _ _).trans raised
  · exact (regs a ha).trans (keepsRegs_of_keeps parts.1 (by decide) a List.not_mem_nil)
  · exact (keepsHdrs_of_keeps after.1 (by decide) p List.not_mem_nil).trans (hdrs p hp)
  · exact sparesLinks_trans links (sparesLinks_of_moves after rfl)

/-! ### Malformed records (R50, R113) -/

/-- The state in which the count of the window is compared: the ERROR record waits and is counted. -/
def malformedCounted (m : AB) (r : Rec) (s : State) : State :=
  let t := linkCount m 14 (respond m r s)
  { t with masters := { t.masters with malf := t.masters.malf.set m (satAdd 65535 (t.masters.malf.get m) 1) } }

theorem malformedCounted_link (r : Rec) (l : AB) : (malformedCounted m r s).link l = (respond m r s).link l := linkCount_link m l 14 (respond m r s)

theorem malformedCounted_spec (r : Rec) (up : (s.link m).state ≠ .resync) :
    answers m r s (malformedCounted m r s) ∧ (malformedCounted m r s).rd (linkCtr m 14) = s.rd (linkCtr m 14) + 1 ∧
    (malformedCounted m r s).masters = { s.masters with malf := s.masters.malf.set m (satAdd 65535 (s.masters.malf.get m) 1) } ∧
    keepsRegs [linkCtr m 14] s (malformedCounted m r s) ∧ moves [.links, .regs, .masters] s (malformedCounted m r s) := by
  have queued : keeps [.links] s (respond m r s) := respond_moves.1
  have masters : (linkCount m 14 (respond m r s)).masters = s.masters :=
    part_of_moves .masters (linkCount_moves.after rfl <| respond_moves.within rfl : moves [.regs, .links] s _) rfl
  refine ⟨⟨(s.link m).macOld, (s.link m).hostResync, ?_, ?_⟩, ?_, ?_, fun a ha => ?_,
    with_masters_moves.after rfl <| linkCount_moves.after rfl <| respond_moves.within rfl⟩
  · rw [malformedCounted_link, respond_up up, State.link_setLink_same]
  · have other : m.other ≠ m := by cases m <;> decide
    rw [malformedCounted_link, respond_up up]
    exact Pair.get_set_other _ other _
  · exact (linkCount_rd_same m 14 (respond m r s)).trans
      (congrArg (· + 1) (keepsRegs_of_keeps queued (by decide) _ List.not_mem_nil))
  · simp only [malformedCounted, masters]
  · exact (linkCount_keepsRegs m 14 (respond m r s) a ha).trans (keepsRegs_of_keeps queued (by decide) _ List.not_mem_nil)

/-- The threshold of malformed records (R113). -/
def malfTop (s : State) : Nat := s.fld (regAddr pSem 0x604) 0 10

theorem malfTop_lt (s : State) : malfTop s < 1024 := bits_lt _ _ _

/-- A malformed record freezes its master where it takes the count of the window above the threshold. -/
theorem malformed_eq (type tag off cause : Nat) (r : Rec)
    (h : r = ⟨0x8F, 0, [word (tag % 65536 * 65536 + off % 65536), word cause], 0⟩) :
    malformed m type tag off cause s =
      if s.masters.malf.get m = malfTop s ∧ s.isFrozen m = false then freezeMaster m 4 ⟨type, tag, 0, 0⟩ (malformedCounted m r s)
      else malformedCounted m r s := by
  subst h
  let r : Rec := ⟨0x8F, 0, [word (tag % 65536 * 65536 + off % 65536), word cause], 0⟩
  have moved : moves [.links, .regs] s (linkCount m 14 (respond m r s)) := linkCount_moves.after rfl <| respond_moves.within rfl
  have masters : (linkCount m 14 (respond m r s)).masters = s.masters := part_of_moves .masters moved rfl
  have top : malfTop (linkCount m 14 (respond m r s)) = malfTop s := by
    have num : m.num < 2 := by cases m <;> decide
    have apart : regAddr pSem 0x604 ≠ linkCtr m 14 := by
      simp only [regAddr, linkCtr, pSem, pCtl]
      omega
    have reg : (linkCount m 14 (respond m r s)).rd (regAddr pSem 0x604) = s.rd (regAddr pSem 0x604) :=
      (State.rd_wr_other _ apart _).trans (keepsRegs_of_keeps (respond_moves (s := s) (l := m) (r := r)).1 (by decide) _ List.not_mem_nil)
    simp only [malfTop, State.fld, reg]
  have low := malfTop_lt s
  have passes : (s.masters.malf.get m ≤ malfTop s ∧ malfTop s < satAdd 65535 (s.masters.malf.get m) 1) ↔
      s.masters.malf.get m = malfTop s := by
    unfold satAdd
    split <;> omega
  have frozen : (malformedCounted m r s).isFrozen m = s.isFrozen m := by
    simp only [malformedCounted, State.isFrozen, State.frz, masters]
  have counted : malformed m type tag off cause s = if (decide ((linkCount m 14 (respond m r s)).masters.malf.get m ≤
        malfTop (linkCount m 14 (respond m r s)) ∧ malfTop (linkCount m 14 (respond m r s)) <
          satAdd 65535 ((linkCount m 14 (respond m r s)).masters.malf.get m) 1) && !(malformedCounted m r s).isFrozen m) = true
      then freezeMaster m 4 ⟨type, tag, 0, 0⟩ (malformedCounted m r s) else malformedCounted m r s := rfl
  rw [counted, top, masters, frozen]
  simp only [passes, Bool.and_eq_true, decide_eq_true_eq, Bool.not_eq_true']
  rfl

/-- A request that is bad ends as a malformed record. -/
theorem exec_commandOf_bad {r : Request} (on : s.running = true) (bad : requestBad r s ≠ 0) :
    exec (commandOf m r) s = .next (malformed m (reqType r) (reqTag r) 0 (requestBad r s) s) := by
  have row : exec (commandOf m r) s = whenOn s (.next (oneRecord m r s)) := by cases r <;> rfl
  rw [row, whenOn_running on, oneRecord, if_neg bad]

/-! ### Which records are malformed (R50) -/

/-- The first word of an access decides where its address is bad. -/
theorem addrBad_of_first {addr n : Nat} {fx : Bool} (some : 1 ≤ n) (bad : addr % 4 ≠ 0 ∨ resolve addr s = none) :
    addrBad addr n fx s = true := by
  obtain ⟨k, rfl⟩ : ∃ k, n = k + 1 := ⟨n - 1, by omega⟩
  obtain odd | outside := bad
  · simp [addrBad, odd]
  · cases fx <;> simp [addrBad, wordAddrs, List.range_succ_eq_map, outside]

theorem requestBad_read_count {tag a n : Nat} {fx : Bool} (h : n = 0 ∨ 64 < n) : requestBad (.read tag a n fx) s = 3 := if_pos h

theorem requestBad_write_count {tag a : Nat} {fx : Bool} {d : List Word} (h : d.length = 0 ∨ 64 < d.length) :
    requestBad (.write tag a fx d) s = 3 := if_pos h

theorem requestBad_read_addr {tag a n : Nat} {fx : Bool} (one : 1 ≤ n) (most : n ≤ 64) (bad : a % 4 ≠ 0 ∨ resolve a s = none) :
    requestBad (.read tag a n fx) s = 4 := (if_neg (by omega)).trans (if_pos (addrBad_of_first one bad))

theorem requestBad_write_addr {tag a : Nat} {fx : Bool} {d : List Word} (one : 1 ≤ d.length) (most : d.length ≤ 64)
    (bad : a % 4 ≠ 0 ∨ resolve a s = none) : requestBad (.write tag a fx d) s = 4 :=
  (if_neg (by omega)).trans (if_pos (addrBad_of_first one bad))

theorem requestBad_masked_addr {tag a : Nat} {k v : Word} (bad : a % 4 ≠ 0 ∨ resolve a s = none) :
    requestBad (.masked tag a k v) s = 4 := if_pos (addrBad_of_first (Nat.le_refl 1) bad)

/-- Beyond the end of LPDDR4X there is no address. -/
theorem resolve_beyond {x : Nat} (h : s.memSize ≤ x) : resolve (0x100000000 + x) s = none := by
  have above : ¬ 0x100000000 + x < 0x1000000 ∧ ¬ 0x100000000 + x < 0x2000000 := by omega
  have outside : ¬ (0x100000000 ≤ 0x100000000 + x ∧ 0x100000000 + x < 0x100000000 + s.memSize) := by omega
  rw [resolve, if_neg above.1, if_neg above.2, if_neg outside]

end

/-- Settles O24: `malformed_eq` says which record freezes its master, `freezeMaster_spec` what the freeze leaves. -/
theorem malformedRecordsAreAnsweredWithError : Obligations.MalformedRecordsAreAnsweredWithError := by
  refine ⟨fun m r s on bad up => ?_, fun s tag a fx => ⟨fun n => requestBad_read_count, fun n one most => requestBad_read_addr one most,
    fun d one most => requestBad_write_addr one most, fun d => requestBad_write_count, fun k v => requestBad_masked_addr,
    fun k fi la n d b h => if_pos h, fun l => rfl, fun x h _ => resolve_beyond h⟩⟩
  intro err top
  obtain ⟨reply, counted, masters, regs, parts⟩ := malformedCounted_spec err up
  have ends := malformed_eq (m := m) (s := s) (reqType r) (reqTag r) 0 (requestBad r s) err (by simp [err])
  have low := malfTop_lt s
  refine ⟨fun below => ?_, fun reached thawed => ?_⟩
  · have quiet : ¬ (s.masters.malf.get m = malfTop s ∧ s.isFrozen m = false) := fun h => absurd h.1 (Nat.ne_of_lt below)
    have next : satAdd 65535 (s.masters.malf.get m) 1 = s.masters.malf.get m + 1 := if_neg (by
      have : s.masters.malf.get m < malfTop s := below
      omega)
    rw [exec_commandOf_bad on bad, ends, if_neg quiet]
    exact ⟨_, rfl, reply, counted, by rw [masters, next], regs, parts.1⟩
  · have passed : s.masters.malf.get m = malfTop s ∧ s.isFrozen m = false := ⟨reached, thawed⟩
    rw [exec_commandOf_bad on bad, ends, if_pos passed]
    obtain ⟨kept, frz, raised, logged, hdrs, links⟩ := freezeMaster_spec m 4 ⟨reqType r, reqTag r, 0, 0⟩ (malformedCounted m err s)
    obtain ⟨e, n, link⟩ := links m
    obtain ⟨mo, hr, queued, -⟩ := reply
    refine ⟨_, rfl, ?_, ?_, ?_, ?_, ?_, ?_, raised, ?_, ?_, keeps_mono (keeps_trans parts.1 kept) (by decide)⟩
    · rw [link, queued]
      exact List.mem_append_right _ (List.mem_singleton.mpr rfl)
    · rw [State.isFrozen, frz]
      rfl
    · rw [frz]
      rfl
    · rw [frz]
      rfl
    · rw [frz]
      rfl
    · rw [frz]
      exact if_pos (by simp)
    · exact keepsRegs_trans regs logged
    · exact fun p hp => (hdrs p hp).trans (keepsHdrs_of_keeps parts.1 (by decide) p List.not_mem_nil)

end Sys2Proof.Machine

/-!
PROOFS. Accepted writes of plain registers and of the registers of a control link (O27).
-/

namespace Sys2Proof.Machine

section
variable {m : AB} {p off : Nat} {v : Word} {s : State}

/-! ### A register by its address -/

theorem page_lt_of_pageInfo {i : PageInfo} (page : pageInfo p = some i) : p < 0xC00 := by
  unfold pageInfo at page
  split at page
  · omega
  · split at page
    · omega
    · cases page

/-- The address of a register leads back to it. -/
theorem resolve_regAddr {i : PageInfo} (page : pageInfo p = some i) (h : off < 0x1000) :
    resolve (regAddr p off) s = some (.reg none p off) := by
  have low := page_lt_of_pageInfo page
  have control : regAddr p off < 0x1000000 := by
    simp only [regAddr]
    omega
  simp only [resolve, if_pos control, regAddr_div h, regAddr_mod h, page]

/-- REG_WRITE of a plain register is its write, without a response to wait for. -/
theorem exec_regWrite_plain {i : PageInfo} (on : s.running = true) (page : pageInfo p = some i) (block : 0x100 ≤ off) (h : off < 0x1000)
    (aligned : off % 4 = 0) (handler : blockHandler p off i = plain p off) :
    exec (.regWrite m (regAddr p off) v) s = .next (noResponse m (writeReg m p off (plain p off) v s)) := by
  have even : regAddr p off % 4 = 0 := by
    simp only [regAddr]
    omega
  have word : writeWord m ⟨0x02, 0, regAddr p off, 0⟩ v s = writeReg m p off (plain p off) v s := by
    simp only [writeWord, resolve_regAddr page h, page, regHandler, writeFields, if_neg (Nat.not_lt.mpr block), handler]
    rfl
  exact (whenOn_running on _).trans <| (if_neg (by simp [even])).trans (congrArg (fun t => Host.Outcome.next (noResponse m t)) word)

/-- What stands instead of a response forgets the addresses that wait for one. -/
theorem noResponse_link (l : AB) : ∃ mo, (noResponse m s).link l = { s.link l with macOld := mo } := by
  by_cases same : l = m
  · subst same
    exact ⟨_, State.link_setLink_same _ _ _⟩
  · exact ⟨_, Pair.get_set_other _ same _⟩

/-! ### Registers of the store (R523) -/

theorem nvQueue_pend (x : NvItem) : x ∈ (nvQueue x s).nvs.pend := by
  unfold nvQueue
  split
  · rename_i waits
    exact List.contains_iff_mem.mp waits
  · exact List.mem_append_right _ (List.mem_singleton.mpr rfl)

/-- A store of a register of the non-volatile store waits to be committed; any other leaves the store alone. -/
theorem storeReg_nvs (p off : Nat) (v : Word) (s : State) :
    (hasNvs (fieldsAt p off) = true → NvItem.reg (regAddr p off) ∈ (storeReg p off v s).nvs.pend) ∧
    (hasNvs (fieldsAt p off) = false → (storeReg p off v s).nvs = s.nvs) := by
  refine ⟨fun held => ?_, fun held => ?_⟩
  · have stored : storeReg p off v s = nvQueue (.reg (regAddr p off)) (storeFields p off v s) := if_pos held
    rw [stored]
    exact nvQueue_pend _
  · have stored : storeReg p off v s = storeFields p off v s := if_neg (by simp [held])
    rw [stored]
    rfl

/-- What an accepted write of a plain register leaves, whatever the register. -/
theorem writeReg_plain (ok : admits m p off (plain p off) v s = true) :
    let t := writeReg m p off (plain p off) v s
    t.last = .done ∧ (regAddr p off ≠ regAddr pPrs 0x110 → t.rp p off = mergeFields (fieldsAt p off) (s.rp p off) v) ∧
      (hasNvs (fieldsAt p off) = true → NvItem.reg (regAddr p off) ∈ t.nvs.pend) ∧
      (hasNvs (fieldsAt p off) = false → t.nvs = s.nvs) ∧ keepsRegs (writeRegs p off) s t ∧ keeps [.regs, .last, .nvs] s t := by
  obtain ⟨u, used, uses, wrote⟩ := writeReg_used ok
  obtain ⟨value, regs, kept⟩ := storeReg_spec p off v u
  obtain ⟨waits, stays⟩ := storeReg_nvs p off v u
  have nvs : u.nvs = s.nvs := part_of_moves .nvs used rfl
  intro t
  have run : t = ended .ok 0 .none (storeReg p off v u) := wrote
  rw [run]
  refine ⟨rfl, fun other => ?_, waits, fun held => (stays held).trans nvs, ?_, ?_⟩
  · exact value.trans (by rw [State.rp, uses _ (by simpa using other)]; rfl)
  · exact keepsRegs_trans_swap uses regs
  · exact keeps_mono (keeps_trans (keeps_trans used.1 kept) (ended_keeps _ _ _ _)) (by decide)

/-! ### Registers of a control link (R41, R57) -/

/-- The page of a control link is not the presence page. -/
theorem regAddr_pCtl_ne_uses (h : off < 0x1000) : regAddr (pCtl m) off ≠ regAddr pPrs 0x110 := by
  simp only [regAddr, pCtl, pPrs]
  omega

/-- An accepted write of a register of a link, whose handler may first change the link. -/
theorem writeReg_linkReg {h : Handler} (k : State → LinkSt) (low : off < 0x1000) (ok : admits m (pCtl m) off h v s = true)
    (run : ∀ t, h.run m v t = storeReg (pCtl m) off v (t.setLink m (k t))) :
    let t := writeReg m (pCtl m) off h v s
    t.last = .done ∧ t.rp (pCtl m) off = mergeFields (fieldsAt (pCtl m) off) (s.rp (pCtl m) off) v ∧
      keepsRegs (writeRegs (pCtl m) off) s t ∧ keeps [.regs, .last, .nvs, .links] s t := by
  obtain ⟨u, used, uses, wrote⟩ := writeReg_used ok
  obtain ⟨value, regs, kept⟩ := storeReg_spec (pCtl m) off v (u.setLink m (k u))
  intro t
  have ends : t = ended .ok 0 .none (storeReg (pCtl m) off v (u.setLink m (k u))) := wrote.trans (by rw [run])
  rw [ends]
  refine ⟨rfl, ?_, keepsRegs_trans_swap uses regs, ?_⟩
  · exact value.trans (congrArg (mergeFields _ · v) (uses _ (by simpa using regAddr_pCtl_ne_uses low)))
  · exact keeps_mono (keeps_trans (keeps_trans used.1 (setLink_keeps _ _ _)) (keeps_trans kept (ended_keeps _ _ _ _))) (by decide)

theorem fieldsAt_ctlCtrl (m : AB) : fieldsAt (pCtl m) 0x12C = [⟨0, 1, .wo, true, .val 0, .any⟩, fRW 1 1 0, fRW 2 1 0] := by
  cases m <;> decide

/-- RESYNC stores CENSUS_PUSH as it stands. -/
theorem ctlCtrl_resync (m : AB) (old : Word) :
    bit (mergeFields (fieldsAt (pCtl m) 0x12C) old (setBits old 0 1 1)) 2 = bit old 2 := by
  have stored : mergeFields (fieldsAt (pCtl m) 0x12C) old (setBits old 0 1 1) =
      setBits (setBits 0 1 1 (bits (setBits old 0 1 1) 1 1)) 2 1 (bits (setBits old 0 1 1) 2 1) := by
    rw [fieldsAt_ctlCtrl]
    rfl
  rw [stored, bit_setBits _ _ _ _ _ (by decide), if_pos (by decide), bits_setBits_other _ (by decide) (by decide), testBit_bits]
  simp [bit]

/-- While neither link takes CENSUS records, no ring drains (R418). -/
theorem pushRings_closed (closed : ∀ l, s.flag (regAddr (pCtl l) 0x12C) 2 = false) : pushRings s = s := by
  have idle : ∀ k, pushRing k s = s := fun k => by
    have none : pushLink k s = none := by
      unfold pushLink
      dsimp only
      split
      · rfl
      · rw [if_neg (by simp [closed])]
    simp only [pushRing, none]
  have rings : ∀ ks : List Nat, ks.foldl (fun s k => pushRing k s) s = s := fun ks => by
    induction ks with
    | nil => rfl
    | cons k ks ih => rwa [List.foldl_cons, idle]
  exact rings _

theorem other_of_ne {x y : AB} (h : x ≠ y) : x = y.other := by
  cases x with
  | a =>
    cases y with
    | a => exact absurd rfl h
    | b => rfl
  | b =>
    cases y with
    | a => rfl
    | b => exact absurd rfl h

/-- The link of the other master has registers of its own. -/
theorem regAddr_pCtl_ne {l : AB} (h : l ≠ m) (off x : Nat) (hx : x < 0x1000) (ho : off < 0x1000) :
    regAddr (pCtl l) x ≠ regAddr (pCtl m) off := by
  rw [other_of_ne h]
  cases m <;> simp only [regAddr, pCtl, AB.num, AB.other] <;> omega

theorem ctlCtrl_volatile (m : AB) : hasNvs (fieldsAt (pCtl m) 0x12C) = false := by
  rw [fieldsAt_ctlCtrl]
  rfl

/-- What a write of RESYNC leaves of CTL_CTRL takes no CENSUS records where neither link did. -/
theorem storeReg_ctlCtrl_closed (mine : s.flag (regAddr (pCtl m) 0x12C) 2 = false)
    (other : s.flag (regAddr (pCtl m.other) 0x12C) 2 = false) (l : AB) :
    (storeReg (pCtl m) 0x12C (setBits (s.rp (pCtl m) 0x12C) 0 1 1) s).flag (regAddr (pCtl l) 0x12C) 2 = false := by
  obtain ⟨value, regs, -⟩ := storeReg_spec (pCtl m) 0x12C (setBits (s.rp (pCtl m) 0x12C) 0 1 1) s
  by_cases same : l = m
  · subst same
    exact (congrArg (bit · 2) value).trans ((ctlCtrl_resync l _).trans mine)
  · have away : l = m.other := other_of_ne same
    have apart := regAddr_pCtl_ne same 0x12C 0x12C (by decide) (by decide)
    rw [← away] at other
    exact (congrArg (bit · 2) (regs _ (by simpa using apart))).trans other

/-- RESYNC of CTL_CTRL asks for a re-synchronisation behind the responses that wait. -/
theorem ctlCtrlHandler_resync (free : (s.link m).hostResync = none) (mine : s.flag (regAddr (pCtl m) 0x12C) 2 = false)
    (other : s.flag (regAddr (pCtl m.other) 0x12C) 2 = false) :
    (ctlCtrlHandler m).run m (setBits (s.rp (pCtl m) 0x12C) 0 1 1) s =
      storeReg (pCtl m) 0x12C (setBits (s.rp (pCtl m) 0x12C) 0 1 1) (s.setLink m { s.link m with hostResync := some 0 }) := by
  have asks : bit (setBits (s.rp (pCtl m) 0x12C) 0 1 1) 0 = true := by
    rw [bit_setBits _ _ _ _ _ (by decide)]
    rfl
  generalize value : setBits (s.rp (pCtl m) 0x12C) 0 1 1 = w at asks ⊢
  have marks : (bit w 0 && (s.link m).hostResync.isNone) = true := by rw [asks, free]; rfl
  have run : (ctlCtrlHandler m).run m w s = pushRings (storeReg (pCtl m) 0x12C w
      (if (bit w 0 && (s.link m).hostResync.isNone) = true then s.setLink m { s.link m with hostResync := some 0 } else s)) := rfl
  rw [run, if_pos marks]
  refine pushRings_closed fun l => Eq.trans ?_ (value ▸ storeReg_ctlCtrl_closed mine other l)
  rw [storeReg_volatile (ctlCtrl_volatile m), storeReg_volatile (ctlCtrl_volatile m)]
  rfl

end

/-- CTL_CTRL asks for no presence token. -/
theorem ctlCtrl_ungated (m : AB) (v : Word) : touches .rwp (fieldsAt (pCtl m) 0x12C) v = false := by
  rw [fieldsAt_ctlCtrl]
  rfl

/-- Settles O27: `writeReg_plain` for the plain registers, `writeReg_linkReg` and `ctlCtrlHandler_resync` for those of a link. -/
theorem acceptedWritesStoreTheFields : Obligations.AcceptedWritesStoreTheFields := by
  intro m s on
  refine ⟨fun p off v i page block high aligned handler ok => ?_, fun hi v => ?_, fun ok free mine other => ?_⟩
  · obtain ⟨done, value, waits, stays, regs, kept⟩ := writeReg_plain ok
    refine ⟨_, exec_regWrite_plain on page block high aligned handler, done, value, waits, stays, regs,
      keeps_mono (keeps_trans kept (setLink_keeps _ _ _)) (by decide), fun l => ?_⟩
    obtain ⟨mo, link⟩ := noResponse_link (m := m) (s := writeReg m p off (plain p off) v s) l
    have same : (writeReg m p off (plain p off) v s).link l = s.link l := congrArg (Pair.get · l) (kept .links (by decide))
    exact ⟨mo, by rw [link, same]⟩
  · intro off ok
    have low : off < 0x1000 := by
      simp only [off]
      split <;> decide
    obtain ⟨done, value, regs, kept⟩ := writeReg_linkReg (h := ctlMacHandler m off)
      (fun t => { t.link m with macOld := (t.link m).macOld ++ [(linkMac m t, 0)] }) low ok (fun _ => rfl)
    exact ⟨_, whenOn_running on _, done, value, regs, keeps_mono (keeps_trans kept (setLink_keeps _ _ _)) (by decide)⟩
  · have run := writeReg_ungated ok (ctlCtrl_ungated m _)
    rw [ctlCtrlHandler_resync free mine other] at run
    have row : exec (.ctlResyncCmd m) s = _ := (whenOn_running on _).trans (congrArg Host.Outcome.next run)
    obtain ⟨-, regs, kept⟩ := storeReg_spec (pCtl m) 0x12C (setBits (s.rp (pCtl m) 0x12C) 0 1 1)
      (s.setLink m { s.link m with hostResync := some 0 })
    have nvs := (storeReg_nvs (pCtl m) 0x12C (setBits (s.rp (pCtl m) 0x12C) 0 1 1)
      (s.setLink m { s.link m with hostResync := some 0 })).2 (ctlCtrl_volatile m)
    refine ⟨_, row, rfl, ?_, ?_, ?_⟩
    · exact (congrArg (Pair.get · m) (kept .links (by decide))).trans (State.link_setLink_same _ _ _)
    · exact keepsRegs_mono (regs : keepsRegs _ s _) (by simp [writeRegs])
    · intro part h
      by_cases store : part = .nvs
      · subst store
        exact nvs
      · exact (keeps_mono (keeps_trans (setLink_keeps _ _ s) (keeps_trans kept (ended_keeps _ _ _ _))) (by decide) :
          keeps [.regs, .last, .links, .nvs] s _) part (by simpa [store] using h)

end Sys2Proof.Machine

/-!
PROOFS. Semaphores, the malformed window, and the release of a frozen master (O33).
-/

namespace Sys2Proof.Machine

/-- The fields of a semaphore's state register (Table 4-1). -/
def semFields : List Fld := [fRO 0 2 0, fRO 2 1 0, ⟨8, 1, .wo, true, .val 0, .any⟩, ⟨9, 1, .wo, true, .val 0, .any⟩, fRO 16 16 0]

theorem fieldsAt_sem {n : Nat} (hn : n < 32) : fieldsAt pSem (0x100 + 4 * n) = semFields := by
  have table : ∀ n < 32, fieldsAt pSem (0x100 + 4 * n) = semFields := by decide
  exact table n hn

section
variable {m : AB} {n : Nat} {s : State}

/-! ### The checks of an access to SEM_STATE_n -/

/-- The master may use the page of the semaphores. -/
def semOpen (m : AB) (s : State) : Bool := !s.isFrozen m && !busyState (s.pstate pSem)

theorem writeDenied_sem (off : Nat) : writeDenied m (.reg none pSem off) s = none := by
  have page : pageInfo pSem = some ⟨.sem, 0, 0⟩ := rfl
  have both : Nat.testBit 3 m.num = true := by cases m <;> decide
  simp [writeDenied, page, State.mastersOf, blkScope, both]

/-- The offset of a semaphore's state. -/
theorem sem_offset (hn : n < 32) : 0x100 ≤ 0x100 + 4 * n ∧ 0x100 + 4 * n < 0x180 ∧ (0x100 + 4 * n) % 4 = 0 ∧ (0x100 + 4 * n - 0x100) / 4 = n := by
  omega

/-- A write of ACQ alone passes the checks where the page is open. -/
theorem passes_acq (hn : n < 32) {v : Word} (acq : bit v 8 = true) (norel : bit v 9 = false) :
    passes m none pSem (0x100 + 4 * n) (fieldsAt pSem (0x100 + 4 * n)) (semStateHandler n) v s = semOpen m s := by
  have apart : (0x100 + 4 * n == 0x600) = false := by
    rw [beq_eq_false_iff_ne]
    omega
  have frozen : frozenWrite m pSem (0x100 + 4 * n) s = s.isFrozen m := by
    simp [frozenWrite, apart]
  have busy : writeBusy pSem (0x100 + 4 * n) v s = busyState (s.pstate pSem) := by
    have page : pageInfo pSem = some ⟨.sem, 0, 0⟩ := rfl
    simp [writeBusy, anyStateReg, page]
  have own : (semStateHandler n).own m v s = false := rfl
  have sem : (semStateHandler n).sem m v s = (bit v 9 && (s.sem n).holder == some m.other) := rfl
  have range : (semStateHandler n).range m v s = (bit v 8 && bit v 9) := rfl
  have legal : fieldsOutOfRange semFields v = false := rfl
  have untouched : touches .rwp semFields v = false ∧ touches .rws semFields v = false := ⟨rfl, rfl⟩
  simp only [passes, frozen, writeDenied_sem, own, sem, range, busy, fieldsAt_sem hn, legal, untouched, acq, norel, semOpen]
  simp

/-- An accepted ACQ, whatever record it comes in. -/
theorem runWrite_acq (hn : n < 32) (up : semOpen m s = true) {v : Word} (acq : bit v 8 = true) (norel : bit v 9 = false) (q : Req) :
    runWrite m q none pSem (0x100 + 4 * n) (fieldsAt pSem (0x100 + 4 * n)) (semStateHandler n) v s =
      ended .ok 0 .none (semAcq m n s) := by
  have untouched : touches .rwp (fieldsAt pSem (0x100 + 4 * n)) v = false := by
    rw [fieldsAt_sem hn]
    rfl
  have run : (semStateHandler n).run m v s = semAcq m n s := if_pos acq
  rw [runWrite_passes m q none _ _ _ _ v s ((passes_acq hn acq norel).trans up), untouched, if_neg Bool.false_ne_true, run]

/-! ### What ACQ leaves -/

/-- The semaphore after ACQ (R104). -/
def acqSem (m : AB) (n : Nat) (s : State) : Sem :=
  match (s.sem n).holder with
  | none => ⟨some m, false, ((s.sem n).gen + 1) % 65536, leaseOf n s⟩
  | some h => if h = m then { s.sem n with leaseUs := leaseOf n s } else s.sem n

theorem semAcq_sem : (semAcq m n s).sem n = acqSem m n s := by
  unfold semAcq acqSem
  dsimp only
  cases (s.sem n).holder with
  | none => exact State.sem_setSem_same s n _
  | some h =>
    dsimp only
    split
    · exact State.sem_setSem_same s n _
    · rfl

theorem semAcq_other {j : Nat} (h : j ≠ n) : (semAcq m n s).sem j = s.sem j := by
  unfold semAcq
  dsimp only
  cases (s.sem n).holder with
  | none => exact State.sem_setSem_other s h _
  | some x => exact ite_all (P := fun t => t.sem j = s.sem j) (State.sem_setSem_other s h _) rfl

/-- ACQ changes the semaphores only. -/
theorem semAcq_masters : ∃ x, (semAcq m n s).masters = { s.masters with sems := x } := by
  unfold semAcq
  dsimp only
  cases (s.sem n).holder with
  | none => exact ⟨_, rfl⟩
  | some h =>
    exact ite_all (P := fun t => ∃ x, t.masters = { s.masters with sems := x }) ⟨_, rfl⟩ ⟨s.masters.sems, rfl⟩

/-- The semaphores of a state whose masters are those of another. -/
theorem sem_of_masters {t : State} (same : t.masters = s.masters) (j : Nat) : t.sem j = s.sem j := by
  simp only [State.sem, same]

/-! ### The forms of ACQ -/

/-- A masked write of ACQ writes ACQ and not REL. -/
theorem mergeMasked_acq (old : Word) : bit (mergeMasked semFields old (field 8 1 1) (field 8 1 1)) 8 = true ∧
    bit (mergeMasked semFields old (field 8 1 1) (field 8 1 1)) 9 = false := by
  have kept : maskedOld semFields old = setBits (setBits old 8 1 0) 9 1 0 := rfl
  have acq : bit (field 8 1 1) 8 = true ∧ bit (field 8 1 1) 9 = false := by decide
  have nine : bit (setBits (setBits old 8 1 0) 9 1 0) 9 = false := by
    rw [bit_setBits _ _ _ _ _ (by decide)]
    rfl
  refine ⟨?_, ?_⟩
  · simp only [mergeMasked, bit, BitVec.getLsbD_or, BitVec.getLsbD_and] at acq ⊢
    simp [acq.1]
  · simp only [mergeMasked, kept, bit, BitVec.getLsbD_or, BitVec.getLsbD_and] at acq nine ⊢
    rw [acq.2, nine]
    rfl

theorem resolve_sem (hn : n < 32) : resolve (regAddr pSem (0x100 + 4 * n)) s = some (.reg none pSem (0x100 + 4 * n)) :=
  resolve_regAddr (i := ⟨.sem, 0, 0⟩) rfl (by omega)

theorem maskedWord_acq (hn : n < 32) (up : semOpen m s = true) (type tag slice : Nat) :
    maskedWord m ⟨type, tag, regAddr pSem (0x100 + 4 * n), slice⟩ (field 8 1 1) (field 8 1 1) s =
      ended .ok (semStateWord n s) .none (semAcq m n s) := by
  have page : pageInfo pSem = some ⟨.sem, 0, 0⟩ := rfl
  obtain ⟨low, high, -, index⟩ := sem_offset hn
  have block : ¬ 0x100 + 4 * n < 0x100 := by omega
  have handler : regHandler pSem (0x100 + 4 * n) ⟨.sem, 0, 0⟩ = semStateHandler n := by
    have mine : 0x100 ≤ 0x100 + 4 * n ∧ 0x100 + 4 * n < 0x180 := ⟨low, high⟩
    simp only [regHandler, if_neg block, blockHandler, if_pos mine, index]
  have word : regWord m pSem (0x100 + 4 * n) ⟨.sem, 0, 0⟩ s = semStateWord n s := by
    have mine : 0x100 ≤ 0x100 + 4 * n ∧ 0x100 + 4 * n < 0x180 := ⟨low, high⟩
    have narrow : ctrHi ⟨.sem, 0, 0⟩ (0x100 + 4 * n) = none := rfl
    simp only [regWord, if_neg block, narrow, blockWord, semWord, if_pos mine, index]
  have pre : regPre (0x100 + 4 * n) ⟨.sem, 0, 0⟩ s = (s, false) := by
    simp [regPre, regLoc]
  have plain : ∀ t, useFree ⟨.sem, 0, 0⟩ (0x100 + 4 * n) t = t := fun t => by simp [useFree]
  obtain ⟨acq, norel⟩ := mergeMasked_acq (semStateWord n s)
  rw [← fieldsAt_sem hn] at acq norel
  have run := runWrite_acq hn up acq norel ⟨type, tag, regAddr pSem (0x100 + 4 * n), slice⟩
  have fields : writeFields pSem (0x100 + 4 * n) = fieldsAt pSem (0x100 + 4 * n) := if_neg block
  simp only [maskedWord, resolve_sem hn, page, pre, word, fields, handler, run, plain]
  rfl

/-- The state behind an accepted ACQ: by WRITE the record of the access, as a MASKED_WRITE the response too. -/
theorem acquireWrite_write (hn : n < 32) (up : semOpen m s = true) : acquireWrite m n .write s = ended .ok 0 .none (semAcq m n s) :=
  runWrite_acq hn up (by decide) (by decide) _

theorem acquireWrite_masked (hn : n < 32) (up : semOpen m s = true) (tag : Nat) : acquireWrite m n (.masked tag) s =
    closeMarks m (s.link m).hostResync.isSome (respond m ⟨0x83, 0, [tagWord tag 0, semStateWord n s], 0⟩
      (ended .ok (semStateWord n s) .none (semAcq m n s))) := by
  simp only [acquireWrite, runRecord, runRequest, stirs, runMaskedRec, maskedWord_acq hn up, tagWord, Nat.zero_mul, Nat.add_zero]
  rfl

/-- What every form of an accepted ACQ leaves. -/
theorem acquireWrite_spec (hn : n < 32) (up : semOpen m s = true) (f : AcqForm) :
    (acquireWrite m n f s).masters = (semAcq m n s).masters ∧ keeps [.masters, .last, .links] s (acquireWrite m n f s) := by
  cases f with
  | write =>
    rw [acquireWrite_write hn up]
    exact ⟨rfl, (ended_moves.after rfl <| semAcq_moves.within rfl : moves _ s _).1⟩
  | masked tag =>
    rw [acquireWrite_masked hn up]
    refine ⟨?_, (closeMarks_moves.after rfl <| respond_moves.after rfl <| ended_moves.after rfl <| semAcq_moves.within rfl :
      moves _ s _).1⟩
    exact part_of_moves (m := [.links]) (s := ended .ok (semStateWord n s) .none (semAcq m n s)) .masters
      (closeMarks_moves.after rfl <| respond_moves.within rfl) rfl

/-! ### Freeing a semaphore (R105, R106, R559) -/

theorem raiseFreed_spec (n : Nat) (s : State) : (watches .a n s = true → intRawBit (raiseFreed n s) pSem 4 = true) ∧
    (watches .b n s = true → intRawBit (raiseFreed n s) pSem 5 = true) ∧ keepsHdrs [pSem] s (raiseFreed n s) := by
  have regs : ∀ m, watches m n (if watches .a n s then raise pSem 4 s else s) = watches m n s := fun m => by
    split
    · simp only [watches, State.flag, raise_rd]
    · rfl
  refine ⟨fun a => ?_, fun b => ?_, ?_⟩
  · have first : intRawBit (if watches .a n s then raise pSem 4 s else s) pSem 4 = true := by
      rw [if_pos a]
      exact raise_intRaw _ _ _ (by decide)
    exact ite_all (P := fun t => intRawBit t pSem 4 = true) (raise_intRaw_of_set first 5) first
  · have second : raiseFreed n s = raise pSem 5 (if watches .a n s then raise pSem 4 s else s) := if_pos ((regs .b).trans b)
    rw [second]
    exact raise_intRaw _ _ _ (by decide)
  · have one : ∀ i (c : Prop) [Decidable c] (u : State), keepsHdrs [pSem] u (if c then raise pSem i u else u) := fun i c _ u =>
      ite_all (P := keepsHdrs [pSem] u) (raise_keepsHdrs _ _ _) (keepsHdrs_refl _ _)
    exact fun p hp => (one 5 _ _ p hp).trans (one 4 _ s p hp)

theorem semFree_held (held : (s.sem n).holder ≠ none) (expired : Bool) : semFree n expired s =
    raiseFreed n (s.setSem n { s.sem n with holder := none, expired := expired, leaseUs := none }) := by
  unfold semFree
  dsimp only
  cases h : (s.sem n).holder with
  | none => exact absurd h held
  | some x => rfl

theorem semFree_free (free : (s.sem n).holder = none) (expired : Bool) : semFree n expired s = s := by
  simp only [semFree, free]

/-- What freeing a semaphore that is held leaves. -/
theorem semFree_spec (held : (s.sem n).holder ≠ none) (expired : Bool) :
    (semFree n expired s).sem n = { s.sem n with holder := none, expired := expired, leaseUs := none } ∧
    (∀ j, j ≠ n → (semFree n expired s).sem j = s.sem j) ∧
    (watches .a n s = true → intRawBit (semFree n expired s) pSem 4 = true) ∧
    (watches .b n s = true → intRawBit (semFree n expired s) pSem 5 = true) ∧ keepsHdrs [pSem] s (semFree n expired s) := by
  rw [semFree_held held]
  let u := s.setSem n { s.sem n with holder := none, expired := expired, leaseUs := none }
  have masters : (raiseFreed n u).masters = u.masters := part_of_moves .masters raiseFreed_moves rfl
  obtain ⟨a, b, hdrs⟩ := raiseFreed_spec n u
  refine ⟨?_, fun j h => ?_, a, b, hdrs⟩
  · exact (sem_of_masters masters n).trans (State.sem_setSem_same s n _)
  · exact (sem_of_masters masters j).trans (State.sem_setSem_other s h _)

/-- An accepted REL. -/
theorem writeReg_rel (hn : n < 32) (ok : admits m pSem (0x100 + 4 * n) (semStateHandler n) (field 9 1 1) s = true) :
    writeReg m pSem (0x100 + 4 * n) (semStateHandler n) (field 9 1 1) s = ended .ok 0 .none (semFree n false s) := by
  have ungated : touches .rwp (fieldsAt pSem (0x100 + 4 * n)) (field 9 1 1) = false := by
    rw [fieldsAt_sem hn]
    rfl
  exact writeReg_ungated ok ungated

theorem exec_semRelease (on : s.running = true) (hn : n < 32) :
    exec (.semRelease m n) s = .next (writeReg m pSem (0x100 + 4 * n) (semStateHandler n) (field 9 1 1) s) := by
  have row : exec (.semRelease m n) s = execSemRelease m n s := rfl
  simp only [row, execSemRelease, whenOn_running on, Nat.mod_eq_of_lt hn]

/-! ### A refused REL (R105) -/

/-- REL of a semaphore that the other master holds is refused before anything else is looked at. -/
theorem writeReg_rel_foreign (hn : n < 32) (thawed : s.isFrozen m = false) (held : (s.sem n).holder = some m.other) :
    writeReg m pSem (0x100 + 4 * n) (semStateHandler n) (field 9 1 1) s =
      refuseWrite m .denied .semaphore none ⟨0x02, 0, regAddr pSem (0x100 + 4 * n), 0⟩ s := by
  have frozen : frozenWrite m pSem (0x100 + 4 * n) s = false := by simp [frozenWrite, thawed]
  have ungated : touches .rwp (fieldsAt pSem (0x100 + 4 * n)) (field 9 1 1) = false := by
    rw [fieldsAt_sem hn]
    rfl
  have own : (semStateHandler n).own m (field 9 1 1) s = false := rfl
  have sem : (semStateHandler n).sem m (field 9 1 1) s = true := by
    have rel : bit (field 9 1 1) 9 = true := by decide
    show (bit (field 9 1 1) 9 && (s.sem n).holder == some m.other) = true
    rw [rel, held]
    simp
  simp only [writeReg, runWrite, frozen, writeDenied_sem, own, ungated, sem, Bool.false_eq_true, if_false, Bool.false_and, if_true]

/-- What a refusal with cause SEMAPHORE leaves. -/
theorem refuseWrite_semaphore (m : AB) (q : Req) (s : State) :
    let t := refuseWrite m .denied .semaphore none q s
    t.last = ⟨.denied, 0, .semaphore⟩ ∧ t.rd (accBase m + 4) = s.rd (accBase m + 4) + 1 ∧
      keepsRegs [accBase m + 4, accBase m + 8, accBase m + 12] s t ∧ keeps [.last, .regs] s t := by
  obtain ⟨w, v, run⟩ : ∃ w v, refuseWrite m .denied .semaphore none q s =
      ended .denied 0 .semaphore (((s.bump (accBase m + 4) 1).wr (accBase m + 8) w).wr (accBase m + 12) v) := ⟨_, _, rfl⟩
  have apart : accBase m + 4 ≠ accBase m + 8 ∧ accBase m + 4 ≠ accBase m + 12 := by omega
  rw [run]
  refine ⟨rfl, ?_, ?_, (ended_moves.after rfl <| wr_moves.after rfl <| wr_moves.after rfl <| bump_moves.within rfl : moves _ s _).1⟩
  · exact (State.rd_wr_other _ apart.2 _).trans ((State.rd_wr_other _ apart.1 _).trans (State.rd_wr_same _ _ _))
  · exact keepsRegs_trans (keepsRegs_trans (wr_keepsRegs (accBase m + 4) _ s) (wr_keepsRegs _ _ _)) (wr_keepsRegs _ _ _)

/-! ### Releases (R117) -/

theorem release_frozen {x : AB} (frozen : s.isFrozen x = true) :
    release x s = raise pSem (2 + x.num) (s.setFrz x { s.frz x with frozen := false }) := if_pos frozen

/-- What the release of a frozen master leaves. -/
theorem release_spec {x : AB} (frozen : s.isFrozen x = true) : (release x s).frz x = { s.frz x with frozen := false } ∧
    (release x s).frz x.other = s.frz x.other ∧ intRawBit (release x s) pSem (2 + x.num) = true ∧ keepsRegs [] s (release x s) ∧
    keepsHdrs [pSem] s (release x s) := by
  rw [release_frozen frozen]
  have masters : (raise pSem (2 + x.num) (s.setFrz x { s.frz x with frozen := false })).masters =
      (s.setFrz x { s.frz x with frozen := false }).masters := part_of_moves .masters raise_moves rfl
  have num : 2 + x.num < 32 := by cases x <;> decide
  have other : x.other ≠ x := by cases x <;> decide
  refine ⟨?_, ?_, raise_intRaw _ _ _ num, ?_, ?_⟩
  · rw [State.frz, masters]
    exact Pair.get_set_same _ _ _
  · rw [State.frz, masters]
    exact Pair.get_set_other _ other _
  · exact fun a ha => raise_keepsRegs _ _ _ a ha
  · exact fun p hp => raise_keepsHdrs pSem _ (s.setFrz x _) p hp

/-- A write that names one master releases that one. -/
theorem frzCtrlHandler_run (x : AB) : frzCtrlHandler.run m (field x.num 1 1) s = release x s := by
  cases x <;> rfl

end

/-! ### The statement -/

/-- Settles O33: `acquireWrite_spec` for every form of ACQ, `semFree_spec` for REL and the lease, `release_spec` for the release. -/
theorem semaphoresAndReleases : Obligations.SemaphoresAndReleases := by
  refine ⟨fun m n s on hn => ?_, fun m n s on hn thawed held => ?_, fun m s on => ⟨⟨_, whenOn_running on _, rfl,
    (malfWindow_moves : moves _ s _).1⟩, fun x ok frozen => ?_⟩⟩
  · intro acq others taken acquired
    have opened : ∀ {x : AB}, acq x = true → semOpen x s = true := fun {x} ok =>
      (passes_acq (m := x) hn (by decide) (by decide)).symm.trans ok
    have spec : ∀ {t : State}, t.masters = (semAcq m n s).masters → keeps [.masters, .last, .links] s t → acquired t := fun same kept => by
      have mine := (sem_of_masters same n).trans semAcq_sem
      refine ⟨⟨fun j h => (sem_of_masters same j).trans (semAcq_other h), keepsRegs_of_keeps kept (by decide)⟩, fun h => ?_, fun h => ?_,
        fun h => ?_⟩
      · simp only [mine, acqSem, h, taken]
      · simp only [mine, acqSem, h, if_true]
      · have other : m.other ≠ m := by cases m <;> decide
        simp only [mine, acqSem, h, if_neg other]
    have rowOf : ∀ x, exec (.semAcquire m n x) s = execSemAcquire m n x s := fun _ => rfl
    refine ⟨fun ok => ?_, fun ok up tag => ?_, fun free ok ok' f g => ?_, fun held ok => ?_, fun free ok => ?_, fun held lease => ?_⟩
    · obtain ⟨masters, kept⟩ := acquireWrite_spec hn (opened ok) .write
      simp only [rowOf, execSemAcquire, whenOn_running on, Nat.mod_eq_of_lt hn]
      refine ⟨_, rfl, by rw [acquireWrite_write hn (opened ok)]; rfl, spec masters kept, ?_⟩
      rw [acquireWrite_write hn (opened ok)]
      exact (ended_moves.after rfl <| semAcq_moves.within rfl : moves _ s _).1
    · obtain ⟨masters, kept⟩ := acquireWrite_spec hn (opened ok) (.masked tag)
      simp only [rowOf, execSemAcquire, whenOn_running on, Nat.mod_eq_of_lt hn]
      refine ⟨_, rfl, ?_, spec masters kept, kept⟩
      rw [acquireWrite_masked hn (opened ok)]
      exact answers_closeMarks up (part_of_moves (m := [.last, .masters]) .links (ended_moves.after rfl <| semAcq_moves.within rfl) rfl) _ _
    · let x := s.masters.tie
      let form := fun (y : AB) => if y = m then f else g
      have both : ∀ y, semOpen y s = true := fun y => by
        by_cases same : y = m
        · exact opened (same ▸ ok)
        · have away : y = m.other := other_of_ne same
          exact opened (away ▸ ok')
      let u := acquireWrite x n (form x) s
      obtain ⟨masters, kept⟩ := acquireWrite_spec hn (both x) (form x)
      have still : semOpen x.other u = true := by
        obtain ⟨y, same⟩ := semAcq_masters (m := x) (n := n) (s := s)
        have frozen : u.isFrozen x.other = s.isFrozen x.other := by simp only [State.isFrozen, State.frz, u, masters, same]
        have page : u.pstate pSem = s.pstate pSem :=
          congrArg Hdr.state (keepsHdrs_of_keeps kept (by decide) pSem List.not_mem_nil)
        rw [semOpen, frozen, page]
        exact both x.other
      obtain ⟨masters', kept'⟩ := acquireWrite_spec hn still (form x.other)
      have first : u.sem n = taken x := (sem_of_masters masters n).trans (semAcq_sem.trans (by simp only [acqSem, free, taken]))
      have passed : semAcq x.other n u = u := by
        have held : (u.sem n).holder = some x := by rw [first]
        have other : x ≠ x.other := by cases x <;> decide
        simp only [semAcq, held, if_neg other]
      have sems : ∀ j, (acquireWrite x.other n (form x.other) u).sem j = u.sem j := fun j =>
        sem_of_masters (masters'.trans (congrArg State.masters passed)) j
      simp only [rowOf, execSemAcquire, whenOn_running on, Nat.mod_eq_of_lt hn, free, if_true]
      refine ⟨_, rfl, (sems n).trans first, rfl, ⟨fun j h => (sems j).trans ((sem_of_masters masters j).trans (semAcq_other h)), ?_⟩, ?_⟩
      · exact fun a ha => (keepsRegs_of_keeps kept' (by decide) a ha).trans (keepsRegs_of_keeps kept (by decide) a ha)
      · exact keeps_mono (keeps_trans (keeps_trans kept kept') (with_masters_moves : moves _ _ _).1) (by decide)
    · rw [exec_semRelease on hn, writeReg_rel hn ok]
      obtain ⟨mine, rest, a, b, hdrs⟩ := semFree_spec (s := s) (n := n) (by rw [held]; simp) false
      exact ⟨_, rfl, rfl, mine, ⟨rest, keepsRegs_of_keeps (l := [.last, .hdrs, .links, .masters])
        (ended_moves.after rfl <| semFree_moves.within rfl : moves _ s _).1 (by decide)⟩, a, b, hdrs,
        (ended_moves.after rfl <| semFree_moves.within rfl : moves _ s _).1⟩
    · rw [exec_semRelease on hn, writeReg_rel hn ok, semFree_free free]
      exact ⟨_, rfl, rfl, rfl, ⟨fun _ _ => rfl, keepsRegs_refl _ _⟩, ended_keeps _ _ _ _⟩
    · obtain ⟨mine, rest, -, -, hdrs⟩ := semFree_spec held true
      have masters : (raise pSem 6 (semFree n true s)).masters = (semFree n true s).masters := part_of_moves .masters raise_moves rfl
      have row : exec (.leaseExpiry n) s = .next (raise pSem 6 (semFree n true s)) := by
        have row : exec (.leaseExpiry n) s = execLeaseExpiry n s := rfl
        obtain ⟨h, holds⟩ := Option.ne_none_iff_exists'.mp held
        obtain ⟨w, waits⟩ := Option.ne_none_iff_exists'.mp lease
        simp only [row, execLeaseExpiry, whenOn_running on, Nat.mod_eq_of_lt hn, holds, waits]
      refine ⟨_, row, (sem_of_masters masters n).trans mine, raise_intRaw _ _ _ (by decide),
        ⟨fun j h => (sem_of_masters masters j).trans (rest j h), ?_⟩, fun p hp => (raise_keepsHdrs _ _ _ p hp).trans (hdrs p hp),
        (raise_moves.after rfl <| semFree_moves.within rfl : moves _ s _).1⟩
      exact keepsRegs_of_keeps (l := [.masters, .hdrs, .links]) (raise_moves.after rfl <| semFree_moves.within rfl : moves _ s _).1 (by decide)
  · rw [exec_semRelease on hn, writeReg_rel_foreign hn thawed held]
    obtain ⟨last, counted, regs, kept⟩ := refuseWrite_semaphore m ⟨0x02, 0, regAddr pSem (0x100 + 4 * n), 0⟩ s
    exact ⟨_, rfl, last, kept .masters (by decide), counted, regs, kept⟩
  · obtain ⟨u, used, uses, wrote⟩ := writeReg_used ok
    rw [frzCtrlHandler_run] at wrote
    have masters : u.masters = s.masters := part_of_moves .masters used rfl
    have frz : ∀ y, u.frz y = s.frz y := fun y => by simp only [State.frz, masters]
    have row : exec (if x = .a then .releaseA m else .releaseB m) s = .next (writeReg m pSem 0x600 frzCtrlHandler (field x.num 1 1) s) := by
      cases x <;> exact whenOn_running on _
    obtain ⟨mine, other, raised, regs, hdrs⟩ := release_spec (s := u) (x := x) (by rwa [State.isFrozen, frz])
    rw [frz] at mine other
    rw [row, wrote]
    refine ⟨_, rfl, rfl, mine, other, raised, fun a ha => (regs a List.not_mem_nil).trans (uses a ha), fun p hp =>
      (hdrs p hp).trans (keepsHdrs_of_keeps used.1 (by decide) p List.not_mem_nil),
      (ended_moves.after rfl <| release_moves.after rfl <| used.within rfl : moves _ s _).1⟩

end Sys2Proof.Machine

/-!
PROOFS. The instructions of the sequencers: the fetch at an instruction boundary in clean memory, the completion of an instruction, and the
arithmetic (R454, R460, R469, Tables 16-2 and 16-3).
-/

namespace Sys2Proof.Machine

/-! ### The fetch (R455, R456) -/

/-- The line of PC has been fetched: the sequencer's cache has changed, a line may have been counted, and nothing else has. -/
def seqFetched (n : Nat) (s t : State) : Prop :=
  (∃ c, t.seq n = { s.seq n with cache := c }) ∧ (∀ j, j ≠ n → t.seq j = s.seq j) ∧
    (∀ a, a ≠ regAddr (pSeq n) 0x208 → t.ctr a = s.ctr a) ∧ keepsRegs [regAddr (pSeq n) 0x1D0] s t ∧ keepsHdrs [pSeq n] s t ∧
    (∀ p, t.pstate p = s.pstate p) ∧ keeps [.seqs, .ctrs, .regs, .hdrs, .links] s t

/-- Memory stays clean where the errors are kept and so is ECC_FLIP. -/
theorem memClean_congr {s t : State} (ecc : t.ecc = s.ecc) (flip : t.rd (regAddr pEcc 0x120) = s.rd (regAddr pEcc 0x120)) :
    memClean t = memClean s := by
  simp only [memClean, noFlip, State.rp, ecc, flip]

theorem seqCount_memClean {n i k : Nat} (hi : i < 32) (s : State) : memClean (seqCount n i k s) = memClean s := by
  obtain ⟨-, regs, -, parts⟩ := countAt_spec (pSeq n) 0x200 0x1D0 5 (if i = 0 then 48 else 40) i k s
  refine memClean_congr (parts .ecc (by decide)) (regs _ ?_)
  simp only [List.mem_singleton, regAddr, pEcc, pSeq]
  omega

theorem seqFetched_setCache (n : Nat) (c : List (Nat × List Byte)) (s : State) :
    seqFetched n s (s.setSeq n { s.seq n with cache := c }) := by
  obtain ⟨set, others⟩ := seqSet_setSeq n { s.seq n with cache := c } s
  exact ⟨⟨c, set⟩, others, fun _ _ => rfl, fun _ _ => rfl, fun _ _ => rfl, fun _ => rfl, keeps_mono (setSeq_keeps n _ s) (by decide)⟩

/-- A line inside the region of the slice is fetched and counted. -/
theorem fillLine_fetched {n line : Nat} {s : State} (clean : memClean s = true)
    (inside : (s.rp (pSeq n) 0x110).toNat + 64 * line + 64 ≤ (s.region (seqOf n s)).2) :
    seqFetched n s (fillLine n line s) ∧ ((fillLine n line s).seq n).cache = cachePut line
      (s.dramBytes ((s.region (seqOf n s)).1 + (s.rp (pSeq n) 0x110).toNat + 64 * line) 64) (s.seq n).cache := by
  let c := cachePut line (s.dramBytes ((s.region (seqOf n s)).1 + (s.rp (pSeq n) 0x110).toNat + 64 * line) 64) (s.seq n).cache
  let u := s.setSeq n { s.seq n with cache := c }
  have still : memClean (seqCount n 1 1 u) = true := (seqCount_memClean (by decide) u).trans clean
  have run : fillLine n line s = seqCount n 1 1 u :=
    (if_neg (Nat.not_lt.mpr inside)).trans (wroteWord_of_memClean _ _ still)
  obtain ⟨⟨_, set⟩, others, -, -, -, -, parts⟩ := seqFetched_setCache n c s
  obtain ⟨-, regs, hdrs, counted⟩ := countAt_spec (pSeq n) 0x200 0x1D0 5 40 1 1 u
  have same (j : Nat) : (seqCount n 1 1 u).seq j = u.seq j := seq_of_keeps counted (by decide) j
  have here : (seqCount n 1 1 u).seq n = { s.seq n with cache := c } := (same n).trans (State.seq_setSeq_same s n _)
  rw [run]
  refine ⟨⟨⟨c, here⟩, fun j ne => (same j).trans (others j ne), fun a ne => countWide_ctr_other ne _ _ _ _ u, regs, hdrs,
    fun p => countAt_pstate _ _ _ _ _ _ _ u p, keeps_mono (keeps_trans parts counted) (by decide)⟩, congrArg Seq.cache here⟩

theorem fetchLine_fetched {n : Nat} {s : State} (clean : memClean s = true) (here : lineHere n s = true) :
    seqFetched n s (fetchLine n s) := by
  unfold fetchLine
  dsimp only
  cases found : (s.seq n).cache.find? (fun e => e.1 == (s.seq n).pc / 64) with
  | none =>
    have absent : (s.seq n).cache.any (fun e => e.1 == (s.seq n).pc / 64) = false := by
      simpa using List.find?_eq_none.mp found
    rw [lineHere, absent, Bool.false_or, decide_eq_true_eq] at here
    exact (fillLine_fetched clean here).1
  | some e =>
    obtain ⟨upsets, poison, -⟩ := memClean_iff.mp clean
    simp only [readRow, upsets, poison, List.filter_nil, List.foldl_nil, List.any_nil, Bool.false_eq_true, if_false]
    exact seqFetched_setCache n _ s

theorem seqFetched_slc {n : Nat} {s t : State} (hn : n < 8) (h : seqFetched n s t) (j : Nat) {o : Nat} (ho : o < 0x1000) :
    t.slc j o = s.slc j o := by
  obtain ⟨-, -, -, regs, -⟩ := h
  refine regs _ ?_
  simp only [List.mem_singleton, regAddr, pSeq, pSlice]
  omega

theorem seqFetched_rp {n off : Nat} {s t : State} (h : seqFetched n s t) (ho : off < 0x1D0) : t.rp (pSeq n) off = s.rp (pSeq n) off := by
  obtain ⟨-, -, -, regs, -⟩ := h
  refine regs _ ?_
  simp only [List.mem_singleton, regAddr]
  omega

theorem seqFetched_seqSlice {n : Nat} {s t : State} (hn : n < 8) (h : seqFetched n s t) (i : Nat) : t.seqSlice i = s.seqSlice i := by
  simp only [State.seqSlice, State.holders, seqFetched_slc hn h _ (show 0x120 < 0x1000 by decide)]

theorem seqFetched_seqOf {n : Nat} {s t : State} (hn : n < 8) (h : seqFetched n s t) : seqOf n t = seqOf n s := by
  simp only [seqOf, seqFetched_seqSlice hn h]

theorem seqFetched_region {n : Nat} {s t : State} (hn : n < 8) (h : seqFetched n s t) (k : Nat) : t.region k = s.region k := by
  simp only [State.region, seqFetched_slc hn h k (show 0x128 < 0x1000 by decide), seqFetched_slc hn h k (show 0x12C < 0x1000 by decide)]

/-- A fetch leaves a sequencer at its instruction boundary. -/
theorem seqFetched_ready {n : Nat} {s t : State} (hn : n < 8) (h : seqFetched n s t) : seqReady n t = seqReady n s := by
  obtain ⟨⟨c, same⟩, -, -, -, -, states, parts⟩ := id h
  have may := seqMayRun_congr states (parts .power (by decide)) (seqFetched_rp h (show 0x114 < 0x1D0 by decide))
    fun j o ho => seqFetched_slc hn h j ho
  simp only [seqReady, same, may]

theorem seqFetched_memClean {n : Nat} {s t : State} (hn : n < 8) (h : seqFetched n s t) : memClean t = memClean s := by
  obtain ⟨-, -, -, regs, -, -, parts⟩ := h
  refine memClean_congr (parts .ecc (by decide)) (regs _ ?_)
  simp only [List.mem_singleton, regAddr, pEcc, pSeq]
  omega

/-! ### The execution of an instruction (R469) -/

theorem seqAt_iff {n : Nat} {s : State} : seqAt n s = true ↔ s.running = true ∧ n < 8 ∧ seqReady n s = true ∧
    (s.seq n).pc < s.fld (regAddr (pSeq n) 0x114) 0 25 ∧ lineHere n s = true ∧ memClean s = true := by
  simp only [seqAt, Bool.and_eq_true, decide_eq_true_eq, and_assoc]

/-- At an instruction boundary inside its code a sequencer fetches and executes. -/
theorem seqExec_of_seqAt {n : Nat} {s : State} (at_ : seqAt n s = true) (legal : Bool) (f : Nat → State → State) :
    seqFetched n s (fetchLine n s) ∧
      seqExec n legal f s = if legal = true then f n (fetchLine n s) else seqIllegal n (fetchLine n s) := by
  obtain ⟨-, hn, ready, inside, here, clean⟩ := seqAt_iff.mp at_
  have fetched := fetchLine_fetched clean here
  refine ⟨fetched, ?_⟩
  have again : seqReady n (fetchLine n s) = true := (seqFetched_ready hn fetched).trans ready
  simp only [seqExec, Nat.mod_eq_of_lt hn, ready, again, Nat.not_le.mpr inside, Bool.not_true, Bool.false_eq_true, if_false]

/-! ### The completion of an instruction -/

/-- A completed instruction is counted, PC moves, and nothing else changes. -/
theorem seqGoto_done (n pc : Nat) (s : State) : seqDone n { s.seq n with pc := pc % 2 ^ 32 } s (seqGoto n pc s) := by
  let u := s.setSeq n { s.seq n with pc := pc % 2 ^ 32 }
  obtain ⟨count, regs, hdrs, counted⟩ := countAt_spec (pSeq n) 0x200 0x1D0 5 48 0 1 u
  obtain ⟨set, others⟩ := seqSet_of_keeps (seqSet_setSeq n { s.seq n with pc := pc % 2 ^ 32 } s) counted (by decide)
  refine ⟨?_, others, count, fun a ne _ => countWide_ctr_other ne _ _ _ _ u, regs, hdrs,
    keeps_mono (keeps_trans (setSeq_keeps n _ s) counted) (by decide)⟩
  have whole : (seqGoto n pc s).seq n = { s.seq n with pc := pc % 2 ^ 32 } := set
  rw [whole]

theorem seqDone_of_setSeq {n : Nat} {r x : Seq} {t u : State} (done : seqDone n r (t.setSeq n x) u) : seqDone n r t u := by
  obtain ⟨set, others, count, ctrs, regs, hdrs, parts⟩ := done
  exact ⟨set, fun j ne => (others j ne).trans (seq_setSeq_other ne x t), count, ctrs, regs, hdrs,
    keeps_mono (keeps_trans (setSeq_keeps n x t) parts) (by decide)⟩

/-- What follows a fetch, seen from before the fetch. -/
theorem seqDone_of_fetched {n : Nat} {q r : Seq} {s t u : State} (fetched : seqFetched n s t)
    (done : seqDone n r t u) (same : ∀ c, { r with cache := c } = { q with cache := c }) : seqDone n q s u := by
  obtain ⟨-, others, ctrs, regs, hdrs, -, parts⟩ := fetched
  obtain ⟨set, others', count, ctrs', regs', hdrs', parts'⟩ := done
  have before : t.ctr (regAddr (pSeq n) 0x200) = s.ctr (regAddr (pSeq n) 0x200) := ctrs _ (by simp [regAddr])
  exact ⟨set.trans (same _), fun j ne => (others' j ne).trans (others j ne), count.trans (by rw [before]),
    fun a ne ne' => (ctrs' a ne ne').trans (ctrs a ne'), fun a h => (regs' a h).trans (regs a h),
    fun p h => (hdrs' p h).trans (hdrs p h), keeps_mono (keeps_trans parts parts') (by decide)⟩

/-- An instruction that replaces the sequencer by `x` and goes to `pc`. -/
theorem seqGoto_done_of_fetched {n pc : Nat} {q x : Seq} {s t : State} (fetched : seqFetched n s t)
    (same : ∀ c, { x with pc := pc % 2 ^ 32, cache := c } = { q with cache := c }) : seqDone n q s (seqGoto n pc (t.setSeq n x)) := by
  refine seqDone_of_fetched fetched (seqDone_of_setSeq (seqGoto_done n pc (t.setSeq n x))) fun c => ?_
  rw [State.seq_setSeq_same]
  exact same c

@[simp] theorem Seq.setReg_pc (q : Seq) (r : Nat) (v : Word) : (q.setReg r v).pc = q.pc := by
  unfold Seq.setReg
  split <;> rfl

/-- A register is written whatever PC and the cache hold. -/
theorem Seq.setReg_frame (q : Seq) (r : Nat) (v : Word) (pc : Nat) (c d : List (Nat × List Byte)) :
    { ({ q with cache := d }.setReg r v) with pc := pc, cache := c } = { ({ q with pc := pc }.setReg r v) with cache := c } := by
  unfold Seq.setReg
  split <;> rfl

section
variable {n : Nat} {s : State}

/-- An instruction that writes `v` to a register and moves on to `pc`. -/
theorem setSeqReg_done {t : State} (fetched : seqFetched n s t) (rd : BitVec 5) (v : Word) (pc : Nat) :
    seqDone n ({ s.seq n with pc := pc % 2 ^ 32 }.setReg rd.toNat v) s (seqGoto n pc (setSeqReg n rd v t)) := by
  obtain ⟨d, same⟩ := fetched.1
  refine seqGoto_done_of_fetched fetched fun c => ?_
  rw [same]
  exact Seq.setReg_frame _ _ _ _ _ _

theorem setSeqReg_next_done {t : State} (fetched : seqFetched n s t) (rd : BitVec 5) (v : Word) :
    seqDone n ({ s.seq n with pc := ((s.seq n).pc + 4) % 2 ^ 32 }.setReg rd.toNat v) s (seqNext n (setSeqReg n rd v t)) := by
  obtain ⟨d, same⟩ := id fetched.1
  have pc : ((setSeqReg n rd v t).seq n).pc = (s.seq n).pc := by
    rw [setSeqReg, State.seq_setSeq_same, Seq.setReg_pc, same]
  rw [seqNext, pc]
  exact setSeqReg_done fetched rd v _

variable (at_ : seqAt n s = true)
include at_

theorem running_of_seqAt : s.running = true := (seqAt_iff.mp at_).1

theorem seqAlu_done {legal : Bool} (ok : legal = true) (rd : BitVec 5) {f : Seq → Word} {v : Word}
    (value : ∀ c, f { s.seq n with cache := c } = v) :
    seqDone n ({ s.seq n with pc := ((s.seq n).pc + 4) % 2 ^ 32 }.setReg rd.toNat v) s (seqAlu n legal rd f s) := by
  obtain ⟨fetched, run⟩ := seqExec_of_seqAt at_ legal fun n s => seqNext n (setSeqReg n rd (f (s.seq n)) s)
  obtain ⟨c, same⟩ := id fetched.1
  have here : f ((fetchLine n s).seq n) = v := (congrArg f same).trans (value c)
  rw [seqAlu, run, if_pos ok, here]
  exact setSeqReg_next_done fetched rd v

theorem after_seqAlu {legal : Bool} {i : Instr} {rd : BitVec 5} {f : Seq → Word} {v : Word}
    (row : exec i s = whenOn s (.next (seqAlu n legal rd f s))) (ok : legal = true) (value : ∀ c, f { s.seq n with cache := c } = v) :
    After (exec i s) (seqDone n ({ s.seq n with pc := ((s.seq n).pc + 4) % 2 ^ 32 }.setReg rd.toNat v) s) :=
  ⟨_, row.trans (whenOn_running (running_of_seqAt at_) _), seqAlu_done at_ ok rd value⟩

end

/-! ### The values of the arithmetic instructions (R460) -/

theorem boolWord_ult (a b : Word) : boolWord (a.ult b) = if a.toNat < b.toNat then 1 else 0 := by
  simp [boolWord, BitVec.ult]

theorem boolWord_slt (a b : Word) : boolWord (a.slt b) = if a.toInt < b.toInt then 1 else 0 := by
  simp [boolWord, BitVec.slt]

theorem mul_eq_word (a b : Word) : a * b = word (a.toNat * b.toNat) := by
  apply BitVec.eq_of_toNat_eq
  simp [word]

theorem lui_eq_word (imm : BitVec 16) : zext imm <<< (16 : Nat) = word (imm.toNat * 2 ^ 16) := by
  apply BitVec.eq_of_toNat_eq
  simp [word, zext, Nat.shiftLeft_eq]

theorem boolWord_ult_zext (a : Word) (imm : BitVec 16) : boolWord (a.ult (zext imm)) = if a.toNat < imm.toNat then 1 else 0 := by
  have value : (zext imm).toNat = imm.toNat := by simp [zext]; omega
  rw [boolWord_ult, value]

/-- Settles O55: in clean memory the fetch changes the cache alone, and each instruction is one register write behind it. -/
theorem sequencersCompute : Obligations.SequencersCompute := by
  intro n rd ra rb imm s at_
  refine ⟨?_, ?_, ?_, ?_, ?_, ?_, ?_, ?_, ?_, ?_, ?_, ?_, ?_, ?_, ?_, ?_, ?_, ?_, fun small => ⟨?_, ?_⟩⟩
  case refine_9 => exact after_seqAlu at_ rfl rfl fun _ => boolWord_ult _ _
  case refine_10 => exact after_seqAlu at_ rfl rfl fun _ => boolWord_slt _ _
  case refine_11 => exact after_seqAlu at_ rfl rfl fun _ => mul_eq_word _ _
  case refine_17 => exact after_seqAlu at_ rfl rfl fun _ => lui_eq_word _
  case refine_18 => exact after_seqAlu at_ rfl rfl fun _ => boolWord_ult_zext _ _
  case refine_19 =>
    exact after_seqAlu at_ rfl (by simp [Nat.div_eq_of_lt small]) fun _ => congrArg (_ <<< ·) (Nat.mod_eq_of_lt small)
  case refine_20 =>
    exact after_seqAlu at_ rfl (by simp [Nat.div_eq_of_lt small]) fun _ => congrArg (_ >>> ·) (Nat.mod_eq_of_lt small)
  all_goals exact after_seqAlu at_ rfl rfl fun _ => rfl

end Sys2Proof.Machine

/-!
PROOFS. Loads, stores, branches and jumps of the sequencers (R454, R462, R470, Table 16-3).
-/

namespace Sys2Proof.Machine

section
variable {n : Nat} {s t : State}

/-- An instruction that is legal: what its body leaves after the fetch. -/
theorem after_seqExec {legal : Bool} {i : Instr} {f : Nat → State → State} {P : State → Prop} (at_ : seqAt n s = true)
    (row : exec i s = whenOn s (.next (seqExec n legal f s))) (ok : legal = true)
    (body : seqFetched n s (fetchLine n s) → P (f n (fetchLine n s))) : After (exec i s) P := by
  obtain ⟨fetched, run⟩ := seqExec_of_seqAt at_ legal f
  refine ⟨_, row.trans (whenOn_running (running_of_seqAt at_) _), ?_⟩
  rw [run, if_pos ok]
  exact body fetched

/-- An instruction that replaces the sequencer by `f` of it and moves on. -/
theorem setSeq_next_done (fetched : seqFetched n s t) (f : Seq → Seq) {x : Seq}
    (pc : ∀ d, (f { s.seq n with cache := d }).pc = (s.seq n).pc)
    (same : ∀ c d, { f { s.seq n with cache := d } with pc := ((s.seq n).pc + 4) % 2 ^ 32, cache := c } = { x with cache := c }) :
    seqDone n x s (seqNext n (t.setSeq n (f (t.seq n)))) := by
  obtain ⟨d, cached⟩ := id fetched.1
  have at_ : ((t.setSeq n (f (t.seq n))).seq n).pc = (s.seq n).pc := by rw [State.seq_setSeq_same, cached, pc]
  rw [seqNext, at_]
  refine seqGoto_done_of_fetched fetched fun c => ?_
  rw [cached]
  exact same c d

/-- An instruction that only moves PC. -/
theorem seqGoto_pc_done (fetched : seqFetched n s t) (pc : Nat) :
    seqDone n { s.seq n with pc := pc % 2 ^ 32 } s (seqGoto n pc t) := by
  obtain ⟨d, cached⟩ := id fetched.1
  refine seqDone_of_fetched fetched (seqGoto_done n pc t) fun c => ?_
  rw [cached]

theorem seqNext_pc_done (fetched : seqFetched n s t) :
    seqDone n { s.seq n with pc := ((s.seq n).pc + 4) % 2 ^ 32 } s (seqNext n t) := by
  obtain ⟨d, cached⟩ := id fetched.1
  have at_ : (t.seq n).pc = (s.seq n).pc := by rw [cached]
  rw [seqNext, at_]
  exact seqGoto_pc_done fetched _

theorem seqReg_of_fetched (fetched : seqFetched n s t) (r : BitVec 5) : seqReg n r t = (s.seq n).reg r := by
  obtain ⟨d, cached⟩ := fetched.1
  rw [seqReg, cached]
  rfl

theorem seqEa_of_fetched (fetched : seqFetched n s t) (ra : BitVec 5) (imm : BitVec 16) :
    seqEa n ra imm t = ((s.seq n).reg ra + imm.signExtend 32).toNat := by
  rw [seqEa, seqReg_of_fetched fetched, sext]

theorem seqMemClean_of_fetched (at_ : seqAt n s = true) (fetched : seqFetched n s t) : memClean t = true := by
  obtain ⟨-, hn, -, -, -, clean⟩ := seqAt_iff.mp at_
  exact (seqFetched_memClean hn fetched).trans clean

/-! ### Loads and stores (R454, R462) -/

/-- A load of `k` bytes from a region of Table 16-1. -/
theorem after_seqLoad {k : Nat} {i : Instr} {rd ra : BitVec 5} {imm : BitVec 16} (at_ : seqAt n s = true)
    (row : exec i s = whenOn s (.next (seqLoad k n rd ra imm s)))
    (ok : seqAddrOk false ((s.seq n).reg ra + imm.signExtend 32).toNat k = true) :
    After (exec i s) (seqDone n ({ s.seq n with pc := ((s.seq n).pc + 4) % 2 ^ 32 }.setReg rd.toNat
      (word (beNat ((s.seq n).bytes ((s.seq n).reg ra + imm.signExtend 32).toNat k)))) s) := by
  refine after_seqExec at_ row rfl fun fetched => ?_
  obtain ⟨d, cached⟩ := id fetched.1
  have touch := seqTouch_of_memClean n ((s.seq n).reg ra + imm.signExtend 32).toNat (seqMemClean_of_fetched at_ fetched)
  simp only [seqEa_of_fetched fetched, ok, Bool.not_true, Bool.false_eq_true, if_false, touch, cached]
  exact setSeqReg_next_done fetched rd _

/-- A store puts its bytes where it says. -/
theorem seqStore_eq (a : Nat) (l : List Byte) (clean : memClean s = true) :
    seqStore n a l s = s.setSeq n ((s.seq n).putBytes a l) := by
  obtain ⟨-, poison, -⟩ := memClean_iff.mp clean
  have still : memClean (s.setSeq n ((s.seq n).putBytes a l)) = true := clean
  simp [seqStore, poison, wroteWord_of_memClean _ _ still]

theorem Seq.putBytes_pc (q : Seq) (a : Nat) (l : List Byte) : (q.putBytes a l).pc = q.pc := by
  unfold Seq.putBytes
  split <;> rfl

theorem Seq.putBytes_frame (q : Seq) (a : Nat) (l : List Byte) (pc : Nat) (c d : List (Nat × List Byte)) :
    { ({ q with cache := d }.putBytes a l) with pc := pc, cache := c } = { ({ q with pc := pc }.putBytes a l) with cache := c } := by
  unfold Seq.putBytes
  split <;> rfl

/-- Where a store may go: DMEM or TXBUF (Table 16-1). -/
theorem seqAddrOk_store {a k : Nat} (ok : seqAddrOk true a k = true) : a % k = 0 ∧ (a < 0x2000 ∨ 0x4000 ≤ a ∧ a < 0x4800) := by
  simpa [seqAddrOk] using ok

/-- A run of up to four aligned bytes reads as it was stored. -/
theorem Seq.bytes_putBytes_same {a : Nat} (ok : a < 0x2000 ∨ 0x4000 ≤ a ∧ a < 0x4800) (l : List Byte) (q : Seq) :
    (q.putBytes a l).bytes a l.length = l := by
  obtain low | ⟨above, below⟩ := ok
  · have dmem : a < 0x4000 := by omega
    simp only [Seq.putBytes, Seq.bytes, if_pos dmem]
    exact SeqMem.read_write_same _ _ _
  · have txbuf : a < 0x5000 := by omega
    simp only [Seq.putBytes, Seq.bytes, if_neg (Nat.not_lt.mpr above), if_pos txbuf]
    exact SeqMem.read_write_same _ _ _

/-- A store leaves every byte outside it alone. -/
theorem Seq.bytes_putBytes_outside {a x : Nat} {l : List Byte} (outside : x < a ∨ a + l.length ≤ x) (q : Seq) :
    (q.putBytes a l).bytes x 1 = q.bytes x 1 := by
  have one (m : SeqMem) {b c : Nat} (h : c < b ∨ b + l.length ≤ c) : (m.write b l).read c 1 = m.read c 1 :=
    congrArg (fun y => [y]) (SeqMem.get_write_outside l h m)
  by_cases low : a < 0x4000
  · by_cases dmem : x < 0x4000
    · simp only [Seq.putBytes, Seq.bytes, if_pos low, if_pos dmem, one _ outside]
    · simp only [Seq.putBytes, Seq.bytes, if_pos low, if_neg dmem]
  · by_cases dmem : x < 0x4000
    · simp only [Seq.putBytes, Seq.bytes, if_neg low, if_pos dmem]
    · by_cases txbuf : x < 0x5000
      · simp only [Seq.putBytes, Seq.bytes, if_neg low, if_neg dmem, if_pos txbuf]
        exact one _ (by omega)
      · simp only [Seq.putBytes, Seq.bytes, if_neg low, if_neg dmem, if_neg txbuf]

theorem Seq.bytes_cache (q : Seq) (c : List (Nat × List Byte)) (a k : Nat) : { q with cache := c }.bytes a k = q.bytes a k := rfl

theorem Seq.bytes_pc (q : Seq) (pc : Nat) (a k : Nat) : { q with pc := pc }.bytes a k = q.bytes a k := rfl

/-- A store of `k` bytes. -/
theorem after_seqSave {k : Nat} {i : Instr} {rd ra : BitVec 5} {imm : BitVec 16} (at_ : seqAt n s = true)
    (row : exec i s = whenOn s (.next (seqSave k n rd ra imm s)))
    (ok : seqAddrOk true ((s.seq n).reg ra + imm.signExtend 32).toNat k = true) :
    let ea := ((s.seq n).reg ra + imm.signExtend 32).toNat
    let l := beBytes k ((s.seq n).reg rd).toNat
    After (exec i s) fun t =>
      seqDone n ({ s.seq n with pc := ((s.seq n).pc + 4) % 2 ^ 32 }.putBytes ea l) s t ∧ (t.seq n).bytes ea k = l ∧
        ∀ x, x < ea ∨ ea + k ≤ x → (t.seq n).bytes x 1 = (s.seq n).bytes x 1 := by
  intro ea l
  obtain ⟨-, region⟩ := seqAddrOk_store ok
  refine after_seqExec at_ row rfl fun fetched => ?_
  have run : seqStore n ea l (fetchLine n s) = (fetchLine n s).setSeq n (((fetchLine n s).seq n).putBytes ea l) :=
    seqStore_eq ea l (seqMemClean_of_fetched at_ fetched)
  simp only [seqEa_of_fetched fetched, seqReg_of_fetched fetched, ok, Bool.not_true, Bool.false_eq_true, if_false]
  have done : seqDone n ({ s.seq n with pc := ((s.seq n).pc + 4) % 2 ^ 32 }.putBytes ea l) s (seqNext n (seqStore n ea l (fetchLine n s))) := by
    rw [run]
    exact setSeq_next_done fetched (·.putBytes ea l) (fun _ => Seq.putBytes_pc _ _ _) fun _ _ => Seq.putBytes_frame _ _ _ _ _ _
  have length : l.length = k := length_beBytes _ _
  refine ⟨done, ?_, fun x outside => ?_⟩
  · rw [done.1, Seq.bytes_cache]
    exact length ▸ Seq.bytes_putBytes_same region l _
  · rw [done.1, Seq.bytes_cache, Seq.bytes_putBytes_outside (by rwa [length]), Seq.bytes_pc]

end

section
variable {n : Nat} {s t : State}

/-! ### The slice's LPDDR4X (R462, R470) -/

/-- LDX and STX of an aligned word inside the slice's region. -/
theorem seqExt_inside {i : Instr} {ra : BitVec 5} {imm : BitVec 16} {f : Nat → Nat → State → State} {P : State → Prop}
    (at_ : seqAt n s = true) (row : exec i s = whenOn s (.next (seqExt n ra imm f s)))
    (aligned : ((s.seq n).reg ra + imm.signExtend 32).toNat % 4 = 0)
    (inside : ((s.seq n).reg ra + imm.signExtend 32).toNat + 4 ≤ (s.region (seqOf n s)).2)
    (body : seqFetched n s (fetchLine n s) →
      P (f n ((s.region (seqOf n s)).1 + ((s.seq n).reg ra + imm.signExtend 32).toNat) (fetchLine n s))) : After (exec i s) P := by
  obtain ⟨-, hn, -⟩ := seqAt_iff.mp at_
  refine after_seqExec at_ row rfl fun fetched => ?_
  simp only [seqEa_of_fetched fetched, seqFetched_seqOf hn fetched, seqFetched_region hn fetched, aligned, Nat.not_lt.mpr inside,
    ne_eq, not_true_eq_false, if_false]
  exact body fetched

theorem seqFetched_keeps (fetched : seqFetched n s t) : keeps [.seqs, .ctrs, .regs, .hdrs, .links] s t := by
  obtain ⟨-, -, -, -, -, -, parts⟩ := fetched
  exact parts

/-- A fault raises the interrupt of the sequencer's page. -/
theorem seqFault_raised {code : Nat} (untested : ¬ (code = 4 ∨ code = 6)) : intRawBit (seqFault n code s) (pSeq n) 1 = true := by
  simp only [seqFault, if_neg untested]
  exact raise_intRaw _ _ _ (by decide)

/-- A reference outside the slice stops the sequencer with fault SEP. -/
theorem seqSep_spec (k ref : Nat) (v : Word) :
    let t := seqSep n k ref v s
    seqSet n (faultedSeq 2 (s.seq n)) s t ∧ keeps [.nvs, .log, .seqs, .ctrs, .regs, .hdrs, .links] s t ∧
      intRawBit t (pSeq n) 1 = true := by
  intro t
  let u := sepRecord k ref 0x50 n v s
  have recorded : keeps [.regs, .hdrs, .links] s u := (sepRecord_moves (s := s)).1
  obtain ⟨⟨set, others⟩, parts, -⟩ := seqFault_spec n (code := 2) (by decide) u
  have same (j : Nat) : u.seq j = s.seq j := seq_of_keeps recorded (by decide) j
  refine ⟨⟨?_, fun j ne => (others j ne).trans (same j)⟩, keeps_mono (keeps_trans recorded parts) (by decide), seqFault_raised (by decide)⟩
  exact set.trans (by rw [same])

/-- LDX and STX outside the slice's region. -/
theorem after_seqExt_outside {i : Instr} {ra : BitVec 5} {imm : BitVec 16} {f : Nat → Nat → State → State}
    (at_ : seqAt n s = true) (row : exec i s = whenOn s (.next (seqExt n ra imm f s)))
    (aligned : ((s.seq n).reg ra + imm.signExtend 32).toNat % 4 = 0)
    (outside : (s.region (seqOf n s)).2 < ((s.seq n).reg ra + imm.signExtend 32).toNat + 4) : After (exec i s) fun t =>
      keeps [.nvs, .log, .seqs, .ctrs, .regs, .hdrs, .links] s t ∧ (t.seq n).run = .faulted ∧ (t.seq n).lastFault = 2 ∧
        (t.seq n).faultPc = (s.seq n).pc ∧ intRawBit t (pSeq n) 1 = true ∧ t.dram = s.dram := by
  obtain ⟨-, hn, -⟩ := seqAt_iff.mp at_
  refine after_seqExec at_ row rfl fun fetched => ?_
  obtain ⟨d, cached⟩ := id fetched.1
  simp only [seqEa_of_fetched fetched, seqFetched_seqOf hn fetched, seqFetched_region hn fetched, aligned, outside,
    ne_eq, not_true_eq_false, if_false, if_true]
  obtain ⟨⟨set, -⟩, parts, raised⟩ := seqSep_spec (n := n) (s := fetchLine n s) (seqOf n s) 7
    (word ((s.region (seqOf n s)).1 + ((s.seq n).reg ra + imm.signExtend 32).toNat))
  have kept := keeps_trans (seqFetched_keeps fetched) parts
  refine ⟨keeps_mono kept (by decide), ?_, ?_, ?_, raised, kept .dram (by decide)⟩
  all_goals rw [set, cached]; rfl

/-! ### Branches and jumps -/

theorem after_seqBranch {i : Instr} {ra rb : BitVec 5} {off : BitVec 16} {test : Word → Word → Bool} {b : Bool}
    (at_ : seqAt n s = true) (row : exec i s = whenOn s (.next (seqBranch n ra rb off test s)))
    (value : test ((s.seq n).reg ra) ((s.seq n).reg rb) = b) :
    After (exec i s) (seqDone n (if b = true then
      { s.seq n with pc := (word ((s.seq n).pc + 4) + off.signExtend 32 * 4).toNat % 2 ^ 32 }
      else { s.seq n with pc := ((s.seq n).pc + 4) % 2 ^ 32 }) s) := by
  refine after_seqExec at_ row rfl fun fetched => ?_
  obtain ⟨d, cached⟩ := id fetched.1
  have at_pc : ((fetchLine n s).seq n).pc = (s.seq n).pc := by rw [cached]
  simp only [seqReg_of_fetched fetched, value, at_pc]
  cases b with
  | true => exact seqGoto_pc_done fetched _
  | false => exact seqNext_pc_done fetched

theorem exec_jal_done (at_ : seqAt n s = true) (rd : BitVec 5) (off : BitVec 21) :
    After (exec (.jal n rd off) s) (seqDone n
      ({ s.seq n with pc := (word ((s.seq n).pc + 4) + off.signExtend 32 * 4).toNat % 2 ^ 32 }.setReg rd.toNat
        (word ((s.seq n).pc + 4))) s) := by
  refine after_seqExec at_ rfl rfl fun fetched => ?_
  obtain ⟨d, cached⟩ := id fetched.1
  have at_pc : ((fetchLine n s).seq n).pc = (s.seq n).pc := by rw [cached]
  simp only [at_pc]
  exact setSeqReg_done fetched rd _ _

theorem exec_jalr_done (at_ : seqAt n s = true) (rd ra : BitVec 5) (imm : BitVec 16)
    (aligned : ((s.seq n).reg ra + imm.setWidth 32).toNat % 4 = 0) :
    After (exec (.jalr n rd ra imm) s) (seqDone n
      ({ s.seq n with pc := ((s.seq n).reg ra + imm.setWidth 32).toNat % 2 ^ 32 }.setReg rd.toNat (word ((s.seq n).pc + 4))) s) := by
  refine after_seqExec at_ rfl rfl fun fetched => ?_
  obtain ⟨d, cached⟩ := id fetched.1
  have at_pc : ((fetchLine n s).seq n).pc = (s.seq n).pc := by rw [cached]
  simp only [seqReg_of_fetched fetched, zext, aligned, at_pc, ne_eq, not_true_eq_false, if_false]
  exact setSeqReg_done fetched rd _ _

end

/-- Settles O56: each move of data or of PC is the fetch and one replacement of the sequencer, or one word of LPDDR4X. -/
theorem sequencersMoveData : Obligations.SequencersMoveData := by
  intro n rd ra rb imm s at_ q a ea after jump gives stores
  refine ⟨?_, after_seqSave at_ rfl, after_seqSave at_ rfl, after_seqSave at_ rfl, fun aligned inside => ⟨?_, ?_⟩, ?_, ?_, fun off => ?_, ?_⟩
  case refine_1 =>
    intro x mem ok
    simp only [List.mem_cons, List.not_mem_nil, or_false] at mem
    obtain rfl | rfl | rfl := mem
    · exact after_seqLoad at_ rfl ok
    · exact after_seqLoad at_ rfl ok
    · exact after_seqLoad at_ rfl ok
  case refine_2 =>
    refine seqExt_inside at_ rfl aligned inside fun fetched => ?_
    obtain ⟨d, cached⟩ := id fetched.1
    have kept := keeps_trans (seqFetched_keeps fetched) (setSeq_keeps n { (fetchLine n s).seq n with
      run := .waiting, wait := some (.load rd.toNat ((s.region (seqOf n s)).1 + ea)) } (fetchLine n s))
    refine ⟨keeps_mono kept (by decide), ?_, ?_, ?_, ?_, kept .dram (by decide)⟩
    all_goals rw [State.seq_setSeq_same, cached]
  case refine_3 =>
    refine seqExt_inside at_ rfl aligned inside fun fetched => ?_
    let u := (fetchLine n s).setDramWord ((s.region (seqOf n s)).1 + ea) (q.reg rd)
    obtain ⟨d, cached⟩ := id fetched.1
    have stored : keeps [.dram] (fetchLine n s) u := (setDramWord_moves (s := fetchLine n s)).1
    have here : u.seq n = { q with cache := d } := (seq_of_keeps stored (by decide) n).trans cached
    obtain ⟨set, -, -, -, -, -, parts⟩ := seqGoto_done n ((u.seq n).pc + 4) u
    have byte (x : Nat) : (seqNext n u).dramByte x = u.dramByte x := dramByte_of_keeps parts (by decide) (by decide) x
    have before (x : Nat) : (fetchLine n s).dramByte x = s.dramByte x :=
      dramByte_of_keeps (seqFetched_keeps fetched) (by decide) (by decide) x
    have run : seqReg n rd (fetchLine n s) = q.reg rd := seqReg_of_fetched fetched rd
    rw [run]
    refine ⟨keeps_mono (keeps_trans (keeps_trans (seqFetched_keeps fetched) stored) parts) (by decide), ?_, ?_, ?_, fun x outside => ?_⟩
    · exact (dramWord_congr byte).trans (State.dramWord_setDramWord_same _ _ _)
    · exact (congrArg Seq.pc set).trans (by rw [here])
    · exact (congrArg Seq.g set).trans (by rw [here])
    · exact (byte x).trans ((State.setDramWord_frame _ x _ _ outside).trans (before x))
  case refine_4 =>
    intro aligned outside i mem
    simp only [List.mem_cons, List.not_mem_nil, or_false] at mem
    obtain rfl | rfl := mem
    · exact after_seqExt_outside at_ rfl aligned outside
    · exact after_seqExt_outside at_ rfl aligned outside
  case refine_5 =>
    intro x mem
    simp only [List.mem_cons, List.not_mem_nil, or_false] at mem
    obtain rfl | rfl | rfl | rfl := mem
    · exact after_seqBranch at_ rfl (by simp [q, a, beq_eq_decide])
    · exact after_seqBranch at_ rfl (by simp [q, a, bne, beq_eq_decide])
    · exact after_seqBranch at_ rfl rfl
    · exact after_seqBranch at_ rfl rfl
  case refine_6 => exact exec_jal_done at_ rd off
  case refine_7 => exact exec_jalr_done at_ rd ra imm

end Sys2Proof.Machine

/-!
PROOFS. Time, events, frames and check channels as the sequencers use them (R461, R463 to R467, R469, R472, R481 to R484, Table 16-3).
-/

namespace Sys2Proof.Machine

/-! ### What a fetch leaves for the other instructions -/

/-- Sequencer `n` is `x` but for its instruction cache, and every other one is as before. -/
def seqStepped (n : Nat) (x : Seq) (s t : State) : Prop :=
  t.seq n = { x with cache := (t.seq n).cache } ∧ ∀ j, j ≠ n → t.seq j = s.seq j

theorem seqStepped_of_seqDone {n : Nat} {x : Seq} {s t : State} (done : seqDone n x s t) : seqStepped n x s t := by
  obtain ⟨set, others, -⟩ := done
  exact ⟨set, others⟩

section
variable {n : Nat} {s t : State}

theorem seqReady_iff : seqReady n s = true ↔ (s.seq n).run = .running ∧ (s.seq n).wait = none ∧ seqMayRun n s = true := by
  simp only [seqReady, Bool.and_eq_true, beq_iff_eq, Option.isNone_iff_eq_none, and_assoc]

/-- A sequencer at an instruction boundary runs and waits for nothing. -/
theorem seq_of_seqAt (at_ : seqAt n s = true) (q : Seq) (h : q = s.seq n) : { q with run := .running, wait := none } = q := by
  obtain ⟨-, -, ready, -⟩ := seqAt_iff.mp at_
  obtain ⟨run, wait, -⟩ := seqReady_iff.mp ready
  rw [h, ← run, ← wait]

theorem seqFetched_chan (fetched : seqFetched n s t) (c : Nat) : t.chan c = s.chan c :=
  chan_of_keeps (seqFetched_keeps fetched) (by decide) c

theorem seqFetched_pChk (hn : n < 8) (fetched : seqFetched n s t) {c off : Nat} (hc : c < 8) (ho : off < 0x1000) :
    t.rp (pChk c) off = s.rp (pChk c) off := by
  obtain ⟨-, -, -, regs, -⟩ := fetched
  refine regs _ ?_
  simp only [List.mem_singleton, regAddr, pSeq, pChk]
  omega

theorem seqFetched_chanParam (hn : n < 8) (fetched : seqFetched n s t) {c : Nat} (hc : c < 8) : chanParam c t = chanParam c s := by
  simp only [chanParam, seqFetched_pChk hn fetched hc (show 0x100 < 0x1000 by decide),
    seqFetched_pChk hn fetched hc (show 0x104 < 0x1000 by decide), seqFetched_pChk hn fetched hc (show 0x108 < 0x1000 by decide)]

theorem seqFetched_chanLen (hn : n < 8) (fetched : seqFetched n s t) {c : Nat} (hc : c < 8) : chanLen c t = chanLen c s := by
  simp only [chanLen, seqFetched_pChk hn fetched hc (show 0x10C < 0x1000 by decide)]

theorem seqFetched_chanClosed (fetched : seqFetched n s t) (c : Nat) : chanClosed c t = chanClosed c s := by
  obtain ⟨-, -, -, -, -, states, -⟩ := fetched
  simp only [chanClosed, states]

theorem seqFetched_feedRejected (hn : n < 8) (fetched : seqFetched n s t) {c : Nat} (hc : c < 8) (k : Nat) :
    feedRejected c k t = feedRejected c k s := by
  simp only [feedRejected, seqFetched_chan fetched, seqFetched_chanClosed fetched, seqFetched_chanLen hn fetched hc]

theorem seqFetched_chkSlice (hn : n < 8) (fetched : seqFetched n s t) (c : Nat) : t.chkSlice c = s.chkSlice c := by
  simp only [State.chkSlice, State.holders, seqFetched_slc hn fetched _ (show 0x124 < 0x1000 by decide)]

theorem seqFetched_events (fetched : seqFetched n s t) : seqEvents n t = seqEvents n s := by
  obtain ⟨d, cached⟩ := id fetched.1
  simp only [seqEvents, cached, seqFetched_chan fetched]

theorem seqFetched_now (fetched : seqFetched n s t) :
    t.secWord = s.secWord ∧ t.nsWord = s.nsWord ∧ t.era = s.era ∧ t.clock = s.clock := by
  have kept := seqFetched_keeps fetched
  have tsu : t.tsu = s.tsu := kept .tsu (by decide)
  have sec : t.nowSec = s.nowSec := by rw [State.nowSec, State.nowSec, tsu]
  have ns : t.nowNs = s.nowNs := by rw [State.nowNs, State.nowNs, tsu]
  exact ⟨congrArg word sec, congrArg word ns, kept .era (by decide), kept .clock (by decide)⟩

/-! ### Completion behind another effect -/

/-- An instruction that moves on to the next one after an effect that leaves the sequencers alone. -/
theorem setSeq_next {u : State} {q x : Seq} {d : List (Nat × List Byte)} (cached : u.seq n = { q with cache := d }) (f : Seq → Seq)
    (pc : (f { q with cache := d }).pc = q.pc)
    (same : ∀ c, { f { q with cache := d } with pc := (q.pc + 4) % 2 ^ 32, cache := c } = { x with cache := c }) :
    seqDone n x u (seqNext n (u.setSeq n (f (u.seq n)))) := by
  have at_ : ((u.setSeq n (f (u.seq n))).seq n).pc = q.pc := by rw [State.seq_setSeq_same, cached, pc]
  obtain ⟨set, rest⟩ := seqDone_of_setSeq (seqGoto_done n (q.pc + 4) (u.setSeq n (f (u.seq n))))
  rw [seqNext, at_]
  refine ⟨set.trans ?_, rest⟩
  rw [State.seq_setSeq_same, cached]
  exact same _

theorem setSeqReg_next {u : State} {q : Seq} {d : List (Nat × List Byte)} (cached : u.seq n = { q with cache := d }) (rd : BitVec 5)
    (v : Word) : seqDone n ({ q with pc := (q.pc + 4) % 2 ^ 32 }.setReg rd.toNat v) u (seqNext n (setSeqReg n rd v u)) :=
  setSeq_next cached (·.setReg rd.toNat v) (Seq.setReg_pc _ _ _) fun _ => Seq.setReg_frame _ _ _ _ _ _

/-- What a completed instruction holds in its cache is left open. -/
theorem seqDone_cache {x : Seq} {d : List (Nat × List Byte)} (done : seqDone n { x with cache := d } s t) : seqDone n x s t := done

theorem seqNext_step {u : State} {q : Seq} {d : List (Nat × List Byte)} (cached : u.seq n = { q with cache := d }) :
    seqDone n { q with pc := (q.pc + 4) % 2 ^ 32 } u (seqNext n u) := by
  have done := seqGoto_done n ((u.seq n).pc + 4) u
  rw [cached] at done
  rw [seqNext, cached]
  exact seqDone_cache done

/-- The completion of an instruction behind a fetch and an effect that leaves the sequencers alone. -/
theorem stepped_of_effect {u v : State} {x : Seq} {l : List Part} (fetched : seqFetched n s t) (kept : keeps l t u) (h : Part.seqs ∉ l)
    (done : seqDone n x u v) : seqStepped n x s v ∧ keeps ([.seqs, .ctrs, .regs, .hdrs, .links] ++ l) s v := by
  obtain ⟨-, others, -⟩ := id fetched
  obtain ⟨set, others', -, -, -, -, parts⟩ := done
  refine ⟨⟨set, fun j ne => (others' j ne).trans ((seq_of_keeps kept h j).trans (others j ne))⟩, ?_⟩
  refine keeps_mono (keeps_trans (keeps_trans (seqFetched_keeps fetched) kept) parts) fun p mem => ?_
  simp only [List.mem_append] at mem ⊢
  tauto

theorem cached_of_effect {u : State} {l : List Part} (fetched : seqFetched n s t) (kept : keeps l t u) (h : Part.seqs ∉ l) :
    ∃ d, u.seq n = { s.seq n with cache := d } := by
  obtain ⟨d, cached⟩ := fetched.1
  exact ⟨d, (seq_of_keeps kept h n).trans cached⟩

/-- An interrupt that is raised stays so whatever else is raised. -/
theorem raise_intRaw_mono {q j : Nat} {u : State} (p i : Nat) (up : intRawBit u q j = true) : intRawBit (raise p i u) q j = true := by
  by_cases same : q = p
  · subst same
    exact raise_intRaw_of_set up i
  · exact (congrArg (fun h : Hdr => bit h.intRaw j) (raise_keepsHdrs p i u q (by simpa using same))).trans up

/-- Counting raises interrupts and clears none. -/
theorem countAt_intRaw {p base hoff ib w i k q j : Nat} {u : State} (up : intRawBit u q j = true) :
    intRawBit (countAt p base hoff ib w i k u) q j = true := by
  refine ite_all (P := fun v => intRawBit v q j = true) (raise_intRaw_mono p ib ?_) up
  exact up

theorem seqNext_intRaw {q j : Nat} {u : State} (up : intRawBit u q j = true) : intRawBit (seqNext n u) q j = true :=
  countAt_intRaw up

/-! ### Time, events and the watchdog (R463 to R465) -/

theorem exec_rdtime_done (at_ : seqAt n s = true) (rd : BitVec 5) {imm : BitVec 16} (small : imm.toNat ≤ 2) :
    After (exec (.rdtime n rd imm) s) (seqDone n ({ s.seq n with pc := ((s.seq n).pc + 4) % 2 ^ 32 }.setReg rd.toNat
      (if imm.toNat = 0 then s.secWord else if imm.toNat = 1 then s.nsWord else word (Config.timerBase s.era + s.clock))) s) := by
  refine after_seqExec at_ rfl (decide_eq_true small) fun fetched => ?_
  obtain ⟨sec, ns, era, clock⟩ := seqFetched_now fetched
  have third : imm.toNat = 0 ∨ imm.toNat = 1 ∨ imm.toNat = 2 := by omega
  obtain h | h | h := third
  · simp only [h, if_true, sec]
    exact setSeqReg_next_done fetched rd _
  · simp only [h, if_true, if_neg Nat.one_ne_zero, ns]
    exact setSeqReg_next_done fetched rd _
  · simp only [h, if_neg (show ¬ 2 = 0 by decide), if_neg (show ¬ 2 = 1 by decide), era, clock]
    exact setSeqReg_next_done fetched rd _

theorem exec_tset_done (at_ : seqAt n s = true) (ra : BitVec 5) {imm : BitVec 16} (small : imm.toNat < 32) (field : imm.toNat % 16 < 4) :
    After (exec (.tset n ra imm) s) (seqDone n { s.seq n with
      pc := ((s.seq n).pc + 4) % 2 ^ 32
      timers := tblSet SeqTimer.off (imm.toNat % 4) (if ((s.seq n).reg ra).toNat = 0 then SeqTimer.off
        else ⟨true, decide (16 ≤ imm.toNat), ((s.seq n).reg ra).toNat, ((s.seq n).reg ra).toNat⟩) (s.seq n).timers } s) := by
  have periodic : (imm.toNat / 16 == 1) = decide (16 ≤ imm.toNat) := by
    rw [beq_eq_decide, decide_eq_decide]
    omega
  have legal : (imm.toNat / 32 == 0 && imm.toNat / 4 % 4 == 0) = true := by
    rw [Bool.and_eq_true, beq_iff_eq, beq_iff_eq]
    omega
  refine after_seqExec at_ rfl legal fun fetched => ?_
  rw [← periodic]
  exact setSeq_next_done fetched (fun q => { q with timers := tblSet SeqTimer.off (imm.toNat % 4) (if (q.reg ra).toNat = 0
    then SeqTimer.off else ⟨true, imm.toNat / 16 == 1, (q.reg ra).toNat, (q.reg ra).toNat⟩) q.timers }) (fun _ => rfl) fun _ _ => rfl

/-- A sequencer as a WAIT that returns leaves it. -/
def wokenSeq (rd hit : Nat) (q : Seq) : Seq :=
  { q with run := .running, wait := none, events := (q.events % 16) &&& (15 - hit % 16) }.setReg rd (word hit)

theorem wokenSeq_frame (rd hit : Nat) (q : Seq) (pc : Nat) (c d : List (Nat × List Byte)) :
    { wokenSeq rd hit { q with cache := d } with pc := pc, cache := c } = { ({ q with
      run := .running, wait := none, pc := pc, events := (q.events % 16) &&& (15 - hit % 16) }.setReg rd (word hit)) with cache := c } := by
  unfold wokenSeq Seq.setReg
  split <;> rfl

theorem exec_wait_hit (at_ : seqAt n s = true) (rd : BitVec 5) {imm : BitVec 16} (least : 1 ≤ imm.toNat) (small : imm.toNat < 64)
    (hit : seqEvents n s &&& imm.toNat ≠ 0) :
    After (exec (.wait n rd imm) s) (seqDone n ({ s.seq n with
      pc := ((s.seq n).pc + 4) % 2 ^ 32
      events := ((s.seq n).events % 16) &&& (15 - (seqEvents n s &&& imm.toNat) % 16) }.setReg rd.toNat
        (word (seqEvents n s &&& imm.toNat))) s) := by
  refine after_seqExec at_ rfl (decide_eq_true ⟨least, small⟩) fun fetched => ?_
  simp only [seqFetched_events fetched, if_pos hit]
  have idle := seq_of_seqAt at_ (s.seq n) rfl
  refine setSeq_next_done fetched (wokenSeq rd.toNat (seqEvents n s &&& imm.toNat)) (fun _ => Seq.setReg_pc _ _ _) fun c d => ?_
  rw [wokenSeq_frame, ← idle]

/-- A WAIT or a CRES with nothing to return. -/
theorem waiting_of_fetched (fetched : seqFetched n s t) (w : SeqWait) :
    seqStepped n { s.seq n with run := .waiting, wait := some w } s (t.setSeq n { t.seq n with run := .waiting, wait := some w }) ∧
      keeps [.seqs, .ctrs, .regs, .hdrs, .links] s (t.setSeq n { t.seq n with run := .waiting, wait := some w }) := by
  obtain ⟨d, cached⟩ := id fetched.1
  obtain ⟨-, others, -⟩ := id fetched
  refine ⟨⟨?_, fun j ne => (seq_setSeq_other ne _ t).trans (others j ne)⟩,
    keeps_mono (keeps_trans (seqFetched_keeps fetched) (setSeq_keeps n _ t)) (by decide)⟩
  rw [State.seq_setSeq_same, cached]

theorem exec_wait_idle (at_ : seqAt n s = true) (rd : BitVec 5) {imm : BitVec 16} (least : 1 ≤ imm.toNat) (small : imm.toNat < 64)
    (hit : seqEvents n s &&& imm.toNat = 0) :
    After (exec (.wait n rd imm) s) fun t => seqStepped n { s.seq n with run := .waiting, wait := some (.event rd.toNat imm.toNat) } s t ∧
      keeps [.chk, .seqs, .ctrs, .regs, .hdrs, .links] s t := by
  refine after_seqExec at_ rfl (decide_eq_true ⟨least, small⟩) fun fetched => ?_
  simp only [seqFetched_events fetched, hit, ne_eq, not_true_eq_false, if_false]
  obtain ⟨stepped, kept⟩ := waiting_of_fetched fetched (.event rd.toNat imm.toNat)
  exact ⟨stepped, keeps_mono kept (by decide)⟩

theorem exec_wdog_done (at_ : seqAt n s = true) :
    After (exec (.wdog n) s) (seqDone n { s.seq n with pc := ((s.seq n).pc + 4) % 2 ^ 32, wdogUs := 0 } s) :=
  after_seqExec at_ rfl rfl fun fetched => setSeq_next_done fetched (fun q => { q with wdogUs := 0 }) (fun _ => rfl) fun _ _ => rfl

theorem exec_evt_done (at_ : seqAt n s = true) (imm : BitVec 16) : After (exec (.evt n imm) s) fun t =>
    keeps [.seqs, .ctrs, .regs, .hdrs, .links] s t ∧ seqStepped n { s.seq n with pc := ((s.seq n).pc + 4) % 2 ^ 32 } s t ∧
      bits (t.rp (pSeq n) 0x120) 0 16 = imm.toNat ∧
      bits (t.rp (pSeq n) 0x120) 16 16 = (bits (s.rp (pSeq n) 0x120) 16 16 + 1) % 65536 ∧ intRawBit t (pSeq n) 3 = true := by
  refine after_seqExec at_ rfl rfl fun fetched => ?_
  let a := regAddr (pSeq n) 0x120
  let u := ((fetchLine n s).setFld a 0 16 imm.toNat).bumpFld a 16 16 1
  have marked : keeps [.regs, .hdrs, .links] (fetchLine n s) (raise (pSeq n) 3 u) :=
    (raise_moves.after rfl <| bumpFld_moves.after rfl <| setFld_moves.within rfl : moves [.regs, .hdrs, .links] _ (raise (pSeq n) 3 u)).1
  obtain ⟨d, cached⟩ := cached_of_effect fetched marked (by decide)
  have done := seqNext_step cached
  obtain ⟨stepped, kept⟩ := stepped_of_effect fetched marked (by decide) done
  obtain ⟨-, -, -, -, regs, -⟩ := done
  have same : (seqNext n (raise (pSeq n) 3 u)).rp (pSeq n) 0x120 = u.rp (pSeq n) 0x120 :=
    (regs a (by simp [a, regAddr])).trans (raise_rd _ _ u a)
  have field : u.rp (pSeq n) 0x120 = setBits (setBits ((fetchLine n s).rp (pSeq n) 0x120) 0 16 imm.toNat) 16 16
      (bits (setBits ((fetchLine n s).rp (pSeq n) 0x120) 0 16 imm.toNat) 16 16 + 1) := by
    simp only [u, State.bumpFld, State.setFld, State.fld, State.rp, State.rd_wr_same, a]
  refine ⟨keeps_mono kept (by decide), stepped, ?_, ?_, seqNext_intRaw (raise_intRaw _ _ u (by decide))⟩
  · rw [same, field, bits_setBits_other _ (.inl (by decide)) (by decide), bits_setBits_same _ _ _ _ (by decide)]
    exact Nat.mod_eq_of_lt imm.isLt
  · rw [same, field, bits_setBits_same _ _ _ _ (by decide), bits_setBits_other _ (.inr (by decide)) (by decide),
      seqFetched_rp fetched (by decide)]
    rfl

theorem exec_cnt_done (at_ : seqAt n s = true) (ra : BitVec 5) {imm : BitVec 16} (small : imm.toNat < 8) :
    After (exec (.cnt n ra imm) s) fun t => keeps [.seqs, .ctrs, .regs, .hdrs, .links] s t ∧
      seqStepped n { s.seq n with pc := ((s.seq n).pc + 4) % 2 ^ 32 } s t ∧
      t.ctr (regAddr (pSeq n) (0x238 + 8 * imm.toNat)) =
        (s.ctr (regAddr (pSeq n) (0x238 + 8 * imm.toNat)) + ((s.seq n).reg ra).toNat) % 2 ^ 40 := by
  refine after_seqExec at_ rfl (decide_eq_true small) fun fetched => ?_
  rw [Nat.mod_eq_of_lt small, seqReg_of_fetched fetched]
  have own : 0x200 + 8 * (7 + imm.toNat) = 0x238 + 8 * imm.toNat := by omega
  have long : (if 7 + imm.toNat = 0 then 48 else 40) = 40 := if_neg (by omega)
  obtain ⟨count, -, -, counted⟩ := countAt_spec (pSeq n) 0x200 0x1D0 5 40 (7 + imm.toNat) ((s.seq n).reg ra).toNat (fetchLine n s)
  obtain ⟨d, cached⟩ := cached_of_effect fetched counted (by decide)
  have done := seqNext_step cached
  obtain ⟨stepped, kept⟩ := stepped_of_effect fetched counted (by decide) done
  obtain ⟨-, -, -, ctrs, -⟩ := done
  obtain ⟨-, -, before, -⟩ := fetched
  have other : regAddr (pSeq n) (0x238 + 8 * imm.toNat) ≠ regAddr (pSeq n) 0x200 ∧
      regAddr (pSeq n) (0x238 + 8 * imm.toNat) ≠ regAddr (pSeq n) 0x208 := by
    simp only [regAddr]
    omega
  rw [own, before _ other.2] at count
  simp only [seqCount, long]
  exact ⟨keeps_mono kept (by decide), stepped, (ctrs _ other.1 other.2).trans count⟩

/-! ### Frames (R466, R467) -/

theorem exec_rxhead_done (at_ : seqAt n s = true) (rd : BitVec 5) : After (exec (.rxhead n rd) s)
    (seqDone n ({ s.seq n with pc := ((s.seq n).pc + 4) % 2 ^ 32 }.setReg rd.toNat (match (s.seq n).slots with
      | [] => 0xFFFFFFFF
      | x :: _ => word (x.1 * 65536 + x.2))) s) := by
  refine after_seqAlu at_ rfl rfl fun _ => ?_
  cases (s.seq n).slots <;> rfl

theorem exec_rxfree_done (at_ : seqAt n s = true) : After (exec (.rxfree n) s)
    (seqDone n { s.seq n with pc := ((s.seq n).pc + 4) % 2 ^ 32, slots := (s.seq n).slots.drop 1 } s) :=
  after_seqExec at_ rfl rfl fun fetched => setSeq_next_done fetched (fun q => { q with slots := q.slots.drop 1 }) (fun _ => rfl) fun _ _ => rfl

theorem exec_halt_done (at_ : seqAt n s = true) : After (exec (.halt n) s) fun t => keeps [.seqs, .ctrs, .regs, .hdrs, .links] s t ∧
    seqStepped n { s.seq n with pc := ((s.seq n).pc + 4) % 2 ^ 32, run := .halted } s t ∧ intRawBit t (pSeq n) 0 = true := by
  refine after_seqExec at_ rfl rfl fun fetched => ?_
  obtain ⟨set, others, -, -, -, -, parts⟩ := seqNext_pc_done fetched
  let u := seqNext n (fetchLine n s)
  let v := u.setSeq n { u.seq n with run := .halted }
  have raised := raise_keeps (pSeq n) 0 v
  refine ⟨keeps_mono (keeps_trans (keeps_trans parts (setSeq_keeps n _ u)) raised) (by decide), ⟨?_, fun j ne => ?_⟩,
    raise_intRaw _ _ v (by decide)⟩
  · rw [seq_of_keeps raised (by decide) n, State.seq_setSeq_same, set]
  · exact (seq_of_keeps raised (by decide) j).trans ((seq_setSeq_other ne _ u).trans (others j ne))

/-- What the line carries is told by registers of other pages than the sequencers', the queues of the buffer and the messages upstream. -/
theorem lineDepth_congr (hn : n < 8) (regs : keepsRegs [regAddr (pSeq n) 0x1D0] s t) (buf : t.buf = s.buf)
    (up : t.omciUpQ = s.omciUpQ) : lineDepth t = lineDepth s := by
  have own {a : Nat} (h : a ≠ regAddr (pSeq n) 0x1D0) : t.rd a = s.rd a := regs a (by simpa using h)
  have active : pswActive t = pswActive s := by
    rw [pswActive, flag_congr (own (by simp only [regAddr, pPsw, pSeq]; omega)) 0, pswActive]
  have parent (a : Nat) : nodeParent a t = nodeParent a s := by
    simp only [nodeParent, State.fld, own (a := nodeAddr a 0) (by simp only [nodeAddr, regAddr, pSlice, pSeq]; omega)]
  have table (f : AB) {o : Nat} (ho : o < 0x1000) : t.rp (pBtx f) o = s.rp (pBtx f) o := by
    refine own ?_
    have page : pBtx f ≤ 0x25 := by cases f <;> decide
    simp only [regAddr, pSeq]
    omega
  have carried (f : AB) (id : Nat) : assigned f id t = assigned f id s := by
    rw [Bool.eq_iff_iff]
    simp only [assigned, List.any_eq_true, List.mem_range]
    refine exists_congr fun k => and_congr_right fun small => ?_
    rw [table f (o := 0x180 + 4 * k) (by omega)]
  have served (f : AB) (k : Nat) : (decide (k < 32) && servedOn f k t) = (decide (k < 32) && servedOn f k s) := by
    by_cases small : k < 32
    · have entry : t.rd (regAddr (pBtx f) (0x200 + 4 * k)) = s.rd (regAddr (pBtx f) (0x200 + 4 * k)) := table f (by omega)
      have id : t.fld (regAddr (pBtx f) (0x200 + 4 * k)) 0 14 = s.fld (regAddr (pBtx f) (0x200 + 4 * k)) 0 14 :=
        congrArg (bits · 0 14) entry
      have map : mapOf f k t = mapOf f k s := by rw [mapOf, flag_congr entry 16, id, mapOf]
      simp only [servedOn, map, carried]
    · simp [small]
  simp only [lineDepth, active, parent, served, buf, up]

/-- The completion of an FSEND that left the buffer alone: its status is written, and no sleeping line is woken. -/
theorem sendDone (hn : n < 8) (fetched : seqFetched n s t) {l : List Part} {u : State} {i k : Nat} (hi : i < 32) (parts : keeps l t u)
    (only : ∀ p ∈ l, p = Part.cls) (rd : BitVec 5) (v : Word) :
    let w := wakeOn t (seqNext n (setSeqReg n rd v (seqCount n i k u)))
    keeps ([.seqs, .ctrs, .regs, .hdrs, .links] ++ l) s w ∧
      seqStepped n ({ s.seq n with pc := ((s.seq n).pc + 4) % 2 ^ 32 }.setReg rd.toNat v) s w ∧
      (1 < i → w.ctr (regAddr (pSeq n) (0x200 + 8 * i)) = (t.ctr (regAddr (pSeq n) (0x200 + 8 * i)) + k) % 2 ^ 40) ∧ w.cls = u.cls := by
  intro w
  let c := seqCount n i k u
  let v' := seqNext n (setSeqReg n rd v c)
  have calm : keeps [.cls] t u := keeps_mono parts fun p mem => by rw [only p mem]; exact List.mem_singleton_self _
  obtain ⟨count, half, -, counted⟩ := countAt_spec (pSeq n) 0x200 0x1D0 5 (if i = 0 then 48 else 40) i k u
  rw [Nat.div_eq_of_lt hi] at half
  have kept := keeps_trans calm counted
  obtain ⟨d, cached⟩ := cached_of_effect fetched kept (by decide)
  have done := setSeqReg_next cached rd v
  obtain ⟨stepped, -⟩ := stepped_of_effect fetched kept (by decide) done
  obtain ⟨-, -, -, ctrs, regs, -, parts'⟩ := done
  have same : keepsRegs [regAddr (pSeq n) 0x1D0] t v' := fun a h =>
    (regs a h).trans ((half a h).trans (congrFun (rd_of_keeps calm (by decide)) a))
  have asleep : w = v' := by
    have whole := keeps_trans kept parts'
    refine if_neg ?_
    rw [lineDepth_congr hn same (whole .buf (by decide)) (whole .omciUpQ (by decide))]
    exact Nat.lt_irrefl _
  rw [asleep]
  refine ⟨?_, stepped, fun pos => ?_, (parts' .cls (by decide)).trans (counted .cls (by decide))⟩
  · refine keeps_mono (keeps_trans (keeps_trans (keeps_trans (seqFetched_keeps fetched) parts) counted) parts') fun p mem => ?_
    simp only [List.mem_append] at mem ⊢
    tauto
  · have counter : c.ctr (regAddr (pSeq n) (0x200 + 8 * i)) = _ := count
    rw [if_neg (by omega), ctr_of_keeps calm (by decide)] at counter
    exact (ctrs _ (by simp only [regAddr]; omega) (by simp only [regAddr]; omega)).trans counter

/-- An FSEND of a length that no frame has. -/
theorem exec_fsend_short (at_ : seqAt n s = true) (rd ra rb : BitVec 5)
    (bad : bits ((s.seq n).reg ra) 0 16 < 14 ∨ 2048 < bits ((s.seq n).reg ra) 0 16) : After (exec (.fsend n rd ra rb) s) fun t =>
      keeps [.seqs, .ctrs, .regs, .hdrs, .links] s t ∧
        seqStepped n ({ s.seq n with pc := ((s.seq n).pc + 4) % 2 ^ 32 }.setReg rd.toNat 1) s t ∧
        t.ctr (regAddr (pSeq n) 0x218) = (s.ctr (regAddr (pSeq n) 0x218) + 1) % 2 ^ 40 ∧ t.cls = s.cls ∧ t.buf = s.buf := by
  obtain ⟨-, hn, -⟩ := seqAt_iff.mp at_
  refine after_seqExec at_ rfl rfl fun fetched => ?_
  have sent : seqSend n (seqReg n ra (fetchLine n s)) (seqReg n rb (fetchLine n s)) (fetchLine n s) = (1, fetchLine n s) := by
    rw [seqReg_of_fetched fetched ra]
    exact if_pos bad
  simp only [sent]
  obtain ⟨parts, stepped, count, -⟩ := sendDone hn fetched (i := 3) (k := 1) (by decide) (keeps_refl [] (fetchLine n s)) (by simp) rd (word 1)
  obtain ⟨-, -, before, -⟩ := fetched
  have same : (fetchLine n s).ctr (regAddr (pSeq n) 0x218) = s.ctr (regAddr (pSeq n) 0x218) := before _ (by simp [regAddr])
  exact ⟨parts, stepped, (count (by decide)).trans (by rw [same]), parts .cls (by decide), parts .buf (by decide)⟩

theorem setWaiting_keeps (l : List Pkt) (s : State) : keeps [.cls] s (s.setWaiting l) := (setWaiting_moves (s := s)).1

/-- A packet goes to the lane of its bucket while some lane is in service and the dispatcher holds no other. -/
theorem dispatch_eq {p : Pkt} (free : s.cls.waiting = []) (lanes : lanesIn s ≠ []) :
    (dispatch p s).cls = dispatched p s ∧ keeps [.cls] s (dispatch p s) := by
  have serve : (lanesIn (s.setWaiting [p])).isEmpty = false := by
    rw [List.isEmpty_eq_false_iff]
    exact lanes
  have run : dispatch p s = (handOver [p] [] (s.setWaiting [p])).2.setWaiting (handOver [p] [] (s.setWaiting [p])).1 := by
    have one : s.cls.waiting ++ [p] = [p] := by rw [free, List.nil_append]
    have some_ : (s.setWaiting [p]).cls.waiting.isEmpty = false := rfl
    rw [dispatch, one, settleWaiting, some_, serve]
    rfl
  rw [run]
  let b := bucketOf p
  let k := s.cls.buckets.getD b 0
  by_cases held : (elsewhere b k s || decide (laneRoom ≤ (s.lane k).q.length)) = true
  · have step : handOver [p] [] (s.setWaiting [p]) = ([p], s.setWaiting [p]) := if_pos held
    rw [step]
    refine ⟨?_, keeps_mono (keeps_trans (setWaiting_keeps _ s) (setWaiting_keeps _ _)) (by decide)⟩
    exact (if_pos held).symm
  · have step : handOver [p] [] (s.setWaiting [p]) =
        ([], (s.setWaiting [p]).setLane k { s.lane k with q := (s.lane k).q ++ [p] }) := if_neg held
    rw [step]
    have moved : keeps [.cls] (s.setWaiting [p]) _ :=
      (setLane_moves (n := k) (x := { s.lane k with q := (s.lane k).q ++ [p] }) (s := s.setWaiting [p])).1
    refine ⟨Eq.trans ?_ (if_neg held).symm, keeps_mono (keeps_trans (keeps_trans (setWaiting_keeps _ s) moved) (setWaiting_keeps _ _)) (by decide)⟩
    simp only [State.setWaiting, State.setLane, ← free]
    rfl

end

section
variable {n : Nat} {s t : State}

/-- A read of the rows of clean memory finds nothing. -/
theorem readRow_of_memClean (mem bank row slice : Nat) (clean : memClean s = true) : readRow mem bank row slice s = s := by
  obtain ⟨upsets, poison, -⟩ := memClean_iff.mp clean
  simp [readRow, upsets, poison]

theorem readRows_of_memClean (mem k : Nat) (rows : List Nat) (clean : memClean s = true) :
    rows.foldl (fun s r => readRow mem 0 (384 + r) k s) s = s := by
  induction rows with
  | nil => rfl
  | cons r rows ih => rw [List.foldl_cons, readRow_of_memClean _ _ _ _ clean, ih]

/-- The frame of an FSEND of clean memory to an ACTIVE slice, by way of classification. -/
theorem seqSend_ingress {a b : Word} {k len : Nat} (clean : memClean s = true) (slice : seqOf n s = k) (length : bits a 0 16 = len)
    (least : 14 ≤ len) (most : len ≤ 2048) (classified : bit b 0 = false) (active : s.sliceState k = .active) :
    ∃ p, seqSend n a b s = (0, dispatch p s) ∧ p.bytes = padFrame ((s.seq n).txbuf.read 0 len) ∧ p.slice = k ∧ p.src = 10 ∧
      p.cell = .clean := by
  obtain ⟨-, poison, -⟩ := memClean_iff.mp clean
  have inner : ¬ ((10 < 8 ∨ 10 = 9) ∧ s.mode.code = 1 ∧ bit (s.slc k 0x100) 0 = false) := by simp
  have sized : ¬ (len < 14 ∨ 2048 < len) := by omega
  refine ⟨{ mkPkt 10 k (padFrame ((s.seq n).txbuf.read 0 len)) s with
    tsId := if bit b 1 then some (bits a 16 16) else none, fromSeq := some n, cell := .clean }, ?_, rfl, rfl, rfl, rfl⟩
  simp only [seqSend, slice, length, if_neg sized, readRows_of_memClean _ _ _ clean, poison, List.any_nil, classified, active, ingress, if_neg inner,
    Bool.false_eq_true, false_and, if_false, ne_eq, not_true_eq_false]

/-- What a packet meets in classification is told by the state of classification. -/
theorem dispatched_congr (cls : t.cls = s.cls) (p : Pkt) : dispatched p t = dispatched p s := by
  have same : dispatched p t = dispatched p { s with cls := t.cls } := rfl
  rw [same, cls]

theorem exec_fsend_sent (at_ : seqAt n s = true) (rd ra rb : BitVec 5) (least : 14 ≤ bits ((s.seq n).reg ra) 0 16)
    (most : bits ((s.seq n).reg ra) 0 16 ≤ 2048) (classified : bit ((s.seq n).reg rb) 0 = false)
    (active : s.sliceState (seqOf n s) = .active) (free : s.cls.waiting = []) (lanes : lanesIn s ≠ []) :
    After (exec (.fsend n rd ra rb) s) fun t => keeps [.cls, .buf, .free, .seqs, .ctrs, .regs, .hdrs, .links] s t ∧
      seqStepped n ({ s.seq n with pc := ((s.seq n).pc + 4) % 2 ^ 32 }.setReg rd.toNat 0) s t ∧
      ∃ p, p.bytes = padFrame ((s.seq n).txbuf.read 0 (bits ((s.seq n).reg ra) 0 16)) ∧ p.slice = seqOf n s ∧ p.src = 10 ∧
        p.cell = .clean ∧ t.cls = dispatched p s := by
  obtain ⟨-, hn, -⟩ := seqAt_iff.mp at_
  refine after_seqExec at_ rfl rfl fun fetched => ?_
  obtain ⟨d, cached⟩ := id fetched.1
  obtain ⟨-, -, -, -, -, states, -⟩ := id fetched
  have cls : (fetchLine n s).cls = s.cls := seqFetched_keeps fetched .cls (by decide)
  have lanes' : lanesIn (fetchLine n s) ≠ [] := by
    have same : lanesIn (fetchLine n s) = lanesIn s := by simp only [lanesIn, laneIn, State.lane, cls]
    rwa [same]
  obtain ⟨p, sent, bytes, slice, src, cell⟩ := seqSend_ingress (a := seqReg n ra (fetchLine n s)) (b := seqReg n rb (fetchLine n s))
    (seqMemClean_of_fetched at_ fetched) (seqFetched_seqOf hn fetched) (by rw [seqReg_of_fetched fetched]) least most
    (by rwa [seqReg_of_fetched fetched]) ((states _).trans active)
  obtain ⟨placed, parts⟩ := dispatch_eq (p := p) (by rw [cls]; exact free) lanes'
  simp only [sent]
  obtain ⟨parts, stepped, -, held⟩ := sendDone hn fetched (i := 2) (k := 1) (by decide) parts (by simp) rd (word 0)
  refine ⟨keeps_mono parts (by decide), stepped, p, ?_, slice, src, cell, held.trans (placed.trans ?_)⟩
  · rw [bytes, cached]
  · exact dispatched_congr cls p

/-! ### Check channels (R461, R481 to R484) -/

/-- An instruction on a channel of the sequencer's own slice. -/
theorem seqChan_own {i : Instr} {c : Nat} {legal : Bool} {f : Nat → State → State} {P : State → Prop} (at_ : seqAt n s = true)
    (row : exec i s = whenOn s (.next (seqChan n c legal f s))) (ok : legal = true) (own : s.chkSlice c = s.seqSlice n)
    (body : seqFetched n s (fetchLine n s) → P (f n (fetchLine n s))) : After (exec i s) P := by
  obtain ⟨-, hn, -⟩ := seqAt_iff.mp at_
  refine after_seqExec at_ row ok fun fetched => ?_
  simp only [seqFetched_chkSlice hn fetched, seqFetched_seqSlice hn fetched, own, if_true]
  exact body fetched

/-- An instruction on a channel of another slice stops with fault SEP. -/
theorem seqChan_foreign {i : Instr} {c : Nat} {legal : Bool} {f : Nat → State → State} (at_ : seqAt n s = true)
    (row : exec i s = whenOn s (.next (seqChan n c legal f s))) (ok : legal = true) (foreign_ : s.chkSlice c ≠ s.seqSlice n) :
    After (exec i s) fun t => keeps [.nvs, .log, .seqs, .ctrs, .regs, .hdrs, .links] s t ∧ (t.seq n).run = .faulted ∧
      (t.seq n).lastFault = 2 ∧ t.chk = s.chk := by
  obtain ⟨-, hn, -⟩ := seqAt_iff.mp at_
  refine after_seqExec at_ row ok fun fetched => ?_
  simp only [seqFetched_chkSlice hn fetched, seqFetched_seqSlice hn fetched, if_neg foreign_]
  obtain ⟨⟨set, -⟩, parts, -⟩ := seqSep_spec (n := n) (s := fetchLine n s) (seqOf n (fetchLine n s)) 8 (word c)
  have kept := keeps_trans (seqFetched_keeps fetched) parts
  refine ⟨keeps_mono kept (by decide), ?_, ?_, kept .chk (by decide)⟩
  all_goals rw [set]; rfl

/-- An operation of a channel behind a fetch, and the completion of the instruction. -/
theorem chanSet_step {u : State} {c : Nat} {x : Chk} (fetched : seqFetched n s t) (set : chanSet c x t u) :
    keeps [.chk, .seqs, .ctrs, .regs, .hdrs, .links] s (seqNext n u) ∧
      seqStepped n { s.seq n with pc := ((s.seq n).pc + 4) % 2 ^ 32 } s (seqNext n u) ∧ (seqNext n u).chan c = x := by
  obtain ⟨value, -, -, parts⟩ := set
  obtain ⟨d, cached⟩ := cached_of_effect fetched parts (by decide)
  have done := seqNext_step cached
  obtain ⟨stepped, kept⟩ := stepped_of_effect fetched parts (by decide) done
  obtain ⟨-, -, -, -, -, -, parts'⟩ := done
  exact ⟨keeps_mono kept (by decide), stepped, (chan_of_keeps parts' (by decide) c).trans value⟩

theorem exec_cstart_done (at_ : seqAt n s = true) (ra : BitVec 5) {imm : BitVec 16} (own : s.chkSlice (imm.toNat % 8) = s.seqSlice n)
    (small : imm.toNat < 16) (opened : chanClosed (imm.toNat % 8) s = false) : After (exec (.cstart n ra imm) s) fun t =>
      keeps [.chk, .seqs, .ctrs, .regs, .hdrs, .links] s t ∧ seqStepped n { s.seq n with pc := ((s.seq n).pc + 4) % 2 ^ 32 } s t ∧
      t.chan (imm.toNat % 8) = ⟨(if 8 ≤ imm.toNat then crcBytes (chanParam (imm.toNat % 8) s) (chanParam (imm.toNat % 8) s).init
        (beBytes 4 ((s.seq n).reg ra).toNat) else (chanParam (imm.toNat % 8) s).init), .open, false, false, 8 + n, 0⟩ := by
  obtain ⟨-, hn, -⟩ := seqAt_iff.mp at_
  have hc : imm.toNat % 8 < 8 := Nat.mod_lt _ (by decide)
  refine seqChan_own at_ rfl (decide_eq_true small) own fun fetched => ?_
  simp only [seqFetched_chanClosed fetched, opened, Bool.false_eq_true, if_false, seqReg_of_fetched fetched]
  obtain ⟨kept, stepped, value⟩ := chanSet_step fetched (chanStart_spec (imm.toNat % 8) (8 + n)
    (if imm.toNat / 8 = 1 then some ((s.seq n).reg ra) else none) (fetchLine n s))
  refine ⟨kept, stepped, value.trans ?_⟩
  simp only [startedChk, seqFetched_chanParam hn fetched hc]
  by_cases fold : 8 ≤ imm.toNat
  · rw [if_pos (show imm.toNat / 8 = 1 by omega), if_pos fold]
  · rw [if_neg (show ¬ imm.toNat / 8 = 1 by omega), if_neg fold]

theorem exec_cfeed_done (at_ : seqAt n s = true) (ra : BitVec 5) {imm : BitVec 16} (own : s.chkSlice (imm.toNat % 8) = s.seqSlice n)
    {x : Nat} (hx : x ≤ 2) (width : imm.toNat / 8 = 2 * x) (accepted : feedRejected (imm.toNat % 8) (2 ^ x) s = false) :
    After (exec (.cfeed n ra imm) s) fun t =>
      keeps [.chk, .seqs, .ctrs, .regs, .hdrs, .links] s t ∧ seqStepped n { s.seq n with pc := ((s.seq n).pc + 4) % 2 ^ 32 } s t ∧
      (t.chan (imm.toNat % 8)).count = (s.chan (imm.toNat % 8)).count + 2 ^ x ∧
      (t.chan (imm.toNat % 8)).crc = crcBytes (chanParam (imm.toNat % 8) s) (s.chan (imm.toNat % 8)).crc
        (beBytes (2 ^ x) ((s.seq n).reg ra).toNat) := by
  obtain ⟨-, hn, -⟩ := seqAt_iff.mp at_
  have hc : imm.toNat % 8 < 8 := Nat.mod_lt _ (by decide)
  have field : imm.toNat / 16 % 4 = x := by omega
  have legal : (imm.toNat / 64 == 0 && imm.toNat / 8 % 2 == 0 && imm.toNat / 16 != 3) = true := by
    simp only [Bool.and_eq_true, beq_iff_eq, bne_iff_ne, ne_eq]
    omega
  refine seqChan_own at_ rfl legal own fun fetched => ?_
  simp only [field, seqFetched_feedRejected hn fetched hc, accepted, Bool.false_eq_true, if_false, seqReg_of_fetched fetched]
  obtain ⟨kept, stepped, value⟩ := chanSet_step fetched (chanFeed_spec (imm.toNat % 8) (beBytes (2 ^ x) ((s.seq n).reg ra).toNat) (fetchLine n s))
  refine ⟨kept, stepped, ?_, ?_⟩
  · rw [value, fedChk, length_beBytes, seqFetched_chan fetched]
  · rw [value, fedChk, seqFetched_chanParam hn fetched hc, seqFetched_chan fetched]

/-- A CRES that returns the result of a finished computation. -/
theorem chanResult_returned {c : Nat} (complete : (s.chan c).state = .complete) (x : Seq) :
    let v := seqNext n (chanReadEffect c (s.setSeq n x))
    v.seq n = { x with pc := (x.pc + 4) % 2 ^ 32 } ∧ (∀ j, j ≠ n → v.seq j = s.seq j) ∧ v.chan c = { s.chan c with read := true } ∧
      keeps [.chk, .seqs, .ctrs, .regs, .hdrs, .links] s v := by
  intro v
  let u := (s.setSeq n x).setChan c { s.chan c with read := true }
  have run : v = seqNext n u := congrArg (seqNext n) (chanReadEffect_of_complete (s := s.setSeq n x) complete)
  have here : u.seq n = x := State.seq_setSeq_same s n x
  have parts : keeps [.seqs, .chk] s u := keeps_trans (setSeq_keeps n x s) (setChan_keeps c _ _)
  have counted := (seqCount_moves (n := n) (i := 0) (k := 1) (s := u.setSeq n { u.seq n with pc := ((u.seq n).pc + 4) % 2 ^ 32 })).1
  rw [run]
  refine ⟨?_, fun j ne => ?_, ?_, keeps_mono (keeps_trans (keeps_trans parts (setSeq_keeps n _ u)) counted) (by decide)⟩
  · refine (seq_of_keeps counted (by decide) n).trans ((State.seq_setSeq_same u n _).trans ?_)
    rw [here]
  · exact (seq_of_keeps counted (by decide) j).trans ((seq_setSeq_other ne _ u).trans (seq_setSeq_other ne x s))
  · exact (chan_of_keeps counted (by decide) c).trans (State.chan_setChan_same _ c _)

theorem exec_cres_complete (at_ : seqAt n s = true) (rd : BitVec 5) {imm : BitVec 16} (own : s.chkSlice (imm.toNat % 8) = s.seqSlice n)
    (small : imm.toNat < 8) (complete : (s.chan imm.toNat).state = .complete) : After (exec (.cres n rd imm) s) fun t =>
      keeps [.chk, .seqs, .ctrs, .regs, .hdrs, .links] s t ∧
      seqStepped n ({ s.seq n with pc := ((s.seq n).pc + 4) % 2 ^ 32 }.setReg rd.toNat (chanResult imm.toNat s)) s t ∧
      t.chan imm.toNat = { s.chan imm.toNat with read := true } := by
  obtain ⟨-, hn, -⟩ := seqAt_iff.mp at_
  refine seqChan_own at_ rfl (decide_eq_true (by omega)) own fun fetched => ?_
  have direct : ¬ imm.toNat / 8 = 1 := by omega
  have state : ((fetchLine n s).chan imm.toNat).state = .complete := by rw [seqFetched_chan fetched, complete]
  have ready : chanWaits imm.toNat (fetchLine n s) = false := by simp [chanWaits, state]
  have result : chanRead imm.toNat (fetchLine n s) = chanResult imm.toNat s := by
    rw [chanRead_of_live (.inl state), chanResult, chanResult, seqFetched_chanParam hn fetched small, seqFetched_chan fetched]
  simp only [Nat.mod_eq_of_lt small, state, reduceCtorEq, if_false, if_neg direct, ready, Bool.false_eq_true, result]
  obtain ⟨d, cached⟩ := id fetched.1
  obtain ⟨-, others, -⟩ := id fetched
  obtain ⟨here, others', value, kept⟩ := chanResult_returned (n := n) state
    (((fetchLine n s).seq n).setReg rd.toNat (chanResult imm.toNat s))
  refine ⟨keeps_mono (keeps_trans (seqFetched_keeps fetched) kept) (by decide),
    ⟨here.trans ?_, fun j ne => (others' j ne).trans (others j ne)⟩, value.trans (by rw [seqFetched_chan fetched])⟩
  refine Eq.trans ?_ (Seq.setReg_frame (s.seq n) rd.toNat _ _ _ d)
  have held : ((seqNext n (chanReadEffect imm.toNat (setSeqReg n rd (chanResult imm.toNat s) (fetchLine n s)))).seq n).cache =
    (((fetchLine n s).seq n).setReg rd.toNat (chanResult imm.toNat s)).cache := (congrArg Seq.cache here).trans rfl
  rw [held, Seq.setReg_pc, cached]

theorem exec_cres_open (at_ : seqAt n s = true) (rd : BitVec 5) {imm : BitVec 16} (own : s.chkSlice (imm.toNat % 8) = s.seqSlice n)
    (small : imm.toNat < 8) (state : (s.chan imm.toNat).state = .open) (bounded : chanLen imm.toNat s ≠ 0) :
    After (exec (.cres n rd imm) s) fun t =>
      seqStepped n { s.seq n with run := .waiting, wait := some (.check rd.toNat imm.toNat) } s t ∧
        keeps [.chk, .seqs, .ctrs, .regs, .hdrs, .links] s t := by
  obtain ⟨-, hn, -⟩ := seqAt_iff.mp at_
  refine seqChan_own at_ rfl (decide_eq_true (by omega)) own fun fetched => ?_
  have waits : chanWaits imm.toNat (fetchLine n s) = true := by
    simp [chanWaits, seqFetched_chan fetched, seqFetched_chanLen hn fetched small, state, bounded]
  have direct : ¬ imm.toNat / 8 = 1 := by omega
  simp only [Nat.mod_eq_of_lt small, seqFetched_chan fetched, state, reduceCtorEq, if_false, if_neg direct, waits, if_true]
  obtain ⟨stepped, kept⟩ := waiting_of_fetched fetched (.check rd.toNat imm.toNat)
  exact ⟨stepped, keeps_mono kept (by decide)⟩

/-! ### Inconsistent instructions (R469) -/

/-- A sequencer that stops with ILLEGAL at `at_`, and whose PC is then left at a free value. -/
theorem illegalStop_spec (n here free : Nat) (u : State) :
    let f := seqFault n 1 (u.setSeq n { u.seq n with pc := here })
    let t := f.setSeq n { f.seq n with pc := free }
    (∀ j, j ≠ n → t.seq j = u.seq j) ∧ (t.seq n).run = .faulted ∧ (t.seq n).lastFault = 1 ∧ (t.seq n).faultPc = here := by
  intro f t
  obtain ⟨⟨set, others⟩, -⟩ := seqFault_spec n (code := 1) (by decide) (u.setSeq n { u.seq n with pc := here })
  have stopped : t.seq n = { f.seq n with pc := free } := State.seq_setSeq_same f n _
  rw [State.seq_setSeq_same] at set
  refine ⟨fun j ne => (seq_setSeq_other ne _ f).trans ((others j ne).trans (seq_setSeq_other ne _ u)), ?_, ?_, ?_⟩
  all_goals rw [stopped, set]; rfl

/-- The free values of an inconsistent instruction leave the other sequencers alone. -/
theorem freeValues_spec {q : Seq} (running : q.run = .running) (n b : Nat) (a v : Nat → Nat) (s : State) :
    let u := (List.range 8).foldl (fun s i => s.setCtr (a i) (v i)) (({ s with free := b } : State).setSeq n q)
    (∀ j, j ≠ n → u.seq j = s.seq j) ∧ (u.seq n).run = .running := by
  intro u
  have kept : keeps [.ctrs] (({ s with free := b } : State).setSeq n q) u := (moves_foldl (fun _ _ => setCtr_moves) moves_rfl).1
  refine ⟨fun j ne => (seq_of_keeps kept (by decide) j).trans (seq_setSeq_other ne q _), ?_⟩
  rw [seq_of_keeps kept (by decide) n, State.seq_setSeq_same, running]

/-- After an inconsistent word the sequencer goes on or has stopped with ILLEGAL. -/
theorem seqIllegal_spec (n : Nat) (s : State) (running : (s.seq n).run = .running) :
    let t := seqIllegal n s
    (∀ j, j ≠ n → t.seq j = s.seq j) ∧
      ((t.seq n).run = .running ∨ (t.seq n).run = .faulted ∧ (t.seq n).lastFault = 1 ∧ (t.seq n).faultPc = (s.seq n).pc) := by
  unfold seqIllegal
  dsimp only
  generalize taken : List.foldl _ _ (List.range 8) = u
  have values : (∀ j, j ≠ n → u.seq j = s.seq j) ∧ (u.seq n).run = .running := by
    rw [← taken]
    refine freeValues_spec ?_ n _ _ _ s
    exact running
  obtain ⟨others, run⟩ := values
  split
  · obtain ⟨others', stopped⟩ := illegalStop_spec n (s.seq n).pc _ u
    exact ⟨fun j ne => (others' j ne).trans (others j ne), .inr stopped⟩
  · exact ⟨others, .inl run⟩

/-- A word that no instruction has. -/
theorem exec_illegalInstruction_done (at_ : seqAt n s = true) {w : Word} (unknown : seqDecode n w.toNat = none) :
    After (exec (.illegalInstruction n w) s) fun t =>
      keeps [.free, .nvs, .log, .seqs, .ctrs, .regs, .hdrs, .links] s t ∧ (∀ j, j ≠ n → t.seq j = s.seq j) ∧ t.dram = s.dram ∧
        ((t.seq n).run = .running ∨ (t.seq n).run = .faulted ∧ (t.seq n).lastFault = 1 ∧ (t.seq n).faultPc = (s.seq n).pc) := by
  obtain ⟨running, hn, ready, -⟩ := seqAt_iff.mp at_
  obtain ⟨fetched, run⟩ := seqExec_of_seqAt at_ false (fun _ s => s)
  rw [if_neg Bool.false_ne_true] at run
  obtain ⟨d, cached⟩ := id fetched.1
  obtain ⟨-, others, -⟩ := id fetched
  obtain ⟨others', ends⟩ := seqIllegal_spec n (fetchLine n s) (by rw [cached]; exact (seqReady_iff.mp ready).1)
  have kept := keeps_trans (seqFetched_keeps fetched) (seqIllegal_moves (n := n) (s := fetchLine n s)).1
  refine ⟨seqIllegal n (fetchLine n s), ?_, keeps_mono kept (by decide), fun j ne => (others' j ne).trans (others j ne),
    kept .dram (by decide), ?_⟩
  · have row : exec (.illegalInstruction n w) s = execIllegalInstruction n w s := rfl
    rw [row, execIllegalInstruction, whenOn_running running, unknown, ← run]
  · rwa [cached] at ends

/-- The line of PC arrives in the cache. -/
theorem exec_icacheFill_done (at_ : seqAt n s = true) (miss : (s.seq n).cache.any (fun e => e.1 == (s.seq n).pc / 64) = false) :
    After (exec (.icacheFill n) s) fun t => keeps [.seqs, .ctrs, .regs, .hdrs, .links] s t ∧ seqStepped n (s.seq n) s t ∧
      (t.seq n).cache.head? = some ((s.seq n).pc / 64,
        s.dramBytes ((s.region (seqOf n s)).1 + (s.rp (pSeq n) 0x110).toNat + 64 * ((s.seq n).pc / 64)) 64) := by
  obtain ⟨running, hn, ready, inside, here, clean⟩ := seqAt_iff.mp at_
  rw [lineHere, miss, Bool.false_or, decide_eq_true_eq] at here
  obtain ⟨fetched, cache⟩ := fillLine_fetched (n := n) clean here
  obtain ⟨d, cached⟩ := id fetched.1
  obtain ⟨-, others, -⟩ := id fetched
  refine ⟨fillLine n ((s.seq n).pc / 64) s, ?_, seqFetched_keeps fetched, ⟨?_, others⟩, by rw [cache]; rfl⟩
  · have row : exec (.icacheFill n) s = execIcacheFill n s := rfl
    rw [row, execIcacheFill, whenOn_running running]
    simp only [Nat.mod_eq_of_lt hn, ready, miss, Nat.not_le.mpr inside, Bool.not_true, decide_false, Bool.or_self, Bool.false_eq_true,
      if_false]
  · rw [cached]

/-- A register is written whatever PC holds. -/
theorem Seq.setReg_move (q : Seq) (r : Nat) (v : Word) (pc : Nat) : { q.setReg r v with pc := pc } = { q with pc := pc }.setReg r v := by
  unfold Seq.setReg
  split <;> rfl

/-! ### What a sequencer waited for (R462, R464, R484) -/

section
variable (running : s.running = true) (hn : n < 8)
include running hn

theorem exec_ldxReturn_done {rd a : Nat} (wait : (s.seq n).wait = some (.load rd a)) : After (exec (.ldxReturn n) s)
    (seqDone n ({ s.seq n with run := .running, wait := none, pc := ((s.seq n).pc + 4) % 2 ^ 32 }.setReg rd (s.dramWord a)) s) := by
  have row : exec (.ldxReturn n) s = execLdxReturn n s := rfl
  rw [row, execLdxReturn, whenOn_running running]
  simp only [Nat.mod_eq_of_lt hn, wait]
  obtain ⟨set, rest⟩ := seqDone_of_setSeq (seqGoto_done n ((s.seq n).pc + 4)
    (s.setSeq n ({ s.seq n with run := .running, wait := none }.setReg rd (s.dramWord a))))
  refine ⟨_, rfl, ?_⟩
  rw [seqNext, State.seq_setSeq_same, Seq.setReg_pc]
  refine ⟨set.trans ?_, rest⟩
  rw [State.seq_setSeq_same]
  exact Seq.setReg_frame { s.seq n with run := .running, wait := none } _ _ _ _ (s.seq n).cache

theorem exec_waitReturn_hit {rd i : Nat} (wait : (s.seq n).wait = some (.event rd i)) (hit : seqEvents n s &&& i ≠ 0) :
    After (exec (.waitReturn n) s) (seqDone n ({ s.seq n with
      run := .running, wait := none, pc := ((s.seq n).pc + 4) % 2 ^ 32
      events := ((s.seq n).events % 16) &&& (15 - (seqEvents n s &&& i) % 16) }.setReg rd (word (seqEvents n s &&& i))) s) := by
  have row : exec (.waitReturn n) s = execWaitReturn n s := rfl
  rw [row, execWaitReturn, whenOn_running running]
  simp only [Nat.mod_eq_of_lt hn, wait, if_pos hit]
  exact ⟨_, rfl, setSeq_next (q := s.seq n) (d := (s.seq n).cache) rfl (wokenSeq rd (seqEvents n s &&& i)) (Seq.setReg_pc _ _ _)
    fun c => wokenSeq_frame _ _ _ _ _ _⟩

theorem exec_waitReturn_idle {rd i : Nat} (wait : (s.seq n).wait = some (.event rd i)) (hit : seqEvents n s &&& i = 0) :
    exec (.waitReturn n) s = .next s := by
  have row : exec (.waitReturn n) s = execWaitReturn n s := rfl
  rw [row, execWaitReturn, whenOn_running running]
  simp only [Nat.mod_eq_of_lt hn, wait, hit, ne_eq, not_true_eq_false, if_false]

theorem exec_cresReturn_done {rd c : Nat} (wait : (s.seq n).wait = some (.check rd c)) (complete : (s.chan c).state = .complete) :
    After (exec (.cresReturn n) s) fun t => keeps [.chk, .seqs, .ctrs, .regs, .hdrs, .links] s t ∧
      t.seq n = { s.seq n with run := .running, wait := none, pc := ((s.seq n).pc + 4) % 2 ^ 32 }.setReg rd (chanResult c s) ∧
      t.chan c = { s.chan c with read := true } := by
  have row : exec (.cresReturn n) s = execCresReturn n s := rfl
  have ready : chanWaits c s = false := by simp [chanWaits, complete]
  rw [row, execCresReturn, whenOn_running running]
  simp only [Nat.mod_eq_of_lt hn, wait, ready, Bool.false_eq_true, if_false, chanRead_of_live (.inl complete)]
  obtain ⟨here, -, value, kept⟩ := chanResult_returned (n := n) complete
    ({ s.seq n with run := .running, wait := none }.setReg rd (chanResult c s))
  refine ⟨_, rfl, kept, here.trans ?_, value⟩
  rw [Seq.setReg_pc]
  exact Seq.setReg_move { s.seq n with run := .running, wait := none } _ _ _

theorem exec_cresReturn_waits {rd c : Nat} (wait : (s.seq n).wait = some (.check rd c)) (waits : chanWaits c s = true) :
    exec (.cresReturn n) s = .next s := by
  have row : exec (.cresReturn n) s = execCresReturn n s := rfl
  rw [row, execCresReturn, whenOn_running running]
  simp only [Nat.mod_eq_of_lt hn, wait, waits, if_true]

/-- At the end of its code a sequencer stops with fault PC (R470). -/
theorem exec_add_beyond (ready : seqReady n s = true) (beyond : s.fld (regAddr (pSeq n) 0x114) 0 25 ≤ (s.seq n).pc) (rd ra rb : BitVec 5) :
    After (exec (.add n rd ra rb) s) fun t => keeps [.nvs, .log, .seqs, .ctrs, .regs, .hdrs, .links] s t ∧
      t.seq n = { s.seq n with run := .faulted, lastFault := 3, faultPc := (s.seq n).pc, wait := none } ∧
      intRawBit t (pSeq n) 1 = true := by
  obtain ⟨⟨set, -⟩, parts, -⟩ := seqFault_spec n (code := 3) (by decide) s
  have row : exec (.add n rd ra rb) s = execAdd n rd ra rb s := rfl
  refine ⟨seqFault n 3 s, ?_, keeps_mono parts (by decide), set, seqFault_raised (by decide)⟩
  rw [row, execAdd, whenOn_running running, seqAlu, seqExec]
  simp only [Nat.mod_eq_of_lt hn, ready, beyond, Bool.not_true, Bool.false_eq_true, if_false, if_true]

end
end

/-- Settles O57: at an instruction boundary each instruction is the fetch, its own effect and the completion; a return is the completion of
the instruction that waited. -/
theorem sequencersActOnTheirSlice : Obligations.SequencersActOnTheirSlice := by
  refine ⟨fun n rd ra rb imm s at_ => ?_, fun n s running hn => ?_⟩
  · refine ⟨exec_rdtime_done at_ rd, exec_tset_done at_ ra, fun least small => ⟨exec_wait_hit at_ rd least small,
      exec_wait_idle at_ rd least small⟩, exec_wdog_done at_, exec_evt_done at_ imm, exec_cnt_done at_ ra, exec_rxhead_done at_ rd,
      exec_rxfree_done at_, exec_halt_done at_, ⟨exec_fsend_short at_ rd ra rb, exec_fsend_sent at_ rd ra rb⟩, fun own => ⟨?_, ?_, ?_, ?_⟩, ?_,
      fun w => exec_illegalInstruction_done at_, exec_icacheFill_done at_⟩
    · exact exec_cstart_done at_ ra own
    · intro x mem
      have bound : x ≤ 2 := by
        simp only [List.mem_cons, List.not_mem_nil, or_false] at mem
        omega
      exact exec_cfeed_done at_ ra own bound
    · exact exec_cres_complete at_ rd own
    · exact exec_cres_open at_ rd own
    · intro foreign_ small c mem
      simp only [List.mem_cons, List.not_mem_nil, or_false] at mem
      obtain rfl | rfl := mem
      · exact seqChan_foreign at_ rfl (decide_eq_true small) foreign_
      · exact seqChan_foreign at_ rfl (decide_eq_true small) foreign_
  · exact ⟨fun rd a => exec_ldxReturn_done running hn, fun rd i wait => ⟨exec_waitReturn_hit running hn wait, exec_waitReturn_idle running hn wait⟩,
      fun rd c wait => ⟨exec_cresReturn_done running hn wait, exec_cresReturn_waits running hn wait⟩, exec_add_beyond running hn⟩

end Sys2Proof.Machine

/-!
PROOFS. Frames from the line (R250, R251, R255, R257, R275, R413): what the fabric does with the oldest delineated frame of a feeder.
-/

namespace Sys2Proof.Machine

section
variable {f : AB} {e : Nat} {s : State}

theorem sduOf_setSdu_same (x : Option Sdu) : sduOf f e (setSdu f e x s) = x := by
  simp [sduOf, setSdu, Pair.get_set_same, tblGet_tblSet_same]

theorem sduOf_setSdu_other {j : Nat} (h : j ≠ e) (x : Option Sdu) : sduOf f j (setSdu f e x s) = sduOf f j s := by
  simp [sduOf, setSdu, Pair.get_set_same, tblGet_tblSet_other _ _ _ h]

theorem setSdu_xq (x : Option Sdu) : ((setSdu f e x s).lfr.get f).xq = (s.lfr.get f).xq := by
  simp [setSdu, Pair.get_set_same]

theorem setSdu_keeps (x : Option Sdu) : keeps [.lfr] s (setSdu f e x s) := (setSdu_moves (s := s)).1

/-- The state in which the fabric has taken the oldest frame from the queue of a feeder. -/
def taken (f : AB) (rest : List XFrame) (s : State) : State := s.setLfr f { s.lfr.get f with xq := rest }

theorem taken_keeps (rest : List XFrame) (s : State) : keeps [.lfr] s (taken f rest s) := (setLfr_moves (s := s)).1

theorem sduOf_taken (g : AB) (rest : List XFrame) (j : Nat) : sduOf g j (taken f rest s) = sduOf g j s := by
  by_cases same : g = f
  · subst same
    simp [sduOf, taken, State.setLfr]
  · simp [sduOf, taken, State.setLfr, Pair.get_set_other _ same]

theorem taken_xq (rest : List XFrame) : ((taken f rest s).lfr.get f).xq = rest := by simp [taken, State.setLfr]

/-- A frame for a Port-ID entry is handed to the reassembly of the entry. -/
theorem exec_xgemFrameReceive {x : XFrame} {w : Word} {rest : List XFrame} (on : s.running = true) (full : Bool)
    (queue : (s.lfr.get f).xq = x :: rest) (dest : x.dest = .entry e w) :
    exec (.xgemFrameReceive f full) s = .next (takeXgem f e (bits w 16 4) (bit w 21) false full x (taken f rest s)) := by
  have row : exec (.xgemFrameReceive f full) s = execXgemFrameReceive f full s := rfl
  rw [row, execXgemFrameReceive, whenOn_running on, queue]
  simp only [dest, taken]

/-! ### The reassembly of an entry (R250, R251) -/

/-- A clear frame with no reassembly open is one, or ends as a whole SDU. -/
theorem takeXgem_clear {x : XFrame} {k : Nat} (none_ : sduOf f e s = none) (whole : x.damaged = false) (clear : x.keyIdx = 0)
    (key : x.key = none) (short : x.payload.length ≤ 9600) (still : noFlip s = true) :
    takeXgem f e k false false false x s = if x.lf = true then deliverFrame f k x.at_ false x.payload (setSdu f e none s)
      else setSdu f e (some ⟨k, x.payload, x.at_, false, false, false⟩) s := by
  cases last : x.lf <;>
    simp [takeXgem, none_, whole, clear, key, last, transit_of_noFlip _ still, Nat.not_lt.mpr short]

/-- A clear frame of an entry that requires encryption (R257). -/
theorem takeXgem_unencrypted {x : XFrame} {k : Nat} (none_ : sduOf f e s = none) (whole : x.damaged = false) (clear : x.keyIdx = 0)
    (last : x.lf = true) : takeXgem f e k true false false x s =
      setSdu f e none (dropAt .lineClear k 8 none 0 (cryCount (4 + f.num) s)) := by
  have open_ : sduOf f e (dropAt .lineClear k 8 none 0 (cryCount (4 + f.num) s)) = none := by
    have kept := keeps_trans (cryCount_moves (i := 4 + f.num) (s := s)).1
      (dropAt_moves (r := .lineClear) (k := k) (q := 8) (p := none) (detail := 0) (s := cryCount (4 + f.num) s)).1
    have lfr : (dropAt .lineClear k 8 none 0 (cryCount (4 + f.num) s)).lfr = s.lfr := kept .lfr (by decide)
    rw [sduOf, lfr]
    exact none_
  simp [takeXgem, none_, whole, clear, last, dropSdu, open_, deaden]

/-- A frame that an edge FIFO dropped (R275, R413). -/
theorem takeXgem_full {x : XFrame} {k : Nat} {enc : Bool} (none_ : sduOf f e s = none) (last : x.lf = true) :
    takeXgem f e k enc false true x s =
      setSdu f e none (dropUnowned .edgeOvf (raise pPwr 6 (s.bump (regAddr pPwr (0x400 + 4 * f.num)) 1))) := by
  simp [takeXgem, none_, last, deaden]

/-! ### What a whole SDU comes to (R251, R255) -/

theorem length_fcsBytes (l : List Byte) : (fcsBytes l).length = 4 := by
  rw [fcsBytes, List.length_reverse, length_beBytes]

theorem deliverFrame_short {k at_ : Nat} {bad : Bool} {l : List Byte} (short : l.length < 4) :
    deliverFrame f k at_ bad l s = dropAt .lineFcs k 8 none 0 s := if_pos (.inl short)

/-- The frame in front of a good FCS. -/
theorem deliverFrame_good (k at_ : Nat) (bad : Bool) (l : List Byte) : deliverFrame f k at_ bad (l ++ fcsBytes l) s =
    if dataFeeder s ≠ some f then dropAt .lineStandby k 8 none 0 s
    else ingress 8 k l (fun p => { p with
      sec := word (at_ / secUnit), ns := word (at_ / nsUnit % 1000000000), frac := at_ / 2 ^ 16 % 2 ^ 16
      cell := if bad then .poisoned ⟨0x80 + f.num, 0, 0, 0⟩ else .clean }) s := by
  have size : (l ++ fcsBytes l).length = l.length + 4 := by rw [List.length_append, length_fcsBytes]
  have good : ¬ ((l ++ fcsBytes l).length < 4 ∨ fcsBytes ((l ++ fcsBytes l).take l.length) ≠ (l ++ fcsBytes l).drop l.length) := by
    rw [size, List.take_left, List.drop_left]
    simp
  simp only [deliverFrame, size, Nat.add_sub_cancel]
  rw [size] at good
  rw [if_neg good, List.take_left]

/-- A good SDU of the feeder that carries data goes to classification in its slice. -/
theorem deliverFrame_dispatched {k at_ : Nat} {l : List Byte} (data : dataFeeder s = some f) (active : s.sliceState k = .active) :
    ∃ p, deliverFrame f k at_ false (l ++ fcsBytes l) s = dispatch p s ∧ p.bytes = l ∧ p.slice = k ∧ p.src = 8 ∧ p.cell = .clean ∧
      p.sec = word (at_ / secUnit) := by
  have line : ¬ ((8 < 8 ∨ 8 = 9) ∧ s.mode.code = 1 ∧ bit (s.slc k 0x100) 0 = false) := by simp
  refine ⟨{ mkPkt 8 k l s with
    sec := word (at_ / secUnit), ns := word (at_ / nsUnit % 1000000000), frac := at_ / 2 ^ 16 % 2 ^ 16, cell := .clean }, ?_,
    rfl, rfl, rfl, rfl, rfl⟩
  rw [deliverFrame_good, if_neg (not_not.mpr data)]
  simp only [ingress, active, ne_eq, not_true_eq_false, if_neg line, if_false]
  rfl

end

section
variable {f : AB} {x : XFrame} {e : Nat} {w : Word} {rest : List XFrame} {s t : State}

/-- A discard behind the end of a reassembly leaves the queues and the reassemblies of the feeder. -/
theorem dropped_spec (r : Reason) (k : Nat) :
    let t := dropAt r k 8 none 0 (setSdu f e none (taken f rest s))
    keeps [.lfr, .ctrs, .regs, .hdrs, .links, .buf] s t ∧ (counted r k 8 s t ∧ (t.lfr.get f).xq = rest ∧
      keepsRegs (dropRegs r k 8) s t ∧ keepsHdrs [pSlice k 1] s t) ∧ sduOf f e t = none := by
  intro t
  obtain ⟨count, regs, hdrs, parts⟩ := dropAt_spec r k 8 none 0 (setSdu f e none (taken f rest s))
  have lfr : t.lfr = (setSdu f e none (taken f rest s)).lfr := parts .lfr (by decide)
  refine ⟨keeps_mono (keeps_trans (keeps_trans (taken_keeps rest s) (setSdu_keeps none)) parts) (by decide),
    ⟨count, ?_, regs, hdrs⟩, ?_⟩
  · rw [lfr, setSdu_xq, taken_xq]
  · rw [sduOf, lfr]
    exact sduOf_setSdu_same none

theorem dropUnowned_spec (r : Reason) (s : State) :
    (dropUnowned r s).ctr (unownedAddr r.code) = (s.ctr (unownedAddr r.code) + 1) % 2 ^ 40 ∧
      (∀ a, a ≠ unownedAddr r.code → (dropUnowned r s).ctr a = s.ctr a) ∧
      keepsRegs [regAddr pDrp (0x130 + 4 * (r.code / 32)), regAddr pDrp 0x100] s (dropUnowned r s) :=
  ⟨countWide_ctr _ _ _ _ _ _, fun _ ne => countWide_ctr_other ne _ _ _ _ s,
    keepsRegs_trans (countWide_keepsRegs _ _ _ _ _ _ _) (wr_keepsRegs _ _ _)⟩

/-- Counters of a slice's discards are none of the CRY page's and none of the unowned ones. -/
theorem censusAddr_ne (k r q : Nat) : (∀ i, censusAddr k r q ≠ regAddr pCry (0x200 + 8 * i) ∨ 0x10000 ≤ i) ∧
    (∀ c < 0x40, censusAddr k r q ≠ unownedAddr c) := by
  refine ⟨fun i => ?_, fun c hc => ?_⟩
  · simp only [censusAddr, regAddr, pCry, pSlice]
    split <;> omega
  · simp only [censusAddr, unownedAddr, regAddr, pDrp, pSlice]
    split <;> omega

/-- A discard by an edge FIFO is unowned. -/
theorem edgeDropped_spec :
    let t := setSdu f e none (dropUnowned .edgeOvf (raise pPwr 6 ((taken f rest s).bump (regAddr pPwr (0x400 + 4 * f.num)) 1)))
    keeps [.lfr, .ctrs, .regs, .hdrs, .links] s t ∧ t.rp pPwr (0x400 + 4 * f.num) = s.rp pPwr (0x400 + 4 * f.num) + 1 ∧
      t.ctr (unownedAddr Reason.edgeOvf.code) = (s.ctr (unownedAddr Reason.edgeOvf.code) + 1) % 2 ^ 40 ∧
      (∀ (q : Nat) (r : Reason), t.ctr (censusAddr q r.code 8) = s.ctr (censusAddr q r.code 8)) ∧ (t.lfr.get f).xq = rest ∧
      sduOf f e t = none := by
  intro t
  let u := raise pPwr 6 ((taken f rest s).bump (regAddr pPwr (0x400 + 4 * f.num)) 1)
  have marked : keeps [.regs, .hdrs, .links] (taken f rest s) u := (raise_moves.after rfl <| bump_moves.within rfl : moves _ _ u).1
  have dropped : keeps [.regs, .ctrs, .hdrs, .links] u (dropUnowned .edgeOvf u) := (dropUnowned_moves (s := u)).1
  obtain ⟨count, others, regs⟩ := dropUnowned_spec .edgeOvf u
  have kept := keeps_trans marked dropped
  have lfr : (dropUnowned .edgeOvf u).lfr = (taken f rest s).lfr := kept .lfr (by decide)
  have ctr (a : Nat) : u.ctr a = s.ctr a := ctr_of_keeps marked (by decide) a
  refine ⟨keeps_mono (keeps_trans (keeps_trans (taken_keeps rest s) kept) (setSdu_keeps none)) (by decide), ?_, ?_, fun q r => ?_, ?_,
    sduOf_setSdu_same none⟩
  · have fifo : regAddr pPwr (0x400 + 4 * f.num) ∉ [regAddr pDrp (0x130 + 4 * (Reason.edgeOvf.code / 32)), regAddr pDrp 0x100] := by
      cases f <;> decide
    have plus : u.rd (regAddr pPwr (0x400 + 4 * f.num)) = s.rd (regAddr pPwr (0x400 + 4 * f.num)) + 1 :=
      (raise_rd _ _ _ _).trans (State.rd_wr_same (taken f rest s) _ _)
    have same : t.rp pPwr (0x400 + 4 * f.num) = (dropUnowned .edgeOvf u).rp pPwr (0x400 + 4 * f.num) :=
      congrFun (rd_of_keeps (setSdu_keeps none) (by decide)) _
    exact same.trans ((regs _ fifo).trans plus)
  · exact count.trans (by rw [ctr])
  · exact (others _ ((censusAddr_ne q r.code 8).2 _ (by decide))).trans (ctr _)
  · rw [setSdu_xq, lfr, taken_xq]

/-- A clear frame that should have been encrypted. -/
theorem clearDropped_spec (k : Nat) :
    let t := setSdu f e none (dropAt .lineClear k 8 none 0 (cryCount (4 + f.num) (taken f rest s)))
    keeps [.lfr, .ctrs, .regs, .hdrs, .links, .buf] s t ∧ counted .lineClear k 8 s t ∧ (t.lfr.get f).xq = rest ∧ sduOf f e t = none := by
  intro t
  let u := cryCount (4 + f.num) (taken f rest s)
  have crypto : keeps [.regs, .ctrs, .hdrs, .links] (taken f rest s) u := (cryCount_moves (s := taken f rest s)).1
  obtain ⟨count, -, -, parts⟩ := dropAt_spec .lineClear k 8 none 0 u
  have kept := keeps_trans crypto parts
  have lfr : (dropAt .lineClear k 8 none 0 u).lfr = (taken f rest s).lfr := kept .lfr (by decide)
  have small : f.num < 2 := by cases f <;> decide
  have before : u.ctr (censusAddr k Reason.lineClear.code 8) = s.ctr (censusAddr k Reason.lineClear.code 8) :=
    countWide_ctr_other (((censusAddr_ne k _ 8).1 (4 + f.num)).resolve_right (by omega)) _ _ _ _ _
  refine ⟨keeps_mono (keeps_trans (keeps_trans (taken_keeps rest s) kept) (setSdu_keeps none)) (by decide),
    Eq.trans count (by rw [before]), ?_, sduOf_setSdu_same none⟩
  rw [setSdu_xq, lfr, taken_xq]

end

/-- Settles O43: the oldest frame opens or ends the reassembly of its entry, and a whole SDU is one discard or one dispatch. -/
theorem lineFramesAreReassembled : Obligations.LineFramesAreReassembled := by
  intro f x e w rest s on still queue dest none_ whole clear key short k dropped
  have before : sduOf f e (taken f rest s) = none := (sduOf_taken f rest e).trans none_
  have taken_ (full : Bool) := exec_xgemFrameReceive on full queue dest
  have plain (enc : bit w 21 = false) := takeXgem_clear (k := k) before whole clear key short (s := taken f rest s) still
  have ends (enc : bit w 21 = false) (last : x.lf = true) : exec (.xgemFrameReceive f false) s =
      .next (deliverFrame f k x.at_ false x.payload (setSdu f e none (taken f rest s))) := by
    rw [taken_, enc, plain enc, if_pos last]
  refine ⟨fun enc first => ?_, fun enc last small => ?_, fun enc last l good idle => ?_, fun enc last l good data active free lanes => ?_,
    fun enc last => ?_, fun last => ?_⟩
  · refine ⟨setSdu f e (some ⟨k, x.payload, x.at_, false, false, false⟩) (taken f rest s), ?_, sduOf_setSdu_same _, ?_, fun j ne => ?_,
      fun _ _ => rfl, keeps_mono (keeps_trans (taken_keeps rest s) (setSdu_keeps _)) (by decide)⟩
    · rw [taken_, enc, plain enc, if_neg (by simp [first])]
    · rw [setSdu_xq, taken_xq]
    · rw [sduOf_setSdu_other ne, sduOf_taken]
  · exact ⟨_, ends enc last, by rw [deliverFrame_short small]; exact dropped_spec .lineFcs k⟩
  · refine ⟨_, ends enc last, ?_⟩
    have off : dataFeeder (setSdu f e none (taken f rest s)) ≠ some f := idle
    rw [good, deliverFrame_good, if_pos off]
    exact dropped_spec .lineStandby k
  · obtain ⟨p, run, bytes, slice, src, cell, sec⟩ := deliverFrame_dispatched (f := f) (at_ := x.at_) (l := l)
      (s := setSdu f e none (taken f rest s)) data active
    obtain ⟨placed, parts⟩ := dispatch_eq (p := p) (s := setSdu f e none (taken f rest s)) free lanes
    refine ⟨_, ends enc last, p, bytes, slice, src, cell, sec, ?_⟩
    rw [good, run]
    have lfr : (dispatch p (setSdu f e none (taken f rest s))).lfr = (setSdu f e none (taken f rest s)).lfr := parts .lfr (by decide)
    have kept := keeps_trans (keeps_trans (taken_keeps rest s) (setSdu_keeps none)) parts
    refine ⟨placed.trans (dispatched_congr rfl p), ?_, ?_, keepsRegs_of_keeps kept (by decide), keeps_mono kept (by decide)⟩
    · rw [lfr, setSdu_xq, taken_xq]
    · rw [sduOf, lfr]
      exact sduOf_setSdu_same none
  · exact ⟨_, by rw [taken_, enc, takeXgem_unencrypted before whole clear last], clearDropped_spec k⟩
  · exact ⟨_, by rw [taken_, takeXgem_full before last], edgeDropped_spec⟩

end Sys2Proof.Machine

/-!
PROOFS. The time unit and the Lantern (R430 to R433, R442 to R446, R448).
-/

namespace Sys2Proof.Machine

/-! ### Signed fields -/

theorem signedOf_bounds {w n : Nat} (hw : 0 < w) (h : n < 2 ^ w) : -(2 ^ (w - 1)) ≤ signedOf w n ∧ signedOf w n < 2 ^ (w - 1) := by
  obtain ⟨k, rfl⟩ : ∃ k, w = k + 1 := ⟨w - 1, by omega⟩
  have top : (2 : Nat) ^ (k + 1) = 2 * 2 ^ k := by rw [Nat.pow_succ, Nat.mul_comm]
  have cast : (2 : Int) ^ k = ((2 ^ k : Nat) : Int) := by push_cast; rfl
  simp only [signedOf, Nat.add_sub_cancel, cast, top, Int.ofNat_eq_natCast]
  split <;> omega

theorem toSigned_signedOf {w n : Nat} (h : n < 2 ^ w) : toSigned w (signedOf w n) = n := by
  have small : (n : Int) % ((2 ^ w : Nat) : Int) = n := Int.emod_eq_of_lt (by omega) (by omega)
  unfold toSigned signedOf
  split
  · exact (congrArg Int.toNat small).trans (Int.toNat_natCast n)
  · have wrap : ((n : Int) - ((2 ^ w : Nat) : Int)) % ((2 ^ w : Nat) : Int) = n := by rw [Int.sub_emod_right, small]
    exact (congrArg Int.toNat wrap).trans (Int.toNat_natCast n)

theorem signedOf_toSigned {w : Nat} {e : Int} (hw : 0 < w) (low : -(2 ^ (w - 1)) ≤ e) (high : e < 2 ^ (w - 1)) :
    signedOf w (toSigned w e) = e ∧ toSigned w e < 2 ^ w := by
  obtain ⟨k, rfl⟩ : ∃ k, w = k + 1 := ⟨w - 1, by omega⟩
  have top : (2 : Nat) ^ (k + 1) = 2 * 2 ^ k := by rw [Nat.pow_succ, Nat.mul_comm]
  have cast : (2 : Int) ^ k = ((2 ^ k : Nat) : Int) := by push_cast; rfl
  simp only [Nat.add_sub_cancel, cast] at low high
  have value : toSigned (k + 1) e = if 0 ≤ e then e.toNat else (e + ((2 ^ (k + 1) : Nat) : Int)).toNat := by
    unfold toSigned
    simp only [Int.ofNat_eq_natCast]
    split
    · rw [Int.emod_eq_of_lt (by omega) (by omega)]
    · rw [← Int.add_emod_right, Int.emod_eq_of_lt (by omega) (by omega)]
  rw [value]
  unfold signedOf
  simp only [Nat.add_sub_cancel, Int.ofNat_eq_natCast]
  split
  · constructor
    · split <;> omega
    · omega
  · constructor
    · split <;> omega
    · omega

theorem clampInt_id {lo hi i : Int} (low : lo ≤ i) (high : i ≤ hi) : clampInt lo hi i = i := by
  rw [clampInt, if_neg (by omega), if_neg (by omega)]

/-! ### The state of the time unit chosen again (R429) -/

section
variable {s t u : State}

/-- What the choice of a state leaves: the Lantern's inputs, the counters but two, and the interrupts that are raised. -/
def tsuCalm (s t : State) : Prop :=
  (t.tsu.edge = s.tsu.edge ∧ t.tsu.goodEdges = s.tsu.goodEdges ∧ t.tsu.lastS = s.tsu.lastS ∧ t.tsu.edgeTold = s.tsu.edgeTold ∧
    t.tsu.extValid = s.tsu.extValid) ∧
  (∀ a, a ≠ regAddr pTsu 0x308 → a ≠ regAddr pTsu 0x338 → t.ctr a = s.ctr a) ∧ ∀ j, intRawBit s pTsu j = true → intRawBit t pTsu j = true

theorem tsuCalm_refl (s : State) : tsuCalm s s := ⟨⟨rfl, rfl, rfl, rfl, rfl⟩, fun _ _ _ => rfl, fun _ h => h⟩

theorem tsuCalm_trans (a : tsuCalm s t) (b : tsuCalm t u) : tsuCalm s u := by
  obtain ⟨⟨a1, a2, a3, a4, a5⟩, actr, araw⟩ := a
  obtain ⟨⟨b1, b2, b3, b4, b5⟩, bctr, braw⟩ := b
  exact ⟨⟨b1.trans a1, b2.trans a2, b3.trans a3, b4.trans a4, b5.trans a5⟩, fun x h h' => (bctr x h h').trans (actr x h h'),
    fun j h => braw j (araw j h)⟩

theorem tsuCalm_setTsu {x : TsuSt} (edge : x.edge = s.tsu.edge) (good : x.goodEdges = s.tsu.goodEdges) (last : x.lastS = s.tsu.lastS)
    (told : x.edgeTold = s.tsu.edgeTold) (ext : x.extValid = s.tsu.extValid) : tsuCalm s (s.setTsu x) :=
  ⟨⟨edge, good, last, told, ext⟩, fun _ _ _ => rfl, fun _ h => h⟩

theorem tsuCalm_regs (kept : keeps [.regs] s t) : tsuCalm s t := by
  have tsu : t.tsu = s.tsu := kept .tsu (by decide)
  refine ⟨by rw [tsu]; exact ⟨rfl, rfl, rfl, rfl, rfl⟩, fun a _ _ => ctr_of_keeps kept (by decide) a, fun j h => ?_⟩
  rwa [intRawBit_of_keeps kept (by decide)]

theorem tsuCalm_raise (i : Nat) (s : State) : tsuCalm s (raise pTsu i s) := by
  have kept := raise_keeps pTsu i s
  have tsu : (raise pTsu i s).tsu = s.tsu := kept .tsu (by decide)
  exact ⟨by rw [tsu]; exact ⟨rfl, rfl, rfl, rfl, rfl⟩, fun a _ _ => ctr_of_keeps kept (by decide) a, fun j h => raise_intRaw_mono _ _ h⟩

theorem tsuCalm_count {i : Nat} (named : i = 1 ∨ i = 7) (s : State) : tsuCalm s (tsuCount i s) := by
  have kept : keeps [.ctrs, .regs, .hdrs, .links] s (tsuCount i s) := (countAt_spec pTsu 0x300 0x130 9 40 i 1 s).2.2.2
  have tsu : (tsuCount i s).tsu = s.tsu := kept .tsu (by decide)
  refine ⟨by rw [tsu]; exact ⟨rfl, rfl, rfl, rfl, rfl⟩, fun a h h' => countWide_ctr_other ?_ _ _ _ _ s, fun j h => countAt_intRaw h⟩
  obtain rfl | rfl := named
  · exact h
  · exact h'

theorem tsuCalm_calAbort (s : State) : tsuCalm s (calAbort s) := by
  unfold calAbort
  split
  · exact tsuCalm_refl s
  · next c _ =>
    let u := s.wp pTsu 0x1A4 (setBits (setBits (s.rp pTsu 0x1A4) 31 1 0) 16 8 c.errs.length)
    have written : tsuCalm s u := tsuCalm_regs (wr_keeps _ _ s)
    exact tsuCalm_trans (tsuCalm_trans written (tsuCalm_setTsu (x := { u.tsu with cal := none }) rfl rfl rfl rfl rfl)) (tsuCalm_raise 6 _)

theorem tsuCalm_synceUpdate (s : State) : tsuCalm s (synceUpdate s) := by
  let u := s.setFlag (regAddr pTsu 0x1F0) 3 (squelched s)
  have written : tsuCalm s u := tsuCalm_regs (setFlag_moves (s := s)).1
  exact ite_all (P := tsuCalm s) (tsuCalm_trans written (tsuCalm_trans (tsuCalm_count (.inr rfl) u) (tsuCalm_raise 7 _))) written

theorem tsuCalm_setTsuState (st : TsuState) (s : State) : tsuCalm s (setTsuState st s) := by
  have entered {c : Prop} [Decidable c] {x : TsuSt} (h : tsuCalm s (s.setTsu x)) :
      tsuCalm s (if c then raise pTsu 0 (s.setTsu x) else calAbort (raise pTsu 0 (s.setTsu x))) :=
    ite_all (P := tsuCalm s) (tsuCalm_trans h (tsuCalm_raise 0 _))
      (tsuCalm_trans (tsuCalm_trans h (tsuCalm_raise 0 _)) (tsuCalm_calAbort _))
  refine ite_all (P := tsuCalm s) (tsuCalm_refl s) ?_
  cases st <;> exact entered (tsuCalm_setTsu rfl rfl rfl rfl rfl)

theorem tsuCalm_tsuUpdate (s : State) : tsuCalm s (tsuUpdate s) := by
  unfold tsuUpdate
  extract_lets _ s1 s2 _ s3
  have first : tsuCalm s s1 := by
    unfold s1
    split
    · exact ite_all (P := tsuCalm s) (tsuCalm_refl s) (tsuCalm_setTsu rfl rfl rfl rfl rfl)
    · exact tsuCalm_refl s
  have second : tsuCalm s1 s2 := tsuCalm_setTsuState _ s1
  have third : tsuCalm s2 s3 := by
    unfold s3
    split
    · exact tsuCalm_setTsu rfl rfl rfl rfl rfl
    · exact ite_all (P := tsuCalm s2) (tsuCalm_refl s2) (tsuCalm_setTsu rfl rfl rfl rfl rfl)
    · exact tsuCalm_refl s2
  exact tsuCalm_trans (tsuCalm_trans (tsuCalm_trans first second) third) (tsuCalm_synceUpdate s3)

theorem tsuCalm_stepTime (d : Int) (s : State) : tsuCalm s (stepTime d s) := by
  let u := s.setTsu { s.tsu with time := (Int.ofNat s.tsu.time + d).toNat }
  let v := u.wp pTsu 0x128 (word (toSigned 32 (clampInt (-(2 ^ 31)) (2 ^ 31 - 1) (d / Int.ofNat nsUnit))))
  have stepped : tsuCalm s u := tsuCalm_setTsu rfl rfl rfl rfl rfl
  have written : tsuCalm u v := tsuCalm_regs (wr_keeps _ _ u)
  exact tsuCalm_trans (tsuCalm_trans stepped written) (tsuCalm_trans (tsuCalm_count (.inl rfl) v) (tsuCalm_raise 3 _))

theorem tsuCalm_adjustTime (first : Bool) (d : Int) (s : State) : tsuCalm s (adjustTime first d s) :=
  ite_all (P := tsuCalm s) (tsuCalm_trans (tsuCalm_setTsu rfl rfl rfl rfl rfl) (tsuCalm_stepTime d _)) (tsuCalm_setTsu rfl rfl rfl rfl rfl)

/-! ### A step of the time (R433) -/

theorem stepTime_spec (d : Int) (s : State) :
    let t := stepTime d s
    t.tsu = { s.tsu with time := (Int.ofNat s.tsu.time + d).toNat } ∧ intRawBit t pTsu 3 = true ∧
      t.rp pTsu 0x128 = word (toSigned 32 (clampInt (-(2 ^ 31)) (2 ^ 31 - 1) (d / Int.ofNat nsUnit))) ∧
      keeps [.regs, .tsu, .hdrs, .links, .ctrs] s t := by
  intro t
  let u := s.setTsu { s.tsu with time := (Int.ofNat s.tsu.time + d).toNat }
  let v := u.wp pTsu 0x128 (word (toSigned 32 (clampInt (-(2 ^ 31)) (2 ^ 31 - 1) (d / Int.ofNat nsUnit))))
  obtain ⟨-, regs, -, parts⟩ := countAt_spec pTsu 0x300 0x130 9 40 1 1 v
  have raised := raise_keeps pTsu 3 (tsuCount 1 v)
  have told := keeps_trans parts raised
  refine ⟨?_, raise_intRaw _ _ _ (by decide), ?_, keeps_mono (stepTime_moves (d := d) (s := s)).1 (by decide)⟩
  · exact told .tsu (by decide)
  · exact (raise_rd _ _ _ _).trans ((regs _ (by decide)).trans (State.rd_wr_same u _ _))

end
section
variable {m f : AB} {s : State}

/-! ### The writes of a master (R431, R433, R442) -/

/-- The registers of the time unit ask for no presence token. -/
theorem tsu_ungated {off : Nat} (named : off ∈ [0x158, 0x178, 0x1A0, 0x1B4, 0x1C4]) (v : Word) :
    touches .rwp (fieldsAt pTsu off) v = false := by
  have table : ∀ off ∈ [0x158, 0x178, 0x1A0, 0x1B4, 0x1C4], ∀ f ∈ fieldsAt pTsu off, f.acc ≠ .rwp := by decide
  exact ungated_of_acc (table off named) v

theorem armLoad_done (ok : admits m pTsu (0x158 + 0x20 * f.num) (armHandler f) (field 0 1 1) s = true) :
    let t := writeReg m pTsu (0x158 + 0x20 * f.num) (armHandler f) (field 0 1 1) s
    t.last = .done ∧ t.flag (regAddr pTsu (0x158 + 0x20 * f.num)) 0 = true ∧ t.flag (regAddr pTsu (0x158 + 0x20 * f.num)) 1 = false ∧
      keepsRegs (writeRegs pTsu (0x158 + 0x20 * f.num)) s t ∧ keeps [.regs, .last] s t := by
  let a := regAddr pTsu (0x158 + 0x20 * f.num)
  let u := (s.setFlag a 0 true).setFlag a 1 false
  have run : (armHandler f).run m (field 0 1 1) s = u := rfl
  have set : keeps [.regs] s u := (setFlag_moves.after rfl <| setFlag_moves.within rfl : moves [.regs] s u).1
  rw [writeReg_ungated ok (tsu_ungated (by cases f <;> decide) _), run]
  have armed : u.flag a 0 = true :=
    (flag_setFlag_other _ a (by decide) (by decide) false).trans (flag_setFlag_same s a (by decide) true)
  have met : u.flag a 1 = false := flag_setFlag_same _ a (by decide) false
  exact ⟨rfl, armed, met, keepsRegs_mono (keepsRegs_trans (wr_keepsRegs _ _ s) (wr_keepsRegs _ _ _)) (by simp [writeRegs, a]),
    keeps_trans set (ended_keeps _ _ _ _)⟩

theorem calStart_done {n : Nat} (small : n < 256) (ok : admits m pTsu 0x1A0 calHandler (word (1 + n * 256)) s = true) :
    let t := writeReg m pTsu 0x1A0 calHandler (word (1 + n * 256)) s
    keeps [.regs, .last, .tsu] s t ∧ t.last = .done ∧ t.tsu = { s.tsu with cal := some ⟨n, []⟩ } ∧ t.rp pTsu 0x1A4 = 0 ∧
      keepsRegs [regAddr pTsu 0x1A0, regAddr pTsu 0x1A4, regAddr pPrs 0x110] s t := by
  let v : Word := word (1 + n * 256)
  let u := storeReg pTsu 0x1A0 v s
  obtain ⟨-, regs, -⟩ := storeReg_spec pTsu 0x1A0 v s
  have stored : keeps [.regs] s u := by
    have plain : hasNvs (fieldsAt pTsu 0x1A0) = false := by decide
    simp only [u, storeReg, plain, Bool.false_eq_true, if_false]
    exact (storeFields_moves (s := s)).1
  have start : bit v 0 = true := by
    rw [bit_word (by decide), Nat.testBit_zero]
    simp
    omega
  have seconds : bits v 8 8 = n := by
    rw [bits_word (by decide)]
    omega
  have run : calHandler.run m v s = (u.wp pTsu 0x1A4 0).setTsu { s.tsu with cal := some ⟨n, []⟩ } := by
    have tsu : u.tsu = s.tsu := stored .tsu (by decide)
    refine (if_pos start).trans ?_
    rw [seconds]
    exact congrArg (fun x : TsuSt => (u.wp pTsu 0x1A4 0).setTsu { x with cal := some ⟨n, []⟩ }) tsu
  have wrote : keeps [.regs, .tsu] u ((u.wp pTsu 0x1A4 0).setTsu { s.tsu with cal := some ⟨n, []⟩ }) :=
    (setTsu_moves.after rfl <| wp_moves.within rfl : moves [.regs, .tsu] u _).1
  rw [writeReg_ungated ok (tsu_ungated (by decide) _), run]
  have cleared : (u.wp pTsu 0x1A4 0).rd (regAddr pTsu 0x1A4) = 0 := State.rd_wr_same u _ _
  have both : keepsRegs [regAddr pTsu 0x1A0, regAddr pTsu 0x1A4] s (u.wp pTsu 0x1A4 0) := keepsRegs_trans regs (wr_keepsRegs _ _ u)
  exact ⟨keeps_mono (keeps_trans (keeps_trans stored wrote) (ended_keeps _ _ _ _)) (by decide), rfl, rfl, cleared,
    keepsRegs_mono both (by simp)⟩

theorem adjust_within {d : Int} (small : d.natAbs ≤ slewMax s) : adjustTime false d s = s.setTsu { s.tsu with slew := d } := by
  rw [adjustTime, Bool.false_or, decide_eq_false (Nat.not_lt.mpr small), if_neg Bool.false_ne_true]

theorem adjust_beyond {d : Int} (large : slewMax s < d.natAbs) : adjustTime false d s = stepTime d (s.setTsu { s.tsu with slew := 0 }) := by
  rw [adjustTime, Bool.false_or, decide_eq_true large, if_pos rfl]

theorem hostAdjust_slews {v : Word} (ok : admits m pTsu 0x1B4 hostAdjHandler v s = true)
    (small : (signedOf 32 v.toNat * Int.ofNat nsUnit).natAbs ≤ slewMax s) :
    let t := writeReg m pTsu 0x1B4 hostAdjHandler v s
    t.last = .done ∧ t.tsu = { s.tsu with slew := signedOf 32 v.toNat * Int.ofNat nsUnit } ∧ keepsRegs [regAddr pPrs 0x110] s t ∧
      keeps [.tsu, .last, .regs] s t := by
  have run : hostAdjHandler.run m v s = s.setTsu { s.tsu with slew := signedOf 32 v.toNat * Int.ofNat nsUnit } := adjust_within small
  rw [writeReg_ungated ok (tsu_ungated (by decide) _), run]
  exact ⟨rfl, rfl, fun _ _ => rfl, keeps_mono (keeps_trans (setTsu_moves (s := s)).1 (ended_keeps _ _ _ _)) (by decide)⟩

/-- The step in ns that a write of TSU_HOST_ADJ is shown as: the value written. -/
theorem hostAdjust_shown (v : Word) : word (toSigned 32 (clampInt (-(2 ^ 31)) (2 ^ 31 - 1)
    (signedOf 32 v.toNat * Int.ofNat nsUnit / Int.ofNat nsUnit))) = v := by
  obtain ⟨low, high⟩ := signedOf_bounds (w := 32) (by decide) v.isLt
  have scaled : signedOf 32 v.toNat * Int.ofNat nsUnit / Int.ofNat nsUnit = signedOf 32 v.toNat :=
    Int.mul_ediv_cancel _ (by decide)
  rw [scaled, clampInt_id low (Int.le_sub_one_of_lt high), toSigned_signedOf v.isLt]
  exact BitVec.ofNat_toNat 32 v |>.trans (BitVec.setWidth_eq v)

theorem hostAdjust_steps {v : Word} (ok : admits m pTsu 0x1B4 hostAdjHandler v s = true)
    (large : slewMax s < (signedOf 32 v.toNat * Int.ofNat nsUnit).natAbs)
    (pos : 0 ≤ Int.ofNat s.tsu.time + signedOf 32 v.toNat * Int.ofNat nsUnit) :
    let t := writeReg m pTsu 0x1B4 hostAdjHandler v s
    keeps [.regs, .last, .tsu, .hdrs, .links, .ctrs] s t ∧ t.last = .done ∧
      Int.ofNat t.tsu.time = Int.ofNat s.tsu.time + signedOf 32 v.toNat * Int.ofNat nsUnit ∧ t.tsu.slew = 0 ∧ t.rp pTsu 0x128 = v ∧
      intRawBit t pTsu 3 = true := by
  let d := signedOf 32 v.toNat * Int.ofNat nsUnit
  let u := s.setTsu { s.tsu with slew := 0 }
  have run : hostAdjHandler.run m v s = stepTime d u := adjust_beyond large
  obtain ⟨tsu, raised, shown, parts⟩ := stepTime_spec d u
  rw [writeReg_ungated ok (tsu_ungated (by decide) _), run]
  have kept := keeps_trans (keeps_trans (setTsu_moves (t := { s.tsu with slew := 0 }) (s := s)).1 parts) (ended_keeps .ok 0 .none (stepTime d u))
  refine ⟨keeps_mono kept (by decide), rfl, ?_, ?_, shown.trans (hostAdjust_shown v), raised⟩
  · exact (congrArg (fun x : TsuSt => Int.ofNat x.time) tsu).trans (Int.toNat_of_nonneg pos)
  · exact congrArg TsuSt.slew tsu

theorem timeSet_done {v : Word} (ok : admits m pTsu 0x1C4 setNsHandler v s = true) :
    let t := writeReg m pTsu 0x1C4 setNsHandler v s
    keeps [.regs, .last, .tsu, .hdrs, .links, .ctrs] s t ∧ t.last = .done ∧ t.tsu.slew = 0 ∧
      t.tsu.time = (s.tsu.setHi.toNat * 2 ^ 32 + s.tsu.setLo.toNat) * secUnit + bits v 0 30 * nsUnit ∧ intRawBit t pTsu 3 = true := by
  let x := (s.tsu.setHi.toNat * 2 ^ 32 + s.tsu.setLo.toNat) * secUnit + bits v 0 30 * nsUnit
  let u := s.setTsu { s.tsu with slew := 0 }
  have run : setNsHandler.run m v s = stepTime (Int.ofNat x - Int.ofNat s.tsu.time) u := rfl
  obtain ⟨tsu, raised, -, parts⟩ := stepTime_spec (Int.ofNat x - Int.ofNat s.tsu.time) u
  rw [writeReg_ungated ok (tsu_ungated (by decide) _), run]
  have kept := keeps_trans (keeps_trans (setTsu_moves (t := { s.tsu with slew := 0 }) (s := s)).1 parts)
    (ended_keeps .ok 0 .none (stepTime (Int.ofNat x - Int.ofNat s.tsu.time) u))
  refine ⟨keeps_mono kept (by decide), rfl, congrArg TsuSt.slew tsu, (congrArg TsuSt.time tsu).trans ?_, raised⟩
  have sum : Int.ofNat s.tsu.time + (Int.ofNat x - Int.ofNat s.tsu.time) = Int.ofNat x := by omega
  exact (congrArg Int.toNat sum).trans (Int.toNat_natCast x)

/-! ### Holdover, calibration and the squelch (R430, R442, R446) -/

theorem exec_slewDone_eq (on : s.running = true) :
    exec .slewDone s = .next (s.setTsu { s.tsu with time := (Int.ofNat s.tsu.time + slewSpan s).toNat, slew := 0 }) := by
  have row : exec .slewDone s = execSlewDone s := rfl
  rw [row, execSlewDone, whenOn_running on]

theorem exec_holdoverLimit_eq (on : s.running = true) (state : s.tsu.state = .holdover) (valid : s.tsu.valid = true) :
    exec .holdoverLimit s = .next (raise pTsu 8 (s.setTsu { s.tsu with valid := false })) := by
  have row : exec .holdoverLimit s = execHoldoverLimit s := rfl
  rw [row, execHoldoverLimit, whenOn_running on, if_pos ⟨state, valid⟩]

theorem synceSquelchEnd_spec (s : State) :
    let t := synceUpdate (s.setTsu { s.tsu with squelchHold := false })
    keeps [.regs, .tsu, .hdrs, .links, .ctrs] s t ∧ t.tsu = { s.tsu with squelchHold := false } ∧
      t.flag (regAddr pTsu 0x1F0) 3 = (s.tsu.state != .line && s.tsu.state != .lineFreq) := by
  intro t
  let u := s.setTsu { s.tsu with squelchHold := false }
  let v := u.setFlag (regAddr pTsu 0x1F0) 3 (squelched u)
  have shown : squelched u = (s.tsu.state != .line && s.tsu.state != .lineFreq) := by
    simp [squelched, u, State.setTsu, bne]
  have flag : v.flag (regAddr pTsu 0x1F0) 3 = squelched u := flag_setFlag_same u _ (by decide) _
  have counted : keeps [.regs, .ctrs, .hdrs, .links] v (raise pTsu 7 (tsuCount 7 v)) ∧
      keepsRegs [regAddr pTsu 0x130] v (raise pTsu 7 (tsuCount 7 v)) := by
    obtain ⟨-, regs, -, parts⟩ := countAt_spec pTsu 0x300 0x130 9 40 7 1 v
    exact ⟨keeps_mono (keeps_trans parts (raise_keeps _ _ _)) (by decide), fun a h => (raise_rd _ _ _ a).trans (regs a h)⟩
  have ends : keeps [.regs, .ctrs, .hdrs, .links] v t ∧ keepsRegs [regAddr pTsu 0x130] v t :=
    ite_all (P := fun w => keeps [.regs, .ctrs, .hdrs, .links] v w ∧ keepsRegs [regAddr pTsu 0x130] v w) counted
      ⟨keeps_refl _ v, keepsRegs_refl _ v⟩
  obtain ⟨parts, regs⟩ := ends
  have set : keeps [.tsu, .regs] s v := keeps_trans (setTsu_moves (s := s)).1 (setFlag_moves (s := u)).1
  refine ⟨keeps_mono (keeps_trans set parts) (by decide), parts .tsu (by decide), ?_⟩
  rw [flag_congr (regs _ (by decide)), flag, shown]

/-- The sum of equal errors. -/
theorem foldl_add_const {e : Int} (l : List Int) (all : ∀ x ∈ l, x = e) (a : Int) :
    l.foldl (fun a e => a + e) a = a + Int.ofNat l.length * e := by
  induction l generalizing a with
  | nil => simp
  | cons x l ih =>
    obtain ⟨rfl, rest⟩ := List.forall_mem_cons.mp all
    rw [List.foldl_cons, ih rest, List.length_cons]
    simp only [Int.ofNat_eq_natCast]
    push_cast
    ring

/-- The largest and the least of equal errors. -/
theorem foldl_pick_const {e : Int} (pick : Int → Int → Int) (same : pick e e = e) (l : List Int) (all : ∀ x ∈ l, x = e) :
    l.foldl pick e = e := by
  induction l with
  | nil => rfl
  | cons x l ih =>
    obtain ⟨rfl, rest⟩ := List.forall_mem_cons.mp all
    rw [List.foldl_cons, same, ih rest]

/-- The result of a calibration over the errors `es` (R442). -/
def calWord (es : List Int) : Nat :=
  toSigned 16 (clampInt (-32768) 32767 (if es.length = 0 then 0 else es.foldl (fun a e => a + e) 0 / Int.ofNat es.length)) +
    es.length % 256 * 2 ^ 16 + 2 ^ 31

def calSpread (es : List Int) : Nat :=
  (clampInt 0 65535 (es.foldl (fun a e => if e > a then e else a) (es.headD 0) - es.foldl (fun a e => if e < a then e else a) (es.headD 0))).toNat

theorem toSigned_lt (w : Nat) (i : Int) : toSigned w i < 2 ^ w := by
  have pos : (0 : Int) < Int.ofNat (2 ^ w) := by
    simp only [Int.ofNat_eq_natCast]
    exact_mod_cast Nat.two_pow_pos w
  have bound := Int.emod_lt_of_pos i pos
  unfold toSigned
  simp only [Int.ofNat_eq_natCast] at bound ⊢
  omega

/-- The fields of the result. -/
theorem calWord_fields {es : List Int} (short : es.length < 256) :
    bits (word (calWord es)) 16 8 = es.length ∧ bit (word (calWord es)) 31 = true ∧
      bits (word (calWord es)) 0 16 = toSigned 16 (clampInt (-32768) 32767
        (if es.length = 0 then 0 else es.foldl (fun a e => a + e) 0 / Int.ofNat es.length)) := by
  have mean := toSigned_lt 16 (clampInt (-32768) 32767
    (if es.length = 0 then 0 else es.foldl (fun a e => a + e) 0 / Int.ofNat es.length))
  have count : es.length % 256 = es.length := Nat.mod_eq_of_lt short
  refine ⟨?_, ?_, ?_⟩
  · rw [bits_word (by decide), calWord]
    omega
  · rw [bit_word (by decide), Nat.testBit_eq_decide_div_mod_eq, calWord, decide_eq_true_eq]
    omega
  · rw [bits_word (by decide), calWord]
    omega

/-- Equal errors: their mean is each of them, and they do not differ. -/
theorem cal_of_const {es : List Int} {e : Int} (some_ : 0 < es.length) (all : ∀ x ∈ es, x = e) :
    (if es.length = 0 then 0 else es.foldl (fun a e => a + e) 0 / Int.ofNat es.length) = e ∧ calSpread es = 0 := by
  have first : es.headD 0 = e := by
    cases es with
    | nil => simp at some_
    | cons x l => exact all x (List.mem_cons_self)
  refine ⟨?_, ?_⟩
  · rw [if_neg (by omega), foldl_add_const es all, zero_add, Int.mul_comm]
    exact Int.mul_ediv_cancel _ (by simp only [Int.ofNat_eq_natCast]; omega)
  · rw [calSpread, first, foldl_pick_const _ (by simp) es all, foldl_pick_const _ (by simp) es all, Int.sub_self]
    rfl

/-- The two words leave the rest of the calibration. -/
theorem calResult_eq (mean spread : Word) (s : State) :
    let u := (s.wp pTsu 0x1A4 mean).wp pTsu 0x1A8 spread
    (.next (raise pTsu 6 (u.setTsu { u.tsu with cal := none })) : Result State) = .next (raise pTsu 6 (u.setTsu { s.tsu with cal := none })) :=
  rfl

theorem exec_calDone_spec (on : s.running = true) {es : List Int} (cal : s.tsu.cal = some ⟨0, es⟩) :
    let u := (s.wp pTsu 0x1A4 (word (calWord es))).wp pTsu 0x1A8 (word (calSpread es))
    exec .calDone s = .next (raise pTsu 6 (u.setTsu { s.tsu with cal := none })) := by
  have row : exec .calDone s = execCalDone s := rfl
  rw [row, execCalDone, whenOn_running on, calWord, calSpread]
  dsimp only
  split
  · next es' h =>
    obtain rfl : es = es' := by
      rw [cal] at h
      injection h with h
      injection h
    exact calResult_eq _ _ s
  · next no =>
    exact absurd cal (no _)

/-- A calibration ends with its two words. -/
theorem calEnded_spec (mean spread : Word) (s : State) :
    let t := raise pTsu 6 (((s.wp pTsu 0x1A4 mean).wp pTsu 0x1A8 spread).setTsu { s.tsu with cal := none })
    t.tsu = { s.tsu with cal := none } ∧ t.rp pTsu 0x1A4 = mean ∧ t.rp pTsu 0x1A8 = spread ∧ intRawBit t pTsu 6 = true ∧
      keepsRegs [regAddr pTsu 0x1A4, regAddr pTsu 0x1A8] s t ∧ keepsHdrs [pTsu] s t ∧ keeps [.tsu, .regs, .hdrs, .links] s t := by
  intro t
  let u := (s.wp pTsu 0x1A4 mean).wp pTsu 0x1A8 spread
  let v := u.setTsu { s.tsu with cal := none }
  have raised := raise_keeps pTsu 6 v
  have reg (a : Nat) : t.rd a = u.rd a := raise_rd _ _ v a
  exact ⟨raised .tsu (by decide), (reg _).trans ((State.rd_wr_other _ (by decide) _).trans (State.rd_wr_same s _ _)),
    (reg _).trans (State.rd_wr_same _ _ _), raise_intRaw _ _ v (by decide),
    fun a h => (reg a).trans (keepsRegs_trans (wr_keepsRegs _ _ s) (wr_keepsRegs _ _ _) a h), raise_keepsHdrs _ _ v,
    keeps_mono (keeps_trans (setTsu_moves.after rfl <| wp_moves.after rfl <| wp_moves.within rfl : moves [.tsu, .regs] s v).1
      raised) (by decide)⟩

theorem exec_calDone_done (on : s.running = true) {es : List Int} (cal : s.tsu.cal = some ⟨0, es⟩) (short : es.length < 256) :
    After (exec .calDone s) fun t => t.tsu = { s.tsu with cal := none } ∧ bits (t.rp pTsu 0x1A4) 16 8 = es.length ∧
      t.flag (regAddr pTsu 0x1A4) 31 = true ∧ intRawBit t pTsu 6 = true ∧
      (∀ e : Int, 0 < es.length → (∀ x ∈ es, x = e) → -32768 ≤ e → e < 32768 →
        signedOf 16 (bits (t.rp pTsu 0x1A4) 0 16) = e ∧ t.rp pTsu 0x1A8 = 0) ∧
      keepsRegs [regAddr pTsu 0x1A4, regAddr pTsu 0x1A8] s t ∧ keepsHdrs [pTsu] s t ∧ keeps [.tsu, .regs, .hdrs, .links] s t := by
  obtain ⟨tsu, first, second, raised, regs, hdrs, parts⟩ := calEnded_spec (word (calWord es)) (word (calSpread es)) s
  obtain ⟨count, done, mean⟩ := calWord_fields short
  refine ⟨_, exec_calDone_spec on cal, tsu, by rw [first, count], (congrArg (bit · 31) first).trans done, raised,
    fun e some_ all low high => ?_, regs, hdrs, parts⟩
  obtain ⟨same, spread⟩ := cal_of_const some_ all
  rw [first, mean, second, same, spread, clampInt_id low (by omega)]
  exact ⟨(signedOf_toSigned (w := 16) (by decide) low high).1, rfl⟩

/-! ### The Lantern's outputs (R434, R435) -/

/-- What a step is known to keep, with what it does. -/
theorem after_goes {l : List Part} {s : State} {r : Result State} {P : State → Prop} (moved : goes l s r) (done : After r P) :
    After r fun t => keeps l s t ∧ P t := by
  obtain ⟨t, next, kept, -⟩ := moved
  obtain ⟨u, next', holds⟩ := done
  obtain rfl : t = u := Host.Outcome.next.inj (next.symm.trans next')
  exact ⟨t, next, kept, holds⟩

theorem ppsOutEdge_rises (on : s.running = true) (enabled : bit (s.rp pTsu 0x1C8) 0 = true)
    (gated : bit (s.rp pTsu 0x1C8) 1 = true → s.tsu.valid = true) (late : ∀ n, s.tsu.ppsAge = some n → 500000 ≤ n) :
    exec .ppsOutEdge s = .next ((s.setTsu { s.tsu with
      ppsHigh := true, ppsAge := some 0, todEdge := if s.flag (regAddr pTsu 0x1D0) 0 then
        some ((s.tsu.time + secUnit / 2) / secUnit) else none }).emit (.pps true)) := by
  have row : exec .ppsOutEdge s = execPpsOutEdge s := rfl
  have open_ : (bit (s.rp pTsu 0x1C8) 1 && !s.tsu.valid) = false := by
    cases h : bit (s.rp pTsu 0x1C8) 1 with
    | false => rfl
    | true => rw [gated h]; rfl
  rw [row, execPpsOutEdge, whenOn_running on]
  dsimp only
  rw [enabled, open_]
  refine if_neg ?_
  cases h : s.tsu.ppsAge with
  | none => decide
  | some n => simpa using late n h

theorem ppsOutEdge_early (on : s.running = true) {n : Nat} (age : s.tsu.ppsAge = some n) (early : n < 500000) :
    exec .ppsOutEdge s = .next s := by
  have row : exec .ppsOutEdge s = execPpsOutEdge s := rfl
  rw [row, execPpsOutEdge, whenOn_running on, age]
  dsimp only
  rw [decide_eq_true early, Bool.or_true, Bool.true_or, if_pos rfl]

theorem ppsOutFall_falls (on : s.running = true) (high : s.tsu.ppsHigh = true) :
    exec .ppsOutFall s = .next ((s.setTsu { s.tsu with ppsHigh := false }).emit (.pps false)) := by
  have row : exec .ppsOutFall s = execPpsOutFall s := rfl
  rw [row, execPpsOutFall, whenOn_running on, if_pos high]

theorem todOutSend_tells (on : s.running = true) {n : Nat} (edge : s.tsu.todEdge = some n) (enabled : s.flag (regAddr pTsu 0x1D0) 0 = true) :
    exec .todOutSend s = .next ((s.setTsu { s.tsu with todEdge := none }).emit (.tod (todMessage n s))) := by
  have row : exec .todOutSend s = execTodOutSend s := rfl
  rw [row, execTodOutSend, whenOn_running on, edge]
  dsimp only
  rw [if_pos enabled]

theorem emitted_keeps (x : TsuSt) (o : Output) (s : State) : keeps [.tsu, .out] s ((s.setTsu x).emit o) :=
  (emit_moves.after rfl <| setTsu_moves.within rfl : moves [.tsu, .out] s _).1

/-! ### The Lantern's inputs (R436 to R440) -/

theorem ppsInEdge_stamps (on : s.running = true) (enabled : s.flag (regAddr pTsu 0x1D4) 0 = true) {x : Nat} (small : x < 1000 * nsUnit) :
    After (exec (.ppsInEdge x) s) fun t => t.tsu.edge = some (s.tsu.time + x) ∧ t.tsu.edgeTold = false ∧ t.tsu.time = s.tsu.time ∧
      t.rp pTsu 0x1D8 = word ((s.tsu.time + x) / secUnit) ∧ t.rp pTsu 0x1DC = word ((s.tsu.time + x) / nsUnit % 1000000000) ∧
      t.ctr (regAddr pTsu 0x318) = (s.ctr (regAddr pTsu 0x318) + 1) % 2 ^ 40 := by
  have row : exec (.ppsInEdge x) s = execPpsInEdge x s := rfl
  rw [row, execPpsInEdge, whenOn_running on, enabled, Nat.mod_eq_of_lt small]
  dsimp only
  refine ⟨_, rfl, ?_⟩
  generalize word ((s.tsu.time + x) / secUnit) = secs, word ((s.tsu.time + x) / nsUnit % 1000000000) = rest,
    word ((s.tsu.time + x) / 2 ^ 16 % 2 ^ 16) = frac
  generalize shown : s.setTsu _ = u
  have set : keeps [.tsu] s u := shown ▸ (setTsu_moves (s := s)).1
  obtain ⟨count, regs, -, parts⟩ := countAt_spec pTsu 0x300 0x130 9 40 3 1 (((u.wp pTsu 0x1D8 secs).wp pTsu 0x1DC rest).wp pTsu 0x1E0 frac)
  have tsu := parts .tsu (by decide)
  refine ⟨(congrArg TsuSt.edge tsu).trans (shown ▸ rfl), (congrArg TsuSt.edgeTold tsu).trans (shown ▸ rfl),
    (congrArg TsuSt.time tsu).trans (shown ▸ rfl), ?_, ?_, ?_⟩
  · exact (regs _ (by decide)).trans ((State.rd_wr_other _ (by decide) _).trans
      ((State.rd_wr_other _ (by decide) _).trans (State.rd_wr_same u _ _)))
  · exact (regs _ (by decide)).trans ((State.rd_wr_other _ (by decide) _).trans (State.rd_wr_same _ _ _))
  · have same : u.ctr (regAddr pTsu 0x318) = s.ctr (regAddr pTsu 0x318) := ctr_of_keeps set (by decide) _
    exact count.trans (by rw [← same]; rfl)

theorem extLost_spec (s : State) :
    let t := extLost s
    t.tsu.extValid = false ∧ t.tsu.goodEdges = 0 ∧ t.tsu.lastS = none ∧ t.tsu.edge = s.tsu.edge ∧
      (∀ j, intRawBit s pTsu j = true → intRawBit t pTsu j = true) ∧
      ∀ a, a ≠ regAddr pTsu 0x308 → a ≠ regAddr pTsu 0x338 → t.ctr a = s.ctr a := by
  obtain ⟨⟨edge, good, last, -, ext⟩, ctr, raw⟩ :=
    tsuCalm_tsuUpdate (s.setTsu { s.tsu with extValid := false, goodEdges := 0, lastS := none })
  exact ⟨ext, good, last, edge, raw, ctr⟩

/-- The message at hand tells of the last edge. -/
theorem exec_todInMessage_eq (on : s.running = true) (enabled : s.flag (regAddr pTsu 0x1D4) 0 = true) {e : Nat} {l : List Byte}
    (edge : s.tsu.edge = some e) (fresh : s.tsu.edgeTold = false) (soon : s.tsu.time ≤ e + 900000000 * nsUnit) :
    exec (.todInMessage l) s = match todSeconds l with
      | none => .next (extLost (raise pTsu 5 (tsuCount 4 s)))
      | some n =>
        if (expectedS s).isSome && expectedS s != some n then .next (extLost (raise pTsu 5 (tsuCount 4 s)))
        else
          let t := tsuUpdate (s.setTsu { s.tsu with
            edgeTold := true, lastS := some n, goodEdges := s.tsu.goodEdges + 1,
            extValid := s.tsu.extValid || decide (3 ≤ s.tsu.goodEdges + 1) })
          if t.tsu.state = .external then .next (adjustTime false (Int.ofNat (n * secUnit) - Int.ofNat e) t) else .next t := by
  have row : exec (.todInMessage l) s = execTodInMessage l s := rfl
  rw [row, execTodInMessage, whenOn_running on, enabled, edge]
  dsimp only
  rw [if_neg (by decide), fresh, decide_eq_false (by omega), if_neg (by decide)] <;>
    cases todSeconds l <;> rfl

theorem todInMessage_bad (on : s.running = true) (enabled : s.flag (regAddr pTsu 0x1D4) 0 = true) {e : Nat} {l : List Byte}
    (edge : s.tsu.edge = some e) (fresh : s.tsu.edgeTold = false) (soon : s.tsu.time ≤ e + 900000000 * nsUnit)
    (bad : todSeconds l = none) :
    After (exec (.todInMessage l) s) fun t => t.tsu.extValid = false ∧ t.tsu.goodEdges = 0 ∧ t.tsu.lastS = none ∧
      intRawBit t pTsu 5 = true ∧ t.ctr (regAddr pTsu 0x320) = (s.ctr (regAddr pTsu 0x320) + 1) % 2 ^ 40 := by
  rw [exec_todInMessage_eq on enabled edge fresh soon, bad]
  refine ⟨_, rfl, ?_⟩
  obtain ⟨ext, good, last, -, raw, ctr⟩ := extLost_spec (raise pTsu 5 (tsuCount 4 s))
  have counted := (countAt_spec pTsu 0x300 0x130 9 40 4 1 s).1
  exact ⟨ext, good, last, raw 5 (raise_intRaw _ _ _ (by decide)), (ctr _ (by decide) (by decide)).trans
    ((ctr_of_keeps (raise_keeps _ _ _) (by decide) _).trans counted)⟩

theorem todInMessage_good (on : s.running = true) (enabled : s.flag (regAddr pTsu 0x1D4) 0 = true) {e n : Nat} {l : List Byte}
    (edge : s.tsu.edge = some e) (fresh : s.tsu.edgeTold = false) (soon : s.tsu.time ≤ e + 900000000 * nsUnit)
    (good : todSeconds l = some n) (next : s.tsu.lastS = none ∨ s.tsu.lastS.map (fun x => x + 1) = some n) :
    After (exec (.todInMessage l) s) fun t => t.tsu.edgeTold = true ∧ t.tsu.lastS = some n ∧
      t.tsu.goodEdges = s.tsu.goodEdges + 1 ∧ t.tsu.extValid = (s.tsu.extValid || decide (2 ≤ s.tsu.goodEdges)) := by
  have expected : ((expectedS s).isSome && expectedS s != some n) = false := by
    unfold expectedS
    obtain h | h := next <;> simp [h]
  rw [exec_todInMessage_eq on enabled edge fresh soon, good]
  dsimp only
  rw [expected, if_neg (by decide)]
  let u := s.setTsu { s.tsu with
    edgeTold := true, lastS := some n, goodEdges := s.tsu.goodEdges + 1, extValid := s.tsu.extValid || decide (3 ≤ s.tsu.goodEdges + 1) }
  have told {t : State} (calm : tsuCalm u t) : t.tsu.edgeTold = true ∧ t.tsu.lastS = some n ∧
      t.tsu.goodEdges = s.tsu.goodEdges + 1 ∧ t.tsu.extValid = (s.tsu.extValid || decide (2 ≤ s.tsu.goodEdges)) := by
    obtain ⟨⟨-, edges, last, done, ext⟩, -, -⟩ := calm
    refine ⟨done, last, edges, ext.trans (congrArg (s.tsu.extValid || ·) (decide_eq_decide.mpr ?_))⟩
    omega
  have updated := tsuCalm_tsuUpdate u
  split
  · exact ⟨_, rfl, told (tsuCalm_trans updated (tsuCalm_adjustTime _ _ _))⟩
  · exact ⟨_, rfl, told updated⟩

theorem ppsInLoss_invalidates (on : s.running = true) (valid : s.tsu.extValid = true) :
    After (exec .ppsInLoss s) fun t => t.tsu.extValid = false ∧ t.tsu.edge = none ∧ t.tsu.goodEdges = 0 ∧ intRawBit t pTsu 4 = true := by
  have row : exec .ppsInLoss s = execPpsInLoss s := rfl
  obtain ⟨⟨-, -, -, -, ext⟩, -, -⟩ := tsuCalm_calAbort s
  let u := (calAbort s).setTsu { (calAbort s).tsu with edge := none, edgeTold := false }
  rw [row, execPpsInLoss, whenOn_running on]
  dsimp only
  rw [if_pos (ext.trans valid)]
  refine ⟨_, rfl, ?_⟩
  obtain ⟨lost, good, -, edge, -, -⟩ := extLost_spec u
  have tsu : (raise pTsu 4 (extLost u)).tsu = (extLost u).tsu := raise_keeps _ _ _ .tsu (by decide)
  exact ⟨(congrArg TsuSt.extValid tsu).trans lost, (congrArg TsuSt.edge tsu).trans edge, (congrArg TsuSt.goodEdges tsu).trans good,
    raise_intRaw _ _ _ (by decide)⟩

end

/-! ### O54 -/

/-- A row that goes on to `t` while the logic domain runs. -/
theorem after_running {s t : State} {i : Instr} {P : State → Prop} (on : s.running = true) (row : exec i s = whenOn s (.next t)) (h : P t) :
    After (exec i s) P :=
  ⟨t, row.trans (whenOn_running on _), h⟩

/-- Settles O54, by what each command of the time unit and of the Lantern does. -/
theorem timeIsKeptAndTold : Obligations.TimeIsKeptAndTold := by
  unfold Obligations.TimeIsKeptAndTold
  refine ⟨fun m f s on => ⟨?_, ?_, ?_, ?_, ?_, ?_, ?_, ?_⟩, fun s on => ⟨?_, ?_, ?_, ?_, fun enabled => ⟨?_, ?_⟩, ?_⟩⟩
  · exact fun ok => after_running on rfl (armLoad_done ok)
  · rw [exec_slewDone_eq on]
    exact ⟨_, rfl, rfl, (setTsu_moves (s := s)).1⟩
  · intro state valid
    rw [exec_holdoverLimit_eq on state valid]
    let u := s.setTsu { s.tsu with valid := false }
    exact ⟨_, rfl, raise_keeps pTsu 8 u .tsu (by decide), raise_intRaw _ _ _ (by decide), raise_keepsHdrs _ _ u,
      keeps_mono (keeps_trans (setTsu_moves (s := s)).1 (raise_keeps pTsu 8 u)) (by decide)⟩
  · intro x small ok
    have row : exec (.calStart m x) s = whenOn s (.next (writeReg m pTsu 0x1A0 calHandler (word (1 + x % 256 * 256)) s)) := rfl
    rw [Nat.mod_eq_of_lt small] at row
    exact after_running on row (calStart_done small ok)
  · exact fun _ cal short => exec_calDone_done on cal short
  · have row : exec .synceSquelchEnd s = execSynceSquelchEnd s := rfl
    rw [row, execSynceSquelchEnd, whenOn_running on]
    exact ⟨_, rfl, synceSquelchEnd_spec s⟩
  · exact fun _ ok => ⟨fun small => after_running on rfl (hostAdjust_slews ok small),
      fun large past => after_running on rfl (hostAdjust_steps ok large past)⟩
  · exact fun _ ok => after_running on rfl (timeSet_done ok)
  · intro enabled gated late
    rw [ppsOutEdge_rises on enabled gated late]
    exact ⟨_, rfl, rfl, rfl, emitted_keeps _ _ _⟩
  · exact fun _ => ppsOutEdge_early on
  · intro high
    rw [ppsOutFall_falls on high]
    exact ⟨_, rfl, rfl, rfl, emitted_keeps _ _ _⟩
  · intro _ edge told
    rw [todOutSend_tells on edge told]
    exact ⟨_, rfl, rfl, rfl, emitted_keeps _ _ _⟩
  · intro _ small
    obtain ⟨t, next, kept, done⟩ := after_goes execPpsInEdge_moves (ppsInEdge_stamps on enabled small)
    exact ⟨t, next, keeps_mono kept (by decide), done⟩
  · refine fun e l edge fresh soon => ⟨fun bad => ?_, fun n good next => ?_⟩
    · obtain ⟨t, next, kept, done⟩ := after_goes execTodInMessage_moves (todInMessage_bad on enabled edge fresh soon bad)
      exact ⟨t, next, keeps_mono kept (by decide), done⟩
    · obtain ⟨t, next, kept, done⟩ := after_goes execTodInMessage_moves (todInMessage_good on enabled edge fresh soon good next)
      exact ⟨t, next, keeps_mono kept (by decide), done⟩
  · intro valid
    obtain ⟨t, next, kept, done⟩ := after_goes execPpsInLoss_moves (ppsInLoss_invalidates on valid)
    exact ⟨t, next, keeps_mono kept (by decide), done⟩

end Sys2Proof.Machine

/-!
PROOFS. O51 fails: a packet's source port is a number without a bound, and the half-range bits of the discard counters of Table 14-4 are
addressed by it.
-/

namespace Sys2Proof.Machine

/-- A step goes on to a state that meets a test. -/
def goesTo (test : State → Bool) : Result State → Bool
  | .next t => test t
  | _ => false

/-- A step whose next state fails a test that the claim needs. -/
theorem not_after {r : Result State} {P : State → Prop} (test : State → Bool) (fails : goesTo test r = false)
    (needs : ∀ t, P t → test t = true) : ¬ After r P := by
  rintro ⟨t, rfl, h⟩
  exact absurd ((needs t h).symm.trans fails) (by decide)

/-- A packet of source port 1 275 552, where none above 10 exists. The half-range bit of its NO_RULE counter is bit 0 of the first register
of upstream node 0. -/
def strayPkt : Pkt := { Tests.pkt with src := 1275552 }

/-- In DOZE the packet is alone in lane 0 and its counter is one below half range. A packet waits in queue 0 of node 0, whose parent is
line node 0, on no allocation; line node 1 is on an assigned Alloc-ID. -/
def strayState : State :=
  let s := Tests.inLane []
  let s := { s with
    power := { s.power with mode := .service .doze }
    cls := { s.cls with lanes := [(0, ⟨[strayPkt], false⟩)] } }
  let s := (s.setCtr (censusAddr 0 0x20 1275552) (2 ^ 39 - 1)).setQueue 0 [Tests.pkt]
  ((s.wr (nodeAddr 0 0) 0).wr (regAddr (pBtx .a) 0x204) 0x10000).wr (regAddr (pBtx .a) 0x180) 0x10000

/-- Refutes O51: the count of the discarded packet in `strayState` sets the parent of node 0 to line node 1, so that the line queues
deepen, and DOZE is left. The clause of NO_RULE says that the power state keeps its value. -/
theorem not_classificationFindsTheRule : ¬ Obligations.ClassificationFindsTheRule := by
  unfold Obligations.ClassificationFindsTheRule
  intro h
  have on : strayState.running = true := by decide +kernel
  have clean : memClean strayState = true := by decide +kernel
  have lane : (strayState.lane 0).q = [strayPkt] := rfl
  have active : strayState.sliceState strayPkt.slice = .active := by decide +kernel
  have waiting : strayState.cls.waiting = [] := by decide +kernel
  have rules : strayState.cls.rules = [] := by decide +kernel
  have leaves : goesTo (fun t => decide (t.power.mode = .service .doze)) (exec (.laneLookup 0) strayState) = false := by decide +kernel
  refine not_after _ leaves (fun t held => ?_)
    (((h strayState on clean).1 0 strayPkt [] (by decide) lane active waiting).1 (fun x member => by simp [rules] at member))
  obtain ⟨kept, -⟩ := held
  have power : t.power = strayState.power := kept .power (by decide)
  have doze : strayState.power.mode = .service .doze := by decide +kernel
  rw [power]
  exact decide_eq_true doze

end Sys2Proof.Machine

/-!
PROOFS. The non-volatile store: the wear of a block write, the dual-copy record (R225, Table 7-3), the checkpoint (R229) and the commits
(R522, R523). It settles O40.
-/

namespace Sys2Proof.Machine

section
variable {s t : State}

/-! ### Words written in a row -/

theorem rd_wpWords_other {p off a : Nat} (l : List Word) (n : Nat) (s : State) (h : ∀ i, i < l.length → a ≠ regAddr p (off + 4 * (n + i))) :
    ((l.zipIdx n).foldl (fun s x => s.wp p (off + 4 * x.2) x.1) s).rd a = s.rd a := by
  induction l generalizing n s with
  | nil => rfl
  | cons w l ih =>
    rw [List.zipIdx_cons, List.foldl_cons, ih (n + 1) _ fun i hi => ?_]
    · exact State.rd_wr_other _ (h 0 (Nat.succ_pos _)) _
    · have apart := h (i + 1) (Nat.succ_lt_succ hi)
      rwa [← Nat.add_assoc, Nat.add_right_comm] at apart

theorem rd_wpWords {p off i : Nat} (l : List Word) (n : Nat) (s : State) (hi : i < l.length) :
    ((l.zipIdx n).foldl (fun s x => s.wp p (off + 4 * x.2) x.1) s).rd (regAddr p (off + 4 * (n + i))) = l.getD i 0 := by
  induction l generalizing n s i with
  | nil => exact absurd hi (Nat.not_lt_zero _)
  | cons w l ih =>
    rw [List.zipIdx_cons, List.foldl_cons]
    cases i with
    | zero =>
      rw [rd_wpWords_other l (n + 1) _ fun i _ => by simp only [regAddr]; omega]
      exact State.rd_wr_same _ _ _
    | succ i =>
      have next := ih (n + 1) (s.wp p (off + 4 * n) w) (Nat.lt_of_succ_lt_succ hi)
      rwa [Nat.add_assoc, Nat.add_comm 1] at next

/-! ### The dual-copy record (R225) -/

theorem recordWords_length (s : State) : (recordWords s).length = 8 := by
  simp [recordWords]

/-- The record carries its GEN, the four counters and the CRC of what stands before it. -/
theorem recordWords_fields (s : State) : (recordWords s).getD 0 0 = copyWord (1 - nextCopy s) 0 s + 1 ∧
    (∀ i, i < 4 → (recordWords s).getD (2 + i) 0 = s.rp pBkp (0x124 + 4 * i)) ∧
    (recordWords s).getD 7 0 = copyCrc ((recordWords s).take 7) := by
  unfold recordWords
  extract_lets st w1 body
  have length : body.length = 7 := by simp [body]
  refine ⟨rfl, fun i hi => ?_, ?_⟩
  · match i, hi with
    | 0, _ => rfl
    | 1, _ => rfl
    | 2, _ => rfl
    | 3, _ => rfl
  · rw [List.take_left' length, List.getD_append_right _ _ _ _ (by omega), length]
    rfl

theorem copyWord_writeCopy_same {c i : Nat} {l : List Word} (hi : i < l.length) (s : State) : copyWord c i (writeCopy c l s) = l.getD i 0 := by
  have at_ := rd_wpWords (p := pBkp) (off := 0x400 + 0x20 * c) l 0 s hi
  rwa [Nat.zero_add] at at_

theorem copyWord_writeCopy_other {c d i : Nat} {l : List Word} (short : l.length ≤ 8) (hc : c ≤ 1) (hi : i < 8) (s : State) (h : d = 1 - c) :
    copyWord d i (writeCopy c l s) = copyWord d i s :=
  rd_wpWords_other l 0 s fun j hj => by simp only [regAddr]; omega

theorem writeCopy_rd {c a : Nat} {l : List Word} (h : ∀ i, i < l.length → a ≠ regAddr pBkp (0x400 + 0x20 * c + 4 * i)) (s : State) :
    (writeCopy c l s).rd a = s.rd a :=
  rd_wpWords_other l 0 s fun j hj => by rw [Nat.zero_add]; exact h j hj

theorem nextCopy_le (s : State) : nextCopy s ≤ 1 := by
  unfold nextCopy
  split <;> decide

/-- A copy, GEN and the backup state written, whatever they are. -/
theorem copyWritten (c : Nat) (l : List Word) (g : Word) (b : BackupSt) (s : State) (hc : c ≤ 1) (length : l.length = 8) :
    let t : State := { (writeCopy c l s).wp pBkp 0x134 g with backup := b }
    (∀ i, i < 8 → copyWord c i t = l.getD i 0) ∧ (∀ i, i < 8 → copyWord (1 - c) i t = copyWord (1 - c) i s) ∧ t.rp pBkp 0x134 = g := by
  intro t
  let u := writeCopy c l s
  have shown : keeps [.backup] (u.wp pBkp 0x134 g) t := (with_backup_moves (s := u.wp pBkp 0x134 g)).1
  have reg (a : Nat) : t.rd a = (u.wp pBkp 0x134 g).rd a := congrFun (rd_of_keeps shown (by decide)) a
  have apart (d i : Nat) : regAddr pBkp (0x400 + 0x20 * d + 4 * i) ≠ regAddr pBkp 0x134 := by
    simp only [regAddr]
    omega
  have word (d i : Nat) : copyWord d i t = copyWord d i u := by
    rw [copyWord, State.rp, reg, copyWord, State.rp]
    exact State.rd_wr_other u (apart d i) g
  exact ⟨fun i hi => (word c i).trans (copyWord_writeCopy_same (by rwa [length]) s),
    fun i hi => (word _ i).trans (copyWord_writeCopy_other (by omega) hc hi s rfl), (reg _).trans (State.rd_wr_same u _ _)⟩

theorem cleaned_eq {u : State} {b : BackupSt} (h : u.backup = b) :
    ({ u with backup := { u.backup with dirty := false } } : State) = { u with backup := { b with dirty := false } } := by
  rw [h]

theorem writeRecord_eq (s : State) : writeRecord s =
    { (writeCopy (nextCopy s) (recordWords s) s).wp pBkp 0x134 (copyWord (1 - nextCopy s) 0 s + 1) with
      backup := { s.backup with dirty := false } } := by
  unfold writeRecord
  generalize copyWord (1 - nextCopy s) 0 s + 1 = g
  exact cleaned_eq (part_of_moves .backup (wp_moves.after rfl <| writeCopy_moves.within rfl : moves [.regs] s _) rfl)

theorem writeRecord_spec (s : State) :
    let t := writeRecord s
    let c := nextCopy s
    copyOk c t = true ∧ copyWord c 0 t = copyWord (1 - c) 0 s + 1 ∧ t.rp pBkp 0x134 = copyWord (1 - c) 0 s + 1 ∧
      (∀ i, i < 4 → copyWord c (2 + i) t = s.rp pBkp (0x124 + 4 * i)) ∧ (∀ i, i < 8 → copyWord (1 - c) i t = copyWord (1 - c) i s) ∧
      t.backup = { s.backup with dirty := false } ∧ keeps [.regs, .backup] s t := by
  intro t c
  have parts : keeps [.regs, .backup] s t := (writeRecord_moves (s := s)).1
  have length := recordWords_length s
  obtain ⟨gen, counts, crc⟩ := recordWords_fields s
  obtain ⟨own, other, head⟩ := copyWritten (nextCopy s) (recordWords s) (copyWord (1 - nextCopy s) 0 s + 1)
    { s.backup with dirty := false } s (nextCopy_le s) length
  rw [← writeRecord_eq] at own other head
  refine ⟨?_, (own 0 (by decide)).trans gen, head, fun i hi => (own _ (by omega)).trans (counts i hi), other, ?_, parts⟩
  · have body : (List.range 7).map (fun i => copyWord c i t) = (recordWords s).take 7 := by
      refine List.ext_getElem (by simp [length]) fun i hi hi' => ?_
      have small : i < 7 := by simpa using hi
      rw [List.getElem_map, List.getElem_range, own i (by omega), List.getElem_take, List.getD_eq_getElem _ _ (by omega)]
    rw [copyOk, body, own 7 (by decide), crc]
    exact beq_self_eq_true _
  · exact congrArg State.backup (writeRecord_eq s)

/-! ### Block writes (R521, R522) -/

/-- A block write costs wear, which NVS_WRITES counts, and leaves the rest of the store. -/
theorem wearBlock_spec (s : State) :
    let t := wearBlock s
    (∃ w, t.nvs = { s.nvs with wear := w }) ∧ t.rp pNvs 0x140 = s.rp pNvs 0x140 + 1 ∧ keepsRegs [regAddr pNvs 0x140] s t ∧
      keeps [.nvs, .regs, .free, .hdrs, .links] s t := by
  intro t
  let v := s.takeFree.2
  let b := s.takeFree.1.toNat % 16384
  let u := v.setNvs { v.nvs with wear := tblSet 0 b (tblGet 0 b v.nvs.wear + 1) v.nvs.wear }
  let w := u.bump (regAddr pNvs 0x140) 1
  have free : keeps [.free] s v := (takeFree_moves (s := s)).1
  have store : v.nvs = s.nvs := free .nvs (by decide)
  have raised : t.nvs = w.nvs ∧ ∀ a, t.rd a = w.rd a :=
    ite_all (P := fun x => x.nvs = w.nvs ∧ ∀ a, x.rd a = w.rd a) ⟨raise_keeps _ _ w .nvs (by decide), raise_rd _ _ w⟩ ⟨rfl, fun _ => rfl⟩
  have before (a : Nat) : u.rd a = s.rd a := congrFun (rd_of_keeps free (by decide)) a
  refine ⟨⟨_, raised.1.trans (congrArg (fun n : NvsSt => { n with wear := tblSet 0 b (tblGet 0 b v.nvs.wear + 1) v.nvs.wear }) store)⟩, ?_,
    fun a h => ?_, keeps_mono (wearBlock_moves (s := s)).1 (by decide)⟩
  · refine (raised.2 _).trans ((State.rd_wr_same u _ _).trans ?_)
    rw [before]
    rfl
  · exact (raised.2 a).trans ((State.rd_wr_other u (by simpa using h) _).trans (before a))

theorem cappedWrite_spec (s : State) :
    let t := cappedWrite s
    (∃ w l, t.nvs = { s.nvs with wear := w, stamps := l }) ∧ t.rp pNvs 0x140 = s.rp pNvs 0x140 + 1 ∧ keepsRegs [regAddr pNvs 0x140] s t ∧
      keeps [.nvs, .regs, .free, .hdrs, .links] s t := by
  intro t
  obtain ⟨⟨w, store⟩, count, regs, parts⟩ := wearBlock_spec (s.setNvs { s.nvs with stamps := recentWrites s ++ [s.clock] })
  exact ⟨⟨w, _, store⟩, count, regs, keeps_mono (keeps_trans (setNvs_moves (s := s)).1 parts) (by decide)⟩

/-! ### Commits (R522, R523) -/

theorem exec_nvsCommit_pend (on : s.running = true) {x : NvItem} {rest : List NvItem} (pend : s.nvs.pend = x :: rest) :
    exec .nvsCommit s = if capOpen s then
      .next (commitItem x (cappedWrite (s.setNvs { s.nvs with pend := rest, deferring := s.nvs.deferring && !rest.isEmpty })))
    else .next (deferred s) := by
  have row : exec .nvsCommit s = execNvsCommit s := rfl
  rw [row, execNvsCommit, whenOn_running on, pend]

theorem exec_nvsCommit_hist (on : s.running = true) (room : capOpen s = true) {e : Word × Word} {rest : List (Word × Word)}
    (pend : s.nvs.pend = []) (hist : s.nvs.histQ = e :: rest) :
    exec .nvsCommit s = .next (commitHist e (cappedWrite (s.setNvs { s.nvs with histQ := rest }))) := by
  have row : exec .nvsCommit s = execNvsCommit s := rfl
  rw [row, execNvsCommit, whenOn_running on, pend, hist]
  exact if_pos room

theorem exec_nvsCommit_image (on : s.running = true) (room : capOpen s = true) (pend : s.nvs.pend = []) (hist : s.nvs.histQ = [])
    (image : imageWaits s = true) : exec .nvsCommit s = .next (writeImageBlock (cappedWrite s)) := by
  have row : exec .nvsCommit s = execNvsCommit s := rfl
  rw [row, execNvsCommit, whenOn_running on, pend, hist]
  exact if_pos (by rw [image, room]; rfl)

/-- What a counted block write does to the store that it finds, `n`. -/
theorem cappedStore_spec (n : NvsSt) (s : State) :
    let t := cappedWrite (s.setNvs n)
    (∃ w l, t.nvs = { n with wear := w, stamps := l }) ∧ t.rp pNvs 0x140 = s.rp pNvs 0x140 + 1 ∧ keepsRegs [regAddr pNvs 0x140] s t ∧
      keeps [.nvs, .regs, .free, .hdrs, .links] s t := by
  intro t
  obtain ⟨store, count, regs, parts⟩ := cappedWrite_spec (s.setNvs n)
  exact ⟨store, count, regs, keeps_mono (keeps_trans (setNvs_moves (s := s)).1 parts) (by decide)⟩

theorem commitReg_spec (a : Nat) (n : NvsSt) (s : State) :
    let t := commitItem (.reg a) (cappedWrite (s.setNvs n))
    keeps [.nvs, .regs, .free, .hdrs, .links] s t ∧ t.nvs.committed = tblSet (resetWord a) a (t.rd a) n.committed ∧
      t.nvs.pend = n.pend ∧ t.nvs.fw = n.fw ∧ keepsRegs [regAddr pNvs 0x140] s t := by
  intro t
  obtain ⟨⟨w, l, store⟩, -, regs, parts⟩ := cappedStore_spec n s
  let v := cappedWrite (s.setNvs n)
  have pend : v.nvs.pend = n.pend := (congrArg NvsSt.pend store :)
  have image : v.nvs.fw = n.fw := (congrArg NvsSt.fw store :)
  have held : v.nvs.committed = n.committed := (congrArg NvsSt.committed store :)
  have kept : keeps [.nvs] v t := (setNvs_moves (s := v)).1
  exact ⟨keeps_mono (keeps_trans parts kept) (by decide), congrArg (tblSet (resetWord a) a (t.rd a)) held, pend, image, regs⟩

theorem commitFirmware_spec (n : NvsSt) (s : State) :
    let t := commitItem .firmware (cappedWrite (s.setNvs n))
    keeps [.nvs, .regs, .free, .hdrs, .links] s t ∧ t.nvs.fw = s.fw.nv ∧ t.nvs.pend = n.pend ∧ t.nvs.committed = n.committed ∧
      keepsRegs [regAddr pNvs 0x140] s t := by
  intro t
  obtain ⟨⟨w, l, store⟩, -, regs, parts⟩ := cappedStore_spec n s
  let v := cappedWrite (s.setNvs n)
  have pend : v.nvs.pend = n.pend := (congrArg NvsSt.pend store :)
  have held : v.nvs.committed = n.committed := (congrArg NvsSt.committed store :)
  have image : v.fw = s.fw := parts .fw (by decide)
  have kept : keeps [.nvs] v t := (setNvs_moves (s := v)).1
  exact ⟨keeps_mono (keeps_trans parts kept) (by decide), congrArg FwSt.nv image, pend, held, regs⟩

theorem commitHist_spec (e : Word × Word) (n : NvsSt) (s : State) (room : n.hist.length < 16) :
    let t := commitHist e (cappedWrite (s.setNvs n))
    keeps [.nvs, .regs, .free, .hdrs, .links] s t ∧ t.nvs.hist = n.hist ++ [e] ∧ t.nvs.histQ = n.histQ := by
  intro t
  obtain ⟨⟨w, l, store⟩, -, -, parts⟩ := cappedStore_spec n s
  let v := cappedWrite (s.setNvs n)
  have hist : v.nvs.hist = n.hist := (congrArg NvsSt.hist store :)
  have queue : v.nvs.histQ = n.histQ := (congrArg NvsSt.histQ store :)
  have stored : t.nvs.hist = (v.nvs.hist ++ [e]).drop ((v.nvs.hist ++ [e]).length - 16) := rfl
  have short : (n.hist ++ [e]).length - 16 = 0 := by
    rw [List.length_append, List.length_singleton]
    omega
  refine ⟨keeps_mono (keeps_trans parts (commitHist_moves (e := e)).1) (by decide), ?_, queue⟩
  rw [stored, hist, short, List.drop_zero]

theorem slotImage_setSlot (k : Nat) (l : List Byte) (v : Word) (s : State) : slotImage k (setSlot k l v s) = l := by
  unfold slotImage setSlot
  split <;> rfl

theorem imageBlock_spec (s : State) :
    let t := writeImageBlock (cappedWrite s)
    let l := slotImage s.fw.target s
    keeps [.nvs, .regs, .free, .hdrs, .links, .fw] s t ∧
      slotImage s.fw.target t = l ++ s.dramBytes ((s.reserved).1 + l.length) 64 ∧
      t.rp pNvs 0x11C = word (l.length / 64 + 1) ∧ keepsRegs [regAddr pNvs 0x140, regAddr pNvs 0x11C] s t := by
  intro t l
  obtain ⟨-, -, regs, parts⟩ := cappedWrite_spec s
  let v := cappedWrite s
  have fw : v.fw = s.fw := parts .fw (by decide)
  have image : slotImage v.fw.target v = l := by
    simp only [slotImage, fw, l]
  have dram : v.dram = s.dram := parts .dram (by decide)
  have reg (a : Nat) (h : a ≠ regAddr pNvs 0x140) : v.rd a = s.rd a := regs a (by simpa using h)
  have reserved : v.reserved = s.reserved := by
    rw [State.reserved, State.fld, State.fld, reg _ (by decide), reg (regAddr pMem 0x114) (by decide)]
    rfl
  have bytes (a : Nat) : v.dramBytes a 64 = s.dramBytes a 64 :=
    State.dramBytes_congr 64 fun c _ _ => dramByte_of_keeps parts (by decide) (by decide) c
  let k := v.fw.target
  let u := setSlot k (slotImage k v ++ v.dramBytes ((v.reserved).1 + (slotImage k v).length) 64) 0 v
  have eq : t = u.wp pNvs 0x11C (word ((slotImage k v).length / 64 + 1)) := rfl
  have kept : keeps [.regs, .fw] v t := (writeImageBlock_moves (s := v)).1
  refine ⟨keeps_mono (keeps_trans parts kept) (by decide), ?_, ?_, fun a h => ?_⟩
  · have slot : slotImage k t = slotImage k v ++ v.dramBytes ((v.reserved).1 + (slotImage k v).length) 64 := slotImage_setSlot _ _ _ _
    rw [← fw]
    exact slot.trans (by rw [image, bytes, reserved])
  · rw [eq, image]
    exact State.rd_wr_same u _ _
  · have apart : a ≠ regAddr pNvs 0x140 ∧ a ≠ regAddr pNvs 0x11C := by simpa using h
    have slot : u.rd a = v.rd a := congrFun (rd_of_keeps (setSlot_moves (s := v)).1 (by decide)) a
    rw [eq]
    exact (State.rd_wr_other u apart.2 _).trans (slot.trans (regs a (by simpa using apart.1)))

/-! ### The checkpoint (R229) -/

theorem exec_nvsCheckpoint_eq (on : s.running = true) (room : capOpen s = true)
    (empty : ∀ c, (s.opt.get c).live = none ∧ (s.opt.get c).leaving = []) :
    exec .nvsCheckpoint s = .next (commitItem .checkpoint (cappedWrite (s.setNvs { s.nvs with pend := s.nvs.pend.erase .checkpoint }))) := by
  have row : exec .nvsCheckpoint s = execNvsCheckpoint s := rfl
  have one (c : AB) : (if ((saveLeft c s).opt.get c).live.isSome then writeOrDefer (.life c.num) (saveLeft c s) else saveLeft c s) = s := by
    obtain ⟨live, leaving⟩ := empty c
    have saved : saveLeft c s = s := by rw [saveLeft, leaving, List.foldl_nil]
    rw [saved, live, Option.isSome_none, if_neg (by decide)]
  rw [row, execNvsCheckpoint, whenOn_running on]
  dsimp only
  rw [one .a, one .b, writeOrDefer, if_pos room]

theorem commitCheckpoint_spec (n : NvsSt) (s : State) :
    let t := commitItem .checkpoint (cappedWrite (s.setNvs n))
    t.nvs.checkpoint = backupCounts s ∧ t.rp pNvs 0x140 = s.rp pNvs 0x140 + 1 ∧ keepsRegs [regAddr pNvs 0x140] s t ∧
      keeps [.nvs, .regs, .free, .hdrs, .links] s t := by
  intro t
  obtain ⟨-, count, regs, parts⟩ := cappedStore_spec n s
  let v := cappedWrite (s.setNvs n)
  have kept : keeps [.nvs] v t := (setNvs_moves (s := v)).1
  have counts : backupCounts v = backupCounts s := by
    refine List.map_congr_left fun i small => congrArg BitVec.toNat (regs (regAddr pBkp (0x124 + 4 * i)) ?_)
    have short : i < 4 := List.mem_range.mp small
    rw [List.mem_singleton, regAddr, regAddr, pBkp, pNvs]
    omega
  exact ⟨counts, count, regs, keeps_mono (keeps_trans parts kept) (by decide)⟩

theorem deferred_spec (s : State) :
    let t := deferred s
    t.nvs = { s.nvs with deferring := true } ∧ keepsRegs [] s t ∧ keeps [.nvs, .hdrs, .links] s t := by
  intro t
  refine ⟨?_, fun a _ => congrFun (rd_of_keeps (deferred_moves (s := s)).1 (by decide)) a, keeps_mono (deferred_moves (s := s)).1 (by decide)⟩
  unfold t deferred
  split
  · next held => rw [← held]
  · exact raise_keeps _ _ _ .nvs (by decide)

end

/-! ### O40 -/

/-- Settles O40, by what a record write, a checkpoint and each commit write. -/
theorem recordsAreStored : Obligations.RecordsAreStored := by
  unfold Obligations.RecordsAreStored
  intro s on
  refine ⟨?_, fun empty room => ?_, fun room rest => ⟨fun a pend => ?_, fun pend => ?_, fun e r pend hist short => ?_,
    fun pend hist image => ?_⟩, fun full pend => ?_⟩
  · have row : exec .backupRecordWrite s = whenOn s (if s.running then .next (writeRecord s) else .next s) := rfl
    rw [row, whenOn_running on, if_pos on]
    exact ⟨_, rfl, writeRecord_spec s⟩
  · have none_ (c : AB) : (s.opt.get c).live = none ∧ (s.opt.get c).leaving = [] := by
      rw [empty]
      cases c <;> exact ⟨rfl, rfl⟩
    rw [exec_nvsCheckpoint_eq on room none_]
    exact ⟨_, rfl, commitCheckpoint_spec _ s⟩
  · rw [exec_nvsCommit_pend on pend, if_pos room]
    exact ⟨_, rfl, commitReg_spec a _ s⟩
  · rw [exec_nvsCommit_pend on pend, if_pos room]
    exact ⟨_, rfl, commitFirmware_spec _ s⟩
  · rw [exec_nvsCommit_hist on room pend hist]
    exact ⟨_, rfl, commitHist_spec e _ s short⟩
  · rw [exec_nvsCommit_image on room pend hist image]
    exact ⟨_, rfl, imageBlock_spec s⟩
  · obtain ⟨x, l, waits⟩ := List.exists_cons_of_ne_nil pend
    obtain ⟨store, regs, parts⟩ := deferred_spec s
    rw [exec_nvsCommit_pend on waits, if_neg (by rw [full]; decide)]
    exact ⟨_, rfl, keeps_mono parts (by decide), (congrArg NvsSt.pend store :), (congrArg NvsSt.committed store :), (congrArg NvsSt.deferring store :), regs⟩

end Sys2Proof.Machine

/-!
PROOFS. Govar images (R132 to R138): the commands of NVS_FW_CTRL and NVS_FW_COMMIT, the ends of a check and of a write, and a start of the
Keeper. It settles O36.
-/

namespace Sys2Proof.Machine

section
variable {m : AB} {s t : State}

/-! ### What waits for the store -/

theorem nvQueue_mem (x : NvItem) (s : State) : x ∈ (nvQueue x s).nvs.pend := by
  unfold nvQueue
  split
  · next held => exact List.contains_iff_mem.mp held
  · exact List.mem_append_right _ (List.mem_singleton_self x)

theorem mem_nvQueue {x y : NvItem} (h : y ∈ s.nvs.pend) : y ∈ (nvQueue x s).nvs.pend := by
  unfold nvQueue
  split
  · exact h
  · exact List.mem_append_left _ h

theorem nvQueue_fw (x : NvItem) (s : State) : (nvQueue x s).fw = s.fw := part_of_moves .fw nvQueue_moves rfl

/-! ### A start of the Keeper (R136) -/

/-- An empty Keeper, one start later. -/
def keeperAfresh (k : KeeperSt) : KeeperSt :=
  { k with started := true, upSec := 0, upUs := 0, starts := k.starts + 1, taken := ⟨[], []⟩, held := ⟨[], []⟩, capture := [], capSeq := 0 }

theorem chooseImage_congr (h : t.fw = s.fw) : chooseImage t = chooseImage s := by
  have slot (k : Nat) : slotImage k t = slotImage k s := by rw [slotImage, h, slotImage]
  simp only [chooseImage, slot, h]

theorem keeperStart_spec (s : State) :
    let t := keeperStart s
    t.keeper = keeperAfresh s.keeper ∧ t.fw = { s.fw with running := (chooseImage s).1, nv := (chooseImage s).2.1, trialDied := false } ∧
      (t.fw.nv ≠ s.fw.nv ∨ NvItem.firmware ∈ s.nvs.pend → NvItem.firmware ∈ t.nvs.pend) ∧ keepsRegs [regAddr pFlt 0x120] s t ∧
      keeps [.regs, .hdrs, .nvs, .links, .keeper, .fw] s t := by
  intro t
  let c := chooseImage s
  let n := (s.keeper.held.get .a).length + (s.keeper.held.get .b).length
  let u : State := { s.bump (regAddr pFlt 0x120) n with
    keeper := keeperAfresh s.keeper, fw := { s.fw with running := c.1, nv := c.2.1, trialDied := false } }
  let v := if decide (c.2.1 ≠ s.fw.nv) then nvQueue .firmware u else u
  have begun : t = if c.2.2 then raise pNvs 2 v else v := rfl
  have raised : keeps [.hdrs, .links] v t := begun ▸ (moves_ite raise_moves moves_rfl : moves [.hdrs, .links] v _).1
  have queued : keeps [.nvs] u v := (moves_ite nvQueue_moves moves_rfl : moves [.nvs] u v).1
  have kept := keeps_trans queued raised
  have image : t.fw = u.fw := kept .fw (by decide)
  refine ⟨kept .keeper (by decide), image, fun waits => ?_, fun a h => ?_, (keeperStart_moves (s := s)).1⟩
  · rw [show t.nvs = v.nvs from raised .nvs (by decide)]
    have changed : t.fw.nv = c.2.1 := congrArg FwSt.nv image
    obtain differs | already := waits
    · rw [show v = nvQueue .firmware u from if_pos (decide_eq_true (changed ▸ differs))]
      exact nvQueue_mem _ _
    · exact ite_all (P := fun x => NvItem.firmware ∈ x.nvs.pend) (mem_nvQueue already) already
  · exact (congrFun (rd_of_keeps kept (by decide)) a).trans (wr_keepsRegs _ _ s a h)

/-! ### The commands (R133, R135, R137) -/

/-- A command of NVS_FW_CTRL. -/
theorem writeReg_fwCtrl {b : Nat} {f : FwSt} (ok : admits m pNvs 0x104 fwCtrlHandler (field b 1 1) s = true)
    (run : ∀ u : State, u.fw = s.fw → keepsRegs [regAddr pPrs 0x110] s u → fwCtrlHandler.run m (field b 1 1) u = { u with fw := f }) :
    let t := writeReg m pNvs 0x104 fwCtrlHandler (field b 1 1) s
    t.last = .done ∧ t.fw = f ∧ keepsRegs [regAddr pPrs 0x110] s t ∧ keepsHdrs [pNvs] s t ∧
      keeps [.fw, .last, .regs, .nvs, .hdrs, .links] s t := by
  intro t
  obtain ⟨u, used, regs, eq⟩ := writeReg_used ok
  have image : u.fw = s.fw := part_of_moves .fw used rfl
  have hdrs : ∀ p, u.hdr p = s.hdr p := fun p => keepsHdrs_of_keeps used.1 (by decide) p (by simp)
  have step : t = ended .ok 0 .none { u with fw := f } := eq.trans (by rw [run u image regs])
  rw [step]
  refine ⟨rfl, rfl, regs, fun p _ => hdrs p, ?_⟩
  exact keeps_mono (keeps_trans (keeps_trans used.1 (with_fw_moves (s := u)).1) (ended_keeps _ _ _ _)) (by decide)
theorem fwOpen_run {u : State} (image : u.fw = s.fw) :
    fwCtrlHandler.run m (field 0 1 1) u = { u with fw := { s.fw with stager := some m } } := by
  rw [← image]
  rfl

theorem fwClose_run {u : State} (stager : s.fw.stager = some m) (image : u.fw = s.fw) :
    fwCtrlHandler.run m (field 1 1 1) u = { u with fw := { s.fw with stager := none } } := by
  have mine : (u.fw.stager == some m) = true := by rw [image, stager, beq_self_eq_true]
  have run : fwCtrlHandler.run m (field 1 1 1) u = if u.fw.stager == some m then { u with fw := { u.fw with stager := none } } else u := rfl
  rw [run, if_pos mine, image]

theorem fwLoad_run {u : State} (image : u.fw = s.fw) (regs : keepsRegs [regAddr pPrs 0x110] s u) :
    fwCtrlHandler.run m (field 2 1 1) u =
      { u with fw := { s.fw with load := .checking, len := s.fld (regAddr pNvs 0x108) 0 19 } } := by
  have len : u.fld (regAddr pNvs 0x108) 0 19 = s.fld (regAddr pNvs 0x108) 0 19 := congrArg (bits · 0 19) (regs _ (by decide))
  rw [← image, ← len]
  rfl

theorem fwConfirm_done (ok : admits m pNvs 0x104 fwCtrlHandler (field 3 1 1) s = true) :
    let t := writeReg m pNvs 0x104 fwCtrlHandler (field 3 1 1) s
    t.last = .done ∧ t.fw = { s.fw with nv := { s.fw.nv with confirmed := s.fw.nv.committed, trial := false } } ∧
      NvItem.firmware ∈ t.nvs.pend ∧ intRawBit t pNvs 3 = true ∧ keepsRegs [regAddr pPrs 0x110] s t ∧ keepsHdrs [pNvs] s t ∧
      keeps [.fw, .last, .regs, .nvs, .hdrs, .links] s t := by
  intro t
  obtain ⟨u, used, regs, eq⟩ := writeReg_used ok
  have image : u.fw = s.fw := part_of_moves .fw used rfl
  let v : State := { u with fw := { s.fw with nv := { s.fw.nv with confirmed := s.fw.nv.committed, trial := false } } }
  have run : fwCtrlHandler.run m (field 3 1 1) u = raise pNvs 3 (nvQueue .firmware v) := by
    unfold v
    rw [← image]
    rfl
  have step : t = ended .ok 0 .none (raise pNvs 3 (nvQueue .firmware v)) := eq.trans (by rw [run])
  have raised := raise_keeps pNvs 3 (nvQueue .firmware v)
  have queued : keeps [.nvs] v (nvQueue .firmware v) := (nvQueue_moves (s := v)).1
  have before : keeps [.regs, .fw] s v := keeps_trans used.1 (with_fw_moves (s := u)).1
  have kept := keeps_trans before (keeps_trans queued raised)
  rw [step]
  refine ⟨rfl, (keeps_trans queued raised) .fw (by decide), ?_, raise_intRaw _ _ _ (by decide), fun a h => ?_, fun p h => ?_,
    keeps_mono (keeps_trans kept (ended_keeps _ _ _ _)) (by decide)⟩
  · have store : (raise pNvs 3 (nvQueue .firmware v)).nvs = (nvQueue .firmware v).nvs := raised .nvs (by decide)
    exact store ▸ nvQueue_mem .firmware v
  · exact (congrFun (rd_of_keeps (keeps_trans queued raised) (by decide)) a).trans (regs a h)
  · exact (raise_keepsHdrs _ _ _ p h).trans (keepsHdrs_of_keeps (keeps_trans before queued) (by decide) p (by simp))

/-- The state in which an accepted NVS_FW_COMMIT has stored the fields `f`. -/
structure committedAs (f : FwSt) (s t : State) : Prop where
  fw : t.fw = f
  waits : NvItem.firmware ∈ t.nvs.pend
  regs : keepsRegs [regAddr pPrs 0x110] s t
  parts : keeps [.fw, .regs, .nvs] s t

theorem committedAs_of_used {f : FwSt} {u : State} (used : moves [.regs] s u) (regs : keepsRegs [regAddr pPrs 0x110] s u) :
    committedAs f s (nvQueue .firmware { u with fw := f }) := by
  have queued : keeps [.fw, .nvs] u (nvQueue .firmware { u with fw := f }) :=
    (nvQueue_moves.after rfl <| with_fw_moves.within rfl : moves [.fw, .nvs] u _).1
  exact ⟨nvQueue_fw _ _, nvQueue_mem _ _, fun a h => (congrFun (rd_of_keeps queued (by decide)) a).trans (regs a h),
    keeps_mono (keeps_trans used.1 queued) (by decide)⟩

/-- A command of NVS_FW_COMMIT that leaves the Keeper running. -/
theorem writeReg_fwCommit {v : Word} {f : FwSt} (ok : admits m pNvs 0x10C fwCommitHandler v s = true)
    (run : ∀ u : State, u.fw = s.fw → fwCommitHandler.run m v u = nvQueue .firmware { u with fw := f }) :
    let t := writeReg m pNvs 0x10C fwCommitHandler v s
    t.last = .done ∧ t.fw = f ∧ NvItem.firmware ∈ t.nvs.pend ∧ keepsRegs [regAddr pPrs 0x110] s t ∧ keepsHdrs [pNvs] s t ∧
      keeps [.fw, .last, .regs, .nvs, .hdrs, .links] s t := by
  intro t
  obtain ⟨u, used, regs, eq⟩ := writeReg_used ok
  have step : t = ended .ok 0 .none (nvQueue .firmware { u with fw := f }) := eq.trans (by rw [run u (part_of_moves .fw used rfl)])
  obtain ⟨fw, waits, kept, parts⟩ := committedAs_of_used (f := f) used regs
  rw [step]
  exact ⟨rfl, fw, waits, kept, fun p _ => keepsHdrs_of_keeps parts (by decide) p (by simp),
    keeps_mono (keeps_trans parts (ended_keeps _ _ _ _)) (by decide)⟩

/-- A start of the Keeper behind a write of NVS_FW_COMMIT that has left `u`, with the fields `f`. -/
theorem restarted_spec {f : FwSt} {u : State} (kept : keeps [.fw, .regs, .nvs] s u) (image : u.fw = f)
    (waits : f.nv = s.fw.nv ∨ NvItem.firmware ∈ u.nvs.pend) :
    let t := ended .ok 0 .none (keeperStart u)
    keeps [.fw, .keeper, .last, .regs, .nvs, .hdrs, .links] s t ∧ t.last = .done ∧ t.keeper = keeperAfresh s.keeper ∧
      t.fw = { f with running := (chooseImage { s with fw := f }).1, nv := (chooseImage { s with fw := f }).2.1, trialDied := false } ∧
      (t.fw.nv ≠ s.fw.nv → NvItem.firmware ∈ t.nvs.pend) := by
  intro t
  obtain ⟨keeper, fw, pend, -, parts⟩ := keeperStart_spec u
  have chosen : chooseImage u = chooseImage { s with fw := f } := chooseImage_congr image
  have before : u.keeper = s.keeper := kept .keeper (by decide)
  refine ⟨keeps_mono (keeps_trans (keeps_trans kept parts) (ended_keeps _ _ _ _)) (by decide), rfl, before ▸ keeper,
    by rw [← chosen, ← image]; exact fw, fun differs => pend ?_⟩
  obtain same | already := waits
  · refine .inl fun eq => differs ?_
    exact eq.trans (by rw [image, same])
  · exact .inr already

/-- A command of NVS_FW_COMMIT that starts the Keeper on the fields `f`. -/
theorem writeReg_fwStart {v : Word} {f : FwSt} (ok : admits m pNvs 0x10C fwCommitHandler v s = true)
    (run : ∀ u : State, u.fw = s.fw → fwCommitHandler.run m v u = keeperStart (nvQueue .firmware { u with fw := f })) :
    let t := writeReg m pNvs 0x10C fwCommitHandler v s
    keeps [.fw, .keeper, .last, .regs, .nvs, .hdrs, .links] s t ∧ t.last = .done ∧ t.keeper = keeperAfresh s.keeper ∧
      t.fw = { f with running := (chooseImage { s with fw := f }).1, nv := (chooseImage { s with fw := f }).2.1, trialDied := false } ∧
      (t.fw.nv ≠ s.fw.nv → NvItem.firmware ∈ t.nvs.pend) := by
  intro t
  obtain ⟨u, used, regs, eq⟩ := writeReg_used ok
  obtain ⟨fw, waits, -, parts⟩ := committedAs_of_used (f := f) used regs
  have step : t = ended .ok 0 .none (keeperStart (nvQueue .firmware { u with fw := f })) :=
    eq.trans (by rw [run u (part_of_moves .fw used rfl)])
  rw [step]
  exact restarted_spec parts fw (.inr waits)

theorem fwRestart_done (ok : admits m pNvs 0x10C fwCommitHandler (field 1 1 1) s = true) :
    let t := writeReg m pNvs 0x10C fwCommitHandler (field 1 1 1) s
    keeps [.fw, .keeper, .last, .regs, .nvs, .hdrs, .links] s t ∧ t.last = .done ∧ t.keeper = keeperAfresh s.keeper ∧
      t.fw = { s.fw with running := (chooseImage s).1, nv := (chooseImage s).2.1, trialDied := false } ∧
      (t.fw.nv ≠ s.fw.nv → NvItem.firmware ∈ t.nvs.pend) := by
  intro t
  obtain ⟨u, used, -, eq⟩ := writeReg_used ok
  have step : t = ended .ok 0 .none (keeperStart u) := eq
  rw [step]
  exact restarted_spec (keeps_mono used.1 (by decide)) (part_of_moves .fw used rfl) (.inl rfl)

/-! ### The ends of a check and of a write (R134) -/

theorem loadBad_spec (c : Nat) (s : State) :
    let t := loadBad c s
    t.fw = { s.fw with load := .bad, badCause := c } ∧ intRawBit t pNvs 1 = true ∧ keepsHdrs [pNvs] s t ∧ keeps [.fw, .hdrs, .links] s t :=
  ⟨raise_keeps pNvs 1 _ .fw (by decide), raise_intRaw _ _ _ (by decide), raise_keepsHdrs pNvs 1 _,
    keeps_mono (loadBad_moves (c := c) (s := s)).1 (by decide)⟩

theorem fwCheckDone_bad (on : s.running = true) (load : s.fw.load = .checking) {c : Nat}
    (cause : imageCheck (stagedImage s) (stagedImage s).length = c) (bad : c ≠ 0) : exec .fwCheckDone s = .next (loadBad c s) := by
  have row : exec .fwCheckDone s = execFwCheckDone s := rfl
  rw [row, execFwCheckDone, whenOn_running on, load, if_neg (by simp)]
  dsimp only
  rw [cause, if_pos bad]

theorem fwCheckDone_full (on : s.running = true) (load : s.fw.load = .checking)
    (good : imageCheck (stagedImage s) (stagedImage s).length = 0) (full : freeSlot s = none) :
    exec .fwCheckDone s = .next (loadBad 6 s) := by
  have row : exec .fwCheckDone s = execFwCheckDone s := rfl
  rw [row, execFwCheckDone, whenOn_running on, load, if_neg (by simp)]
  dsimp only
  rw [good, if_neg (by simp), full]

theorem fwCheckDone_writes (on : s.running = true) (load : s.fw.load = .checking)
    (good : imageCheck (stagedImage s) (stagedImage s).length = 0) {k : Nat} (free : freeSlot s = some k) :
    exec .fwCheckDone s =
      .next ((setSlot k [] 0 { s with fw := { s.fw with load := .writing, target := k } }).wp pNvs 0x11C 0) := by
  have row : exec .fwCheckDone s = execFwCheckDone s := rfl
  rw [row, execFwCheckDone, whenOn_running on, load, if_neg (by simp)]
  dsimp only
  rw [good, if_neg (by simp), free]

theorem setSlot_fw (k : Nat) (l : List Byte) (v : Word) (s : State) :
    (setSlot k l v s).fw = if k = 1 then { s.fw with slot1 := l, ver1 := v } else { s.fw with slot2 := l, ver2 := v } := by
  unfold setSlot
  split <;> rfl

theorem slotStarted_spec (k : Nat) (s : State) :
    let t := (setSlot k [] 0 { s with fw := { s.fw with load := .writing, target := k } }).wp pNvs 0x11C 0
    t.fw.load = .writing ∧ t.fw.target = k ∧ slotImage k t = [] ∧ t.rp pNvs 0x11C = 0 ∧ keepsRegs [regAddr pNvs 0x11C] s t ∧
      keeps [.fw, .regs] s t := by
  intro t
  let u : State := { s with fw := { s.fw with load := .writing, target := k } }
  have fw : t.fw = (setSlot k [] 0 u).fw := rfl
  have slots : keeps [.fw] s (setSlot k [] 0 u) := (setSlot_moves.after rfl <| with_fw_moves.within rfl : moves [.fw] s _).1
  refine ⟨?_, ?_, slotImage_setSlot _ _ _ _, State.rd_wr_same _ _ _, fun a h => ?_, ?_⟩
  · rw [fw, setSlot_fw]
    split <;> rfl
  · rw [fw, setSlot_fw]
    split <;> rfl
  · exact (State.rd_wr_other (setSlot k [] 0 u) (by simpa using h) _).trans (congrFun (rd_of_keeps slots (by decide)) a)
  · exact keeps_mono (keeps_trans slots (wr_keeps _ _ _)) (by decide)

theorem exec_fwWriteDone_eq (on : s.running = true) (load : s.fw.load = .writing) (whole : imageWaits s = false) (ok : Bool) :
    let l := slotImage s.fw.target s
    exec (.fwWriteDone ok) s = if (ok && imageCheck l l.length == 0) = true then
        .next (raise pNvs 0 (setSlot s.fw.target l (word (beAt l 4 4)) { s with fw := { s.fw with load := .loaded } }))
      else .next (loadBad 7 s) := by
  have row : exec (.fwWriteDone ok) s = execFwWriteDone ok s := rfl
  have ready : ¬(s.fw.load ≠ .writing ∨ imageWaits s = true) := by simp [load, whole]
  rw [row, execFwWriteDone, whenOn_running on, if_neg ready]

theorem slotLoaded_spec (s : State) :
    let l := slotImage s.fw.target s
    let t := raise pNvs 0 (setSlot s.fw.target l (word (beAt l 4 4)) { s with fw := { s.fw with load := .loaded } })
    keeps [.fw, .hdrs, .links] s t ∧ keepsHdrs [pNvs] s t ∧ t.fw.load = .loaded ∧ slotImage s.fw.target t = l ∧ t.fw.nv = s.fw.nv ∧
      t.fw.running = s.fw.running ∧ intRawBit t pNvs 0 = true ∧
      (if s.fw.target = 1 then t.fw.ver1 else t.fw.ver2) = word (beAt l 4 4) := by
  intro l t
  let k := s.fw.target
  let u := setSlot k l (word (beAt l 4 4)) { s with fw := { s.fw with load := .loaded } }
  have slots : keeps [.fw] s u := (setSlot_moves.after rfl <| with_fw_moves.within rfl : moves [.fw] s _).1
  have raised := raise_keeps pNvs 0 u
  have fw : t.fw = u.fw := raised .fw (by decide)
  have image : slotImage k u = l := slotImage_setSlot _ _ _ _
  refine ⟨keeps_mono (keeps_trans slots raised) (by decide),
    fun p h => (raise_keepsHdrs _ _ u p h).trans (keepsHdrs_of_keeps slots (by decide) p (by simp)), ?_, ?_, ?_, ?_,
    raise_intRaw _ _ _ (by decide), ?_⟩
  · rw [fw, setSlot_fw]
    split <;> rfl
  · rw [slotImage, fw]
    exact image
  · rw [fw, setSlot_fw]
    split <;> rfl
  · rw [fw, setSlot_fw]
    split <;> rfl
  · rw [fw, setSlot_fw]
    split <;> rfl

/-! ### The watchdog (R138) -/

/-- The Keeper has died once more. -/
def keeperMarked (s : State) : State :=
  { s.bump (regAddr pFlt 0x124) 1 with
    keeper := { s.keeper with restarts := s.keeper.restarts.filter (fun x => decide (s.clock < x + 600000000)) ++ [s.clock] }
    fw := { s.fw with trialDied := s.fw.nv.trial && s.fw.running == s.fw.nv.committed } }

theorem exec_keeperWatchdog_eq (on : s.running = true)
    (few : (s.keeper.restarts.filter (fun x => decide (s.clock < x + 600000000))).length < 2) :
    exec .keeperWatchdog s =
      .next (keeperStart (recordFault pFlt 0x0401 (word (keeperMarked s).keeper.restarts.length) 0 (keeperMarked s))) := by
  have row : exec .keeperWatchdog s = execKeeperWatchdog s := rfl
  have short : ¬3 ≤ (s.keeper.restarts.filter (fun x => decide (s.clock < x + 600000000)) ++ [s.clock]).length := by
    rw [List.length_append, List.length_singleton]
    omega
  rw [row, execKeeperWatchdog, whenOn_running on, keeperDied]
  exact congrArg Host.Outcome.next (if_neg short)

theorem keeperRevived_spec (d : Word) (s : State) :
    let t := keeperStart (recordFault pFlt 0x0401 d 0 (keeperMarked s))
    keeps [.fw, .keeper, .regs, .nvs, .hdrs, .links, .log] s t ∧ t.keeper.taken = ⟨[], []⟩ ∧ t.keeper.held = ⟨[], []⟩ ∧
      t.keeper.capture = [] ∧ t.keeper.starts = s.keeper.starts + 1 ∧ t.rp pFlt 0x124 = s.rp pFlt 0x124 + 1 ∧ t.power = s.power := by
  intro t
  let u := recordFault pFlt 0x0401 d 0 (keeperMarked s)
  obtain ⟨keeper, -, -, regs, parts⟩ := keeperStart_spec u
  obtain ⟨faultParts, faultRegs, -⟩ := recordFault_spec pFlt 0x0401 d 0 (keeperMarked s)
  have marked : keeps [.regs, .keeper, .fw] s (keeperMarked s) :=
    (with_keeper_fw_moves.after rfl <| bump_moves.within rfl : moves [.regs, .keeper, .fw] s _).1
  have kept := keeps_trans (keeps_trans marked faultParts) parts
  have before : u.keeper = (keeperMarked s).keeper := faultParts .keeper (by decide)
  rw [before] at keeper
  refine ⟨keeps_mono kept (by decide), by rw [keeper]; rfl, by rw [keeper]; rfl, by rw [keeper]; rfl, by rw [keeper]; rfl, ?_,
    kept .power (by decide)⟩
  exact (regs _ (by decide)).trans ((faultRegs _ (by decide)).trans (State.rd_wr_same s _ _))

end

/-! ### O36 -/

/-- Settles O36, by what each command of NVS_FW_CTRL and NVS_FW_COMMIT stores, the ends of a check and of a write, and `keeperStart_spec`. -/
theorem firmwareUpdates : Obligations.FirmwareUpdates := by
  unfold Obligations.FirmwareUpdates
  refine fun m s on => ⟨fun ok => ?_, fun ok stager => ?_, fun ok => ?_, fun ok => ?_, fun load => ?_, fun load whole => ⟨fun good => ?_, ?_⟩,
    fun ok => ?_, fun ok => ?_, fun ok => ?_, fun ok => ?_, fun ok => ?_, fun few => ?_⟩
  · exact after_running on rfl (writeReg_fwCtrl ok fun u image _ => fwOpen_run image)
  · exact after_running on rfl (writeReg_fwCtrl ok fun u image _ => fwClose_run stager image)
  · exact after_running on rfl (writeReg_fwCtrl ok fun u image regs => fwLoad_run image regs)
  · exact after_running on rfl (fwConfirm_done ok)
  · by_cases good : imageCheck (stagedImage s) (stagedImage s).length = 0
    · cases free : freeSlot s with
      | none =>
        obtain ⟨fw, -, -, parts⟩ := loadBad_spec 6 s
        rw [fwCheckDone_full on load good free]
        exact ⟨_, rfl, keeps_mono parts (by decide), fun bad => absurd good bad, fun k _ some_ => (nomatch some_), fun _ _ => fw⟩
      | some k =>
        obtain ⟨writing, target, image, count, regs, parts⟩ := slotStarted_spec k s
        rw [fwCheckDone_writes on load good free]
        refine ⟨_, rfl, keeps_mono parts (by decide), fun bad => absurd good bad, fun j _ same => ?_, fun _ none_ => (nomatch none_)⟩
        obtain rfl : k = j := Option.some.inj same
        exact ⟨writing, target, image, count, regs⟩
    · obtain ⟨fw, raised, -, parts⟩ := loadBad_spec (imageCheck (stagedImage s) (stagedImage s).length) s
      rw [fwCheckDone_bad on load rfl good]
      exact ⟨_, rfl, keeps_mono parts (by decide), fun _ => ⟨fw, raised⟩, fun _ zero => absurd zero good, fun zero => absurd zero good⟩
  · obtain ⟨parts, hdrs, done⟩ := slotLoaded_spec s
    rw [exec_fwWriteDone_eq on load whole]
    exact ⟨_, if_pos (by rw [good]; rfl), ⟨parts, hdrs⟩, done⟩
  · obtain ⟨fw, raised, hdrs, parts⟩ := loadBad_spec 7 s
    rw [exec_fwWriteDone_eq on load whole]
    exact ⟨_, if_neg (by simp), ⟨parts, hdrs⟩, fw, raised⟩
  · exact after_running on rfl (writeReg_fwCommit ok fun u image => by rw [← image]; rfl)
  · exact after_running on rfl (writeReg_fwCommit ok fun u image => by rw [← image]; rfl)
  · exact after_running on rfl (writeReg_fwStart ok fun u image => by rw [← image]; rfl)
  · exact after_running on rfl (writeReg_fwStart ok fun u image => by rw [← image]; rfl)
  · exact after_running on rfl (fwRestart_done ok)
  · rw [exec_keeperWatchdog_eq on few]
    exact ⟨_, rfl, keeperRevived_spec _ s⟩

end Sys2Proof.Machine

/-!
PROOFS. The Keeper's mailbox services (R125 to R129, Table 4-8) and its capture store (R128, R378). It settles O35.
-/

namespace Sys2Proof.Machine

section
variable {m : AB} {s t : State}

/-! ### A reply in its channel (R127, R129) -/

/-- The words of a reply in the registers of channel `i`. -/
def wordsPut (i n : Nat) (w : List Word) (s : State) : State := (w.zipIdx n).foldl (fun s x => s.wp (pMbx i) (0x140 + 4 * x.2) x.1) s

theorem wordsPut_keeps (i n : Nat) (w : List Word) (s : State) : keeps [.regs] s (wordsPut i n w s) :=
  (moves_foldl (fun _ _ => wp_moves.within rfl) moves_rfl : moves [.regs] s _).1

/-- In clean memory the words of a reply are only stored. -/
theorem wordsPut_of_memClean {i : Nat} (loc : Nat → MemLoc) (sib : Nat → Nat) (w : List Word) (n : Nat) (s : State) (clean : memClean s = true) :
    (w.zipIdx n).foldl (fun s x => wrotePart (loc x.2) 0 (sib x.2) (s.wp (pMbx i) (0x140 + 4 * x.2) x.1)) s = wordsPut i n w s := by
  induction w generalizing n s with
  | nil => rfl
  | cons x w ih =>
    have still : memClean (s.wp (pMbx i) (0x140 + 4 * n) x) = true := (memClean_wr (regAddr_pMbx_ne_ecc i _) x s).trans clean
    rw [List.zipIdx_cons, List.foldl_cons, wrotePart_of_memClean _ _ _ still, ih _ _ still, wordsPut, wordsPut, List.zipIdx_cons,
      List.foldl_cons]

theorem putReply_eq (m : AB) (w : List Word) (clean : memClean s = true) :
    putReply m w s = mbxSend (2 + m.num) w.length (wordsPut (2 + m.num) 0 w s) :=
  congrArg (mbxSend (2 + m.num) w.length) (wordsPut_of_memClean (mbxLoc (2 + m.num))
    (fun n => regAddr (pMbx (2 + m.num)) (0x140 + 4 * (n / 2 * 2 + 1 - n % 2))) w 0 s clean)

theorem putReply_spec {w : List Word} (short : w.length ≤ 16) (clean : memClean s = true) :
    let t := putReply m w s
    replied m w s t ∧ keepsRegs (mbxRegs (2 + m.num)) s t ∧ keepsHdrs [pMbx (2 + m.num)] s t ∧ keeps [.regs, .hdrs, .links, .mbx] s t := by
  intro t
  let i := 2 + m.num
  let u := wordsPut i 0 w s
  let b : Mbx := ⟨true, w.length, ((u.box i).sent + 1) % 65536⟩
  have eq : t = raise (pMbx i) 0 (u.setBox i b) := putReply_eq m w clean
  have words : keeps [.regs] s u := wordsPut_keeps i 0 w s
  have sent : keeps [.mbx, .hdrs, .links] u t := by
    rw [eq]
    exact keeps_trans (setBox_keeps i b u) (raise_keeps _ _ _)
  have reg (a : Nat) : t.rd a = u.rd a := congrFun (rd_of_keeps sent (by decide)) a
  have box : t.box i = b := by
    rw [eq, box_of_keeps (raise_keeps _ _ _) (by decide)]
    exact State.box_setBox_same u i b
  have same : u.box i = s.box i := box_of_keeps words (by decide) i
  refine ⟨⟨?_, ?_, ?_⟩, fun a h => ?_, fun p h => ?_, keeps_mono (keeps_trans words sent) (by decide)⟩
  · rw [box, ← same]
  · rw [mbxWords, box]
    refine List.ext_getElem (by simp [b]) fun k hk hk' => ?_
    have at_ := rd_wpWords (p := pMbx i) (off := 0x140) w 0 s hk'
    rw [Nat.zero_add] at at_
    rw [List.getElem_map, List.getElem_range, State.rp, reg]
    exact at_.trans (List.getD_eq_getElem _ _ hk')
  · rw [eq]
    exact raise_intRaw _ _ _ (by decide)
  · refine (reg a).trans (rd_wpWords_other w 0 s fun k hk eq => h ?_)
    rw [eq, Nat.zero_add]
    exact List.mem_map_of_mem (List.mem_range.mpr (by omega))
  · rw [eq]
    exact (raise_keepsHdrs _ _ _ p h).trans (keepsHdrs_of_keeps (keeps_trans words (setBox_keeps i b u)) (by decide) p (by simp))

/-! ### Serving a request (R126, R127) -/

theorem answerUnknown_of_known (n : Nat) (known : ∀ x ∈ s.keeper.taken.get m, knownOp (msgOp x) = true) : answerUnknown n m s = s := by
  cases n with
  | zero => rfl
  | succ n =>
    unfold answerUnknown
    cases h : s.keeper.taken.get m with
    | nil => rfl
    | cons w rest => exact if_pos (known w (by rw [h]; exact List.mem_cons_self))

/-- A request is answered at once, and the requests behind it wait on. -/
theorem serve_eq {op st : Nat} {w : List Word} {rest : List (List Word)} {f : List Word → State → Nat × List Word × State} {l : List Word}
    {k : KeeperSt} (ready : served m op w rest s) (gives : f w s = (st, l, { s with keeper := k })) (held : k.held = s.keeper.held)
    (taken : k.taken = s.keeper.taken) :
    serve m op f s = putReply m (replyHead w st :: (if st = 0 then l else []))
      { s with keeper := { k with taken := s.keeper.taken.set m rest } } := by
  obtain ⟨queue, is, low, known, opened, empty, clean⟩ := ready
  let u : State := { s with keeper := { k with taken := k.taken.set m rest } }
  have open_ : replyOpen m u = true := opened
  have none_ : (u.keeper.held.get m).isEmpty = true := by
    rw [show u.keeper.held = s.keeper.held from held, empty]
    rfl
  have sent (x : List Word) : sendReply m x u = putReply m x u := if_pos (by rw [open_, none_]; rfl)
  have left (x : List Word) : (putReply m x u).keeper.taken.get m = rest := by
    have same : (putReply m x u).keeper = u.keeper := part_of_moves .keeper putReply_moves rfl
    rw [same]
    exact Pair.get_set_same _ _ _
  rw [serve, queue]
  dsimp only
  rw [if_neg (by rw [is]; exact not_not_intro rfl), if_pos low, gives]
  dsimp only
  rw [sent, answerUnknown_of_known _ (by rw [left]; exact known)]
  unfold u
  rw [taken]

/-- What an answer leaves: the reply in its channel and a Keeper that is otherwise `k`. -/
theorem serve_spec {op st : Nat} {w : List Word} {rest : List (List Word)} {f : List Word → State → Nat × List Word × State} {l : List Word}
    {k : KeeperSt} (ready : served m op w rest s) (gives : f w s = (st, l, { s with keeper := k })) (held : k.held = s.keeper.held)
    (taken : k.taken = s.keeper.taken) (short : l.length ≤ 15) :
    let t := serve m op f s
    replied m (replyHead w st :: (if st = 0 then l else [])) s t ∧ t.keeper = { k with taken := s.keeper.taken.set m rest } ∧
      t.keeper.taken.get m = rest ∧ keepsRegs (mbxRegs (2 + m.num)) s t ∧ keepsHdrs [pMbx (2 + m.num)] s t ∧
      keeps [.regs, .hdrs, .links, .mbx, .keeper] s t := by
  intro t
  let u : State := { s with keeper := { k with taken := s.keeper.taken.set m rest } }
  have eq : t = putReply m (replyHead w st :: (if st = 0 then l else [])) u := serve_eq ready gives held taken
  obtain ⟨-, -, -, -, -, -, clean⟩ := ready
  have fits : (replyHead w st :: (if st = 0 then l else [])).length ≤ 16 := by
    split
    · exact Nat.succ_le_succ short
    · exact Nat.succ_le_succ (Nat.zero_le _)
  obtain ⟨sent, regs, hdrs, parts⟩ := putReply_spec (m := m) (s := u) fits clean
  have keeper : t.keeper = u.keeper := eq ▸ parts .keeper (by decide)
  rw [eq] at keeper ⊢
  exact ⟨sent, keeper, by rw [keeper]; exact Pair.get_set_same _ _ _, regs, hdrs,
    keeps_mono (keeps_trans (with_keeper_moves (s := s)).1 parts) (by decide)⟩

/-- A command of the Keeper that serves the oldest request. -/
theorem served_update {op st : Nat} {w : List Word} {rest : List (List Word)} {f : List Word → State → Nat × List Word × State} {l : List Word}
    {k : KeeperSt} {i : Instr} (on : s.running = true) (row : exec i s = whenOn s (.next (serve m op f s))) (ready : served m op w rest s)
    (gives : f w s = (st, l, { s with keeper := k })) (held : k.held = s.keeper.held) (taken : k.taken = s.keeper.taken)
    (short : l.length ≤ 15) :
    After (exec i s) fun t => replied m (replyHead w st :: (if st = 0 then l else [])) s t ∧
      t.keeper = { k with taken := s.keeper.taken.set m rest } ∧ t.keeper.taken.get m = rest ∧
      keepsRegs (mbxRegs (2 + m.num)) s t ∧ keepsHdrs [pMbx (2 + m.num)] s t ∧ keeps [.regs, .hdrs, .links, .mbx, .keeper] s t :=
  after_running on row (serve_spec ready gives held taken short)

/-- A request that leaves the Keeper's stores alone. -/
theorem served_answer {op st : Nat} {w : List Word} {rest : List (List Word)} {f : List Word → State → Nat × List Word × State} {l : List Word}
    {i : Instr} (on : s.running = true) (row : exec i s = whenOn s (.next (serve m op f s))) (ready : served m op w rest s)
    (gives : f w s = (st, l, s)) (short : l.length ≤ 15) :
    After (exec i s) fun t => replied m (replyHead w st :: (if st = 0 then l else [])) s t ∧ t.keeper.taken.get m = rest ∧
      keepsRegs (mbxRegs (2 + m.num)) s t ∧ keepsHdrs [pMbx (2 + m.num)] s t ∧ keeps [.regs, .hdrs, .links, .mbx, .keeper] s t := by
  obtain ⟨t, next, sent, -, rest⟩ := served_update (k := s.keeper) on row ready gives rfl rfl short
  exact ⟨t, next, sent, rest⟩

/-- A CAPTURE_READ in range that finds its entry, by what it answers of it. -/
theorem captureRead_found {h q o : Word} {e : Capture} (whole : o.toNat % 4 = 0) (small : o.toNat < 256)
    (found : s.keeper.capture.find? (fun c => word c.seq == q) = some e) (g : Capture → Nat × List Word × State) :
    (if ([h, q, o] : List Word).length ≠ 3 ∨ o.toNat % 4 ≠ 0 ∨ 256 ≤ o.toNat then (0x04, [], s)
      else match s.keeper.capture.find? (fun c => word c.seq == q) with
        | none => (0x03, [], s)
        | some e => g e) = g e := by
  have ok : ¬(([h, q, o] : List Word).length ≠ 3 ∨ o.toNat % 4 ≠ 0 ∨ 256 ≤ o.toNat) := by
    simp only [List.length_cons, List.length_nil]
    omega
  rw [if_neg ok, found]

theorem captureFree_done {h q : Word} {rest : List (List Word)} (on : s.running = true) (ready : served m 0x22 [h, q] rest s) :
    After (exec (.captureFree m) s) fun t => replied m [replyHead [h] 0] s t ∧
      (t.keeper.taken.get m = rest ∧ keepsRegs (mbxRegs (2 + m.num)) s t ∧ keepsHdrs [pMbx (2 + m.num)] s t ∧
        keeps [.regs, .hdrs, .links, .mbx, .keeper] s t) ∧
      t.keeper.capture = s.keeper.capture.filter (fun e =>
        !((precedes 32 e.seq q.toNat || e.seq % 2 ^ 32 == q.toNat) && s.ownsSlice m e.slice)) := by
  let k : KeeperSt := { s.keeper with capture := s.keeper.capture.filter (fun e =>
    !((precedes 32 e.seq q.toNat || e.seq % 2 ^ 32 == q.toNat) && s.ownsSlice m e.slice)) }
  obtain ⟨t, next, sent, keeper, rest⟩ := served_update (i := .captureFree m) (st := 0) (l := []) (k := k) on rfl ready rfl rfl rfl
    (Nat.zero_le _)
  exact ⟨t, next, sent, rest, congrArg KeeperSt.capture keeper⟩

/-! ### Taking a message and giving a held answer (R125, R129) -/

theorem keeperReads_of_memClean (i n : Nat) (clean : memClean s = true) : keeperReads i n s = (s, false) := by
  induction n with
  | zero => rfl
  | succ n ih => rw [keeperReads, ih, readLoc_of_memClean _ _ clean]; rfl

theorem exec_keeperTake_eq (on : s.running = true) (started : s.keeper.started = true) (full : (s.box m.num).full = true)
    (clean : memClean s = true) :
    exec (.keeperTake m) s = .next (answerUnknown (s.keeper.taken.get m ++ [mbxWords m.num s]).length m { mbxTaken m.num s with
      keeper := { (mbxTaken m.num s).keeper with
        taken := (mbxTaken m.num s).keeper.taken.set m (s.keeper.taken.get m ++ [mbxWords m.num s]) } }) := by
  have row : exec (.keeperTake m) s = execKeeperTake m s := rfl
  have same : (mbxTaken m.num s).keeper = s.keeper := part_of_moves .keeper mbxTaken_moves rfl
  rw [row, execKeeperTake, whenOn_running on, started, on]
  dsimp only
  rw [keeperReads_of_memClean _ _ clean]
  dsimp only
  rw [if_pos (by rw [full]; rfl), if_neg (by decide), same]

theorem keeperTake_spec (knew : ∀ x ∈ s.keeper.taken.get m, knownOp (msgOp x) = true) (known : knownOp (msgOp (mbxWords m.num s)) = true)
    (n : Nat) :
    let t := answerUnknown n m { mbxTaken m.num s with
      keeper := { (mbxTaken m.num s).keeper with
        taken := (mbxTaken m.num s).keeper.taken.set m (s.keeper.taken.get m ++ [mbxWords m.num s]) } }
    t.box m.num = ⟨false, 0, (s.box m.num).sent⟩ ∧ t.keeper.taken.get m = s.keeper.taken.get m ++ [mbxWords m.num s] ∧
      intRawBit t (pMbx (peerPage m.num)) 1 = true ∧ keepsRegs [] s t ∧ keepsHdrs [pMbx (peerPage m.num)] s t ∧
      keeps [.hdrs, .links, .mbx, .keeper] s t := by
  intro t
  let p := pMbx (peerPage m.num)
  let x : Mbx := ⟨false, 0, (s.box m.num).sent⟩
  let v := raise p 1 (s.setBox m.num x)
  let u : State := { v with keeper := { v.keeper with taken := v.keeper.taken.set m (s.keeper.taken.get m ++ [mbxWords m.num s]) } }
  have queue : u.keeper.taken.get m = s.keeper.taken.get m ++ [mbxWords m.num s] := Pair.get_set_same _ _ _
  have eq : t = u := answerUnknown_of_known n (s := u) fun w member => by
    rw [queue, List.mem_append, List.mem_singleton] at member
    obtain old | rfl := member
    · exact knew w old
    · exact known
  have raised := raise_keeps p 1 (s.setBox m.num x)
  have kept := keeps_trans (setBox_keeps m.num x s) raised
  have keeper : keeps [.keeper] v u := (with_keeper_moves (s := v)).1
  rw [eq]
  refine ⟨?_, queue, raise_intRaw _ _ _ (by decide), fun a _ => ?_, fun q h => ?_, keeps_mono (keeps_trans kept keeper) (by decide)⟩
  · exact (box_of_keeps raised (by decide) _).trans (State.box_setBox_same s _ _)
  · exact congrFun (rd_of_keeps (keeps_trans kept keeper) (by decide)) a
  · exact raise_keepsHdrs p 1 (s.setBox m.num x) q h

theorem exec_keeperReply_eq (on : s.running = true) {w : List Word} {rest : List (List Word)} (held : s.keeper.held.get m = w :: rest)
    (opened : replyOpen m s = true) :
    exec (.keeperReply m) s = .next (putReply m w { s with keeper := { s.keeper with held := s.keeper.held.set m rest } }) := by
  have row : exec (.keeperReply m) s = execKeeperReply m s := rfl
  rw [row, execKeeperReply, whenOn_running on, held]
  dsimp only
  rw [opened, if_neg (by decide)]

/-! ### Punted packets (R378) -/

theorem exec_puntCapture_eq (on : s.running = true) {c : Capture} {rest : List Capture} (queue : s.keeper.puntQ = c :: rest) :
    exec .puntCapture s = if s.keeper.capture.length < 64 then
      .next { s with keeper := { s.keeper with
        puntQ := rest, capture := s.keeper.capture ++ [{ c with seq := s.keeper.capSeq }], capSeq := (s.keeper.capSeq + 1) % 2 ^ 32 } }
      else .next (({ s with keeper := { s.keeper with puntQ := rest } } : State).bump (regAddr (pLane 0) 0x410) 1) := by
  have row : exec .puntCapture s = execPuntCapture s := rfl
  rw [row, execPuntCapture, whenOn_running on, queue]

end

/-! ### O35 -/

/-- Settles O35, by `serve_spec` for each service, `keeperTake_spec`, and `putReply_spec` for a held answer. -/
theorem keeperServices : Obligations.KeeperServices := by
  unfold Obligations.KeeperServices
  refine fun m s on => ⟨fun started full _ clean knew known => ?_, fun w rest ready one => ?_, fun w rest ready _ short => ?_,
    fun w rest ready one => ?_, fun h q o rest e ready whole small found => ⟨fun owned => ?_, fun foreign => ?_⟩, fun h q rest ready => ?_,
    fun w rest held short opened clean => ?_, fun c rest queue => ?_⟩
  · rw [exec_keeperTake_eq on started full clean]
    exact ⟨_, rfl, keeperTake_spec knew known _⟩
  · exact served_answer on rfl ready (by rw [if_pos one]) (by simp)
  · exact served_answer on rfl ready rfl (by rw [List.length_drop]; omega)
  · refine served_answer (st := 0) (l := [_, _, _, _]) on rfl ready ?_ (by simp)
    dsimp only
    rw [if_pos one]
    cases (ownCaptures m s).head? <;> cases (ownCaptures m s).getLast? <;> rfl
  · refine served_answer (w := [h, q, o]) (st := 0) (l := captureWords e o.toNat) on rfl ready ?_ (by simp [captureWords])
    exact (captureRead_found whole small found _).trans (if_pos owned)
  · refine served_answer (w := [h, q, o]) (st := 2) (l := []) on rfl ready ?_ (by decide)
    exact (captureRead_found whole small found _).trans (if_neg (by rw [foreign]; decide))
  · exact captureFree_done on ready
  · obtain ⟨sent, regs, hdrs, parts⟩ := putReply_spec (m := m)
      (s := { s with keeper := { s.keeper with held := s.keeper.held.set m rest } }) short clean
    rw [exec_keeperReply_eq on held opened]
    exact ⟨_, rfl, regs, hdrs, keeps_mono (keeps_trans (with_keeper_moves (s := s)).1 parts) (by decide), sent, parts .keeper (by decide)⟩
  · rw [exec_puntCapture_eq on queue]
    by_cases room : s.keeper.capture.length < 64
    · rw [if_pos room]
      exact ⟨_, rfl, rfl, fun _ => ⟨rfl, rfl, (with_keeper_moves (s := s)).1⟩, fun full => absurd room (Nat.not_lt.mpr full)⟩
    · rw [if_neg room]
      let u : State := { s with keeper := { s.keeper with puntQ := rest } }
      refine ⟨_, rfl, rfl, fun free => absurd free room, fun _ => ⟨rfl, State.rd_wr_same u _ _, wr_keepsRegs _ _ u, ?_⟩⟩
      exact keeps_mono (keeps_trans (with_keeper_moves (s := s)).1 (wr_keeps _ _ u)) (by decide)

end Sys2Proof.Machine

/-!
PROOFS. The voltage loop and the PMBus master (R191 to R195, R203): an entry of PWR_VHIST, the ends of a step, the retries, and the readings.
It settles O13 and O14.
-/

namespace Sys2Proof.Machine

section
variable {s t : State}

/-! ### Fields of registers -/

theorem fld_setFld_same (s : State) (a n : Nat) {lo w : Nat} (h : lo + w ≤ 32) : (s.setFld a lo w n).fld a lo w = n % 2 ^ w := by
  rw [State.fld, State.setFld, State.rd_wr_same, bits_setBits_same _ _ _ _ h]

theorem fld_setFld_other (s : State) (a n : Nat) {lo w x y : Nat} (h : x + y ≤ lo ∨ lo + w ≤ x) (hb : x + y ≤ 32) :
    (s.setFld a lo w n).fld a x y = s.fld a x y := by
  rw [State.fld, State.setFld, State.rd_wr_same, bits_setBits_other _ h hb, State.fld]

theorem rd_setFld_other (s : State) {a c : Nat} (ne : c ≠ a) (lo w n : Nat) : (s.setFld a lo w n).rd c = s.rd c :=
  State.rd_wr_other s ne _

theorem fld_setFld_apart (s : State) {a c : Nat} (ne : c ≠ a) (lo w n x y : Nat) : (s.setFld a lo w n).fld c x y = s.fld c x y :=
  congrArg (bits · x y) (rd_setFld_other s ne lo w n)

theorem setFld_keepsRegs (a lo w n : Nat) (s : State) : keepsRegs [a] s (s.setFld a lo w n) := wr_keepsRegs _ _ s

theorem fld_congr {a : Nat} (h : t.rd a = s.rd a) (x y : Nat) : t.fld a x y = s.fld a x y := congrArg (bits · x y) h

/-! ### PWR_VHIST (R191, Table 6-11) -/

/-- The two words of entry `i`. -/
def vhistRegs (i : Nat) : List Nat := [regAddr pPwr (0x300 + 8 * i), regAddr pPwr (0x304 + 8 * i)]

theorem not_mem_vhistRegs {off : Nat} (low : off < 0x300) (i : Nat) : regAddr pPwr off ∉ vhistRegs i := by
  simp only [vhistRegs, List.mem_cons, List.not_mem_nil, or_false, regAddr]
  omega

theorem VReason.code_lt (r : VReason) : r.code < 16 := by cases r <;> decide

/-- The first word of an entry. -/
def vhistWord (v : Nat) (up failed : Bool) (why : VReason) (unit temp : Nat) : Nat :=
  v % 1024 + b2n up * 2 ^ 10 + b2n failed * 2 ^ 11 + why.code * 2 ^ 12 + unit % 256 * 2 ^ 16 + temp * 2 ^ 24

theorem vhistWord_fields (v : Nat) (up failed : Bool) (why : VReason) (unit temp : Nat) :
    bits (word (vhistWord v up failed why unit temp)) 0 12 = v % 1024 + b2n up * 1024 + b2n failed * 2048 ∧
      bits (word (vhistWord v up failed why unit temp)) 12 4 = why.code := by
  have code := VReason.code_lt why
  have up_ : b2n up ≤ 1 := by cases up <;> decide
  have failed_ : b2n failed ≤ 1 := by cases failed <;> decide
  rw [bits_word (by decide), bits_word (by decide), vhistWord]
  omega

/-- Two words of an entry written, and the power state replaced. -/
def entryWritten (i : Nat) (w0 w1 : Word) (p : PowerSt) (s : State) : State :=
  { (s.wp pPwr (0x300 + 8 * i) w0).wp pPwr (0x304 + 8 * i) w1 with power := p }

theorem entryWritten_spec (i : Nat) (w0 w1 : Word) (p : PowerSt) (s : State) :
    let t := entryWritten i w0 w1 p s
    t.rp pPwr (0x300 + 8 * i) = w0 ∧ keepsRegs (vhistRegs i) s t ∧ keeps [.regs, .power] s t := by
  intro t
  let u := s.wp pPwr (0x300 + 8 * i) w0
  let x := u.wp pPwr (0x304 + 8 * i) w1
  have power : keeps [.power] x t := (with_power_moves (s := x)).1
  have reg (a : Nat) : t.rd a = x.rd a := congrFun (rd_of_keeps power (by decide)) a
  have apart : regAddr pPwr (0x300 + 8 * i) ≠ regAddr pPwr (0x304 + 8 * i) := by
    simp only [regAddr]
    omega
  refine ⟨(reg _).trans ((State.rd_wr_other u apart _).trans (State.rd_wr_same s _ _)), fun a h => (reg a).trans ?_,
    keeps_mono (keeps_trans (keeps_trans (wr_keeps _ _ s) (wr_keeps _ _ u)) power) (by decide)⟩
  rw [vhistRegs, List.mem_cons, List.mem_singleton, not_or] at h
  exact (State.rd_wr_other u h.2 _).trans (State.rd_wr_other s h.1 _)

theorem counted_eq {u : State} {p : PowerSt} {n : Nat} (h : u.power = p) :
    ({ u with power := { u.power with vhist := n } } : State) = { u with power := { p with vhist := n } } := by
  rw [h]

theorem vhistEntry_eq (v : Nat) (up failed : Bool) (why : VReason) (unit : Nat) (s : State) :
    vhistEntry v up failed why unit s = entryWritten s.power.vhist
      (word (vhistWord v up failed why unit (s.fld (regAddr pPwr 0x134) 0 8))) s.secWord
      { s.power with vhist := (s.power.vhist + 1) % 16 } s := by
  unfold vhistEntry vhistWord entryWritten
  generalize word _ = w
  exact counted_eq (part_of_moves .power (wp_moves.after rfl <| wp_moves.within rfl : moves [.regs] s _) rfl)

theorem vhistEntry_spec (v : Nat) (up failed : Bool) (why : VReason) (unit : Nat) (s : State) :
    let t := vhistEntry v up failed why unit s
    let w := t.rp pPwr (0x300 + 8 * s.power.vhist)
    t.power = { s.power with vhist := (s.power.vhist + 1) % 16 } ∧ bits w 0 12 = v % 1024 + b2n up * 1024 + b2n failed * 2048 ∧
      bits w 12 4 = why.code ∧ keepsRegs (vhistRegs s.power.vhist) s t ∧ keeps [.regs, .power] s t := by
  intro t w
  obtain ⟨entry, regs, parts⟩ := entryWritten_spec s.power.vhist
    (word (vhistWord v up failed why unit (s.fld (regAddr pPwr 0x134) 0 8))) s.secWord { s.power with vhist := (s.power.vhist + 1) % 16 } s
  obtain ⟨low, code⟩ := vhistWord_fields v up failed why unit (s.fld (regAddr pPwr 0x134) 0 8)
  rw [← vhistEntry_eq] at entry regs parts
  exact ⟨congrArg State.power (vhistEntry_eq v up failed why unit s), (congrArg (bits · 0 12) entry).trans low,
    (congrArg (bits · 12 4) entry).trans code, regs, parts⟩

/-! ### A PMBus command that is sent -/

theorem pmbSend_keeps (code : Nat) (data : List Byte) (s : State) : keeps [.out] s (pmbSend code data s) := (pmbSend_moves (s := s)).1

theorem sendStep_spec (st : VStep) (s : State) :
    let t := sendStep st s
    t.power = { s.power with step := some { st with sent := true } } ∧
      t.out = Output.pmbus (s.fld (regAddr pPwr 0x158) 0 7) 0x21 (pmbWord (voutWord st.target s)) :: s.out ∧ keeps [.power, .out] s t :=
  ⟨rfl, rfl, keeps_mono (sendStep_moves (st := st) (s := s)).1 (by decide)⟩

/-- Nothing waited for the step. -/
theorem applyDeferred_nil (h : s.power.deferred = []) : applyDeferred s = s := by
  have power : { s.power with deferred := [] } = s.power := by rw [← h]
  rw [applyDeferred, h, List.foldl_nil, power]

/-! ### An acknowledged step (R193) -/

/-- What READ_VOUT and STATUS_WORD show. -/
def readingsShown (n w : Nat) (s : State) : State :=
  (showVout n (pmbSend 0x79 [] (pmbSend 0x8B [] { s with power := { s.power with cmdRetries := 0 } }))).setFld (regAddr pPwr 0x160) 0 16 w

theorem readingsShown_keeps (n w : Nat) (s : State) : keeps [.regs, .out, .power] s (readingsShown n w s) :=
  (setFld_moves.after rfl <| showVout_moves.after rfl <| pmbSend_moves.after rfl <| pmbSend_moves.after rfl <|
    with_power_moves.within rfl : moves [.regs, .out, .power] s _).1

theorem readingsShown_power (n w : Nat) (s : State) : (readingsShown n w s).power = { s.power with cmdRetries := 0 } :=
  part_of_moves .power (setFld_moves.after rfl <| showVout_moves.after rfl <| pmbSend_moves.after rfl <| pmbSend_moves.within rfl :
    moves [.regs, .out] { s with power := { s.power with cmdRetries := 0 } } _) rfl

theorem readingsShown_rd {a : Nat} (h : a ≠ regAddr pPwr 0x130) (h' : a ≠ regAddr pPwr 0x160) (n w : Nat) (s : State) :
    (readingsShown n w s).rd a = s.rd a := by
  let u := pmbSend 0x79 [] (pmbSend 0x8B [] { s with power := { s.power with cmdRetries := 0 } })
  have before : u.rd a = s.rd a := congrFun (rd_of_keeps
    (pmbSend_moves.after rfl <| pmbSend_moves.after rfl <| with_power_moves.within rfl : moves [.out, .power] s u).1 (by decide)) a
  exact (rd_setFld_other _ h' _ _ _).trans ((rd_setFld_other u h _ _ _).trans before)

theorem voutFrac_congr {n : Nat} (h : voutExp t = voutExp s) : voutFrac n t = voutFrac n s := by
  rw [voutFrac, h, voutFrac]

theorem readingsShown_voutNear (n w k target : Nat) (s : State) : voutNear k target (readingsShown n w s) = voutNear k target s := by
  let u := pmbSend 0x79 [] (pmbSend 0x8B [] { s with power := { s.power with cmdRetries := 0 } })
  have before : u.rd = s.rd := rd_of_keeps
    (pmbSend_moves.after rfl <| pmbSend_moves.after rfl <| with_power_moves.within rfl : moves [.out, .power] s u).1 (by decide)
  have exponent : (readingsShown n w s).fld (regAddr pPwr 0x160) 16 5 = s.fld (regAddr pPwr 0x160) 16 5 :=
    (fld_setFld_other _ _ _ (.inr (by decide)) (by decide)).trans
      ((fld_setFld_apart u (by decide) _ _ _ _ _).trans (fld_congr (congrFun before _) _ _))
  have tol : (readingsShown n w s).fld (regAddr pPwr 0x15C) 16 8 = s.fld (regAddr pPwr 0x15C) 16 8 :=
    fld_congr (readingsShown_rd (by decide) (by decide) n w s) _ _
  rw [voutNear, voutFrac_congr (congrArg (signedOf 5) exponent), tol, voutNear]

/-- The step that was outstanding has ended at its voltage. -/
def stepTaken (st : VStep) (s : State) : State :=
  let u := (s.setFld (regAddr pPwr 0x130) 0 10 st.target).bumpFld (regAddr pPwr 0x164) 16 16 1
  { u with power := { u.power with step := none, stalled := false, chase := st.reason == .short } }

theorem stepTaken_power (st : VStep) (s : State) :
    (stepTaken st s).power = { s.power with step := none, stalled := false, chase := st.reason == .short } := rfl

theorem stepTaken_vset {st : VStep} (small : st.target < 1024) (s : State) : vset (stepTaken st s) = st.target := by
  let u := s.setFld (regAddr pPwr 0x130) 0 10 st.target
  have kept : keeps [.power] (u.bumpFld (regAddr pPwr 0x164) 16 16 1) (stepTaken st s) := (with_power_moves (s := u.bumpFld _ _ _ _)).1
  have reg : (stepTaken st s).rd (regAddr pPwr 0x130) = u.rd (regAddr pPwr 0x130) :=
    (congrFun (rd_of_keeps kept (by decide)) _).trans (rd_setFld_other u (by decide) _ _ _)
  exact (fld_congr reg _ _).trans ((fld_setFld_same s _ _ (by decide)).trans (Nat.mod_eq_of_lt small))

theorem stepTaken_keeps (st : VStep) (s : State) : keeps [.power, .regs] s (stepTaken st s) :=
  (with_power_moves.after rfl <| bumpFld_moves.after rfl <| setFld_moves.within rfl : moves [.power, .regs] s _).1

theorem exec_vstepAck_eq {st : VStep} {n w : Nat} (step : s.power.step = some st) (sent : st.sent = true)
    (near : voutNear n st.target s = true) (clean : statusBad w = false) :
    exec (.vstepAck n w) s = .next (applyDeferred (raise pPwr 2 (vhistEntry st.target st.up false
      (if s.power.stalled then .recover else st.reason) st.unit (stepTaken st (readingsShown n w s))))) := by
  have row : exec (.vstepAck n w) s = execVstepAck n w s := rfl
  have ok : (!(st.sent && voutNear n st.target (readingsShown n w s)) || statusBad w) = false := by
    rw [sent, readingsShown_voutNear, near, clean]
    rfl
  have stalled : (readingsShown n w s).power.stalled = s.power.stalled := by rw [readingsShown_power]
  rw [row, execVstepAck, step, ← stalled]
  exact if_neg (show ¬(!(st.sent && voutNear n st.target (readingsShown n w s)) || statusBad w) = true by rw [ok]; decide)

theorem vstepAck_done {st : VStep} {n w : Nat} (step : s.power.step = some st) (sent : st.sent = true) (small : st.target < 1024)
    (none_ : s.power.deferred = []) (near : voutNear n st.target s = true) (clean : statusBad w = false) :
    After (exec (.vstepAck n w) s) fun t =>
      keeps [.power, .regs, .hdrs, .links, .out] s t ∧ vset t = st.target ∧ t.power.step = none ∧ t.power.stalled = false ∧
      intRawBit t pPwr 2 = true ∧ t.power.vhist = (s.power.vhist + 1) % 16 ∧
      bits (t.rp pPwr (0x300 + 8 * s.power.vhist)) 0 12 = st.target + b2n st.up * 1024 ∧
      bits (t.rp pPwr (0x300 + 8 * s.power.vhist)) 12 4 = (if s.power.stalled then VReason.recover else st.reason).code := by
  let why := if s.power.stalled then VReason.recover else st.reason
  let u := stepTaken st (readingsShown n w s)
  let v := vhistEntry st.target st.up false why st.unit u
  have power : u.power = { s.power with cmdRetries := 0, step := none, stalled := false, chase := st.reason == .short } := by
    rw [stepTaken_power, readingsShown_power]
  have index : u.power.vhist = s.power.vhist := by rw [power]
  obtain ⟨entered, low, code, regs, parts⟩ := vhistEntry_spec st.target st.up false why st.unit u
  have raised := raise_keeps pPwr 2 v
  have same : (raise pPwr 2 v).power = v.power := raised .power (by decide)
  have nothing : (raise pPwr 2 v).power.deferred = [] := by
    rw [same, entered, power]
    exact none_
  have reg (a : Nat) : (raise pPwr 2 v).rd a = v.rd a := raise_rd _ _ _ a
  have target : st.target % 1024 = st.target := Nat.mod_eq_of_lt small
  rw [index] at low code regs
  rw [exec_vstepAck_eq step sent near clean, applyDeferred_nil nothing]
  refine ⟨_, rfl, keeps_mono (keeps_trans (keeps_trans (readingsShown_keeps n w s) (stepTaken_keeps st _)) (keeps_trans parts raised))
    (by decide), ?_, ?_, ?_, raise_intRaw _ _ _ (by decide), ?_, ?_, ?_⟩
  · exact (fld_congr ((reg _).trans (regs _ (not_mem_vhistRegs (by decide) _))) _ _).trans (stepTaken_vset small _)
  · rw [same, entered, power]
  · rw [same, entered, power]
  · rw [same, entered, power]
  · rw [State.rp, reg]
    exact low.trans (by rw [target]; rfl)
  · rw [State.rp, reg]
    exact code

/-! ### A step that fails (R191, R194) -/

/-- The loop is STALLED on a step that waits. -/
def stalledOn (st : VStep) (s : State) : State :=
  { s with power := { s.power with step := some { st with sent := false, told := true }, stalled := true } }

/-- The FAILED entry of a step that has not told of its failure yet. -/
def failureTold (st : VStep) (s : State) : State :=
  if st.told then s else raise pPwr 2 (vhistEntry st.target st.up true st.reason st.unit s)

theorem failureTold_spec (st : VStep) (s : State) :
    let t := failureTold st s
    keeps [.power, .regs, .hdrs, .links] s t ∧ t.power = { s.power with vhist := t.power.vhist } ∧ keepsRegs (vhistRegs s.power.vhist) s t ∧
      (st.told = true → t = s) ∧
      (st.told = false → intRawBit t pPwr 2 = true ∧ t.power.vhist = (s.power.vhist + 1) % 16 ∧
        bits (t.rp pPwr (0x300 + 8 * s.power.vhist)) 0 12 = st.target % 1024 + b2n st.up * 1024 + 2048) := by
  intro t
  obtain ⟨entered, low, -, regs, parts⟩ := vhistEntry_spec st.target st.up true st.reason st.unit s
  let u := vhistEntry st.target st.up true st.reason st.unit s
  cases told : st.told with
  | true =>
    have eq : t = s := if_pos told
    rw [eq]
    exact ⟨keeps_refl _ s, rfl, keepsRegs_refl _ s, fun _ => rfl, nofun⟩
  | false =>
    have eq : t = raise pPwr 2 u := if_neg (by rw [told]; decide)
    have raised := raise_keeps pPwr 2 u
    have same : (raise pPwr 2 u).power = u.power := raised .power (by decide)
    have reg (a : Nat) : (raise pPwr 2 u).rd a = u.rd a := raise_rd _ _ u a
    rw [eq]
    refine ⟨keeps_mono (keeps_trans parts raised) (by decide), ?_, fun a h => (reg a).trans (regs a h), nofun, fun _ =>
      ⟨raise_intRaw _ _ u (by decide), by rw [same, entered], (congrArg (bits · 0 12) (reg _)).trans low⟩⟩
    rw [same, entered]

theorem stepFailed_spec {st : VStep} (none_ : s.power.deferred = []) :
    let t := stepFailed st s
    keeps [.power, .regs, .hdrs, .links] s t ∧ t.power.stalled = true ∧ vset t = vset s ∧
      t.power.step = some { st with sent := false, told := true } ∧ (s.power.stalled = false → intRawBit t pPwr 3 = true) ∧
      (st.told = true → t.regs = s.regs) ∧
      (st.told = false → intRawBit t pPwr 2 = true ∧ t.power.vhist = (s.power.vhist + 1) % 16 ∧
        bits (t.rp pPwr (0x300 + 8 * s.power.vhist)) 0 12 = st.target % 1024 + b2n st.up * 1024 + 2048 ∧
        keepsRegs (vhistRegs s.power.vhist) s t) := by
  intro t
  let u := stalledOn st s
  let v := failureTold st u
  obtain ⟨parts, power, regs, quiet, told⟩ := failureTold_spec st u
  have first : keeps [.power] s u := (with_power_moves (s := s)).1
  have before (a : Nat) : u.rd a = s.rd a := congrFun (rd_of_keeps first (by decide)) a
  let w := if s.power.stalled then v else raise pPwr 3 v
  have last : keeps [.hdrs, .links] v w := (moves_ite moves_rfl raise_moves : moves [.hdrs, .links] v w).1
  have same : w.power = v.power := last .power (by decide)
  have nothing : w.power.deferred = [] := by
    rw [same, power]
    exact none_
  have eq : t = w := applyDeferred_nil nothing
  have reg (a : Nat) : w.rd a = v.rd a := congrFun (rd_of_keeps last (by decide)) a
  have kept (a : Nat) (h : a ∉ vhistRegs s.power.vhist) : w.rd a = s.rd a := (reg a).trans ((regs a h).trans (before a))
  rw [eq]
  refine ⟨keeps_mono (keeps_trans first (keeps_trans parts last)) (by decide), by rw [same, power]; rfl,
    fld_congr (kept _ (not_mem_vhistRegs (by decide) _)) _ _, by rw [same, power]; rfl, fun running => ?_, fun quiet_ => ?_, fun new => ?_⟩
  · rw [show w = raise pPwr 3 v from if_neg (by rw [running]; decide)]
    exact raise_intRaw _ _ v (by decide)
  · exact (last .regs (by decide)).trans (by rw [show v = u from quiet quiet_]; rfl)
  · obtain ⟨raised, index, entry⟩ := told new
    refine ⟨?_, by rw [same]; exact index, ?_, kept⟩
    · exact ite_all (P := fun x => intRawBit x pPwr 2 = true) raised (raise_intRaw_mono _ _ raised)
    · rw [State.rp, reg]
      exact entry

theorem exec_stepSettleTimeout_again {st : VStep} (step : s.power.step = some st) (sent : st.sent = true)
    (running : s.power.stalled = false) (left : st.retries < pmbRetries s) :
    exec .stepSettleTimeout s = .next { s with power := { s.power with step := some { st with sent := false } } } := by
  have row : exec .stepSettleTimeout s = execStepSettleTimeout s := rfl
  rw [row, execStepSettleTimeout, step]
  dsimp only
  rw [sent, running, decide_eq_true left]
  rfl

theorem exec_stepSettleTimeout_fails {st : VStep} (step : s.power.step = some st) (sent : st.sent = true)
    (last : s.power.stalled = true ∨ pmbRetries s ≤ st.retries) : exec .stepSettleTimeout s = .next (stepFailed st s) := by
  have row : exec .stepSettleTimeout s = execStepSettleTimeout s := rfl
  have done : (!s.power.stalled && decide (st.retries < pmbRetries s)) = false := by
    obtain stalled | spent := last
    · rw [stalled]; rfl
    · rw [decide_eq_false (Nat.not_lt.mpr spent), Bool.and_false]
  rw [row, execStepSettleTimeout, step]
  dsimp only
  rw [sent, done]
  rfl

/-! ### Retries (R194) -/

theorem exec_pmbusRetry_step (on : s.running = true) {st : VStep} (step : s.power.step = some st) (waits : st.sent = false)
    (running : s.power.stalled = false) (left : st.retries < pmbRetries s) :
    exec .pmbusRetry s = .next (sendStep { st with retries := st.retries + 1 } s) := by
  have row : exec .pmbusRetry s = execPmbusRetry s := rfl
  rw [row, execPmbusRetry, whenOn_running on, step]
  dsimp only
  rw [waits, running, if_neg (by decide), if_pos left]
  rfl

theorem exec_pmbusRetry_command (on : s.running = true) (step : s.power.step = none) (running : s.power.stalled = false) :
    exec .pmbusRetry s = if s.power.cmdRetries < pmbRetries s then
      .next { cmdFailed s with power := { (cmdFailed s).power with cmdRetries := s.power.cmdRetries + 1 } }
    else .next (raise pPwr 3 { cmdFailed s with power := { (cmdFailed s).power with cmdRetries := 0, stalled := true } }) := by
  have row : exec .pmbusRetry s = execPmbusRetry s := rfl
  rw [row, execPmbusRetry, whenOn_running on, step, running]
  exact if_neg (by decide)

theorem cmdFailed_spec (p : PowerSt) (s : State) :
    let t : State := { cmdFailed s with power := p }
    bits (t.rp pPwr 0x164) 0 16 = (bits (s.rp pPwr 0x164) 0 16 + 1) % 65536 ∧ keepsRegs [regAddr pPwr 0x164] s t ∧ keeps [.power, .regs] s t := by
  intro t
  have power : keeps [.power] (cmdFailed s) t := (with_power_moves (s := cmdFailed s)).1
  have reg (a : Nat) : t.rd a = (cmdFailed s).rd a := congrFun (rd_of_keeps power (by decide)) a
  refine ⟨(congrArg (bits · 0 16) (reg _)).trans (fld_setFld_same s _ _ (by decide)), fun a h => (reg a).trans (setFld_keepsRegs _ _ _ _ s a h),
    keeps_mono (keeps_trans (cmdFailed_moves (s := s)).1 power) (by decide)⟩

theorem exec_stalledRetry_up (on : s.running = true) (stalled : s.power.stalled = true) (up : s.power.pmbUp = true) {st : VStep}
    (step : s.power.step = some st) : exec .stalledRetry s = .next (sendStep { st with retries := 0 } s) := by
  have row : exec .stalledRetry s = execStalledRetry s := rfl
  rw [row, execStalledRetry, whenOn_running on, stalled]
  dsimp only
  rw [if_neg (by decide), if_pos up, up, if_neg (by decide), step]

/-! ### The start-up exchange (Table 6-7, R192) -/

/-- The voltage of a READ_VOUT, to 10 mV and inside the limits. -/
def startVolt (n : Nat) (s : State) : Nat :=
  let f := voutFrac n s
  let near := (f.1 + 5 * f.2) / (10 * f.2) * 10
  if near < vmin s then vmin s else if vmax s < near then vmax s else near

theorem startVolt_lt (n : Nat) (s : State) : startVolt n s < 1024 := by
  have low : vmin s < 1024 := bits_lt _ _ _
  have high : vmax s < 1024 := bits_lt _ _ _
  simp only [startVolt]
  split
  · exact low
  · split
    · exact high
    · omega

theorem startVolt_within (n : Nat) (h : vmin s ≤ vmax s) : vmin s ≤ startVolt n s ∧ startVolt n s ≤ vmax s := by
  simp only [startVolt]
  split
  · exact ⟨le_rfl, h⟩
  · split
    · exact ⟨h, le_rfl⟩
    · omega

theorem startVolt_congr {n : Nat} (exponent : voutExp t = voutExp s) (limits : t.rd (regAddr pPwr 0x13C) = s.rd (regAddr pPwr 0x13C)) :
    startVolt n t = startVolt n s := by
  rw [startVolt, voutFrac_congr exponent, show vmin t = vmin s from fld_congr limits _ _, show vmax t = vmax s from fld_congr limits _ _, startVolt]

/-- What the answers of the first three commands show. -/
def answersShown (x : PmbStart) (l : List (Option PmbStart)) (s : State) : State :=
  let u := pmbSend 0x8B [] (pmbSend 0x20 [] (pmbSend 0x03 [] (pmbSend 0x98 [] { s with power := { s.power with pmbNext := l } })))
  showVout x.readVout ((u.setFld (regAddr pPwr 0x160) 16 8 x.voutMode).setFld (regAddr pPwr 0x160) 24 8 x.revision)

theorem answersShown_spec (x : PmbStart) (l : List (Option PmbStart)) (s : State) :
    let t := answersShown x l s
    t.power = { s.power with pmbNext := l } ∧ bits (t.rp pPwr 0x160) 16 8 = x.voutMode % 256 ∧ bits (t.rp pPwr 0x160) 24 8 = x.revision % 256 ∧
      keepsRegs [regAddr pPwr 0x160, regAddr pPwr 0x130] s t ∧ keeps [.power, .out, .regs] s t := by
  intro t
  let u := pmbSend 0x8B [] (pmbSend 0x20 [] (pmbSend 0x03 [] (pmbSend 0x98 [] { s with power := { s.power with pmbNext := l } })))
  let v := u.setFld (regAddr pPwr 0x160) 16 8 x.voutMode
  let w := v.setFld (regAddr pPwr 0x160) 24 8 x.revision
  have sent : moves [.power, .out] s u := pmbSend_moves.after rfl <| pmbSend_moves.after rfl <| pmbSend_moves.after rfl <|
    pmbSend_moves.after rfl <| with_power_moves.within rfl
  have power : u.power = { s.power with pmbNext := l } := part_of_moves .power (pmbSend_moves.after rfl <| pmbSend_moves.after rfl <|
    pmbSend_moves.after rfl <| pmbSend_moves.within rfl : moves [.out] { s with power := { s.power with pmbNext := l } } u) rfl
  have shown : moves [.regs] u t := showVout_moves.after rfl <| setFld_moves.after rfl <| setFld_moves.within rfl
  have reg : t.rd (regAddr pPwr 0x160) = w.rd (regAddr pPwr 0x160) := rd_setFld_other w (by decide) _ _ _
  refine ⟨(part_of_moves .power shown rfl : t.power = u.power).trans power, ?_, ?_, fun a h => ?_, keeps_mono (keeps_trans sent.1 shown.1) (by decide)⟩
  · exact (fld_congr reg _ _).trans ((fld_setFld_other v _ _ (.inl (by decide)) (by decide)).trans (fld_setFld_same u _ _ (by decide)))
  · exact (fld_congr reg _ _).trans (fld_setFld_same v _ _ (by decide))
  · rw [List.mem_cons, List.mem_singleton, not_or] at h
    exact (rd_setFld_other w h.2 _ _ _).trans ((rd_setFld_other v h.1 _ _ _).trans ((rd_setFld_other u h.1 _ _ _).trans
      (congrFun (rd_of_keeps sent.1 (by decide)) a)))

/-- The exchange that has its answers. -/
def exchanged (x : PmbStart) (s : State) : State :=
  let u := pmbSend 0x24 (pmbWord (voutWord (vmax s) s)) { s with power := { s.power with pmbUp := true } }
  vhistEntry (startVolt x.readVout s) false false .start 0xFF (u.setFld (regAddr pPwr 0x130) 0 10 (startVolt x.readVout s))

theorem pmbExchange_answered {x : PmbStart} {l : List (Option PmbStart)} (next : s.power.pmbNext = some x :: l) :
    pmbExchange s = exchanged x (answersShown x l s) := by
  rw [pmbExchange, next]
  rfl

theorem exchanged_spec (x : PmbStart) (s : State) :
    let t := exchanged x s
    t.power = { s.power with pmbUp := true, vhist := (s.power.vhist + 1) % 16 } ∧ vset t = startVolt x.readVout s ∧
      keepsRegs (regAddr pPwr 0x130 :: vhistRegs s.power.vhist) s t ∧ keeps [.power, .out, .regs] s t := by
  intro t
  let v := startVolt x.readVout s
  let u := pmbSend 0x24 (pmbWord (voutWord (vmax s) s)) { s with power := { s.power with pmbUp := true } }
  let w := u.setFld (regAddr pPwr 0x130) 0 10 v
  obtain ⟨power, -, -, regs, parts⟩ := vhistEntry_spec v false false .start 0xFF w
  have sent : moves [.power, .out] s u := pmbSend_moves.after rfl <| with_power_moves.within rfl
  have kept := keeps_trans sent.1 (keeps_trans (setFld_moves (s := u) (a := regAddr pPwr 0x130) (lo := 0) (w := 10) (n := v)).1 parts)
  refine ⟨power, ?_, fun a h => ?_, keeps_mono kept (by decide)⟩
  · refine (fld_congr (regs _ (not_mem_vhistRegs (by decide) _)) _ _).trans ((fld_setFld_same u _ _ (by decide)).trans ?_)
    exact Nat.mod_eq_of_lt (startVolt_lt _ _)
  · rw [List.mem_cons, not_or] at h
    exact (regs a h.2).trans ((rd_setFld_other u h.1 _ _ _).trans (congrFun (rd_of_keeps sent.1 (by decide)) a))

/-- The exchange brings VSET to what the regulator gives. -/
theorem pmbExchange_spec {x : PmbStart} {l : List (Option PmbStart)} (next : s.power.pmbNext = some x :: l) :
    let t := pmbExchange s
    t.power = { s.power with pmbNext := l, pmbUp := true, vhist := (s.power.vhist + 1) % 16 } ∧ vset t = startVolt x.readVout t ∧
      t.rd (regAddr pPwr 0x13C) = s.rd (regAddr pPwr 0x13C) ∧
      bits (t.rp pPwr 0x160) 16 8 = x.voutMode % 256 ∧ bits (t.rp pPwr 0x160) 24 8 = x.revision % 256 ∧
      keepsRegs (regAddr pPwr 0x160 :: regAddr pPwr 0x130 :: vhistRegs s.power.vhist) s t ∧ keeps [.power, .out, .regs] s t := by
  intro t
  let u := answersShown x l s
  obtain ⟨power, mode, revision, regs, parts⟩ := answersShown_spec x l s
  obtain ⟨power', volt, regs', parts'⟩ := exchanged_spec x u
  have index : u.power.vhist = s.power.vhist := by rw [power]
  have eq : t = exchanged x u := pmbExchange_answered next
  rw [index] at regs'
  rw [← eq] at power' volt regs' parts'
  have stays {off : Nat} (low : off < 0x300) (apart : off ≠ 0x130) : t.rd (regAddr pPwr off) = u.rd (regAddr pPwr off) := by
    refine regs' _ ?_
    rw [List.mem_cons, not_or]
    exact ⟨by simp only [regAddr]; omega, not_mem_vhistRegs low _⟩
  have exponent : voutExp t = voutExp u := congrArg (signedOf 5) (fld_congr (stays (off := 0x160) (by decide) (by decide)) _ _)
  refine ⟨power'.trans (by rw [power]), volt.trans (startVolt_congr exponent (stays (by decide) (by decide))).symm,
    (stays (by decide) (by decide)).trans (regs _ (by decide)), ?_, ?_, fun a h => ?_, keeps_mono (keeps_trans parts parts') (by decide)⟩
  · exact (congrArg (bits · 16 8) (stays (by decide) (by decide))).trans mode
  · exact (congrArg (bits · 24 8) (stays (by decide) (by decide))).trans revision
  · rw [List.mem_cons, List.mem_cons, not_or, not_or] at h
    exact (regs' a (by rw [List.mem_cons, not_or]; exact h.2)).trans (regs a (by simp [h.1, h.2.1]))

theorem exec_stalledRetry_start (on : s.running = true) (stalled : s.power.stalled = true) (up : s.power.pmbUp = false) {x : PmbStart}
    {l : List (Option PmbStart)} (next : s.power.pmbNext = some x :: l) (step : s.power.step = none) :
    exec .stalledRetry s =
      .next (sendStep ⟨vset (pmbExchange s), false, .recover, 0xFF, 0, true, false⟩ (pmbExchange s)) := by
  have row : exec .stalledRetry s = execStalledRetry s := rfl
  obtain ⟨power, -⟩ := pmbExchange_spec next
  have known : (pmbExchange s).power.pmbUp = true := by rw [power]
  have free : (pmbExchange s).power.step = none := by rw [power]; exact step
  rw [row, execStalledRetry, whenOn_running on, stalled, up]
  dsimp only
  rw [if_neg (by decide)]
  simp only [Bool.false_eq_true, if_false]
  rw [known, free]
  exact if_neg (by decide)

/-! ### Readings (R193, R195) -/

/-- A reading put into a field, after its command. -/
theorem reading_spec {a lo w n : Nat} {code : Nat} (fits : lo + w ≤ 32) (s : State) :
    let t := (pmbSend code [] { s with power := { s.power with cmdRetries := 0 } }).setFld a lo w n
    t.fld a lo w = n % 2 ^ w ∧ t.power = { s.power with cmdRetries := 0 } ∧
      t.out = Output.pmbus (s.fld (regAddr pPwr 0x158) 0 7) code [] :: s.out ∧ keepsRegs [a] s t ∧ keeps [.regs, .power, .out] s t :=
  let u := pmbSend code [] { s with power := { s.power with cmdRetries := 0 } }
  have sent : keeps [.power, .out] s u := (pmbSend_moves.after rfl <| with_power_moves.within rfl : moves [.power, .out] s u).1
  ⟨fld_setFld_same u _ _ fits, rfl, rfl,
    fun _ h => (setFld_keepsRegs _ _ _ _ u _ h).trans (congrFun (rd_of_keeps sent (by decide)) _),
    keeps_mono (keeps_trans sent (setFld_moves (s := u) (a := a) (lo := lo) (w := w) (n := n)).1) (by decide)⟩

theorem pmbAlert_spec (n : Nat) (s : State) :
    let t := pmbSend 0x03 [] (raise pPwr 4 ((pmbSend 0x79 [] { s with power := { s.power with cmdRetries := 0 } }).setFld
      (regAddr pPwr 0x160) 0 16 n))
    bits (t.rp pPwr 0x160) 0 16 = n % 65536 ∧ intRawBit t pPwr 4 = true ∧ vset t = vset s ∧
      (t.power = { s.power with cmdRetries := 0 } ∧
        t.out = [Output.pmbus (s.fld (regAddr pPwr 0x158) 0 7) 0x03 [], Output.pmbus (s.fld (regAddr pPwr 0x158) 0 7) 0x79 []] ++ s.out) ∧
      keepsRegs [regAddr pPwr 0x160] s t ∧ keepsHdrs [pPwr] s t ∧ keeps [.regs, .hdrs, .links, .power, .out] s t := by
  intro t
  let u := (pmbSend 0x79 [] { s with power := { s.power with cmdRetries := 0 } }).setFld (regAddr pPwr 0x160) 0 16 n
  obtain ⟨status, power, out, regs, parts⟩ := reading_spec (a := regAddr pPwr 0x160) (lo := 0) (w := 16) (n := n) (code := 0x79) (by decide) s
  have raised := raise_keeps pPwr 4 u
  have sent := pmbSend_keeps 0x03 [] (raise pPwr 4 u)
  have kept := keeps_trans raised sent
  have reg (a : Nat) : t.rd a = u.rd a := congrFun (rd_of_keeps kept (by decide)) a
  have regs' : keepsRegs [regAddr pPwr 0x160] s t := fun a h => (reg a).trans (regs a h)
  have address : (raise pPwr 4 u).fld (regAddr pPwr 0x158) 0 7 = s.fld (regAddr pPwr 0x158) 0 7 :=
    fld_congr ((raise_rd _ _ u _).trans (regs _ (by decide))) _ _
  have hdrs : keepsHdrs [] s u := keepsHdrs_of_keeps parts (by decide)
  refine ⟨(fld_congr (reg _) 0 16).trans status, raise_intRaw pPwr 4 u (by decide), fld_congr (regs' _ (by decide)) _ _, ⟨?_, ?_⟩, regs',
    fun p h => (raise_keepsHdrs _ _ u p h).trans (hdrs p (by simp)), keeps_mono (keeps_trans parts kept) (by decide)⟩
  · exact (kept .power (by decide) : t.power = u.power).trans power
  · have behind : (raise pPwr 4 u).out = u.out := raised .out (by decide)
    have eq : t.out = Output.pmbus ((raise pPwr 4 u).fld (regAddr pPwr 0x158) 0 7) 0x03 [] :: (raise pPwr 4 u).out := rfl
    rw [eq, address, behind, out]
    rfl

/-! ### The registers of R203 -/

/-- The fields of the three registers ask for no token and are not held in the store. -/
theorem loopOff_fields (r : LoopReg) (v : Word) :
    touches .rwp (fieldsAt pPwr (loopOff r)) v = false ∧ hasNvs (fieldsAt pPwr (loopOff r)) = false := by
  cases r <;> exact ⟨by rfl, by rfl⟩

theorem loopConfig_waits {m : AB} {r : LoopReg} {v : Word} (ok : admits m pPwr (loopOff r) (loopHandler (loopOff r)) v s = true) {st : VStep}
    (step : s.power.step = some st) (outstanding : st.sent = true ∨ s.power.stalled = false) :
    writeReg m pPwr (loopOff r) (loopHandler (loopOff r)) v s = ended .ok 0 .none
      { s with power := { s.power with deferred := s.power.deferred ++ [(loopOff r, v)] } } := by
  have waits : s.power.step.any (fun x => x.sent || !s.power.stalled) = true := by
    obtain h | h := outstanding <;> simp [step, h]
  rw [writeReg_ungated ok (loopOff_fields r v).1]
  exact congrArg _ (if_pos waits)

theorem loopConfig_stores {m : AB} {r : LoopReg} {v : Word} (ok : admits m pPwr (loopOff r) (loopHandler (loopOff r)) v s = true)
    (step : s.power.step = none) :
    writeReg m pPwr (loopOff r) (loopHandler (loopOff r)) v s = ended .ok 0 .none (storeFields pPwr (loopOff r) v s) := by
  obtain ⟨ungated, volatile⟩ := loopOff_fields r v
  have free : ¬s.power.step.any (fun x => x.sent || !s.power.stalled) = true := by simp [step]
  rw [writeReg_ungated ok ungated, ← storeReg_volatile volatile]
  exact congrArg _ (if_neg free)


end

/-! ### O13 and O14 -/

/-- Settles O13, by `vstepAck_done`, `stepFailed_spec` and what each retry sends. -/
theorem voltageStepsEnd : Obligations.VoltageStepsEnd := by
  unfold Obligations.VoltageStepsEnd
  refine ⟨fun s st n w step sent small none_ near clean => vstepAck_done step sent small none_ near clean,
    fun s st step => ⟨fun sent running left => ?_, fun sent last none_ => ?_, fun on waits running left => ?_, fun on stalled up => ?_⟩,
    fun s on step => ⟨fun running left => ?_, fun running spent => ?_, fun stalled up p l next => ?_⟩⟩
  · rw [exec_stepSettleTimeout_again step sent running left]
    exact ⟨_, rfl, rfl, (with_power_moves (s := s)).1⟩
  · rw [exec_stepSettleTimeout_fails step sent last]
    exact ⟨_, rfl, stepFailed_spec none_⟩
  · rw [exec_pmbusRetry_step on step waits running left]
    exact ⟨_, rfl, sendStep_spec _ s⟩
  · rw [exec_stalledRetry_up on stalled up step]
    exact ⟨_, rfl, sendStep_spec _ s⟩
  · rw [exec_pmbusRetry_command on step running, if_pos left]
    exact ⟨_, rfl, rfl, cmdFailed_spec _ s⟩
  · rw [exec_pmbusRetry_command on step running, if_neg (Nat.not_lt.mpr spent)]
    let u : State := { cmdFailed s with power := { (cmdFailed s).power with cmdRetries := 0, stalled := true } }
    obtain ⟨-, regs, parts⟩ := cmdFailed_spec { (cmdFailed s).power with cmdRetries := 0, stalled := true } s
    exact ⟨_, rfl, raise_keeps pPwr 3 u .power (by decide), raise_intRaw _ _ u (by decide), fun a h => (raise_rd _ _ u a).trans (regs a h),
      keeps_mono (keeps_trans parts (raise_keeps pPwr 3 u)) (by decide)⟩
  · rw [exec_stalledRetry_start on stalled up next step]
    obtain ⟨power, volt, limits, mode, -, -, parts⟩ := pmbExchange_spec next
    let u := pmbExchange s
    obtain ⟨sent, -, parts'⟩ := sendStep_spec ⟨vset u, false, .recover, 0xFF, 0, true, false⟩ u
    have reg (a : Nat) : (sendStep ⟨vset u, false, .recover, 0xFF, 0, true, false⟩ u).rd a = u.rd a :=
      congrFun (rd_of_keeps parts' (by decide)) a
    have same : vset (sendStep ⟨vset u, false, .recover, 0xFF, 0, true, false⟩ u) = vset u := fld_congr (reg _) _ _
    refine ⟨_, rfl, by rw [sent, power], by rw [sent, same], fun ordered => ?_, (congrArg (bits · 16 8) (reg _)).trans mode,
      keeps_mono (keeps_trans parts parts') (by decide)⟩
    have low : vmin u = vmin s := fld_congr limits _ _
    have high : vmax u = vmax s := fld_congr limits _ _
    rw [same, volt, ← low, ← high]
    exact startVolt_within _ (by rw [low, high]; exact ordered)

/-- Settles O14, by `reading_spec`, `pmbAlert_spec` and the two ends of a write of R203. -/
theorem pmbusReadings : Obligations.PmbusReadings := by
  unfold Obligations.PmbusReadings
  refine fun s n on => ⟨after_running on rfl (pmbAlert_spec n s), ?_, ?_, ?_, fun m r v ok => after_running on rfl ⟨?_, ?_, ?_⟩⟩
  · obtain ⟨value, power, out, regs, parts⟩ := reading_spec (a := regAddr pPwr 0x134) (lo := 16) (w := 16) (n := n) (code := 0x8C) (by decide) s
    exact after_running on rfl ⟨value, ⟨power, out⟩, regs, parts⟩
  · obtain ⟨value, power, out, regs, parts⟩ := reading_spec (a := regAddr pPwr 0x134) (lo := 8) (w := 8) (n := n) (code := 0x8D) (by decide) s
    exact after_running on rfl ⟨value, ⟨power, out⟩, regs, parts⟩
  · let u := pmbSend 0x8B [] { s with power := { s.power with cmdRetries := 0 } }
    obtain ⟨value, power, out, regs, parts⟩ :=
      reading_spec (a := regAddr pPwr 0x130) (lo := 16) (w := 10) (n := voutMv n s) (code := 0x8B) (by decide) s
    exact after_running on rfl ⟨value, fld_setFld_other u _ _ (.inl (by decide)) (by decide), ⟨power, out⟩, regs, parts⟩
  · obtain ⟨u, -, -, eq⟩ := writeReg_used ok
    rw [eq]
    rfl
  · intro st step outstanding
    rw [loopConfig_waits ok step outstanding]
    exact ⟨rfl, keeps_mono (keeps_trans (with_power_moves (s := s)).1 (ended_keeps _ _ _ _)) (by decide)⟩
  · intro step
    rw [loopConfig_stores ok step]
    exact ⟨State.rd_wr_same s _ _, wr_keepsRegs _ _ s, keeps_trans (wr_keeps _ _ s) (ended_keeps _ _ _ _)⟩

end Sys2Proof.Machine

/-!
PROOFS. O2 fails: a frame that segmentation hands over may end a low-power interval, and the time unit then chooses its state again before
the microsecond is added.
-/

namespace Sys2Proof.Machine

/-- In DOZE with the receiver off, segmentation holds a frame for queue 0 of node 0, which line node 0 serves on an assigned Alloc-ID. The
time unit is FREE though its source is the host, which asks for an adjustment of 100. -/
def dozingSend : State :=
  let s := Tests.withPage (pSlice 0 0) .active ((Tests.serving .doze Tests.owned).wp (pSlice 0 0) 0x108 0x101)
  let s := (s.wp (pSlice 0 0) 0x10C 0x10000).wp (pSlice 0 0) 0x11C 0x1000
  let s := (s.wr (nodeAddr 0 0) 0).wr (queueAddr 0 0 0) 0x1000
  let s := (s.wp (pBtx .a) 0x200 0x10000).wp (pBtx .a) 0x180 0x10000
  let s := (s.setFlag (regAddr (pAct .a) 0x180) 5 true).wp pTsu 0x104 3
  { s.wp pTsu 0x1B0 100 with seg := [⟨0, [0x30000000, 0, 0], 0, [1, 2, 3]⟩] }

/-- Refutes O2: the frame deepens the line queues of `dozingSend`, so the receiver comes on and the time unit becomes HOST; the microsecond
then carries the host's adjustment, though the unit was FREE with nothing to slew when the step began. -/
theorem not_emptyQueueLetsTimePass : ¬ Obligations.EmptyQueueLetsTimePass := by
  unfold Obligations.EmptyQueueLetsTimePass
  intro h
  have empty : dozingSend.pending = [] := by decide +kernel
  have on : dozingSend.running = true := by decide +kernel
  have still : dozingSend.tsu.slew = 0 := by decide +kernel
  have free : dozingSend.tsu.state ≠ .host := by decide +kernel
  have adjusted : goesTo (fun t => decide (t.tsu.time = dozingSend.tsu.time + 1000 * 2 ^ 32)) (step dozingSend) = false := by
    decide +kernel
  refine not_after _ adjusted (fun t held => ?_) (h dozingSend empty)
  obtain ⟨-, -, -, -, -, time⟩ := held
  exact decide_eq_true (time on still free)

end Sys2Proof.Machine

/-!
PROOFS. O31 fails: the self-test of a classifier lane does not end while packets wait in the lane (R391).
-/

namespace Sys2Proof.Machine

/-- Lane 0 is under test and one packet waits in it. -/
def testedLane : State :=
  let s := Tests.inLane []
  s.setHdr (pLane 0) { s.hdr (pLane 0) with testing := true }

/-- Refutes O31: the test of the lane of `testedLane` waits for its packet, so SELFTEST_DONE leaves it under way. -/
theorem not_headersOfPages : ¬ Obligations.HeadersOfPages := by
  unfold Obligations.HeadersOfPages
  intro h
  have on : testedLane.running = true := by decide +kernel
  have testing : (testedLane.hdr (pLane 0)).testing = true := by decide +kernel
  have waits : goesTo (fun t => decide ((t.hdr (pLane 0)).testing = false)) (exec (.selftestDone (pLane 0) true 0) testedLane) = false := by
    decide +kernel
  obtain ⟨-, -, -, -, passed, -⟩ := h .a (pLane 0) ⟨.cls, 0, 0⟩ testedLane on rfl
  refine not_after _ waits (fun t held => ?_) (passed 0 testing)
  obtain ⟨-, ended, -⟩ := held
  exact decide_eq_true ended

end Sys2Proof.Machine

/-!
PROOFS. O47 fails: a packet that a grant takes may hold an error of any memory location, the key memory of the line among them.
-/

namespace Sys2Proof.Machine

/-- An allocation of 128 bytes for line node 0. -/
def portBurst : Burst := ⟨{ Tests.grant with size := 128 }, 0, false, some 0, false, false, []⟩

/-- A packet with one bit in error, by its state in slot 0 of the key memory of feeder A. -/
def keyPkt : Pkt := { Tests.pkt with cell := .upset ⟨0x69, 0, 0, 0⟩ [3] }

/-- Queue 0 of node 0, which line node 0 serves, holds the packet; feeder A has an allocation for the node and a key in slot 0. -/
def keyedQueue : State :=
  let s := Tests.withPage (pSlice 0 0) .active (Tests.bursting false false)
  let s := (((s.wr (nodeAddr 0 0) 0x10800).wr (nodeAddr 0 8) 1).wp (pBtx .a) 0x200 0x10005).wp (pBtx .a) 0x180 0x10005
  let s := (s.wp (pSlice 0 0) 0x10C 0x10000).setQueue 0 [keyPkt]
  let s := { s with buf := { s.buf with credC := [(0, 1000)], credP := [(0, 1000)] } }
  { s with btx := s.btx.set .a { s.btx.get .a with bursts := [portBurst] }, keys := [(0, [1])] }

/-- Refutes O47: the packet of `keyedQueue` is read as it is taken, and the error that it holds costs feeder A its key. -/
theorem not_burstsCarryTheirContent : ¬ Obligations.BurstsCarryTheirContent := by
  unfold Obligations.BurstsCarryTheirContent
  intro h
  have on : keyedQueue.running = true := by decide +kernel
  have first : (keyedQueue.btx.get .a).bursts.find? (fun x => !x.filled) = some portBurst := by decide +kernel
  have unarmed : noFlip keyedQueue = true := by decide +kernel
  have open_ : quietNow .a keyedQueue = false := by decide +kernel
  have lost : goesTo (fun t => decide (t.keys = keyedQueue.keys)) (exec (.allocPrefetch .a) keyedQueue) = false := by decide +kernel
  refine not_after _ lost (fun t held => ?_) ((h .a keyedQueue on).1 portBurst first unarmed open_)
  obtain ⟨kept, -⟩ := held
  have keys : t.keys = keyedQueue.keys := kept .keys (by decide)
  exact decide_eq_true keys

end Sys2Proof.Machine

/-!
PROOFS. O29 fails: BLOCK_RESET writes LOCAL_HOLD back as the page shows it, and a page without pads to hold refuses a LOCAL_HOLD that is set.
-/

namespace Sys2Proof.Machine

/-- Client port 0 shows LOCAL_HOLD, which its page does not support. -/
def heldPort : State :=
  let s := Tests.client true
  s.setHdr (pMac 0) { s.hdr (pMac 0) with localHold := true }

/-- Refutes O29: the value with BLOCK_RESET alone passes every check, but the command of `heldPort` also writes LOCAL_HOLD, which is out of
range, so that nothing is reset. -/
theorem not_pagesChangeState : ¬ Obligations.PagesChangeState := by
  unfold Obligations.PagesChangeState
  intro h
  have on : heldPort.running = true := by decide +kernel
  have admitted : headerAdmits .a (pMac 0) 0x08 (field 2 1 1) heldPort = true := by decide +kernel
  have refused : goesTo (fun t => decide (t.last = .done)) (exec (.blockReset .a (pMac 0)) heldPort) = false := by decide +kernel
  obtain ⟨-, -, reset, -⟩ := h .a (pMac 0) ⟨.mac, 0, 0⟩ heldPort on rfl
  refine not_after _ refused (fun t held => ?_) (reset admitted)
  obtain ⟨-, done, -⟩ := held
  exact decide_eq_true done

end Sys2Proof.Machine

/-!
PROOFS. What a reset of the logic domain leaves in the registers and in the parts (R5, R179): the rules that the statements about resets,
power-downs and start-up failures use.
-/

namespace Sys2Proof.Machine

variable {s t : State}

/-! ### One register -/

/-- A field reaches a bit. -/
def Fld.covers (f : Fld) (i : Nat) : Bool := decide (f.lo ≤ i ∧ i < f.lo + f.w)

/-- The bit that a field takes at a reset. -/
def Fld.resetBit (f : Fld) (old com : Word) (i : Nat) : Bool :=
  match f.rst with
  | .val n => n.testBit (i - f.lo)
  | .nvs _ => bit com i
  | .keep => bit old i

/-- The field that decides a bit: the last one of the table that reaches it. -/
def lastOver (fs : List Fld) (i : Nat) : Option Fld := fs.reverse.find? (fun f => f.covers i)

theorem lastOver_append (fs : List Fld) (f : Fld) (i : Nat) : lastOver (fs ++ [f]) i = if f.covers i then some f else lastOver fs i := by
  rw [lastOver, List.reverse_append, List.reverse_singleton, List.singleton_append, List.find?_cons]
  cases f.covers i <;> rfl

theorem testBit_bits_within (v : Word) {lo w i : Nat} (low : lo ≤ i) (high : i < lo + w) : (bits v lo w).testBit (i - lo) = bit v i := by
  rw [testBit_bits, decide_eq_true (by omega : i - lo < w), Bool.true_and, bit, show lo + (i - lo) = i by omega]

theorem bit_resetFields (fs : List Fld) (old com : Word) {i : Nat} (hi : i < 32) :
    bit (resetFields fs old com) i = (lastOver fs i).elim false (fun f => f.resetBit old com i) := by
  induction fs using List.reverseRecOn with
  | nil => simp [resetFields, lastOver, bit]
  | append_singleton fs f ih =>
    have last : bit (resetFields (fs ++ [f]) old com) i =
        if f.lo ≤ i ∧ i < f.lo + f.w then f.resetBit old com i else bit (resetFields fs old com) i := by
      rw [resetFields, List.foldl_append, List.foldl_cons, List.foldl_nil, Fld.resetBit]
      cases f.rst with
      | val n => exact bit_setBits _ _ _ _ _ hi
      | nvs _ => exact (bit_setBits _ _ _ _ _ hi).trans (ite_congr rfl (fun h => testBit_bits_within _ h.1 h.2) fun _ => rfl)
      | keep => exact (bit_setBits _ _ _ _ _ hi).trans (ite_congr rfl (fun h => testBit_bits_within _ h.1 h.2) fun _ => rfl)
    rw [last, ih, lastOver_append, Fld.covers]
    by_cases within : f.lo ≤ i ∧ i < f.lo + f.w
    · rw [if_pos within, if_pos (decide_eq_true within), Option.elim_some]
    · rw [if_neg within, if_neg (by simpa using within)]

/-- What a field adds to the word of the first start. -/
def Fld.first (f : Fld) (acc : Word) : Word :=
  match f.rst with
  | .val n => setBits acc f.lo f.w n
  | .nvs n => setBits acc f.lo f.w n
  | .keep => acc

theorem initWord_append (fs : List Fld) (f : Fld) : initWord (fs ++ [f]) = f.first (initWord fs) := List.foldl_append

/-- A bit of a register at the first start: no field, or a field with a value of its own, decides it. -/
theorem bit_initWord_decided (fs : List Fld) {i : Nat} (hi : i < 32) :
    (lastOver fs i = none → bit (initWord fs) i = false) ∧
      ∀ f n, lastOver fs i = some f → f.rst = .val n → bit (initWord fs) i = n.testBit (i - f.lo) := by
  induction fs using List.reverseRecOn with
  | nil => exact ⟨fun _ => by simp [initWord, bit], fun f n h => by simp [lastOver] at h⟩
  | append_singleton fs f ih =>
    obtain ⟨bare, decided⟩ := ih
    rw [lastOver_append]
    by_cases within : f.lo ≤ i ∧ i < f.lo + f.w
    · have covers : f.covers i = true := decide_eq_true within
      rw [if_pos covers]
      refine ⟨fun h => by simp at h, fun g n h value => ?_⟩
      obtain rfl := Option.some.inj h
      rw [initWord_append, Fld.first, value]
      exact (bit_setBits _ _ _ _ _ hi).trans (if_pos within)
    · have outside : bit (initWord (fs ++ [f])) i = bit (initWord fs) i := by
        rw [initWord_append, Fld.first]
        cases f.rst with
        | val n => exact (bit_setBits _ _ _ _ _ hi).trans (if_neg within)
        | nvs n => exact (bit_setBits _ _ _ _ _ hi).trans (if_neg within)
        | keep => rfl
      rw [if_neg (by simpa [Fld.covers] using within), outside]
      exact ⟨bare, decided⟩

theorem bit_initWord (fs : List Fld) {i : Nat} (hi : i < 32) :
    bit (initWord fs) i = (lastOver fs i).elim false (fun f => f.resetBit (initWord fs) (initWord fs) i) := by
  obtain ⟨bare, decided⟩ := bit_initWord_decided fs hi
  cases last : lastOver fs i with
  | none => exact bare last
  | some f =>
    rw [Option.elim_some]
    unfold Fld.resetBit
    cases value : f.rst with
    | val n => exact decided f n last value
    | nvs n => rfl
    | keep => rfl

/-- Two words with the same bits. -/
theorem word_ext {v w : Word} (h : ∀ i, i < 32 → bit v i = bit w i) : v = w :=
  BitVec.eq_of_getLsbD_eq fun i hi => h i hi

/-- A second reset changes nothing more. -/
theorem resetFields_again (fs : List Fld) (old com : Word) : resetFields fs (resetFields fs old com) com = resetFields fs old com := by
  refine word_ext fun i hi => ?_
  rw [bit_resetFields fs _ _ hi, bit_resetFields fs old _ hi]
  cases last : lastOver fs i with
  | none => rfl
  | some f =>
    have held := bit_resetFields fs old com hi
    rw [last, Option.elim_some] at held
    rw [Option.elim_some, Option.elim_some]
    unfold Fld.resetBit at held ⊢
    cases value : f.rst with
    | val n => rfl
    | nvs n => rfl
    | keep =>
      rw [value] at held
      exact held

/-- A reset that finds the first value finds nothing to change. -/
theorem resetFields_initWord (fs : List Fld) : resetFields fs (initWord fs) (initWord fs) = initWord fs :=
  word_ext fun _ hi => (bit_resetFields fs _ _ hi).trans (bit_initWord fs hi).symm

/-! ### Every register -/

theorem le_of_tblWfFrom {d : Nat → Word} (low : Nat) (t : Tbl Word) (h : tblWfFrom d low t = true) : ∀ k ∈ t.map Prod.fst, low ≤ k := by
  induction t generalizing low with
  | nil => simp
  | cons e t ih =>
    simp only [tblWfFrom, Bool.and_eq_true, decide_eq_true_eq] at h
    obtain ⟨⟨here, -⟩, rest⟩ := h
    intro k listed
    rcases List.mem_cons.mp listed with rfl | later
    · exact here
    · exact Nat.le_of_succ_le (Nat.le_trans (Nat.succ_le_succ here) (ih _ rest k later))

/-- A table rewritten entry by entry, less what reads the same without an entry: a listed key reads its new value. -/
theorem tblGet_remap {d : Nat → Word} (g : Nat → Word → Word) (k low : Nat) (t : Tbl Word) (h : tblWfFrom d low t = true) :
    tblGet (d k) k ((t.map (fun e => (e.1, g e.1 e.2))).filter (fun e => e.2 != d e.1)) =
      if k ∈ t.map Prod.fst then g k (tblGet (d k) k t) else d k := by
  induction t generalizing low with
  | nil => rfl
  | cons e t ih =>
    simp only [tblWfFrom, Bool.and_eq_true, decide_eq_true_eq] at h
    obtain ⟨-, rest⟩ := h
    have tail := ih _ rest
    rw [List.map_cons, List.filter_cons, List.map_cons]
    by_cases key : e.1 = k
    · subst key
      have absent : e.1 ∉ t.map Prod.fst := fun listed => Nat.not_succ_le_self _ (le_of_tblWfFrom _ t rest _ listed)
      rw [if_neg absent] at tail
      rw [if_pos List.mem_cons_self, tblGet, if_pos rfl]
      split
      · rw [tblGet, if_pos rfl]
      · rename_i dropped
        exact tail.trans (by simpa using dropped : _ = d e.1).symm
    · have other : ∀ v, tblGet (d k) k ((e.1, v) :: t) = tblGet (d k) k t := fun v => by rw [tblGet, if_neg key]
      rw [other e.2]
      simp only [List.mem_cons, Ne.symm key, false_or]
      split
      · rw [tblGet, if_neg key, tail]
      · exact tail

/-- Addresses whose registers take their reset values one by one. -/
theorem rd_foldl_reset (com : Nat → Word) (l : List Nat) (a : Nat) (s : State) :
    (l.foldl (fun s a => if true then s.wr a (resetFields (fieldsAt (a / 0x1000) (a % 0x1000)) (s.rd a) (com a)) else s) s).rd a =
      if a ∈ l then resetFields (fieldsAt (a / 0x1000) (a % 0x1000)) (s.rd a) (com a) else s.rd a := by
  induction l generalizing s with
  | nil => rfl
  | cons x l ih =>
    rw [List.foldl_cons, ih, if_pos rfl]
    by_cases same : a = x
    · subst same
      rw [State.rd_wr_same, if_pos List.mem_cons_self]
      split
      · exact resetFields_again _ _ _
      · rfl
    · rw [State.rd_wr_other _ same]
      simp only [List.mem_cons, same, false_or]

theorem tblGet_absent {d : Word} {k : Nat} {t : Tbl Word} (h : k ∉ t.map Prod.fst) : tblGet d k t = d := by
  induction t with
  | nil => rfl
  | cons e t ih =>
    rw [List.map_cons, List.mem_cons, not_or] at h
    rw [tblGet, if_neg (Ne.symm h.1), ih h.2]

/-- Every register after a reset, by its listed entry and by what is committed. -/
theorem rd_resetRegsOf (form : tblWf resetWord s.regs = true) (a : Nat) :
    (resetRegsOf (fun _ => true) s).rd a = afterReset s.nvs.committed s a := by
  let u : State := { s with regs := (s.regs.map (fun e => (e.1, resetFields (fieldsAt (e.1 / 0x1000) (e.1 % 0x1000)) e.2
    (tblGet (resetWord e.1) e.1 s.nvs.committed)))).filter (fun e => e.2 != resetWord e.1) }
  have listed : u.rd a = if a ∈ s.regs.map Prod.fst then afterReset s.nvs.committed s a else resetWord a :=
    tblGet_remap (fun k v => resetFields (fieldsAt (k / 0x1000) (k % 0x1000)) v (tblGet (resetWord k) k s.nvs.committed)) a 0 s.regs form
  have whole : (resetRegsOf (fun _ => true) s).rd a = _ :=
    rd_foldl_reset (fun a => tblGet (resetWord a) a s.nvs.committed) (s.nvs.committed.map Prod.fst) a u
  rw [whole, listed]
  by_cases entry : a ∈ s.regs.map Prod.fst
  · rw [if_pos entry]
    split
    · exact resetFields_again _ _ _
    · rfl
  · have unlisted : s.rd a = resetWord a := tblGet_absent entry
    rw [if_neg entry, afterReset, unlisted]
    split
    · rfl
    · rename_i loose
      rw [tblGet_absent loose]
      exact (resetFields_initWord _).symm

/-! ### The parts -/

/-- MOD_ABS of both cages, which a reset leaves as they are. -/
def cageRegs : List Nat := [regAddr (pOpt .a) 0x100, regAddr (pOpt .b) 0x100]

/-- What a reset of the logic domain leaves beside the registers. -/
def wipedState (s : State) : State := resetState (keepLife .b (keepLife .a s))

theorem resetLogic_keeps (s : State) : keeps [.regs] (wipedState s) (resetLogic s) :=
  (setFlag_moves.after rfl <| setFlag_moves.after rfl <| resetRegsOf_moves.within rfl).1

theorem resetLogic_rd (form : s.canonical = true) {a : Nat} (ha : a ∉ cageRegs) :
    (resetLogic s).rd a = afterReset s.nvs.committed s a := by
  have notA : a ≠ regAddr (pOpt .a) 0x100 := fun h => ha (h ▸ List.mem_cons_self)
  have notB : a ≠ regAddr (pOpt .b) 0x100 := fun h => ha (h ▸ List.mem_cons_of_mem _ List.mem_cons_self)
  obtain ⟨regs, -⟩ := canonical_iff.mp form
  unfold resetLogic
  exact (rd_setFld_other _ notB _ _ _).trans ((rd_setFld_other _ notA _ _ _).trans (rd_resetRegsOf (s := wipedState s) regs a))

theorem resetLogic_flag (s : State) (c : AB) : (resetLogic s).flag (regAddr (pOpt c) 0x100) 0 = s.flag (regAddr (pOpt c) 0x100) 0 := by
  unfold resetLogic
  cases c with
  | a => exact (flag_congr (rd_setFld_other _ (by decide) _ _ _) 0).trans (flag_setFlag_same _ _ (by decide) _)
  | b => exact flag_setFlag_same _ _ (by decide) _

/-- Parts alike before a step that does not reach them. -/
theorem alike_keeps {l m : List Part} {u : State} (before : alike l s t) (kept : keeps m t u) (apart : l.all (fun p => !m.contains p) = true) :
    alike l s u := fun p hp => Part.same_trans (before p hp) (kept p fun hm => by
  have := List.all_eq_true.mp apart p hp
  rw [List.contains_iff_mem.mpr hm] at this
  cases this)

theorem wipedState_untouched (s : State) : alike [.pending, .clock, .last, .out] s (wipedState s) := by
  simp only [alike, List.forall_mem_cons]
  exact ⟨rfl, rfl, rfl, rfl, List.forall_mem_nil _⟩

theorem wipedState_reset (s : State) : alike logicParts State.reset (wipedState s) := by
  simp only [alike, logicParts, List.forall_mem_cons]
  exact ⟨rfl, rfl, rfl, rfl, rfl, rfl, rfl, rfl, rfl, rfl, rfl, rfl, rfl, rfl, rfl, rfl, rfl, rfl, rfl, rfl, List.forall_mem_nil _⟩

/-- What a reset of the logic domain leaves, straight after it. -/
theorem logicReset_resetLogic (s : State) : logicReset [] s (resetLogic s) := by
  have kept := resetLogic_keeps s
  have nvs : (resetLogic s).nvs = storeKept s := kept .nvs (by decide)
  refine ⟨alike_keeps (wipedState_untouched s) kept rfl, alike_keeps (wipedState_reset s) kept rfl, kept .hdrs (by decide),
    kept .era (by decide), kept .keeper (by decide), ?_, ?_, resetLogic_flag s, fun form a ha => ?_⟩
  · rw [nvs]
    exact kept .fw (by decide)
  · rw [nvs]
    exact kept .ecc (by decide)
  · rw [nvs]
    refine resetLogic_rd form fun h => ha (List.mem_cons_of_mem _ ?_)
    exact h

theorem resetLogic_power (s : State) : (resetLogic s).power = { loopReset s.power with pads := padsNow s } :=
  resetLogic_keeps s .power (by decide)

theorem resetLogic_backup (s : State) : (resetLogic s).backup = { s.backup with pressUs := 0 } := resetLogic_keeps s .backup (by decide)

theorem resetLogic_nvs (s : State) : (resetLogic s).nvs = storeKept s := resetLogic_keeps s .nvs (by decide)

theorem resetLogic_free (s : State) : (resetLogic s).free = s.free := resetLogic_keeps s .free (by decide)

theorem resetLogic_livesKept (s : State) : livesKept s (resetLogic s) := fun c => by
  have kept : (resetLogic s).opt = (wipedState s).opt := resetLogic_keeps s .opt (by decide)
  rw [kept]
  cases c <;> rfl

/-- What follows a reset, as far as the claim of the reset reaches it: the power state, the backup domain, listed registers, and parts of the
store that the reset does not read. -/
theorem logicReset_then {l l' : List Nat} {u : State} (wiped : logicReset l s t) (kept : keeps [.power, .backup, .regs, .nvs, .free] t u)
    (fw : u.nvs.fw = t.nvs.fw) (spares : u.nvs.spares = t.nvs.spares) (committed : u.nvs.committed = t.nvs.committed)
    (regs : s.canonical = true → keepsRegs (regAddr pPwr 0x110 :: l') t u)
    (cages : ∀ c, u.rd (regAddr (pOpt c) 0x100) = t.rd (regAddr (pOpt c) 0x100)) (listed : ∀ a ∈ l, a ∈ l') : logicReset l' s u := by
  obtain ⟨same, parts, hdrs, era, keeper, firmware, ecc, flags, words⟩ := wiped
  refine ⟨alike_keeps same kept rfl, alike_keeps parts kept rfl, (kept .hdrs (by decide)).trans hdrs, (kept .era (by decide)).trans era,
    (kept .keeper (by decide)).trans keeper, ?_, ?_, fun c => (flag_congr (cages c) 0).trans (flags c), fun form a ha => ?_⟩
  · refine (kept .fw (by decide)).trans (firmware.trans ?_)
    unfold fwReset
    rw [fw]
  · rw [spares]
    exact (kept .ecc (by decide)).trans ecc
  · simp only [List.mem_cons, not_or] at ha
    obtain ⟨seq, cageA, cageB, rest⟩ := ha
    rw [committed]
    refine (regs form a (by simp only [List.mem_cons, not_or]; exact ⟨seq, rest⟩)).trans (words form a ?_)
    simp only [List.mem_cons, not_or]
    exact ⟨seq, cageA, cageB, fun h => rest (listed a h)⟩

/-- What came before a reset, as far as the claim of the reset reaches it. -/
theorem logicReset_after {l l' m : List Nat} {u : State} (wiped : logicReset l t u) (same : alike [.pending, .clock, .last, .out, .era, .fw] s t)
    (form : s.canonical = true → t.canonical = true) (regs : keepsRegs m s t) (cages : ∀ c, regAddr (pOpt c) 0x100 ∉ m)
    (here : ∀ a ∈ m, a ∈ l') (listed : ∀ a ∈ l, a ∈ l') : logicReset l' s u := by
  obtain ⟨stay, parts, hdrs, era, keeper, firmware, ecc, flags, words⟩ := wiped
  have fw : t.fw = s.fw := same .fw (by decide)
  have past : t.era = s.era := same .era (by decide)
  refine ⟨fun p hp => Part.same_trans (same p ?_) (stay p hp), parts, hdrs, by rw [era, past], keeper, ?_, ecc,
    fun c => (flags c).trans (flag_congr (regs _ (cages c)) 0), fun old a ha => ?_⟩
  · have more : ∀ q ∈ [Part.pending, .clock, .last, .out], q ∈ [Part.pending, .clock, .last, .out, .era, .fw] := by decide
    exact more p hp
  · refine firmware.trans ?_
    unfold fwReset
    rw [fw]
  · simp only [List.mem_cons, not_or] at ha
    obtain ⟨seq, cageA, cageB, rest⟩ := ha
    refine (words (form old) a ?_).trans (by rw [afterReset, afterReset, regs a fun h => rest (here a h)])
    simp only [List.mem_cons, not_or]
    exact ⟨seq, cageA, cageB, fun h => rest (listed a h)⟩

/-! ### The start-up sequencer and the kept registers -/

theorem enterStep_keeps (p : Phase) (n : Nat) (s : State) : keeps [.power, .regs] s (enterStep p n s) :=
  (setFld_moves.after rfl <| setPower_moves.within rfl : moves [.power, .regs] s (enterStep p n s)).1

theorem enterStep_power (p : Phase) (n : Nat) (s : State) : (enterStep p n s).power = { s.power with phase := p } := rfl

theorem enterStep_regs (p : Phase) (n : Nat) (s : State) : keepsRegs [regAddr pPwr 0x110] s (enterStep p n s) :=
  setFld_keepsRegs _ _ _ _ _

theorem enterStep_ready (p : Phase) (n : Nat) (s : State) : readyBits (enterStep p n s) = n % 16 := fld_setFld_same _ _ _ (by decide)

/-- A register with one kept field from bit 0 on keeps it across a reset. -/
theorem bit_afterReset_kept {w : Nat} (fits : w ≤ 32) (committed : Tbl Word) (s : State) {a : Nat}
    (kept : fieldsAt (a / 0x1000) (a % 0x1000) = [fROkeep 0 w]) {i : Nat} (hi : i < w) :
    bit (afterReset committed s a) i = bit (s.rd a) i := by
  have last : lastOver [fROkeep 0 w] i = some (fROkeep 0 w) := by
    simp [lastOver, Fld.covers, fROkeep, hi]
  rw [afterReset, kept, bit_resetFields _ _ _ (by omega), last]
  rfl

/-- TAMPERS and the tamper pointer are of the backup domain, which a reset leaves (R179). -/
theorem resetLogic_log (form : s.canonical = true) : (resetLogic s).fld (regAddr pBkp 0x138) 0 4 = s.fld (regAddr pBkp 0x138) 0 4 ∧
    (resetLogic s).rp pBkp 0x12C = s.rp pBkp 0x12C := by
  refine ⟨Nat.eq_of_testBit_eq fun i => ?_, word_ext fun i hi => ?_⟩
  · rw [State.fld, State.fld, testBit_bits, testBit_bits, resetLogic_rd form (by decide)]
    by_cases hi : i < 4
    · exact congrArg (decide (i < 4) && ·) ((congrArg (BitVec.getLsbD _) (Nat.zero_add i)).trans
        ((bit_afterReset_kept (by decide) _ s rfl hi).trans (congrArg (BitVec.getLsbD _) (Nat.zero_add i)).symm))
    · simp [hi]
  · rw [State.rp, State.rp, resetLogic_rd form (by decide)]
    exact bit_afterReset_kept (by decide) _ s rfl hi

end Sys2Proof.Machine

/-!
PROOFS. O6 fails: a buffer bank that MEM_READY fences frees its cells, and a client port that had sent XOFF then sends a frame.
-/

namespace Sys2Proof.Machine

/-- In step 3 of a start-up, client port 0 still shows LINK with XOFF sent, and holds one packet in bank 0. -/
def pausedStart : State :=
  let s := (Tests.ported true { MacPort.empty with txq := [Tests.pkt], xoff := 256 }).wp (pMac 0) 0x10C 9
  { s with power := { s.power with phase := .step3 } }

/-- Row 0 of bank 0 fails its test, and so do the eight spares of the bank. -/
def failedBank : Instr := .memReady 0 [⟨0, 0, 0⟩] (List.replicate 8 (0, 0))

/-- Refutes O6: MEM_READY of `failedBank` in `pausedStart` sends a PAUSE frame. -/
theorem not_startUpSteps : ¬ Obligations.StartUpSteps := by
  unfold Obligations.StartUpSteps
  intro h
  have third : pausedStart.power.phase = .step3 := rfl
  have sent : goesTo (fun t => decide (t.out = pausedStart.out)) (exec failedBank pausedStart) = false := by decide +kernel
  obtain ⟨-, -, -, -, -, ready⟩ := (h.1 pausedStart 0)
  refine not_after _ sent (fun t held => ?_) (ready third [⟨0, 0, 0⟩] (List.replicate 8 (0, 0)))
  obtain ⟨-, -, -, kept⟩ := held
  have out : t.out = pausedStart.out := kept .out (by decide)
  exact decide_eq_true out

end Sys2Proof.Machine

/-!
PROOFS. Resets that reach the logic domain (O8): RESET_PIN, PGOOD_LOSS and HOST_RESET, in operation and during a start-up.
-/

namespace Sys2Proof.Machine

variable {s t : State}

/-- The power state after a reset with a cause. -/
def begunPower (p : PowerSt) (step : Phase) (cause : Nat) (pads : Word × Word) : PowerSt :=
  { loopReset p with phase := step, resetCause := cause, wakeCause := 0x03, tries := 0, pads := pads }

/-- What a reset leaves beside its claim on the logic domain. -/
def resetKept (s t : State) : Prop :=
  livesKept s t ∧ t.backup = { s.backup with pressUs := 0 } ∧ t.nvs = storeKept s ∧ t.free = s.free

theorem enterStep_after_reset (p : Phase) (ready : Nat) (q : PowerSt) (s : State) :
    let t := enterStep p ready ((resetLogic s).setPower q)
    logicReset [] s t ∧ resetKept s t ∧ t.power = { q with phase := p } ∧ readyBits t = ready % 16 := by
  intro t
  have kept : keeps [.power, .regs] (resetLogic s) t :=
    keeps_mono (keeps_trans (setPower_moves (s := resetLogic s) (p := q)).1 (enterStep_keeps p ready _)) (by decide)
  have regs : keepsRegs [regAddr pPwr 0x110] (resetLogic s) t := enterStep_regs p ready _
  have nvs : t.nvs = (resetLogic s).nvs := kept .nvs (by decide)
  refine ⟨logicReset_then (logicReset_resetLogic s) (keeps_mono kept (by decide)) (by rw [nvs]) (by rw [nvs]) (by rw [nvs]) (fun _ => regs)
      (fun c => regs _ (by cases c <;> decide)) (fun _ h => h), ⟨fun c => ?_, ?_, nvs.trans (resetLogic_nvs s), ?_⟩, rfl, enterStep_ready p ready _⟩
  · have opt : t.opt = (resetLogic s).opt := kept .opt (by decide)
    rw [opt]
    exact resetLogic_livesKept s c
  · exact (kept .backup (by decide)).trans (resetLogic_backup s)
  · exact (kept .free (by decide)).trans (resetLogic_free s)

/-- A reset with a cause. -/
theorem resetTo_spec (cause : Nat) (p : Phase) (ready : Nat) (s : State) :
    let t := resetTo cause p ready s
    logicReset [] s t ∧ resetKept s t ∧ t.power = begunPower s.power p cause (padsNow s) ∧ readyBits t = ready % 16 := by
  intro t
  obtain ⟨wiped, kept, power, steps⟩ := enterStep_after_reset p ready
    { (resetLogic s).power with resetCause := cause, wakeCause := 0x03, tries := 0 } s
  refine ⟨wiped, kept, power.trans ?_, steps⟩
  rw [resetLogic_power]
  rfl

/-- A start that is interrupted after step 2. -/
theorem restart_spec (cause : Nat) (p : Phase) (ready : Nat) (s : State) :
    let t := restart cause p ready (resetLogic s)
    logicReset [] s t ∧ resetKept s t ∧
      t.power = { loopReset s.power with phase := p, resetCause := cause, wakeCause := 0x03, pads := padsNow s } ∧ readyBits t = ready % 16 := by
  intro t
  obtain ⟨wiped, kept, power, steps⟩ := enterStep_after_reset p ready { (resetLogic s).power with resetCause := cause, wakeCause := 0x03 } s
  refine ⟨wiped, kept, power.trans ?_, steps⟩
  rw [resetLogic_power]

/-- A start that is interrupted before the logic domain is powered. -/
theorem restart_early (cause : Nat) (s : State) :
    let t := restart cause .step1 0 s
    t.power = { s.power with phase := .step1, resetCause := cause, wakeCause := 0x03 } ∧ readyBits t = 0 ∧
      keepsRegs [regAddr pPwr 0x110] s t ∧ keeps [.power, .regs] s t :=
  ⟨rfl, enterStep_ready _ _ _, enterStep_regs _ _ _,
    keeps_mono (keeps_trans (setPower_moves (s := s)).1 (enterStep_keeps _ _ _)) (by decide)⟩

/-- What the reset of every part of the logic domain says of the units (R78, R109, R119). -/
theorem logicReset_units {l : List Nat} (wiped : logicReset l s t) : (∀ n, (t.sem n).holder = none) ∧ (∀ m, t.isFrozen m = false) ∧
    (∀ k, t.link k = LinkSt.reset) ∧ (∀ k, t.queue k = []) ∧ t.dram = [] := by
  obtain ⟨-, parts, -⟩ := wiped
  have masters : t.masters = State.reset.masters := parts .masters (by decide)
  have links : t.links = State.reset.links := parts .links (by decide)
  have buf : t.buf = State.reset.buf := parts .buf (by decide)
  refine ⟨fun n => ?_, fun m => ?_, fun k => ?_, fun k => ?_, parts .dram (by decide)⟩
  · rw [State.sem, masters]
    rfl
  · rw [State.isFrozen, State.frz, masters]
    cases m <;> rfl
  · rw [State.link, links]
    cases k <;> rfl
  · rw [State.queue, buf]
    rfl

/-! ### The loss count before a reset (R180) -/

theorem wearBlock_keepsHdrs (s : State) : keepsHdrs [pNvs] s (wearBlock s) := by
  let v := s.takeFree.2
  let b := s.takeFree.1.toNat % 16384
  let u := (v.setNvs { v.nvs with wear := tblSet 0 b (tblGet 0 b v.nvs.wear + 1) v.nvs.wear }).bump (regAddr pNvs 0x140) 1
  have before : moves [.regs, .nvs, .free] s u := bump_moves.after rfl <| setNvs_moves.after rfl <| takeFree_moves.within rfl
  have same (p : Nat) : u.hdr p = s.hdr p := congrArg (tblGet (hdrReset p) p) (part_of_moves .hdrs before rfl)
  exact ite_all (P := keepsHdrs [pNvs] s) (fun p hp => (raise_keepsHdrs _ _ u p hp).trans (same p)) (fun p _ => same p)

theorem padsNow_congr (power : t.power = s.power) (hdr : t.hdr pPwr = s.hdr pPwr) (levels : t.rp pPwr 0x180 = s.rp pPwr 0x180)
    (drives : t.rp pPwr 0x184 = s.rp pPwr 0x184) : padsNow t = padsNow s := by
  rw [padsNow, padsNow, State.running, State.running, power, hdr, levels, drives]

/-- The loss count is written (R180). -/
theorem recordLoss_spec (s : State) :
    let t := recordLoss s
    (∃ w, t.nvs = { s.nvs with stopLoss := some (bufferPackets s), wear := w }) ∧ keepsRegs [regAddr pNvs 0x140] s t ∧
      keeps [.nvs, .regs, .free, .hdrs, .links] s t ∧ padsNow t = padsNow s := by
  intro t
  let u := s.setNvs { s.nvs with stopLoss := some (bufferPackets s) }
  obtain ⟨⟨w, store⟩, -, regs, parts⟩ := wearBlock_spec u
  have whole : keeps [.nvs, .regs, .free, .hdrs, .links] s t := keeps_mono (keeps_trans (setNvs_moves (s := s)).1 parts) (by decide)
  exact ⟨⟨w, store⟩, regs, whole, padsNow_congr (whole .power (by decide)) (wearBlock_keepsHdrs u pPwr (by decide))
    (regs _ (by decide)) (regs _ (by decide))⟩


/-- What HOST_RESET does: the loss count, then the reset (R33, R180). -/
theorem hostReset_spec (s : State) :
    let t := resetTo 5 .step3 3 (recordLoss s)
    logicReset [regAddr pNvs 0x140] s t ∧ livesKept s t ∧ t.backup = { s.backup with pressUs := 0 } ∧
      t.power = begunPower s.power .step3 5 (padsNow s) ∧ readyBits t = 3 ∧
      t.nvs = { storeKept s with stopLoss := some (bufferPackets s), wear := t.nvs.wear } := by
  intro t
  obtain ⟨⟨w, store⟩, regs, parts, pads⟩ := recordLoss_spec s
  obtain ⟨wiped, ⟨lives, backup, nvs, -⟩, power, steps⟩ := resetTo_spec 5 .step3 3 (recordLoss s)
  have opt : (recordLoss s).opt = s.opt := parts .opt (by decide)
  refine ⟨logicReset_after wiped (alike_of_moves recordLoss_moves rfl) recordLoss_moves.2 regs (fun c => by cases c <;> decide) (by decide) (by simp),
    fun c => ?_, ?_, ?_, steps, ?_⟩
  · have := lives c
    rw [opt] at this
    exact this
  · rw [show (recordLoss s).backup = s.backup from parts .backup (by decide)] at backup
    exact backup
  · rw [pads, show (recordLoss s).power = s.power from parts .power (by decide)] at power
    exact power
  · change (resetTo 5 .step3 3 (recordLoss s)).nvs = _ at nvs
    change (resetTo 5 .step3 3 (recordLoss s)).nvs = { storeKept s with stopLoss := some (bufferPackets s), wear := (resetTo 5 .step3 3 (recordLoss s)).nvs.wear }
    rw [nvs, storeKept, store]
    rfl

/-- The units after a reset, with the records that it keeps (R78, R109, R119). -/
theorem cleared_of_reset {l : List Nat} (wiped : logicReset l s t) (lives : livesKept s t) (backup : t.backup = { s.backup with pressUs := 0 }) :
    livesKept s t ∧ t.backup = { s.backup with pressUs := 0 } ∧ (∀ n, (t.sem n).holder = none) ∧
      (∀ m, t.isFrozen m = false) ∧ (∀ l, t.link l = LinkSt.reset) ∧ (∀ k, t.queue k = []) ∧ t.dram = [] :=
  ⟨lives, backup, logicReset_units wiped⟩

theorem flag_pgood (s : State) (good : readyBits s % 2 = 1) : s.flag (regAddr pPwr 0x110) 0 = true := by
  rw [State.flag, ← testBit_bits_within (s.rd (regAddr pPwr 0x110)) (Nat.zero_le 0) (show 0 < 0 + 4 by decide), Nat.sub_zero, Nat.testBit_zero]
  exact decide_eq_true good

/-- Settles O8, by what a reset does with the power state of each phase. -/
theorem resetsReachTheLogicDomain : Obligations.ResetsReachTheLogicDomain := by
  unfold Obligations.ResetsReachTheLogicDomain
  refine ⟨fun s on => ?_, fun s => ?_⟩
  · have phase : s.power.phase = .running := by simpa [State.running] using on
    refine ⟨⟨resetTo 3 .step3 3 s, by simp only [exec, execResetPin, phase], ?_⟩,
      ⟨resetTo 4 .step1 0 s, by simp only [exec, execPgoodLoss, phase], ?_⟩, fun m host => ?_⟩
    · obtain ⟨wiped, ⟨lives, backup, nvs, free⟩, power, steps⟩ := resetTo_spec 3 .step3 3 s
      exact ⟨wiped, cleared_of_reset wiped lives backup, nvs, free, power, steps⟩
    · obtain ⟨wiped, ⟨lives, backup, nvs, free⟩, power, steps⟩ := resetTo_spec 4 .step1 0 s
      exact ⟨wiped, cleared_of_reset wiped lives backup, nvs, free, power, steps⟩
    · obtain ⟨wiped, lives, backup, power, steps, nvs⟩ := hostReset_spec s
      exact after_running on (by simp only [exec, execHostReset, host])
        ⟨wiped, cleared_of_reset wiped lives backup, power, steps, nvs⟩
  · obtain ⟨wiped, ⟨lives, backup, nvs, free⟩, power, steps⟩ := restart_spec 3 .step3 3 s
    obtain ⟨wiped', ⟨lives', backup', nvs', free'⟩, power', steps'⟩ := restart_spec 4 .step1 0 s
    refine ⟨fun early => ⟨_, ?_, restart_early 3 s⟩, fun late => ⟨_, ?_, ⟨wiped, lives, nvs, backup, free, power⟩, steps⟩,
      fun late => ⟨_, ?_, ⟨wiped', lives', nvs', backup', free', power'⟩, steps'⟩, fun failed good => ⟨_, ?_, restart_early 4 s⟩⟩
    · simp only [List.mem_cons, List.not_mem_nil, or_false] at early
      obtain phase | phase | phase := early <;> simp only [exec, execResetPin, phase]
    · simp only [List.mem_cons, List.not_mem_nil, or_false] at late
      obtain phase | phase := late <;> simp only [exec, execResetPin, phase]
    · simp only [List.mem_cons, List.not_mem_nil, or_false] at late
      obtain phase | phase | phase := late <;> simp only [exec, execPgoodLoss, phase]
    · have pgood : s.flag (regAddr pPwr 0x110) 0 = true := flag_pgood s good
      simp only [exec, execPgoodLoss, failed, pgood, if_true]

end Sys2Proof.Machine

/-!
PROOFS. What the parts of the line may change when they settle after an event (R315 to R322, R428 to R437): the operating mode, a switch
between the feeders, bursts that are aborted or called back, the state of the time unit. Every register, counter and header outside
their own zone stays as it is, and the PLOAM messages that wait to be sent only gain from what is called back.
-/

namespace Sys2Proof.Machine

variable {s t u : State} {w : Bool}

/-! ### The relation -/

/-- The registers that settling may write: the transmitters' BEN and counts, the PLOAM log, and the pages from the time unit on; and, where
the operating mode may change, the wake bit of ACT_SLEEP, the mode history and the overflow count of the store's queue. -/
def stirred (w : Bool) (a : Nat) : Bool :=
  decide (0x2A000 ≤ a) || [0x22130, 0x23130, 0x24110, 0x25110, 0x24130, 0x25130].contains a || decide (0x22400 ≤ a ∧ a < 0x22800) ||
    decide (0x23400 ≤ a ∧ a < 0x23800) || (w && (decide (0x200 ≤ a ∧ a < 0x280) || [0x108, 0x10C, 0x3150].contains a))

/-- The counters that settling may count: sent PLOAM messages, bursts, and the pages from the time unit on. -/
def tallied (a : Nat) : Bool := decide (0x24000 ≤ a) || a == 0x22228 || a == 0x23228

/-- A header that has at most gained bits of INT_RAW. -/
def gained (x y : Hdr) : Prop := y = { x with intRaw := y.intRaw } ∧ ∀ i, bit x.intRaw i = true → bit y.intRaw i = true

/-- An activation block whose messages to be sent have at most gained from the front, whose log has moved on, and whose watch has at most
ended with the operating mode. -/
def recalled (w : Bool) (x y : ActSt) : Prop :=
  (∃ l, y.up = l ++ x.up) ∧ (w = false → y.gate = x.gate) ∧
    y = { x with up := y.up, logNext := y.logNext, sleepSent := y.sleepSent, gate := y.gate }

/-- What the parts of the line may change when they settle; `w` tells whether the operating mode may change. -/
structure Settled (w : Bool) (s t : State) : Prop where
  regs : ∀ a, stirred w a = false → (∀ f, a ≠ regAddr (pAct f) 0x180) → t.rd a = s.rd a
  asleep : w = false → ∀ f, t.rd (regAddr (pAct f) 0x180) = s.rd (regAddr (pAct f) 0x180)
  awake : ∀ f i, i < 5 → t.flag (regAddr (pAct f) 0x180) i = s.flag (regAddr (pAct f) 0x180) i
  ctrs : ∀ a, tallied a = false → t.ctr a = s.ctr a
  hdrs : ∀ p, gained (s.hdr p) (t.hdr p)
  act : ∀ f, recalled w (s.act.get f) (t.act.get f)
  profiles : ∀ f, (t.btx.get f).profiles = (s.btx.get f).profiles
  store : t.nvs = { s.nvs with histQ := t.nvs.histQ }
  links : sparesLinks s t

theorem gained_refl (x : Hdr) : gained x x := ⟨rfl, fun _ h => h⟩

theorem gained_trans {x y z : Hdr} (a : gained x y) (b : gained y z) : gained x z := by
  obtain ⟨same, more⟩ := a
  obtain ⟨same', more'⟩ := b
  refine ⟨?_, fun i h => more' i (more i h)⟩
  rw [same', same]

theorem recalled_refl (w : Bool) (x : ActSt) : recalled w x x := ⟨⟨[], rfl⟩, fun _ => rfl, rfl⟩

theorem recalled_trans {x y z : ActSt} (a : recalled w x y) (b : recalled w y z) : recalled w x z := by
  obtain ⟨⟨l, up⟩, gate, same⟩ := a
  obtain ⟨⟨l', up'⟩, gate', same'⟩ := b
  refine ⟨⟨l' ++ l, ?_⟩, fun h => (gate' h).trans (gate h), ?_⟩
  · rw [up', up, List.append_assoc]
  · rw [same', same]

theorem settled_refl (w : Bool) (s : State) : Settled w s s :=
  ⟨fun _ _ _ => rfl, fun _ _ => rfl, fun _ _ _ => rfl, fun _ _ => rfl, fun _ => gained_refl _, fun _ => recalled_refl w _, fun _ => rfl, rfl,
    sparesLinks_refl _⟩

theorem Settled.after (step : Settled w t u) (h : Settled w s t) : Settled w s u where
  regs a zone apart := (step.regs a zone apart).trans (h.regs a zone apart)
  asleep held f := (step.asleep held f).trans (h.asleep held f)
  awake f i ne := (step.awake f i ne).trans (h.awake f i ne)
  ctrs a zone := (step.ctrs a zone).trans (h.ctrs a zone)
  hdrs p := gained_trans (h.hdrs p) (step.hdrs p)
  act f := recalled_trans (h.act f) (step.act f)
  profiles f := (step.profiles f).trans (h.profiles f)
  store := by rw [step.store, h.store]
  links := sparesLinks_trans h.links step.links

theorem settled_trans (a : Settled w s t) (b : Settled w t u) : Settled w s u := b.after a

theorem stirred_false {a : Nat} (h : stirred true a = false) : stirred false a = false := by
  simp only [stirred, Bool.or_eq_false_iff] at h
  simp only [stirred, Bool.false_and, Bool.or_false, Bool.or_eq_false_iff]
  exact h.1

theorem Settled.loose (h : Settled false s t) : Settled w s t where
  regs a zone apart := h.regs a (by cases w with
    | false => exact zone
    | true => exact stirred_false zone) apart
  asleep _ := h.asleep rfl
  awake := h.awake
  ctrs := h.ctrs
  hdrs := h.hdrs
  act f := ⟨(h.act f).1, fun _ => (h.act f).2.1 rfl, (h.act f).2.2⟩
  profiles := h.profiles
  store := h.store
  links := h.links

theorem settled_ite {c : Prop} [Decidable c] {a b : State} (ha : Settled w s a) (hb : Settled w s b) : Settled w s (if c then a else b) :=
  ite_all ha hb

theorem settled_foldl_mem {α : Type} {xs : List α} {f : State → α → State} (each : ∀ u, ∀ x ∈ xs, Settled w u (f u x)) (s : State) :
    Settled w s (xs.foldl f s) := by
  induction xs generalizing s with
  | nil => exact settled_refl w s
  | cons x xs ih => exact (ih (fun u y later => each u y (List.mem_cons_of_mem x later)) _).after (each s x List.mem_cons_self)

theorem settled_foldl {α : Type} {xs : List α} {f : State → α → State} (each : ∀ u x, Settled w u (f u x)) (s : State) :
    Settled w s (xs.foldl f s) := settled_foldl_mem (fun u x _ => each u x) s

theorem settled_foldr {α : Type} {xs : List α} {f : α → State → State} (each : ∀ x u, Settled w u (f x u)) (s : State) :
    Settled w s (xs.foldr f s) := by
  induction xs with
  | nil => exact settled_refl w s
  | cons x xs ih => exact (each x _).after ih

/-- What moves no part with registers, counters, headers, activation blocks, transmitters or the store. -/
theorem settled_of_keeps {l : List Part} (kept : keeps l s t)
    (apart : [Part.regs, .ctrs, .hdrs, .act, .btx, .nvs, .links].all (fun p => !l.contains p) = true) : Settled w s t := by
  have other : ∀ p ∈ [Part.regs, .ctrs, .hdrs, .act, .btx, .nvs, .links], p.same s t := fun p hp => kept p fun hl => by
    have := List.all_eq_true.mp apart p hp
    rw [List.contains_iff_mem.mpr hl] at this
    cases this
  have regs : t.regs = s.regs := other .regs (by decide)
  have ctrs : t.ctrs = s.ctrs := other .ctrs (by decide)
  have hdrs : t.hdrs = s.hdrs := other .hdrs (by decide)
  have act : t.act = s.act := other .act (by decide)
  have btx : t.btx = s.btx := other .btx (by decide)
  have nvs : t.nvs = s.nvs := other .nvs (by decide)
  have links : t.links = s.links := other .links (by decide)
  have word (a : Nat) : t.rd a = s.rd a := congrArg (tblGet (resetWord a) a) regs
  exact ⟨fun a _ _ => word a, fun _ _ => word _, fun _ i _ => flag_congr (word _) i, fun a _ => congrArg (tblGet 0 a) ctrs,
    fun p => by rw [State.hdr, State.hdr, hdrs]; exact gained_refl _, fun f => by rw [act]; exact recalled_refl w _, fun f => by rw [btx],
    by rw [nvs], fun _ => ⟨_, _, by rw [State.link, links]; rfl⟩⟩

theorem settled_of_moves {l : List Part} (moved : moves l s t)
    (apart : [Part.regs, .ctrs, .hdrs, .act, .btx, .nvs, .links].all (fun p => !l.contains p) = true) : Settled w s t :=
  settled_of_keeps moved.1 apart

/-! ### The operations on the state -/

theorem settled_wr {a : Nat} {v : Word} (zone : stirred w a = true) (apart : ∀ f, a ≠ regAddr (pAct f) 0x180) : Settled w s (s.wr a v) := by
  have kept := wr_keeps a v s
  have other {b : Nat} (ne : b ≠ a) : (s.wr a v).rd b = s.rd b := State.rd_wr_other s ne v
  refine ⟨fun b outside _ => other fun same => ?_, fun _ f => other (apart f).symm, fun f i _ => flag_congr (other (apart f).symm) i,
    fun b _ => rfl, fun p => gained_refl _, fun f => recalled_refl w _, fun f => rfl, rfl, sparesLinks_refl _⟩
  rw [same, zone] at outside
  cases outside

theorem settled_setCtr {a n : Nat} (zone : tallied a = true) : Settled w s (s.setCtr a n) := by
  refine ⟨fun _ _ _ => rfl, fun _ _ => rfl, fun _ _ _ => rfl, fun b outside => ctr_setCtr_other (fun same => ?_) n s, fun p => gained_refl _,
    fun f => recalled_refl w _, fun f => rfl, rfl, sparesLinks_refl _⟩
  rw [same, zone] at outside
  cases outside

theorem settled_raise {p i : Nat} : Settled w s (raise p i s) := by
  have kept := raise_keeps p i s
  have act : (raise p i s).act = s.act := kept .act (by decide)
  have btx : (raise p i s).btx = s.btx := kept .btx (by decide)
  have nvs : (raise p i s).nvs = s.nvs := kept .nvs (by decide)
  refine ⟨fun a _ _ => raise_rd p i s a, fun _ _ => raise_rd p i s _, fun _ i _ => flag_congr (raise_rd p _ s _) i,
    fun a _ => ctr_of_keeps kept (by decide) a, fun q => ?_, fun f => by rw [act]; exact recalled_refl w _, fun f => by rw [btx], by rw [nvs],
    raise_sparesLinks p i s⟩
  refine ⟨?_, fun j set => raise_intRaw_mono p i (q := q) (j := j) set⟩
  by_cases same : q = p
  · rw [same, raise_hdr]
  · rw [raise_keepsHdrs p i s q (by simpa using same)]

theorem settled_setActSt {f : AB} {x : ActSt} (grown : recalled w (s.act.get f) x) : Settled w s (s.setActSt f x) := by
  refine ⟨fun _ _ _ => rfl, fun _ _ => rfl, fun _ _ _ => rfl, fun _ _ => rfl, fun _ => gained_refl _, fun g => ?_, fun _ => rfl, rfl, sparesLinks_refl _⟩
  change recalled w (s.act.get g) ((s.act.set f x).get g)
  by_cases same : g = f
  · rw [same, Pair.get_set_same]
    exact grown
  · rw [Pair.get_set_other _ same]
    exact recalled_refl w _

theorem settled_setBtx {f : AB} {x : BtxSt} (held : x.profiles = (s.btx.get f).profiles) : Settled w s (s.setBtx f x) := by
  refine ⟨fun _ _ _ => rfl, fun _ _ => rfl, fun _ _ _ => rfl, fun _ _ => rfl, fun _ => gained_refl _, fun g => recalled_refl w _, fun g => ?_, rfl,
    sparesLinks_refl _⟩
  change ((s.btx.set f x).get g).profiles = _
  by_cases same : g = f
  · rw [same, Pair.get_set_same, held]
  · rw [Pair.get_set_other _ same]


/-- A register from the time unit on. -/
theorem settled_wr_high {a : Nat} {v : Word} (high : 0x2A000 ≤ a) : Settled w s (s.wr a v) := by
  refine settled_wr (by simp only [stirred, high, decide_true, Bool.true_or]) fun f same => ?_
  cases f <;> simp only [same, regAddr, pAct, AB.num] at high <;> omega

/-- A register of a transmitter or the half-range bits of an activation block. -/
theorem settled_wr_listed {a : Nat} {v : Word} (listed : a ∈ [0x22130, 0x23130, 0x24110, 0x25110, 0x24130, 0x25130]) :
    Settled w s (s.wr a v) := by
  refine settled_wr ?_ fun f same => ?_
  · have held : [0x22130, 0x23130, 0x24110, 0x25110, 0x24130, 0x25130].contains a = true := List.contains_iff_mem.mpr listed
    simp only [stirred, held, Bool.or_true, Bool.true_or]
  · subst same
    cases f <;> exact absurd listed (by decide)

theorem settled_setCtr_high {a n : Nat} (high : 0x24000 ≤ a) : Settled w s (s.setCtr a n) :=
  settled_setCtr (by simp only [tallied, high, decide_true, Bool.true_or])

/-- A counter whose register of half-range bits is in the zone. -/
theorem settled_countWide {a width k h i p j : Nat} (zone : tallied a = true) (half : ∀ u v, Settled w u (State.wr u h v)) :
    Settled w s (countWide a width k (some (h, i)) (some (p, j)) s) := by
  unfold countWide
  exact settled_ite (settled_raise.after <| (half _ _).after <| settled_setCtr zone) (settled_setCtr zone)

/-! ### What aborting a burst does (R310, R311) -/

theorem settled_macCount {n i k : Nat} : Settled w s (macCount n i k s) := by
  refine settled_countWide ?_ fun u v => settled_wr_high ?_
  · have high : 0x24000 ≤ regAddr (pMac n) (0x200 + 8 * i) := by unfold regAddr pMac; omega
    simp only [tallied, high, decide_true, Bool.true_or]
  · unfold regAddr pMac
    omega

theorem settled_btxCount {f : AB} {i k : Nat} (few : i < 32) : Settled w s (btxCount f i k s) := by
  refine settled_countWide ?_ fun u v => settled_wr_listed ?_
  · have high : 0x24000 ≤ regAddr (pBtx f) (0x400 + 8 * i) := by unfold regAddr pBtx; omega
    simp only [tallied, high, decide_true, Bool.true_or]
  · rw [Nat.div_eq_of_lt few]
    cases f <;> decide

theorem settled_emit {o : Output} : Settled w s (s.emit o) := settled_of_moves emit_moves rfl

theorem settled_sendPause {n pri q : Nat} : Settled w s (sendPause n pri q s) :=
  settled_ite (settled_macCount.after settled_emit) (settled_macCount.after <| settled_macCount.after settled_emit)

theorem settled_setXoff {n pri : Nat} {on : Bool} : Settled w s (setXoff n pri on s) :=
  settled_ite (settled_raise.after <| settled_of_moves setPort_moves rfl) (settled_of_moves setPort_moves rfl)

theorem settled_pauseCheck {n : Nat} : Settled w s (pauseCheck n s) :=
  settled_ite (settled_foldl (fun _ _ => settled_ite (settled_sendPause.after settled_setXoff) <|
    settled_ite (settled_sendPause.after settled_setXoff) (settled_refl _ _)) s) (settled_refl _ _)

theorem settled_freed {l : List Pkt} : Settled w s (freed l s) := settled_foldl (fun _ _ => settled_pauseCheck) s

theorem settled_freeLine {p : Pkt} : Settled w s (freeLine p s) := settled_freed.after (settled_of_moves with_buf_moves rfl)

theorem settled_skimSample {r : Reason} {k q detail : Nat} {p : Option Pkt} : Settled w s (skimSample r k q p detail s) := by
  have buf {x : BufSt} {u : State} : Settled w u { u with buf := x } := settled_of_moves with_buf_moves rfl
  refine settled_ite (settled_refl _ _) <| settled_ite buf <| settled_trans buf <| settled_ite (settled_refl _ _) <| settled_ite buf <|
    settled_raise.after <| settled_wr_high ?_
  unfold regAddr pSlice
  omega

theorem settled_dropAt {r : Reason} {k q detail : Nat} {p : Option Pkt} : Settled w s (dropAt r k q p detail s) := by
  refine settled_skimSample.after <| (settled_wr_high (by decide)).after <| (settled_wr_high ?_).after <| settled_countWide ?_ fun _ _ =>
    settled_wr_high ?_
  · unfold regAddr pSlice
    omega
  · have high : 0x24000 ≤ censusAddr k r.code q := by unfold censusAddr regAddr pSlice; split <;> omega
    simp only [tallied, high, decide_true, Bool.true_or]
  · unfold regAddr pSlice
    omega

/-- A word of the PLOAM log. -/
theorem settled_logWord {f : AB} {off : Nat} {v : Word} (low : 0x400 ≤ off) (high : off < 0x800) : Settled w s (s.wp (pAct f) off v) := by
  refine settled_wr ?_ fun g same => ?_
  · have zone : (0x22400 ≤ regAddr (pAct f) off ∧ regAddr (pAct f) off < 0x22800) ∨
        (0x23400 ≤ regAddr (pAct f) off ∧ regAddr (pAct f) off < 0x23800) := by
      cases f <;> simp only [regAddr, pAct, AB.num] <;> omega
    rcases zone with zone | zone <;> simp only [stirred, zone, and_self, decide_true, Bool.or_true, Bool.true_or]
  · cases f <;> cases g <;> simp only [regAddr, pAct, AB.num] at same <;> omega

theorem settled_logPloam {f : AB} {up : Bool} {ty : Nat} {bytes : List Byte} : Settled w s (logPloam f up ty bytes s) := by
  let base := 0x400 + 64 * ((s.act.get f).logNext % 16)
  let words := (bytesToWords 12 bytes ++ List.replicate 12 0).take 12
  let u := words.zipIdx.foldl (fun s x => s.wp (pAct f) (base + 4 * x.2) x.1) s
  have log : Settled w s u := settled_foldl_mem (fun u x listed => by
    have few : x.2 < 12 := by
      have := List.snd_lt_of_mem_zipIdx listed
      have short : words.length ≤ 12 := List.length_take_le 12 _
      omega
    exact settled_logWord (by omega) (by omega)) s
  have acts : keeps [.regs] s u := (moves_foldl (fun _ _ => wp_moves) moves_rfl : moves [.regs] s u).1
  refine settled_raise.after <| (settled_setActSt ?_).after <| (settled_logWord (by omega) (by omega)).after <|
    (settled_logWord (by omega) (by omega)).after log
  have same : u.act = s.act := acts .act (by decide)
  change recalled w (u.act.get f) _
  rw [same]
  exact ⟨⟨[], rfl⟩, fun _ => rfl, rfl⟩

theorem settled_sentPloamu {f : AB} {p : Ploamu} : Settled w s (sentPloamu f p s) := by
  have counted : Settled w s (actCount f 5 s) := settled_countWide (by cases f <;> decide) fun _ _ => settled_wr_listed (by cases f <;> decide)
  have logged : Settled w s (logPloam f true (ploamuType p) (ploamuBytes p) (actCount f 5 s)) := settled_logPloam.after counted
  exact settled_ite ((settled_setActSt (by exact ⟨⟨[], rfl⟩, fun _ => rfl, rfl⟩)).after logged) logged

theorem settled_accountItem {f : AB} {i : UpItem} : Settled w s (accountItem f s i) := by
  cases i with
  | dbru n => exact settled_btxCount (by decide)
  | ploamu p => exact settled_sentPloamu.after (settled_btxCount (by decide))
  | idle n => exact settled_btxCount (by decide)
  | omci p l => exact (settled_btxCount (by decide)).after (settled_btxCount (by decide))
  | spoiled b n p => exact (settled_btxCount (by decide)).after (settled_btxCount (by decide))
  | sdu p a q off n port lf enc =>
    have sent : Settled w s (btxCount f 7 (xgemSize n) (btxCount f 6 1 s)) := (settled_btxCount (by decide)).after (settled_btxCount (by decide))
    have counted : Settled w s (if off = 0 ∧ lf = true then btxCount f 7 (xgemSize n) (btxCount f 6 1 s)
        else btxCount f 9 1 (btxCount f 7 (xgemSize n) (btxCount f 6 1 s))) := settled_ite sent ((settled_btxCount (by decide)).after sent)
    exact settled_ite (settled_freeLine.after counted) counted

theorem settled_setRemain {f : AB} {n : Nat} {r : Option Remain} : Settled w s (setRemain f n r s) := settled_setBtx rfl

theorem settled_recallItem {f : AB} {node : Option Nat} {i : UpItem} : Settled w s (recallItem f node i s) := by
  cases i with
  | ploamu p => exact settled_setActSt ⟨⟨[p], rfl⟩, fun _ => rfl, rfl⟩
  | omci p l => exact settled_of_moves with_omciUpQ_moves rfl
  | sdu p a q off n port lf enc =>
    cases node with
    | none => exact settled_refl w s
    | some n =>
      exact settled_ite ((settled_of_moves requeue_moves rfl).after settled_setRemain) settled_setRemain
  | dbru n => exact settled_refl w s
  | spoiled b n p => exact settled_refl w s
  | idle n => exact settled_refl w s

theorem settled_recallItems {f : AB} {node : Option Nat} {l : List UpItem} : Settled w s (recallItems f node l s) :=
  settled_foldr (fun _ _ => settled_recallItem) s

theorem settled_recallBursts {f : AB} : Settled w s (recallBursts f s) :=
  (settled_foldr (fun _ _ => settled_recallItems) _).after (settled_setBtx rfl)

theorem settled_benLow {f : AB} : Settled w s (benLow f s) := settled_wr_listed (by cases f <;> decide)

/-- The SDU or OMCI item of a burst in whose middle BEN falls. -/
theorem settled_brokenItem {f : AB} {node : Option Nat} {x : Option UpItem} : Settled w s (match x with
    | some (.sdu p _ _ _ _ _ _ _) =>
      let s := match node with
        | some k => if (remainOf f k s).any (fun r => r.pkt == p) then setRemain f k none s else s
        | none => s
      freeLine p (dropAt .burstAbort p.slice 8 (some p) 0 s)
    | some (.omci _ _) => dropAt .burstAbort 0 8 none 0 s
    | _ => s) := by
  split
  · refine settled_freeLine.after <| settled_dropAt.after ?_
    split
    · exact settled_ite settled_setRemain (settled_refl w s)
    · exact settled_refl w s
  · exact settled_dropAt
  · exact settled_refl w s

theorem settled_abortBurst {f : AB} : Settled w s (abortBurst f s) := by
  unfold abortBurst
  split
  · exact settled_refl w s
  · refine settled_benLow.after <| settled_emit.after <| settled_raise.after <| (settled_btxCount (by decide)).after <|
      (settled_btxCount (by decide)).after <| settled_brokenItem.after <| (settled_foldl (fun _ _ => settled_accountItem) _).after <|
      settled_recallItems.after <| (settled_setBtx (by rfl)).after <| settled_of_moves takeFree_moves rfl

theorem settled_abortAll {f : AB} : Settled w s (abortAll f s) := settled_abortBurst.after settled_recallBursts

/-! ### The time unit (R428 to R437) -/

theorem settled_setTsu {x : TsuSt} : Settled w s (s.setTsu x) := settled_of_moves setTsu_moves rfl

theorem settled_calAbort : Settled w s (calAbort s) := by
  unfold calAbort
  split
  · exact settled_refl w s
  · exact settled_raise.after <| settled_setTsu.after <| settled_wr_high (by decide)

theorem settled_setTsuState {st : TsuState} : Settled w s (setTsuState st s) :=
  settled_ite (settled_refl w s) <| settled_trans (settled_raise.after settled_setTsu) <| settled_ite (settled_refl w _) settled_calAbort

theorem settled_synceUpdate : Settled w s (synceUpdate s) := by
  have counted (u : State) : Settled w u (tsuCount 7 u) := settled_countWide (by decide) fun _ _ => settled_wr_high (by decide)
  exact settled_trans (settled_wr_high (by decide)) <| settled_ite (settled_raise.after (counted _)) (settled_refl w _)

theorem settled_tsuUpdate : Settled w s (tsuUpdate s) := by
  unfold tsuUpdate
  extract_lets _ s1 s2 _ s3
  have chosen : Settled w s s1 := by
    unfold s1
    split
    · exact settled_ite (settled_refl w s) settled_setTsu
    · exact settled_refl w s
  have valid : Settled w s2 s3 := by
    unfold s3
    split
    · exact settled_setTsu
    · exact settled_ite (settled_refl w _) settled_setTsu
    · exact settled_refl w _
  exact settled_synceUpdate.after <| valid.after <| settled_setTsuState.after chosen

/-! ### The operating mode and switches between the feeders -/

/-- A register of the mode history or the overflow count of the store's queue. -/
theorem settled_wr_mode {a : Nat} {v : Word} (zone : 0x200 ≤ a ∧ a < 0x280 ∨ a ∈ [0x108, 0x10C, 0x3150]) : Settled true s (s.wr a v) := by
  refine settled_wr ?_ fun f same => ?_
  · rcases zone with zone | zone
    · simp only [stirred, zone, and_self, decide_true, Bool.true_and, Bool.true_or, Bool.or_true]
    · simp only [stirred, List.contains_iff_mem.mpr zone, Bool.true_and, Bool.or_true]
  · simp only [List.mem_cons, List.not_mem_nil, or_false] at zone
    cases f <;> simp only [same, regAddr, pAct, AB.num] at zone <;> omega

theorem settled_histQ {l : List (Word × Word)} : Settled w s { s with nvs := { s.nvs with histQ := l } } :=
  ⟨fun _ _ _ => rfl, fun _ _ => rfl, fun _ _ _ => rfl, fun _ _ => rfl, fun _ => gained_refl _, fun _ => recalled_refl w _, fun _ => rfl, rfl,
    sparesLinks_refl _⟩

theorem settled_nvQueueHist {e : Word × Word} : Settled true s (nvQueueHist e s) :=
  settled_ite settled_histQ <| settled_raise.after <| (settled_wr_mode (by decide)).after settled_histQ

theorem settled_writeHist {src dst : Mode} {cause : Nat} {rtc : Bool} : Settled true s (writeHist src dst cause rtc s) := by
  have few : s.fld (regAddr pPwr 0x108) 0 4 < 16 := bits_lt _ _ _
  refine settled_trans ((settled_wr_mode (by decide)).after <| (settled_wr_mode ?_).after <| settled_wr_mode ?_) <|
    settled_ite (settled_refl _ _) settled_nvQueueHist
  · generalize s.fld (regAddr pPwr 0x108) 0 4 = n at few
    unfold regAddr pPwr
    omega
  · generalize s.fld (regAddr pPwr 0x108) 0 4 = n at few
    unfold regAddr pPwr
    omega

theorem settled_transition {dst : Mode} {cause : Nat} : Settled true s (transition dst cause s) :=
  settled_trans settled_writeHist <| settled_raise.after <| (settled_of_moves with_power_moves rfl).after <|
    settled_ite (settled_wr_mode (by decide)) (settled_refl _ _)

theorem sleepAddr_ne {f g : AB} (ne : g ≠ f) : regAddr (pAct g) 0x180 ≠ regAddr (pAct f) 0x180 := by
  revert ne
  cases f <;> cases g <;> decide

theorem settled_wakeRx {f : AB} : Settled true s (wakeRx f s) := by
  have low : Settled true s (s.setFlag (regAddr (pAct f) 0x180) 5 false) := by
    have other {a : Nat} (ne : a ≠ regAddr (pAct f) 0x180) : (s.setFlag (regAddr (pAct f) 0x180) 5 false).rd a = s.rd a :=
      rd_setFld_other _ ne _ _ _
    refine ⟨fun a _ apart => other (apart f), fun held => absurd held (by decide), fun g i ne => ?_, fun _ _ => rfl, fun _ => gained_refl _,
      fun _ => recalled_refl _ _, fun _ => rfl, rfl, sparesLinks_refl _⟩
    by_cases same : g = f
    · subst same
      exact flag_setFlag_other _ _ (Nat.lt_trans ne (by decide)) (Nat.ne_of_lt ne) _
    · exact flag_congr (other (sleepAddr_ne same)) i
  exact (settled_setActSt (by exact ⟨⟨[], rfl⟩, fun held => absurd held (by decide), rfl⟩)).after low

theorem settled_modeTo {dst : Mode} {cause : Nat} : Settled true s (modeTo dst cause s) := by
  unfold modeTo
  extract_lets _ s1 _ _ _ _ _ s2 s3 _ s4
  have back : Settled true s1 s2 := by
    unfold s2
    split
    · exact settled_refl _ _
    · exact (settled_setBtx (by rfl)).after <| (settled_setBtx (by rfl)).after <| (settled_of_moves with_psw_moves rfl).after <|
        settled_recallBursts.after settled_recallBursts
    · exact settled_refl _ _
  have woken : Settled true s2 s3 := by
    unfold s3
    split
    · exact settled_ite (settled_refl _ _) settled_wakeRx
    · exact settled_refl _ _
  have settled : Settled true s3 s4 := by
    unfold s4
    split
    · exact settled_refl _ _
    · exact settled_of_moves with_psw_moves rfl
  exact settled_tsuUpdate.after <| (settled_of_moves seqSync_moves rfl).after <| settled.after <| woken.after <| back.after settled_transition

theorem settled_startSwitch {dst : AB} {cause : Nat} : Settled true s (startSwitch dst cause s) := by
  unfold startSwitch
  extract_lets x1 s1 s2 x2 s3
  have out : Settled true s s1 := settled_setBtx (by rfl)
  have back : Settled true s1 s2 := settled_ite settled_abortAll settled_recallBursts
  have named : Settled true s2 s3 := settled_of_moves with_psw_moves rfl
  exact settled_modeTo.after <| named.after <| back.after out

theorem settled_standing : Settled true s (standing s) := by
  unfold standing
  split
  · exact settled_refl _ _
  · exact settled_ite (settled_refl _ _) <| settled_ite settled_startSwitch <| settled_ite settled_startSwitch (settled_refl _ _)

theorem settled_syncAttach : Settled w s (syncAttach s) := settled_of_moves syncAttach_moves rfl

/-- The feeders are evaluated after the standing commands. -/
theorem settled_after_standing {old : State} (stands : Settled w s (standing s)) : Settled w s (lineSettle old s) := by
  unfold lineSettle
  extract_lets s1 x s2 dark
  have counts : Settled w s1 s2 :=
    settled_ite (settled_ite (settled_refl _ _) (settled_raise.after <| settled_of_moves with_psw_moves rfl)) (settled_of_moves with_psw_moves rfl)
  have one (f : AB) (u : State) : Settled w u (dark f u) := settled_ite settled_abortAll (settled_refl _ _)
  exact settled_trans (((one .b _).after (one .a _)).after <| counts.after <| settled_tsuUpdate.after <| settled_syncAttach.after stands)
    (settled_ite settled_raise (settled_refl _ _))

theorem settled_lineSettle {old : State} : Settled true s (lineSettle old s) := settled_after_standing settled_standing

/-- Without an operator command no switch begins. -/
theorem standing_quiet (idle : quiet s = true) : standing s = s := by
  have zero : s.rd (regAddr pPsw 0x108) = 0 := by simpa [quiet, State.rp] using idle
  have free : forced s = none := by simp only [forced, State.fld, zero]; rfl
  have unlocked (f : AB) : lockedOut f s = false := by
    unfold lockedOut State.flag
    rw [zero]
    cases f <;> rfl
  unfold standing
  split
  · rfl
  · split
    · rfl
    · rw [if_neg (by rw [unlocked]; decide), if_neg (by rw [free]; exact fun h => by cases h)]

theorem settled_lineSettle_quiet {old : State} (idle : quiet s = true) : Settled w s (lineSettle old s) :=
  settled_after_standing (by rw [standing_quiet idle]; exact settled_refl w s)

/-! ### What stays -/

theorem Settled.intRaw {p i : Nat} (h : Settled w s t) (set : intRawBit s p i = true) : intRawBit t p i = true := (h.hdrs p).2 i set

theorem Settled.queue (h : Settled w s t) (f : AB) : (t.act.get f).queue = (s.act.get f).queue := by rw [(h.act f).2.2]

theorem Settled.eqdNew (h : Settled w s t) (f : AB) : (t.act.get f).eqdNew = (s.act.get f).eqdNew := by rw [(h.act f).2.2]

theorem Settled.eqdUse (h : Settled w s t) (f : AB) : (t.act.get f).eqdUse = (s.act.get f).eqdUse := by rw [(h.act f).2.2]

theorem Settled.refSfc (h : Settled w s t) (f : AB) : (t.act.get f).refSfc = (s.act.get f).refSfc := by rw [(h.act f).2.2]

theorem Settled.waits {f : AB} {p : Ploamu} (h : Settled w s t) (listed : p ∈ (s.act.get f).up) : p ∈ (t.act.get f).up := by
  obtain ⟨⟨l, up⟩, -, -⟩ := h.act f
  rw [up]
  exact List.mem_append_right l listed

/-- A register below the pages that settling writes, by its page. -/
theorem Settled.rp {p off : Nat} (h : Settled w s t) (zone : stirred w (regAddr p off) = false := by decide)
    (apart : ∀ f, regAddr p off ≠ regAddr (pAct f) 0x180 := by intro g; cases g <;> decide) : t.rp p off = s.rp p off := h.regs _ zone apart

/-! ### The operating mode after settling -/

theorem startSwitch_power (dst : AB) (cause : Nat) (s : State) :
    (startSwitch dst cause s).power = { s.power with mode := .service .pswitch, lastCause := 0x33 } := by
  unfold startSwitch
  extract_lets x1 s1 s2 x2 s3
  have back : moves [.regs, .ctrs, .hdrs, .out, .free, .links, .buf, .mac, .act, .btx, .omciUpQ] s1 s2 :=
    moves_ite abortAll_moves (recallBursts_moves.within rfl)
  have same : s3.power = s.power := back.1 .power (by decide)
  rw [modeTo_power, same]

/-- A standing command starts a switch while the feeders carry data, or changes nothing. -/
theorem standing_cases (s : State) : standing s = s ∨
    carrier s ≠ none ∧ (standing s).power = { s.power with mode := .service .pswitch, lastCause := 0x33 } := by
  unfold standing
  split
  · exact .inl rfl
  · rename_i c carries
    have some : carrier s ≠ none := by rw [carries]; exact Option.some_ne_none c
    split
    · exact .inl rfl
    · split
      · exact .inr ⟨some, startSwitch_power _ _ _⟩
      · split
        · exact .inr ⟨some, startSwitch_power _ _ _⟩
        · exact .inl rfl

theorem syncAttach_power (s : State) : (syncAttach s).power = s.power ∨
    ∃ x, s.power.mode = .attach x ∧ (syncAttach s).power = { s.power with mode := .attach (attachSubOf (actState (attachFeeder s) s)) } := by
  unfold syncAttach
  split
  · rename_i x mode
    exact .inr ⟨x, mode, rfl⟩
  · exact .inl rfl

/-! ### The units behind the line -/

theorem settled_endPauses {n : Nat} : Settled w s (endPauses n s) := by
  have high (off : Nat) : 0x2A000 ≤ regAddr (pMac n) off := by unfold regAddr pMac; omega
  exact settled_trans ((settled_wr_high (high 0x104)).after <| settled_wr_high (high 0x104)) (settled_of_moves setPort_moves rfl)

theorem settled_linkUpdate {n : Nat} : Settled w s (linkUpdate n s) := by
  have high : 0x2A000 ≤ regAddr (pMac n) 0x104 := by unfold regAddr pMac; omega
  exact settled_ite (settled_refl w s) <| settled_trans (settled_raise.after <| settled_wr_high high) <|
    settled_ite settled_pauseCheck settled_endPauses

theorem settled_settleUnits {old : State} : Settled w s (settleUnits old s) :=
  settled_trans ((settled_foldl (fun _ _ => settled_linkUpdate) _).after <| settled_of_moves seqSync_moves rfl) <|
    settled_foldl (fun _ _ => settled_ite (settled_refl w _) (settled_of_moves setChan_moves rfl)) _

theorem settled_settle {old : State} : Settled true s (settle old s) := settled_lineSettle.after settled_settleUnits

end Sys2Proof.Machine

/-!
PROOFS. Memory integrity and training (O59): the scrubber, the tests of rows, the spares of a bank, armed flips and the MEM block.
-/

namespace Sys2Proof.Machine

variable {s t : State}

/-! ### Faults and tests in the headers -/

/-- Recording a fault clears no bit of INT_RAW. -/
theorem recordFault_intRaw {p code q j : Nat} {d w : Word} (up : intRawBit s q j = true) : intRawBit (recordFault p code d w s) q j = true := by
  have logged (u : State) (h : intRawBit u q j = true) : intRawBit (addLog (logTypeOf code) p code d w u) q j = true :=
    (intRawBit_of_keeps (addLog_spec _ _ _ _ _ _).1 (by decide) _ _).trans h
  refine raise_intRaw_mono p 31 (logged _ ?_)
  by_cases same : q = p
  · subst same
    unfold intRawBit
    rw [State.hdr_setHdr_same]
    split <;> exact up
  · unfold intRawBit
    rw [State.hdr_setHdr_other _ same]
    exact up

theorem setTest_intRaw {p q j unit detail : Nat} {st : TestStatus} {auto : Bool} (up : intRawBit s q j = true) :
    intRawBit (setTest p st auto unit detail s) q j = true := by
  unfold setTest intRawBit
  by_cases same : q = p
  · subst same
    rw [State.hdr_setHdr_same]
    exact up
  · rw [State.hdr_setHdr_other _ same]
    exact up

theorem intRaw_of_ecc {x : EccSt} {q j : Nat} (up : intRawBit s q j = true) : intRawBit { s with ecc := x } q j = true := up

theorem startRowTest_intRaw {l : MemLoc} {q j : Nat} (up : intRawBit s q j = true) : intRawBit (startRowTest l s) q j = true :=
  ite_all (P := fun u => intRawBit u q j = true) up (countAt_intRaw (setTest_intRaw (intRaw_of_ecc up)))

theorem loseKey_intRaw {feeder slot q j : Nat} (up : intRawBit s q j = true) : intRawBit (loseKey feeder slot s) q j = true :=
  ite_all (P := fun u => intRawBit u q j = true) up (raise_intRaw_mono _ _ (recordFault_intRaw up))

/-! ### A corrected error (R491, R502) -/

/-- The counter of corrected errors counts nothing else. -/
theorem eccCount_other {i k j : Nat} (ne : i ≠ j) (s : State) : (eccCount i k s).ctr (regAddr pEcc (0x200 + 8 * j)) =
    s.ctr (regAddr pEcc (0x200 + 8 * j)) :=
  countWide_ctr_other (by unfold regAddr; omega) _ _ _ _ _

theorem startRowTest_ctr (l : MemLoc) (s : State) : (startRowTest l s).ctr (regAddr pEcc 0x200) = s.ctr (regAddr pEcc 0x200) := by
  unfold startRowTest
  split
  · rfl
  · exact eccCount_other (i := 6) (j := 0) (by decide) _

theorem startRowTest_ecc (l : MemLoc) (s : State) : (startRowTest l s).ecc.ces = s.ecc.ces ∧ (startRowTest l s).ecc.poison = s.ecc.poison ∧
    (s.ecc.tests = [] → (startRowTest l s).ecc.tests = [l]) := by
  have kept (u : State) : (eccCount 6 1 (setTest (memPage l.mem l.bank) .running true (testUnitOf l) l.row u)).ecc = u.ecc :=
    (eccCount_moves.after rfl <| setTest_moves.within rfl : moves [.regs, .ctrs, .hdrs, .links] u _).1 .ecc (by decide)
  unfold startRowTest
  split
  · rename_i listed
    exact ⟨rfl, rfl, fun none => by rw [none] at listed; cases listed⟩
  · dsimp only
    rw [kept]
    exact ⟨rfl, rfl, fun none => by rw [none]; rfl⟩

theorem foundCe_spec (l : MemLoc) (b : Nat) (s : State) :
    let t := foundCe l b s
    t.ctr (regAddr pEcc 0x200) = (s.ctr (regAddr pEcc 0x200) + 1) % 2 ^ 40 ∧ intRawBit t pEcc 0 = true ∧ t.ecc.poison = s.ecc.poison ∧
      t.ecc.ces = s.ecc.ces ++ [(l, s.clock)] ∧ (s.ecc.tests = [] → t.ecc.tests = [l]) ∧ (l.mem ≠ 0x69 → t.keys = s.keys) := by
  intro t
  let s1 := raise pEcc 0 (eccCount 0 1 s)
  let s2 : State := { s1 with ecc := { s1.ecc with ces := s1.ecc.ces ++ [(l, s1.clock)] } }
  let s3 := recordFault (memPage l.mem l.bank) 0x0101 (locWord l b) 0 s2
  let s4 := startRowTest l s3
  have first : moves [.regs, .ctrs, .hdrs, .links] s s1 := raise_moves.after rfl <| eccCount_moves.within rfl
  have logged : moves [.regs, .hdrs, .nvs, .links, .log] s2 s3 := recordFault_moves
  have tested : moves [.regs, .ctrs, .hdrs, .links, .ecc] s3 s4 := startRowTest_moves
  have lost : moves [.regs, .hdrs, .nvs, .links, .log, .act, .keys] s4 t := moves_ite loseKey_moves moves_rfl
  have count : s4.ctr (regAddr pEcc 0x200) = (s.ctr (regAddr pEcc 0x200) + 1) % 2 ^ 40 :=
    (startRowTest_ctr l s3).trans <| (ctr_of_keeps logged.1 (by decide) _).trans <|
      (ctr_of_keeps raise_moves.1 (by decide) _).trans (countAt_spec pEcc 0x200 0x1F0 5 40 0 1 s).1
  have told : intRawBit s4 pEcc 0 = true := startRowTest_intRaw <| recordFault_intRaw <| intRaw_of_ecc <| raise_intRaw _ _ _ (by decide)
  obtain ⟨ces, poison, tests⟩ := startRowTest_ecc l s3
  have ecc : s1.ecc = s.ecc := first.1 .ecc (by decide)
  have clock : s1.clock = s.clock := first.1 .clock (by decide)
  have ecc' : s3.ecc = s2.ecc := logged.1 .ecc (by decide)
  have end_ : t.ecc = s4.ecc := lost.1 .ecc (by decide)
  refine ⟨(ctr_of_keeps lost.1 (by decide) _).trans count,
    ite_all (P := fun u => intRawBit u pEcc 0 = true) (loseKey_intRaw told) told, ?_, ?_, fun none => ?_, fun other => ?_⟩
  · rw [end_, poison, ecc']
    show s1.ecc.poison = _
    rw [ecc]
  · rw [end_, ces, ecc']
    show s1.ecc.ces ++ [(l, s1.clock)] = _
    rw [ecc, clock]
  · rw [end_]
    refine tests ?_
    rw [ecc']
    exact (congrArg EccSt.tests ecc).trans none
  · have here : t = s4 := if_neg other
    rw [here]
    exact (tested.1 .keys (by decide)).trans <| (logged.1 .keys (by decide)).trans (first.1 .keys (by decide))

/-! ### A row of the scrubber (R499 to R501) -/

/-- The pass starts at the first row. -/
def passStart (l : MemLoc) (s : State) : State := if some l = memFrom 0 s then { s with ecc := { s.ecc with passUs := 0 } } else s

/-- The scrubber moves on. -/
def scrubbedOn (l : MemLoc) (s : State) : State :=
  if s.running then (match scrubNext l s with
    | some n => setScrubPos n s
    | none => passEnd s) else s

/-- A row of clean memory outside the buffer. -/
theorem scrubRow_clean {l : MemLoc} (k : Nat) (errs : List RowErr) (on : s.running = true) (mode : s.flag (regAddr pEcc 0x100) 8 = true)
    (clean : memClean s = true) (here : scrubHere s = some l) (high : 0x40 ≤ l.mem) :
    exec (.scrubRow k errs) s = .next (settle s (scrubbedOn l (errs.foldl (fun s e => scrubErr (k % 16) l e s) (passStart l s)))) := by
  obtain ⟨none, -, -⟩ := memClean_iff.mp clean
  have upsets : (passStart l s).ecc.upsets = [] := by
    unfold passStart
    split <;> exact none
  have low : ¬ l.mem < 0x40 := Nat.not_lt.mpr high
  simp only [exec, execScrubRow, whenOn_running on, mode, here, Bool.not_true, Bool.false_eq_true, if_false, low]
  change Host.Outcome.next (settle s (scrubbedOn l (errs.foldl (fun s e => scrubErr (k % 16) l e s)
    (((passStart l s).ecc.upsets.filter (fun u => sameRow u.loc l)).foldl (fun s u => readUpset true u s) (passStart l s))))) = _
  rw [upsets]
  rfl

/-- A word with one bit in error (R491, R501). -/
theorem scrubErr_one {l : MemLoc} {slice b w : Nat} {n : Nat × Nat × Nat} (clean : s.ecc.poison = []) (shape : memShape l.mem = some n) (small : b < 72) :
    scrubErr slice l ⟨w, [b]⟩ s = foundCe { l with word := w % n.2.2 } b s := by
  obtain ⟨banks, rows, words⟩ := n
  simp only [scrubErr, shape, clean, List.contains_nil, Bool.false_eq_true, if_false, Nat.mod_eq_of_lt small]

theorem passStart_keeps (l : MemLoc) (s : State) : keeps [.ecc] s (passStart l s) := ite_all with_ecc_moves.1 (keeps_refl _ _)

theorem passStart_ecc (l : MemLoc) (s : State) : (passStart l s).ecc.poison = s.ecc.poison ∧ (passStart l s).ecc.ces = s.ecc.ces ∧
    (passStart l s).ecc.tests = s.ecc.tests := by
  unfold passStart
  split <;> exact ⟨rfl, rfl, rfl⟩

theorem passStart_next (l : MemLoc) (s : State) : scrubNext l (passStart l s) = scrubNext l s := by
  unfold passStart
  split <;> rfl

/-- What the scrubber's step on keeps of the errors found. -/
theorem scrubbedOn_spec (l : MemLoc) (s : State) :
    moves [.regs, .hdrs, .nvs, .links, .log, .ecc] s (scrubbedOn l s) ∧ (∀ q j, intRawBit s q j = true → intRawBit (scrubbedOn l s) q j = true) ∧
      (scrubbedOn l s).ecc.poison = s.ecc.poison ∧ (scrubbedOn l s).ecc.ces = s.ecc.ces ∧ (scrubbedOn l s).ecc.tests = s.ecc.tests := by
  let u := (s.wp pEcc 0x104 0).bump (regAddr pEcc 0x108) 1
  have ecc : u.ecc = s.ecc := rfl
  have late (n : Nat) : (raise pEcc 4 (recordFault pEcc 0x0107 (word n) 0 { u with ecc := { u.ecc with passUs := 0 } })).ecc =
      { u.ecc with passUs := 0 } :=
    (raise_moves.after rfl <| recordFault_moves.within rfl : moves [.regs, .hdrs, .nvs, .links, .log] { u with ecc := _ } _).1 .ecc (by decide)
  have ended : (passEnd s).ecc.poison = s.ecc.poison ∧ (passEnd s).ecc.ces = s.ecc.ces ∧ (passEnd s).ecc.tests = s.ecc.tests :=
    ite_all (P := fun t => t.ecc.poison = s.ecc.poison ∧ t.ecc.ces = s.ecc.ces ∧ t.ecc.tests = s.ecc.tests)
      (by rw [late, ecc]; exact ⟨rfl, rfl, rfl⟩) ⟨rfl, rfl, rfl⟩
  have told (q j : Nat) (up : intRawBit s q j = true) : intRawBit (passEnd s) q j = true :=
    ite_all (P := fun t => intRawBit t q j = true) (raise_intRaw_mono _ _ (recordFault_intRaw up)) up
  unfold scrubbedOn
  split
  · split
    · rename_i x _
      have ecc : (setScrubPos x s).ecc = s.ecc := part_of_moves .ecc setScrubPos_moves rfl
      refine ⟨setScrubPos_moves.within rfl, fun q j up => (intRawBit_of_keeps setScrubPos_moves.1 (by decide) q j).trans up, ?_⟩
      rw [ecc]
      exact ⟨rfl, rfl, rfl⟩
    · exact ⟨passEnd_moves, told, ended⟩
  · exact ⟨moves_rfl, fun _ _ up => up, rfl, rfl, rfl⟩

/-- A row without errors: the scrubber moves on (R499). -/
theorem scrubRow_moves_on {l x : MemLoc} (k : Nat) (on : s.running = true) (mode : s.flag (regAddr pEcc 0x100) 8 = true)
    (clean : memClean s = true) (here : scrubHere s = some l) (high : 0x40 ≤ l.mem) (next : scrubNext l s = some x) :
    After (exec (.scrubRow k []) s) fun t => alike [.pending, .snaps, .last, .clock, .dram, .masters, .mbx, .lfr, .keys] s t ∧
      t.rp pEcc 0x104 = word (x.mem * 2 ^ 24 + x.row * 2 ^ 12 + x.bank * 2 ^ 8) := by
  have power : (passStart l s).power = s.power := passStart_keeps l s .power (by decide)
  have moved : scrubbedOn l (passStart l s) = setScrubPos x (passStart l s) := by
    have still : (passStart l s).running = true := by
      rw [State.running, power]
      exact on
    rw [scrubbedOn, if_pos still, passStart_next, next]
  refine ⟨_, scrubRow_clean k [] on mode clean here high, ?_, ?_⟩
  · have start : moves [.ecc] s (passStart l s) := moves_ite with_ecc_moves moves_rfl
    exact alike_of_moves (settle_moves.after rfl <| (scrubbedOn_spec l _).1.after rfl <| start.within rfl :
      moves [.regs, .ctrs, .hdrs, .out, .free, .power, .nvs, .links, .buf, .mac, .tsu, .chk, .seqs, .act, .btx, .psw, .omciUpQ, .log, .ecc]
        s _) rfl
  · refine (settled_settle.rp (p := pEcc) (off := 0x104)).trans ?_
    show (scrubbedOn l (passStart l s)).rp pEcc 0x104 = _
    rw [moved]
    exact State.rd_wr_same _ _ _

/-- A row with one bit in error (R491, R501, R502). -/
theorem scrubRow_corrects {l : MemLoc} {n : Nat × Nat × Nat} (k w : Nat) {b : Nat} (on : s.running = true)
    (mode : s.flag (regAddr pEcc 0x100) 8 = true) (clean : memClean s = true) (here : scrubHere s = some l) (high : 0x40 ≤ l.mem)
    (shape : memShape l.mem = some n) (small : b < 72) :
    After (exec (.scrubRow k [⟨w, [b]⟩]) s) fun t =>
        alike [.pending, .snaps, .last, .clock, .dram, .masters, .mbx, .lfr] s t ∧ (l.mem ≠ 0x69 → t.keys = s.keys) ∧ intRawBit t pEcc 0 = true ∧
        t.ctr (regAddr pEcc 0x200) = (s.ctr (regAddr pEcc 0x200) + 1) % 2 ^ 40 ∧ t.ecc.poison = [] ∧
        t.ecc.ces = s.ecc.ces ++ [({ l with word := w % n.2.2 }, s.clock)] ∧
        (s.ecc.tests = [] → t.ecc.tests = [{ l with word := w % n.2.2 }]) := by
  obtain ⟨-, none, -⟩ := memClean_iff.mp clean
  obtain ⟨poison, ces, tests⟩ := passStart_ecc l s
  have found : [RowErr.mk w [b]].foldl (fun s e => scrubErr (k % 16) l e s) (passStart l s) =
      foundCe { l with word := w % n.2.2 } b (passStart l s) := scrubErr_one (slice := k % 16) (poison.trans none) shape small
  let u := foundCe { l with word := w % n.2.2 } b (passStart l s)
  obtain ⟨count, told, poison', ces', tests', keys⟩ := foundCe_spec { l with word := w % n.2.2 } b (passStart l s)
  obtain ⟨moved, more, poison'', ces'', tests''⟩ := scrubbedOn_spec l u
  have start := passStart_keeps l s
  have after : moves [.regs, .ctrs, .hdrs, .out, .free, .power, .nvs, .links, .buf, .mac, .tsu, .chk, .seqs, .act, .btx, .psw, .omciUpQ]
    (scrubbedOn l u) (settle s (scrubbedOn l u)) := settle_moves
  have ecc : (settle s (scrubbedOn l u)).ecc = (scrubbedOn l u).ecc := after.1 .ecc (by decide)
  refine ⟨settle s (scrubbedOn l u), by rw [scrubRow_clean k _ on mode clean here high, found], ?_, fun other => ?_, ?_, ?_, ?_, ?_, fun free => ?_⟩
  · have start : moves [.ecc] s (passStart l s) := moves_ite with_ecc_moves moves_rfl
    exact alike_of_moves (settle_moves.after rfl <| moved.after rfl <| foundCe_moves.after rfl <| start.within rfl :
      moves [.regs, .ctrs, .hdrs, .out, .free, .power, .nvs, .links, .buf, .mac, .tsu, .chk, .seqs, .act, .btx, .psw, .omciUpQ, .log, .ecc, .keys]
        s _) rfl
  · exact (after.1 .keys (by decide)).trans <| (moved.1 .keys (by decide)).trans <| (keys other).trans (start .keys (by decide))
  · exact settled_settle.intRaw (more _ _ told)
  · refine (settled_settle.ctrs _ (by decide)).trans <| (ctr_of_keeps moved.1 (by decide) _).trans (count.trans ?_)
    rw [ctr_of_keeps start (by decide)]
  · rw [ecc, poison'', poison', poison, none]
  · rw [ecc, ces'', ces', ces, start .clock (by decide)]
  · rw [ecc, tests'']
    exact tests' (tests.trans free)

/-! ### The tests of rows (R502 to R504) -/

/-- The oldest row self-test has ended with a result. -/
def rowTested (l : MemLoc) (rest : List MemLoc) (st : TestStatus) (s : State) : State :=
  let p := memPage l.mem l.bank
  let s := setTest p st true (testUnitOf l) l.row { s with ecc := { s.ecc with tests := rest } }
  addLog .selftest p 0 0 (testWord (s.hdr p)) s

theorem rowTested_spec (l : MemLoc) (rest : List MemLoc) (st : TestStatus) (s : State) :
    keeps [.ecc, .hdrs, .regs, .log, .nvs] s (rowTested l rest st s) ∧ (rowTested l rest st s).ecc = { s.ecc with tests := rest } ∧
      keepsRegs logRegs s (rowTested l rest st s) ∧ ((rowTested l rest st s).hdr (memPage l.mem l.bank)).testStatus = st := by
  let u := setTest (memPage l.mem l.bank) st true (testUnitOf l) l.row { s with ecc := { s.ecc with tests := rest } }
  have tested : keeps [.hdrs] { s with ecc := { s.ecc with tests := rest } } u := setTest_moves.1
  have before : keeps [.ecc, .hdrs] s u := keeps_mono (keeps_trans with_ecc_moves.1 tested) (by decide)
  obtain ⟨parts, regs⟩ := addLog_spec .selftest (memPage l.mem l.bank) 0 0 (testWord (u.hdr (memPage l.mem l.bank))) u
  refine ⟨keeps_mono (keeps_trans before parts) (by decide), (parts .ecc (by decide)).trans (tested .ecc (by decide)), regs, ?_⟩
  rw [show (rowTested l rest st s).hdr (memPage l.mem l.bank) = u.hdr (memPage l.mem l.bank) from
    keepsHdrs_of_keeps parts (by decide) _ List.not_mem_nil]
  exact congrArg Hdr.testStatus (State.hdr_setHdr_same _ _ _)

theorem repeated_tested (l : MemLoc) (rest : List MemLoc) (st : TestStatus) (s : State) : repeated l (rowTested l rest st s) = repeated l s := by
  obtain ⟨parts, ecc, regs, -⟩ := rowTested_spec l rest st s
  have word : (rowTested l rest st s).rp pEcc 0x110 = s.rp pEcc 0x110 := regs _ (by decide)
  have clock : (rowTested l rest st s).clock = s.clock := parts .clock (by decide)
  simp only [repeated, word, clock, ecc]

theorem targetedTest_passes {l : MemLoc} {rest : List MemLoc} (on : s.running = true) (first : s.ecc.tests = l :: rest)
    (once : repeated l s = false) : exec (.targetedSelftestDone true) s = .next (rowTested l rest .pass s) := by
  have still := (repeated_tested l rest .pass s).trans once
  simp only [exec, execTargetedSelftestDone, whenOn_running on, first]
  exact if_neg (by
    change ¬ ((!true || repeated l (rowTested l rest .pass s)) = true)
    rw [still]
    decide)

theorem targetedTest_fails {l : MemLoc} {rest : List MemLoc} (on : s.running = true) (first : s.ecc.tests = l :: rest) :
    let u := eccCount 7 1 (rowTested l rest .fail s)
    exec (.targetedSelftestDone false) s = .next (settle u (remapRow l u)) := by
  simp only [exec, execTargetedSelftestDone, whenOn_running on, first]
  exact if_pos rfl

/-- A lasting row moves to the next spare of its bank (R504). -/
theorem remapRow_spec {l : MemLoc} (left : tblGet 0 (bankKey l) s.ecc.spares + tblGet 0 (bankKey l) s.ecc.failed < 8) :
    let t := remapRow l s
    t.ecc.tests = s.ecc.tests ∧ tblGet 0 (bankKey l) t.ecc.spares = tblGet 0 (bankKey l) s.ecc.spares + 1 ∧
      NvItem.spares l.mem l.bank ∈ t.nvs.pend ∧ intRawBit t pEcc 2 = true := by
  let used := tblGet 0 (bankKey l) s.ecc.spares
  let u : State := { s with ecc := { s.ecc with
    spares := tblSet 0 (bankKey l) (used + 1) s.ecc.spares, ces := s.ecc.ces.filter (fun x => !sameRow x.1 l) } }
  let v := raise pEcc 2 (eccCount 5 1 (recordFault (memPage l.mem l.bank) 0x0105 (locWord l (used + tblGet 0 (bankKey l) s.ecc.failed))
    (word (used + 1)) u))
  have here : remapRow l s = nvQueue (.spares l.mem l.bank) v := if_neg (Nat.not_le.mpr left)
  have ecc : (nvQueue (.spares l.mem l.bank) v).ecc = u.ecc :=
    (nvQueue_moves.after rfl <| raise_moves.after rfl <| eccCount_moves.after rfl <| recordFault_moves.within rfl :
      moves [.regs, .ctrs, .hdrs, .nvs, .links, .log] u _).1 .ecc (by decide)
  intro t
  rw [show t = _ from here, ecc]
  exact ⟨rfl, tblGet_tblSet_same 0 (used + 1) (bankKey l) s.ecc.spares, nvQueue_pend _,
    (intRawBit_of_keeps nvQueue_moves.1 (by decide) _ _).trans (raise_intRaw _ _ _ (by decide))⟩

/-! ### The MEM block (R548, R549) -/

theorem fld_wp_word (s : State) (p off n : Nat) {lo w : Nat} (fits : lo + w ≤ 32) :
    (s.wp p off (word n)).fld (regAddr p off) lo w = n / 2 ^ lo % 2 ^ w := by
  unfold State.fld State.wp
  rw [State.rd_wr_same]
  exact bits_word fits n

theorem fld_raise (s : State) (p i a lo w : Nat) : (raise p i s).fld a lo w = s.fld a lo w := by
  unfold State.fld
  rw [raise_rd]

theorem fld_wp_other (s : State) {p off a : Nat} (ne : a ≠ regAddr p off) (v : Word) (lo w : Nat) :
    (s.wp p off v).fld a lo w = s.fld a lo w := fld_congr (State.rd_wr_other s ne v) lo w

theorem b2n_le (b : Bool) : b2n b ≤ 1 := by cases b <;> decide

/-- Training ends (R548). -/
theorem trainComplete_done (r n ms : Nat) (two : Bool) (on : s.running = true) (untrained : s.fld (regAddr pMem 0x100) 0 2 < 2) (fits : n ≤ 4096) :
    After (exec (.trainComplete (.done r n two ms)) s) fun t =>
        t.fld (regAddr pMem 0x100) 0 2 = 2 ∧ t.fld (regAddr pMem 0x100) 8 3 = r % 8 ∧ t.memSize = n * 2 ^ 20 ∧ intRawBit t pMem 0 = true ∧
        keepsRegs [regAddr pMem 0x100, regAddr pMem 0x104, regAddr pMem 0x118] s t ∧ keepsHdrs [pMem] s t ∧
        keeps [.regs, .hdrs, .links] s t := by
  let x := 2 + b2n two * 16 + r % 8 * 256
  let u := ((s.wp pMem 0x100 (word x)).wp pMem 0x118 (word (ms % 65536))).wp pMem 0x104 (word n)
  have whole : (if 4096 < n then 4096 else n) = n := if_neg (Nat.not_lt.mpr fits)
  have rank := b2n_le two
  have status (lo w : Nat) (h : lo + w ≤ 32) : (raise pMem 0 u).fld (regAddr pMem 0x100) lo w = x / 2 ^ lo % 2 ^ w :=
    (fld_raise _ _ _ _ _ _).trans <| (fld_wp_other _ (by decide) _ _ _).trans <| (fld_wp_other _ (by decide) _ _ _).trans (fld_wp_word s _ _ _ h)
  have size : (raise pMem 0 u).fld (regAddr pMem 0x104) 0 13 = n / 2 ^ 0 % 2 ^ 13 :=
    (fld_raise _ _ _ _ _ _).trans (fld_wp_word _ _ _ _ (by decide))
  refine after_running on (t := raise pMem 0 u) ?_ ⟨?_, ?_, ?_, raise_intRaw _ _ _ (by decide), ?_, raise_keepsHdrs _ _ u, ?_⟩
  · simp only [exec, execTrainComplete, if_neg (Nat.not_le.mpr untrained), whole]
    rfl
  · rw [status 0 2 (by decide)]
    omega
  · rw [status 8 3 (by decide)]
    omega
  · rw [State.memSize, size]
    omega
  · intro a ha
    simp only [List.mem_cons, List.not_mem_nil, or_false, not_or] at ha
    obtain ⟨status, size, time⟩ := ha
    exact (raise_rd _ _ u a).trans <| (State.rd_wr_other _ size _).trans <| (State.rd_wr_other _ time _).trans (State.rd_wr_other _ status _)
  · exact (raise_moves.after rfl <| wp_moves.after rfl <| wp_moves.after rfl <| wp_moves.within rfl : moves [.regs, .hdrs, .links] s (raise pMem 0 u)).1

/-- Training fails (R549). -/
theorem trainComplete_fail (step ms : Nat) (on : s.running = true) (untrained : s.fld (regAddr pMem 0x100) 0 2 < 2) :
    After (exec (.trainComplete (.fail step ms)) s) fun t => t.fld (regAddr pMem 0x100) 0 2 = 3 ∧
        t.fld (regAddr pMem 0x100) 16 4 = step % 16 ∧ intRawBit t pMem 1 = true ∧
        keepsRegs [regAddr pMem 0x100, regAddr pMem 0x118] s t ∧ keepsHdrs [pMem] s t ∧ keeps [.regs, .hdrs, .links] s t := by
  let x := 3 + step % 16 * 65536
  let u := (s.wp pMem 0x100 (word x)).wp pMem 0x118 (word (ms % 65536))
  have status (lo w : Nat) (h : lo + w ≤ 32) : (raise pMem 1 u).fld (regAddr pMem 0x100) lo w = x / 2 ^ lo % 2 ^ w :=
    (fld_raise _ _ _ _ _ _).trans <| (fld_wp_other _ (by decide) _ _ _).trans (fld_wp_word s _ _ _ h)
  refine after_running on (t := raise pMem 1 u) ?_ ⟨?_, ?_, raise_intRaw _ _ _ (by decide), ?_, raise_keepsHdrs _ _ u, ?_⟩
  · simp only [exec, execTrainComplete, if_neg (Nat.not_le.mpr untrained)]
    rfl
  · rw [status 0 2 (by decide)]
    omega
  · rw [status 16 4 (by decide)]
    omega
  · intro a ha
    simp only [List.mem_cons, List.not_mem_nil, or_false, not_or] at ha
    obtain ⟨status, time⟩ := ha
    exact (raise_rd _ _ u a).trans <| (State.rd_wr_other _ time _).trans (State.rd_wr_other _ status _)
  · exact (raise_moves.after rfl <| wp_moves.after rfl <| wp_moves.within rfl : moves [.regs, .hdrs, .links] s (raise pMem 1 u)).1

/-- An accepted RETRAIN (R549). -/
theorem retrain_starts {m : AB} (on : s.running = true) (ok : admits m pMem 0x10C retrainHandler (field 0 1 1) s = true) :
    After (exec (.retrain m) s) fun t => t.last = .done ∧
      s.fld (regAddr pMem 0x100) 0 2 = 3 ∧ t.fld (regAddr pMem 0x100) 0 2 = 1 ∧
      keepsRegs [regAddr pMem 0x100, regAddr pPrs 0x110] s t ∧ keeps [.regs, .last] s t := by
  obtain ⟨u, used, regs, wrote⟩ := writeReg_used ok
  have open_ : (bit (field 0 1 1) 0 && s.fld (regAddr pMem 0x100) 0 2 != 3) = false := range_of_admits ok
  have failed : s.fld (regAddr pMem 0x100) 0 2 = 3 := by
    rw [show bit (field 0 1 1) 0 = true from rfl, Bool.true_and] at open_
    exact of_not_not fun h => by simp [h] at open_
  have row : exec (.retrain m) s = whenOn s (.next (ended .ok 0 .none (startTraining u))) := by
    simp only [exec, execRetrain, wrote]
    rfl
  refine after_running on row ⟨rfl, failed, ?_, fun a ha => ?_, ?_⟩
  · exact (fld_wp_word u pMem 0x100 1 (lo := 0) (w := 2) (by decide)).trans (by decide)
  · simp only [List.mem_cons, List.not_mem_nil, or_false, not_or] at ha
    exact (State.rd_wr_other u ha.1 (word 1)).trans (regs a (by simpa using ha.2))
  · exact (ended_moves.after rfl <| wp_moves.after rfl <| used.within rfl : moves [.regs, .last] s (ended .ok 0 .none (startTraining u))).1

/-- An arm that names no memory, that would flip no bit, or that comes while a flip is armed is refused (R510). -/
theorem flipMemHandler_refuses (m : AB) {v : Word} (arms : bit v 16 = true)
    (free : flipScope (bits v 0 8) = .none ∨ flipBits s = [] ∨ noFlip s = false) : flipMemHandler.range m v s = true := by
  have unfolded : flipMemHandler.range m v s = (bit v 16 && (flipScope (bits v 0 8) == .none || (flipBits s).isEmpty ||
    s.flag (regAddr pEcc 0x120) 16 || (flipScope (bits v 0 8) == .slice && !s.ownsSlice m (bits v 8 4)))) := rfl
  rw [unfolded, arms]
  rcases free with scope | none | armed
  · rw [scope]
    rfl
  · rw [none]
    simp
  · have flag : s.flag (regAddr pEcc 0x120) 16 = true := by simpa [noFlip, State.flag, State.rp] using armed
    rw [flag]
    simp

/-- Settles O59, by the scrubber's rows, the tests of rows and the handlers of the flips and of the MEM block. -/
theorem memoryIsScrubbed : Obligations.MemoryIsScrubbed := by
  unfold Obligations.MemoryIsScrubbed
  intro s on
  refine ⟨fun k l mode clean here high _ => ⟨fun x next => scrubRow_moves_on k on mode clean here high next,
    fun b w n shape small => scrubRow_corrects k w on mode clean here high shape small⟩, fun l rest first => ⟨fun once => ?_, fun _ left => ?_⟩,
    fun m v ok => ?_, fun m v arms free => ?_, fun untrained => ⟨fun r n two ms fits => ?_, fun step ms => ?_⟩, fun m ok => ?_⟩
  · obtain ⟨parts, ecc, -, passed⟩ := rowTested_spec l rest .pass s
    refine ⟨_, targetedTest_passes on first once, fun p hp => parts p ?_, ecc, passed⟩
    revert p
    decide
  · let u := eccCount 7 1 (rowTested l rest .fail s)
    obtain ⟨parts, tests, -, -⟩ := rowTested_spec l rest .fail s
    have ecc : u.ecc = { s.ecc with tests := rest } := (part_of_moves .ecc eccCount_moves rfl : u.ecc = _).trans tests
    obtain ⟨rest', spare, pend, told⟩ := remapRow_spec (s := u) (l := l) (by rw [ecc]; exact left)
    have done : After (exec (.targetedSelftestDone false) s) fun t => t.ecc.tests = rest ∧
        tblGet 0 (bankKey l) t.ecc.spares = tblGet 0 (bankKey l) s.ecc.spares + 1 ∧ NvItem.spares l.mem l.bank ∈ t.nvs.pend ∧
        intRawBit t pEcc 2 = true := by
      have later : (settle u (remapRow l u)).ecc = (remapRow l u).ecc := part_of_moves .ecc settle_moves rfl
      have settled : Settled true (remapRow l u) (settle u (remapRow l u)) := settled_settle
      refine ⟨_, targetedTest_fails on first, ?_, ?_, ?_, settled.intRaw told⟩
      · rw [later, rest', ecc]
      · rw [later, spare, ecc]
      · rw [settled.store]
        exact pend
    obtain ⟨t, next, kept, tests, spare, pend, told⟩ := after_goes execTargetedSelftestDone_moves done
    refine ⟨t, next, fun p hp => kept p ?_, tests, spare, pend, told⟩
    revert p
    decide
  · exact after_running on rfl (writeReg_stores ok rfl (by decide))
  · exact flipMemHandler_refuses m arms free
  · exact trainComplete_done r n ms two on untrained fits
  · exact trainComplete_fail step ms on untrained
  · exact retrain_starts on ok

end Sys2Proof.Machine

/-!
PROOFS. Client ports (O50): the checks of received frames, pauses, LINK, transmission and timestamps.
-/

namespace Sys2Proof.Machine

variable {s t u : State} {n : Nat}

/-! ### The counters of a port (Table 12-2) -/

/-- Some of the listed counters of a port count, and nothing else happens but their half-range marks and interrupts. -/
structure MacCounts (n : Nat) (l : List Nat) (s t : State) : Prop where
  parts : keeps [.ctrs, .regs, .hdrs, .links] s t
  regs : keepsRegs [regAddr (pMac n) 0x180, regAddr (pMac n) 0x184, regAddr (pMac n) 0x188] s t
  ctrs : ∀ a, (∀ i ∈ l, a ≠ regAddr (pMac n) (0x200 + 8 * i)) → t.ctr a = s.ctr a
  states : ∀ p, t.pstate p = s.pstate p

theorem MacCounts.after {l m : List Nat} (step : MacCounts n m t u) (h : MacCounts n l s t) : MacCounts n (m ++ l) s u where
  parts := keeps_mono (keeps_trans h.parts step.parts) (by decide)
  regs := keepsRegs_mono (keepsRegs_trans h.regs step.regs) (by simp)
  ctrs a apart := (step.ctrs a fun i hi => apart i (List.mem_append_left l hi)).trans (h.ctrs a fun i hi => apart i (List.mem_append_right m hi))
  states p := (step.states p).trans (h.states p)

theorem MacCounts.refl : MacCounts n [] s s := ⟨keeps_refl _ _, keepsRegs_refl _ _, fun _ _ => rfl, fun _ => rfl⟩

theorem MacCounts.mono {l m : List Nat} (h : MacCounts n l s t) (sub : ∀ i ∈ l, i ∈ m) : MacCounts n m s t :=
  ⟨h.parts, h.regs, fun a apart => h.ctrs a fun i hi => apart i (sub i hi), h.states⟩

theorem macCounts_ite {l : List Nat} {c : Prop} [Decidable c] {a b : State} (ha : MacCounts n l s a) (hb : MacCounts n l s b) :
    MacCounts n l s (if c then a else b) := ite_all ha hb

theorem macCount_counts {i : Nat} (few : i < 96) (k : Nat) : MacCounts n [i] s (macCount n i k s) := by
  obtain ⟨-, regs, -, parts⟩ := countAt_spec (pMac n) 0x200 0x180 2 (if i = 0 ∨ i = 1 ∨ i = 32 then 48 else 40) i k s
  refine ⟨parts, keepsRegs_mono regs ?_, fun a apart => countWide_ctr_other (apart i List.mem_cons_self) _ _ _ _ s, countAt_pstate _ _ _ _ _ _ _ s⟩
  have word : i / 32 = 0 ∨ i / 32 = 1 ∨ i / 32 = 2 := by omega
  rcases word with word | word | word <;> simp [word]

/-- The counter itself. -/
theorem macCount_same (n i k : Nat) (s : State) : (macCount n i k s).ctr (regAddr (pMac n) (0x200 + 8 * i)) =
    (s.ctr (regAddr (pMac n) (0x200 + 8 * i)) + k) % 2 ^ (if i = 0 ∨ i = 1 ∨ i = 32 then 48 else 40) := countWide_ctr _ _ _ _ _ _

theorem castOf_lt (l : List Byte) : castOf l < 3 := by
  unfold castOf
  split
  · decide
  · split <;> decide

theorem sizeBucket_lt (len : Nat) : sizeBucket len < 9 := by
  unfold sizeBucket
  repeat' split
  all_goals decide

theorem countGood_counts (l : List Byte) : MacCounts n (List.range 19) s (countGood n l s) := by
  have cast := castOf_lt l
  have size := sizeBucket_lt (l.length + 4)
  have tagged (v : State) : MacCounts n [6] v (if isTagged l then macCount n 6 1 v else v) :=
    macCounts_ite (macCount_counts (by decide) 1) (MacCounts.refl.mono (by simp))
  refine ((macCount_counts (by omega) 1).after <| (tagged _).after <| (macCount_counts (by omega) 1).after <|
    (macCount_counts (by decide) 1).after <| macCount_counts (by decide) _).mono ?_
  simp only [List.mem_append, List.mem_cons, List.not_mem_nil, or_false, List.mem_range]
  omega

/-- Registers of a port outside its half-range marks, and of every other page. -/
theorem MacCounts.rp {l : List Nat} {p off : Nat} (h : MacCounts n l s t) (here : off < 0x1000) (apart : p ≠ pMac n ∨ off < 0x180 ∨ 0x18C ≤ off) :
    t.rp p off = s.rp p off := by
  refine h.regs _ ?_
  simp only [List.mem_cons, List.not_mem_nil, or_false, regAddr_eq_iff here (show 0x180 < 0x1000 by decide),
    regAddr_eq_iff here (show 0x184 < 0x1000 by decide), regAddr_eq_iff here (show 0x188 < 0x1000 by decide)]
  omega

theorem slicePage_ne (hn : n < 8) (k j : Nat) : pSlice k j ≠ pMac n := by
  unfold pSlice pMac
  omega

theorem MacCounts.portSlice {l : List Nat} (hn : n < 8) (h : MacCounts n l s t) (m : Nat) : t.portSlice m = s.portSlice m := by
  have slice (k : Nat) : t.slc k 0x108 = s.slc k 0x108 := h.rp (by decide) (.inl (slicePage_ne hn k 0))
  simp only [State.portSlice, State.holders, slice]

theorem MacCounts.noFlip {l : List Nat} (hn : n < 8) (h : MacCounts n l s t) : noFlip t = noFlip s := by
  have word : t.rp pEcc 0x120 = s.rp pEcc 0x120 := h.rp (by decide) (.inl (by unfold pEcc pMac; omega))
  simp only [Machine.noFlip, word]

theorem MacCounts.port {l : List Nat} (h : MacCounts n l s t) (m : Nat) : t.port m = s.port m := by
  have mac : t.mac = s.mac := h.parts .mac (by decide)
  rw [State.port, State.port, mac]

/-! ### Received frames (R347 to R350) -/

/-- The checks read the page size and the pause mode of the port. -/
theorem macRefused_congr (f : ClientFrame) (mode : t.rp (pMac n) 0x10C = s.rp (pMac n) 0x10C) (size : t.rp (pMac n) 0x108 = s.rp (pMac n) 0x108) :
    macRefused n f t = macRefused n f s := by
  have mode' : t.fld (regAddr (pMac n) 0x10C) 0 2 = s.fld (regAddr (pMac n) 0x10C) 0 2 := fld_congr mode 0 2
  have size' : t.fld (regAddr (pMac n) 0x108) 0 14 = s.fld (regAddr (pMac n) 0x108) 0 14 := fld_congr size 0 14
  simp only [macRefused, mode', size']

theorem macRefused_index {f : ClientFrame} {r : Reason} {i : Nat} (refused : macRefused n f s = some (r, i)) : 9 ≤ i ∧ i ≤ 24 := by
  unfold macRefused at refused
  dsimp only at refused
  repeat' split at refused
  all_goals simp only [Option.some.injEq, Prod.mk.injEq, reduceCtorEq] at refused
  all_goals omega

/-- The octets of a received frame are counted first. -/
def macHeard (n : Nat) (f : ClientFrame) (s : State) : State := macCount n 1 (f.bytes.length + 4) s

theorem macHeard_counts (f : ClientFrame) : MacCounts n [1] s (macHeard n f s) := macCount_counts (by decide) _

theorem macRefused_heard (f : ClientFrame) : macRefused n f (macHeard n f s) = macRefused n f s :=
  macRefused_congr f ((macHeard_counts f).rp (by decide) (.inr (.inl (by decide)))) ((macHeard_counts f).rp (by decide) (.inr (.inl (by decide))))

/-- A frame that a check refuses (R348). -/
theorem exec_clientRefused {f : ClientFrame} {r : Reason} {i k : Nat} (on : s.running = true) (hn : n < 8)
    (mode : s.fld (regAddr (pMac n) 0x100) 0 2 ≠ 0) (room : f.fifoFull = false) (refused : macRefused n f s = some (r, i))
    (slice : s.portSlice n = some k) :
    exec (.clientFrameReceive n f) s = .next (dropAt r k n none 0 (macCount n i 1 (macHeard n f s))) := by
  have few := macRefused_index refused
  have counts : MacCounts n [i, 1] s (macCount n i 1 (macHeard n f s)) := (macCount_counts (by omega) 1).after (macHeard_counts f)
  have refused' := (macRefused_heard f).trans refused
  have slice' := (counts.portSlice hn n).trans slice
  simp only [exec, execClientFrameReceive, whenOn_running on, Nat.mod_eq_of_lt hn, mode, room, Bool.false_eq_true, if_false]
  change (match macRefused n f (macHeard n f s) with
    | some (r, c) => Host.Outcome.next (dropPort r n (macCount n c 1 (macHeard n f s)))
    | none => _) = _
  rw [refused']
  dsimp only [dropPort]
  rw [slice']

/-- A discard counts in no other counter than its own. -/
theorem dropAt_ctr_other {a : Nat} {r : Reason} {k q d : Nat} {p : Option Pkt} (apart : a ≠ censusAddr k r.code q) (s : State) :
    (dropAt r k q p d s).ctr a = s.ctr a := by
  unfold dropAt
  dsimp only
  exact (ctr_of_keeps (skimSample_spec _ _ _ _ _ _).1 (by decide) a).trans (countWide_ctr_other apart _ _ _ _ s)

theorem clientRefused_spec {f : ClientFrame} {r : Reason} {i k : Nat} (on : s.running = true) (hn : n < 8)
    (mode : s.fld (regAddr (pMac n) 0x100) 0 2 ≠ 0) (room : f.fifoFull = false) (refused : macRefused n f s = some (r, i))
    (slice : s.portSlice n = some k) : After (exec (.clientFrameReceive n f) s) fun t =>
      keeps [.regs, .ctrs, .hdrs, .cls, .buf, .mac, .links] s t ∧ counted r k n s t ∧ t.cls = s.cls ∧ t.mac = s.mac ∧
        t.ctr (regAddr (pMac n) (0x200 + 8 * i)) = (s.ctr (regAddr (pMac n) (0x200 + 8 * i)) + 1) % 2 ^ 40 := by
  obtain ⟨least, most⟩ := macRefused_index refused
  let u := macCount n i 1 (macHeard n f s)
  have counts : MacCounts n [i, 1] s u := (macCount_counts (by omega) 1).after (macHeard_counts f)
  obtain ⟨count, -, -, parts⟩ := dropAt_spec r k n none 0 u
  have kept := keeps_trans counts.parts parts
  refine ⟨_, exec_clientRefused on hn mode room refused slice, keeps_mono kept (by decide), ?_, kept .cls (by decide), kept .mac (by decide), ?_⟩
  · have census : u.ctr (censusAddr k r.code n) = s.ctr (censusAddr k r.code n) := counts.ctrs _ fun j hj => by
      simp only [List.mem_cons, List.not_mem_nil, or_false] at hj
      unfold censusAddr regAddr pSlice pMac
      split <;> omega
    exact Eq.trans count (by rw [census])
  · have apart : regAddr (pMac n) (0x200 + 8 * i) ≠ censusAddr k r.code n := by
      unfold censusAddr regAddr pSlice pMac
      split <;> omega
    have one := macCount_same n i 1 (macHeard n f s)
    rw [if_neg (by omega), (macHeard_counts f).ctrs _ fun j hj => by simp only [List.mem_singleton] at hj; unfold regAddr; omega] at one
    exact (dropAt_ctr_other apart u).trans one

/-- The state in which a good frame has been counted. -/
def macGood (n : Nat) (f : ClientFrame) (s : State) : State := countGood n f.bytes (macHeard n f s)

theorem macGood_counts (f : ClientFrame) : MacCounts n (List.range 19) s (macGood n f s) :=
  ((countGood_counts f.bytes).after (macHeard_counts f)).mono fun i hi => by
    simp only [List.mem_append, List.mem_range, List.mem_singleton] at hi ⊢
    omega

/-- What becomes of a good frame that has been counted. -/
def goodFrame (n : Nat) (f : ClientFrame) (s : State) : Result State :=
  match s.portSlice n with
  | none => .next (dropUnowned .noSlice (macCount n 26 1 s))
  | some k =>
    if beAt f.bytes 12 2 = 0x8808 then .next (rxPause n f.bytes s)
    else if s.sliceState k ≠ .active then .next (dropSrc .sliceDown (backdate n s (mkPkt n k f.bytes s)) 0 (macCount n 26 1 s))
    else if s.pstate (pMac n) ≠ .active then .next (dropSrc .portDown (backdate n s (mkPkt n k f.bytes s)) 0 (macCount n 26 1 s))
    else
      let t := transit (0x84 + n) s
      .next (ingress n k f.bytes (fun p => { backdate n s p with cell := if t.1 then .poisoned ⟨0x84 + n, 0, 0, 0⟩ else .clean }) t.2)

theorem exec_clientGood {f : ClientFrame} (on : s.running = true) (hn : n < 8) (mode : s.fld (regAddr (pMac n) 0x100) 0 2 ≠ 0)
    (room : f.fifoFull = false) (good : macRefused n f s = none) : exec (.clientFrameReceive n f) s = goodFrame n f (macGood n f s) := by
  have good' := (macRefused_heard f).trans good
  simp only [exec, execClientFrameReceive, whenOn_running on, Nat.mod_eq_of_lt hn, mode, room, Bool.false_eq_true, if_false]
  change (match macRefused n f (macHeard n f s) with
    | some (r, c) => Host.Outcome.next (dropPort r n (macCount n c 1 (macHeard n f s)))
    | none => _) = _
  rw [good']
  rfl

/-- A good frame of a port that no slice holds (R349). -/
theorem clientGood_unowned {f : ClientFrame} (on : s.running = true) (hn : n < 8) (mode : s.fld (regAddr (pMac n) 0x100) 0 2 ≠ 0)
    (room : f.fifoFull = false) (good : macRefused n f s = none) (slice : s.portSlice n = none) :
    After (exec (.clientFrameReceive n f) s) fun t =>
      keeps [.regs, .ctrs, .hdrs, .links] s t ∧ t.ctr (unownedAddr 0x01) = (s.ctr (unownedAddr 0x01) + 1) % 2 ^ 40 := by
  let u := macCount n 26 1 (macGood n f s)
  have counts : MacCounts n (26 :: List.range 19) s u := (macCount_counts (by decide) 1).after (macGood_counts f)
  have slice' := ((macGood_counts f).portSlice hn n).trans slice
  obtain ⟨count, -, -⟩ := dropUnowned_spec .noSlice u
  refine ⟨dropUnowned .noSlice u, ?_, keeps_mono (keeps_trans counts.parts dropUnowned_moves.1) (by decide), count.trans ?_⟩
  · rw [exec_clientGood on hn mode room good]
    simp only [goodFrame, slice']
    rfl
  · have other : u.ctr (unownedAddr 1) = s.ctr (unownedAddr 1) := counts.ctrs _ fun i hi => by
      simp only [List.mem_cons, List.mem_range] at hi
      change 0x54400 + 8 * 1 ≠ (0x30 + n) * 0x1000 + (0x200 + 8 * i)
      omega
    exact congrArg (fun x => (x + 1) % 2 ^ 40) other

/-- A good frame goes to classification (R350). -/
theorem clientGood_dispatched {f : ClientFrame} {k : Nat} (on : s.running = true) (hn : n < 8) (mode : s.fld (regAddr (pMac n) 0x100) 0 2 ≠ 0)
    (room : f.fifoFull = false) (good : macRefused n f s = none) (whole : noFlip s = true) (data : beAt f.bytes 12 2 ≠ 0x8808)
    (slice : s.portSlice n = some k) (active : s.sliceState k = .active) (up : s.pstate (pMac n) = .active) (attached : s.mode.code ≠ 1)
    (free : s.cls.waiting = []) (lanes : lanesIn s ≠ []) : After (exec (.clientFrameReceive n f) s) fun t =>
      keeps [.regs, .ctrs, .hdrs, .cls, .links] s t ∧ ∃ p, p.bytes = f.bytes ∧ p.slice = k ∧ p.src = n ∧ p.cell = .clean ∧ t.cls = dispatched p s := by
  let u := macGood n f s
  have counts : MacCounts n (List.range 19) s u := macGood_counts f
  let p : Pkt := { backdate n u (mkPkt n k f.bytes u) with cell := .clean }
  have cls : u.cls = s.cls := counts.parts .cls (by decide)
  have power : u.power = s.power := counts.parts .power (by decide)
  have state : u.sliceState k = .active := (counts.states _).trans active
  have mode' : u.mode.code ≠ 1 := by
    rw [State.mode, power]
    exact attached
  have run : exec (.clientFrameReceive n f) s = .next (dispatch p u) := by
    have still : noFlip u = true := (counts.noFlip hn).trans whole
    have up' : u.pstate (pMac n) = .active := (counts.states _).trans up
    have slice' : u.portSlice n = some k := (counts.portSlice hn n).trans slice
    rw [exec_clientGood on hn mode room good]
    change goodFrame n f u = _
    simp only [goodFrame, slice', data, if_false, state, up', ne_eq, not_true_eq_false, transit_of_noFlip _ still, ingress, mode', false_and, and_false,
      Bool.false_eq_true]
    rfl
  have lanes' : lanesIn u ≠ [] := by
    have same : lanesIn u = lanesIn s := by
      simp only [lanesIn, laneIn, State.lane, cls]
    rw [same]
    exact lanes
  obtain ⟨placed, parts⟩ := dispatch_eq (p := p) (s := u) (by rw [cls]; exact free) lanes'
  exact ⟨_, run, keeps_mono (keeps_trans counts.parts parts) (by decide), p, rfl, rfl, rfl, rfl, placed.trans (dispatched_congr cls p)⟩

/-! ### Pauses (R353 to R355) -/

/-- What a pause of one priority leaves (R353). -/
theorem applyPause_spec {pri : Nat} (few : pri < 9) (q : Nat) (s : State) :
    let t := applyPause n pri q s
    tblGet 0 pri (t.port n).quanta = q ∧ t.flag (regAddr (pMac n) 0x104) (if pri = 8 then 4 else 8 + pri) = decide (q ≠ 0) ∧
      keepsRegs [regAddr (pMac n) 0x104] s t ∧ keeps [.mac, .regs, .hdrs, .links] s t ∧ (q = 0 → keeps [.mac, .regs] s t) := by
  let b := if pri = 8 then 4 else 8 + pri
  have small : b < 32 := by
    unfold b
    split <;> omega
  let u := (s.setPort n { s.port n with quanta := tblSet 0 pri q (s.port n).quanta }).setFlag (regAddr (pMac n) 0x104) b (decide (q ≠ 0))
  have flag : u.flag (regAddr (pMac n) 0x104) b = decide (q ≠ 0) := flag_setFlag_same _ _ small _
  have quanta : tblGet 0 pri (u.port n).quanta = q := by
    have port : u.port n = { s.port n with quanta := tblSet 0 pri q (s.port n).quanta } := tblGet_tblSet_same _ _ _ _
    rw [port]
    exact tblGet_tblSet_same _ _ _ _
  have regs : keepsRegs [regAddr (pMac n) 0x104] s u := setFld_keepsRegs _ _ _ _ _
  have parts : keeps [.mac, .regs] s u := (setFlag_moves.after rfl <| setPort_moves.within rfl : moves [.mac, .regs] s u).1
  have run : applyPause n pri q s = if !s.flag (regAddr (pMac n) 0x104) b && decide (q ≠ 0) then raise (pMac n) 6 u else u := rfl
  intro t
  rw [show t = _ from run]
  split
  · rename_i starts
    have mac : (raise (pMac n) 6 u).mac = u.mac := (raise_keeps _ _ u) .mac (by decide)
    refine ⟨?_, (flag_congr (raise_rd _ _ u _) _).trans flag, fun a ha => (raise_rd _ _ u a).trans (regs a ha),
      keeps_mono (keeps_trans parts (raise_keeps _ _ u)) (by decide), fun none => ?_⟩
    · rw [State.port, mac]
      exact quanta
    · rw [none] at starts
      simp at starts
  · exact ⟨quanta, flag, regs, keeps_mono parts (by decide), fun _ => parts⟩

/-- A received PAUSE frame of a port that honours it (R353). -/
theorem clientGood_pause {f : ClientFrame} {k : Nat} (on : s.running = true) (hn : n < 8) (mode : s.fld (regAddr (pMac n) 0x100) 0 2 ≠ 0)
    (room : f.fifoFull = false) (good : macRefused n f s = none) (ctrl : beAt f.bytes 12 2 = 0x8808) (op : beAt f.bytes 14 2 = 1)
    (slice : s.portSlice n = some k) (honoured : s.flag (regAddr (pMac n) 0x10C) 2 = true) : After (exec (.clientFrameReceive n f) s) fun t =>
      keeps [.regs, .ctrs, .hdrs, .cls, .buf, .mac, .links] s t ∧ tblGet 0 8 (t.port n).quanta = beAt f.bytes 16 2 ∧
        t.flag (regAddr (pMac n) 0x104) 4 = decide (beAt f.bytes 16 2 ≠ 0) ∧ t.cls = s.cls := by
  let u := macCount n 7 1 (macGood n f s)
  have counts : MacCounts n (7 :: List.range 19) s u := (macCount_counts (by decide) 1).after (macGood_counts f)
  have flag : (macGood n f s).flag (regAddr (pMac n) 0x10C) 2 = true :=
    (flag_congr ((macGood_counts f).rp (by decide) (.inr (.inl (by decide)))) 2).trans honoured
  have run : exec (.clientFrameReceive n f) s = .next (applyPause n 8 (beAt f.bytes 16 2) u) := by
    have slice' := ((macGood_counts f).portSlice hn n).trans slice
    rw [exec_clientGood on hn mode room good]
    simp only [goodFrame, slice', ctrl, if_true, rxPause, op, flag]
    rfl
  obtain ⟨quanta, low, -, parts, -⟩ := applyPause_spec (n := n) (pri := 8) (by decide) (beAt f.bytes 16 2) u
  have kept := keeps_trans counts.parts parts
  exact ⟨_, run, keeps_mono kept (by decide), quanta, low, kept .cls (by decide)⟩

/-- A pause ends (R354). -/
theorem pauseExpiry_done {pri : Nat} (on : s.running = true) (hn : n < 8) (few : pri < 9) : After (exec (.pauseExpiry n pri) s) fun t =>
    tblGet 0 pri (t.port n).quanta = 0 ∧ t.flag (regAddr (pMac n) 0x104) (if pri = 8 then 4 else 8 + pri) = false ∧
      keepsRegs [regAddr (pMac n) 0x104] s t ∧ keeps [.mac, .regs] s t := by
  obtain ⟨quanta, low, regs, -, parts⟩ := applyPause_spec (n := n) few 0 s
  have run : exec (.pauseExpiry n pri) s = whenOn s (.next (applyPause n pri 0 s)) := by
    simp only [exec, execPauseExpiry, Nat.mod_eq_of_lt hn, Nat.mod_eq_of_lt few]
  exact after_running on run ⟨quanta, low, regs, parts rfl⟩

/-- XOFF is sent again while the port holds more than its limit (R355). -/
theorem xoffRefresh_sent (on : s.running = true) (hn : n < 8) (held : (s.port n).xoff.testBit 8 = true) (link : macLink n s = true)
    (sends : s.flag (regAddr (pMac n) 0x10C) 3 = true) (kind : s.fld (regAddr (pMac n) 0x10C) 0 2 = 1)
    (full : s.fld (regAddr (pMac n) 0x11C) 0 19 < heldCells n none s) : After (exec (.xoffRefresh n 8) s) fun t =>
      keeps [.ctrs, .out, .links, .hdrs, .regs] s t ∧
        t.out = Output.pause n (pauseFrame n 8 (s.fld (regAddr (pMac n) 0x10C) 16 16) s) :: s.out ∧
        t.ctr (regAddr (pMac n) 0x330) = (s.ctr (regAddr (pMac n) 0x330) + 1) % 2 ^ 40 := by
  let u := s.emit (.pause n (pauseFrame n 8 (s.fld (regAddr (pMac n) 0x10C) 16 16) s))
  have run : exec (.xoffRefresh n 8) s = whenOn s (.next (macCount n 38 1 u)) := by
    have kinds : pauseKinds n s = [8] := by
      simp only [pauseKinds, kind]
    simp only [exec, execXoffRefresh, Nat.mod_eq_of_lt hn, Nat.reduceMod, if_true, held, link, sends, kinds, full, Bool.true_and,
      List.contains_cons, BEq.rfl, Bool.true_or, decide_true]
    rfl
  have counts : MacCounts n [38] u (macCount n 38 1 u) := macCount_counts (by decide) 1
  exact after_running on run ⟨keeps_mono (keeps_trans emit_moves.1 counts.parts) (by decide), counts.parts .out (by decide), macCount_same n 38 1 u⟩

/-! ### What the pauses of a port leave -/

/-- The counters of sent pauses (Table 12-2). -/
def pauseCtr (a : Nat) : Bool := decide (0x30000 ≤ a ∧ a < 0x38000) && (a % 0x1000 == 0x330 || a % 0x1000 == 0x338 || decide (0x400 ≤ a % 0x1000))

/-- What the check of the pauses may leave: sent frames, their counters, the state of XOFF, and half-range marks. -/
structure Paused (s t : State) : Prop where
  parts : keeps [.regs, .ctrs, .hdrs, .out, .links, .mac] s t
  regs : ∀ p off, off < 0x1000 → ((∀ m, m < 8 → p ≠ pMac m) ∨ off < 0x180 ∨ 0x18C ≤ off) → t.rp p off = s.rp p off
  ctrs : ∀ a, pauseCtr a = false → t.ctr a = s.ctr a
  states : ∀ p, t.pstate p = s.pstate p
  out : ∃ l, t.out = l ++ s.out
  port : ∀ m, ∃ x, t.port m = { s.port m with xoff := x }

theorem Paused.refl (s : State) : Paused s s :=
  ⟨keeps_refl _ _, fun _ _ _ _ => rfl, fun _ _ => rfl, fun _ => rfl, ⟨[], rfl⟩, fun _ => ⟨_, rfl⟩⟩

theorem Paused.after (step : Paused t u) (h : Paused s t) : Paused s u where
  parts := keeps_mono (keeps_trans h.parts step.parts) (by decide)
  regs p off here apart := (step.regs p off here apart).trans (h.regs p off here apart)
  ctrs a apart := (step.ctrs a apart).trans (h.ctrs a apart)
  states p := (step.states p).trans (h.states p)
  out := by
    obtain ⟨l, first⟩ := h.out
    obtain ⟨l', second⟩ := step.out
    exact ⟨l' ++ l, by rw [second, first, List.append_assoc]⟩
  port m := by
    obtain ⟨x, first⟩ := h.port m
    obtain ⟨x', second⟩ := step.port m
    exact ⟨x', by rw [second, first]⟩

theorem pauseCtr_listed {i : Nat} (hn : n < 8) (listed : i = 38 ∨ i = 39 ∨ 64 ≤ i ∧ i < 96) :
    pauseCtr (regAddr (pMac n) (0x200 + 8 * i)) = true := by
  have low : 0x30000 ≤ regAddr (pMac n) (0x200 + 8 * i) ∧ regAddr (pMac n) (0x200 + 8 * i) < 0x38000 := by
    unfold regAddr pMac
    omega
  have off : regAddr (pMac n) (0x200 + 8 * i) % 0x1000 = 0x200 + 8 * i := regAddr_mod (by omega)
  rw [pauseCtr, off, decide_eq_true low, Bool.true_and]
  rcases listed with rfl | rfl | high
  · rfl
  · rfl
  · simp only [show 0x400 ≤ 0x200 + 8 * i by omega, decide_true, Bool.or_true]

theorem paused_macCount {i : Nat} (hn : n < 8) (listed : i = 38 ∨ i = 39 ∨ 64 ≤ i ∧ i < 96) (k : Nat) : Paused s (macCount n i k s) := by
  have counts : MacCounts n [i] s (macCount n i k s) := macCount_counts (by omega) k
  refine ⟨keeps_mono counts.parts (by decide), fun p off here apart => counts.rp here (apart.imp_left fun h => h n hn), fun a apart => ?_,
    counts.states, ⟨[], counts.parts .out (by decide)⟩, fun m => ⟨_, counts.port m⟩⟩
  refine counts.ctrs a fun j hj same => ?_
  rw [List.mem_singleton] at hj
  rw [same, hj, pauseCtr_listed hn listed] at apart
  cases apart

theorem paused_emit (o : Output) (s : State) : Paused s (s.emit o) :=
  ⟨keeps_mono emit_moves.1 (by decide), fun _ _ _ _ => rfl, fun _ _ => rfl, fun _ => rfl, ⟨[o], rfl⟩, fun _ => ⟨_, rfl⟩⟩

theorem paused_raise (p i : Nat) (s : State) : Paused s (raise p i s) := by
  have kept := raise_keeps p i s
  have mac : (raise p i s).mac = s.mac := kept .mac (by decide)
  exact ⟨keeps_mono kept (by decide), fun _ _ _ _ => raise_rd p i s _, fun a _ => ctr_of_keeps kept (by decide) a, raise_pstate p i s,
    ⟨[], kept .out (by decide)⟩, fun m => ⟨_, by rw [State.port, mac]; rfl⟩⟩

theorem paused_setXoff (pri : Nat) (on : Bool) (s : State) : Paused s (setXoff n pri on s) := by
  let x := if on then (s.port n).xoff + 2 ^ pri else (s.port n).xoff - 2 ^ pri
  have set : Paused s (s.setPort n { s.port n with xoff := x }) := by
    refine ⟨keeps_mono setPort_moves.1 (by decide), fun _ _ _ _ => rfl, fun _ _ => rfl, fun _ => rfl, ⟨[], rfl⟩, fun m => ?_⟩
    by_cases same : m = n
    · subst same
      exact ⟨x, tblGet_tblSet_same _ _ _ _⟩
    · exact ⟨(s.port m).xoff, tblGet_tblSet_other _ _ _ same _⟩
  exact ite_all (P := Paused s) ((paused_raise _ _ _).after set) set

theorem paused_sendPause {pri : Nat} (hn : n < 8) (few : pri < 9) (q : Nat) (s : State) : Paused s (sendPause n pri q s) :=
  ite_all (P := Paused s) ((paused_macCount hn (.inl rfl) 1).after (paused_emit _ s))
    ((paused_macCount hn (.inr (.inr (by omega))) 1).after <| (paused_macCount hn (.inr (.inl rfl)) 1).after (paused_emit _ s))

theorem pauseKinds_lt {x : Nat} (listed : x ∈ pauseKinds n s) : x < 9 := by
  unfold pauseKinds at listed
  split at listed
  · simp only [List.mem_singleton] at listed
    omega
  · simp only [List.mem_range] at listed
    omega
  · cases listed

theorem paused_pauseOne {pri : Nat} (hn : n < 8) (few : pri < 9) (s : State) : Paused s (pauseOne n pri s) :=
  ite_all (P := Paused s) ((paused_sendPause hn few _ _).after (paused_setXoff _ _ s)) <|
    ite_all (P := Paused s) ((paused_sendPause hn few _ _).after (paused_setXoff _ _ s)) (Paused.refl s)

theorem paused_foldl {l : List Nat} (hn : n < 8) (few : ∀ x ∈ l, x < 9) (s : State) : Paused s (l.foldl (fun s p => pauseOne n p s) s) := by
  induction l generalizing s with
  | nil => exact Paused.refl s
  | cons x l ih => exact (ih (fun y hy => few y (List.mem_cons_of_mem x hy)) _).after (paused_pauseOne hn (few x List.mem_cons_self) s)

theorem paused_pauseCheck (n : Nat) (s : State) : Paused s (pauseCheck n s) := by
  unfold pauseCheck
  split
  · rename_i open_
    simp only [Bool.and_eq_true, decide_eq_true_eq] at open_
    exact paused_foldl open_.1.1 (fun _ listed => pauseKinds_lt listed) s
  · exact Paused.refl s

theorem paused_freed (p : Pkt) (s : State) : Paused s (freed [p] s) := paused_pauseCheck p.src s

/-! ### LINK (R351, R352) -/

/-- What LINK is told by. -/
theorem linkNow_congr (status : ∀ i ∈ [1, 2, 3], t.flag (regAddr (pMac n) 0x104) i = s.flag (regAddr (pMac n) 0x104) i)
    (mode : t.rp (pMac n) 0x100 = s.rp (pMac n) 0x100) (state : t.pstate (pMac n) = s.pstate (pMac n)) (slice : t.portSlice n = s.portSlice n)
    (lock : (t.port n).lock = (s.port n).lock) (power : t.power = s.power) : linkNow n t = linkNow n s := by
  have fec : t.flag (regAddr (pMac n) 0x104) 1 = s.flag (regAddr (pMac n) 0x104) 1 := status 1 (by decide)
  have near : bit (t.rp (pMac n) 0x104) 2 = bit (s.rp (pMac n) 0x104) 2 := status 2 (by decide)
  have far : bit (t.rp (pMac n) 0x104) 3 = bit (s.rp (pMac n) 0x104) 3 := status 3 (by decide)
  have kind : t.fld (regAddr (pMac n) 0x100) 0 2 = s.fld (regAddr (pMac n) 0x100) 0 2 := fld_congr mode 0 2
  have rsfec : t.flag (regAddr (pMac n) 0x100) 4 = s.flag (regAddr (pMac n) 0x100) 4 := flag_congr mode 4
  simp only [linkNow, pcsUp, state, slice, kind, lock, rsfec, fec, near, far, power]

/-- What LINK is told by stays, and LINK itself. -/
structure LinkSame (n : Nat) (s t : State) : Prop where
  status : ∀ i ∈ [0, 1, 2, 3], t.flag (regAddr (pMac n) 0x104) i = s.flag (regAddr (pMac n) 0x104) i
  mode : t.rp (pMac n) 0x100 = s.rp (pMac n) 0x100
  state : t.pstate (pMac n) = s.pstate (pMac n)
  slice : t.portSlice n = s.portSlice n
  lock : (t.port n).lock = (s.port n).lock
  power : t.power = s.power

theorem LinkSame.linkNow (h : LinkSame n s t) : linkNow n t = linkNow n s :=
  linkNow_congr (fun i hi => h.status i (List.mem_cons_of_mem 0 hi)) h.mode h.state h.slice h.lock h.power

theorem LinkSame.macLink (h : LinkSame n s t) : macLink n t = macLink n s := h.status 0 (by decide)

theorem portSlice_congr (slices : ∀ k, t.slc k 0x108 = s.slc k 0x108) (m : Nat) : t.portSlice m = s.portSlice m := by
  simp only [State.portSlice, State.holders, slices]

theorem Paused.linkSame (h : Paused s t) : LinkSame n s t where
  status i _ := flag_congr (h.regs _ 0x104 (by decide) (.inr (.inl (by decide)))) i
  mode := h.regs _ _ (by decide) (.inr (.inl (by decide)))
  state := h.states _
  slice := portSlice_congr (fun k => h.regs _ _ (by decide) (.inl fun m hm => slicePage_ne hm k 0)) n
  lock := by
    obtain ⟨x, port⟩ := h.port n
    rw [port]
  power := h.parts .power (by decide)

/-- A change of other fields of the port's status register. -/
theorem linkSame_setFld {lo w v : Nat} (apart : 4 ≤ lo) : LinkSame n s (s.setFld (regAddr (pMac n) 0x104) lo w v) where
  status i hi := by
    have small : i < 4 := by
      simp only [List.mem_cons, List.not_mem_nil, or_false] at hi
      omega
    unfold State.flag State.setFld
    rw [State.rd_wr_same]
    exact bit_setBits_other _ (.inl (by omega)) (by omega)
  mode := rd_setFld_other _ (by unfold regAddr; omega) _ _ _
  state := rfl
  slice := portSlice_congr (fun k => rd_setFld_other _ (by unfold regAddr pSlice pMac; omega) _ _ _) n
  lock := rfl
  power := rfl

theorem linkSame_trans (a : LinkSame n s t) (b : LinkSame n t u) : LinkSame n s u :=
  ⟨fun i hi => (b.status i hi).trans (a.status i hi), b.mode.trans a.mode, b.state.trans a.state, b.slice.trans a.slice,
    b.lock.trans a.lock, b.power.trans a.power⟩

theorem linkSame_endPauses (n : Nat) (s : State) : LinkSame n s (endPauses n s) := by
  let u := (s.setFlag (regAddr (pMac n) 0x104) 4 false).setFld (regAddr (pMac n) 0x104) 8 8 0
  have low : LinkSame n s u := linkSame_trans (linkSame_setFld (by decide)) (linkSame_setFld (by decide))
  have port : (u.setPort n { u.port n with quanta := [], xoff := 0 }).port n = { u.port n with quanta := [], xoff := 0 } := tblGet_tblSet_same _ _ _ _
  have lock : ((u.setPort n { u.port n with quanta := [], xoff := 0 }).port n).lock = (u.port n).lock := by rw [port]
  exact linkSame_trans low ⟨fun _ _ => rfl, rfl, rfl, rfl, lock, rfl⟩

/-- LINK follows what it is told by, and leaves that as it is. -/
theorem linkUpdate_spec (n : Nat) (s : State) :
    let t := linkUpdate n s
    macLink n t = linkNow n t ∧ (∀ i ∈ [1, 2, 3], t.flag (regAddr (pMac n) 0x104) i = s.flag (regAddr (pMac n) 0x104) i) ∧
      t.rp (pMac n) 0x100 = s.rp (pMac n) 0x100 ∧ (t.port n).lock = (s.port n).lock := by
  let v := raise (pMac n) 0 (s.setFlag (regAddr (pMac n) 0x104) 0 (linkNow n s))
  have run : linkUpdate n s = if linkNow n s = macLink n s then s else if linkNow n s then pauseCheck n v else endPauses n v := rfl
  have others (i : Nat) (hi : i ∈ [1, 2, 3]) : v.flag (regAddr (pMac n) 0x104) i = s.flag (regAddr (pMac n) 0x104) i := by
    have range : i < 32 ∧ i ≠ 0 := by
      simp only [List.mem_cons, List.not_mem_nil, or_false] at hi
      omega
    exact (flag_congr (raise_rd _ _ _ _) i).trans (flag_setFlag_other _ _ range.1 range.2 _)
  have mode : v.rp (pMac n) 0x100 = s.rp (pMac n) 0x100 :=
    (raise_rd _ _ _ _).trans (rd_setFlag_other _ (by unfold regAddr; omega) _ _)
  have port : (v.port n).lock = (s.port n).lock := by
    have mac : v.mac = s.mac := (raise_moves.after rfl <| setFlag_moves.within rfl : moves [.regs, .hdrs, .links] s v).1 .mac (by decide)
    rw [State.port, mac]
    rfl
  have same : linkNow n v = linkNow n s := by
    refine linkNow_congr others mode ((raise_pstate _ _ _ _).trans rfl) (portSlice_congr (fun k => ?_) n) port ?_
    · exact (raise_rd _ _ _ _).trans (rd_setFlag_other _ (by unfold regAddr pSlice pMac; omega) _ _)
    · exact (raise_moves.after rfl <| setFlag_moves.within rfl : moves [.regs, .hdrs, .links] s v).1 .power (by decide)
  have shown : macLink n v = linkNow n s := (flag_congr (raise_rd _ _ _ _) 0).trans (flag_setFlag_same _ _ (by decide) _)
  have settles {t : State} (h : LinkSame n v t) : macLink n t = linkNow n t ∧
      (∀ i ∈ [1, 2, 3], t.flag (regAddr (pMac n) 0x104) i = s.flag (regAddr (pMac n) 0x104) i) ∧
      t.rp (pMac n) 0x100 = s.rp (pMac n) 0x100 ∧ (t.port n).lock = (s.port n).lock :=
    ⟨by rw [h.macLink, h.linkNow, shown, same], fun i hi => (h.status i (List.mem_cons_of_mem 0 hi)).trans (others i hi), h.mode.trans mode,
      h.lock.trans port⟩
  intro t
  rw [show t = _ from run]
  split
  · rename_i keeps
    exact ⟨keeps.symm, fun _ _ => rfl, rfl, rfl⟩
  · split
    · exact settles ((paused_pauseCheck n v).linkSame)
    · exact settles (linkSame_endPauses n v)

/-- The PCS of a port reports its state (R351). -/
theorem linkChange_spec (on : s.running = true) (hn : n < 8) (lock fec lf rf : Bool) : After (exec (.linkChange n lock fec lf rf) s) fun t =>
    keeps [.regs, .ctrs, .hdrs, .out, .power, .links, .mac] s t ∧ (t.port n).lock = lock ∧ macLink n t = linkNow n t ∧
      t.flag (regAddr (pMac n) 0x104) 1 = fec ∧ t.flag (regAddr (pMac n) 0x104) 2 = lf ∧ t.flag (regAddr (pMac n) 0x104) 3 = rf := by
  let a := regAddr (pMac n) 0x104
  let newFault := (lf && !bit (s.rp (pMac n) 0x104) 2) || (rf && !bit (s.rp (pMac n) 0x104) 3)
  let s1 := s.setPort n { s.port n with lock := lock }
  let s2 := ((s1.setFlag a 1 fec).setFlag a 2 lf).setFlag a 3 rf
  let s3 := if newFault then raise (pMac n) 1 s2 else s2
  let s4 := if lock then { s3 with power := { s3.power with refclkAbsent := false } } else s3
  have run : exec (.linkChange n lock fec lf rf) s = whenOn s (.next (linkUpdate n s4)) := by
    simp only [exec, execLinkChange, Nat.mod_eq_of_lt hn]
    rfl
  have told : keeps [.hdrs, .links] s2 s3 := ite_all (raise_keeps _ _ _) (keeps_refl _ _)
  have clocked : keeps [.power] s3 s4 := ite_all with_power_moves.1 (keeps_refl _ _)
  have word : s4.rd a = s2.rd a := (congrFun (rd_of_keeps clocked (by decide)) a).trans (congrFun (rd_of_keeps told (by decide)) a)
  have bits : s2.flag a 1 = fec ∧ s2.flag a 2 = lf ∧ s2.flag a 3 = rf :=
    ⟨(flag_setFlag_other _ _ (by decide) (by decide) _).trans <| (flag_setFlag_other _ _ (by decide) (by decide) _).trans
        (flag_setFlag_same _ _ (by decide) _),
      (flag_setFlag_other _ _ (by decide) (by decide) _).trans (flag_setFlag_same _ _ (by decide) _), flag_setFlag_same _ _ (by decide) _⟩
  have port : (s4.port n).lock = lock := by
    have mac : s4.mac = s1.mac := (clocked .mac (by decide)).trans (told .mac (by decide))
    have same : s1.port n = { s.port n with lock := lock } := tblGet_tblSet_same _ _ _ _
    rw [State.port, mac]
    exact congrArg MacPort.lock same
  obtain ⟨link, status, -, locked⟩ := linkUpdate_spec n s4
  obtain ⟨one, two, three⟩ := bits
  obtain ⟨t, next, kept, -⟩ := execLinkChange_moves (n := n) (lock := lock) (fec := fec) (localFault := lf) (remoteFault := rf) (s := s)
  obtain rfl : t = linkUpdate n s4 := Host.Outcome.next.inj (next.symm.trans (run.trans (whenOn_running on _)))
  exact ⟨_, next, kept, locked.trans port, link, (status 1 (by decide)).trans ((flag_congr word 1).trans one),
    (status 2 (by decide)).trans ((flag_congr word 2).trans two), (status 3 (by decide)).trans ((flag_congr word 3).trans three)⟩

/-- An accepted write of MODE (R352). -/
theorem macModeWrite_spec {m : AB} {v : Word} (on : s.running = true) (hn : n < 8) (ok : admits m (pMac n) 0x100 (macModeHandler n) v s = true) :
    After (exec (.macModeWrite m n v) s) fun t =>
      keeps [.regs, .ctrs, .hdrs, .last, .out, .nvs, .links, .mac] s t ∧ t.last = .done ∧
        t.rp (pMac n) 0x100 = mergeFields (fieldsAt (pMac n) 0x100) (s.rp (pMac n) 0x100) v ∧ macLink n t = linkNow n t := by
  obtain ⟨u, used, regs, wrote⟩ := writeReg_used ok
  let x := storeReg (pMac n) 0x100 v u
  have run : exec (.macModeWrite m n v) s = whenOn s (.next (ended .ok 0 .none (linkUpdate n x))) := by
    simp only [exec, execMacModeWrite, Nat.mod_eq_of_lt hn, wrote]
    rfl
  obtain ⟨link, -, mode, -⟩ := linkUpdate_spec n x
  obtain ⟨stored, -, -⟩ := storeReg_spec (pMac n) 0x100 v u
  have moved : moves [.regs, .ctrs, .hdrs, .last, .out, .nvs, .links, .mac] s (ended .ok 0 .none (linkUpdate n x)) :=
    ended_moves.after rfl <| linkUpdate_moves.after rfl <| storeReg_moves.after rfl <| used.within rfl
  have same : u.rp (pMac n) 0x100 = s.rp (pMac n) 0x100 := regs _ (by
    rw [List.mem_singleton, regAddr_eq_iff (by decide) (by decide)]
    omega)
  refine after_running on run ⟨moved.1, rfl, ?_, link⟩
  exact mode.trans (stored.trans (by rw [same]))

/-! ### Transmission and timestamps (R361 to R363, R366) -/

/-- A read of the last word of an entry takes it (R366). -/
theorem tsqPop_taken {m : AB} {e : TsEntry} {q : List TsEntry} (on : s.running = true) (hn : n < 8) (ok : readable m (pMac n) 0x170 s = true)
    (queue : (s.port n).tsq = e :: q) : After (exec (.tsqPop m n) s) fun t =>
      t.last = ⟨.ok, word e.frac, .none⟩ ∧ (t.port n).tsq = q ∧ keepsRegs [regAddr (pMac n) 0x160] s t ∧ keeps [.last, .mac, .regs] s t := by
  let u := (s.setPort n { s.port n with tsq := q }).bumpFld (regAddr (pMac n) 0x160) 16 16 1
  have run : exec (.tsqPop m n) s = whenOn s (.next (ended .ok (word e.frac) .none u)) := by
    simp only [exec, execTsqPop, Nat.mod_eq_of_lt hn, runRead_readable _ _ _ _ _ _ ok, tsqWord, tsqPop, queue]
    rfl
  have port : (s.setPort n { s.port n with tsq := q }).port n = { s.port n with tsq := q } := tblGet_tblSet_same _ _ _ _
  exact after_running on run ⟨rfl, congrArg MacPort.tsq port, setFld_keepsRegs _ _ _ _ _,
    (ended_moves.after rfl <| bumpFld_moves.after rfl <| setPort_moves.within rfl : moves [.last, .mac, .regs] s (ended .ok (word e.frac) .none u)).1⟩

/-- A frame that finds LINK down is discarded (R361). -/
theorem frameTransmit_down {p : Pkt} {q : List Pkt} {x : Bool} (on : s.running = true) (hn : n < 8) (queue : (s.port n).txq = p :: q)
    (down : macLink n s = false) : After (exec (.frameTransmit n x false) s) fun t =>
      keeps [.regs, .ctrs, .hdrs, .out, .buf, .mac, .links] s t ∧ (t.port n).txq = q ∧ counted .linkDown p.slice n s t := by
  let u := s.setPort n { s.port n with txq := q }
  let v := dropAt .linkDown p.slice n (some p) 0 u
  let w := macCount n 54 1 v
  have run : exec (.frameTransmit n x false) s = whenOn s (.next (freed [p] w)) := by
    have still : macLink n u = false := down
    simp only [exec, execFrameTransmit, Nat.mod_eq_of_lt hn, queue]
    exact congrArg (whenOn s) (if_pos (by rw [still]; rfl))
  obtain ⟨count, -, -, parts⟩ := dropAt_spec .linkDown p.slice n (some p) 0 u
  have counts : MacCounts n [54] v w := macCount_counts (by decide) 1
  have freed := paused_freed p w
  refine after_running on run ⟨keeps_mono (keeps_trans (keeps_trans (keeps_trans setPort_moves.1 parts) counts.parts) freed.parts) (by decide), ?_, ?_⟩
  · obtain ⟨y, port⟩ := freed.port n
    have mac : v.mac = u.mac := parts .mac (by decide)
    have same : u.port n = { s.port n with txq := q } := tblGet_tblSet_same _ _ _ _
    rw [port, counts.port]
    rw [State.port, mac]
    exact congrArg MacPort.txq same
  · have high : 0x800000 ≤ censusAddr p.slice Reason.linkDown.code n := by
      unfold censusAddr regAddr pSlice
      split <;> omega
    have other : pauseCtr (censusAddr p.slice Reason.linkDown.code n) = false := by
      unfold pauseCtr
      rw [decide_eq_false (by omega), Bool.false_and]
    refine (freed.ctrs _ other).trans <| (counts.ctrs _ fun i hi => ?_).trans count
    rw [List.mem_singleton] at hi
    subst hi
    unfold regAddr pMac
    omega

/-- A sent frame is counted. -/
theorem countSent_spec (l : List Byte) (segment : Bool) (s : State) :
    let t := countSent n l segment s
    MacCounts n ((List.range 19).map (32 + ·)) s t ∧
      t.ctr (regAddr (pMac n) 0x308) = (s.ctr (regAddr (pMac n) 0x308) + 1) % 2 ^ 40 := by
  have cast := castOf_lt l
  have size := sizeBucket_lt (l.length + 4)
  let u := macCount n 33 1 (macCount n 32 (l.length + 4) s)
  have tagged (v : State) : MacCounts n [37] v (if isTagged l then macCount n 37 1 v else v) :=
    macCounts_ite (macCount_counts (by decide) 1) (MacCounts.refl.mono (by simp))
  have cut (v : State) : MacCounts n [50] v (if segment then macCount n 50 1 v else v) :=
    macCounts_ite (macCount_counts (by decide) 1) (MacCounts.refl.mono (by simp))
  have later : MacCounts n [50, 40 + sizeBucket (l.length + 4), 37, 34 + castOf l] u (countSent n l segment s) :=
    (cut _).after <| (macCount_counts (by omega) 1).after <| (tagged _).after (macCount_counts (by omega) 1)
  have first : MacCounts n [32] s (macCount n 32 (l.length + 4) s) := macCount_counts (by decide) _
  have both : MacCounts n [33, 32] s u := (macCount_counts (by decide) 1).after first
  refine ⟨(later.after both).mono fun i hi => ?_, ?_⟩
  · simp only [List.mem_append, List.mem_cons, List.not_mem_nil, or_false, List.mem_map, List.mem_range] at hi ⊢
    exact ⟨i - 32, by omega, by omega⟩
  · have one : u.ctr (regAddr (pMac n) 0x308) = _ := macCount_same n 33 1 (macCount n 32 (l.length + 4) s)
    have before : (macCount n 32 (l.length + 4) s).ctr (regAddr (pMac n) 0x308) = s.ctr (regAddr (pMac n) 0x308) := first.ctrs _ fun i hi => by
      simp only [List.mem_singleton] at hi
      unfold regAddr
      omega
    refine (later.ctrs _ fun i hi => ?_).trans (one.trans ?_)
    · simp only [List.mem_cons, List.not_mem_nil, or_false] at hi
      unfold regAddr
      omega
    · exact congrArg (fun x => (x + 1) % 2 ^ 40) before

/-- A timestamp is queued while the queue has room (R363). -/
theorem stamp_spec (t id : Nat) (whole : noFlip s = true) :
    let u := stamp n t id s
    keeps [.regs, .ctrs, .hdrs, .mac, .links] s u ∧ u.ctr (regAddr (pMac n) 0x308) = s.ctr (regAddr (pMac n) 0x308) ∧
      (u.port n).txq = (s.port n).txq ∧
      ((s.port n).tsq.length < 64 → ∃ e : TsEntry, e.id = id ∧ (u.port n).tsq = (s.port n).tsq ++ [e]) := by
  let e : TsEntry := ⟨id, t / nsUnit / 1000000000 / 2 ^ 32 % 256, word (t / nsUnit / 1000000000),
    word (t / nsUnit % 1000000000), t / 2 ^ 16 % 2 ^ 16⟩
  let v := s.setPort n { s.port n with tsq := (s.port n).tsq ++ [e] }
  have run : stamp n t id s = if (s.port n).tsq.length < 64 then
      (if (s.port n).tsq.isEmpty then raise (pMac n) 3 (macCount n 51 1 v) else macCount n 51 1 v) else raise (pMac n) 4 (macCount n 52 1 s) := by
    simp only [stamp, transit_of_noFlip _ whole, Bool.or_self, Bool.false_eq_true, if_false]
    rfl
  have counted {i : Nat} (high : 51 ≤ i ∧ i < 96) (x : State) : keeps [.regs, .ctrs, .hdrs, .links] x (macCount n i 1 x) ∧
      (macCount n i 1 x).ctr (regAddr (pMac n) 0x308) = x.ctr (regAddr (pMac n) 0x308) ∧ (macCount n i 1 x).port n = x.port n := by
    have counts : MacCounts n [i] x (macCount n i 1 x) := macCount_counts high.2 1
    refine ⟨keeps_mono counts.parts (by decide), counts.ctrs _ fun j hj => ?_, counts.port n⟩
    simp only [List.mem_singleton] at hj
    unfold regAddr
    omega
  have told (i : Nat) (x : State) : keeps [.hdrs, .links] x (raise (pMac n) i x) ∧ (raise (pMac n) i x).ctr (regAddr (pMac n) 0x308) =
      x.ctr (regAddr (pMac n) 0x308) ∧ (raise (pMac n) i x).port n = x.port n := by
    have kept := raise_keeps (pMac n) i x
    have mac : (raise (pMac n) i x).mac = x.mac := kept .mac (by decide)
    exact ⟨kept, ctr_of_keeps kept (by decide) _, by rw [State.port, State.port, mac]⟩
  have entered : v.port n = { s.port n with tsq := (s.port n).tsq ++ [e] } := tblGet_tblSet_same _ _ _ _
  obtain ⟨parts, ctr, port⟩ := counted (i := 51) (by decide) v
  intro u
  rw [show u = _ from run]
  split
  · split
    · obtain ⟨parts', ctr', port'⟩ := told 3 (macCount n 51 1 v)
      refine ⟨keeps_mono (keeps_trans (keeps_trans setPort_moves.1 parts) parts') (by decide), ctr'.trans ctr, ?_, fun _ => ⟨e, rfl, ?_⟩⟩
      · rw [port', port, entered]
      · rw [port', port, entered]
    · refine ⟨keeps_mono (keeps_trans setPort_moves.1 parts) (by decide), ctr, ?_, fun _ => ⟨e, rfl, ?_⟩⟩
      · rw [port, entered]
      · rw [port, entered]
  · rename_i full
    obtain ⟨parts, ctr, port⟩ := counted (i := 52) (by decide) s
    obtain ⟨parts', ctr', port'⟩ := told 4 (macCount n 52 1 s)
    exact ⟨keeps_mono (keeps_trans parts parts') (by decide), ctr'.trans ctr, by rw [port', port], fun room => absurd room full⟩

/-- The state in which the oldest frame of a port has been sent and counted. -/
def frameSent (n : Nat) (p : Pkt) (q : List Pkt) (x : Bool) (s : State) : State :=
  countSent n (padFrame p.bytes) p.segment ((s.setPort n { s.port n with txq := q }).emit (.client n (padFrame p.bytes) x))

theorem frameSent_spec (hn : n < 8) (p : Pkt) (q : List Pkt) (x : Bool) (s : State) :
    let t := frameSent n p q x s
    keeps [.regs, .ctrs, .hdrs, .out, .mac, .links] s t ∧ (t.port n).txq = q ∧ (t.port n).tsq = (s.port n).tsq ∧
      Output.client n (padFrame p.bytes) x ∈ t.out ∧ t.ctr (regAddr (pMac n) 0x308) = (s.ctr (regAddr (pMac n) 0x308) + 1) % 2 ^ 40 ∧
      noFlip t = noFlip s := by
  let u := s.setPort n { s.port n with txq := q }
  let v := u.emit (.client n (padFrame p.bytes) x)
  obtain ⟨counts, ctr⟩ := countSent_spec (n := n) (padFrame p.bytes) p.segment v
  have port : u.port n = { s.port n with txq := q } := tblGet_tblSet_same _ _ _ _
  have before : keeps [.mac, .out] s v := (emit_moves.after rfl <| setPort_moves.within rfl : moves [.mac, .out] s v).1
  have same : (frameSent n p q x s).port n = u.port n := counts.port n
  have out : (frameSent n p q x s).out = v.out := counts.parts .out (by decide)
  refine ⟨keeps_mono (keeps_trans before counts.parts) (by decide), ?_, ?_, ?_, ctr, (counts.noFlip hn).trans rfl⟩
  · rw [same, port]
  · rw [same, port]
  · rw [out]
    exact List.mem_cons_self

/-- A frame leaves while LINK is up (R361 to R363). -/
theorem exec_frameTransmit {p : Pkt} {q : List Pkt} {x : Bool} (on : s.running = true) (hn : n < 8) (whole : noFlip s = true)
    (queue : (s.port n).txq = p :: q) (up : macLink n s = true) (plain : ptpEvent (padFrame p.bytes) = none) :
    ∃ time, exec (.frameTransmit n x false) s = .next (freed [p] (p.tsId.elim (frameSent n p q x s) fun id => stamp n time id (frameSent n p q x s))) := by
  let u := s.setPort n { s.port n with txq := q }
  have still : macLink n u = true := up
  have rewritten (t : Nat) (v : State) : ptpRewrite n t { p with bytes := padFrame p.bytes } v = (padFrame p.bytes, none) := by
    simp only [ptpRewrite, plain]
  have clean : transit (0x90 + n) (s.setPort n { s.port n with txq := q }) = (false, s.setPort n { s.port n with txq := q }) :=
    transit_of_noFlip _ whole
  refine ⟨s.tsu.time + s.fld (regAddr pTsu (0x204 + 8 * n)) 0 16 * 2 ^ 28, ?_⟩
  simp only [exec, execFrameTransmit, whenOn_running on, Nat.mod_eq_of_lt hn, queue]
  refine (if_neg (by rw [still]; decide)).trans ?_
  simp only [rewritten, clean, Bool.or_false, Bool.false_eq_true, if_false]
  cases p.tsId <;> rfl

theorem frameTransmit_sent {p : Pkt} {q : List Pkt} {x : Bool} (on : s.running = true) (hn : n < 8) (whole : noFlip s = true)
    (queue : (s.port n).txq = p :: q) (up : macLink n s = true) (plain : ptpEvent (padFrame p.bytes) = none) :
    After (exec (.frameTransmit n x false) s) fun t =>
        keeps [.regs, .ctrs, .hdrs, .out, .buf, .mac, .links] s t ∧ (t.port n).txq = q ∧ Output.client n (padFrame p.bytes) x ∈ t.out ∧
        t.ctr (regAddr (pMac n) 0x308) = (s.ctr (regAddr (pMac n) 0x308) + 1) % 2 ^ 40 ∧
        (p.tsId = none → (t.port n).tsq = (s.port n).tsq) ∧
        (∀ id, p.tsId = some id → (s.port n).tsq.length < 64 → ∃ e, e.id = id ∧ (t.port n).tsq = (s.port n).tsq ++ [e]) := by
  obtain ⟨time, run⟩ := exec_frameTransmit (x := x) on hn whole queue up plain
  let u := frameSent n p q x s
  obtain ⟨parts, txq, tsq, sent, ctr, flips⟩ := frameSent_spec hn p q x s
  have count : pauseCtr (regAddr (pMac n) 0x308) = false := by
    unfold pauseCtr
    rw [regAddr_mod (by decide)]
    simp
  have ends {v : State} (kept : keeps [.regs, .ctrs, .hdrs, .mac, .links] u v) (counted : v.ctr (regAddr (pMac n) 0x308) = u.ctr (regAddr (pMac n) 0x308))
      (queued : (v.port n).txq = (u.port n).txq) :
      keeps [.regs, .ctrs, .hdrs, .out, .buf, .mac, .links] s (freed [p] v) ∧ ((freed [p] v).port n).txq = q ∧
        Output.client n (padFrame p.bytes) x ∈ (freed [p] v).out ∧
        (freed [p] v).ctr (regAddr (pMac n) 0x308) = (s.ctr (regAddr (pMac n) 0x308) + 1) % 2 ^ 40 ∧
        ((freed [p] v).port n).tsq = (v.port n).tsq := by
    have paused := paused_freed p v
    obtain ⟨y, port⟩ := paused.port n
    obtain ⟨l, out⟩ := paused.out
    have outs : v.out = u.out := kept .out (by decide)
    refine ⟨keeps_mono (keeps_trans (keeps_trans parts kept) paused.parts) (by decide), ?_, ?_, ?_, ?_⟩
    · rw [port]
      exact queued.trans txq
    · rw [out, outs]
      exact List.mem_append_right l sent
    · exact (paused.ctrs _ count).trans (counted.trans ctr)
    · rw [port]
  refine ⟨_, run, ?_⟩
  cases stamped : p.tsId with
  | none =>
    obtain ⟨kept, queued, out, counted, stamps⟩ := ends (keeps_refl _ u) rfl rfl
    exact ⟨kept, queued, out, counted, fun _ => stamps.trans tsq, fun id some_ => by cases some_⟩
  | some id =>
    obtain ⟨kept, counted, queued, entry⟩ := stamp_spec (n := n) time id (s := u) (flips.trans whole)
    obtain ⟨kept', queued', out, counted', stamps⟩ := ends kept counted queued
    refine ⟨kept', queued', out, counted', fun none_ => (nomatch none_), fun id' same room => ?_⟩
    obtain rfl : id = id' := Option.some.inj same
    obtain ⟨e, named, list⟩ := entry (by rw [tsq]; exact room)
    exact ⟨e, named, stamps.trans (list.trans (by rw [tsq]))⟩

/-- Settles O50, by the path of a frame and the pauses, LINK and timestamp queue of a port. -/
theorem clientPortsCarryFrames : Obligations.ClientPortsCarryFrames := by
  unfold Obligations.ClientPortsCarryFrames
  intro n s on hn whole mode
  refine ⟨fun f r i k some_ room refused slice => clientRefused_spec on hn some_ room refused slice,
    fun f some_ room good => ⟨fun slice => clientGood_unowned on hn some_ room good slice,
      fun k data slice active up attached free lanes => clientGood_dispatched on hn some_ room good whole data slice active up attached free lanes⟩,
    fun f some_ room good ctrl op slice honoured => ?_, fun pri few => pauseExpiry_done on hn few,
    fun held link sends kind full => xoffRefresh_sent on hn held link sends kind full, fun lock fec lf rf => linkChange_spec on hn lock fec lf rf,
    fun m v ok => macModeWrite_spec on hn ok,
    fun p q x queue => ⟨fun up plain => frameTransmit_sent on hn whole queue up plain, fun down => frameTransmit_down on hn queue down⟩,
    fun m e q ok queue => tsqPop_taken on hn ok queue⟩
  obtain ⟨k, held⟩ := Option.isSome_iff_exists.mp slice
  exact clientGood_pause on hn some_ room good ctrl op held honoured

end Sys2Proof.Machine

/-!
PROOFS. Dwell, MODE, Port-ID entries and line keys (O42).
-/

namespace Sys2Proof.Machine

variable {f m : AB} {s t : State}

/-! ### The hunted rate (R237) -/

/-- Another rate is hunted. -/
theorem setRate_spec {r : Nat} (other : lfrRate f s ≠ r) (small : r < 4) :
    let t := setRate f r s
    lfrRate f t = r ∧ intRawBit t (pLfr f) 4 = true ∧ keepsRegs [regAddr (pLfr f) 0x100, regAddr (pLfr f) 0x104] s t ∧
      keepsHdrs [pLfr f] s t ∧ keeps [.regs, .hdrs, .links] s t := by
  let u := s.setFld (regAddr (pLfr f) 0x100) 4 2 r
  let v := if lfrField f 0 2 u = 1 then u.setFld (regAddr (pLfr f) 0x104) 0 2 0 else u
  have run : setRate f r s = raise (pLfr f) 4 v := if_neg other
  have apart : regAddr (pLfr f) 0x100 ≠ regAddr (pLfr f) 0x104 := by unfold regAddr; omega
  have back : keepsRegs [regAddr (pLfr f) 0x104] u v := ite_all (P := keepsRegs _ u) (setFld_keepsRegs _ _ _ _ _) (keepsRegs_refl _ _)
  have parts : keeps [.regs] s v := (moves_ite (setFld_moves.after rfl <| setFld_moves) setFld_moves : moves [.regs] s v).1
  intro t
  rw [show t = _ from run]
  refine ⟨?_, raise_intRaw _ _ _ (by decide), fun a ha => ?_, fun p hp => ?_, keeps_mono (keeps_trans parts (raise_keeps _ _ v)) (by decide)⟩
  · refine (fld_raise _ _ _ _ _ _).trans <| (fld_congr (back _ (by simpa using apart)) 4 2).trans ?_
    exact (fld_setFld_same _ _ _ (by decide)).trans (Nat.mod_eq_of_lt small)
  · simp only [List.mem_cons, List.not_mem_nil, or_false, not_or] at ha
    exact (raise_rd _ _ v a).trans <| (back a (by simpa using ha.2)).trans (rd_setFld_other _ ha.1 _ _ _)
  · exact (raise_keepsHdrs _ _ v p hp).trans (keepsHdrs_of_keeps parts (by decide) p List.not_mem_nil)

/-- A dwell that ends without SYNC hunts the other rate of two (R237). -/
theorem rateDwellExpiry_spec (on : s.running = true) (out : inSync f s = false)
    (both : rateSet f (s.fld (regAddr (pLfr f) 0x100) 0 2) s = [1, 2]) (rate : lfrRate f s = 1 ∨ lfrRate f s = 2) :
    After (exec (.rateDwellExpiry f) s) fun t => lfrRate f t = 3 - lfrRate f s ∧ intRawBit t (pLfr f) 4 = true ∧
        keepsRegs [regAddr (pLfr f) 0x100, regAddr (pLfr f) 0x104] s t ∧ keepsHdrs [pLfr f] s t ∧ keeps [.lfr, .regs, .hdrs, .links] s t := by
  let u := s.setLfr f { s.lfr.get f with mode := s.fld (regAddr (pLfr f) 0x100) 0 2 }
  have same : lfrRate f u = lfrRate f s := rfl
  have mode : (u.lfr.get f).mode = s.fld (regAddr (pLfr f) 0x100) 0 2 := congrArg LfrSt.mode (Pair.get_set_same s.lfr f _)
  have set : rateSet f (u.lfr.get f).mode u = [1, 2] := by
    rw [mode]
    exact both
  have run : exec (.rateDwellExpiry f) s = whenOn s (.next (setRate f (3 - lfrRate f s) u)) := by
    simp only [exec, execRateDwellExpiry, out, Bool.false_eq_true, if_false]
    change whenOn s (.next (setRate f (match (rateSet f (u.lfr.get f).mode u).find? (fun r => r != lfrRate f u) with
      | some r => r
      | none => (rateSet f (u.lfr.get f).mode u).headD 0) u)) = _
    rw [set, same]
    rcases rate with rate | rate <;> rw [rate] <;> rfl
  have other : lfrRate f u ≠ 3 - lfrRate f s := by
    rw [same]
    omega
  obtain ⟨now, told, regs, hdrs, parts⟩ := setRate_spec (s := u) other (by omega)
  exact after_running on run ⟨now, told, regs, hdrs, keeps_mono (keeps_trans setLfr_moves.1 parts) (by decide)⟩

/-! ### Port-ID entries (R254) -/

theorem hasNvs_of_findReg {off : Nat} {l : List Reg} (volatile : ∀ r ∈ l, hasNvs r.flds = false) {r : Reg} (found : findReg off l = some r) :
    hasNvs r.flds = false := by
  induction l with
  | nil => cases found
  | cons x l ih =>
    unfold findReg at found
    split at found
    · obtain rfl := Option.some.inj found
      exact volatile _ List.mem_cons_self
    · exact ih (fun y hy => volatile y (List.mem_cons_of_mem x hy)) found

/-- No register of a line page is held in the store (Table 8-3). -/
theorem hasNvs_lfr (f : AB) (off : Nat) : hasNvs (fieldsAt (pLfr f) off) = false := by
  have page : ∃ i, pageInfo (pLfr f) = some i ∧ blkRegs i = regsLfr := by
    cases f
    · exact ⟨_, rfl, rfl⟩
    · exact ⟨_, rfl, rfl⟩
  obtain ⟨i, info, regs⟩ := page
  have volatile : ∀ r ∈ regsLfr, hasNvs r.flds = false := by decide
  simp only [fieldsAt, info, regs]
  split
  · rfl
  · rename_i r found
    exact hasNvs_of_findReg volatile found

theorem portIdWrite_spec {e : Nat} {v : Word} (on : s.running = true) (he : e < 512) (clean : memClean s = true)
    (free : bit (s.rp (pLfr f) (0x800 + 4 * e)) 20 = false) (ok : admits m (pLfr f) (0x800 + 4 * e) (portIdHandler f e) v s = true) :
    After (exec (.portIdWrite m f e v) s) fun t =>
        t.last = .done ∧ s.ownsSlice m (bits v 16 4) = true ∧
        t.rp (pLfr f) (0x800 + 4 * e) = mergeFields (fieldsAt (pLfr f) (0x800 + 4 * e)) (s.rp (pLfr f) (0x800 + 4 * e)) v ∧
        keepsRegs (writeRegs (pLfr f) (0x800 + 4 * e)) s t ∧ keeps [.regs, .last] s t := by
  obtain ⟨u, used, regs, wrote⟩ := writeReg_used ok
  let off := 0x800 + 4 * e
  let x := storeReg (pLfr f) off v u
  have apart {a : Nat} (h : a = regAddr pPrs 0x110 ∨ a = regAddr pEcc 0x120) : a ≠ regAddr (pLfr f) off := by
    rcases h with rfl | rfl <;> cases f <;> simp only [off, regAddr, pPrs, pEcc, pLfr, AB.num] <;> omega
  have same : u.rp (pLfr f) off = s.rp (pLfr f) off := regs _ (by
    rw [List.mem_singleton]
    exact (apart (.inl rfl)).symm)
  have stored : x = u.wr (regAddr (pLfr f) off) (mergeFields (fieldsAt (pLfr f) off) (u.rp (pLfr f) off) v) :=
    storeReg_volatile (hasNvs_lfr f off) v u
  have clean' : memClean x = true := by
    have flips : noFlip u = noFlip s := noFlip_of_regs regs (by decide)
    have ecc : u.ecc = s.ecc := used.1 .ecc (by decide)
    have before : memClean u = memClean s := by simp only [memClean, flips, ecc]
    rw [stored, memClean_wr (apart (.inr rfl)).symm, before]
    exact clean
  have run : (portIdHandler f e).run m v u = x := by
    have idle : bit (u.rp (pLfr f) off) 20 = false := by
      rw [same]
      exact free
    simp only [portIdHandler]
    change wrotePart _ 0 _ (storeReg (pLfr f) off v (if (bit (u.rp (pLfr f) off) 20 && _) = true then _ else u)) = x
    rw [idle, Bool.false_and, if_neg Bool.false_ne_true]
    exact wrotePart_of_memClean _ _ _ clean'
  have owned : s.ownsSlice m (bits v 16 4) = true := by
    have range := range_of_admits ok
    simp only [portIdHandler, Bool.or_eq_false_iff, Bool.not_eq_false'] at range
    exact range.1
  have row : exec (.portIdWrite m f e v) s = whenOn s (.next (ended .ok 0 .none x)) := by
    simp only [exec, execPortIdWrite, Nat.mod_eq_of_lt he]
    exact congrArg (fun y => whenOn s (.next y)) (wrote.trans (by rw [run]))
  obtain ⟨value, others, -⟩ := storeReg_spec (pLfr f) off v u
  refine after_running on row ⟨rfl, owned, value.trans (by rw [same]), keepsRegs_trans_swap regs others, ?_⟩
  have moved : keeps [.regs] u x := by
    rw [stored]
    exact wr_keeps _ _ u
  exact keeps_mono (keeps_trans (keeps_trans used.1 moved) (ended_keeps _ _ _ _)) (by decide)

/-! ### Line keys (R256, R260) -/

/-- A key that the Keeper loads, before the line settles. -/
def keyHeld (f : AB) (k : Nat) (key : List Byte) (s : State) : State :=
  let s := { s with keys := tblSet [] (8 * f.num + k) key s.keys, act := s.act.set f { s.act.get f with keyAsk := false } }
  let s := s.setFlag (regAddr pCry 0x100) (k + 8 * f.num) true
  let s := if k < 4 then s.bumpFld (regAddr pCry (0x104 + 4 * f.num)) (8 * k) 8 1 else s
  raise pCry 0 s

theorem keyHeld_spec {k : Nat} {key : List Byte} (small : k < 5) (s : State) :
    let t := keyHeld f k key s
    keyIn f k t = some key ∧ (∀ g j, j < 5 → (g, j) ≠ (f, k) → keyIn g j t = keyIn g j s) ∧ intRawBit t pCry 0 = true ∧
      keepsRegs [regAddr pCry 0x100, regAddr pCry (0x104 + 4 * f.num)] s t ∧ keeps [.keys, .act, .regs, .hdrs, .links] s t := by
  let u : State := { s with keys := tblSet [] (8 * f.num + k) key s.keys, act := s.act.set f { s.act.get f with keyAsk := false } }
  let v := u.setFlag (regAddr pCry 0x100) (k + 8 * f.num) true
  let w := if k < 4 then v.bumpFld (regAddr pCry (0x104 + 4 * f.num)) (8 * k) 8 1 else v
  have num : f.num < 2 := by cases f <;> decide
  have bumped : keepsRegs [regAddr pCry (0x104 + 4 * f.num)] v w := ite_all (P := keepsRegs _ v) (setFld_keepsRegs _ _ _ _ _) (keepsRegs_refl _ _)
  have parts : keeps [.regs] v w := (moves_ite bumpFld_moves moves_rfl : moves [.regs] v w).1
  have apart : regAddr pCry 0x100 ≠ regAddr pCry (0x104 + 4 * f.num) := by unfold regAddr; omega
  have status (i : Nat) : (keyHeld f k key s).flag (regAddr pCry 0x100) i = v.flag (regAddr pCry 0x100) i :=
    flag_congr ((raise_rd _ _ w _).trans (bumped _ (by simpa using apart))) i
  have keys : (keyHeld f k key s).keys = tblSet [] (8 * f.num + k) key s.keys :=
    ((raise_keeps pCry 0 w) .keys (by decide)).trans (parts .keys (by decide))
  refine ⟨?_, fun g j few other => ?_, raise_intRaw _ _ _ (by decide), fun a ha => ?_, ?_⟩
  · have held : v.flag (regAddr pCry 0x100) (k + 8 * f.num) = true := flag_setFlag_same _ _ (by omega) _
    rw [keyIn, status, held, if_pos rfl, keys]
    exact congrArg some (tblGet_tblSet_same _ _ _ _)
  · have ne : 8 * g.num + j ≠ 8 * f.num + k := by
      intro same
      refine other ?_
      cases f <;> cases g <;> simp only [AB.num] at same ⊢ <;> simp only [Prod.mk.injEq, reduceCtorEq, true_and] <;> omega
    have num' : g.num < 2 := by cases g <;> decide
    have held : v.flag (regAddr pCry 0x100) (j + 8 * g.num) = s.flag (regAddr pCry 0x100) (j + 8 * g.num) :=
      flag_setFlag_other _ _ (by omega) (by omega) _
    rw [keyIn, keyIn, status, held, keys, tblGet_tblSet_other _ _ _ ne]
  · simp only [List.mem_cons, List.not_mem_nil, or_false, not_or] at ha
    exact (raise_rd _ _ w a).trans <| (bumped a (by simpa using ha.2)).trans (rd_setFlag_other _ ha.1 _ _)
  · exact (raise_moves.after rfl <| moves_trans (setFlag_moves.after rfl <| with_act_keys_moves.within rfl) <| moves_ite (bumpFld_moves.within rfl) moves_rfl :
      moves [.keys, .act, .regs, .hdrs, .links] s (keyHeld f k key s)).1

theorem keyLoad_spec {k : Nat} {key : List Byte} (on : s.running = true) (small : k < 5) (up : keeperUp s = true) (clean : memClean s = true) :
    After (exec (.keyLoad f k key) s) fun t =>
      alike eventKept s t ∧ keyIn f k t = some key ∧ intRawBit t pCry 0 = true ∧ (∀ g j, j < 5 → (g, j) ≠ (f, k) → keyIn g j t = keyIn g j s) := by
  let u := keyHeld f k key s
  obtain ⟨held, others, told, regs, parts⟩ := keyHeld_spec (f := f) (key := key) small s
  have clean' : memClean u = true := by
    have flips : noFlip u = noFlip s := noFlip_of_regs regs (by cases f <;> decide)
    have ecc : u.ecc = s.ecc := parts .ecc (by decide)
    simp only [memClean, flips, ecc]
    exact clean
  have run : exec (.keyLoad f k key) s = whenOn s (.next (lineSettle s u)) := by
    have plain : wroteWord ⟨0x69, f.num, k, 0⟩ 0 u = u := wroteWord_of_memClean _ _ clean'
    simp only [exec, execKeyLoad, Nat.mod_eq_of_lt small, up, Bool.not_true, Bool.false_eq_true, if_false]
    exact congrArg (fun y => whenOn s (.next (lineSettle s y))) plain
  have settled : Settled true u (lineSettle s u) := settled_lineSettle
  have keys : (lineSettle s u).keys = u.keys := lineSettle_moves.1 .keys (by decide)
  have same (g : AB) (j : Nat) : keyIn g j (lineSettle s u) = keyIn g j u := by
    have status : (lineSettle s u).flag (regAddr pCry 0x100) (j + 8 * g.num) = u.flag (regAddr pCry 0x100) (j + 8 * g.num) :=
      flag_congr settled.rp _
    simp only [keyIn, status, keys]
  refine after_running on run ⟨fun p hp => ?_, (same f k).trans held, settled.intRaw told, fun g j few other => (same g j).trans (others g j few other)⟩
  exact keeps_mono (keeps_trans parts lineSettle_moves.1) (fun _ h => h) p (by revert p; decide)

/-- Settles O42, by the hunt, the handlers of MODE and of the Port-ID entries, and the keys that the Keeper loads. -/
theorem lineTablesAreWritten : Obligations.LineTablesAreWritten := by
  unfold Obligations.LineTablesAreWritten
  intro m f s on
  exact ⟨fun out both rate => rateDwellExpiry_spec on out both rate,
    fun v ok => after_running on rfl (writeReg_stores ok rfl (by cases f <;> decide)),
    fun e v he clean free ok => portIdWrite_spec on he clean free ok,
    fun k key small up clean _ => keyLoad_spec on small up clean⟩

end Sys2Proof.Machine

/-!
PROOFS. The ways to stop (O9): SHUTDOWN and THERMAL, the loss of a supply, and the end of the controlled power-down.
-/

namespace Sys2Proof.Machine

variable {s t u : State}

/-! ### The start of the controlled power-down (R24, R200) -/

theorem settled_tokenSettle {w : Bool} (old : State) : Settled w s (tokenSettle old s) :=
  settled_ite (settled_refl w s) <| settled_trans (settled_ite settled_raise (settled_ite settled_raise (settled_refl w s))) <|
    settled_ite settled_raise (settled_refl w _)

theorem settled_closeWindow {w : Bool} : Settled w s (closeWindow s) :=
  (settled_tokenSettle s).after (settled_of_moves with_backup_moves rfl)

/-- The pads follow the PWR page, and keep what they drive while the logic domain is off or LOCAL_HOLD stands. -/
theorem padsNow_settled (h : Settled true s t) (phase : t.power.phase = s.power.phase) (pads : t.power.pads = s.power.pads) : padsNow t = padsNow s := by
  have held : (t.hdr pPwr).localHold = (s.hdr pPwr).localHold := by rw [(h.hdrs pPwr).1]
  have levels : t.rp pPwr 0x180 = s.rp pPwr 0x180 := h.rp
  have drives : t.rp pPwr 0x184 = s.rp pPwr 0x184 := h.rp
  rw [padsNow, padsNow, State.running, State.running, phase, pads, held, levels, drives]

/-- What stopping for a cause leaves of the claim of the controlled power-down. -/
def stoppedFor (cause : Nat) (s t : State) : Prop :=
  t.power.phase = .powerDown ∧ t.power.mode = .dormant ∧ t.power.lastCause = cause ∧
    t.pressOpen = false ∧ t.power.pads = padsNow s ∧ intRawBit t pPwr 0 = true ∧ t.nvs.committed = s.nvs.committed

theorem transition_told (dst : Mode) (cause : Nat) (s : State) : intRawBit (transition dst cause s) pPwr 0 = true := by
  unfold transition
  exact raise_intRaw _ _ _ (by decide)

/-- The start-up sequencer starts the power-down, with the pads as they stand. -/
def poweringDown (s : State) : State := s.setPower { s.power with pads := padsNow s, phase := .powerDown }

/-- The state before the start-up sequencer starts the power-down. -/
def readyToStop (cause : Nat) (s : State) : State := abortAll .b (abortAll .a (closeWindow (transition .dormant cause s)))

theorem startPowerDown_eq (cause : Nat) (s : State) : startPowerDown cause s = poweringDown (readyToStop cause s) := by
  unfold startPowerDown readyToStop poweringDown
  rfl

theorem readyToStop_spec (cause : Nat) (s : State) :
    let t := readyToStop cause s
    Settled true s t ∧ intRawBit t pPwr 0 = true ∧ t.power = { s.power with mode := .dormant, lastCause := cause } ∧ t.pressOpen = false := by
  let v := transition .dormant cause s
  let x := closeWindow v
  obtain ⟨backup, -, -, closed⟩ := closeWindow_spec v
  have later : moves [.regs, .ctrs, .hdrs, .out, .free, .links, .buf, .mac, .act, .btx, .omciUpQ] x (readyToStop cause s) :=
    abortAll_moves.after rfl abortAll_moves
  have history : Settled true s v := settled_transition
  have rest : Settled true v (readyToStop cause s) := settled_abortAll.after <| settled_abortAll.after settled_closeWindow
  refine ⟨rest.after history, rest.intRaw (transition_told .dormant cause s), ?_, ?_⟩
  · exact (later.1 .power (by decide)).trans <| (closed .power (by decide)).trans (transition_power .dormant cause s)
  · have pressed : (readyToStop cause s).backup = { v.backup with pressUs := 0 } := (later.1 .backup (by decide)).trans backup
    rw [State.pressOpen, pressed]
    rfl

theorem startPowerDown_spec (cause : Nat) (s : State) : stoppedFor cause s (startPowerDown cause s) := by
  obtain ⟨settled, told, power, pressed⟩ := readyToStop_spec cause s
  have pads : padsNow (readyToStop cause s) = padsNow s := padsNow_settled settled (by rw [power]) (by rw [power])
  have store := settled.store
  rw [startPowerDown_eq]
  generalize readyToStop cause s = y at *
  refine ⟨rfl, ?_, ?_, pressed, pads, told, ?_⟩
  · show y.power.mode = _
    rw [power]
  · show y.power.lastCause = _
    rw [power]
  · show y.nvs.committed = _
    rw [store]

/-- PWR_MODE_CMD written with SHUTDOWN alone. -/
theorem modeCmd_shutdown (m : AB) (u : State) : modeCmdHandler.run m (field 0 1 1) u = startPowerDown 0x40 u := by
  have asked : bit (field 0 1 1) 0 = true := by decide
  generalize field 0 1 1 = v at *
  unfold modeCmdHandler
  exact if_pos asked

/-- An accepted SHUTDOWN (R24). -/
theorem shutdown_stops {m : AB} (on : s.running = true) (ok : admits m pPwr 0x104 modeCmdHandler (field 0 1 1) s = true) :
    After (exec (.shutdown m) s) fun t =>
      alike [.pending, .snaps, .clock, .era, .dram, .mbx, .log, .cls, .chk, .seqs, .ecc, .keys] s t ∧ t.last = .done ∧ stoppedFor 0x40 s t := by
  obtain ⟨u, used, regs, wrote⟩ := writeReg_used ok
  rw [modeCmd_shutdown] at wrote
  have row : exec (.shutdown m) s = whenOn s (.next (writeReg m pPwr 0x104 modeCmdHandler (field 0 1 1) s)) := rfl
  have same : padsNow u = padsNow s := padsNow_congr (used.1 .power (by decide)) (keepsHdrs_of_keeps used.1 (by decide) _ List.not_mem_nil)
    (regs _ (by decide)) (regs _ (by decide))
  have store : u.nvs = s.nvs := used.1 .nvs (by decide)
  have stops := startPowerDown_moves (cause := 0x40) (s := u)
  obtain ⟨phase, mode, cause, pressed, pads, told, committed⟩ := startPowerDown_spec 0x40 u
  rw [wrote] at row
  generalize startPowerDown 0x40 u = y at *
  have moved : moves [.last, .regs, .ctrs, .hdrs, .out, .free, .power, .backup, .nvs, .links, .buf, .mac, .act, .btx, .omciUpQ] s
      (ended .ok 0 .none y) := ended_moves.after rfl <| stops.after rfl <| used.within rfl
  exact after_running on row ⟨alike_of_moves moved rfl, rfl, phase, mode, cause, pressed,
    pads.trans same, told, committed.trans (by rw [store])⟩

/-- THERMAL in operation (R205). -/
theorem thermal_stops (on : s.running = true) : After (exec .thermal s) fun t =>
    alike [.pending, .snaps, .last, .clock, .era, .dram, .masters, .mbx, .log, .cls, .tsu, .chk, .seqs, .ecc, .lfr, .psw, .keys] s t ∧
      stoppedFor 0x41 s t := by
  have phase : s.power.phase = .running := by simpa [State.running] using on
  have row : exec .thermal s = execThermal s := rfl
  exact ⟨startPowerDown 0x41 s, by rw [row, execThermal, phase], alike_of_moves startPowerDown_moves rfl, startPowerDown_spec 0x41 s⟩

/-! ### THERMAL during a start-up (R205) -/

/-- The start-up that THERMAL ends, before its tamper entry. -/
def heatedStart (s : State) : State :=
  let s := bkpChanged (resetLogic s)
  enterStep .dormant 0 (s.setPower { s.power with mode := .dormant, tries := 0, failRec := (5, 1) })

theorem heatedStart_spec (s : State) :
    let t := heatedStart s
    keeps [.power, .backup, .regs] (resetLogic s) t ∧ keepsRegs [regAddr pPwr 0x110] (resetLogic s) t ∧
      t.power = { loopReset s.power with phase := .dormant, mode := .dormant, tries := 0, failRec := (5, 1), pads := padsNow s } ∧
      t.backup = { s.backup with pressUs := 0, dirty := true } ∧ readyBits t = 0 := by
  let u := bkpChanged (resetLogic s)
  let v := u.setPower { u.power with mode := .dormant, tries := 0, failRec := (5, 1) }
  have marked : keeps [.backup] (resetLogic s) u := (bkpChanged_moves (s := resetLogic s)).1
  have named : keeps [.power] u v := (setPower_moves (s := u)).1
  have power : u.power = { loopReset s.power with pads := padsNow s } := (marked .power (by decide)).trans (resetLogic_power s)
  refine ⟨keeps_mono (keeps_trans (keeps_trans marked named) (enterStep_keeps .dormant 0 v)) (by decide), enterStep_regs .dormant 0 v, ?_, ?_,
    enterStep_ready .dormant 0 v⟩
  · refine (enterStep_power .dormant 0 v).trans ?_
    show { u.power with phase := Phase.dormant, mode := Mode.dormant, tries := 0, failRec := (5, 1) } = _
    rw [power]
  · refine ((enterStep_keeps .dormant 0 v) .backup (by decide)).trans ?_
    show { (resetLogic s).backup with dirty := true } = _
    rw [resetLogic_backup]

/-- A register of another page, or below TAMPERS, is none of a tamper entry's. -/
theorem not_mem_tamperRegs {p off : Nat} (short : off < 0x1000) (h : p ≠ pBkp) (s : State) : regAddr p off ∉ tamperRegs s := fun mem => by
  obtain ⟨o, same, -, high⟩ := of_mem_tamperRegs mem
  simp only [regAddr] at same
  omega

/-- The registers of a tamper entry follow the pointer. -/
theorem tamperRegs_congr (same : t.fld (regAddr pBkp 0x138) 0 4 = s.fld (regAddr pBkp 0x138) 0 4) : tamperRegs t = tamperRegs s := by
  rw [tamperRegs, tamperRegs, same]

theorem thermal_endsStart (starting : s.power.phase ∈ [.step1, .step2, .step3, .step4, .failed]) : After (exec .thermal s) fun t =>
      logicReset (tamperRegs s) s t ∧ livesKept s t ∧ t.nvs = storeKept s ∧ t.free = s.free ∧ readyBits t = 0 ∧
      t.power = { loopReset s.power with phase := .dormant, mode := .dormant, tries := 0, failRec := (5, 1), pads := padsNow s } ∧
      (s.canonical = true → tampered 0x13 s t) := by
  have row : exec .thermal s = .next (tamper 0x13 5 (heatedStart s)) := by
    have row : exec .thermal s = execThermal s := rfl
    simp only [List.mem_cons, List.not_mem_nil, or_false] at starting
    obtain phase | phase | phase | phase | phase := starting <;> rw [row, execThermal, phase] <;> rfl
  obtain ⟨parts, regs, power, backup, ready⟩ := heatedStart_spec s
  have off : (heatedStart s).logicOn = false := by
    rw [State.logicOn, power]
    rfl
  have later := tamper_keeps_off off 0x13 5
  have entry := tamper_keepsRegs 0x13 5 (heatedStart s)
  have words := tamper_tampered (show 0x13 < 256 by decide) 5 (heatedStart s)
  have told : (tamper 0x13 5 (heatedStart s)).backup = tamperCount (heatedStart s) := tamper_backup _ _ _
  generalize heatedStart s = y at *
  generalize tamper 0x13 5 y = t at *
  have kept : keeps [.power, .backup, .regs] (resetLogic s) t := keeps_mono (keeps_trans parts later) (by decide)
  have nvs : t.nvs = (resetLogic s).nvs := kept .nvs (by decide)
  have log (form : s.canonical = true) : y.fld (regAddr pBkp 0x138) 0 4 = s.fld (regAddr pBkp 0x138) 0 4 ∧ y.rp pBkp 0x12C = s.rp pBkp 0x12C := by
    obtain ⟨pointer, count⟩ := resetLogic_log form
    exact ⟨(congrArg (bits · 0 4) (regs _ (by decide))).trans pointer, (regs _ (by decide)).trans count⟩
  refine ⟨t, row, logicReset_then (logicReset_resetLogic s) (keeps_mono kept (by decide)) (by rw [nvs]) (by rw [nvs]) (by rw [nvs])
    (fun form => ?_) (fun c => ?_) (by simp), fun c => ?_, nvs.trans (resetLogic_nvs s), ?_, ?_, ?_, fun form => ?_⟩
  · rw [tamperRegs_congr (log form).1] at entry
    exact keepsRegs_trans regs entry
  · exact (entry _ (not_mem_tamperRegs (by decide) (by cases c <;> decide) y)).trans (regs _ (by cases c <;> decide))
  · rw [show t.opt = (resetLogic s).opt from kept .opt (by decide)]
    exact resetLogic_livesKept s c
  · exact (kept .free (by decide)).trans (resetLogic_free s)
  · exact (congrArg (bits · 0 4) (entry _ (not_mem_tamperRegs (by decide) (by decide) y))).trans ready
  · exact (later .power (by decide)).trans power
  · obtain ⟨pointer, count⟩ := log form
    obtain ⟨ev, valid, seq, next, at_, counted⟩ := words
    rw [pointer] at ev valid seq at_
    rw [backup] at seq next
    exact ⟨ev, valid, seq, next, at_, counted.trans (by rw [count])⟩

/-! ### Uncontrolled losses (R30, R527, R551) -/

/-- The registers of the two copies of the backup record. -/
def copyRegs : List Nat := (List.range 16).map (fun i => regAddr pBkp (0x400 + 4 * i))

theorem mem_copyRegs {a : Nat} : a ∈ copyRegs ↔ ∃ i, i < 16 ∧ a = regAddr pBkp (0x400 + 4 * i) := by
  simp only [copyRegs, List.mem_map, List.mem_range]
  exact ⟨fun ⟨i, hi, h⟩ => ⟨i, hi, h.symm⟩, fun ⟨i, hi, h⟩ => ⟨i, hi, h.symm⟩⟩

/-- A copy is written inside the registers of the copies. -/
theorem writeCopy_keepsRegs {c : Nat} {l : List Word} (hc : c ≤ 1) (short : l.length ≤ 8) (s : State) : keepsRegs copyRegs s (writeCopy c l s) :=
  fun a ha => writeCopy_rd (fun i hi same => ha (mem_copyRegs.mpr ⟨8 * c + i, by omega, by rw [same]; congr 1; omega⟩)) s

theorem tearRecord_keepsRegs (s : State) : keepsRegs copyRegs s (tearRecord s) := by
  have first (a : Nat) : s.takeFree.2.rd a = s.rd a := congrFun (rd_of_keeps (takeFree_moves (s := s)).1 (by decide)) a
  have second (a : Nat) : s.takeFree.2.takeFree.2.rd a = s.takeFree.2.rd a :=
    congrFun (rd_of_keeps (takeFree_moves (s := s.takeFree.2)).1 (by decide)) a
  have length := recordWords_length s
  refine ite_all (P := keepsRegs copyRegs s) (fun a ha => (writeCopy_keepsRegs (nextCopy_le s) ?_ _ a ha).trans ((second a).trans (first a)))
    (fun a _ => first a)
  rw [List.length_append, List.length_take, List.length_singleton]
  omega

/-- What a loss without warning cuts off: a backup record under way, the modules, and what waited for the store. -/
def cutOff (s : State) : State :=
  let t := if s.logicOn then tearRecord s else s
  { t with opt := Pair.both OptSt.reset, nvs := { t.nvs with pend := [], histQ := [] } }

theorem cutOff_moves : moves [.regs, .free, .opt, .nvs] s (cutOff s) := by
  have torn : moves [.regs, .free] s (if s.logicOn then tearRecord s else s) := moves_ite tearRecord_moves moves_rfl
  unfold cutOff
  generalize (if s.logicOn then tearRecord s else s) = t at *
  have bare : moves [.regs, .free, .opt] s { t with opt := Pair.both OptSt.reset } := with_opt_moves.after rfl <| torn.within rfl
  exact with_nvs_moves.after rfl <| bare.within rfl

theorem cutOff_spec (s : State) :
    let t := cutOff s
    keepsRegs copyRegs s t ∧ t.opt = ⟨OptSt.reset, OptSt.reset⟩ ∧ t.nvs = { s.nvs with pend := [], histQ := [] } ∧
      (s.logicOn = false → t.free = s.free) ∧ padsNow t = padsNow s := by
  intro t
  have kept := (cutOff_moves (s := s)).1
  have regs : keepsRegs copyRegs s t := by
    refine ite_all (P := fun u : State => keepsRegs copyRegs s { u with opt := Pair.both OptSt.reset, nvs := { u.nvs with pend := [], histQ := [] } })
      ?_ (keepsRegs_refl _ _)
    exact tearRecord_keepsRegs s
  refine ⟨regs, rfl, ?_, fun off => ?_, padsNow_congr (kept .power (by decide)) ?_ (regs _ (by decide)) (regs _ (by decide))⟩
  · refine ite_all (P := fun u : State => ({ u.nvs with pend := [], histQ := [] } : NvsSt) = { s.nvs with pend := [], histQ := [] }) ?_ rfl
    rw [show (tearRecord s).nvs = s.nvs from tearRecord_moves.1 .nvs (by decide)]
  · unfold t cutOff
    rw [off]
    rfl
  · exact keepsHdrs_of_keeps kept (by decide) _ List.not_mem_nil

/-- The end of a loss that counts: the terminal is without power, and LOSSES counts. -/
def unpowered (s : State) : State :=
  let t := enterStep .unpowered 0 (s.setPower { s.power with mode := .dormant, tries := 0, lossUnrecorded := true })
  let t := t.setNvs { t.nvs with stopLoss := none }
  bkpChanged (t.bump (regAddr pBkp 0x128) 1)

theorem unpowered_spec (s : State) :
    let t := unpowered s
    keeps [.power, .regs, .nvs, .backup] s t ∧ keepsRegs [regAddr pPwr 0x110, regAddr pBkp 0x128] s t ∧
      t.power = { s.power with phase := .unpowered, mode := .dormant, tries := 0, lossUnrecorded := true } ∧
      t.nvs = { s.nvs with stopLoss := none } ∧ t.backup = { s.backup with dirty := true } ∧ readyBits t = 0 ∧
      t.rp pBkp 0x128 = s.rp pBkp 0x128 + 1 := by
  let v := enterStep .unpowered 0 (s.setPower { s.power with mode := .dormant, tries := 0, lossUnrecorded := true })
  let w := v.setNvs { v.nvs with stopLoss := none }
  have entered : keepsRegs [regAddr pPwr 0x110] s v := enterStep_regs _ _ _
  have moved : moves [.power, .regs, .nvs, .backup] s (unpowered s) :=
    bkpChanged_moves.after rfl <| bump_moves.after rfl <| setNvs_moves.after rfl <| enterStep_moves.after rfl <| setPower_moves.within rfl
  have other {a : Nat} (h : a ≠ regAddr pBkp 0x128) : (unpowered s).rd a = v.rd a := State.rd_wr_other w h _
  refine ⟨moved.1, fun a ha => ?_, rfl, rfl, rfl, ?_, ?_⟩
  · simp only [List.mem_cons, List.not_mem_nil, or_false, not_or] at ha
    exact (other ha.2).trans (entered a (by simpa using ha.1))
  · exact (congrArg (bits · 0 4) (other (by decide))).trans (enterStep_ready .unpowered 0 _)
  · refine (State.rd_wr_same w _ _).trans (congrArg (· + word 1) ?_)
    exact entered _ (by decide)

theorem uncontrolled_eq (counts : s.power.mode ≠ .dormant ∨ s.power.phase = .powerDown) :
    uncontrolled s = unpowered (resetLogic (cutOff s)) := by
  have counted : (s.power.mode != .dormant || s.power.phase == .powerDown) = true := by
    simpa using counts
  unfold uncontrolled
  simp only [counted, Bool.or_true, if_true]
  rfl

/-- What an uncontrolled loss leaves, with the pads that it gives. -/
def lostFor (s : State) (pads : Word × Word) (t : State) : Prop :=
  logicReset (regAddr pBkp 0x128 :: copyRegs) s t ∧ readyBits t = 0 ∧ t.opt = ⟨OptSt.reset, OptSt.reset⟩ ∧
    t.nvs = { s.nvs with pend := [], histQ := [], deferring := false, stopLoss := none } ∧
    t.power = { loopReset s.power with phase := .unpowered, mode := .dormant, tries := 0, lossUnrecorded := true, pads := pads } ∧
    t.backup = { s.backup with pressUs := 0, dirty := true } ∧
    (s.canonical = true → t.rp pBkp 0x128 = s.rp pBkp 0x128 + 1) ∧ (s.logicOn = false → t.free = s.free)

/-- Cages whose records are all written are empty after a reset. -/
theorem resetLogic_opt_written (written : ∀ c, (s.opt.get c).live = none ∧ (s.opt.get c).leaving = []) :
    (resetLogic s).opt = ⟨OptSt.reset, OptSt.reset⟩ := by
  have empty (c : AB) : (resetLogic s).opt.get c = OptSt.reset := by
    rw [resetLogic_livesKept s c, (written c).1, (written c).2]
    rfl
  have a := empty .a
  have b := empty .b
  generalize (resetLogic s).opt = o at *
  cases o
  exact congr (congrArg Pair.mk a) b

/-- LOSSES is of the backup domain, which a reset leaves (R179). -/
theorem resetLogic_losses (form : s.canonical = true) : (resetLogic s).rp pBkp 0x128 = s.rp pBkp 0x128 :=
  word_ext fun i hi => (congrArg (bit · i) (resetLogic_rd form (by decide))).trans (bit_afterReset_kept (by decide) _ s rfl hi)

theorem uncontrolled_spec (counts : s.power.mode ≠ .dormant ∨ s.power.phase = .powerDown) : lostFor s (padsNow s) (uncontrolled s) := by
  obtain ⟨cutRegs, opt, nvs, free, pads⟩ := cutOff_spec s
  have cut := cutOff_moves (s := s)
  have wiped := logicReset_resetLogic (cutOff s)
  have power := resetLogic_power (cutOff s)
  have backup := resetLogic_backup (cutOff s)
  have store := resetLogic_nvs (cutOff s)
  have cages := resetLogic_opt_written (s := cutOff s) fun c => by rw [opt]; cases c <;> exact ⟨rfl, rfl⟩
  have losses := resetLogic_losses (s := cutOff s)
  have unused := resetLogic_free (cutOff s)
  obtain ⟨kept, regs, stopped, stop, marked, ready, counted⟩ := unpowered_spec (resetLogic (cutOff s))
  rw [uncontrolled_eq counts]
  generalize cutOff s = c at *
  generalize resetLogic c = r at *
  generalize unpowered r = t at *
  have samePower : c.power = s.power := cut.1 .power (by decide)
  have sameBackup : c.backup = s.backup := cut.1 .backup (by decide)
  have later : logicReset [regAddr pBkp 0x128] c t := logicReset_then wiped (keeps_mono kept (by decide)) (by rw [stop]) (by rw [stop])
    (by rw [stop]) (fun _ => regs) (fun cage => regs _ (by cases cage <;> decide)) (by simp)
  refine ⟨logicReset_after later (alike_of_moves cut rfl) cut.2 cutRegs (fun cage => by cases cage <;> decide)
    (fun _ h => List.mem_cons_of_mem _ h) (by simp), ready, (kept .opt (by decide)).trans cages, ?_, ?_, ?_, fun form => ?_, fun off => ?_⟩
  · rw [stop, store, storeKept, nvs]
    rfl
  · rw [stopped, power, samePower, pads]
  · rw [marked, backup, sameBackup]
  · rw [counted, losses (cut.2 form)]
    exact congrArg (· + 1) (cutRegs _ (by decide))
  · exact (kept .free (by decide)).trans (unused.trans (free off))

/-- The pads float with VIO. -/
theorem lostFor_pads {pads : Word × Word} (lost : lostFor s pads t) (new : Word × Word) :
    lostFor s new (t.setPower { t.power with pads := new }) := by
  obtain ⟨wiped, ready, opt, nvs, power, backup, losses, free⟩ := lost
  refine ⟨logicReset_then (u := t.setPower { t.power with pads := new }) wiped (keeps_mono (setPower_moves (s := t)).1 (by decide)) rfl rfl rfl
    (fun _ => keepsRegs_refl _ _) (fun _ => rfl) (fun _ h => h), ready, opt, nvs, ?_, backup, losses, free⟩
  show { t.power with pads := new } = _
  rw [power]

theorem powerLost_eq (powered : s.power.phase ≠ .unpowered) (awake : s.power.phase ≠ .dormant) : powerLost s = uncontrolled s := by
  unfold powerLost
  split
  · exact absurd ‹_› powered
  · exact absurd ‹_› awake
  · rfl

/-- Without power, or DORMANT, a loss of a supply takes no logic (R30). -/
theorem powerLost_asleep (h : s.power.phase = .dormant ∨ s.power.phase = .unpowered) :
    (powerLost s).power = { s.power with phase := .unpowered } ∧ keeps [.power] s (powerLost s) := by
  obtain h | h := h
  · rw [powerLost, h]
    exact ⟨rfl, (setPower_moves (s := s)).1⟩
  · rw [powerLost, h]
    refine ⟨?_, keeps_refl _ _⟩
    show s.power = _
    rw [← h]

/-! ### What the controlled power-down writes (R201, R522) -/

/-- The registers that count block writes and life records written over. -/
def storeRegs : List Nat := [regAddr pNvs 0x140, regAddr (pOpt .a) 0x1C4]

/-- Waiting blocks `l` are written, as far as registers and the firmware go, and nothing of the terminal changes but the store, its counts and
the cages. -/
structure Flushed (l : List NvItem) (s t : State) : Prop where
  parts : keeps [.nvs, .regs, .free, .hdrs, .links, .opt] s t
  regs : keepsRegs storeRegs s t
  written : .firmware ∈ l → t.nvs.fw = s.fw.nv
  left : .firmware ∉ l → t.nvs.fw = s.nvs.fw
  committed : ∀ a, a ∉ storeRegs → tblGet (resetWord a) a t.nvs.committed =
    if .reg a ∈ l then s.rd a else tblGet (resetWord a) a s.nvs.committed

/-- The history and the lists of what waits are the same. -/
def SameWaits (s t : State) : Prop := t.nvs.hist = s.nvs.hist ∧ t.nvs.histQ = s.nvs.histQ ∧ t.nvs.pend = s.nvs.pend

theorem SameWaits.trans {u : State} (h : SameWaits s t) (h' : SameWaits t u) : SameWaits s u :=
  ⟨h'.1.trans h.1, h'.2.1.trans h.2.1, h'.2.2.trans h.2.2⟩

theorem Flushed.trans {l m : List NvItem} {u : State} (h : Flushed l s t) (h' : Flushed m t u) : Flushed (l ++ m) s u := by
  have fw : t.fw = s.fw := h.parts .fw (by decide)
  refine ⟨keeps_mono (keeps_trans h.parts h'.parts) (by decide), fun a ha => (h'.regs a ha).trans (h.regs a ha), fun mem => ?_, fun absent => ?_,
    fun a ha => ?_⟩
  · by_cases late : .firmware ∈ m
    · rw [h'.written late, fw]
    · rw [h'.left late, h.written ((List.mem_append.mp mem).resolve_right late)]
  · rw [List.mem_append, not_or] at absent
    rw [h'.left absent.2, h.left absent.1]
  · rw [h'.committed a ha, h.committed a ha, h.regs a ha]
    by_cases late : NvItem.reg a ∈ m <;> simp [late]

/-- Blocks that hold no register and no firmware. -/
theorem Flushed.of_other {x : NvItem} (h : Flushed [] s t) (fw : x ≠ .firmware) (reg : ∀ a, x ≠ .reg a) : Flushed [x] s t := by
  refine ⟨h.parts, h.regs, fun mem => absurd (List.mem_singleton.mp mem).symm fw, fun _ => h.left List.not_mem_nil, fun a ha => ?_⟩
  rw [h.committed a ha, if_neg List.not_mem_nil, if_neg fun mem => reg a (List.mem_singleton.mp mem).symm]

theorem flushed_refl (s : State) : Flushed [] s s :=
  ⟨keeps_refl _ _, keepsRegs_refl _ _, fun h => absurd h List.not_mem_nil, fun _ => rfl, fun _ _ => rfl⟩

/-- A step that leaves the committed registers and the firmware of the store. -/
theorem flushed_of (parts : keeps [.nvs, .regs, .free, .hdrs, .links, .opt] s t) (regs : keepsRegs storeRegs s t)
    (fw : t.nvs.fw = s.nvs.fw) (committed : t.nvs.committed = s.nvs.committed) : Flushed [] s t :=
  ⟨parts, regs, fun h => absurd h List.not_mem_nil, fun _ => fw, fun _ _ => by rw [committed]; rfl⟩

theorem wearBlock_flushed (s : State) : Flushed [] s (wearBlock s) ∧ SameWaits s (wearBlock s) := by
  obtain ⟨⟨w, store⟩, -, regs, parts⟩ := wearBlock_spec s
  exact ⟨flushed_of (keeps_mono parts (by decide)) (keepsRegs_mono regs (by decide)) (by rw [store]) (by rw [store]),
    by rw [store], by rw [store], by rw [store]⟩

theorem setNvs_flushed {n : NvsSt} (fw : n.fw = s.nvs.fw) (committed : n.committed = s.nvs.committed) : Flushed [] s (s.setNvs n) :=
  flushed_of (keeps_mono (setNvs_moves (s := s)).1 (by decide)) (keepsRegs_refl _ _) fw committed

/-- A life record is put into the store. -/
theorem storeLife_flushed (r : LifeRec) (s : State) : Flushed [] s (storeLife r s) ∧ SameWaits s (storeLife r s) := by
  have with_life (l : List LifeRec) : Flushed [] s (s.setNvs { s.nvs with life := l }) ∧ SameWaits s (s.setNvs { s.nvs with life := l }) :=
    ⟨setNvs_flushed rfl rfl, rfl, rfl, rfl⟩
  unfold storeLife
  refine ite_all (P := fun t => Flushed [] s t ∧ SameWaits s t) (with_life _) (ite_all (P := fun t => Flushed [] s t ∧ SameWaits s t) (with_life _) ?_)
  cases oldestLife s.nvs.life s with
  | none => exact ⟨flushed_refl s, rfl, rfl, rfl⟩
  | some o =>
    obtain ⟨kept, same⟩ := with_life (s.nvs.life.map (fun x => if sameKey o x then r else x))
    have counted := bumpFld_moves (s := s.setNvs { s.nvs with life := s.nvs.life.map (fun x => if sameKey o x then r else x) })
      (a := regAddr (pOpt .a) 0x1C4) (lo := 16) (w := 16) (k := 1)
    refine ⟨kept.trans (flushed_of (keeps_mono counted.1 (by decide)) ?_ rfl rfl), same⟩
    exact keepsRegs_mono (setFld_keepsRegs _ _ _ _ _) (by decide)

/-- The life records of one cage are written, in part or whole: the store changes by them alone, and the other cage not at all. -/
def CageWritten (c : AB) (s t : State) : Prop := Flushed [] s t ∧ SameWaits s t ∧ ∀ d, d ≠ c → t.opt.get d = s.opt.get d

theorem cageWritten_refl (c : AB) (s : State) : CageWritten c s s := ⟨flushed_refl s, ⟨rfl, rfl, rfl⟩, fun _ _ => rfl⟩

theorem CageWritten.trans {c : AB} {u : State} (h : CageWritten c s t) (h' : CageWritten c t u) : CageWritten c s u :=
  ⟨h.1.trans h'.1, h.2.1.trans h'.2.1, fun d hd => (h'.2.2 d hd).trans (h.2.2 d hd)⟩

theorem cageWritten_wearBlock (c : AB) (s : State) : CageWritten c s (wearBlock s) := by
  obtain ⟨kept, same⟩ := wearBlock_flushed s
  have opt : (wearBlock s).opt = s.opt := wearBlock_moves.1 .opt (by decide)
  exact ⟨kept, same, fun d _ => by rw [opt]⟩

theorem cageWritten_setOpt (c : AB) (x : OptSt) (s : State) : CageWritten c s (s.setOpt c x) :=
  ⟨flushed_of (keeps_mono (setOpt_moves (s := s)).1 (by decide)) (keepsRegs_refl _ _) rfl rfl, ⟨rfl, rfl, rfl⟩,
    fun _ hd => Pair.get_set_other _ hd _⟩

theorem cageWritten_storeLife (c : AB) (r : LifeRec) (s : State) : CageWritten c s (storeLife r s) := by
  obtain ⟨kept, same⟩ := storeLife_flushed r s
  have opt : (storeLife r s).opt = s.opt := storeLife_moves.1 .opt (by decide)
  exact ⟨kept, same, fun d _ => by rw [opt]⟩

theorem cageWritten_writeLife (c : AB) (s : State) : CageWritten c s (writeLife c s) := by
  unfold writeLife
  dsimp only
  split
  · exact (cageWritten_storeLife c _ s).trans (cageWritten_setOpt c _ _)
  · exact cageWritten_refl c s

theorem cageWritten_writeLeft (c : AB) (s : State) : CageWritten c s (writeLeft c s) := by
  unfold writeLeft
  dsimp only
  split
  · next r l _ =>
    have opt : (storeLife (stampLife r s) s).opt = s.opt := storeLife_moves.1 .opt (by decide)
    rw [← opt]
    exact (cageWritten_storeLife c _ s).trans (cageWritten_setOpt c _ _)
  · exact cageWritten_refl c s

/-- The records of the modules that have left a cage are written. -/
theorem cageWritten_left {α : Type} (c : AB) (l : List α) (s : State) : CageWritten c s (l.foldl (fun s _ => writeLeft c (wearBlock s)) s) := by
  induction l generalizing s with
  | nil => exact cageWritten_refl c s
  | cons _ l ih => exact ((cageWritten_wearBlock c s).trans (cageWritten_writeLeft c _)).trans (ih _)

/-- Every life record of one cage is written, and none waits there any longer. -/
theorem checkpointLife_spec (c : AB) (s : State) :
    let t := checkpointLife c s
    CageWritten c s t ∧ (t.opt.get c).live = none ∧ (t.opt.get c).leaving = [] := by
  let u := (s.opt.get c).leaving.foldl (fun s _ => writeLeft c (wearBlock s)) s
  let v := if (u.opt.get c).live.isSome then writeLife c (wearBlock u) else u
  have written : CageWritten c u v := ite_all (P := CageWritten c u) ((cageWritten_wearBlock c u).trans (cageWritten_writeLife c _)) (cageWritten_refl c u)
  have emptied : (checkpointLife c s).opt.get c = { v.opt.get c with live := none, leaving := [] } := Pair.get_set_same _ _ _
  refine ⟨((cageWritten_left c _ s).trans written).trans (cageWritten_setOpt c _ v), ?_, ?_⟩
  · rw [emptied]
  · rw [emptied]

theorem commitItem_flushed (x : NvItem) (s : State) : Flushed [x] s (commitItem x s) ∧ SameWaits s (commitItem x s) := by
  cases x with
  | reg a =>
    refine ⟨⟨keeps_mono (setNvs_moves (s := s)).1 (by decide), keepsRegs_refl _ _, fun h => by simp at h, fun _ => rfl,
      fun b _ => ?_⟩, rfl, rfl, rfl⟩
    have stored : (commitItem (.reg a) s).nvs.committed = tblSet (resetWord a) a (s.rd a) s.nvs.committed := rfl
    rw [stored]
    by_cases same : b = a
    · subst same
      rw [tblGet_tblSet_same, if_pos (List.mem_singleton.mpr rfl)]
    · rw [tblGet_tblSet_other _ _ _ same, if_neg fun h => same (NvItem.reg.inj (List.mem_singleton.mp h))]
  | firmware =>
    refine ⟨⟨keeps_mono (setNvs_moves (s := s)).1 (by decide), keepsRegs_refl _ _, fun _ => rfl,
      fun h => absurd (List.mem_singleton.mpr rfl) h, fun b _ => ?_⟩, rfl, rfl, rfl⟩
    have other : NvItem.reg b ∉ [NvItem.firmware] := by simp
    rw [if_neg other]
    rfl
  | life c =>
    obtain ⟨kept, same, -⟩ := cageWritten_writeLife (if c = 0 then .a else .b) s
    exact ⟨kept.of_other (by simp) (by simp), same⟩
  | left c =>
    obtain ⟨kept, same, -⟩ := cageWritten_writeLeft (if c = 0 then .a else .b) s
    exact ⟨kept.of_other (by simp) (by simp), same⟩
  | checkpoint =>
    have kept : Flushed [] s (commitItem .checkpoint s) := setNvs_flushed rfl rfl
    exact ⟨kept.of_other (by simp) (by simp), rfl, rfl, rfl⟩
  | spares m b =>
    have kept : Flushed [] s (commitItem (.spares m b) s) := setNvs_flushed rfl rfl
    exact ⟨kept.of_other (by simp) (by simp), rfl, rfl, rfl⟩

/-- Every waiting block is written. -/
theorem flushed_blocks (l : List NvItem) (s : State) :
    let t := l.foldl (fun s x => commitItem x (wearBlock s)) s
    Flushed l s t ∧ SameWaits s t := by
  induction l generalizing s with
  | nil => exact ⟨flushed_refl s, rfl, rfl, rfl⟩
  | cons x l ih =>
    obtain ⟨worn, waits⟩ := wearBlock_flushed s
    obtain ⟨one, waits'⟩ := commitItem_flushed x (wearBlock s)
    obtain ⟨rest, waits''⟩ := ih (commitItem x (wearBlock s))
    exact ⟨(worn.trans one).trans rest, (waits.trans waits').trans waits''⟩

/-- The newest 16 entries of a history. -/
def newest (l : List (Word × Word)) : List (Word × Word) := l.drop (l.length - 16)

theorem newest_append (h l : List (Word × Word)) (e : Word × Word) : newest (newest (h ++ [e]) ++ l) = newest (h ++ e :: l) := by
  have whole : h ++ e :: l = (h ++ [e]) ++ l := by simp
  rw [whole]
  generalize h ++ [e] = k
  unfold newest
  rw [← List.drop_append_of_le_length (l₂ := l) (by omega : k.length - 16 ≤ k.length), List.drop_drop, List.length_drop]
  congr 1
  rw [List.length_append]
  omega

theorem flushed_history (l : List (Word × Word)) (s : State) :
    let t := l.foldl (fun s e => commitHist e (wearBlock s)) s
    Flushed [] s t ∧ (s.nvs.hist.length ≤ 16 → t.nvs.hist = newest (s.nvs.hist ++ l)) := by
  induction l generalizing s with
  | nil =>
    refine ⟨flushed_refl s, fun short => ?_⟩
    rw [List.append_nil, newest, Nat.sub_eq_zero_of_le short]
    rfl
  | cons e l ih =>
    obtain ⟨worn, hist, -⟩ := wearBlock_flushed s
    have stored : (commitHist e (wearBlock s)).nvs.hist = newest (s.nvs.hist ++ [e]) := by
      rw [← hist]
      rfl
    obtain ⟨rest, kept⟩ := ih (commitHist e (wearBlock s))
    have entry : Flushed [] (wearBlock s) (commitHist e (wearBlock s)) := setNvs_flushed rfl rfl
    refine ⟨worn.trans (entry.trans rest), fun _ => ?_⟩
    refine (kept ?_).trans ?_
    · rw [stored, newest, List.length_drop]
      omega
    · rw [stored, newest_append]

theorem flushNvs_flushed (s : State) :
    let t := flushNvs s
    Flushed s.nvs.pend s t ∧ (s.nvs.hist.length ≤ 16 → t.nvs.hist = newest (s.nvs.hist ++ s.nvs.histQ)) ∧ t.nvs.histQ = [] ∧ t.nvs.pend = [] := by
  let u := s.nvs.pend.foldl (fun s x => commitItem x (wearBlock s)) s
  let v := u.nvs.histQ.foldl (fun s e => commitHist e (wearBlock s)) u
  obtain ⟨blocks, hist, queue, -⟩ := flushed_blocks s.nvs.pend s
  obtain ⟨entries, newer⟩ := flushed_history u.nvs.histQ u
  have emptied : Flushed [] v (flushNvs s) := setNvs_flushed (n := { v.nvs with pend := [], histQ := [], deferring := false }) rfl rfl
  have whole := blocks.trans (entries.trans emptied)
  refine ⟨?_, fun short => ?_, rfl, rfl⟩
  · simpa using whole
  · have stored : (flushNvs s).nvs.hist = newest (u.nvs.hist ++ u.nvs.histQ) := newer (by rw [hist]; exact short)
    rw [stored, hist, queue]

/-! ### The end of the controlled power-down (R180, R201) -/

/-- The store at the end of the controlled power-down, before the logic domain goes. -/
def storedState (s : State) : State :=
  recordLoss (commitItem .checkpoint (wearBlock (checkpointLife .b (checkpointLife .a (flushNvs s)))))

theorem backupCounts_congr (regs : keepsRegs storeRegs s t) : backupCounts t = backupCounts s := by
  refine List.map_congr_left fun i small => congrArg BitVec.toNat (regs (regAddr pBkp (0x124 + 4 * i)) ?_)
  have short : i < 4 := List.mem_range.mp small
  simp only [storeRegs, List.mem_cons, List.not_mem_nil, or_false, regAddr, pBkp, pNvs, pOpt, AB.num]
  omega

/-- The checkpoint is written (R229). -/
theorem commitCheckpoint_flushed (s : State) :
    let t := commitItem .checkpoint (wearBlock s)
    Flushed [] s t ∧ SameWaits s t ∧ t.opt = s.opt ∧ t.nvs.checkpoint = backupCounts s := by
  obtain ⟨worn, waits⟩ := wearBlock_flushed s
  have opt : (wearBlock s).opt = s.opt := wearBlock_moves.1 .opt (by decide)
  have counts := backupCounts_congr worn.regs
  generalize wearBlock s = u at *
  have stored : Flushed [] u (commitItem .checkpoint u) := setNvs_flushed rfl rfl
  exact ⟨worn.trans stored, waits, opt, counts⟩

/-- The loss count is written (R180). -/
theorem recordLoss_flushed (s : State) :
    let t := recordLoss s
    Flushed [] s t ∧ SameWaits s t ∧ t.opt = s.opt ∧ t.nvs.checkpoint = s.nvs.checkpoint ∧ t.nvs.stopLoss = some (bufferPackets s) := by
  obtain ⟨⟨w, store⟩, regs, parts, -⟩ := recordLoss_spec s
  exact ⟨flushed_of (keeps_mono parts (by decide)) (keepsRegs_mono regs (by decide)) (congrArg NvsSt.fw store :) (congrArg NvsSt.committed store :),
    ⟨(congrArg NvsSt.hist store :), (congrArg NvsSt.histQ store :), (congrArg NvsSt.pend store :)⟩, parts .opt (by decide),
    (congrArg NvsSt.checkpoint store :), (congrArg NvsSt.stopLoss store :)⟩

/-- The records of both cages are written. -/
theorem checkpointLives_spec (s : State) :
    let t := checkpointLife .b (checkpointLife .a s)
    Flushed [] s t ∧ SameWaits s t ∧ ∀ c, (t.opt.get c).live = none ∧ (t.opt.get c).leaving = [] := by
  obtain ⟨⟨keptA, waitsA, -⟩, liveA, leftA⟩ := checkpointLife_spec .a s
  generalize checkpointLife .a s = a at *
  obtain ⟨⟨keptB, waitsB, other⟩, liveB, leftB⟩ := checkpointLife_spec .b a
  refine ⟨keptA.trans keptB, waitsA.trans waitsB, fun c => ?_⟩
  cases c with
  | a =>
    rw [other .a (by decide)]
    exact ⟨liveA, leftA⟩
  | b => exact ⟨liveB, leftB⟩

theorem storedState_spec (s : State) :
    let t := storedState s
    Flushed s.nvs.pend s t ∧ t.nvs.pend = [] ∧ t.nvs.histQ = [] ∧
      (s.nvs.hist.length ≤ 16 → t.nvs.hist = newest (s.nvs.hist ++ s.nvs.histQ)) ∧
      t.nvs.stopLoss = some (bufferPackets s) ∧ t.nvs.checkpoint = backupCounts s ∧
      ∀ c, (t.opt.get c).live = none ∧ (t.opt.get c).leaving = [] := by
  unfold storedState
  obtain ⟨flushed, hist, queue, pend⟩ := flushNvs_flushed s
  generalize flushNvs s = f at *
  obtain ⟨lives, waits, empty⟩ := checkpointLives_spec f
  generalize checkpointLife .b (checkpointLife .a f) = b at *
  obtain ⟨marked, waits', opt, counts⟩ := commitCheckpoint_flushed b
  generalize commitItem .checkpoint (wearBlock b) = k at *
  obtain ⟨lost, waits'', opt', counts', loss⟩ := recordLoss_flushed k
  generalize recordLoss k = t at *
  have before : Flushed s.nvs.pend s b := by simpa using flushed.trans lives
  have through : Flushed s.nvs.pend s k := by simpa using before.trans marked
  obtain ⟨hist', queue', pend'⟩ := (waits.trans waits').trans waits''
  have buf : k.buf = s.buf := through.parts .buf (by decide)
  have mac : k.mac = s.mac := through.parts .mac (by decide)
  refine ⟨by simpa using through.trans lost, pend'.trans pend, queue'.trans queue, fun short => hist'.trans (hist short), ?_, ?_, fun c => ?_⟩
  · rw [loss, bufferPackets, bufferPackets, buf, mac]
  · rw [counts', counts, backupCounts_congr before.regs]
  · rw [opt', opt]
    exact empty c

/-- The registers after a copy and HEAD_GEN are written, whatever they are. -/
theorem copyWritten_rd {c a : Nat} {l : List Word} (hc : c ≤ 1) (short : l.length ≤ 8) (g : Word) (b : BackupSt) (s : State)
    (ha : a ∉ copyRegs ++ [regAddr pBkp 0x134]) :
    State.rd { (writeCopy c l s).wp pBkp 0x134 g with backup := b } a = s.rd a := by
  simp only [List.mem_append, List.mem_singleton, not_or] at ha
  have copied := writeCopy_keepsRegs hc short s a ha.1
  generalize writeCopy c l s = u at *
  exact (State.rd_wr_other u ha.2 g).trans copied

/-- A record write stays within the copies and HEAD_GEN. -/
theorem writeRecord_keepsRegs (s : State) : keepsRegs (copyRegs ++ [regAddr pBkp 0x134]) s (writeRecord s) := fun a ha => by
  rw [writeRecord_eq]
  exact copyWritten_rd (nextCopy_le s) (le_of_eq (recordWords_length s)) _ _ s ha

/-- What the end of the controlled power-down leaves. -/
def stoppedWith (s t : State) : Prop :=
  logicReset (copyRegs ++ [regAddr pBkp 0x134, regAddr pNvs 0x140, regAddr (pOpt .a) 0x1C4]) s t ∧ readyBits t = 0 ∧
    t.opt = ⟨OptSt.reset, OptSt.reset⟩ ∧ t.power = { loopReset s.power with phase := .dormant, pads := s.power.pads } ∧
    t.nvs.pend = [] ∧ t.nvs.histQ = [] ∧ t.nvs.stopLoss = some (bufferPackets s) ∧ t.nvs.checkpoint = backupCounts s ∧
    (s.nvs.hist.length ≤ 16 → t.nvs.hist = newest (s.nvs.hist ++ s.nvs.histQ)) ∧
    (NvItem.firmware ∈ s.nvs.pend → t.nvs.fw = s.fw.nv) ∧ (NvItem.firmware ∉ s.nvs.pend → t.nvs.fw = s.nvs.fw) ∧
    ∀ a, a ≠ regAddr pNvs 0x140 → a ≠ regAddr (pOpt .a) 0x1C4 →
      tblGet (resetWord a) a t.nvs.committed = if NvItem.reg a ∈ s.nvs.pend then s.rd a else tblGet (resetWord a) a s.nvs.committed

theorem storedState_canonical (form : s.canonical = true) : (storedState s).canonical = true :=
  (recordLoss_moves (s := commitItem .checkpoint (wearBlock (checkpointLife .b (checkpointLife .a (flushNvs s)))))).2 <|
    commitItem_moves.2 <| wearBlock_moves.2 <| checkpointLife_moves.2 <| checkpointLife_moves.2 <| flushNvs_moves.2 form

/-- The logic domain goes, with everything stored. -/
theorem powerdownComplete_spec (going : s.power.phase = .powerDown) : After (exec .powerdownComplete s) (stoppedWith s) := by
  have row : exec .powerdownComplete s = .next (enterStep .dormant 0 (resetLogic (writeRecord (storedState s)))) := by
    have row : exec .powerdownComplete s = execPowerdownComplete s := rfl
    rw [row, execPowerdownComplete, if_neg (by simp [going])]
    rfl
  obtain ⟨flushed, pend, queue, hist, loss, counts, empty⟩ := storedState_spec s
  have form := storedState_canonical (s := s)
  generalize storedState s = y at *
  have copied := writeRecord_keepsRegs y
  have record := (writeRecord_moves (s := y))
  generalize writeRecord y = r at *
  obtain ⟨wiped, ⟨-, -, nvs, -⟩, power, ready⟩ := enterStep_after_reset .dormant 0 (resetLogic r).power r
  have same : enterStep .dormant 0 ((resetLogic r).setPower (resetLogic r).power) = enterStep .dormant 0 (resetLogic r) := rfl
  have cages : (enterStep .dormant 0 (resetLogic r)).opt = (resetLogic r).opt := (enterStep_keeps .dormant 0 (resetLogic r)) .opt (by decide)
  have gone := resetLogic_power r
  have parts : keeps [.nvs, .regs, .free, .hdrs, .links, .opt, .backup] s r := keeps_mono (keeps_trans flushed.parts record.1) (by decide)
  have stored : r.nvs = y.nvs := record.1 .nvs (by decide)
  have opt : r.opt = y.opt := record.1 .opt (by decide)
  have samePower : r.power = s.power := parts .power (by decide)
  have held : padsNow r = s.power.pads := by
    rw [padsNow, State.running, samePower, going]
    rfl
  rw [same] at wiped nvs power ready
  rw [storeKept, stored] at nvs
  have regs : keepsRegs (copyRegs ++ [regAddr pBkp 0x134, regAddr pNvs 0x140, regAddr (pOpt .a) 0x1C4]) s r := fun a ha => by
    simp only [List.mem_append, List.mem_cons, List.not_mem_nil, or_false, not_or] at ha
    obtain ⟨copy, head, writes, overs⟩ := ha
    refine (copied a ?_).trans (flushed.regs a ?_)
    · simpa using ⟨copy, head⟩
    · simpa [storeRegs] using ⟨writes, overs⟩
  have untouched : alike [.pending, .clock, .last, .out, .era, .fw] s r := fun p hp => parts p (by revert p hp; decide)
  refine ⟨_, row, logicReset_after wiped untouched (fun old => record.2 (form old)) regs (fun c => by cases c <;> decide)
    (fun _ h => h) (by simp), ready, ?_, ?_, ?_, ?_, ?_, ?_, fun short => ?_, fun waits => ?_, fun none_ => ?_, fun a writes overs => ?_⟩
  · exact cages.trans (resetLogic_opt_written fun c => by rw [opt]; exact empty c)
  · rw [power, gone, samePower, held]
  · rw [nvs, pend]
    rfl
  · rw [nvs, queue]
  · rw [nvs, loss]
  · rw [nvs, counts]
  · rw [nvs, hist short]
  · rw [nvs, flushed.written waits]
  · rw [nvs, flushed.left none_]
  · rw [nvs]
    exact flushed.committed a (by simpa [storeRegs] using ⟨writes, overs⟩)

/-! ### O9 -/

/-- Settles O9, by what each way to stop does with the power state, the store and the logic domain. -/
theorem powerDowns : Obligations.PowerDowns := by
  unfold Obligations.PowerDowns
  refine ⟨fun s on => ⟨fun m ok => shutdown_stops on ok, thermal_stops on⟩, fun s starting => thermal_endsStart starting,
    fun s powered awake counts => ?_, fun s asleep => ?_, fun s going => powerdownComplete_spec going⟩
  · have lost := uncontrolled_spec counts
    rw [← powerLost_eq powered awake] at lost
    exact ⟨⟨powerLost s, rfl, lost⟩, ⟨_, rfl, lostFor_pads lost (0, 0)⟩⟩
  · obtain ⟨power, kept⟩ := powerLost_asleep asleep
    refine ⟨⟨powerLost s, rfl, power, kept⟩, ⟨(powerLost s).setPower { (powerLost s).power with pads := (0, 0) }, rfl, ?_, ?_⟩⟩
    · show { (powerLost s).power with pads := (0, 0) } = _
      rw [power]
    · exact keeps_mono (keeps_trans kept (setPower_moves (s := powerLost s)).1) (by decide)

end Sys2Proof.Machine

/-!
PROOFS. O7 fails: the index of the voltage history has no bound of its own, and an entry far past the ring is a register of another page.
-/

namespace Sys2Proof.Machine

/-- Step 4 of a start-up, with an index of the voltage history whose entry stands at the state of training (0x300 + 8 × 3520 of the PWR page is
0x100 of the MEM page). -/
def strayHistory : State := { State.reset with power := { State.reset.power with phase := .step4, vhist := 3520 } }

/-- Refutes O7: the START entry of the exchange with the regulator overwrites the state of training in `strayHistory`. The statement
bounds no index; every entry that the model writes leaves the index below 16, so no run from `State.reset` reaches this state. -/
theorem not_logicReadyStartsTheLogicDomain : ¬ Obligations.LogicReadyStartsTheLogicDomain := by
  unfold Obligations.LogicReadyStartsTheLogicDomain
  intro h
  have fourth : strayHistory.power.phase = .step4 := rfl
  have trained : goesTo (fun t => decide (bits (t.rp pMem 0x100) 0 2 = 1)) (exec (.logicReady ⟨0, [some ⟨0, 0, 0⟩], 0⟩) strayHistory) = false := by
    decide +kernel
  refine not_after _ trained (fun t held => ?_) ((h strayHistory 0 0 fourth).2 ⟨0, 0, 0⟩ [])
  obtain ⟨⟨-, -, -, -, -, -, -, -, -, -, -, -, -, -, -, training, -⟩, -⟩ := held
  exact decide_eq_true training

end Sys2Proof.Machine

/-!
PROOFS. Transactions and handshakes that do not complete (O26): the fault record and the self-test of the unit, and the response with the
words before the one that failed.
-/

namespace Sys2Proof.Machine

variable {s t u : State} {m : AB} {a : Nat}

/-! ### The unit is reported (R183, R506) -/

theorem Settled.resp {w : Bool} (h : Settled w s t) (m : AB) : (t.link m).resp = (s.link m).resp := by
  obtain ⟨e, n, same⟩ := h.links m
  rw [same]

/-- The fields that a first fault leaves in a header, with the self-test running. -/
def reported (p code : Nat) (detail : Word) (t : State) : Prop :=
  (t.hdr p).faultCode = code ∧ (t.hdr p).faultDetail = detail ∧ (t.hdr p).testing = true ∧ (t.hdr p).testStatus = .running

theorem reported_of_hdr {p code : Nat} {detail : Word} (h : reported p code detail s) (same : t.hdr p = s.hdr p) : reported p code detail t := by
  rw [reported, same]
  exact h

theorem Settled.reported {w : Bool} {p code : Nat} {detail : Word} (h : Settled w s t) (r : reported p code detail s) : reported p code detail t := by
  obtain ⟨same, -⟩ := h.hdrs p
  rw [Machine.reported, same]
  exact r

/-- A first fault of a page. -/
theorem recordFault_first (p code : Nat) (detail : Word) (clear : (s.hdr p).faultCode = 0) :
    let t := recordFault p code detail 0 s
    (t.hdr p).faultCode = code ∧ (t.hdr p).faultDetail = detail ∧ (t.hdr p).testing = (s.hdr p).testing := by
  let h : Hdr := { s.hdr p with faultCode := code, faultDetail := detail }
  let u := addLog (logTypeOf code) p code detail 0 (s.setHdr p h)
  have logged : u.hdr p = h := (keepsHdrs_of_keeps (addLog_spec (logTypeOf code) p code detail 0 (s.setHdr p h)).1 (by decide) p (by simp)).trans
    (State.hdr_setHdr_same _ _ _)
  have row : recordFault p code detail 0 s = raise p 31 u := by
    unfold recordFault
    simp only [clear, if_true]
    rfl
  intro t
  have header : t.hdr p = _ := (congrArg (State.hdr · p) row).trans (raise_hdr p 31 u)
  rw [header, logged]
  exact ⟨rfl, rfl, rfl⟩

/-- A self-test of a unit starts. -/
theorem startUnitTest_first (p unit : Nat) (apart : p ≠ pEcc) (s : State) :
    let t := startUnitTest p unit s
    (t.hdr p).faultCode = (s.hdr p).faultCode ∧ (t.hdr p).faultDetail = (s.hdr p).faultDetail ∧ (t.hdr p).testing = true ∧
      (t.hdr p).testStatus = .running ∧ sparesLinks s t := by
  let v := setTest p .running true unit 0 s
  let u := eccCount 6 1 v
  obtain ⟨-, -, hdrs, -⟩ := countAt_spec pEcc 0x200 0x1F0 5 40 6 1 v
  have header : u.hdr p = { s.hdr p with testStatus := .running, testAuto := true, testResUnit := unit, testDetail := 0 } :=
    (hdrs p (by simpa using apart)).trans (State.hdr_setHdr_same _ _ _)
  have tested : (startUnitTest p unit s).hdr p = { u.hdr p with testing := true } := State.hdr_setHdr_same _ _ _
  intro t
  refine ⟨?_, ?_, ?_, ?_, ?_⟩
  · rw [tested, header]
  · rw [tested, header]
  · rw [tested]
  · rw [tested, header]
  · exact sparesLinks_trans (sparesLinks_of_moves setTest_moves rfl) <|
      sparesLinks_trans (countWide_sparesLinks _ _ _ _ _) (sparesLinks_of_moves setHdr_moves rfl)

/-- The MEM page reports what does not complete, and tests the unit. -/
theorem stuckUnit_mem {unit code : Nat} {detail : Word} (clear : (s.hdr pMem).faultCode = 0) (idle : (s.hdr pMem).testing = false) :
    let t := stuckUnit pMem unit code detail s
    reported pMem code detail t ∧ sparesLinks s t := by
  obtain ⟨fault, at_, testing⟩ := recordFault_first pMem code detail clear
  have spared := recordFault_sparesLinks (s := s) pMem code detail 0
  have row : stuckUnit pMem unit code detail s =
      if ((recordFault pMem code detail 0 s).hdr pMem).testing then recordFault pMem code detail 0 s
      else startUnitTest pMem 0xFF (recordFault pMem code detail 0 s) := rfl
  rw [testing, idle, if_neg (by decide)] at row
  rw [row]
  generalize recordFault pMem code detail 0 s = v at *
  obtain ⟨fault', at_', tested, running, spared'⟩ := startUnitTest_first pMem 0xFF (by decide) v
  exact ⟨⟨fault'.trans fault, at_'.trans at_, tested, running⟩, sparesLinks_trans spared spared'⟩

/-! ### The record is answered (R66) -/

/-- What a record that does not complete leaves: its response behind the others, TXN_TIMEOUT and a test. -/
def answeredLate (m : AB) (r : Rec) (a : Nat) (s t : State) : Prop :=
  alike [.pending, .clock, .era, .backup, .keeper, .lfr, .opt, .keys] s t ∧ r ∈ (t.link m).resp ∧
    (t.hdr pMem).faultCode = 0x0202 ∧ (t.hdr pMem).faultDetail = word a ∧ (t.hdr pMem).testing = true

/-- An address of LPDDR4X in FAULT_DETAIL is its low word. -/
theorem word_aperture (a : Nat) : word (0x100000000 + a) = word a := by
  apply BitVec.eq_of_toNat_eq
  simp only [word, BitVec.toNat_ofNat]
  omega

/-- A record of LPDDR4X whose word at `a` does not complete, after what ran before it. -/
def endedLate (m : AB) (r : Rec) (had : Bool) (a : Nat) (s u : State) : State :=
  settle s (closeMarks m had (respond m r (lateUnit pMem (0x100000000 + a) u)))

theorem endedLate_spec {r : Rec} {had : Bool} (kept : keeps [.last, .dram, .free] s u) (up : (s.link m).state ≠ .resync)
    (clear : (s.hdr pMem).faultCode = 0) (idle : (s.hdr pMem).testing = false) :
    let t := endedLate m r had a s u
    answeredLate m r a s t ∧ t.dram = u.dram ∧ t.era = s.era := by
  let v := lateUnit pMem (0x100000000 + a) u
  let w := closeMarks m had (respond m r v)
  have hdrs : u.hdrs = s.hdrs := kept .hdrs (by decide)
  have links : u.links = s.links := kept .links (by decide)
  have header : (ended .timeout 0 .none u).hdr pMem = s.hdr pMem := congrArg (tblGet (hdrReset pMem) pMem) hdrs
  obtain ⟨⟨fault, at_, testing, running⟩, spared⟩ := stuckUnit_mem (s := ended .timeout 0 .none u) (unit := 0xFF) (code := 0x0202)
    (detail := word (0x100000000 + a)) (by rw [header]; exact clear) (by rw [header]; exact idle)
  obtain ⟨e, n, link⟩ := spared m
  have state : (v.link m).state = (s.link m).state := by
    have : v.link m = _ := link
    rw [this]
    exact congrArg (fun l => (Pair.get l m).state) links
  have answers : moves [.links] v w := closeMarks_moves.after rfl <| respond_moves.within rfl
  have before : reported pMem 0x0202 (word (0x100000000 + a)) w :=
    reported_of_hdr (s := v) ⟨fault, at_, testing, running⟩ (keepsHdrs_of_keeps answers.1 (by decide) _ List.not_mem_nil)
  have resp : r ∈ (w.link m).resp := by
    obtain ⟨mo, hr, same, -⟩ := closeMarks_link m had (respond m r v)
    have here : w.link m = _ := same
    rw [here, respond_up (by rw [state]; exact up), State.link_setLink_same]
    exact List.mem_append_right _ (List.mem_singleton.mpr rfl)
  have settles : Settled true w (settle s w) := settled_settle
  have stays : moves [.regs, .ctrs, .hdrs, .out, .free, .power, .nvs, .links, .buf, .mac, .tsu, .chk, .seqs, .act, .btx, .psw, .omciUpQ] w
      (settle s w) := settle_moves
  have late : keeps (but [.pending, .clock, .era, .backup, .keeper, .lfr, .opt, .keys, .dram, .power, .tsu, .psw]) u v :=
    keeps_mono lateUnit_moves.1 (by decide)
  have whole : keeps (but [.pending, .clock, .era, .backup, .keeper, .lfr, .opt, .keys]) s (settle s w) :=
    keeps_mono (keeps_trans (keeps_trans (keeps_trans kept late) answers.1) stays.1) (by decide)
  obtain ⟨fault', at_', testing', -⟩ := settles.reported before
  refine ⟨⟨fun p hp => whole p ?_, ?_, fault', at_'.trans (word_aperture a), testing'⟩, ?_, whole .era (by decide)⟩
  · revert p
    decide
  · show r ∈ ((settle s w).link m).resp
    rw [settles.resp]
    exact resp
  · exact (stays.1 .dram (by decide)).trans ((answers.1 .dram (by decide)).trans (late .dram (by decide)))

/-! ### The three records -/

/-- A word may have been written or not, and no other byte changes (assumption 39). -/
theorem mayHaveRun_word {b : Nat} {v d : Word} {effect : State → State}
    (ran : effect s.takeFree.2 = ended .ok d .none (s.takeFree.2.setDramWord b v)) :
    let t := mayHaveRun effect s
    keeps [.last, .dram, .free] s t ∧ (∀ x, x < b ∨ b + 4 ≤ x → t.dramByte x = s.dramByte x) ∧
      (t.dramWord b = s.dramWord b ∨ t.dramWord b = v) := by
  have drawn : keeps [.free] s s.takeFree.2 := (takeFree_moves (s := s)).1
  refine ite_all (P := fun t => keeps [.last, .dram, .free] s t ∧ (∀ x, x < b ∨ b + 4 ≤ x → t.dramByte x = s.dramByte x) ∧
    (t.dramWord b = s.dramWord b ∨ t.dramWord b = v)) ?_ ⟨keeps_mono drawn (by decide), fun _ _ => rfl, .inl rfl⟩
  rw [ran]
  exact ⟨keeps_mono (keeps_trans drawn (wrote_keeps _ _ _ _)) (by decide), fun x h => State.setDramWord_frame b x v s.takeFree.2 h,
    .inr (State.dramWord_setDramWord_same b v s.takeFree.2)⟩

/-- What a record does before it is answered, with no packet and no wake of a receiver. -/
theorem exec_txnTimeout {x : RecForm} {tag addr done : Nat} (on : s.running = true) (good : requestBad (requestOf x tag addr) s = 0) :
    exec (.txnTimeout m x tag addr done) s = .next (runLate m (requestOf x tag addr) done s) := by
  have row : exec (.txnTimeout m x tag addr done) s = execTxnTimeout m x tag addr done s := rfl
  rw [row, execTxnTimeout, whenOn_running on, if_pos good]

theorem targetPage_mem (ok : wordOk m a s) : targetPage (0x100000000 + a) s = some pMem := by
  rw [targetPage, resolve_mem ok.2.1]

/-- A READ whose word `n` does not complete. -/
theorem exec_read_late {tag n k : Nat} (on : s.running = true) (ok : apertureOk m a k s = true) (short : n < k) :
    ∃ u, keeps [.last] s u ∧ exec (.txnTimeout m (.read k false) tag (0x100000000 + a) n) s =
      .next (endedLate m ⟨0x81, 4, tagWord tag n :: (List.range n).map (fun i => s.dramWord (a + 4 * i)), 0⟩
        (s.link m).hostResync.isSome (a + 4 * n) s u) := by
  obtain ⟨⟨one, most, -⟩, words⟩ := wordOk_of_apertureOk ok
  obtain ⟨u, run, same⟩ := readLoop_run n [] fun i hi => words i (by omega)
  have kept := read_keeps same
  have here : wordOk m (a + 4 * n) u := wordOk_of_keeps (keeps_mono kept (by decide)) (words n short)
  have good : requestBad (.read tag (0x100000000 + a) k false) s = 0 :=
    (if_neg (by omega)).trans (if_neg (by simp [addrBad_of_apertureOk ok]))
  refine ⟨u, kept, (exec_txnTimeout (x := .read k false) on good).trans (congrArg Host.Outcome.next ?_)⟩
  have page : targetPage (0x100000000 + (a + 4 * n)) u = some pMem := targetPage_mem here
  have read := readWord_of_wordOk here
  have next : 0x100000000 + a + 4 * n = 0x100000000 + (a + 4 * n) := Nat.add_assoc _ _ _
  have late : lateRead m tag (0x100000000 + a) k false n s =
      respond m ⟨0x81, 4, tagWord tag n :: (List.range n).map (fun i => s.dramWord (a + 4 * i)), 0⟩ (lateUnit pMem (0x100000000 + (a + 4 * n)) u) := by
    simp only [lateRead, run, Bool.false_eq_true, if_false, next, page, read]
    rw [if_pos ⟨short, trivial, rfl⟩]
    simp [tagWord]
    rfl
  unfold runLate endedLate
  simp only [requestOf, stirs, late]

/-- A WRITE whose word `n` does not complete: the words before it are written. -/
theorem exec_write_late {tag n : Nat} {d : List Word} (on : s.running = true) (ok : apertureOk m a d.length s = true) (short : n < d.length) :
    ∃ u, keeps [.last, .dram, .free] s u ∧ (∀ i, i < n → u.dramWord (a + 4 * i) = d.getD i 0) ∧
      (u.dramWord (a + 4 * n) = s.dramWord (a + 4 * n) ∨ u.dramWord (a + 4 * n) = d.getD n 0) ∧
      (∀ x, x < a ∨ a + 4 * (n + 1) ≤ x → u.dramByte x = s.dramByte x) ∧
      exec (.txnTimeout m (.write false d) tag (0x100000000 + a) n) s =
        .next (endedLate m ⟨0x82, 4, [tagWord tag n], 0⟩ (s.link m).hostResync.isSome (a + 4 * n) s u) := by
  obtain ⟨⟨one, most, -⟩, words⟩ := wordOk_of_apertureOk ok
  have length : (d.take n).length = n := List.length_take_of_le (by omega)
  obtain ⟨u, run, kept, dram⟩ := writeLoop_run 0x02 tag (d.take n) 0 (a := a) (s := s) (m := m) fun i hi => words i (by omega)
  have era : u.era = (s.setDramBytes a (wordsToBytes (d.take n))).era :=
    (kept .era (by decide)).trans (setDramBytes_keeps (wordsToBytes (d.take n)) a s .era (by decide)).symm
  have here : wordOk m (a + 4 * n) u := wordOk_of_keeps kept (words n short)
  let last := writeWord m ⟨0x02, tag, 0x100000000 + (a + 4 * n), 0⟩ (d.getD n 0)
  obtain ⟨kept', other, word⟩ := mayHaveRun_word (effect := last) (b := a + 4 * n)
    (writeWord_of_wordOk (s := u.takeFree.2) here 0x02 tag 0 (d.getD n 0))
  have above (x : Nat) (h : a + 4 * n ≤ x) : u.dramByte x = s.dramByte x :=
    (dramByte_congr dram era x).trans (State.setDramBytes_above _ a x s (by rwa [length_wordsToBytes, length]))
  refine ⟨mayHaveRun last u, keeps_mono (keeps_trans kept kept') (by decide), fun i hi => ?_, ?_, fun x outside => ?_, ?_⟩
  · have same : (mayHaveRun last u).dramWord (a + 4 * i) = u.dramWord (a + 4 * i) :=
      congrArg beWord (State.dramBytes_congr 4 fun c low high => other c (.inl (by omega)))
    have before : u.dramWord (a + 4 * i) = (d.take n).getD i 0 :=
      (dramWord_congr (dramByte_congr dram era)).trans (State.dramWord_setDramBytes_words (by omega) a s)
    rw [same, before, List.getD_eq_getElem _ _ (by omega), List.getElem_take, List.getD_eq_getElem]
  · have old : u.dramWord (a + 4 * n) = s.dramWord (a + 4 * n) :=
      congrArg beWord (State.dramBytes_congr 4 fun c low _ => above c (by omega))
    rw [← old]
    exact word
  · refine (other x (by omega)).trans ?_
    obtain low | high := outside
    · exact (dramByte_congr dram era x).trans (State.setDramBytes_below _ a x s low)
    · exact above x (by omega)
  · have good : requestBad (.write tag (0x100000000 + a) false d) s = 0 :=
      (if_neg (by omega)).trans (if_neg (by simp [addrBad_of_apertureOk ok]))
    refine (exec_txnTimeout (x := .write false d) on good).trans (congrArg Host.Outcome.next ?_)
    have page : targetPage (0x100000000 + (a + 4 * n)) u = some pMem := targetPage_mem here
    have wrote := writeWord_of_wordOk here 0x02 tag 0 (d.getD n 0)
    have next : 0x100000000 + a + 4 * n = 0x100000000 + (a + 4 * n) := Nat.add_assoc _ _ _
    rw [Nat.zero_add, length] at run
    have late : lateWrite m tag (0x100000000 + a) false d n s =
        respond m ⟨0x82, 4, [tagWord tag n], 0⟩ (lateUnit pMem (0x100000000 + (a + 4 * n)) (mayHaveRun last u)) := by
      simp only [lateWrite, run, Bool.false_eq_true, if_false, next, page, wrote]
      rw [if_pos ⟨short, trivial, rfl⟩]
      rfl
    unfold runLate endedLate
    simp only [requestOf, stirs, late]

/-- A MASKED_WRITE that does not complete. -/
theorem exec_masked_late {tag : Nat} {k v : Word} (on : s.running = true) (ok : apertureOk m a 1 s = true) :
    ∃ u, keeps [.last, .dram, .free] s u ∧ (u.dramWord a = s.dramWord a ∨ u.dramWord a = (s.dramWord a &&& ~~~ k) ||| (v &&& k)) ∧
      (∀ x, x < a ∨ a + 4 ≤ x → u.dramByte x = s.dramByte x) ∧
      exec (.txnTimeout m (.masked k v) tag (0x100000000 + a) 0) s =
        .next (endedLate m ⟨0x83, 4, [tagWord tag 0, 0], 0⟩ (s.link m).hostResync.isSome a s u) := by
  have here := firstWord_of_apertureOk ok (by decide)
  let run := maskedWord m ⟨0x03, tag, 0x100000000 + a, 0⟩ k v
  have wrote := maskedWord_of_wordOk here 0x03 tag 0 k v
  obtain ⟨kept, other, word⟩ := mayHaveRun_word (effect := run) (b := a) (maskedWord_of_wordOk (s := s.takeFree.2) here 0x03 tag 0 k v)
  refine ⟨mayHaveRun run s, kept, word, other, ?_⟩
  have good : requestBad (.masked tag (0x100000000 + a) k v) s = 0 := if_neg (by simp [addrBad_of_apertureOk ok])
  refine (exec_txnTimeout (x := .masked k v) on good).trans (congrArg Host.Outcome.next ?_)
  have late : lateMasked m tag (0x100000000 + a) k v s =
      respond m ⟨0x83, 4, [tagWord tag 0, 0], 0⟩ (lateUnit pMem (0x100000000 + a) (mayHaveRun run s)) := by
    simp only [lateMasked, targetPage_mem here, wrote, tagWord, Nat.zero_mul, Nat.add_zero]
    exact if_pos rfl
  unfold runLate endedLate
  simp only [requestOf, stirs, late]

/-! ### O26 -/

/-- Settles O26: the words before the late one are `exec_read_late`, `exec_write_late` and `exec_masked_late`, and the report is `stuckUnit_mem`. -/
theorem stuckUnitsAreReported : Obligations.StuckUnitsAreReported := by
  unfold Obligations.StuckUnitsAreReported
  intro s on clear idle
  refine ⟨fun m tag a n k ok short up => ⟨?_, fun d length => ?_⟩, fun m tag a k v ok up => ?_, fun u => ?_⟩
  · obtain ⟨u, kept, row⟩ := exec_read_late (tag := tag) on ok short
    obtain ⟨late, dram, -⟩ := endedLate_spec (m := m) (a := a + 4 * n) (keeps_mono kept (by decide)) up clear idle
    exact ⟨_, row, dram.trans (kept .dram (by decide)), late⟩
  · subst length
    obtain ⟨u, kept, words, word, other, row⟩ := exec_write_late (tag := tag) on ok short
    obtain ⟨late, dram, era⟩ := endedLate_spec (m := m) (a := a + 4 * n) kept up clear idle
    have byte := dramByte_congr dram (era.trans (kept .era (by decide)).symm)
    refine ⟨_, row, late, fun i hi => ?_, ?_, fun x outside => (byte x).trans (other x outside)⟩
    · exact (dramWord_congr byte).trans (words i hi)
    · rw [dramWord_congr byte]
      exact word
  · obtain ⟨u, kept, word, other, row⟩ := exec_masked_late (tag := tag) (k := k) (v := v) on ok
    obtain ⟨late, dram, era⟩ := endedLate_spec (m := m) (a := a) kept up clear idle
    have byte := dramByte_congr dram (era.trans (kept .era (by decide)).symm)
    refine ⟨_, row, late, ?_, fun x outside => (byte x).trans (other x outside)⟩
    rw [dramWord_congr byte]
    exact word
  · obtain ⟨report, -⟩ := stuckUnit_mem (unit := u) (code := 0x0201) (detail := word (0x08 * 2 ^ 24 + u % 256 * 2 ^ 16)) clear idle
    have stuck := stuckUnit_moves (s := s) (p := pMem) (unit := u) (code := 0x0201) (detail := word (0x08 * 2 ^ 24 + u % 256 * 2 ^ 16))
    have row : exec (.handshakeStuck pMem u) s =
        whenOn s (.next (settle s (stuckUnit pMem u 0x0201 (word (0x08 * 2 ^ 24 + u % 256 * 2 ^ 16)) s))) := rfl
    generalize stuckUnit pMem u 0x0201 (word (0x08 * 2 ^ 24 + u % 256 * 2 ^ 16)) s = v at *
    have settles : Settled true v (settle s v) := settled_settle
    have moved := keeps_trans stuck.1 (settle_moves (old := s) (s := v)).1
    obtain ⟨fault, at_, testing, running⟩ := settles.reported report
    refine after_running on row ⟨fun p hp => moved p ?_, fault, at_, testing, running, moved .dram (by decide)⟩
    revert p
    decide

end Sys2Proof.Machine

/-!
PROOFS. The activation state of a feeder (R278 to R288): the fields of ACT_STATUS after a change of state, and what the change leaves beside
its own registers.
-/

namespace Sys2Proof.Machine

variable {s t u : State} {f : AB} {z : Nat → Bool}

/-! ### A frame with a zone -/

/-- A step writes no register outside a zone, takes no bit of INT_RAW away, and leaves the messages that wait to be taken and the burst
profiles. -/
structure Touches (z : Nat → Bool) (s t : State) : Prop where
  regs : ∀ a, z a = false → t.rd a = s.rd a
  hdrs : ∀ p, gained (s.hdr p) (t.hdr p)
  queue : ∀ g, (t.act.get g).queue = (s.act.get g).queue
  profiles : ∀ g, (t.btx.get g).profiles = (s.btx.get g).profiles

theorem touches_refl (z : Nat → Bool) (s : State) : Touches z s s :=
  ⟨fun _ _ => rfl, fun _ => gained_refl _, fun _ => rfl, fun _ => rfl⟩

theorem Touches.after (step : Touches z t u) (h : Touches z s t) : Touches z s u :=
  ⟨fun a out => (step.regs a out).trans (h.regs a out), fun p => gained_trans (h.hdrs p) (step.hdrs p),
    fun g => (step.queue g).trans (h.queue g), fun g => (step.profiles g).trans (h.profiles g)⟩

theorem Touches.mono {y : Nat → Bool} (h : Touches y s t) (sub : ∀ a, y a = true → z a = true) : Touches z s t := by
  refine ⟨fun a out => h.regs a ?_, h.hdrs, h.queue, h.profiles⟩
  cases inside : y a with
  | false => rfl
  | true => rw [sub a inside] at out; cases out

theorem touches_ite {c : Prop} [Decidable c] {a b : State} (ha : Touches z s a) (hb : Touches z s b) : Touches z s (if c then a else b) :=
  ite_all ha hb

theorem touches_foldl {α : Type} {xs : List α} {g : State → α → State} (each : ∀ u, ∀ x ∈ xs, Touches z u (g u x)) (s : State) :
    Touches z s (xs.foldl g s) := by
  induction xs generalizing s with
  | nil => exact touches_refl z s
  | cons x xs ih => exact (ih (fun u y later => each u y (List.mem_cons_of_mem x later)) _).after (each s x List.mem_cons_self)

theorem touches_of_moves {l : List Part} (moved : moves l s t)
    (apart : [Part.regs, .hdrs, .act, .btx].all (fun p => !l.contains p) = true) : Touches z s t := by
  have other : ∀ p ∈ [Part.regs, .hdrs, .act, .btx], p.same s t := fun p hp => moved.1 p fun hl => by
    have := List.all_eq_true.mp apart p hp
    rw [List.contains_iff_mem.mpr hl] at this
    cases this
  have regs : t.regs = s.regs := other .regs (by decide)
  have hdrs : t.hdrs = s.hdrs := other .hdrs (by decide)
  have act : t.act = s.act := other .act (by decide)
  have btx : t.btx = s.btx := other .btx (by decide)
  exact ⟨fun a _ => congrArg (tblGet (resetWord a) a) regs, fun p => by rw [State.hdr, State.hdr, hdrs]; exact gained_refl _,
    fun g => by rw [act], fun g => by rw [btx]⟩

theorem touches_wr {a : Nat} {v : Word} (inside : z a = true) : Touches z s (s.wr a v) := by
  refine ⟨fun b out => State.rd_wr_other s (fun same => ?_) v, fun _ => gained_refl _, fun _ => rfl, fun _ => rfl⟩
  rw [same, inside] at out
  cases out

theorem touches_setFld {a lo w n : Nat} (inside : z a = true) : Touches z s (s.setFld a lo w n) := touches_wr inside

theorem touches_setFlag {a i : Nat} {b : Bool} (inside : z a = true) : Touches z s (s.setFlag a i b) := touches_wr inside

theorem touches_raise {p i : Nat} : Touches z s (raise p i s) := by
  have settled : Settled true s (raise p i s) := settled_raise
  exact ⟨fun a _ => raise_rd p i s a, settled.hdrs, settled.queue, settled.profiles⟩

theorem touches_setActSt {x : ActSt} (queue : x.queue = (s.act.get f).queue) : Touches z s (s.setActSt f x) := by
  refine ⟨fun _ _ => rfl, fun _ => gained_refl _, fun g => ?_, fun _ => rfl⟩
  change ((s.act.set f x).get g).queue = _
  by_cases same : g = f
  · rw [same, Pair.get_set_same, queue]
  · rw [Pair.get_set_other _ same]

/-- A counter and its half-range bit. -/
theorem touches_countWide {a w k h i p j : Nat} (half : z h = true) : Touches z s (countWide a w k (some (h, i)) (some (p, j)) s) := by
  have counted {n : Nat} : Touches z s (s.setCtr a n) := touches_of_moves setCtr_moves rfl
  exact touches_ite (touches_raise.after <| (touches_setFlag half).after counted) counted

/-- The registers that settling may write, with the sleep registers of both feeders. -/
def modeZone (a : Nat) : Bool := stirred true a || a == 0x22180 || a == 0x23180

theorem touches_of_settled (h : Settled true s t) (sub : ∀ a, modeZone a = true → z a = true) : Touches z s t := by
  have inside : Touches modeZone s t := by
    refine ⟨fun a out => ?_, h.hdrs, h.queue, h.profiles⟩
    simp only [modeZone, Bool.or_eq_false_iff, beq_eq_false_iff_ne] at out
    exact h.regs a out.1.1 fun g => by cases g; exact out.1.2; exact out.2
  exact inside.mono sub

/-! ### The registration and its tables (R278) -/

/-- The registers of the OMCI port, the Alloc-IDs and the keys, and what a change of the operating mode writes. -/
def tableZone (a : Nat) : Bool :=
  modeZone a || [0x20118, 0x21118, 0x27100].contains a || decide (0x24180 ≤ a ∧ a < 0x24200) || decide (0x25180 ≤ a ∧ a < 0x25200)

/-- These, and ACT_STATUS of a feeder. -/
def actsOn (f : AB) (a : Nat) : Bool := tableZone a || a == regAddr (pAct f) 0x100

/-- These, and the equalisation delay of the feeder. -/
def clearsOn (f : AB) (a : Nat) : Bool := actsOn f a || a == regAddr (pAct f) 0x10C || a == regAddr (pAct f) 0x110

/-- A zone with the register that names the active feeder. -/
def orActive (z : Nat → Bool) (a : Nat) : Bool := z a || a == regAddr pPsw 0x100

theorem inside_orActive {a : Nat} (h : z a = true) : orActive z a = true := by rw [orActive, h, Bool.true_or]

theorem orActive_mono {y : Nat → Bool} (sub : ∀ a, y a = true → z a = true) {a : Nat} (h : orActive y a = true) : orActive z a = true := by
  rw [orActive, Bool.or_eq_true] at h ⊢
  exact h.imp_left (sub a)

theorem tableZone_actsOn {a : Nat} (h : tableZone a = true) : actsOn f a = true := by rw [actsOn, h, Bool.true_or]

theorem actsOn_clearsOn {a : Nat} (h : actsOn f a = true) : clearsOn f a = true := by rw [clearsOn, h, Bool.true_or, Bool.true_or]

theorem tableZone_settled (h : Settled true s t) : Touches tableZone s t :=
  touches_of_settled h fun a inside => by simp only [tableZone, inside, Bool.true_or]

theorem touches_setSdu {e : Nat} {x : Option Sdu} : Touches z s (setSdu f e x s) := touches_of_moves (l := [.lfr]) with_lfr_moves rfl

theorem touches_dropSdu {e : Nat} : Touches tableZone s (dropSdu f e s) := by
  unfold dropSdu
  split
  · exact touches_refl _ s
  · exact touches_ite (touches_refl _ s) ((tableZone_settled settled_dropAt).after touches_setSdu)

theorem touches_cutChain {e : Nat} {keep : Bool} : Touches tableZone s (cutChain f e keep s) := by
  have cut : Touches tableZone s (cutSdu f e keep s) := by
    unfold cutSdu
    split
    · exact touches_refl _ s
    · exact touches_ite (touches_setSdu.after touches_dropSdu) (touches_setSdu.after touches_dropSdu)
  exact touches_ite cut (touches_of_moves pushMark_moves rfl)

theorem touches_setOmciPort {port : Nat} {valid : Bool} : Touches tableZone s (setOmciPort f port valid s) :=
  touches_ite (touches_refl _ s) ((touches_wr (by cases f <;> decide)).after touches_cutChain)

theorem touches_dropKeys : Touches tableZone s (dropKeys f s) :=
  (touches_of_moves (l := [.keys]) with_keys_moves rfl).after (touches_setFld (by decide))

theorem touches_clearAllocs : Touches tableZone s (clearAllocs f s) := by
  have inside {n : Nat} (few : n < 32) : tableZone (regAddr (pBtx f) (0x180 + 4 * n)) = true := by
    cases f
    · have : 0x24180 ≤ regAddr (pBtx .a) (0x180 + 4 * n) ∧ regAddr (pBtx .a) (0x180 + 4 * n) < 0x24200 := by
        simp only [regAddr, pBtx, AB.num]; omega
      simp only [tableZone, this, and_self, decide_true, Bool.or_true, Bool.true_or]
    · have : 0x25180 ≤ regAddr (pBtx .b) (0x180 + 4 * n) ∧ regAddr (pBtx .b) (0x180 + 4 * n) < 0x25200 := by
        simp only [regAddr, pBtx, AB.num]; omega
      simp only [tableZone, this, and_self, decide_true, Bool.or_true]
  refine touches_ite (touches_refl _ s) ?_
  have cleared : Touches tableZone s ((List.range 32).foldl (fun s n => s.wp (pBtx f) (0x180 + 4 * n) 0) s) :=
    touches_foldl (fun _ n few => touches_wr (inside (List.mem_range.mp few))) s
  exact Touches.after (touches_ite touches_raise (touches_refl _ _)) (touches_raise.after cleared)

/-- ACT_STATUS after a change of the activation state: the state, the one before it, the cause, and no ONU-ID where it is given up. -/
def statusWord (new cause : Nat) (v : Word) : Word :=
  let v := setBits (setBits (setBits v 4 4 (bits v 0 4)) 0 4 new) 8 8 cause
  if new ≤ 1 ∨ new = aO7 then setBits (setBits v 16 10 0) 31 1 0 else v

/-- A registration without its ONU-ID and EqD, before its tables are cleared. -/
def unregistered (f : AB) (s : State) : State :=
  let s := (s.setFld (regAddr (pAct f) 0x100) 16 10 0).setFlag (regAddr (pAct f) 0x100) 31 false
  let s := (s.wp (pAct f) 0x10C 0).setFlag (regAddr (pAct f) 0x110) 16 false
  s.setActSt f { s.act.get f with eqdNew := none, eqdUse := 0, answered := false }

theorem unregistered_spec (f : AB) (s : State) :
    let t := unregistered f s
    t.rd (regAddr (pAct f) 0x100) = setBits (setBits (s.rd (regAddr (pAct f) 0x100)) 16 10 0) 31 1 0 ∧ eqdValid f t = false ∧
      Touches (clearsOn f) s t := by
  let a := (s.setFld (regAddr (pAct f) 0x100) 16 10 0).setFlag (regAddr (pAct f) 0x100) 31 false
  let b := a.wp (pAct f) 0x10C 0
  let c := b.setFlag (regAddr (pAct f) 0x110) 16 false
  have ne1 : regAddr (pAct f) 0x100 ≠ regAddr (pAct f) 0x10C := by cases f <;> decide
  have ne2 : regAddr (pAct f) 0x100 ≠ regAddr (pAct f) 0x110 := by cases f <;> decide
  have status : a.rd (regAddr (pAct f) 0x100) = setBits (setBits (s.rd (regAddr (pAct f) 0x100)) 16 10 0) 31 1 0 :=
    (State.rd_wr_same _ _ _).trans (congrArg (setBits · 31 1 0) (State.rd_wr_same s _ _))
  have eqd : c.flag (regAddr (pAct f) 0x110) 16 = false := flag_setFlag_same b _ (by decide) _
  have zone : Touches (clearsOn f) s c := (touches_setFlag (by cases f <;> decide)).after <| (touches_wr (by cases f <;> decide)).after <|
    (touches_setFlag (by cases f <;> decide)).after <| touches_setFld (by cases f <;> decide)
  have kept : c.rd (regAddr (pAct f) 0x100) = a.rd (regAddr (pAct f) 0x100) := (rd_setFlag_other b ne2 _ _).trans (State.rd_wr_other a ne1 _)
  have eq : unregistered f s = c.setActSt f { c.act.get f with eqdNew := none, eqdUse := 0, answered := false } := rfl
  rw [eq]
  clear_value c
  exact ⟨kept.trans status, eqd, (touches_setActSt (by rfl)).after zone⟩

theorem clearRegistration_after (f : AB) (s : State) : Touches tableZone (unregistered f s) (clearRegistration f s) :=
  touches_setOmciPort.after <| touches_clearAllocs.after <| touches_dropKeys.after <| tableZone_settled settled_recallBursts

theorem eqdValid_congr (same : t.rd (regAddr (pAct f) 0x110) = s.rd (regAddr (pAct f) 0x110)) : eqdValid f t = eqdValid f s := flag_congr same 16

/-- What a registration that is given up clears. -/
theorem clearRegistration_spec (f : AB) (s : State) :
    let t := clearRegistration f s
    t.rd (regAddr (pAct f) 0x100) = setBits (setBits (s.rd (regAddr (pAct f) 0x100)) 16 10 0) 31 1 0 ∧ eqdValid f t = false ∧
      Touches (clearsOn f) s t := by
  obtain ⟨status, eqd, before⟩ := unregistered_spec f s
  have later := clearRegistration_after f s
  exact ⟨(later.regs _ (by cases f <;> decide)).trans status, (eqdValid_congr (later.regs _ (by cases f <;> decide))).trans eqd,
    Touches.after (later.mono fun _ h => actsOn_clearsOn (tableZone_actsOn h)) before⟩

/-! ### A change of the activation state (Table 9-1) -/

/-- The three fields of ACT_STATUS that a change of state writes, before anything follows from it. -/
def restated (f : AB) (new cause : Nat) (s : State) : State :=
  let a := regAddr (pAct f) 0x100
  ((s.setFld a 4 4 (actState f s)).setFld a 0 4 new).setFld a 8 8 cause

theorem restated_spec (f : AB) (new cause : Nat) (s : State) :
    (restated f new cause s).rd (regAddr (pAct f) 0x100) =
        setBits (setBits (setBits (s.rd (regAddr (pAct f) 0x100)) 4 4 (bits (s.rd (regAddr (pAct f) 0x100)) 0 4)) 0 4 new) 8 8 cause ∧
      Touches (actsOn f) s (restated f new cause s) := by
  have inside : actsOn f (regAddr (pAct f) 0x100) = true := by cases f <;> decide
  refine ⟨?_, (touches_setFld inside).after <| (touches_setFld inside).after <| touches_setFld inside⟩
  refine (State.rd_wr_same _ _ _).trans (congrArg (setBits · 8 8 cause) ?_)
  exact (State.rd_wr_same _ _ _).trans (congrArg (setBits · 0 4 new) (State.rd_wr_same s _ _))

/-- In O5 the OMCI port is the ONU-ID, and the rate is kept. -/
def portOpened (f : AB) (s : State) : State :=
  { setOmciPort f (s.fld (regAddr (pAct f) 0x100) 16 10) true s with psw := { s.psw with o5Rate := s.fld (regAddr (pLfr f) 0x100) 4 2 } }

theorem portOpened_touches : Touches tableZone s (portOpened f s) := by
  have opened : Touches tableZone s (setOmciPort f (s.fld (regAddr (pAct f) 0x100) 16 10) true s) := touches_setOmciPort
  unfold portOpened
  generalize setOmciPort f (s.fld (regAddr (pAct f) 0x100) 16 10) true s = u at *
  exact Touches.after (touches_of_moves (l := [.psw]) with_psw_moves rfl) opened

/-- What follows from the three fields but for the registration: the last feeder out of O1 and the OMCI port. -/
def followed (f : AB) (old new : Nat) (s : State) : State :=
  let s := if old ≤ 1 ∧ 2 ≤ new then { s with psw := { s.psw with lastLeft := f } } else s
  let s := if new = aO5 then portOpened f s
    else if old = aO5 then setOmciPort f (s.fld (regAddr (pLfr f) 0x118) 0 16) false s
    else s
  raise (pAct f) 0 s

theorem followed_touches (old new : Nat) (s : State) : Touches tableZone s (followed f old new s) := by
  unfold followed
  extract_lets _ s1 s2
  have left : Touches tableZone s s1 := touches_ite (touches_of_moves (l := [.psw]) with_psw_moves rfl) (touches_refl _ s)
  have port : Touches tableZone s1 s2 := touches_ite portOpened_touches (touches_ite touches_setOmciPort (touches_refl _ s1))
  exact touches_raise.after <| port.after left

theorem setActReg_eq (f : AB) (new cause : Nat) (s : State) : setActReg f new cause s =
    followed f (actState f s) new (if new ≤ 1 ∨ new = aO7 then clearRegistration f (restated f new cause s) else restated f new cause s) := by
  unfold setActReg followed restated portOpened
  rfl

/-- A new activation state in ACT_STATUS. -/
theorem setActReg_spec (f : AB) (new cause : Nat) (s : State) :
    let t := setActReg f new cause s
    t.rd (regAddr (pAct f) 0x100) = statusWord new cause (s.rd (regAddr (pAct f) 0x100)) ∧
      Touches (clearsOn f) s t ∧ (new ≤ 1 ∨ new = aO7 → eqdValid f t = false) ∧
      (¬(new ≤ 1 ∨ new = aO7) → Touches (actsOn f) s t) ∧ intRawBit t (pAct f) 0 = true := by
  obtain ⟨fields, zone⟩ := restated_spec f new cause s
  have told (v : State) : intRawBit (followed f (actState f s) new v) (pAct f) 0 = true := raise_intRaw _ _ _ (by decide)
  rw [setActReg_eq]
  by_cases gives : new ≤ 1 ∨ new = aO7
  · obtain ⟨status, eqd, cleared⟩ := clearRegistration_spec f (restated f new cause s)
    have last := followed_touches (f := f) (actState f s) new (clearRegistration f (restated f new cause s))
    rw [if_pos gives]
    refine ⟨(last.regs _ (by cases f <;> decide)).trans ?_, Touches.after (last.mono fun _ h => actsOn_clearsOn (tableZone_actsOn h))
      (cleared.after (zone.mono fun _ => actsOn_clearsOn)), fun _ => ?_, fun h => absurd gives h, told _⟩
    · rw [status, fields, statusWord, if_pos gives]
    · exact (eqdValid_congr (last.regs _ (by cases f <;> decide))).trans eqd
  · have last := followed_touches (f := f) (actState f s) new (restated f new cause s)
    rw [if_neg gives]
    have whole : Touches (actsOn f) s (followed f (actState f s) new (restated f new cause s)) :=
      Touches.after (last.mono fun _ => tableZone_actsOn) zone
    refine ⟨(last.regs _ (by cases f <;> decide)).trans ?_, whole.mono fun _ => actsOn_clearsOn, fun h => absurd h gives, fun _ => whole, told _⟩
    rw [fields, statusWord, if_neg gives]

/-! ### The operating mode behind it (R319 to R321) -/

theorem touches_setActive : Touches (orActive tableZone) s (setActive f s) := by
  unfold setActive
  extract_lets s1
  have dropped : Touches tableZone s (dropRemains f.other s) := by
    unfold dropRemains
    extract_lets rs _ v
    have emptied : Touches tableZone s v := tableZone_settled (settled_setBtx rfl)
    exact (touches_foldl (fun u r _ => tableZone_settled (settled_freeLine.after settled_dropAt)) v).after emptied
  have named : Touches (orActive tableZone) s s1 := (touches_setFlag (by decide)).after (dropped.mono fun _ => inside_orActive)
  exact touches_ite (touches_refl _ s) ((touches_of_moves (l := [.psw]) with_psw_moves rfl).after named)

theorem touches_modeTo {dst : Mode} {cause : Nat} : Touches tableZone s (modeTo dst cause s) := tableZone_settled settled_modeTo

theorem touches_lineReturn : Touches (orActive tableZone) s (lineReturn f s) :=
  Touches.after (touches_modeTo.mono fun _ => inside_orActive) touches_setActive

/-- What a change of state that is no entry of O5 does with the operating mode: three causes lead back to ATTACH. -/
def attachBack (cause : Nat) (s : State) : State :=
  if cause = 10 then modeTo (.attach .o1) 0x21 s
  else if cause = 11 then modeTo (.attach .o7) 0x24 s
  else if cause = 13 then modeTo (.attach .o1) 0x22 s
  else s

theorem touches_attachBack {cause : Nat} : Touches tableZone s (attachBack cause s) :=
  touches_ite touches_modeTo (touches_ite touches_modeTo (touches_ite touches_modeTo (touches_refl _ s)))

theorem touches_actMode {old new cause : Nat} : Touches (orActive tableZone) s (actMode f old new cause s) := by
  have same : Touches (orActive tableZone) s s := touches_refl _ s
  have back : Touches (orActive tableZone) s (attachBack cause s) := touches_attachBack.mono fun _ => inside_orActive
  unfold actMode
  refine touches_ite ?_ (touches_ite ?_ same)
  · cases s.power.mode with
    | attach x => exact Touches.after (touches_modeTo.mono fun _ => inside_orActive) touches_setActive
    | holdover x => exact touches_ite same touches_lineReturn
    | service x => exact same
    | dormant => exact same
  · cases s.power.mode with
    | attach x => exact same
    | holdover x => exact back
    | service x => exact back
    | dormant => exact same

theorem inSync_congr (same : t.rd (regAddr (pLfr f) 0x104) = s.rd (regAddr (pLfr f) 0x104)) : inSync f t = inSync f s := by
  rw [inSync, inSync, fld_congr same]

/-- A change of the activation state: in O1.1 a feeder in downstream SYNC goes on to O1.2. -/
theorem setAct_spec (f : AB) (new cause : Nat) (s : State) :
    let t := setAct f new cause s
    let w := statusWord new cause (s.rd (regAddr (pAct f) 0x100))
    t.rd (regAddr (pAct f) 0x100) = (if new = aO11 ∧ inSync f s = true then statusWord aO12 2 w else w) ∧
      Touches (orActive (clearsOn f)) s t ∧ (new ≤ 1 ∨ new = aO7 → eqdValid f t = false) ∧
      (¬(new ≤ 1 ∨ new = aO7) → Touches (orActive (actsOn f)) s t) ∧ intRawBit t (pAct f) 0 = true := by
  intro t w
  let v := setActReg f new cause s
  let x := syncAttach (actMode f (actState f s) new cause v)
  obtain ⟨status, zone, eqd, kept, told⟩ := setActReg_spec f new cause s
  have moved : Touches (orActive tableZone) v x :=
    Touches.after ((tableZone_settled settled_syncAttach).mono fun _ => inside_orActive) touches_actMode
  have table : ∀ a, orActive tableZone a = true → orActive (actsOn f) a = true := fun _ => orActive_mono fun _ => tableZone_actsOn
  have clears : ∀ a, orActive (actsOn f) a = true → orActive (clearsOn f) a = true := fun _ => orActive_mono fun _ => actsOn_clearsOn
  have status' : x.rd (regAddr (pAct f) 0x100) = w := (moved.regs _ (by cases f <;> decide)).trans status
  have zone' : Touches (orActive (clearsOn f)) s x :=
    Touches.after (moved.mono fun a h => clears a (table a h)) (zone.mono fun _ => inside_orActive)
  have eqd' (gives : new ≤ 1 ∨ new = aO7) : eqdValid f x = false :=
    (eqdValid_congr (moved.regs _ (by cases f <;> decide))).trans (eqd gives)
  have kept' (keeps : ¬(new ≤ 1 ∨ new = aO7)) : Touches (orActive (actsOn f)) s x :=
    Touches.after (moved.mono table) ((kept keeps).mono fun _ => inside_orActive)
  have told' : intRawBit x (pAct f) 0 = true := (moved.hdrs (pAct f)).2 0 told
  have sync : inSync f x = inSync f s := inSync_congr (zone'.regs _ (by cases f <;> decide))
  have run : t = if new = aO11 ∧ inSync f x = true then syncAttach (setActReg f aO12 2 x) else x := rfl
  rw [sync] at run
  rw [run]
  by_cases again : new = aO11 ∧ inSync f s = true
  · rw [if_pos again, if_pos again]
    obtain ⟨status2, -, -, kept2, told2⟩ := setActReg_spec f aO12 2 x
    have attach : Touches tableZone (setActReg f aO12 2 x) (syncAttach (setActReg f aO12 2 x)) := tableZone_settled settled_syncAttach
    have second : Touches (actsOn f) x (syncAttach (setActReg f aO12 2 x)) :=
      Touches.after (attach.mono fun _ => tableZone_actsOn) (kept2 (by decide))
    refine ⟨(attach.regs _ (by cases f <;> decide)).trans ?_, Touches.after (second.mono fun a h => clears a (inside_orActive h)) zone',
      fun gives => ?_, fun keeps => absurd (Or.inl (by rw [again.1]; decide)) keeps, (attach.hdrs (pAct f)).2 0 told2⟩
    · rw [status2, status']
    · exact (eqdValid_congr (second.regs _ (by cases f <;> decide))).trans (eqd' gives)
  · rw [if_neg again, if_neg again]
    exact ⟨status', zone', eqd', kept', told'⟩

/-! ### The fields of ACT_STATUS -/

theorem bits_statusWord {new cause : Nat} (small : new < 16) (v : Word) : bits (statusWord new cause v) 0 4 = new := by
  have named : bits (setBits (setBits (setBits v 4 4 (bits v 0 4)) 0 4 new) 8 8 cause) 0 4 = new := by
    rw [bits_setBits_other _ (.inl (by decide)) (by decide), bits_setBits_same _ _ _ _ (by decide)]
    exact Nat.mod_eq_of_lt small
  unfold statusWord
  dsimp only
  split
  · rw [bits_setBits_other _ (.inl (by decide)) (by decide), bits_setBits_other _ (.inl (by decide)) (by decide)]
    exact named
  · exact named

/-- A state that keeps the registration keeps the ONU-ID. -/
theorem onuId_statusWord {new cause : Nat} (keeps : ¬(new ≤ 1 ∨ new = aO7)) (v : Word) :
    bits (statusWord new cause v) 16 10 = bits v 16 10 ∧ bit (statusWord new cause v) 31 = bit v 31 := by
  have plain : statusWord new cause v = setBits (setBits (setBits v 4 4 (bits v 0 4)) 0 4 new) 8 8 cause := if_neg keeps
  rw [plain]
  refine ⟨?_, ?_⟩
  · rw [bits_setBits_other _ (.inr (by decide)) (by decide), bits_setBits_other _ (.inr (by decide)) (by decide),
      bits_setBits_other _ (.inr (by decide)) (by decide)]
  · rw [bit_setBits_other _ (.inr (by decide)) (by decide), bit_setBits_other _ (.inr (by decide)) (by decide),
      bit_setBits_other _ (.inr (by decide)) (by decide)]

/-- A state that gives the registration up has no ONU-ID. -/
theorem noOnuId_statusWord {new cause : Nat} (gives : new ≤ 1 ∨ new = aO7) (v : Word) : bit (statusWord new cause v) 31 = false := by
  have cleared : statusWord new cause v =
      setBits (setBits (setBits (setBits (setBits v 4 4 (bits v 0 4)) 0 4 new) 8 8 cause) 16 10 0) 31 1 0 := if_pos gives
  rw [cleared, bit_setBits _ _ _ _ _ (by decide), if_pos (by decide)]
  rfl

theorem actState_congr (same : t.rd (regAddr (pAct f) 0x100) = s.rd (regAddr (pAct f) 0x100)) : actState f t = actState f s := fld_congr same _ _

theorem onuId_congr (same : t.rd (regAddr (pAct f) 0x100) = s.rd (regAddr (pAct f) 0x100)) : onuId f t = onuId f s := by
  rw [onuId, onuId, flag_congr same, fld_congr same]

theorem setAct_state {new : Nat} (small : new < 16) (f : AB) (cause : Nat) (s : State) :
    actState f (setAct f new cause s) = if new = aO11 ∧ inSync f s = true then aO12 else new := by
  obtain ⟨status, -⟩ := setAct_spec f new cause s
  refine (congrArg (bits · 0 4) status).trans ?_
  split
  · exact bits_statusWord (by decide) _
  · exact bits_statusWord small _

theorem setAct_onuId {new : Nat} (keeps : ¬(new ≤ 1 ∨ new = aO7)) (f : AB) (cause : Nat) (s : State) :
    onuId f (setAct f new cause s) = onuId f s := by
  obtain ⟨status, -⟩ := setAct_spec f new cause s
  have other : ¬(new = aO11 ∧ inSync f s = true) := fun h => keeps (.inl (by rw [h.1]; decide))
  obtain ⟨field, valid⟩ := onuId_statusWord (cause := cause) keeps (s.rd (regAddr (pAct f) 0x100))
  rw [if_neg other] at status
  rw [onuId, onuId, State.flag, State.flag, State.fld, State.fld, status, field, valid]

theorem setAct_noOnuId {new : Nat} (gives : new ≤ 1 ∨ new = aO7) (f : AB) (cause : Nat) (s : State) : onuId f (setAct f new cause s) = none := by
  obtain ⟨status, -⟩ := setAct_spec f new cause s
  refine if_neg (by
    rw [State.flag, status]
    split
    · rw [(onuId_statusWord (by decide) _).2, noOnuId_statusWord gives]
      decide
    · rw [noOnuId_statusWord gives]
      decide)

/-! ### The operating mode after a change of state (R23, R24) -/

theorem setActReg_active (f : AB) (new cause : Nat) (s : State) : pswActive (setActReg f new cause s) = pswActive s := by
  obtain ⟨-, zone, -⟩ := setActReg_spec f new cause s
  rw [pswActive, pswActive, flag_congr (zone.regs _ (by cases f <;> decide))]

end Sys2Proof.Machine

/-!
PROOFS. The PLOAM messages that a feeder takes (R282, R283): what follows the action of a message, and the messages and timers that move a
feeder between its activation states (O44).
-/

namespace Sys2Proof.Machine

variable {s t u : State} {f : AB}

/-! ### What follows the action of a message -/

/-- A step that touches only what settling may touch, and leaves the delay that waits for its frame and the messages that wait to be sent. -/
structure Concludes (s t : State) : Prop where
  touches : Touches modeZone s t
  eqdNew : ∀ g, (t.act.get g).eqdNew = (s.act.get g).eqdNew
  waits : ∀ g x, x ∈ (s.act.get g).up → x ∈ (t.act.get g).up

theorem concludes_refl (s : State) : Concludes s s := ⟨touches_refl _ s, fun _ => rfl, fun _ _ => id⟩

theorem Concludes.after (step : Concludes t u) (h : Concludes s t) : Concludes s u :=
  ⟨step.touches.after h.touches, fun g => (step.eqdNew g).trans (h.eqdNew g), fun g x listed => step.waits g x (h.waits g x listed)⟩

theorem concludes_ite {c : Prop} [Decidable c] {a b : State} (ha : Concludes s a) (hb : Concludes s b) : Concludes s (if c then a else b) :=
  ite_all ha hb

theorem concludes_of_settled (h : Settled true s t) : Concludes s t :=
  ⟨touches_of_settled h fun _ => id, h.eqdNew, fun _ _ => h.waits⟩

/-- A change of an activation block that keeps the queue and the delay, and at most adds a message to be sent. -/
theorem concludes_setActSt {x : ActSt} (queue : x.queue = (s.act.get f).queue) (eqd : x.eqdNew = (s.act.get f).eqdNew)
    (more : ∀ p, p ∈ (s.act.get f).up → p ∈ x.up) : Concludes s (s.setActSt f x) := by
  refine ⟨touches_setActSt queue, fun g => ?_, fun g p => ?_⟩
  · change ((s.act.set f x).get g).eqdNew = _
    by_cases same : g = f
    · rw [same, Pair.get_set_same, eqd]
    · rw [Pair.get_set_other _ same]
  · change _ → p ∈ ((s.act.set f x).get g).up
    by_cases same : g = f
    · rw [same, Pair.get_set_same]
      exact more p
    · rw [Pair.get_set_other _ same]
      exact id

theorem concludes_setFlag {a i : Nat} {b : Bool} (inside : modeZone a = true) : Concludes s (s.setFlag a i b) :=
  ⟨touches_setFlag inside, fun _ => rfl, fun _ _ => id⟩

theorem concludes_actCount {i : Nat} (few : i < 32) : Concludes s (actCount f i s) := by
  have counted : moves [.regs, .ctrs, .hdrs, .links] s (actCount f i s) := actCount_moves
  have act : (actCount f i s).act = s.act := counted.1 .act (by decide)
  refine ⟨touches_countWide ?_, fun g => by rw [act], fun g x => by rw [act]; exact id⟩
  rw [Nat.div_eq_of_lt few]
  cases f <;> decide

/-- Outside DOZE a stimulus has nothing to end. -/
theorem stimulus_awake (awake : s.power.mode ≠ .service .doze) : stimulus s = s := if_pos awake

theorem concludes_stimulus : Concludes s (stimulus s) := by
  refine concludes_ite (concludes_refl s) (concludes_ite ?_ ?_)
  · have low : Concludes s (s.setFlag (regAddr (pAct (pswActive s)) 0x180) 5 false) := concludes_setFlag (by cases pswActive s <;> decide)
    refine Concludes.after (concludes_of_settled settled_tsuUpdate) (Concludes.after (concludes_setActSt ?_ ?_ ?_)
      (Concludes.after (concludes_actCount (i := 9) (by decide)) low))
    · rfl
    · rfl
    · exact fun _ => id
  · cases (s.act.get (pswActive s)).gate with
    | some g => exact concludes_setActSt (by rfl) (by rfl) fun _ => id
    | none => exact concludes_of_settled settled_modeTo

theorem concludes_reply {p : Ploamu} : Concludes s (reply f p s) :=
  Concludes.after (concludes_ite concludes_stimulus (concludes_refl _))
    (concludes_setActSt (by rfl) (by rfl) fun _ listed => List.mem_append_left _ listed)

theorem reply_waits (f : AB) (p : Ploamu) (s : State) : p ∈ ((reply f p s).act.get f).up := by
  let x := s.act.get f
  let u := s.setActSt f { x with up := x.up ++ [p] }
  have listed : p ∈ (u.act.get f).up := by
    change p ∈ ((s.act.set f _).get f).up
    rw [Pair.get_set_same]
    exact List.mem_append_right _ List.mem_cons_self
  have later : Concludes u (reply f p s) := concludes_ite concludes_stimulus (concludes_refl u)
  exact later.waits f p listed

theorem concludes_sendAck {p : Ploam} {a : Option Bool} : Concludes s (sendAck f p a s) := by
  cases a with
  | none => exact concludes_refl s
  | some ok => exact concludes_reply

theorem concludes_markActed {p : Ploam} {idx : Nat} : Concludes s (markActed f p idx s) := by
  refine concludes_ite (concludes_setFlag ?_) (concludes_refl s)
  have zone : (0x22400 ≤ regAddr (pAct f) (0x400 + 64 * (idx % 16) + 48) ∧ regAddr (pAct f) (0x400 + 64 * (idx % 16) + 48) < 0x22800) ∨
      (0x23400 ≤ regAddr (pAct f) (0x400 + 64 * (idx % 16) + 48) ∧ regAddr (pAct f) (0x400 + 64 * (idx % 16) + 48) < 0x23800) := by
    cases f <;> simp only [regAddr, pAct, AB.num] <;> omega
  rcases zone with zone | zone <;> simp only [modeZone, stirred, zone, and_self, decide_true, Bool.or_true, Bool.true_or]

/-- The sequence number and the answer of a directed message are kept (R283). -/
def noted (f : AB) (p : Ploam) (a : Option Bool) (s : State) : State :=
  if p.onuId != 0x3FF then s.setActSt f { s.act.get f with lastSeq := some p.seq, lastAck := a } else s

theorem concludes_noted {p : Ploam} {a : Option Bool} : Concludes s (noted f p a s) :=
  concludes_ite (concludes_setActSt (by rfl) (by rfl) fun _ => id) (concludes_refl s)

/-- A message whose action is done: its log entry is marked, and it is answered. -/
def answeredPloam (f : AB) (p : Ploam) (idx : Nat) (s : State) : State := sendAck f p (answerOf p) (noted f p (answerOf p) (markActed f p idx s))

theorem concludes_answeredPloam {p : Ploam} {idx : Nat} : Concludes s (answeredPloam f p idx s) :=
  concludes_sendAck.after <| concludes_noted.after concludes_markActed

/-- The activation block without the message that is taken. -/
def ploamTaken (f : AB) (rest : List (Ploam × Nat)) (s : State) : State := s.setActSt f { s.act.get f with queue := rest }

theorem ploamTaken_queue (f : AB) (rest : List (Ploam × Nat)) (s : State) : ((ploamTaken f rest s).act.get f).queue = rest := by
  change ((s.act.set f _).get f).queue = rest
  rw [Pair.get_set_same]

variable {p : Ploam} {idx : Nat} {rest : List (Ploam × Nat)}

/-- The Keeper takes a message that is heard, which is authentic and new. -/
theorem heard_checks {is : PloamBody → Bool} (h : heard f p idx rest s) (own : is p.body = true) :
    (!keeperUp s || !is p.body || (s.act.get f).gate.isSome) = false ∧ (p.onuId != 0x3FF && !p.micOk) = false ∧
      (p.onuId != 0x3FF && ((ploamTaken f rest s).act.get f).lastSeq == some p.seq) = false := by
  obtain ⟨-, up, gate, -, good⟩ := h
  refine ⟨by simp [up, own, gate], ?_⟩
  by_cases all : p.onuId = 0x3FF
  · simp [all]
  · have last : ((ploamTaken f rest s).act.get f).lastSeq = (s.act.get f).lastSeq := by
      change ((s.act.set f _).get f).lastSeq = _
      rw [Pair.get_set_same]
    simp [last, good all]

/-- A message that is heard: what it does, its answer, and what settles. -/
theorem takePloam_acted {is : PloamBody → Bool} {run : Ploam → State → Option State} (h : heard f p idx rest s) (own : is p.body = true)
    (known : p.body ≠ .other) (done : run p (ploamTaken f rest s) = some u) : takePloam f is run s = lineSettle s (answeredPloam f p idx u) := by
  obtain ⟨idle, checks, fresh⟩ := heard_checks h own
  obtain ⟨-, -, -, queue, -⟩ := h
  unfold takePloam
  rw [queue]
  dsimp only
  rw [idle, if_neg Bool.false_ne_true, checks, if_neg Bool.false_ne_true]
  change (if (p.onuId != 0x3FF && ((ploamTaken f rest s).act.get f).lastSeq == some p.seq) = true then _ else if p.body = .other then _
    else match run p (ploamTaken f rest s) with | some _ => _ | none => _) = _
  rw [fresh, if_neg Bool.false_ne_true, if_neg known, done]
  rfl

/-! ### What a message does to its feeder -/

/-- A running terminal's next state, with the parts that the command cannot reach. -/
theorem after_alike {l m : List Part} {i : Instr} {P : State → Prop} (moved : goes m s (exec i s))
    (apart : l.all (fun p => !m.contains p) = true) (on : s.running = true) (run : exec i s = whenOn s (.next t)) (h : P t) :
    After (exec i s) fun t => alike l s t ∧ P t := by
  obtain ⟨u, next, kept, holds⟩ := after_goes moved (after_running on run h)
  refine ⟨u, next, fun p hp => kept p fun hm => ?_, holds⟩
  have := List.all_eq_true.mp apart p hp
  rw [List.contains_iff_mem.mpr hm] at this
  cases this

/-- What settles after the action of a message. -/
theorem concludes_acted {old : State} : Concludes u (lineSettle old (answeredPloam f p idx u)) :=
  (concludes_of_settled settled_lineSettle).after concludes_answeredPloam

/-- A burst profile is stored and shown, and takes a feeder in O1.2 to O2-3. -/
def profiled (f : AB) (i : Nat) (q : Profile) (s : State) : State :=
  let u := useProfile f (i % 16) q (s.setBtx f { s.btx.get f with profiles := tblSet none (i % 16) (some q) (s.btx.get f).profiles })
  if actState f u = aO12 then setAct f aO23 3 u else u

theorem profiled_spec (f : AB) (i : Nat) (q : Profile) (s : State) :
    let t := profiled f i q s
    (∀ g, (t.act.get g).queue = (s.act.get g).queue) ∧ tblGet none (i % 16) (t.btx.get f).profiles = some q ∧
      t.rp (pBtx f) 0x100 = word (i % 16 + q.rate % 4 * 16 + q.guardBits % 4096 * 65536) ∧
      t.rp (pBtx f) 0x104 = word (q.psbuBits % 65536) ∧ actState f t = if actState f s = aO12 then aO23 else actState f s := by
  let a := s.setBtx f { s.btx.get f with profiles := tblSet none (i % 16) (some q) (s.btx.get f).profiles }
  let b := (a.wp (pBtx f) 0x100 (word (i % 16 % 16 + q.rate % 4 * 16 + q.guardBits % 4096 * 65536))).wp (pBtx f) 0x104
    (word (q.psbuBits % 65536))
  let u := b.setFld (regAddr (pAct f) 0x190) 16 12 q.guardBits
  have profiles : (u.btx.get f).profiles = tblSet none (i % 16) (some q) (s.btx.get f).profiles := by
    change ((s.btx.set f _).get f).profiles = _
    rw [Pair.get_set_same]
  have apart (off : Nat) (low : off < 0x180) : regAddr (pBtx f) off ≠ regAddr (pAct f) 0x190 := by
    cases f <;> simp only [regAddr, pBtx, pAct, AB.num] <;> omega
  have second : u.rd (regAddr (pBtx f) 0x104) = word (q.psbuBits % 65536) :=
    (rd_setFld_other b (apart _ (by decide)) _ _ _).trans (State.rd_wr_same _ _ _)
  have first : u.rd (regAddr (pBtx f) 0x100) = word (i % 16 + q.rate % 4 * 16 + q.guardBits % 4096 * 65536) := by
    refine (rd_setFld_other b (apart _ (by decide)) _ _ _).trans <| (State.rd_wr_other _ (by unfold regAddr; omega) _).trans <|
      (State.rd_wr_same a _ _).trans ?_
    rw [Nat.mod_mod]
  have status : u.rd (regAddr (pAct f) 0x100) = s.rd (regAddr (pAct f) 0x100) := by
    refine (rd_setFld_other b (by unfold regAddr; omega) _ _ _).trans <| (State.rd_wr_other _ ?_ _).trans <| (State.rd_wr_other _ ?_ _)
    · cases f <;> decide
    · cases f <;> decide
  have queue (g : AB) : (u.act.get g).queue = (s.act.get g).queue := rfl
  have run : profiled f i q s = if actState f u = aO12 then setAct f aO23 3 u else u := rfl
  have state : actState f u = actState f s := actState_congr status
  intro t
  rw [show t = _ from run, state]
  clear_value u
  by_cases profile : actState f s = aO12
  · rw [if_pos profile, if_pos profile]
    obtain ⟨-, -, -, kept, -⟩ := setAct_spec f aO23 3 u
    have kept := kept (by decide)
    refine ⟨fun g => (kept.queue g).trans (queue g), ?_, (kept.regs _ (by cases f <;> decide)).trans first,
      (kept.regs _ (by cases f <;> decide)).trans second, (setAct_state (by decide) f 3 u).trans (if_neg (fun h => absurd h.1 (by decide)))⟩
    rw [kept.profiles, profiles]
    exact tblGet_tblSet_same _ _ _ _
  · rw [if_neg profile, if_neg profile]
    refine ⟨queue, ?_, first, second, state⟩
    rw [profiles]
    exact tblGet_tblSet_same _ _ _ _

theorem burstProfile_spec {i : Nat} {q : Profile} (h : heard f p idx rest s) (body : p.body = .burstProfile i q) :
    After (exec (.burstProfile f) s) fun t => alike (.opt :: eventKept) s t ∧
        (t.act.get f).queue = rest ∧ tblGet none (i % 16) (t.btx.get f).profiles = some q ∧
        t.rp (pBtx f) 0x100 = word (i % 16 + q.rate % 4 * 16 + q.guardBits % 4096 * 65536) ∧
        t.rp (pBtx f) 0x104 = word (q.psbuBits % 65536) ∧
        actState f t = if actState f s = aO12 then aO23 else actState f s := by
  let u := profiled f i q (ploamTaken f rest s)
  obtain ⟨queue, profiles, first, second, state⟩ := profiled_spec f i q (ploamTaken f rest s)
  have run : exec (.burstProfile f) s = whenOn s (.next (lineSettle s (answeredPloam f p idx u))) := by
    simp only [exec, execBurstProfile]
    rw [takePloam_acted h (by rw [body]) (by rw [body]; exact PloamBody.noConfusion) (u := u) (by rw [body]; rfl)]
  have later : Touches modeZone u (lineSettle s (answeredPloam f p idx u)) := concludes_acted.touches
  refine after_alike execBurstProfile_moves rfl h.1 run ⟨?_, ?_, ?_, ?_, ?_⟩
  · rw [later.queue, queue, ploamTaken_queue]
  · rw [later.profiles, profiles]
  · exact (later.regs _ (by cases f <;> decide)).trans first
  · exact (later.regs _ (by cases f <;> decide)).trans second
  · exact (actState_congr (later.regs _ (by cases f <;> decide))).trans state

/-- An ONU-ID in ACT_STATUS, and its Alloc-ID in the first entry of the transmitter. -/
def onuNamed (f : AB) (o : Nat) (s : State) : State :=
  let s := (s.setFld (regAddr (pAct f) 0x100) 16 10 o).setFlag (regAddr (pAct f) 0x100) 31 true
  raise (pBtx f) 0 (s.wp (pBtx f) 0x180 (word (o % 1024 + 2 ^ 16 + 2 ^ 17)))

theorem onuNamed_spec (f : AB) (o : Nat) (s : State) :
    onuId f (onuNamed f o s) = some (o % 1024) ∧ (onuNamed f o s).act = s.act ∧ intRawBit (onuNamed f o s) (pBtx f) 0 = true := by
  let b := (s.setFld (regAddr (pAct f) 0x100) 16 10 o).setFlag (regAddr (pAct f) 0x100) 31 true
  let w := word (o % 1024 + 2 ^ 16 + 2 ^ 17)
  have run : onuNamed f o s = raise (pBtx f) 0 (b.wp (pBtx f) 0x180 w) := rfl
  have entered : (raise (pBtx f) 0 (b.wp (pBtx f) 0x180 w)).rd (regAddr (pAct f) 0x100) = b.rd (regAddr (pAct f) 0x100) :=
    (raise_rd _ _ (b.wp (pBtx f) 0x180 w) _).trans (State.rd_wr_other b (by cases f <;> decide) _)
  have valid : b.flag (regAddr (pAct f) 0x100) 31 = true := flag_setFlag_same _ _ (by decide) _
  have id : b.fld (regAddr (pAct f) 0x100) 16 10 = o % 1024 :=
    (fld_setFld_other _ _ _ (.inl (by decide)) (by decide)).trans (fld_setFld_same s _ _ (by decide))
  have act : (raise (pBtx f) 0 (b.wp (pBtx f) 0x180 w)).act = (b.wp (pBtx f) 0x180 w).act := raise_keeps _ _ _ .act (by decide)
  have words : moves [.regs] s (b.wp (pBtx f) 0x180 w) := wp_moves.after rfl <| setFlag_moves.after rfl <| setFld_moves.within rfl
  rw [run]
  refine ⟨?_, act.trans (words.1 .act (by decide)), raise_intRaw _ _ _ (by decide)⟩
  rw [onuId_congr entered, onuId, if_pos valid, id]

theorem assignOnuId_spec {v n o : Nat} (h : heard f p idx rest s) (body : p.body = .assignOnuId v n o) (st : actState f s = aO23)
    (own : ownSn f v n s = true) : After (exec (.assignOnuId f) s) fun t => alike (.opt :: eventKept) s t ∧ (t.act.get f).queue = rest ∧
      actState f t = aO4 ∧ onuId f t = some (o % 1024) ∧ intRawBit t (pBtx f) 0 = true := by
  let a := ploamTaken f rest s
  let c := onuNamed f o a
  let u := setAct f aO4 4 c
  obtain ⟨named, act, told⟩ := onuNamed_spec f o a
  have run : exec (.assignOnuId f) s = whenOn s (.next (lineSettle s (answeredPloam f p idx u))) := by
    simp only [exec, execAssignOnuId]
    have here : ¬(actState f a ≠ aO23 ∨ ownSn f v n a = false) := by
      rintro (other | foreign)
      · exact other st
      · exact Bool.false_ne_true (foreign.symm.trans own)
    rw [takePloam_acted h (by rw [body]) (by rw [body]; exact PloamBody.noConfusion) (u := u) (by rw [body]; exact if_neg here)]
  have later : Touches modeZone u (lineSettle s (answeredPloam f p idx u)) := concludes_acted.touches
  obtain ⟨-, -, -, kept, -⟩ := setAct_spec f aO4 4 c
  have acted : Touches (orActive (actsOn f)) c u := kept (by decide)
  refine after_alike execAssignOnuId_moves rfl h.1 run ⟨?_, ?_, ?_, ?_⟩
  · rw [later.queue, acted.queue, act, ploamTaken_queue]
  · refine (actState_congr (later.regs _ (by cases f <;> decide))).trans ?_
    exact (setAct_state (by decide) f 4 c).trans (if_neg fun h => absurd h.1 (by decide))
  · exact (onuId_congr (later.regs _ (by cases f <;> decide))).trans ((setAct_onuId (by decide) f 4 c).trans named)
  · exact (later.hdrs _).2 0 ((acted.hdrs _).2 0 told)

/-! ### The delay that waits for its frame -/

/-- A change of state other than to O1.1 has one step. -/
theorem setAct_of_ne {new : Nat} (ne : new ≠ aO11) {cause : Nat} :
    setAct f new cause s = syncAttach (actMode f (actState f s) new cause (setActReg f new cause s)) := by
  unfold setAct
  dsimp only
  rw [if_neg fun h => ne h.1]

theorem eqdNew_of_moves {l : List Part} (moved : moves l s t) (apart : l.contains .act = false) (g : AB) :
    (t.act.get g).eqdNew = (s.act.get g).eqdNew := by
  have act : t.act = s.act := part_of_moves .act moved apart
  rw [act]

theorem setActive_modeTo_eqdNew {dst : Mode} {cause : Nat} (g : AB) :
    ((modeTo dst cause (setActive f s)).act.get g).eqdNew = (s.act.get g).eqdNew :=
  ((settled_modeTo (s := setActive f s)).eqdNew g).trans (eqdNew_of_moves setActive_moves rfl g)

theorem actMode_eqdNew {old new cause : Nat} (g : AB) : ((actMode f old new cause s).act.get g).eqdNew = (s.act.get g).eqdNew := by
  have moded {dst : Mode} {cause : Nat} : ((modeTo dst cause s).act.get g).eqdNew = (s.act.get g).eqdNew := settled_modeTo.eqdNew g
  let same (t : State) : Prop := (t.act.get g).eqdNew = (s.act.get g).eqdNew
  have back : same (attachBack cause s) := ite_all (P := same) moded (ite_all (P := same) moded (ite_all (P := same) moded rfl))
  unfold actMode
  refine ite_all (P := same) ?_ (ite_all (P := same) ?_ rfl)
  · cases s.power.mode with
    | attach x => exact setActive_modeTo_eqdNew g
    | holdover x => exact ite_all (P := same) rfl (setActive_modeTo_eqdNew g)
    | service x => exact rfl
    | dormant => exact rfl
  · cases s.power.mode with
    | attach x => exact rfl
    | holdover x => exact back
    | service x => exact back
    | dormant => exact rfl

theorem followed_eqdNew {old new : Nat} (g : AB) : ((followed f old new s).act.get g).eqdNew = (s.act.get g).eqdNew := by
  refine eqdNew_of_moves (l := [.regs, .ctrs, .hdrs, .links, .buf, .lfr, .psw]) ?_ rfl g
  exact moves_trans (moves_ite (with_psw_moves.within rfl) moves_rfl) <| raise_moves.after rfl <| moves_ite (with_psw_moves.after rfl <|
    setOmciPort_moves.within rfl) <| moves_ite (setOmciPort_moves.within rfl) moves_rfl

/-- A state that keeps the registration keeps the delay that waits for its frame. -/
theorem setAct_eqdNew {new : Nat} (keeps : ¬(new ≤ 1 ∨ new = aO7)) (f : AB) (cause : Nat) (s : State) (g : AB) :
    ((setAct f new cause s).act.get g).eqdNew = (s.act.get g).eqdNew := by
  have reg : ((setActReg f new cause s).act.get g).eqdNew = (s.act.get g).eqdNew := by
    rw [setActReg_eq, if_neg keeps]
    exact (followed_eqdNew g).trans rfl
  rw [setAct_of_ne fun h => keeps (.inl (by rw [h]; decide))]
  exact (eqdNew_of_moves syncAttach_moves rfl g).trans ((actMode_eqdNew g).trans reg)

/-! ### The operating mode after a message (R23, R24) -/

/-- O5 in ATTACH leads to SERVICE on a feeder that is not locked out. -/
theorem setAct_attached {x : AttachSub} (mode : s.power.mode = .attach x) (st : actState f s ≠ aO5) (free : lockedOut f s = false) (cause : Nat) :
    (setAct f aO5 cause s).power = { s.power with mode := .service .normal, lastCause := 0x10 } := by
  obtain ⟨-, zone, -⟩ := setActReg_spec f aO5 cause s
  let v := setActReg f aO5 cause s
  have power : v.power = s.power := part_of_moves .power setActReg_moves rfl
  have free' : lockedOut f v = false := (flag_congr (zone.regs _ (by cases f <;> decide)) _).trans free
  have moded : actMode f (actState f s) aO5 cause v = modeTo (.service .normal) 0x10 (setActive f v) := by
    unfold actMode
    rw [if_pos ⟨rfl, st, free'⟩, power, mode]
  have active : (setActive f v).power = s.power := (part_of_moves .power setActive_moves rfl : _ = v.power).trans power
  have result : (modeTo (.service .normal) 0x10 (setActive f v)).power = { s.power with mode := .service .normal, lastCause := 0x10 } := by
    rw [modeTo_power, active]
  have run : setAct f aO5 cause s = syncAttach (modeTo (.service .normal) 0x10 (setActive f v)) := by
    rw [setAct_of_ne (by decide), moded]
  rw [run]
  obtain same | ⟨y, attach, -⟩ := syncAttach_power (modeTo (.service .normal) 0x10 (setActive f v))
  · rw [same, result]
  · rw [result] at attach
    cases attach

/-- The deactivation of the active feeder leads back to ATTACH. -/
theorem setAct_reattaches (mode : s.power.mode.code = 2) (active : pswActive s = f) : attaching 0x21 (setAct f aO11 10 s) := by
  let v := setActReg f aO11 10 s
  have power : v.power = s.power := part_of_moves .power setActReg_moves rfl
  have active' : pswActive v = f := (setActReg_active f aO11 10 s).trans active
  obtain ⟨x, service⟩ : ∃ x, s.power.mode = .service x := by
    revert mode
    cases s.power.mode with
    | service x => exact fun _ => ⟨x, rfl⟩
    | dormant => exact fun h => absurd h (by decide)
    | attach x => exact fun h => absurd h (show (1 : Nat) ≠ 2 by decide)
    | holdover x => exact fun h => absurd h (show (3 : Nat) ≠ 2 by decide)
  have moded : actMode f (actState f s) aO11 10 v = modeTo (.attach .o1) 0x21 v := by
    unfold actMode
    rw [if_neg fun h => absurd h.1 (by decide), if_pos active', power, service]
    exact if_pos rfl
  have back : attaching 0x21 (modeTo (.attach .o1) 0x21 v) := by
    rw [attaching, modeTo_power]
    exact ⟨⟨_, rfl⟩, rfl⟩
  have first : attaching 0x21 (syncAttach (actMode f (actState f s) aO11 10 v)) := by
    rw [moded]
    exact attaching_syncAttach back
  have reg {n k : Nat} {t : State} (a : attaching 0x21 t) : attaching 0x21 (setActReg f n k t) := attaching_of_moves setActReg_moves rfl a
  exact ite_all (attaching_syncAttach (reg first)) first

/-- Settling in SERVICE keeps the mode, but where a standing command starts a switch. -/
theorem lineSettle_service {x : ServSub} {old : State} (mode : s.power.mode = .service x) :
    (lineSettle old s).power = s.power ∨ (lineSettle old s).power.mode = .service .pswitch := by
  have later : (lineSettle old s).power = (syncAttach (standing s)).power := lineSettle_settles.1 .power (by decide)
  rw [later]
  obtain same | ⟨-, power⟩ := standing_cases s
  · rw [same]
    obtain kept | ⟨y, attach, -⟩ := syncAttach_power s
    · exact .inl kept
    · rw [mode] at attach
      cases attach
  · obtain kept | ⟨y, attach, -⟩ := syncAttach_power (standing s)
    · exact .inr (by rw [kept, power])
    · rw [power] at attach
      cases attach

/-- Outside DOZE an answer leaves the operating mode. -/
theorem answeredPloam_power (awake : s.power.mode ≠ .service .doze) : (answeredPloam f p idx s).power = s.power := by
  let u := noted f p (answerOf p) (markActed f p idx s)
  have noting : u.power = s.power := by
    have moved : moves [.regs, .act] s u := moves_trans (markActed_moves.within rfl) (moves_ite (setActSt_moves.within rfl) moves_rfl)
    exact moved.1 .power (by decide)
  change (sendAck f p (answerOf p) u).power = _
  cases answerOf p with
  | none => exact noting
  | some ok =>
    let x := u.act.get f
    let v := u.setActSt f { x with up := x.up ++ [Ploamu.acknowledge ok p.seq] }
    have same : v.power = s.power := noting
    have idle : stimulus v = v := stimulus_awake (by rw [same]; exact awake)
    change (if pswActive v = f then stimulus v else v).power = _
    rw [idle, ite_self, same]

/-! ### A ranging time -/

/-- The delay that a ranging time carries, before the state follows. -/
def delayed (f : AB) (e : Nat) (s : State) : State :=
  let s := (s.wp (pAct f) 0x10C (word e)).setFlag (regAddr (pAct f) 0x110) 16 true
  s.setActSt f { s.act.get f with eqdNew := some (e % 2 ^ 32) }

theorem delayed_spec (f : AB) (e : Nat) (s : State) :
    let t := delayed f e s
    (t.act.get f).queue = (s.act.get f).queue ∧ (t.act.get f).eqdNew = some (e % 2 ^ 32) ∧ t.power = s.power ∧
      t.rp (pAct f) 0x10C = word e ∧ eqdValid f t = true ∧ keepsRegs [regAddr (pAct f) 0x10C, regAddr (pAct f) 0x110] s t := by
  let a := s.wp (pAct f) 0x10C (word e)
  let b := a.setFlag (regAddr (pAct f) 0x110) 16 true
  have value : b.rd (regAddr (pAct f) 0x10C) = word e := (rd_setFlag_other a (by unfold regAddr; omega) _ _).trans (State.rd_wr_same s _ _)
  have valid : b.flag (regAddr (pAct f) 0x110) 16 = true := flag_setFlag_same a _ (by decide) _
  have words : moves [.regs] s b := setFlag_moves.after rfl <| wp_moves.within rfl
  have regs : keepsRegs [regAddr (pAct f) 0x10C, regAddr (pAct f) 0x110] s b := fun c hc => by
    simp only [List.mem_cons, List.not_mem_nil, or_false, not_or] at hc
    exact (rd_setFlag_other a hc.2 _ _).trans (State.rd_wr_other s hc.1 _)
  have run : delayed f e s = b.setActSt f { b.act.get f with eqdNew := some (e % 2 ^ 32) } := rfl
  have act : b.act = s.act := words.1 .act (by decide)
  have power : b.power = s.power := words.1 .power (by decide)
  rw [run]
  clear_value b
  refine ⟨?_, ?_, power, value, valid, regs⟩
  · change ((b.act.set f _).get f).queue = _
    rw [Pair.get_set_same, act]
  · change ((b.act.set f _).get f).eqdNew = _
    rw [Pair.get_set_same]

/-- The end of RERANGE with a ranging time of the active feeder. -/
def reranged (f : AB) (s : State) : State :=
  if s.power.mode = .service .rerange ∧ pswActive s = f then modeTo (.service .normal) 0x35 s else s

theorem concludes_reranged : Concludes s (reranged f s) := concludes_ite (concludes_of_settled settled_modeTo) (concludes_refl s)

theorem rangingTime_spec {e : Nat} (h : heard f p idx rest s) (body : p.body = .rangingTime e) (st : actState f s = aO4) :
    After (exec (.rangingTime f) s) fun t => alike (.opt :: eventKept) s t ∧ (t.act.get f).queue = rest ∧
      actState f t = aO5 ∧ t.rp (pAct f) 0x10C = word e ∧ eqdValid f t = true ∧ (t.act.get f).eqdNew = some (e % 2 ^ 32) ∧
      (s.power.mode.code = 1 → lockedOut f s = false →
        t.power.mode.code = 2 ∧ t.power.lastCause = 0x10 ∨ t.power.mode = .service .pswitch) := by
  let a := delayed f e (ploamTaken f rest s)
  let b := setAct f aO5 5 a
  let u := reranged f b
  obtain ⟨queue, eqd, power, value, valid, regs⟩ := delayed_spec f e (ploamTaken f rest s)
  have st' : actState f a = aO4 := (actState_congr (regs _ (by cases f <;> decide))).trans st
  have run : exec (.rangingTime f) s = whenOn s (.next (lineSettle s (answeredPloam f p idx u))) := by
    simp only [exec, execRangingTime]
    have here : ¬(actState f (ploamTaken f rest s) ≠ aO4 ∧ actState f (ploamTaken f rest s) ≠ aO5) := fun h => h.1 st
    rw [takePloam_acted h (by rw [body]) (by rw [body]; exact PloamBody.noConfusion) (u := u) ?_]
    rw [body]
    refine (if_neg here).trans (congrArg some ?_)
    exact congrArg (reranged f) (if_pos st')
  have later : Concludes b (lineSettle s (answeredPloam f p idx u)) := concludes_acted.after concludes_reranged
  obtain ⟨-, -, -, kept, -⟩ := setAct_spec f aO5 5 a
  have acted : Touches (orActive (actsOn f)) a b := kept (by decide)
  have same {off : Nat} (out : orActive (actsOn f) (regAddr (pAct f) off) = false) (out' : modeZone (regAddr (pAct f) off) = false) :
      (lineSettle s (answeredPloam f p idx u)).rd (regAddr (pAct f) off) = a.rd (regAddr (pAct f) off) :=
    (later.touches.regs _ out').trans (acted.regs _ out)
  refine after_alike execRangingTime_moves rfl h.1 run ⟨?_, ?_, ?_, ?_, ?_, fun attach free => ?_⟩
  · rw [later.touches.queue, acted.queue, queue, ploamTaken_queue]
  · refine (actState_congr (later.touches.regs _ (by cases f <;> decide))).trans ?_
    exact (setAct_state (by decide) f 5 a).trans (if_neg fun h => absurd h.1 (by decide))
  · exact (same (by cases f <;> decide) (by cases f <;> decide)).trans value
  · exact (eqdValid_congr (same (by cases f <;> decide) (by cases f <;> decide))).trans valid
  · rw [later.eqdNew, setAct_eqdNew (by decide), eqd]
  · obtain ⟨x, mode⟩ : ∃ x, a.power.mode = .attach x := by
      rw [power]
      change ∃ x, s.power.mode = .attach x
      revert attach
      cases s.power.mode with
      | attach x => exact fun _ => ⟨x, rfl⟩
      | dormant => exact fun h => absurd h (by decide)
      | service x => exact fun h => absurd h (show (2 : Nat) ≠ 1 by decide)
      | holdover x => exact fun h => absurd h (show (3 : Nat) ≠ 1 by decide)
    have free' : lockedOut f a = false := (flag_congr (regs _ (by cases f <;> decide)) _).trans free
    have served : b.power = { a.power with mode := .service .normal, lastCause := 0x10 } :=
      setAct_attached mode (by rw [st']; decide) free' 5
    have plain : u = b := if_neg fun h => by rw [served] at h; cases h.1
    have awake : b.power.mode ≠ .service .doze := fun h => by rw [served] at h; cases h
    have told : (answeredPloam f p idx b).power = b.power := answeredPloam_power awake
    have normal : (answeredPloam f p idx b).power.mode = .service .normal := by rw [told, served]
    rw [plain]
    rcases lineSettle_service (old := s) normal with same | switching
    · left
      rw [same, told, served]
      exact ⟨rfl, rfl⟩
    · exact .inr switching

/-! ### The messages and timers that lead back to O1.1, and O7 -/

theorem deactivateOnuId_spec (h : heard f p idx rest s) (body : p.body = .deactivate) (st : actState f s = aO5) :
    After (exec (.deactivateOnuId f) s) fun t => alike (.opt :: eventKept) s t ∧ (t.act.get f).queue = rest ∧
        restarted f s t ∧ onuId f t = none ∧ eqdValid f t = false ∧
        (pswActive s = f → s.power.mode.code = 2 → t.power.mode.code = 1) := by
  let a := ploamTaken f rest s
  let u := setAct f aO11 10 a
  have plain : answeredPloam f p idx u = noted f p none (markActed f p idx u) := by
    have none : answerOf p = none := by
      unfold answerOf
      rw [body]
      exact ite_self _
    unfold answeredPloam
    rw [none]
    rfl
  have run : exec (.deactivateOnuId f) s = whenOn s (.next (lineSettle s (answeredPloam f p idx u))) := by
    simp only [exec, execDeactivateOnuId]
    have here : ¬(actState f a = aOff ∨ actState f a = aO11 ∨ actState f a = aO7) := by
      rw [show actState f a = aO5 from st]
      decide
    rw [takePloam_acted h (by rw [body]; rfl) (by rw [body]; exact PloamBody.noConfusion) (u := u) (if_neg here)]
  have later : Concludes u (lineSettle s (answeredPloam f p idx u)) := concludes_acted
  obtain ⟨-, acted, eqd, -⟩ := setAct_spec f aO11 10 a
  refine after_alike execDeactivateOnuId_moves rfl h.1 run ⟨?_, ?_, ?_, ?_, fun active mode => ?_⟩
  · rw [later.touches.queue, acted.queue, ploamTaken_queue]
  · refine (actState_congr (later.touches.regs _ (by cases f <;> decide))).trans ?_
    exact (setAct_state (by decide) f 10 a).trans (by simp only [true_and]; rfl)
  · exact (onuId_congr (later.touches.regs _ (by cases f <;> decide))).trans (setAct_noOnuId (by decide) f 10 a)
  · exact (eqdValid_congr (later.touches.regs _ (by cases f <;> decide))).trans (eqd (by decide))
  · have back : attaching 0x21 u := setAct_reattaches mode active
    have told : moves [.regs, .act] u (noted f p none (markActed f p idx u)) :=
      moves_trans (markActed_moves.within rfl) (moves_ite (setActSt_moves.within rfl) moves_rfl)
    obtain ⟨⟨x, attach⟩, -⟩ := attaching_lineSettle (old := s) (attaching_of_moves told rfl back)
    rw [plain, attach]
    rfl

/-- A feeder that is disabled has left its bursts. -/
theorem disableSerialNumber_spec {n : Option (Nat × Nat)} (h : heard f p idx rest s) (body : p.body = .disableSn false n)
    (own : n = none ∨ ∃ v k, n = some (v, k) ∧ ownSn f v k s = true) (st : actState f s = aO5) :
    After (exec (.disableSerialNumber f) s) fun t => alike (.opt :: eventKept) s t ∧ (t.act.get f).queue = rest ∧ actState f t = aO7 ∧
      onuId f t = none := by
  let a := ploamTaken f rest s
  let b := abortAll f a
  let u := setAct f aO7 11 b
  have st' : actState f a = aO5 := st
  have run : exec (.disableSerialNumber f) s = whenOn s (.next (lineSettle s (answeredPloam f p idx u))) := by
    simp only [exec, execDisableSerialNumber]
    rw [takePloam_acted h (by rw [body]) (by rw [body]; exact PloamBody.noConfusion) (u := u) ?_]
    rw [body]
    rcases own with rfl | ⟨v, k, rfl, mine⟩
    · simp only [a, st']
      rfl
    · have mine' : ownSn f v k a = true := mine
      simp only [a, st', mine']
      rfl
  have later : Concludes u (lineSettle s (answeredPloam f p idx u)) := concludes_acted
  obtain ⟨-, acted, -, -⟩ := setAct_spec f aO7 11 b
  have aborted : Settled true a b := settled_abortAll
  refine after_alike execDisableSerialNumber_moves rfl h.1 run ⟨?_, ?_, ?_⟩
  · rw [later.touches.queue, acted.queue, aborted.queue, ploamTaken_queue]
  · refine (actState_congr (later.touches.regs _ (by cases f <;> decide))).trans ?_
    exact (setAct_state (by decide) f 11 b).trans (if_neg fun h => absurd h.1 (by decide))
  · exact (onuId_congr (later.touches.regs _ (by cases f <;> decide))).trans (setAct_noOnuId (by decide) f 11 b)

theorem enableSerialNumber_spec (h : heard f p idx rest s) (body : p.body = .disableSn true none) (st : actState f s = aO7) :
    After (exec (.disableSerialNumber f) s) fun t => alike (.opt :: eventKept) s t ∧ (t.act.get f).queue = rest ∧ restarted f s t := by
  let a := ploamTaken f rest s
  let u := setAct f aO11 12 a
  have st' : actState f a = aO7 := st
  have run : exec (.disableSerialNumber f) s = whenOn s (.next (lineSettle s (answeredPloam f p idx u))) := by
    simp only [exec, execDisableSerialNumber]
    rw [takePloam_acted h (by rw [body]) (by rw [body]; exact PloamBody.noConfusion) (u := u) ?_]
    rw [body]
    simp only [a, st']
    rfl
  have later : Concludes u (lineSettle s (answeredPloam f p idx u)) := concludes_acted
  obtain ⟨-, acted, -, -⟩ := setAct_spec f aO11 12 a
  refine after_alike execDisableSerialNumber_moves rfl h.1 run ⟨?_, ?_⟩
  · rw [later.touches.queue, acted.queue, ploamTaken_queue]
  · refine (actState_congr (later.touches.regs _ (by cases f <;> decide))).trans ?_
    exact (setAct_state (by decide) f 12 a).trans (by simp only [true_and]; rfl)

/-- A timer that ends leads back to O1.1 and raises its interrupt. -/
theorem expired_spec {m : List Part} {cause i : Nat} {c : Instr} (moved : goes m s (exec c s))
    (apart : (.opt :: eventKept : List Part).all (fun p => !m.contains p) = true) (few : i < 32) (on : s.running = true)
    (run : exec c s = whenOn s (.next (lineSettle s (setAct f aO11 cause (raise (pAct f) i s))))) :
    After (exec c s) fun t => alike (.opt :: eventKept) s t ∧ restarted f s t ∧ intRawBit t (pAct f) i = true := by
  let a := raise (pAct f) i s
  obtain ⟨-, acted, -⟩ := setAct_spec f aO11 cause a
  have later : Touches modeZone (setAct f aO11 cause a) (lineSettle s (setAct f aO11 cause a)) := touches_of_settled settled_lineSettle fun _ => id
  have told : intRawBit a (pAct f) i = true := raise_intRaw _ _ _ few
  have sync : inSync f a = inSync f s := inSync_congr (raise_rd _ _ _ _)
  refine after_alike moved apart on run ⟨?_, (later.hdrs _).2 i ((acted.hdrs _).2 i told)⟩
  refine (actState_congr (later.regs _ (by cases f <;> decide))).trans ((setAct_state (by decide) f cause a).trans ?_)
  simp only [true_and, sync]

/-- Settles O44, by what each message that is heard does to its feeder, and the two timers. -/
theorem ploamMovesAFeeder : Obligations.PloamMovesAFeeder := by
  unfold Obligations.PloamMovesAFeeder
  intro f p idx rest s
  refine ⟨fun h => ⟨fun i q body => burstProfile_spec h body, fun v n o body st own => assignOnuId_spec h body st own,
    fun e body st => rangingTime_spec h body st, fun body st => deactivateOnuId_spec h body st,
    fun n body own st => disableSerialNumber_spec h body own st, fun body st => enableSerialNumber_spec h body st⟩,
    fun on st => ?_, fun on st => ?_⟩
  · exact expired_spec execTo1Expiry_moves rfl (by decide) on (cause := 6) (congrArg (whenOn s) (if_pos st))
  · exact expired_spec execTo2Expiry_moves rfl (by decide) on (cause := 8) (congrArg (whenOn s) (if_pos st))

end Sys2Proof.Machine

/-!
PROOFS. The PLOAM messages that move no feeder (R282, R283, R286, R288, R310): what waits to be sent, the Alloc-IDs, Sleep_Allow, messages
that are not supported or not authentic, and an EqD at its frame boundary (O45).
-/

namespace Sys2Proof.Machine

variable {s t u : State} {f : AB} {p : Ploam} {idx : Nat} {rest : List (Ploam × Nat)}

/-! ### Answers outside DOZE -/

/-- Outside DOZE a message that waits to be sent changes nothing else. -/
theorem reply_awake (awake : s.power.mode ≠ .service .doze) (f : AB) (q : Ploamu) :
    reply f q s = s.setActSt f { s.act.get f with up := (s.act.get f).up ++ [q] } := by
  let u := s.setActSt f { s.act.get f with up := (s.act.get f).up ++ [q] }
  have idle : stimulus u = u := stimulus_awake awake
  change (if pswActive u = f then stimulus u else u) = u
  rw [idle, ite_self]

theorem sendAck_awake (awake : s.power.mode ≠ .service .doze) (f : AB) (p : Ploam) (a : Option Bool) : moves [.act] s (sendAck f p a s) := by
  cases a with
  | none => exact moves_rfl
  | some ok =>
    change moves [.act] s (reply f _ s)
    rw [reply_awake awake]
    exact setActSt_moves

theorem sendAck_waits {ok : Bool} : Ploamu.acknowledge ok p.seq ∈ ((sendAck f p (some ok) s).act.get f).up := reply_waits f _ s

/-- Outside DOZE an answer writes no register but the mark in the log. -/
theorem answeredPloam_awake (awake : s.power.mode ≠ .service .doze) :
    keepsRegs [regAddr (pAct f) (0x400 + 64 * (idx % 16) + 48)] s (answeredPloam f p idx s) := by
  have marked : keepsRegs [regAddr (pAct f) (0x400 + 64 * (idx % 16) + 48)] s (markActed f p idx s) :=
    ite_all (P := keepsRegs _ s) (setFld_keepsRegs _ _ _ _ _) (keepsRegs_refl _ _)
  have noting : moves [.act] (markActed f p idx s) (noted f p (answerOf p) (markActed f p idx s)) := moves_ite (setActSt_moves.within rfl) moves_rfl
  have power : (noted f p (answerOf p) (markActed f p idx s)).power = s.power :=
    (noting.1 .power (by decide)).trans (part_of_moves .power markActed_moves rfl)
  have sent := sendAck_awake (by rw [power]; exact awake) f p (answerOf p)
  exact fun a ha => (congrFun (rd_of_keeps (keeps_trans noting.1 sent.1) (by decide)) a).trans (marked a ha)

theorem answeredPloam_waits {ok : Bool} (answer : answerOf p = some ok) :
    Ploamu.acknowledge ok p.seq ∈ ((answeredPloam f p idx s).act.get f).up := by
  unfold answeredPloam
  rw [answer]
  exact sendAck_waits

/-- The answer to a message whose body is acknowledged. -/
theorem answerOf_acked (body : acked p.body = true) (known : p.body ≠ .other) (directed : p.onuId ≠ 0x3FF) : answerOf p = some true := by
  unfold answerOf
  rw [if_neg directed, if_neg known, if_pos body]

/-! ### A registration and a key report -/

/-- A message that only asks for one to be sent. -/
theorem asked_spec {c : Instr} {is : PloamBody → Bool} {run : Ploam → State → Option State} {q : Ploamu} {m : List Part}
    (h : heard f p idx rest s) (st : actState f s = aO5)
    (moved : goes m s (exec c s)) (apart : (.opt :: eventKept : List Part).all (fun p => !m.contains p) = true)
    (row : exec c s = whenOn s (.next (takePloam f is run s))) (own : is p.body = true) (known : p.body ≠ .other)
    (asks : run p (ploamTaken f rest s) = some (reply f q (ploamTaken f rest s))) :
    After (exec c s) fun t => alike (.opt :: eventKept) s t ∧ (t.act.get f).queue = rest ∧ q ∈ (t.act.get f).up ∧ actState f t = aO5 := by
  let u := reply f q (ploamTaken f rest s)
  have later : Concludes u (lineSettle s (answeredPloam f p idx u)) := concludes_acted
  have asked : Concludes (ploamTaken f rest s) u := concludes_reply
  rw [takePloam_acted h own known asks] at row
  refine after_alike moved apart h.1 row ⟨?_, later.waits f q (reply_waits f q _), ?_⟩
  · rw [later.touches.queue, asked.touches.queue, ploamTaken_queue]
  · have status : (lineSettle s (answeredPloam f p idx u)).rd (regAddr (pAct f) 0x100) = s.rd (regAddr (pAct f) 0x100) :=
      (later.touches.regs _ (by cases f <;> decide)).trans (asked.touches.regs _ (by cases f <;> decide))
    exact (actState_congr status).trans st

theorem requestRegistration_spec (h : heard f p idx rest s) (body : p.body = .requestRegistration)
    (st : actState f s = aO5) : After (exec (.requestRegistration f) s) fun t =>
      alike (.opt :: eventKept) s t ∧ (t.act.get f).queue = rest ∧ registration f s ∈ (t.act.get f).up ∧ actState f t = aO5 := by
  refine asked_spec h st execRequestRegistration_moves rfl (by rfl) (by rw [body]; rfl) (by rw [body]; exact PloamBody.noConfusion) ?_
  exact if_pos (.inr st)

theorem keyControl_spec (h : heard f p idx rest s) (body : p.body = .keyControl)
    (st : actState f s = aO5) : After (exec (.keyControl f) s) fun t =>
      alike (.opt :: eventKept) s t ∧ (t.act.get f).queue = rest ∧ Ploamu.keyReport ∈ (t.act.get f).up ∧ actState f t = aO5 := by
  refine asked_spec h st execKeyControl_moves rfl (by rfl) (by rw [body]; rfl) (by rw [body]; exact PloamBody.noConfusion) ?_
  exact if_pos st

/-! ### Alloc-IDs -/

/-- An entry of the Alloc-ID table lies outside what settling writes. -/
theorem modeZone_alloc {n : Nat} (few : n < 32) : modeZone (regAddr (pBtx f) (0x180 + 4 * n)) = false := by
  have : n ∈ List.range 32 := List.mem_range.mpr few
  have all : ∀ g : AB, (List.range 32).all (fun n => !modeZone (regAddr (pBtx g) (0x180 + 4 * n))) = true := by
    intro g
    cases g <;> decide
  simpa using List.all_eq_true.mp (all f) n this

/-- An Alloc-ID enters an entry of the transmitter. -/
def allocEntered (f : AB) (n id : Nat) (s : State) : State :=
  mapCheck f s (raise (pBtx f) 0 (s.wp (pBtx f) (0x180 + 4 * n) (word (id + 2 ^ 16))))

theorem allocEntered_spec {n id : Nat} (s : State) :
    let t := allocEntered f n id s
    t.rp (pBtx f) (0x180 + 4 * n) = word (id + 2 ^ 16) ∧ intRawBit t (pBtx f) 0 = true ∧ t.act = s.act := by
  let w := word (id + 2 ^ 16)
  let a := s.wp (pBtx f) (0x180 + 4 * n) w
  let b := raise (pBtx f) 0 a
  have same (x : Nat) : b.rd x = a.rd x := raise_rd _ _ a x
  have entry : b.rd (regAddr (pBtx f) (0x180 + 4 * n)) = w := (same _).trans (State.rd_wr_same s _ w)
  have told : intRawBit b (pBtx f) 0 = true := raise_intRaw _ _ _ (by decide)
  have act : b.act = s.act := (raise_keeps _ _ a .act (by decide)).trans (wr_keeps _ _ s .act (by decide))
  have run : allocEntered f n id s = mapCheck f s b := rfl
  have more : (mapCheck f s b).act = b.act := part_of_moves .act mapCheck_moves rfl
  have later : Touches modeZone b (mapCheck f s b) := touches_ite touches_raise (touches_refl _ b)
  have word' : (mapCheck f s b).rd (regAddr (pBtx f) (0x180 + 4 * n)) = b.rd (regAddr (pBtx f) (0x180 + 4 * n)) :=
    congrFun (rd_of_keeps mapCheck_moves.1 (by decide)) _
  rw [run]
  exact ⟨word'.trans entry, (later.hdrs _).2 0 told, more.trans act⟩

/-- An entry that holds an Alloc-ID for data assigns it. -/
theorem assigned_of_entry {n id : Nat} (few : n < 32) (small : id < 16384) (entry : s.rp (pBtx f) (0x180 + 4 * n) = word (id + 2 ^ 16)) :
    assigned f id s = true := by
  have valid : bit (word (id + 2 ^ 16)) 16 = true := by
    rw [bit_word (by decide), Nat.testBit_eq_decide_div_mod_eq]
    exact decide_eq_true (by omega)
  have data : bit (word (id + 2 ^ 16)) 17 = false := by
    rw [bit_word (by decide), Nat.testBit_eq_decide_div_mod_eq]
    exact decide_eq_false (by omega)
  have field : bits (word (id + 2 ^ 16)) 0 14 = id := by
    rw [bits_word (by decide)]
    omega
  refine List.any_eq_true.mpr ⟨n, List.mem_range.mpr few, ?_⟩
  simp only [entry, valid, data, field, Bool.not_false, Bool.and_self, beq_self_eq_true]

theorem assignAllocId_spec {id n : Nat} (h : heard f p idx rest s) (body : p.body = .assignAllocId id true)
    (named : (onuId f s).isSome = true) (few : n < 32)
    (fresh : ∀ k, k < 32 → bit (s.rp (pBtx f) (0x180 + 4 * k)) 16 = true → bits (s.rp (pBtx f) (0x180 + 4 * k)) 0 14 ≠ id % 16384)
    (free : bit (s.rp (pBtx f) (0x180 + 4 * n)) 16 = false) (first : ∀ k, k < n → bit (s.rp (pBtx f) (0x180 + 4 * k)) 16 = true) :
    After (exec (.assignAllocId f) s) fun t => alike (.opt :: eventKept) s t ∧ (t.act.get f).queue = rest ∧ assigned f (id % 16384) t = true ∧
      t.rp (pBtx f) (0x180 + 4 * n) = word (id % 16384 + 2 ^ 16) ∧ intRawBit t (pBtx f) 0 = true ∧
      (p.onuId ≠ 0x3FF → Ploamu.acknowledge true p.seq ∈ (t.act.get f).up) := by
  let a := ploamTaken f rest s
  let u := allocEntered f n (id % 16384) a
  obtain ⟨entry, told, act⟩ := allocEntered_spec (f := f) (n := n) (id := id % 16384) a
  have none : (List.range 32).find? (fun n => bit (a.rp (pBtx f) (0x180 + 4 * n)) 16 &&
      bits (a.rp (pBtx f) (0x180 + 4 * n)) 0 14 == id % 16384) = none := by
    refine List.find?_eq_none.mpr fun k hk => ?_
    by_cases valid : bit (s.rp (pBtx f) (0x180 + 4 * k)) 16 = true
    · have other := fresh k (List.mem_range.mp hk) valid
      change ¬(bit (s.rp (pBtx f) (0x180 + 4 * k)) 16 && bits (s.rp (pBtx f) (0x180 + 4 * k)) 0 14 == id % 16384) = true
      simpa [valid] using other
    · change ¬(bit (s.rp (pBtx f) (0x180 + 4 * k)) 16 && _) = true
      simp [valid]
  have here : (List.range 32).find? (fun n => !bit (a.rp (pBtx f) (0x180 + 4 * n)) 16) = some n := by
    rw [List.find?_range_eq_some]
    refine ⟨?_, List.mem_range.mpr few, fun k hk => ?_⟩
    · change (!bit (s.rp (pBtx f) (0x180 + 4 * n)) 16) = true
      rw [free]
      rfl
    · change (!!bit (s.rp (pBtx f) (0x180 + 4 * k)) 16) = true
      rw [first k hk]
      rfl
  have run : exec (.assignAllocId f) s = whenOn s (.next (lineSettle s (answeredPloam f p idx u))) := by
    simp only [exec, execAssignAllocId]
    rw [takePloam_acted h (by rw [body]) (by rw [body]; exact PloamBody.noConfusion) (u := u) ?_]
    have named' : ¬(onuId f a).isNone = true := by
      rw [show onuId f a = onuId f s from rfl]
      simpa [Option.isNone_iff_eq_none, Option.isSome_iff_ne_none] using named
    rw [body]
    refine (if_neg named').trans ?_
    rw [none, here]
    rfl
  have later : Concludes u (lineSettle s (answeredPloam f p idx u)) := concludes_acted
  have kept : (lineSettle s (answeredPloam f p idx u)).rp (pBtx f) (0x180 + 4 * n) = word (id % 16384 + 2 ^ 16) :=
    (later.touches.regs _ (modeZone_alloc few)).trans entry
  refine after_alike execAssignAllocId_moves rfl h.1 run ⟨?_, assigned_of_entry few (Nat.mod_lt _ (by decide)) kept, kept,
    (later.touches.hdrs _).2 0 told, fun directed => ?_⟩
  · rw [later.touches.queue, act, ploamTaken_queue]
  · have answer : answerOf p = some true := answerOf_acked (by rw [body]; rfl) (by rw [body]; exact PloamBody.noConfusion) directed
    exact settled_lineSettle.waits (w := true) (answeredPloam_waits answer)

/-! ### Sleep_Allow -/

theorem sleepAllow_spec {on : Bool} (awake : s.power.mode ≠ .service .doze) (h : heard f p idx rest s) (body : p.body = .sleepAllow on) :
    After (exec (.sleepAllow f) s) fun t => alike (.opt :: eventKept) s t ∧ (t.act.get f).queue = rest ∧
      t.flag (regAddr (pAct f) 0x180) 4 = on ∧ (s.flag (regAddr (pAct f) 0x180) 4 ≠ on → intRawBit t (pAct f) 4 = true) := by
  let a := ploamTaken f rest s
  let b := a.setFlag (regAddr (pAct f) 0x180) 4 on
  let u := if s.flag (regAddr (pAct f) 0x180) 4 = on then b else raise (pAct f) 4 b
  have flagged : moves [.regs] a b := setFlag_moves
  have moved : moves [.hdrs, .links] b u := moves_ite moves_rfl (raise_moves.within rfl)
  have power : u.power = s.power := (moved.1 .power (by decide)).trans (flagged.1 .power (by decide))
  have awake' : u.power.mode ≠ .service .doze := by rw [power]; exact awake
  have act : u.act = a.act := (moved.1 .act (by decide)).trans (flagged.1 .act (by decide))
  have kept : u.flag (regAddr (pAct f) 0x180) 4 = on :=
    (flag_congr (congrFun (rd_of_keeps moved.1 (by decide)) _) 4).trans (flag_setFlag_same a _ (by decide) on)
  have told (changed : s.flag (regAddr (pAct f) 0x180) 4 ≠ on) : intRawBit u (pAct f) 4 = true := by
    rw [show u = raise (pAct f) 4 b from if_neg changed]
    exact raise_intRaw _ _ _ (by decide)
  have run : exec (.sleepAllow f) s = whenOn s (.next (lineSettle s (answeredPloam f p idx u))) := by
    simp only [exec, execSleepAllow]
    rw [takePloam_acted h (by rw [body]) (by rw [body]; exact PloamBody.noConfusion) (u := u) ?_]
    rw [body]
    have idle : stimulus u = u := stimulus_awake awake'
    change some (if (!on && pswActive u == f) = true then stimulus u else u) = some u
    rw [idle, ite_self]
  have later : Concludes u (lineSettle s (answeredPloam f p idx u)) := concludes_acted
  have settled : Settled true (answeredPloam f p idx u) (lineSettle s (answeredPloam f p idx u)) := settled_lineSettle
  refine after_alike execSleepAllow_moves rfl h.1 run ⟨?_, ?_, fun changed => (later.touches.hdrs _).2 4 (told changed)⟩
  · rw [later.touches.queue, act, ploamTaken_queue]
  · have apart : regAddr (pAct f) 0x180 ∉ [regAddr (pAct f) (0x400 + 64 * (idx % 16) + 48)] := by
      simp only [List.mem_singleton, regAddr]
      omega
    exact (settled.awake f 4 (by decide)).trans ((flag_congr (answeredPloam_awake awake' _ apart) 4).trans kept)

/-! ### Messages that are not supported, and messages that are not authentic -/

/-- A message that is not supported: it is counted and answered. -/
theorem takePloam_other {is : PloamBody → Bool} {run : Ploam → State → Option State} (h : heard f p idx rest s) (own : is p.body = true)
    (other : p.body = .other) : takePloam f is run s =
      lineSettle s (sendAck f p (answerOf p) (noted f p (answerOf p) (actCount f 4 (ploamTaken f rest s)))) := by
  obtain ⟨idle, checks, fresh⟩ := heard_checks h own
  obtain ⟨-, -, -, queue, -⟩ := h
  unfold takePloam
  rw [queue]
  dsimp only
  rw [idle, if_neg Bool.false_ne_true, checks, if_neg Bool.false_ne_true]
  change (if (p.onuId != 0x3FF && ((ploamTaken f rest s).act.get f).lastSeq == some p.seq) = true then _ else if p.body = .other then _ else _) = _
  rw [fresh, if_neg Bool.false_ne_true, if_pos other]
  rfl

theorem unsupportedPloam_spec (awake : s.power.mode ≠ .service .doze) (h : heard f p idx rest s) (body : p.body = .other) :
    After (exec (.unsupportedPloam f) s) fun t => alike (.opt :: eventKept) s t ∧ (t.act.get f).queue = rest ∧ actCounted f 4 s t ∧
      (p.onuId ≠ 0x3FF → Ploamu.acknowledge false p.seq ∈ (t.act.get f).up) := by
  let a := ploamTaken f rest s
  let b := actCount f 4 a
  let c := noted f p (answerOf p) b
  let u := sendAck f p (answerOf p) c
  have run : exec (.unsupportedPloam f) s = whenOn s (.next (lineSettle s u)) := by
    simp only [exec, execUnsupportedPloam]
    rw [takePloam_other h (by rw [body]; rfl) body]
  obtain ⟨counted, -, -, parts⟩ := countAt_spec (pAct f) 0x200 0x130 10 40 4 1 a
  have noting : moves [.act] b c := moves_ite (setActSt_moves.within rfl) moves_rfl
  have power : c.power = s.power := (noting.1 .power (by decide)).trans (parts .power (by decide))
  have sent : moves [.act] c u := sendAck_awake (by rw [power]; exact awake) f p (answerOf p)
  have settled : Settled true u (lineSettle s u) := settled_lineSettle
  have answered : Concludes b u := concludes_sendAck.after concludes_noted
  have act : b.act = a.act := parts .act (by decide)
  refine after_alike execUnsupportedPloam_moves rfl h.1 run ⟨?_, ?_, fun directed => ?_⟩
  · rw [settled.queue, answered.touches.queue, act, ploamTaken_queue]
  · exact (settled.ctrs _ (by cases f <;> decide)).trans ((ctr_of_keeps (keeps_trans noting.1 sent.1) (by decide) _).trans counted)
  · have answer : answerOf p = some false := by
      unfold answerOf
      rw [if_neg directed, if_pos body]
    have waits : Ploamu.acknowledge false p.seq ∈ (u.act.get f).up := by
      have : u = sendAck f p (some false) c := by rw [← answer]
      rw [this]
      exact sendAck_waits
    exact settled.waits waits

/-- A directed message whose MIC is bad is discarded. -/
theorem badMic_spec (on : s.running = true) (up : keeperUp s = true) (gate : (s.act.get f).gate = none)
    (queue : (s.act.get f).queue = (p, idx) :: rest) (directed : p.onuId ≠ 0x3FF) (bad : p.micOk = false) (body : p.body = .deactivate) :
    After (exec (.deactivateOnuId f) s) fun t => (t.act.get f).queue = rest ∧ actCounted f 2 s t ∧ keepsRegs [regAddr (pAct f) 0x130] s t ∧
      keepsHdrs [pAct f] s t ∧ keeps [.act, .ctrs, .regs, .hdrs, .links] s t := by
  let a := ploamTaken f rest s
  have run : exec (.deactivateOnuId f) s = whenOn s (.next (actCount f 2 a)) := by
    have idle : (!keeperUp s || !(p.body == .deactivate) || (s.act.get f).gate.isSome) = false := by simp [up, body, gate]
    have discarded : (p.onuId != 0x3FF && !p.micOk) = true := by simp [directed, bad]
    simp only [exec, execDeactivateOnuId]
    unfold takePloam
    rw [queue]
    dsimp only
    rw [idle, if_neg Bool.false_ne_true, discarded, if_pos rfl]
    rfl
  obtain ⟨counted, regs, hdrs, parts⟩ := countAt_spec (pAct f) 0x200 0x130 10 40 2 1 a
  have act : (actCount f 2 a).act = a.act := parts .act (by decide)
  have took : moves [.act] s a := setActSt_moves
  refine after_running on run ⟨?_, counted, regs, hdrs, keeps_mono (keeps_trans took.1 parts) (by decide)⟩
  rw [act, ploamTaken_queue]

/-! ### An EqD at its frame boundary -/

theorem settled_eqdShift {w : Bool} {d : Int} : Settled w s (eqdShift f d s) := by
  have counted (u : State) : Settled w u (tsuCount 1 u) := settled_countWide (by decide) fun _ _ => settled_wr_high (by decide)
  have stepped : Settled w s (stepTime (-(halfDelay f d s)) s) :=
    settled_raise.after <| (counted _).after <| (settled_wr_high (by decide)).after settled_setTsu
  exact settled_ite (settled_ite stepped settled_setTsu) (settled_refl w s)

/-- The delay is in use and counted, and the interrupt of a new delay is raised. -/
def eqdUsed (f : AB) (e : Nat) (s : State) : State :=
  let s := s.setActSt f { s.act.get f with eqdNew := none, eqdUse := e }
  raise (pAct f) 3 (actCount f 8 (s.bumpFld (regAddr (pAct f) 0x110) 0 16 1))

theorem eqdUsed_spec (f : AB) (e : Nat) (s : State) :
    let t := eqdUsed f e s
    (t.act.get f).eqdNew = none ∧ (t.act.get f).eqdUse = e ∧ actCounted f 8 s t ∧ intRawBit t (pAct f) 3 = true ∧
      actState f t = actState f s := by
  let a := s.setActSt f { s.act.get f with eqdNew := none, eqdUse := e }
  let b := a.bumpFld (regAddr (pAct f) 0x110) 0 16 1
  let c := actCount f 8 b
  obtain ⟨counted, regs, -, parts⟩ := countAt_spec (pAct f) 0x200 0x130 10 40 8 1 b
  have bumped : moves [.regs] a b := bumpFld_moves
  have told := raise_keeps (pAct f) 3 c
  have run : eqdUsed f e s = raise (pAct f) 3 c := rfl
  have act : (raise (pAct f) 3 c).act = a.act :=
    (told .act (by decide)).trans <| (parts .act (by decide) : c.act = b.act).trans (bumped.1 .act (by decide))
  have status : (raise (pAct f) 3 c).rd (regAddr (pAct f) 0x100) = s.rd (regAddr (pAct f) 0x100) := by
    refine (raise_rd _ _ _ _).trans <| (regs _ ?_).trans (rd_setFld_other a ?_ _ _ _)
    · cases f <;> decide
    · cases f <;> decide
  have count : c.ctr (regAddr (pAct f) (0x200 + 8 * 8)) = (s.ctr (regAddr (pAct f) (0x200 + 8 * 8)) + 1) % 2 ^ 40 :=
    counted.trans (congrArg (fun n => (n + 1) % 2 ^ 40) (ctr_of_keeps bumped.1 (by decide) _))
  rw [run]
  refine ⟨?_, ?_, (ctr_of_keeps told (by decide) _).trans count, raise_intRaw _ _ _ (by decide), actState_congr status⟩
  · rw [act]
    change ((s.act.set f _).get f).eqdNew = none
    rw [Pair.get_set_same]
  · rw [act]
    change ((s.act.set f _).get f).eqdUse = e
    rw [Pair.get_set_same]

/-- What an EqD in use tells the protection: nothing has drifted, and the difference of the arrivals is the reference. -/
def eqdReferred (f : AB) (s : State) : State :=
  let s := { s with psw := { s.psw with drifted := s.psw.drifted.set f false } }
  match arrivalDiff s with
  | some x => { s with psw := { s.psw with refAB := x, depart := Pair.both 0 } }
  | none => s

theorem eqdReferred_moves : moves [.psw] s (eqdReferred f s) := by
  unfold eqdReferred
  dsimp only
  split
  · exact with_psw_moves.after rfl <| with_psw_moves.within rfl
  · exact with_psw_moves

theorem eqdApply_spec {e : Nat} (on : s.running = true) (waits : (s.act.get f).eqdNew = some e) : After (exec (.eqdApply f) s) fun t =>
    alike (.opt :: eventKept) s t ∧ (t.act.get f).eqdNew = none ∧ (t.act.get f).eqdUse = e ∧ actCounted f 8 s t ∧
      intRawBit t (pAct f) 3 = true ∧ actState f t = actState f s := by
  let a := eqdUsed f e s
  let b := eqdReferred f a
  obtain ⟨new, used, counted, told, state⟩ := eqdUsed_spec f e s
  obtain ⟨d, run⟩ : ∃ d, exec (.eqdApply f) s = whenOn s (.next (lineSettle s (eqdShift f d b))) := by
    simp only [exec, execEqdApply, waits]
    exact ⟨_, rfl⟩
  have referred : Settled true a b := settled_of_moves eqdReferred_moves rfl
  have later : Settled true a (lineSettle s (eqdShift f d b)) := settled_lineSettle.after <| settled_eqdShift.after referred
  refine after_alike execEqdApply_moves rfl on run ⟨(later.eqdNew f).trans new, (later.eqdUse f).trans used, ?_, later.intRaw told, ?_⟩
  · exact (later.ctrs _ (by cases f <;> decide)).trans counted
  · exact (actState_congr (later.regs _ (by cases f <;> decide) fun g => by cases f <;> cases g <;> decide)).trans state

/-- Settles O45, by what each message that is heard leaves waiting, and by the EqD at its boundary. -/
theorem ploamIsAnswered : Obligations.PloamIsAnswered := by
  unfold Obligations.PloamIsAnswered
  intro f p idx rest s awake
  exact ⟨fun h => ⟨fun body st => requestRegistration_spec h body st, fun body st => keyControl_spec h body st,
      fun id n body named few fresh free first => assignAllocId_spec h body named few fresh free first,
      fun on body => sleepAllow_spec awake h body, fun body => unsupportedPloam_spec awake h body⟩,
    fun on up gate queue directed bad body => badMic_spec on up gate queue directed bad body, fun e on waits => eqdApply_spec on waits⟩

end Sys2Proof.Machine

/-!
PROOFS. What settling leaves where no operator command stands and no transmitter goes dark, and changes of mode inside SERVICE.
-/

namespace Sys2Proof.Machine

variable {s t u : State} {f : AB}

/-! ### Settling where no transmitter goes dark -/

theorem actStatus_settled {w : Bool} (h : Settled w s t) : t.rd (regAddr (pAct f) 0x100) = s.rd (regAddr (pAct f) 0x100) :=
  h.regs _ (by cases w <;> cases f <;> decide) fun g => by cases f <;> cases g <;> decide

theorem optStatus_settled {w : Bool} (h : Settled w s t) {off : Nat} (low : off ∈ [0x100, 0x104]) :
    t.rd (regAddr (pOpt f) off) = s.rd (regAddr (pOpt f) off) := by
  simp only [List.mem_cons, List.not_mem_nil, or_false] at low
  rcases low with rfl | rfl
  · exact h.regs _ (by cases w <;> cases f <;> decide) (fun g => by cases f <;> cases g <;> decide)
  · exact h.regs _ (by cases w <;> cases f <;> decide) (fun g => by cases f <;> cases g <;> decide)

/-- Settling turns no transmitter on or off. -/
theorem txOn_settled {w : Bool} (h : Settled w s t) (phase : t.power.phase = s.power.phase) (vaux : t.power.vauxLow = s.power.vauxLow) :
    txOn f t = txOn f s := by
  have hold : (t.hdr (pOpt f)).localHold = (s.hdr (pOpt f)).localHold := by rw [(h.hdrs (pOpt f)).1]
  have status : t.rd (regAddr (pOpt f) 0x100) = s.rd (regAddr (pOpt f) 0x100) := optStatus_settled h (by decide)
  have ctrl : t.rd (regAddr (pOpt f) 0x104) = s.rd (regAddr (pOpt f) 0x104) := optStatus_settled h (by decide)
  have state : actState f t = actState f s := actState_congr (actStatus_settled h)
  simp only [txOn, cageFree, modPresent, modAccepted, State.running, State.flag, status, ctrl, state, hold, phase, vaux]

/-- The counts that follow a switch of standing commands. -/
def wtrWatched (s : State) : State :=
  if revertReady s then (if s.psw.wtr then s else raise pPsw 3 { s with psw := { s.psw with wtr := true } })
  else { s with psw := { s.psw with wtr := false } }

theorem wtrWatched_moves : moves [.hdrs, .links, .psw] s (wtrWatched s) :=
  moves_ite (moves_ite moves_rfl <| raise_moves.after rfl <| with_psw_moves.within rfl) (with_psw_moves.within rfl)

theorem settled_wtrWatched {w : Bool} : Settled w s (wtrWatched s) :=
  settled_ite (settled_ite (settled_refl _ _) (settled_raise.after <| settled_of_moves with_psw_moves rfl)) (settled_of_moves with_psw_moves rfl)

/-- A burst ends where its transmitter goes dark. -/
def darkened (old : State) (f : AB) (s : State) : State := if txOn f old && !txOn f s then abortAll f s else s

/-- The interrupt of a feeder that has become warm or cold. -/
def warmTold (old s : State) : State :=
  let moved := fun f => pswCode f old != pswCode f s && (pswCode f old == 1 || pswCode f s == 1)
  if moved .a || moved .b then raise pPsw 1 s else s

theorem lineSettle_eq (old s : State) :
    lineSettle old s = warmTold old (darkened old .b (darkened old .a (wtrWatched (tsuUpdate (syncAttach (standing s)))))) := rfl

theorem darkened_lit {old : State} (lit : txOn f s = txOn f old) : darkened old f s = s := by
  unfold darkened
  rw [lit]
  cases txOn f old <;> rfl

theorem syncAttach_same (s : State) : (syncAttach s).power.phase = s.power.phase ∧ (syncAttach s).power.vauxLow = s.power.vauxLow := by
  obtain same | ⟨x, -, power⟩ := syncAttach_power s
  · rw [same]
    exact ⟨rfl, rfl⟩
  · rw [power]
    exact ⟨rfl, rfl⟩

/-- Where no operator command stands and no transmitter goes dark, settling leaves bursts and the messages to be sent. -/
theorem lineSettle_lit {old : State} (idle : quiet s = true) (lit : ∀ f, txOn f s = txOn f old) :
    moves [.regs, .ctrs, .hdrs, .links, .power, .tsu, .psw] s (lineSettle old s) := by
  let v := wtrWatched (tsuUpdate (syncAttach s))
  have later : moves [.regs, .ctrs, .hdrs, .links, .tsu, .psw] (syncAttach s) v :=
    moves_trans (tsuUpdate_moves.within rfl) (wtrWatched_moves.within rfl)
  have power : v.power = (syncAttach s).power := later.1 .power (by decide)
  have settled : Settled false s v := settled_wtrWatched.after <| settled_tsuUpdate.after settled_syncAttach
  have same (f : AB) : txOn f v = txOn f old := by
    refine (txOn_settled settled ?_ ?_).trans (lit f)
    · rw [power, (syncAttach_same s).1]
    · rw [power, (syncAttach_same s).2]
  have told : moves [.hdrs, .links] v (warmTold old v) := moves_ite (raise_moves.within rfl) moves_rfl
  rw [lineSettle_eq, standing_quiet idle, darkened_lit (same .a), darkened_lit (same .b)]
  exact told.after rfl <| later.after rfl <| syncAttach_moves.within rfl

theorem quiet_congr (same : t.rd (regAddr pPsw 0x108) = s.rd (regAddr pPsw 0x108)) : quiet t = quiet s := by
  rw [quiet, quiet, State.rp, State.rp, same]

theorem quiet_settled {w : Bool} (h : Settled w s t) : quiet t = quiet s :=
  quiet_congr (h.regs _ (by cases w <;> decide) fun g => by cases g <;> decide)

/-- In SERVICE settling keeps the power state where no operator command stands. -/
theorem lineSettle_quiet_service {x : ServSub} {old : State} (idle : quiet s = true) (mode : s.power.mode = .service x) :
    (lineSettle old s).power = s.power := by
  have later : (lineSettle old s).power = (syncAttach (standing s)).power := lineSettle_settles.1 .power (by decide)
  rw [later, standing_quiet idle]
  obtain same | ⟨y, attach, -⟩ := syncAttach_power s
  · exact same
  · rw [mode] at attach
    cases attach

/-! ### Changes of mode inside SERVICE -/

/-- A regain ends with every change of mode but the one that starts it. -/
def regainEnded (s : State) : State := { s with psw := { s.psw with regain := none } }

theorem modeTo_service {x y : ServSub} {cause : Nat} (mode : s.power.mode = .service x) (awake : x ≠ .doze) :
    modeTo (.service y) cause s = tsuUpdate (seqSync s (regainEnded (transition (.service y) cause s))) := by
  unfold modeTo regainEnded
  dsimp only
  rw [mode]
  cases x with
  | doze => exact absurd rfl awake
  | normal => rfl
  | pswitch => rfl
  | rerange => rfl

theorem modeTo_service_settled {x y : ServSub} {cause : Nat} (mode : s.power.mode = .service x) (awake : x ≠ .doze) :
    Settled false (transition (.service y) cause s) (modeTo (.service y) cause s) := by
  rw [modeTo_service mode awake]
  refine settled_tsuUpdate.after <| Settled.after (settled_of_moves seqSync_moves rfl) ?_
  exact settled_of_moves (l := [.psw]) with_psw_moves rfl

theorem modeTo_service_moves {x y : ServSub} {cause : Nat} (mode : s.power.mode = .service x) (awake : x ≠ .doze) :
    moves [.regs, .ctrs, .hdrs, .power, .nvs, .links, .tsu, .seqs, .psw] s (modeTo (.service y) cause s) := by
  rw [modeTo_service mode awake]
  exact tsuUpdate_moves.after rfl <| seqSync_moves.after rfl <| with_psw_moves.after rfl <| transition_moves.within rfl

/-- The mode history keeps the count of DOZE entries. -/
theorem writeHist_dozes (src dst : Mode) (cause : Nat) (rtc : Bool) (s : State) :
    (writeHist src dst cause rtc s).rd (regAddr pPwr 0x10C) = s.rd (regAddr pPwr 0x10C) := by
  have apart {a : Nat} (ne : regAddr pPwr 0x10C ≠ a) {v : Word} {u : State} (same : u.rd (regAddr pPwr 0x10C) = s.rd (regAddr pPwr 0x10C)) :
      (u.wr a v).rd (regAddr pPwr 0x10C) = s.rd (regAddr pPwr 0x10C) := (State.rd_wr_other u ne v).trans same
  have queued (e : Word × Word) (u : State) : (nvQueueHist e u).rd (regAddr pPwr 0x10C) = u.rd (regAddr pPwr 0x10C) :=
    ite_all (P := fun v => v.rd (regAddr pPwr 0x10C) = u.rd (regAddr pPwr 0x10C)) rfl
      ((raise_rd _ _ _ _).trans (State.rd_wr_other _ (by decide) _))
  unfold writeHist
  extract_lets i seq w0 w1 _ v
  have words : v.rd (regAddr pPwr 0x10C) = s.rd (regAddr pPwr 0x10C) :=
    apart (a := regAddr pPwr 0x108) (by decide) <| apart (a := regAddr pPwr (0x204 + 8 * i)) (by unfold regAddr pPwr; omega) <|
      apart (a := regAddr pPwr (0x200 + 8 * i)) (by unfold regAddr pPwr; omega) rfl
  exact ite_all (P := fun u => u.rd (regAddr pPwr 0x10C) = s.rd (regAddr pPwr 0x10C)) words ((queued _ _).trans words)

theorem transition_dozes (dst : Mode) (s : State) : (transition dst 0x30 s).rp pPwr 0x10C = s.rp pPwr 0x10C + 1 := by
  unfold transition
  refine (raise_rd _ _ _ _).trans ?_
  change ((writeHist _ _ _ _ s).bump (regAddr pPwr 0x10C) 1).rd (regAddr pPwr 0x10C) = _
  refine (State.rd_wr_same _ _ _).trans ?_
  rw [writeHist_dozes]
  rfl

end Sys2Proof.Machine

/-!
PROOFS. Watchful sleep (R290 to R298, O46): DOZE, its intervals, watches and stimuli, the gate that finds no frame, and RERANGE.
-/

namespace Sys2Proof.Machine

variable {s t u : State} {f : AB}

/-! ### DOZE is entered -/

theorem mayDoze_iff : mayDoze s = true → s.power.mode = .service .normal ∧ s.psw.sw = none := by
  intro may
  simp only [mayDoze, Bool.and_eq_true, beq_iff_eq, Option.isNone_iff_eq_none] at may
  obtain ⟨⟨⟨⟨⟨⟨⟨-, mode⟩, -⟩, -⟩, free⟩, -⟩, -⟩, -⟩ := may
  exact ⟨mode, free⟩

/-- The Sleep_Request waits to be sent, with no watch open. -/
def sleepAsked (f : AB) (s : State) : State :=
  s.setActSt f { s.act.get f with up := (s.act.get f).up ++ [.sleepRequest], gate := none, sleepSent := false }

theorem dozeEnter_spec (on : s.running = true) (idle : quiet s = true) (may : mayDoze s = true) : After (exec .dozeEnter s) fun t =>
    alike (.opt :: eventKept) s t ∧ t.power.mode = .service .doze ∧ t.power.lastCause = 0x30 ∧ t.rp pPwr 0x10C = s.rp pPwr 0x10C + 1 ∧
      (t.act.get (pswActive s)).up = (s.act.get (pswActive s)).up ++ [.sleepRequest] := by
  obtain ⟨mode, -⟩ := mayDoze_iff may
  let a := sleepAsked (pswActive s) s
  let b := modeTo (.service .doze) 0x30 a
  have awake : ServSub.normal ≠ .doze := by decide
  have mode' : a.power.mode = .service .normal := mode
  have run : exec .dozeEnter s = whenOn s (.next (lineSettle s b)) := by
    simp only [exec, execDozeEnter, may]
    rfl
  have power : b.power = { s.power with mode := .service .doze, lastCause := 0x30 } := modeTo_power _ _ a
  have moded : Settled true a b := settled_modeTo
  have idle' : quiet b = true := (quiet_settled moded).trans idle
  have lit (g : AB) : txOn g b = txOn g s := txOn_settled (s := a) moded (by rw [power]; rfl) (by rw [power]; rfl)
  have kept := (lineSettle_lit idle' lit).1
  have settled : Settled false b (lineSettle s b) := settled_lineSettle_quiet idle'
  have steady : Settled false (transition (.service .doze) 0x30 a) b := modeTo_service_settled mode' awake
  have told : (lineSettle s b).power = b.power := lineSettle_quiet_service idle' (x := .doze) (by rw [power])
  have act : (lineSettle s b).act = a.act := (kept .act (by decide)).trans (part_of_moves .act (modeTo_service_moves mode' awake) rfl)
  refine after_alike execDozeEnter_moves rfl on run ⟨?_, ?_, ?_, ?_⟩
  · rw [told, power]
  · rw [told, power]
  · exact settled.rp.trans (steady.rp.trans (transition_dozes _ a))
  · rw [act]
    change ((s.act.set (pswActive s) _).get (pswActive s)).up = _
    rw [Pair.get_set_same]

/-! ### Low-power intervals and watches -/

/-- Where the receiver is turned off, its reference is recorded (R291). -/
def receiverOff (f : AB) (s : State) : State :=
  let s := s.setActSt f { s.act.get f with refSfc := lfrSfc f s, refAt := (s.lfr.get f).arrival.getD s.tsu.time }
  (s.wp (pAct f) 0x198 (s.rp (pLfr f) 0x120)).setFlag (regAddr (pAct f) 0x180) 5 true

theorem receiverOff_spec (f : AB) (s : State) :
    rxOff f (receiverOff f s) = true ∧ ((receiverOff f s).act.get f).refSfc = lfrSfc f s ∧ moves [.regs, .act] s (receiverOff f s) ∧
      keepsRegs [regAddr (pAct f) 0x198, regAddr (pAct f) 0x180] s (receiverOff f s) := by
  let a := s.setActSt f { s.act.get f with refSfc := lfrSfc f s, refAt := (s.lfr.get f).arrival.getD s.tsu.time }
  let b := a.wp (pAct f) 0x198 (a.rp (pLfr f) 0x120)
  have words : moves [.regs] a (b.setFlag (regAddr (pAct f) 0x180) 5 true) := setFlag_moves.after rfl <| wp_moves.within rfl
  have act : (b.setFlag (regAddr (pAct f) 0x180) 5 true).act = a.act := words.1 .act (by decide)
  refine ⟨flag_setFlag_same b _ (by decide) true, ?_, words.after rfl <| setActSt_moves.within rfl, fun c hc => ?_⟩
  · change ((b.setFlag (regAddr (pAct f) 0x180) 5 true).act.get f).refSfc = _
    rw [act]
    change ((s.act.set f _).get f).refSfc = _
    rw [Pair.get_set_same]
  · simp only [List.mem_cons, List.not_mem_nil, or_false, not_or] at hc
    exact (rd_setFlag_other b hc.2 _ _).trans (State.rd_wr_other a hc.1 _)

theorem settled_dropSdu {w : Bool} {e : Nat} : Settled w s (dropSdu f e s) := by
  have set {x : Option Sdu} {u : State} : Settled w u (setSdu f e x u) := settled_of_moves (l := [.lfr]) with_lfr_moves rfl
  unfold dropSdu
  split
  · exact settled_refl w s
  · exact settled_ite (settled_refl w s) (settled_dropAt.after set)

theorem settled_loseChains {w : Bool} : Settled w s (loseChains f s) :=
  settled_ite (settled_foldl (fun _ _ => settled_dropSdu) s) (settled_of_moves pushMark_moves rfl)

/-- The hunt clears what the synchroniser held. -/
def huntCleared (f : AB) (s : State) : State :=
  let a := regAddr (pLfr f) 0x104
  let s := (s.setFld a 0 2 0).setFld a 4 2 0
  s.setLfr f { s.lfr.get f with matches_ := 0, misses := 0, fits := 0, misfits := 0, outFrames := 0, past := [], candPos := 0 }

theorem huntCleared_spec (f : AB) (s : State) :
    (huntCleared f s).fld (regAddr (pLfr f) 0x104) 0 2 = 0 ∧ moves [.regs, .lfr] s (huntCleared f s) ∧
      keepsRegs [regAddr (pLfr f) 0x104] s (huntCleared f s) := by
  let a := s.setFld (regAddr (pLfr f) 0x104) 0 2 0
  let b := a.setFld (regAddr (pLfr f) 0x104) 4 2 0
  have field : b.fld (regAddr (pLfr f) 0x104) 0 2 = 0 :=
    (fld_setFld_other a _ _ (.inl (by decide)) (by decide)).trans (fld_setFld_same s _ _ (by decide))
  have regs : keepsRegs [regAddr (pLfr f) 0x104] s b := fun c hc =>
    (setFld_keepsRegs _ _ _ _ a c hc).trans (setFld_keepsRegs _ _ _ _ s c hc)
  exact ⟨field, setLfr_moves.after rfl <| setFld_moves.after rfl <| setFld_moves.within rfl, regs⟩

theorem toHunt_spec (f : AB) (s : State) :
    (toHunt f s).fld (regAddr (pLfr f) 0x104) 0 2 = 0 ∧ Settled false (huntCleared f s) (toHunt f s) := by
  have later : Settled false (huntCleared f s) (toHunt f s) := settled_loseChains
  refine ⟨?_, later⟩
  rw [fld_congr (later.regs _ (by cases f <;> decide) fun g => by cases f <;> cases g <;> decide)]
  exact (huntCleared_spec f s).1

theorem lowPowerStart_spec (on : s.running = true) (idle : quiet s = true) (mode : s.power.mode = .service .doze)
    (rx : rxOff (pswActive s) s = false) (free : (s.act.get (pswActive s)).gate = none) : After (exec .lowPowerStart s) fun t =>
      alike (.opt :: eventKept) s t ∧ rxOff (pswActive s) t = true ∧ (t.act.get (pswActive s)).refSfc = lfrSfc (pswActive s) s ∧
      inSync (pswActive s) t = false ∧ t.power.mode = s.power.mode := by
  let f := pswActive s
  let a := receiverOff f s
  let b := toHunt f a
  obtain ⟨off, ref, recorded, regs⟩ := receiverOff_spec f s
  obtain ⟨-, cleared, regs'⟩ := huntCleared_spec f a
  obtain ⟨lost, hunted⟩ := toHunt_spec f a
  have here : ¬(s.power.mode ≠ .service .doze ∨ rxOff f s = true ∨ (s.act.get f).gate.isSome = true) := by
    rintro (other | dark | watching)
    · exact other mode
    · exact Bool.false_ne_true (rx.symm.trans dark)
    · rw [free] at watching
      cases watching
  have run : exec .lowPowerStart s = whenOn s (.next (lineSettle s b)) := congrArg (whenOn s) (if_neg here)
  have power : b.power = s.power := (part_of_moves .power toHunt_moves rfl).trans (part_of_moves .power recorded rfl)
  have act : b.act = a.act := part_of_moves .act toHunt_moves rfl
  have same {c : Nat} (low : stirred false c = false) (apart : ∀ g, c ≠ regAddr (pAct g) 0x180) (lfr : c ≠ regAddr (pLfr f) 0x104) :
      b.rd c = a.rd c := (hunted.regs c low apart).trans (regs' c (by simpa using lfr))
  have idle' : quiet b = true := by
    refine (quiet_congr ?_).trans idle
    refine (same (by decide) (fun g => by cases g <;> decide) (by cases f <;> decide)).trans (regs _ ?_)
    cases f <;> decide
  have settled : Settled false b (lineSettle s b) := settled_lineSettle_quiet idle'
  have sleep : b.rd (regAddr (pAct f) 0x180) = a.rd (regAddr (pAct f) 0x180) :=
    (hunted.asleep rfl f).trans (regs' _ (by cases f <;> decide))
  refine after_alike execLowPowerStart_moves rfl on run ⟨?_, ?_, ?_, ?_⟩
  · exact (flag_congr ((settled.asleep rfl f).trans sleep) 5).trans off
  · rw [settled.refSfc, act]
    exact ref
  · have field : (lineSettle s b).fld (regAddr (pLfr f) 0x104) 0 2 = 0 := by
      rw [fld_congr (settled.regs _ (by cases f <;> decide) fun g => by cases f <;> cases g <;> decide)]
      exact lost
    change ((lineSettle s b).fld (regAddr (pLfr f) 0x104) 0 2 == 2) = false
    rw [field]
    rfl
  · rw [lineSettle_quiet_service idle' (x := .doze) (by rw [power, mode]), power]

/-- A watch turns the receiver on again, and is counted. -/
def watching (f : AB) (ending : Bool) (s : State) : State :=
  let s := actCount f 9 (s.setFlag (regAddr (pAct f) 0x180) 5 false)
  s.setActSt f { s.act.get f with gate := some ⟨none, ending⟩ }

theorem watching_spec (f : AB) (ending : Bool) (s : State) :
    rxOff f (watching f ending s) = false ∧ ((watching f ending s).act.get f).gate = some ⟨none, ending⟩ ∧
      actCounted f 9 s (watching f ending s) ∧ moves [.regs, .ctrs, .hdrs, .links, .act] s (watching f ending s) ∧
      keepsRegs [regAddr (pAct f) 0x130, regAddr (pAct f) 0x180] s (watching f ending s) := by
  let a := s.setFlag (regAddr (pAct f) 0x180) 5 false
  let b := actCount f 9 a
  obtain ⟨counted, regs, -, -⟩ := countAt_spec (pAct f) 0x200 0x130 10 40 9 1 a
  have run : watching f ending s = b.setActSt f { b.act.get f with gate := some ⟨none, ending⟩ } := rfl
  have off : b.flag (regAddr (pAct f) 0x180) 5 = false :=
    (flag_congr (regs _ (by cases f <;> decide)) 5).trans (flag_setFlag_same s _ (by decide) false)
  have same : keepsRegs [regAddr (pAct f) 0x130, regAddr (pAct f) 0x180] s b := fun c hc => by
    simp only [List.mem_cons, List.not_mem_nil, or_false, not_or] at hc
    exact (regs c (by simpa using hc.1)).trans (rd_setFlag_other s hc.2 _ _)
  have parts : moves [.regs, .ctrs, .hdrs, .links] s b := actCount_moves.after rfl <| setFlag_moves.within rfl
  rw [run]
  refine ⟨off, ?_, counted, setActSt_moves.after rfl <| parts.within rfl, same⟩
  change ((b.act.set f _).get f).gate = _
  rw [Pair.get_set_same]

/-- After a watch has opened, settling keeps it, the receiver and the mode. -/
theorem watched_settled {x : ServSub} {old : State} (idle : quiet s = true) (mode : s.power.mode = .service x) :
    rxOff f (lineSettle old s) = rxOff f s ∧ ((lineSettle old s).act.get f).gate = (s.act.get f).gate ∧
      (lineSettle old s).ctr (regAddr (pAct f) (0x200 + 8 * 9)) = s.ctr (regAddr (pAct f) (0x200 + 8 * 9)) ∧
      (lineSettle old s).power.mode = s.power.mode := by
  have settled : Settled false s (lineSettle old s) := settled_lineSettle_quiet idle
  refine ⟨flag_congr (settled.asleep rfl f) 5, (settled.act f).2.1 rfl, settled.ctrs _ (by cases f <;> decide), ?_⟩
  rw [lineSettle_quiet_service idle mode]

theorem watch_spec (on : s.running = true) (idle : quiet s = true) (mode : s.power.mode = .service .doze) (rx : rxOff (pswActive s) s = true) :
    After (exec .watch s) fun t => alike (.opt :: eventKept) s t ∧ rxOff (pswActive s) t = false ∧
      (t.act.get (pswActive s)).gate = some ⟨none, false⟩ ∧ actCounted (pswActive s) 9 s t ∧ t.power.mode = s.power.mode := by
  let f := pswActive s
  let a := watching f false s
  obtain ⟨off, gate, counted, parts, regs⟩ := watching_spec f false s
  have here : ¬(s.power.mode ≠ .service .doze ∨ rxOff f s = false) := by
    rintro (other | light)
    · exact other mode
    · exact Bool.false_ne_true (light.symm.trans rx)
  have run : exec .watch s = whenOn s (.next (lineSettle s a)) := congrArg (whenOn s) (if_neg here)
  have power : a.power = s.power := parts.1 .power (by decide)
  have idle' : quiet a = true := (quiet_congr (regs _ (by cases f <;> decide))).trans idle
  obtain ⟨off', gate', count', mode'⟩ := watched_settled (f := f) (old := s) idle' (x := .doze) (by rw [power, mode])
  refine after_alike execWatch_moves rfl on run ⟨off'.trans off, gate'.trans gate, count'.trans counted, ?_⟩
  rw [mode', power]

/-! ### ACT_SLEEP as the master writes it -/

theorem mergeFields_sleep (f : AB) (old v : Word) : mergeFields (fieldsAt (pAct f) 0x180) old v =
    setBits (setBits (setBits 0 0 1 (bits v 0 1)) 4 1 (bits old 4 1)) 5 1 (bits old 5 1) := by
  cases f <;> rfl

theorem sleepMerged_rx (f : AB) (old v : Word) : bit (mergeFields (fieldsAt (pAct f) 0x180) old v) 5 = bit old 5 := by
  rw [mergeFields_sleep, bit_setBits _ _ _ _ _ (by decide), if_pos (by decide)]
  exact testBit_bits_within old (lo := 5) (w := 1) (by decide) (by decide)

theorem sleepMerged_enable (f : AB) (old v : Word) : bit (mergeFields (fieldsAt (pAct f) 0x180) old v) 0 = bit v 0 := by
  rw [mergeFields_sleep, bit_setBits_other _ (.inl (by decide)) (by decide), bit_setBits_other _ (.inl (by decide)) (by decide),
    bit_setBits _ _ _ _ _ (by decide), if_pos (by decide)]
  exact testBit_bits_within v (lo := 0) (w := 1) (by decide) (by decide)

/-- A write whose handler stores the word as a plain register does. -/
theorem writeReg_stored {m : AB} {p off : Nat} {h : Handler} {v : Word} (ok : admits m p off h v s = true)
    (stores : ∀ u, h.run m v u = storeReg p off v u) (other : regAddr p off ≠ regAddr pPrs 0x110) :
    let t := writeReg m p off h v s
    t.last = .done ∧ t.rp p off = mergeFields (fieldsAt p off) (s.rp p off) v ∧ keepsRegs (writeRegs p off) s t ∧
      keeps [.regs, .last, .nvs] s t := by
  let h' : Handler := { h with run := (plain p off).run }
  have ok' : admits m p off h' v s = true := ok
  have same : writeReg m p off h v s = writeReg m p off h' v s := by
    rw [writeReg_admits _ _ _ _ _ _ ok, writeReg_admits _ _ _ _ _ _ ok', stores]
    rfl
  rw [same]
  exact writeReg_stores ok' rfl other

theorem sleepEnWrite_spec {m : AB} (on : s.running = true) (ok : admits m (pAct f) 0x180 (sleepCtrlHandler f) (word 1) s = true) :
    After (exec (.sleepEnWrite m f true) s) fun t => t.last = .done ∧ t.flag (regAddr (pAct f) 0x180) 0 = true ∧
      keepsRegs (writeRegs (pAct f) 0x180) s t ∧ keeps [.regs, .last, .nvs] s t := by
  have plain (u : State) : (sleepCtrlHandler f).run m (word 1) u = storeReg (pAct f) 0x180 (word 1) u :=
    if_neg fun h => absurd h.2 (by decide)
  obtain ⟨last, value, regs, parts⟩ := writeReg_stored ok plain (by cases f <;> decide)
  refine after_running on (by rfl) ⟨last, ?_, regs, parts⟩
  change bit ((writeReg m (pAct f) 0x180 (sleepCtrlHandler f) (word 1) s).rp (pAct f) 0x180) 0 = true
  rw [value, sleepMerged_enable]
  decide

/-- A local stimulus of a feeder whose receiver is off opens its last watch (R294). -/
theorem stimulus_off (mode : s.power.mode = .service .doze) (rx : rxOff (pswActive s) s = true) :
    stimulus s = tsuUpdate (watching (pswActive s) true s) := by
  unfold stimulus watching
  rw [if_neg (fun h => h mode)]
  dsimp only
  rw [if_pos rx]

theorem wakeCmd_spec {m : AB} (on : s.running = true) (idle : quiet s = true) (mode : s.power.mode = .service .doze)
    (rx : rxOff (pswActive s) s = true) (ok : admits m (pAct (pswActive s)) 0x180 (sleepCtrlHandler (pswActive s))
      (word (s.fld (regAddr (pAct (pswActive s)) 0x180) 0 1 + 2)) s = true) :
    After (exec (.wakeCmd m (pswActive s)) s) fun t => alike (.opt :: lineKept) s t ∧ t.last = .done ∧ rxOff (pswActive s) t = false ∧
      (t.act.get (pswActive s)).gate = some ⟨none, true⟩ := by
  generalize active : pswActive s = f at *
  let v := word (s.fld (regAddr (pAct f) 0x180) 0 1 + 2)
  obtain ⟨u, used, same, wrote⟩ := writeReg_used ok
  let a := storeReg (pAct f) 0x180 v u
  obtain ⟨value, regs, stored⟩ := storeReg_spec (pAct f) 0x180 v u
  have wake : bit v 1 = true := by
    have small : s.fld (regAddr (pAct f) 0x180) 0 1 < 2 ^ 1 := bits_lt _ _ _
    change bit (word (s.fld (regAddr (pAct f) 0x180) 0 1 + 2)) 1 = true
    rw [bit_word (by decide), Nat.testBit_eq_decide_div_mod_eq]
    exact decide_eq_true (by omega)
  have other {c : Nat} (ne : c ≠ regAddr (pAct f) 0x180) (ne' : c ≠ regAddr pPrs 0x110) : a.rd c = s.rd c :=
    (regs c (by simpa using ne)).trans (same c (by simpa using ne'))
  have active' : pswActive a = f := by
    rw [pswActive, flag_congr (other (by cases f <;> decide) (by decide))]
    exact active
  have power : a.power = s.power := (stored .power (by decide)).trans (used.1 .power (by decide))
  have off : rxOff f a = true := by
    have kept : u.rp (pAct f) 0x180 = s.rp (pAct f) 0x180 := same _ (by cases f <;> decide)
    change bit (a.rp (pAct f) 0x180) 5 = true
    rw [value, sleepMerged_rx, kept]
    exact rx
  have mode' : a.power.mode = .service .doze := by rw [power, mode]
  have woken : stimulus a = tsuUpdate (watching f true a) := by
    have step := stimulus_off mode' (by rw [active']; exact off)
    rw [step, active']
  let b := tsuUpdate (watching f true a)
  have run : (sleepCtrlHandler f).run m v u = lineSettle u b := by
    refine (if_pos ⟨active', .inl wake⟩).trans ?_
    exact congrArg (lineSettle u) woken
  obtain ⟨light, gate, -, watched, regs'⟩ := watching_spec f true a
  have later : Settled false (watching f true a) b := settled_tsuUpdate
  have power' : b.power = s.power := (part_of_moves .power tsuUpdate_moves rfl).trans ((watched.1 .power (by decide)).trans power)
  have idle' : quiet b = true := by
    refine (quiet_settled later).trans ((quiet_congr ?_).trans idle)
    exact (regs' _ (by cases f <;> decide)).trans (other (by cases f <;> decide) (by decide))
  obtain ⟨light', gate', -, -⟩ := watched_settled (f := f) (old := u) idle' (x := .doze) (by rw [power', mode])
  have row : exec (.wakeCmd m f) s = whenOn s (.next (ended .ok 0 .none (lineSettle u b))) := by
    simp only [exec, execWakeCmd]
    rw [wrote, run]
  refine after_alike execWakeCmd_moves rfl on row ⟨rfl, ?_, ?_⟩
  · exact light'.trans ((flag_congr (later.asleep rfl f) 5).trans light)
  · exact gate'.trans (((later.act f).2.1 rfl).trans gate)

/-! ### The gate that finds no frame -/

/-- The terminal is not in DOZE. -/
def awakeMode (s : State) : Prop := s.power.mode ≠ .service .doze

theorem awakeMode_of_moves {m : List Part} (moved : moves m s t) (apart : m.contains .power = false) (h : awakeMode s) : awakeMode t := by
  have same : t.power = s.power := part_of_moves .power moved apart
  rw [awakeMode, same]
  exact h

theorem awakeMode_modeTo {dst : Mode} {cause : Nat} (ne : dst ≠ .service .doze) : awakeMode (modeTo dst cause s) := by
  rw [awakeMode, modeTo_power]
  exact ne

theorem awakeMode_lineReturn : awakeMode (lineReturn f s) := awakeMode_modeTo (by decide)

/-- The regain of a feeder that is back leaves HOLDOVER, or goes on waiting for its state. -/
def regainOf (f : AB) (s : State) : State :=
  let s := modeTo (.holdover .regain) 0x12 s
  let s := { s with psw := { s.psw with regain := some f } }
  if actState f s = aO5 then lineReturn f s else s

theorem regainCheck_cases (s : State) : regainCheck s = s ∨ ∃ f, regainCheck s = regainOf f s := by
  unfold regainCheck
  split
  · exact .inl rfl
  · dsimp only
    split
    · exact .inl rfl
    · rename_i f _
      exact .inr ⟨f, rfl⟩

theorem awakeMode_regainCheck (h : awakeMode s) : awakeMode (regainCheck s) := by
  obtain same | ⟨f, regains⟩ := regainCheck_cases s
  · rw [same]
    exact h
  · have started : awakeMode (modeTo (.holdover .regain) 0x12 s) := awakeMode_modeTo (by decide)
    rw [regains]
    unfold regainOf
    dsimp only
    generalize modeTo (.holdover .regain) 0x12 s = u at *
    exact ite_all awakeMode_lineReturn started

theorem touches_regainCheck : Touches (orActive tableZone) s (regainCheck s) := by
  obtain same | ⟨f, regains⟩ := regainCheck_cases s
  · rw [same]
    exact touches_refl _ s
  · have started : Touches (orActive tableZone) s (modeTo (.holdover .regain) 0x12 s) := touches_modeTo.mono fun _ => inside_orActive
    rw [regains]
    unfold regainOf
    dsimp only
    generalize modeTo (.holdover .regain) 0x12 s = u at *
    have named : Touches (orActive tableZone) u { u with psw := { u.psw with regain := some f } } := touches_of_moves (l := [.psw]) with_psw_moves rfl
    generalize ({ u with psw := { u.psw with regain := some f } } : State) = v at *
    exact Touches.after (touches_ite touches_lineReturn (touches_refl _ v)) (named.after started)

theorem touches_lineLost : Touches (orActive tableZone) s (lineLost s) :=
  touches_regainCheck.after (touches_modeTo.mono fun _ => inside_orActive)

theorem awakeMode_lineLost : awakeMode (lineLost s) := awakeMode_regainCheck (awakeMode_modeTo (by decide))

/-- The active feeder is lost in SERVICE with no switch under way: the other one takes over, or the line is lost. -/
theorem reportLoss_active {x : ServSub} {cause : Nat} (mode : s.power.mode = .service x) (free : s.psw.sw = none) (active : pswActive s = f) :
    reportLoss f cause s = startSwitch f.other cause s ∨ reportLoss f cause s = lineLost (abortAll f s) ∨
      reportLoss f cause s = raise pPsw 2 (lineLost (abortAll f s)) := by
  unfold reportLoss
  rw [mode]
  dsimp only
  rw [free]
  dsimp only
  rw [if_neg (fun h => h active)]
  split
  · exact .inl rfl
  · split
    · exact .inr (.inr rfl)
    · exact .inr (.inl rfl)

theorem reportLoss_awake {x : ServSub} {cause : Nat} (mode : s.power.mode = .service x) (free : s.psw.sw = none) (active : pswActive s = f) :
    awakeMode (reportLoss f cause s) ∧ Touches (orActive tableZone) s (reportLoss f cause s) := by
  have lost : Touches (orActive tableZone) s (lineLost (abortAll f s)) :=
    touches_lineLost.after ((tableZone_settled settled_abortAll).mono fun _ => inside_orActive)
  obtain switched | dark | warm := reportLoss_active (cause := cause) mode free active
  · rw [switched]
    refine ⟨?_, (tableZone_settled settled_startSwitch).mono fun _ => inside_orActive⟩
    rw [awakeMode, startSwitch_power]
    exact (by decide : Mode.service .pswitch ≠ .service .doze)
  · rw [dark]
    exact ⟨awakeMode_lineLost, lost⟩
  · rw [warm]
    exact ⟨awakeMode_of_moves raise_moves rfl awakeMode_lineLost, touches_raise.after lost⟩

theorem setActReg_switch (f : AB) (new cause : Nat) (s : State) : (setActReg f new cause s).psw.sw = s.psw.sw := by
  have opened (u : State) : (portOpened f u).psw.sw = u.psw.sw := rfl
  have follows (old : Nat) (u : State) : (followed f old new u).psw.sw = u.psw.sw := by
    unfold followed
    extract_lets _ s1 s2
    have left : s1.psw.sw = u.psw.sw := ite_all (P := fun t => t.psw.sw = u.psw.sw) rfl rfl
    have closed (port : Nat) : (setOmciPort f port false s1).psw = s1.psw := part_of_moves .psw setOmciPort_moves rfl
    have ports : s2.psw.sw = s1.psw.sw :=
      ite_all (P := fun t => t.psw.sw = s1.psw.sw) (opened s1) (ite_all (P := fun t => t.psw.sw = s1.psw.sw) (by rw [closed]) rfl)
    have told : (raise (pAct f) 0 s2).psw = s2.psw := part_of_moves .psw raise_moves rfl
    rw [told, ports, left]
  have cleared (u : State) : (clearRegistration f u).psw = u.psw := part_of_moves .psw clearRegistration_moves rfl
  rw [setActReg_eq, follows]
  exact ite_all (P := fun t => t.psw.sw = s.psw.sw) (by rw [cleared]; rfl) rfl

theorem awakeMode_lineSettle {old : State} (h : awakeMode s) : awakeMode (lineSettle old s) := by
  refine awakeMode_of_moves lineSettle_settles rfl ?_
  have stands : awakeMode (standing s) := by
    obtain same | ⟨-, power⟩ := standing_cases s
    · rw [same]
      exact h
    · rw [awakeMode, power]
      exact (by decide : Mode.service .pswitch ≠ .service .doze)
  obtain same | ⟨x, -, power⟩ := syncAttach_power (standing s)
  · rw [awakeMode, same]
    exact stands
  · rw [awakeMode, power]
    exact Mode.noConfusion

/-- A change of state that names no mode of its own keeps the power state of SERVICE. -/
theorem setAct_service {x : ServSub} {new cause : Nat} (mode : s.power.mode = .service x) (ne : new ≠ aO5) (ne' : new ≠ aO11)
    (plain : cause ≠ 10 ∧ cause ≠ 11 ∧ cause ≠ 13) : setAct f new cause s = setActReg f new cause s := by
  let v := setActReg f new cause s
  have power : v.power = s.power := part_of_moves .power setActReg_moves rfl
  have stays : actMode f (actState f s) new cause v = v := by
    unfold actMode
    rw [if_neg fun h => ne h.1]
    refine ite_eq_right_iff.mpr fun _ => ?_
    rw [power, mode]
    dsimp only
    rw [if_neg plain.1, if_neg plain.2.1, if_neg plain.2.2]
  rw [setAct_of_ne ne', stays]
  unfold syncAttach
  rw [power, mode]

/-- A loss that the frame synchroniser declares takes the active feeder from O5 to O6 and out of DOZE. -/
theorem declareLof_doze {x : ServSub} {cause : Nat} (mode : s.power.mode = .service x) (free : s.psw.sw = none) (st : actState f s = aO5)
    (active : pswActive s = f) : let t := declareLof f cause s
    lofNow f t = true ∧ actState f t = aO6 ∧ awakeMode t := by
  let a := s.setFlag (regAddr (pLfr f) 0x104) 9 true
  let b := raise (pLfr f) 1 (countAt (pLfr f) 0x200 0x130 6 40 15 1 a)
  let c := setAct f aO6 7 b
  let d := reportLoss f cause c
  obtain ⟨-, regs, -, counts⟩ := countAt_spec (pLfr f) 0x200 0x130 6 40 15 1 a
  have same {x : Nat} (ne : x ≠ regAddr (pLfr f) 0x130) : b.rd x = a.rd x := (raise_rd _ _ _ _).trans (regs x (by simpa using ne))
  have parts : keeps [.regs, .ctrs, .hdrs, .links] s b :=
    keeps_mono (keeps_trans (wr_keeps _ _ s) (keeps_trans counts (raise_keeps _ _ _))) (by decide)
  have power : b.power = s.power := parts .power (by decide)
  have psw : b.psw = s.psw := parts .psw (by decide)
  have stat : actState f b = aO5 := by
    refine (actState_congr ((same ?_).trans (rd_setFlag_other s ?_ _ _))).trans st
    · cases f <;> decide
    · cases f <;> decide
  have active' : pswActive b = f := by
    rw [pswActive, flag_congr ((same (by cases f <;> decide)).trans (rd_setFlag_other s (by cases f <;> decide) _ _))]
    exact active
  have lof : b.flag (regAddr (pLfr f) 0x104) 9 = true :=
    (flag_congr (same (by cases f <;> decide)) 9).trans (flag_setFlag_same s _ (by decide) true)
  have mode' : b.power.mode = .service x := by rw [power, mode]
  have plain : c = setActReg f aO6 7 b := setAct_service mode' (by decide) (by decide) (by decide)
  have power' : c.power = b.power := by
    rw [plain]
    exact part_of_moves .power setActReg_moves rfl
  have free' : c.psw.sw = none := by
    rw [plain, setActReg_switch, psw, free]
  obtain ⟨-, -, -, kept, -⟩ := setAct_spec f aO6 7 b
  have acted : Touches (orActive (actsOn f)) b c := kept (by decide)
  obtain ⟨woken, later⟩ := reportLoss_awake (cause := cause) (s := c) (f := f) (by rw [power', mode']) free' (by
    rw [plain, setActReg_active, active'])
  have ended : Touches (orActive tableZone) c (declareLof f cause s) ∧ awakeMode (declareLof f cause s) := by
    have run : declareLof f cause s = frameLost f cause b := rfl
    have again : Touches (orActive tableZone) d (regainCheck (modeTo (.holdover .lost) 0x13 d)) :=
      touches_regainCheck.after (touches_modeTo.mono fun _ => inside_orActive)
    have lost : frameLost f cause b = if d.power.mode = .holdover .regain ∧ d.psw.regain = some f ∧ actState f d ≠ aO5 then
        regainCheck (modeTo (.holdover .lost) 0x13 d) else d := by
      unfold frameLost
      dsimp only
      rw [stat, if_neg (show ¬(aO5 = aO12 ∨ aO5 = aO23 ∨ aO5 = aO4) by decide), if_pos (rfl : aO5 = aO5)]
    rw [run, lost]
    exact ⟨ite_all (P := Touches (orActive tableZone) c) (again.after later) later,
      ite_all (P := awakeMode) (awakeMode_regainCheck (awakeMode_modeTo (by decide))) woken⟩
  refine ⟨?_, ?_, ended.2⟩
  · refine (flag_congr ((ended.1.regs _ ?_).trans (acted.regs _ ?_)) 9).trans lof
    · cases f <;> decide
    · cases f <;> decide
  · refine (actState_congr (ended.1.regs _ ?_)).trans ((setAct_state (by decide) f 7 b).trans (if_neg fun h => absurd h.1 (by decide)))
    cases f <;> decide

theorem gateReacqTimeout_spec (on : s.running = true) (mode : s.power.mode = .service .doze) (gate : (s.act.get (pswActive s)).gate ≠ none)
    (free : s.psw.sw = none) (sync : inSync (pswActive s) s = false) (st : actState (pswActive s) s = aO5) :
    After (exec .gateReacqTimeout s) fun t => alike (.opt :: eventKept) s t ∧ lofNow (pswActive s) t = true ∧
      actState (pswActive s) t = aO6 ∧ t.power.mode ≠ .service .doze := by
  let f := pswActive s
  obtain ⟨lof, state, awake⟩ := declareLof_doze (cause := 2) mode free st rfl
  have here : ¬(s.power.mode ≠ .service .doze ∨ (s.act.get f).gate.isNone = true ∨ inSync f s = true) := by
    rintro (other | idle | found)
    · exact other mode
    · exact gate (Option.isNone_iff_eq_none.mp idle)
    · exact Bool.false_ne_true (sync.symm.trans found)
  have run : exec .gateReacqTimeout s = whenOn s (.next (lineSettle s (declareLof f 2 s))) := congrArg (whenOn s) (if_neg here)
  have later : Touches modeZone (declareLof f 2 s) (lineSettle s (declareLof f 2 s)) := touches_of_settled settled_lineSettle fun _ => id
  refine after_alike execGateReacqTimeout_moves rfl on run ⟨?_, ?_, awakeMode_lineSettle awake⟩
  · exact (flag_congr (later.regs _ (by cases pswActive s <;> decide)) 9).trans lof
  · exact (actState_congr (later.regs _ (by cases pswActive s <;> decide))).trans state

/-! ### RERANGE that lasts -/

theorem rerangeTimeout_spec (on : s.running = true) (mode : s.power.mode = .service .rerange) (first : s.psw.stuck = false) :
    After (exec .rerangeTimeout s) fun t => intRawBit t (pAct (pswActive s)) 7 = true ∧
      t.psw = { s.psw with stuck := true } ∧ keepsRegs [] s t ∧ keepsHdrs [pAct (pswActive s)] s t ∧ keeps [.psw, .hdrs, .links] s t := by
  let a : State := { s with psw := { s.psw with stuck := true } }
  have noted : moves [.psw] s a := with_psw_moves
  have here : ¬(s.power.mode ≠ .service .rerange ∨ s.psw.stuck = true) := by
    rintro (other | again)
    · exact other mode
    · exact Bool.false_ne_true (first.symm.trans again)
  have run : exec .rerangeTimeout s = whenOn s (.next (raise (pAct (pswActive s)) 7 a)) := congrArg (whenOn s) (if_neg here)
  have told := raise_keeps (pAct (pswActive s)) 7 a
  refine after_running on run ⟨raise_intRaw _ _ _ (by decide), told .psw (by decide), fun x _ => raise_rd _ _ _ x,
    fun q hq => raise_keepsHdrs _ _ a q hq, keeps_mono (keeps_trans noted.1 told) (by decide)⟩

/-- Settles O46, by what each event of watchful sleep does to the active feeder. -/
theorem watchfulSleep : Obligations.WatchfulSleep := by
  unfold Obligations.WatchfulSleep
  intro s on idle
  refine ⟨fun may => dozeEnter_spec on idle may, fun mode rx free => lowPowerStart_spec on idle mode rx free,
    fun mode rx => watch_spec on idle mode rx, fun m mode rx ok => wakeCmd_spec on idle mode rx ok,
    fun m g ok => sleepEnWrite_spec on ok, fun mode gate free sync st => gateReacqTimeout_spec on mode gate free sync st,
    fun mode first => rerangeTimeout_spec on mode first, fun _ again => ?_⟩
  exact (whenOn_running on _).trans (if_pos (.inr again))

end Sys2Proof.Machine

/-!
PROOFS. Protection between the feeders (R315 to R322, O48): the switches, the operator commands that ask for them, and the wait to restore.
-/

namespace Sys2Proof.Machine

variable {s t u : State} {f : AB}

/-! ### The switch that is under way -/

theorem tsuUpdate_psw : (tsuUpdate s).psw = s.psw := part_of_moves .psw tsuUpdate_moves rfl

/-- A change of mode to SERVICE keeps the switch that is under way. -/
theorem modeTo_switch {y : ServSub} {cause : Nat} : (modeTo (.service y) cause s).psw.sw = s.psw.sw := by
  unfold modeTo
  extract_lets _ s1 _ _ _ _ _ s2 s3 _ s4
  have told : s1.psw = s.psw := part_of_moves .psw transition_moves rfl
  have back : s2.psw = s1.psw := by
    unfold s2
    split
    · rfl
    · exact (‹∀ x, Mode.service y = Mode.service x → False› y rfl).elim
    · rfl
  have woken : s3.psw = s2.psw := by
    unfold s3
    split
    · exact ite_all (P := fun v => v.psw = s2.psw) rfl (part_of_moves .psw wakeRx_moves rfl)
    · rfl
  have settled : s4.psw.sw = s3.psw.sw := by
    unfold s4
    split
    · rfl
    · rfl
  have synced : (seqSync s s4).psw = s4.psw := part_of_moves .psw seqSync_moves rfl
  rw [tsuUpdate_psw, synced, settled, woken, back, told]

/-- A change of mode to SERVICE leaves the bursts. -/
theorem modeTo_service_btx {y : ServSub} {cause : Nat} : (modeTo (.service y) cause s).btx = s.btx := by
  unfold modeTo
  extract_lets _ s1 _ _ _ _ _ s2 s3 _ s4
  have told : s1.btx = s.btx := part_of_moves .btx transition_moves rfl
  have back : s2.btx = s1.btx := by
    unfold s2
    split
    · rfl
    · exact (‹∀ x, Mode.service y = Mode.service x → False› y rfl).elim
    · rfl
  have woken : s3.btx = s2.btx := by
    unfold s3
    split
    · exact ite_all (P := fun v => v.btx = s2.btx) rfl (part_of_moves .btx wakeRx_moves rfl)
    · rfl
  have settled : s4.btx = s3.btx := by
    unfold s4
    split
    · rfl
    · rfl
  have synced : (seqSync s s4).btx = s4.btx := part_of_moves .btx seqSync_moves rfl
  have updated : (tsuUpdate (seqSync s s4)).btx = (seqSync s s4).btx := part_of_moves .btx tsuUpdate_moves rfl
  rw [updated, synced, settled, woken, back, told]

/-- The command register turns no transmitter on or off. -/
theorem txOn_commands (s : State) (v : Word) : txOn f (s.wp pPsw 0x108 v) = txOn f s := by
  have opt (off : Nat) (low : off < 0x1000) : (s.wp pPsw 0x108 v).rd (regAddr (pOpt f) off) = s.rd (regAddr (pOpt f) off) :=
    State.rd_wr_other s (by cases f <;> simp only [regAddr, pOpt, pPsw, AB.num] <;> omega) v
  have state : actState f (s.wp pPsw 0x108 v) = actState f s := actState_congr (State.rd_wr_other s (by cases f <;> decide) v)
  simp only [txOn, cageFree, modPresent, modAccepted, State.flag, opt _ (show 0x100 < 0x1000 by decide), opt _ (show 0x104 < 0x1000 by decide), state]
  rfl

theorem wtrWatched_switch : (wtrWatched s).psw.sw = s.psw.sw := by
  let P (v : State) : Prop := v.psw.sw = s.psw.sw
  have told (v : State) : (raise pPsw 3 v).psw = v.psw := part_of_moves .psw raise_moves rfl
  exact ite_all (P := P) (ite_all (P := P) rfl (by change (raise _ _ _).psw.sw = _; rw [told])) rfl

theorem darkened_moves {old : State} : moves [.regs, .ctrs, .hdrs, .out, .free, .links, .buf, .mac, .act, .btx, .omciUpQ] s (darkened old f s) :=
  moves_ite (abortAll_moves.within rfl) moves_rfl

/-- Settling keeps the switch that is under way, where no standing command starts one. -/
theorem lineSettle_switch {old : State} (stands : standing s = s) : (lineSettle old s).psw.sw = s.psw.sw := by
  let v := tsuUpdate (syncAttach s)
  have dark (g : AB) (x : State) : (darkened old g x).psw = x.psw := part_of_moves .psw darkened_moves rfl
  have told (x : State) : (warmTold old x).psw = x.psw :=
    part_of_moves .psw (moves_ite (raise_moves.within rfl) moves_rfl : moves [.hdrs, .links] x (warmTold old x)) rfl
  have attach : (syncAttach s).psw = s.psw := part_of_moves .psw syncAttach_moves rfl
  rw [lineSettle_eq, stands, told, dark, dark, wtrWatched_switch, tsuUpdate_psw, attach]

/-- While a switch is under way, no standing command starts another. -/
theorem standing_switching (under : s.psw.sw ≠ none) : standing s = s := by
  unfold standing
  split
  · rfl
  · rw [if_pos]
    simp [Option.isSome_iff_ne_none.mpr under]

/-- A switch has started: where it leads and why, since when, and the mode. -/
theorem startSwitch_spec (dst : AB) (cause : Nat) (s : State) :
    let t := startSwitch dst cause s
    t.psw.sw = some ⟨dst, cause, s.clock⟩ ∧ t.power = { s.power with mode := .service .pswitch, lastCause := 0x33 } ∧ Settled true s t := by
  refine ⟨?_, startSwitch_power dst cause s, settled_startSwitch⟩
  unfold startSwitch
  rw [modeTo_switch]
  dsimp only
  have clock {v : State} (moved : moves [.regs, .ctrs, .hdrs, .out, .free, .links, .buf, .mac, .act, .btx, .omciUpQ] s v) : v.clock = s.clock :=
    moved.1 .clock (by decide)
  have back (v : State) : moves [.regs, .ctrs, .hdrs, .out, .free, .links, .buf, .mac, .act, .btx, .omciUpQ] v
      (if cause ≤ 2 then abortAll dst.other v else recallBursts dst.other v) := moves_ite abortAll_moves (recallBursts_moves.within rfl)
  rw [clock ((back _).after rfl <| setBtx_moves.within rfl)]

/-- After a switch has started, settling keeps it and the mode. -/
theorem switched_settled {dst : AB} {cause : Nat} {old : State} :
    let t := lineSettle old (startSwitch dst cause s)
    t.psw.sw = some ⟨dst, cause, s.clock⟩ ∧ t.power = { s.power with mode := .service .pswitch, lastCause := 0x33 } ∧
      Settled true s t := by
  obtain ⟨under, power, settled⟩ := startSwitch_spec dst cause s
  have stands : standing (startSwitch dst cause s) = startSwitch dst cause s := standing_switching (by rw [under]; exact Option.some_ne_none _)
  refine ⟨(lineSettle_switch stands).trans under, ?_, settled_lineSettle.after settled⟩
  have later : (lineSettle old (startSwitch dst cause s)).power = (syncAttach (standing (startSwitch dst cause s))).power :=
    lineSettle_settles.1 .power (by decide)
  rw [later, stands]
  obtain same | ⟨y, attach, -⟩ := syncAttach_power (startSwitch dst cause s)
  · rw [same, power]
  · rw [power] at attach
    cases attach

/-! ### The wait to restore (R320) -/

theorem wtrExpiry_spec (on : s.running = true) (waits : s.psw.wtr = true) (ready : revertReady s = true) : After (exec .wtrExpiry s) fun t =>
    alike (.opt :: eventKept) s t ∧ t.psw.sw = some ⟨effPref s, 5, s.clock⟩ ∧ t.power.mode = .service .pswitch ∧
      t.power.lastCause = 0x33 := by
  have run : exec .wtrExpiry s = whenOn s (.next (lineSettle s (startSwitch (effPref s) 5 s))) := by
    simp only [exec, execWtrExpiry, waits, ready]
    rfl
  obtain ⟨under, power, -⟩ := switched_settled (s := s) (dst := effPref s) (cause := 5) (old := s)
  refine after_alike execWtrExpiry_moves rfl on run ⟨under, ?_, ?_⟩
  · rw [power]
  · rw [power]

/-! ### The end of a switch -/

theorem flag_setField_other (s : State) {a lo w n i : Nat} (apart : i < lo ∨ lo + w ≤ i) (small : i < 32) :
    (s.setFld a lo w n).flag a i = s.flag a i := by
  rw [State.flag, State.setFld, State.rd_wr_same, bit_setBits_other _ apart small, State.flag]

theorem setActive_active (f : AB) (s : State) : pswActive (setActive f s) = f := by
  unfold setActive
  split
  · assumption
  · have named : ((dropRemains f.other s).setFlag (regAddr pPsw 0x100) 0 (f == .b)).flag (regAddr pPsw 0x100) 0 = (f == .b) :=
      flag_setFlag_same _ _ (by decide) _
    change (if ((dropRemains f.other s).setFlag (regAddr pPsw 0x100) 0 (f == .b)).flag (regAddr pPsw 0x100) 0 = true then AB.b else AB.a) = f
    rw [named]
    cases f <;> rfl

/-- The end of a switch, before the terminal leaves its mode: the feeder is active, and the switch is counted with its time and its cause. -/
def switchEnded (w : Switch) (s : State) : State :=
  let s := s.setBtx w.dst.other { s.btx.get w.dst.other with out := false }
  let s := setActive w.dst { s with psw := { s.psw with sw := none } }
  let us := s.clock - w.since
  let s := (s.bump (regAddr pPsw 0x114) 1).wp pPsw 0x118 (word (if us > 255 then 255 else us))
  s.setFld (regAddr pPsw 0x100) 16 4 w.cause

theorem switchEnded_spec (w : Switch) (s : State) :
    let t := switchEnded w s
    pswActive t = w.dst ∧ t.psw.sw = none ∧ t.power = s.power ∧ t.rp pPsw 0x114 = s.rp pPsw 0x114 + 1 ∧
      t.fld (regAddr pPsw 0x100) 16 4 = w.cause % 16 ∧ t.rd (regAddr pPsw 0x108) = s.rd (regAddr pPsw 0x108) := by
  let a := s.setBtx w.dst.other { s.btx.get w.dst.other with out := false }
  let b : State := { a with psw := { a.psw with sw := none } }
  let c := setActive w.dst b
  let d := c.bump (regAddr pPsw 0x114) 1
  let e := d.wp pPsw 0x118 (word (if c.clock - w.since > 255 then 255 else c.clock - w.since))
  have run : switchEnded w s = e.setFld (regAddr pPsw 0x100) 16 4 w.cause := rfl
  have words : moves [.regs] c (e.setFld (regAddr pPsw 0x100) 16 4 w.cause) := setFld_moves.after rfl <| wp_moves.after rfl <| bump_moves.within rfl
  have zone : Touches (orActive tableZone) b c := touches_setActive
  have active : pswActive c = w.dst := setActive_active w.dst b
  have shown : e.rd (regAddr pPsw 0x100) = c.rd (regAddr pPsw 0x100) :=
    (State.rd_wr_other d (by decide) _).trans (State.rd_wr_other c (by decide) _)
  have none : c.psw.sw = none := by
    change (setActive w.dst b).psw.sw = none
    unfold setActive
    refine ite_all (P := fun x => x.psw.sw = none) rfl ?_
    have dropped : (setPswActive w.dst (dropRemains w.dst.other b)).psw = b.psw :=
      part_of_moves .psw (setPswActive_moves.after rfl <| dropRemains_moves.within rfl :
        moves [.regs, .ctrs, .hdrs, .out, .links, .buf, .mac, .btx] b _) rfl
    change (setPswActive w.dst (dropRemains w.dst.other b)).psw.sw = none
    rw [dropped]
  have power : c.power = s.power := (part_of_moves .power setActive_moves rfl : _ = b.power)
  have psw : (e.setFld (regAddr pPsw 0x100) 16 4 w.cause).psw = c.psw := words.1 .psw (by decide)
  rw [run]
  refine ⟨?_, ?_, (words.1 .power (by decide)).trans power, ?_, fld_setFld_same e _ _ (by decide), ?_⟩
  · have flag : (e.setFld (regAddr pPsw 0x100) 16 4 w.cause).flag (regAddr pPsw 0x100) 0 = c.flag (regAddr pPsw 0x100) 0 :=
      (flag_setField_other e (.inl (by decide)) (by decide)).trans (flag_congr shown 0)
    rw [← active, pswActive, pswActive, flag]
  · rw [psw, none]
  · have same : c.rd (regAddr pPsw 0x114) = s.rd (regAddr pPsw 0x114) := zone.regs _ (by decide)
    refine (rd_setFld_other e (by decide) _ _ _).trans <| (State.rd_wr_other d (by decide) _).trans <| (State.rd_wr_same c _ _).trans ?_
    rw [same]
    rfl
  · exact (rd_setFld_other e (by decide) _ _ _).trans <| (State.rd_wr_other d (by decide) _).trans <|
      (State.rd_wr_other c (by decide) _).trans (zone.regs _ (by decide))

theorem switchComplete_spec {w : Switch} (on : s.running = true) (idle : quiet s = true) (under : s.psw.sw = some w)
    (mode : s.power.mode = .service .pswitch) : After (exec .switchComplete s) fun t =>
      alike (.opt :: eventKept) s t ∧ pswActive t = w.dst ∧ t.psw.sw = none ∧ t.power.mode = .service .normal ∧ t.power.lastCause = 0x34 ∧
      t.rp pPsw 0x114 = s.rp pPsw 0x114 + 1 ∧ t.fld (regAddr pPsw 0x100) 16 4 = w.cause % 16 ∧ intRawBit t pPsw 0 = true := by
  let a := switchEnded w s
  let b := modeTo (.service .normal) 0x34 a
  let c := raise pPsw 0 b
  obtain ⟨active, none, power, count, cause, cmds⟩ := switchEnded_spec w s
  have run : exec .switchComplete s = whenOn s (.next (lineSettle s c)) := by
    have ended : switchComplete s = c := by
      unfold switchComplete
      rw [under, mode]
      rfl
    simp only [exec, execSwitchComplete, ended]
  have settled : Settled true a c := settled_raise.after settled_modeTo
  have idle' : quiet c = true := (quiet_settled settled).trans ((quiet_congr cmds).trans idle)
  have later : Settled true a (lineSettle s c) := settled_lineSettle.after settled
  have power' : c.power = { s.power with mode := .service .normal, lastCause := 0x34 } := by
    have told : c.power = b.power := part_of_moves .power raise_moves rfl
    rw [told, modeTo_power, power]
  have told : (lineSettle s c).power = c.power := lineSettle_quiet_service idle' (x := .normal) (by rw [power'])
  have free : c.psw.sw = Option.none := by
    have same : c.psw = b.psw := part_of_moves .psw raise_moves rfl
    rw [same, modeTo_switch]
    exact none
  have rest : Settled true c (lineSettle s c) := settled_lineSettle
  refine after_alike execSwitchComplete_moves rfl on run ⟨?_, ?_, ?_, ?_, ?_, ?_, ?_⟩
  · rw [pswActive, flag_congr later.rp]
    exact active
  · exact (lineSettle_switch (standing_quiet idle')).trans free
  · rw [told, power']
  · rw [told, power']
  · exact later.rp.trans count
  · exact (fld_congr later.rp _ _).trans cause
  · exact rest.intRaw (raise_intRaw _ _ _ (by decide))

/-! ### A feeder that is warm -/

theorem any_range_congr {n : Nat} {p q : Nat → Bool} (same : ∀ k, k < n → p k = q k) : (List.range n).any p = (List.range n).any q := by
  rw [Bool.eq_iff_iff, List.any_eq_true, List.any_eq_true]
  refine exists_congr fun k => and_congr_right fun listed => ?_
  rw [same k (List.mem_range.mp listed)]

/-- A command register that is written, with a use of a presence token counted. -/
structure Commanded (s t : State) : Prop where
  parts : moves [.regs] s t
  regs : keepsRegs [regAddr pPsw 0x108, regAddr pPrs 0x110] s t

theorem Commanded.rd (h : Commanded s t) {a : Nat} (high : 0x20000 ≤ a) (apart : a ≠ 0x26108) : t.rd a = s.rd a := by
  refine h.regs a ?_
  simp only [List.mem_cons, List.not_mem_nil, or_false, not_or]
  unfold regAddr pPsw pPrs
  omega

theorem Commanded.power (h : Commanded s t) : t.power = s.power := h.parts.1 .power (by decide)

theorem Commanded.active (h : Commanded s t) : pswActive t = pswActive s := by
  rw [pswActive, pswActive, flag_congr (h.rd (by decide) (by decide))]

theorem Commanded.carrier (h : Commanded s t) : carrier t = carrier s := by
  unfold Machine.carrier
  rw [h.power, h.active]

theorem Commanded.hdr (h : Commanded s t) (p : Nat) : t.hdr p = s.hdr p := keepsHdrs_of_keeps h.parts.1 (by decide) p List.not_mem_nil

theorem Commanded.served (h : Commanded s t) {n : Nat} (few : n < 32) : servedOn f n t = servedOn f n s := by
  have page (off : Nat) (low : off < 0x1000) : t.rd (regAddr (pBtx f) off) = s.rd (regAddr (pBtx f) off) := by
    have num : f.num < 2 := by cases f <;> decide
    refine h.rd ?_ ?_ <;> unfold regAddr pBtx <;> omega
  have map : mapOf f n t = mapOf f n s := by
    unfold mapOf State.flag State.fld
    rw [page _ (by omega)]
  have holds (id : Nat) : assigned f id t = assigned f id s := any_range_congr fun k hk => by
    unfold State.rp
    rw [page _ (by omega)]
  unfold servedOn
  rw [map]
  cases mapOf f n s with
  | none => rfl
  | some id => exact holds id

/-- Whether a feeder is warm does not depend on the commands. -/
theorem Commanded.warm (h : Commanded s t) : warm f t = warm f s := by
  have psw : t.psw = s.psw := h.parts.1 .psw (by decide)
  have page (p off : Nat) (high : 0x20 ≤ p) (apart : p ≠ 0x26) (low : off < 0x1000) : t.rd (regAddr p off) = s.rd (regAddr p off) :=
    h.rd (by unfold regAddr; omega) (by unfold regAddr; omega)
  have act (off : Nat) (low : off < 0x1000) : t.rd (regAddr (pAct f) off) = s.rd (regAddr (pAct f) off) :=
    page _ _ (by cases f <;> decide) (by cases f <;> decide) low
  have btx (off : Nat) (low : off < 0x1000) : t.rd (regAddr (pBtx f) off) = s.rd (regAddr (pBtx f) off) :=
    page _ _ (by cases f <;> decide) (by cases f <;> decide) low
  have opt : t.rd (regAddr (pOpt f) 0x100) = s.rd (regAddr (pOpt f) 0x100) := page _ _ (by cases f <;> decide) (by cases f <;> decide) (by decide)
  have lfr : t.rp (pLfr f) 0x104 = s.rp (pLfr f) 0x104 := page _ _ (by cases f <;> decide) (by cases f <;> decide) (by decide)
  have key : t.rd (regAddr pCry 0x100) = s.rd (regAddr pCry 0x100) := page _ _ (by decide) (by decide) (by decide)
  have free : (modPresent f t && cageFree f t) = (modPresent f s && cageFree f s) := by
    simp only [modPresent, cageFree, State.running, State.flag, opt, h.power, h.hdr]
  have state : t.pstate (pBtx f) = s.pstate (pBtx f) := congrArg Hdr.state (h.hdr _)
  have limit : guardLimit f t = guardLimit f s := by
    unfold guardLimit upRateOf State.fld
    rw [act _ (by decide), btx _ (by decide)]
  have leaves : departure f t = departure f s := by
    unfold departure
    rw [psw]
  have others (c : AB) : (List.range 32).any (fun n => servedOn c n t && !servedOn f n t) =
      (List.range 32).any (fun n => servedOn c n s && !servedOn f n s) :=
    any_range_congr fun n few => by rw [h.served few, h.served few]
  have miss : warmMiss f t = warmMiss f s := by
    unfold warmMiss State.fld
    simp only [free, lfr, key, h.carrier, state, limit, leaves, others, actState_congr (act 0x100 (by decide)),
      eqdValid_congr (act 0x110 (by decide))]
  unfold Machine.warm
  rw [h.carrier, miss]

/-! ### Operator commands (R319, Table 10-2) -/

/-- What a command leaves in its register: a FORCE, and the LOCKOUT bits. -/
def commandWord (v : Word) : Word := word ((if 3 ≤ bits v 0 3 then bits v 0 3 else 0) + bits v 4 2 * 16)

/-- A MANUAL command that nothing stands against starts its switch. -/
def manualSwitch (v : Word) (s : State) : State :=
  if (bits v 0 3 = 1 ∨ bits v 0 3 = 2) ∧ (carrier s).isSome = true ∧ s.psw.sw.isNone = true then startSwitch (cmdFeeder (bits v 0 3)) 4 s else s

/-- An accepted command: its register is written, what stands is evaluated, and the line settles. -/
theorem pswCommand_wrote {m : AB} {v : Word} (ok : admits m pPsw 0x108 pswCmdHandler v s = true) :
    ∃ u, Commanded s (u.wp pPsw 0x108 (commandWord v)) ∧ u.clock = s.clock ∧ writeReg m pPsw 0x108 pswCmdHandler v s =
      ended .ok 0 .none (lineSettle u (regainCheck (manualSwitch v (standing (u.wp pPsw 0x108 (commandWord v)))))) := by
  obtain ⟨u, used, same, wrote⟩ := writeReg_used ok
  refine ⟨u, ⟨wp_moves.after rfl used, fun a ha => ?_⟩, used.1 .clock (by decide), wrote⟩
  simp only [List.mem_cons, List.not_mem_nil, or_false, not_or] at ha
  exact (State.rd_wr_other u ha.1 _).trans (same a (by simpa using ha.2))

/-- Nothing that follows from a command changes its register. -/
theorem pswCommand_stands {v : Word} (u : State) :
    (lineSettle u (regainCheck (manualSwitch v (standing (u.wp pPsw 0x108 (commandWord v)))))).rd (regAddr pPsw 0x108) = commandWord v := by
  let a := u.wp pPsw 0x108 (commandWord v)
  have stands : Settled true a (standing a) := settled_standing
  have manual : Settled true (standing a) (manualSwitch v (standing a)) := settled_ite settled_startSwitch (settled_refl _ _)
  have regained : Touches (orActive tableZone) (manualSwitch v (standing a)) (regainCheck (manualSwitch v (standing a))) := touches_regainCheck
  have settled : Settled true (regainCheck (manualSwitch v (standing a))) (lineSettle u (regainCheck (manualSwitch v (standing a)))) :=
    settled_lineSettle
  refine (settled.regs _ (by decide) fun g => by cases g <;> decide).trans <| (regained.regs _ (by decide)).trans <|
    (manual.regs _ (by decide) fun g => by cases g <;> decide).trans <|
    (stands.regs _ (by decide) fun g => by cases g <;> decide).trans (State.rd_wr_same u _ _)

theorem lockedOut_word {v : Word} (g : AB) (at_ : s.rd (regAddr pPsw 0x108) = commandWord v) : lockedOut g s = bit v (4 + g.num) := by
  have small : bits v 0 3 < 2 ^ 3 := bits_lt _ _ _
  have field (i : Nat) (low : i < 2) : bit (commandWord v) (4 + i) = (bits v 4 2).testBit i := by
    have few : bits v 4 2 < 2 ^ 2 := bits_lt _ _ _
    rw [commandWord, bit_word (by omega), Nat.testBit_eq_decide_div_mod_eq, Nat.testBit_eq_decide_div_mod_eq]
    have : (4 + i = 4 ∧ i = 0) ∨ (4 + i = 5 ∧ i = 1) := by omega
    refine decide_eq_decide.mpr ?_
    rcases this with ⟨e, rfl⟩ | ⟨e, rfl⟩ <;> split <;> omega
  have own : (bits v 4 2).testBit g.num = bit v (4 + g.num) := by
    have num : g.num < 2 := by cases g <;> decide
    have within := testBit_bits_within v (lo := 4) (w := 2) (i := 4 + g.num) (by omega) (by omega)
    rwa [Nat.add_sub_cancel_left] at within
  rw [lockedOut, State.flag, at_, field _ (by cases g <;> decide), own]

theorem forced_word {v : Word} (at_ : s.rd (regAddr pPsw 0x108) = commandWord v) (low : bits v 0 3 < 3) : forced s = none := by
  have field : s.fld (regAddr pPsw 0x108) 0 3 = 0 := by
    rw [State.fld, at_, commandWord, if_neg (by omega), bits_word (by decide)]
    omega
  unfold forced
  rw [field]
  rfl

theorem lockWord_bits {n : Nat} (small : n < 2 ^ 3) (a b : Bool) :
    bit (word (n + b2n a * 16 + b2n b * 32)) 4 = a ∧ bit (word (n + b2n a * 16 + b2n b * 32)) 5 = b := by
  have few (x : Bool) : b2n x = 0 ∧ x = false ∨ b2n x = 1 ∧ x = true := by cases x <;> decide
  rw [bit_word (by decide), bit_word (by decide), Nat.testBit_eq_decide_div_mod_eq, Nat.testBit_eq_decide_div_mod_eq]
  rcases few a with ⟨na, rfl⟩ | ⟨na, rfl⟩ <;> rcases few b with ⟨nb, rfl⟩ | ⟨nb, rfl⟩ <;>
    simp only [na, nb, decide_eq_true_eq, decide_eq_false_iff_not] <;> omega

/-- A command of LOCKOUT bits, with what stands of a FORCE. -/
theorem pswLockout_spec {m : AB} {a b : Bool} (on : s.running = true)
    (ok : admits m pPsw 0x108 pswCmdHandler (word (s.fld (regAddr pPsw 0x108) 0 3 + b2n a * 16 + b2n b * 32)) s = true) :
    After (exec (.pswLockout m a b) s) fun t =>
      alike (.opt :: lineKept) s t ∧ t.last = .done ∧ lockedOut .a t = a ∧ lockedOut .b t = b := by
  let v := word (s.fld (regAddr pPsw 0x108) 0 3 + b2n a * 16 + b2n b * 32)
  have small : s.fld (regAddr pPsw 0x108) 0 3 < 2 ^ 3 := bits_lt _ _ _
  obtain ⟨bitA, bitB⟩ := lockWord_bits small a b
  obtain ⟨u, -, -, wrote⟩ := pswCommand_wrote ok
  have row : exec (.pswLockout m a b) s = whenOn s (.next (ended .ok 0 .none
      (lineSettle u (regainCheck (manualSwitch v (standing (u.wp pPsw 0x108 (commandWord v)))))))) := by
    simp only [exec, execPswLockout]
    rw [wrote]
  have held := pswCommand_stands (v := v) u
  refine after_alike execPswLockout_moves rfl on row ⟨rfl, ?_, ?_⟩
  · exact (lockedOut_word .a held).trans bitA
  · exact (lockedOut_word .b held).trans bitB

theorem pswClear_spec {m : AB} (on : s.running = true) (ok : admits m pPsw 0x108 pswCmdHandler (word (lockBits s)) s = true) :
    After (exec (.pswClear m) s) fun t => alike (.opt :: lineKept) s t ∧ t.last = .done ∧ forced t = none ∧
      lockedOut .a t = lockedOut .a s ∧ lockedOut .b t = lockedOut .b s := by
  let v := word (lockBits s)
  have small : s.fld (regAddr pPsw 0x108) 4 2 < 2 ^ 2 := bits_lt _ _ _
  have cmd : bits v 0 3 = 0 := by
    change bits (word (s.fld (regAddr pPsw 0x108) 4 2 * 16)) 0 3 = 0
    rw [bits_word (by decide)]
    omega
  have same (g : AB) : bit v (4 + g.num) = lockedOut g s := by
    have num : g.num < 2 := by cases g <;> decide
    have own : (s.fld (regAddr pPsw 0x108) 4 2).testBit g.num = lockedOut g s := by
      have within := testBit_bits_within (s.rd (regAddr pPsw 0x108)) (lo := 4) (w := 2) (i := 4 + g.num) (by omega) (by omega)
      rwa [Nat.add_sub_cancel_left] at within
    change bit (word (s.fld (regAddr pPsw 0x108) 4 2 * 16)) (4 + g.num) = _
    rw [← own, bit_word (by omega), Nat.testBit_eq_decide_div_mod_eq, Nat.testBit_eq_decide_div_mod_eq]
    refine decide_eq_decide.mpr ?_
    cases g <;> simp only [AB.num] <;> omega
  obtain ⟨u, -, -, wrote⟩ := pswCommand_wrote ok
  have row : exec (.pswClear m) s = whenOn s (.next (ended .ok 0 .none
      (lineSettle u (regainCheck (manualSwitch v (standing (u.wp pPsw 0x108 (commandWord v)))))))) := by
    simp only [exec, execPswClear]
    rw [wrote]
  have held := pswCommand_stands (v := v) u
  refine after_alike execPswClear_moves rfl on row ⟨rfl, forced_word held (by rw [cmd]; decide), ?_, ?_⟩
  · exact (lockedOut_word .a held).trans (same .a)
  · exact (lockedOut_word .b held).trans (same .b)

/-! ### Commands that start a switch -/

/-- During a switch a command other than CLEAR is refused. -/
theorem pswCmd_switching {m : AB} {n : Nat} (small : n < 8) (ne : n ≠ 0) (under : inPswitch s = true) :
    pswCmdHandler.range m (word n) s = true := by
  have cmd : bits (word n) 0 3 = n := by
    rw [bits_word (by decide)]
    omega
  change pswCmdRefused (word n) s = true
  unfold pswCmdRefused
  dsimp only
  rw [if_pos under, cmd]
  simp [ne]

/-- A command that names a feeder is accepted only outside a switch. -/
theorem free_of_pswCmd {m : AB} {n : Nat} (small : n < 8) (ne : n ≠ 0) (ok : admits m pPsw 0x108 pswCmdHandler (word n) s = true) :
    inPswitch s = false ∧ s.psw.sw = none := by
  have free : inPswitch s = false := by
    cases under : inPswitch s with
    | false => rfl
    | true =>
      have range := range_of_admits ok
      rw [pswCmd_switching small ne under] at range
      cases range
  refine ⟨free, ?_⟩
  simp only [inPswitch, Bool.or_eq_false_iff] at free
  exact Option.isNone_iff_eq_none.mp (by simpa using free.1)

theorem regainCheck_service {x : ServSub} (mode : s.power.mode = .service x) : regainCheck s = s := by
  unfold regainCheck
  rw [if_pos]
  rw [mode]
  exact Mode.noConfusion

/-- A feeder whose switch is under way sends no new burst. -/
def outKept (s t : State) : Prop := ∀ g, (t.btx.get g).out = (s.btx.get g).out

theorem outKept_of_moves {l : List Part} (moved : moves l s t) (apart : l.contains .btx = false) : outKept s t := by
  have same : t.btx = s.btx := part_of_moves .btx moved apart
  intro g
  rw [same]

theorem outKept_setBtx {x : BtxSt} (out : x.out = (s.btx.get f).out) : outKept s (s.setBtx f x) := by
  intro g
  change ((s.btx.set f x).get g).out = _
  by_cases same : g = f
  · rw [same, Pair.get_set_same, out]
  · rw [Pair.get_set_other _ same]

theorem outKept_recallBursts : outKept s (recallBursts f s) := by
  have remain {n : Nat} {r : Option Remain} {u : State} : outKept u (setRemain f n r u) := outKept_setBtx (by rfl)
  have item (n : Option Nat) (i : UpItem) (u : State) : outKept u (recallItem f n i u) := by
    cases i with
    | ploamu p => exact outKept_of_moves setActSt_moves rfl
    | omci p l => exact outKept_of_moves (l := [.omciUpQ]) with_omciUpQ_moves rfl
    | sdu p a q off k port lf enc =>
      cases n with
      | none => exact fun _ => rfl
      | some n =>
        have back : outKept (setRemain f n none u) (requeue p a q (setRemain f n none u)) := outKept_of_moves requeue_moves rfl
        exact ite_all (P := outKept u) (fun g => (back g).trans (remain g)) remain
    | dbru n => exact fun _ => rfl
    | spoiled b n p => exact fun _ => rfl
    | idle n => exact fun _ => rfl
  have items (n : Option Nat) (l : List UpItem) (u : State) : outKept u (recallItems f n l u) := by
    induction l with
    | nil => exact fun _ => rfl
    | cons i l ih => exact fun g => (item n i _ g).trans (ih g)
  have bursts (l : List Burst) (u : State) : outKept u (l.foldr (fun b s => recallItems f b.node b.items s) u) := by
    induction l with
    | nil => exact fun _ => rfl
    | cons b l ih => exact fun g => (items _ _ _ g).trans (ih g)
  unfold recallBursts
  dsimp only
  exact fun g => (bursts _ _ g).trans (outKept_setBtx (by rfl) g)

theorem startSwitch_out {cause : Nat} (late : 2 < cause) (dst : AB) (s : State) : ((startSwitch dst cause s).btx.get dst.other).out = true := by
  have moded (v : State) : (modeTo (.service .pswitch) 0x33 v).btx = v.btx := modeTo_service_btx
  unfold startSwitch
  dsimp only
  rw [if_neg (by omega), moded]
  change ((recallBursts dst.other _).btx.get dst.other).out = true
  rw [outKept_recallBursts]
  change ((s.btx.set dst.other _).get dst.other).out = true
  rw [Pair.get_set_same]

theorem carrier_some {c : AB} (h : carrier s = some c) : (∃ x, s.power.mode = .service x) ∧ pswActive s = c := by
  unfold carrier at h
  split at h
  · rename_i x mode
    exact ⟨⟨x, mode⟩, Option.some.inj h⟩
  · cases h

theorem quiet_lockBits (idle : quiet s = true) : lockBits s = 0 := by
  have zero : s.rd (regAddr pPsw 0x108) = 0 := by simpa [quiet, State.rp] using idle
  unfold lockBits State.fld
  rw [zero]
  rfl

theorem pswManual_spec {m : AB} (on : s.running = true) (idle : quiet s = true)
    (ok : admits m pPsw 0x108 pswCmdHandler (word (1 + f.num)) s = true) (carries : carrier s = some f.other) :
    After (exec (.pswManual m f) s) fun t => alike (.opt :: lineKept) s t ∧ t.last = .done ∧
      t.psw.sw = some ⟨f, 4, s.clock⟩ ∧ t.power.mode = .service .pswitch ∧ (t.btx.get f.other).out = true := by
  obtain ⟨-, free⟩ := free_of_pswCmd (by cases f <;> decide) (by cases f <;> decide) ok
  obtain ⟨u, commanded, clock, wrote⟩ := pswCommand_wrote ok
  let v := word (1 + f.num)
  let a := u.wp pPsw 0x108 (commandWord v)
  let b := startSwitch f 4 a
  have clean : quiet a = true := by
    have zero : a.rd (regAddr pPsw 0x108) = commandWord v := State.rd_wr_same u _ _
    change (a.rd (regAddr pPsw 0x108) == 0) = true
    rw [zero]
    cases f <;> decide
  have psw : a.psw = s.psw := commanded.parts.1 .psw (by decide)
  have manual : manualSwitch v a = b := by
    have here : (bits v 0 3 = 1 ∨ bits v 0 3 = 2) ∧ (carrier a).isSome = true ∧ a.psw.sw.isNone = true := by
      rw [show carrier a = carrier s from commanded.carrier, carries, psw, free]
      exact ⟨by cases f <;> decide, rfl, rfl⟩
    have feeder : cmdFeeder (bits v 0 3) = f := by cases f <;> decide
    unfold manualSwitch
    rw [if_pos here, feeder]
  obtain ⟨under, power, settled⟩ := startSwitch_spec f 4 a
  obtain ⟨under', power', -⟩ := switched_settled (s := a) (dst := f) (cause := 4) (old := u)
  have row : exec (.pswManual m f) s = whenOn s (.next (ended .ok 0 .none (lineSettle u b))) := by
    simp only [exec, execPswManual]
    rw [quiet_lockBits idle, Nat.add_zero, wrote, standing_quiet clean]
    change whenOn s (.next (ended .ok 0 .none (lineSettle u (regainCheck (manualSwitch v a))))) = _
    rw [manual, regainCheck_service (x := .pswitch) (by rw [power])]
  have own : a.clock = s.clock := commanded.parts.1 .clock (by decide)
  have idle' : quiet b = true := (quiet_settled settled).trans clean
  have lit (g : AB) : txOn g b = txOn g u := by
    have first : txOn g a = txOn g u := txOn_commands u (commandWord v)
    exact (txOn_settled settled (by rw [power]) (by rw [power])).trans first
  have btx : (lineSettle u b).btx = b.btx := (lineSettle_lit idle' lit).1 .btx (by decide)
  refine after_alike execPswManual_moves rfl on row ⟨rfl, ?_, ?_, ?_⟩
  · exact under'.trans (congrArg (fun c => some (Switch.mk f 4 c)) own)
  · exact congrArg PowerSt.mode power'
  · change ((lineSettle u b).btx.get f.other).out = true
    rw [btx]
    exact startSwitch_out (by decide) f a

/-- An accepted FORCE of a feeder that does not carry data names a warm one. -/
theorem warm_of_force {m : AB} (ok : admits m pPsw 0x108 pswCmdHandler (word (3 + f.num)) s = true) (carries : carrier s = some f.other) :
    warm f s = true := by
  obtain ⟨⟨x, mode⟩, active⟩ := carrier_some carries
  obtain ⟨free, -⟩ := free_of_pswCmd (by cases f <;> decide) (by cases f <;> decide) ok
  have range : pswCmdRefused (word (3 + f.num)) s = false := range_of_admits ok
  have other : (activeFeeder s != some f) = true := by
    unfold activeFeeder
    rw [mode]
    dsimp only
    rw [active]
    cases f <;> decide
  have cmd : bits (word (3 + f.num)) 0 3 = 3 + f.num := by cases f <;> decide
  have feeder : cmdFeeder (3 + f.num) = f := by cases f <;> decide
  unfold pswCmdRefused at range
  dsimp only at range
  rw [if_neg (by rw [free]; exact Bool.false_ne_true), cmd, feeder, if_neg (by omega), if_neg (by omega), other] at range
  simp only [Bool.or_eq_false_iff, Bool.true_and, Bool.not_eq_false'] at range
  exact range.1.1.1.2

theorem pswForce_spec {m : AB} (on : s.running = true) (idle : quiet s = true)
    (ok : admits m pPsw 0x108 pswCmdHandler (word (3 + f.num)) s = true) (carries : carrier s = some f.other) :
    After (exec (.pswForce m f) s) fun t => alike (.opt :: lineKept) s t ∧ t.last = .done ∧ forced t = some f ∧
      t.psw.sw = some ⟨f, 3, s.clock⟩ ∧ t.power.mode = .service .pswitch := by
  obtain ⟨-, free⟩ := free_of_pswCmd (by cases f <;> decide) (by cases f <;> decide) ok
  obtain ⟨u, commanded, clock, wrote⟩ := pswCommand_wrote ok
  let v := word (3 + f.num)
  let a := u.wp pPsw 0x108 (commandWord v)
  let b := startSwitch f 3 a
  have shown : a.rd (regAddr pPsw 0x108) = commandWord v := State.rd_wr_same u _ _
  have psw : a.psw = s.psw := commanded.parts.1 .psw (by decide)
  have names (t : State) (at_ : t.rd (regAddr pPsw 0x108) = commandWord v) : forced t = some f := by
    have field : t.fld (regAddr pPsw 0x108) 0 3 = 3 + f.num := by
      rw [State.fld, at_]
      cases f <;> decide
    unfold forced
    rw [field]
    cases f <;> rfl
  have stands : standing a = b := by
    have open_ (g : AB) : lockedOut g a = false := by
      rw [lockedOut_word g shown]
      cases f <;> cases g <;> decide
    have warm' : warm f a = true := commanded.warm.trans (warm_of_force ok carries)
    have back : f.other.other = f := by cases f <;> rfl
    unfold standing
    rw [show carrier a = some f.other from commanded.carrier.trans carries]
    dsimp only
    rw [back, psw, free, warm', open_, open_, names a shown, if_neg (by decide), if_neg (by decide), if_pos rfl]
  obtain ⟨under, power, settled⟩ := startSwitch_spec f 3 a
  obtain ⟨under', power', settled'⟩ := switched_settled (s := a) (dst := f) (cause := 3) (old := u)
  have manual : manualSwitch v b = b := if_neg fun h => by
    have := h.1
    revert this
    cases f <;> decide
  have row : exec (.pswForce m f) s = whenOn s (.next (ended .ok 0 .none (lineSettle u b))) := by
    simp only [exec, execPswForce]
    rw [quiet_lockBits idle, Nat.add_zero, wrote]
    change whenOn s (.next (ended .ok 0 .none (lineSettle u (regainCheck (manualSwitch v (standing a)))))) = _
    rw [stands, manual, regainCheck_service (x := .pswitch) (by rw [power])]
  have own : a.clock = s.clock := commanded.parts.1 .clock (by decide)
  have held : (lineSettle u b).rd (regAddr pPsw 0x108) = commandWord v :=
    (settled'.regs (regAddr pPsw 0x108) (by decide) fun g => by cases g <;> decide).trans shown
  refine after_alike execPswForce_moves rfl on row ⟨rfl, ?_, ?_, ?_⟩
  · exact names (lineSettle u b) held
  · exact under'.trans (congrArg (fun c => some (Switch.mk f 3 c)) own)
  · exact congrArg PowerSt.mode power'

/-- Settles O48, by the end of a switch, the operator commands and the wait to restore. -/
theorem feedersAreSwitched : Obligations.FeedersAreSwitched := by
  unfold Obligations.FeedersAreSwitched
  intro m f s on
  exact ⟨fun w idle under mode => switchComplete_spec on idle under mode, fun idle ok carries => pswManual_spec on idle ok carries,
    fun idle ok carries => pswForce_spec on idle ok carries, fun a b ok => pswLockout_spec on ok, fun ok => pswClear_spec on ok,
    fun waits ready => wtrExpiry_spec on waits ready, fun n small ne under => pswCmd_switching small ne under⟩

end Sys2Proof.Machine

/-!
PROOFS. The loss of a feeder's frames (R265 to R267) and the start of a new hunt: what they leave beside the activation state and the operating
mode.
-/

namespace Sys2Proof.Machine

variable {s t u : State} {f : AB}

/-! ### VAUX -/

/-- VAUX is as it was. -/
def vauxKept (s t : State) : Prop := t.power.vauxLow = s.power.vauxLow

theorem vauxKept_of_moves {l : List Part} (moved : moves l s t) (apart : l.contains .power = false) : vauxKept s t := by
  have same : t.power = s.power := part_of_moves .power moved apart
  rw [vauxKept, same]

theorem vauxKept_modeTo {dst : Mode} {cause : Nat} : vauxKept s (modeTo dst cause s) := by rw [vauxKept, modeTo_power]

theorem vauxKept_syncAttach : vauxKept s (syncAttach s) := (syncAttach_same s).2

theorem vauxKept_lineReturn : vauxKept s (lineReturn f s) := vauxKept_modeTo.trans (vauxKept_of_moves setActive_moves rfl)

theorem vauxKept_startSwitch {dst : AB} {cause : Nat} : vauxKept s (startSwitch dst cause s) := by rw [vauxKept, startSwitch_power]

theorem vauxKept_regainCheck : vauxKept s (regainCheck s) := by
  obtain same | ⟨f, regains⟩ := regainCheck_cases s
  · rw [same]
    rfl
  · have started : vauxKept s (modeTo (.holdover .regain) 0x12 s) := vauxKept_modeTo
    rw [regains]
    unfold regainOf
    dsimp only
    generalize modeTo (.holdover .regain) 0x12 s = u at *
    exact ite_all (P := vauxKept s) (vauxKept_lineReturn.trans started) started

theorem vauxKept_lineLost : vauxKept s (lineLost s) := vauxKept_regainCheck.trans vauxKept_modeTo

theorem vauxKept_actMode {old new cause : Nat} : vauxKept s (actMode f old new cause s) := by
  let P : State → Prop := vauxKept s
  have back : P (attachBack cause s) := ite_all (P := P) vauxKept_modeTo (ite_all (P := P) vauxKept_modeTo (ite_all (P := P) vauxKept_modeTo rfl))
  unfold actMode
  refine ite_all (P := P) ?_ (ite_all (P := P) ?_ rfl)
  · cases s.power.mode with
    | attach x => exact vauxKept_modeTo.trans (vauxKept_of_moves setActive_moves rfl)
    | holdover x => exact ite_all (P := P) rfl vauxKept_lineReturn
    | service x => exact rfl
    | dormant => exact rfl
  · cases s.power.mode with
    | attach x => exact rfl
    | holdover x => exact back
    | service x => exact back
    | dormant => exact rfl

theorem vauxKept_setAct {new cause : Nat} : vauxKept s (setAct f new cause s) := by
  have reg {n k : Nat} {u : State} : vauxKept u (setActReg f n k u) := vauxKept_of_moves setActReg_moves rfl
  have first : vauxKept s (syncAttach (actMode f (actState f s) new cause (setActReg f new cause s))) :=
    vauxKept_syncAttach.trans (vauxKept_actMode.trans reg)
  exact ite_all (P := vauxKept s) (vauxKept_syncAttach.trans (reg.trans first)) first

/-! ### The loss as the protection sees it -/

theorem reportLoss_cases (f : AB) (cause : Nat) (s : State) :
    reportLoss f cause s = s ∨ reportLoss f cause s = lineLost s ∨ reportLoss f cause s = abortAll f s ∨
      reportLoss f cause s = startSwitch f.other cause s ∨ reportLoss f cause s = lineLost (abortAll f s) ∨
      reportLoss f cause s = raise pPsw 2 (lineLost (abortAll f s)) := by
  unfold reportLoss
  cases s.power.mode with
  | service x =>
    cases s.psw.sw with
    | some w =>
      by_cases leads : w.dst = f
      · exact .inr (.inl (if_pos leads))
      · exact .inr (.inr (.inl (if_neg leads)))
    | none =>
      by_cases standby : pswActive s ≠ f
      · exact .inl (if_pos standby)
      · refine .inr (.inr (.inr ?_))
        dsimp only
        rw [if_neg standby]
        split
        · exact .inl rfl
        · split
          · exact .inr (.inr rfl)
          · exact .inr (.inl rfl)
  | attach x => exact .inl rfl
  | holdover x => exact .inl rfl
  | dormant => exact .inl rfl

theorem touches_abortAll : Touches (orActive tableZone) s (abortAll f s) := (tableZone_settled settled_abortAll).mono fun _ => inside_orActive

theorem reportLoss_spec (f : AB) (cause : Nat) (s : State) :
    Touches (orActive tableZone) s (reportLoss f cause s) ∧ vauxKept s (reportLoss f cause s) := by
  have aborted : vauxKept s (abortAll f s) := vauxKept_of_moves abortAll_moves rfl
  have lost : Touches (orActive tableZone) s (lineLost (abortAll f s)) := touches_lineLost.after touches_abortAll
  obtain h | h | h | h | h | h := reportLoss_cases f cause s <;> rw [h]
  · exact ⟨touches_refl _ s, rfl⟩
  · exact ⟨touches_lineLost, vauxKept_lineLost⟩
  · exact ⟨touches_abortAll, aborted⟩
  · exact ⟨(tableZone_settled settled_startSwitch).mono fun _ => inside_orActive, vauxKept_startSwitch⟩
  · exact ⟨lost, vauxKept_lineLost.trans aborted⟩
  · exact ⟨touches_raise.after lost, (vauxKept_of_moves raise_moves rfl).trans (vauxKept_lineLost.trans aborted)⟩

/-- What the loss does to the activation state (Table 9-1). -/
def actLost (f : AB) (s : State) : State :=
  let st := actState f s
  if st = aO12 ∨ st = aO23 ∨ st = aO4 then setAct f aO11 16 s
  else if st = aO5 then setAct f aO6 7 s
  else s

/-- What follows the change of the activation state: the protection, and a regain that has lost its feeder. -/
def lossTold (f : AB) (cause : Nat) (s : State) : State :=
  let s := reportLoss f cause s
  if s.power.mode = .holdover .regain ∧ s.psw.regain = some f ∧ actState f s ≠ aO5 then regainCheck (modeTo (.holdover .lost) 0x13 s) else s

theorem frameLost_eq (f : AB) (cause : Nat) (s : State) : frameLost f cause s = lossTold f cause (actLost f s) := rfl

theorem lossTold_spec (f : AB) (cause : Nat) (s : State) :
    Touches (orActive tableZone) s (lossTold f cause s) ∧ vauxKept s (lossTold f cause s) := by
  obtain ⟨zone, vaux⟩ := reportLoss_spec f cause s
  let P (t : State) : Prop := Touches (orActive tableZone) s t ∧ vauxKept s t
  unfold lossTold
  dsimp only
  generalize reportLoss f cause s = u at zone vaux
  have again : Touches (orActive tableZone) u (regainCheck (modeTo (.holdover .lost) 0x13 u)) :=
    touches_regainCheck.after (touches_modeTo.mono fun _ => inside_orActive)
  exact ite_all (P := P) ⟨again.after zone, (vauxKept_regainCheck.trans vauxKept_modeTo).trans vaux⟩ ⟨zone, vaux⟩

/-! ### The frame synchroniser's registers -/

/-- The zone of a change of the activation state, with the rate, state and interrupt words of the feeder's receiver. -/
def framesOn (f : AB) (a : Nat) : Bool :=
  orActive (clearsOn f) a || [regAddr (pLfr f) 0x100, regAddr (pLfr f) 0x104, regAddr (pLfr f) 0x130].contains a

theorem inside_framesOn {a : Nat} (h : orActive (clearsOn f) a = true) : framesOn f a = true := by rw [framesOn, h, Bool.true_or]

theorem tableZone_framesOn {a : Nat} (h : orActive tableZone a = true) : framesOn f a = true :=
  inside_framesOn (orActive_mono (fun _ h => actsOn_clearsOn (tableZone_actsOn h)) h)

/-- A step that at most loses frames: LOS stays, a feeder in OFF stays there, no frame synchroniser gains SYNC, and VAUX is as it was. -/
structure Unframed (f : AB) (s t : State) : Prop where
  touches : Touches (framesOn f) s t
  los : losNow f s = true → losNow f t = true
  off : actState f s = aOff → actState f t = aOff
  sync : inSync f s = false → inSync f t = false
  vaux : vauxKept s t

theorem unframed_refl (f : AB) (s : State) : Unframed f s s := ⟨touches_refl _ s, id, id, id, rfl⟩

theorem Unframed.after (step : Unframed f t u) (h : Unframed f s t) : Unframed f s u :=
  ⟨step.touches.after h.touches, fun x => step.los (h.los x), fun x => step.off (h.off x), fun x => step.sync (h.sync x), step.vaux.trans h.vaux⟩

theorem unframed_ite {c : Prop} [Decidable c] {a b : State} (ha : Unframed f s a) (hb : Unframed f s b) : Unframed f s (if c then a else b) :=
  ite_all ha hb

theorem losNow_congr (same : t.rd (regAddr (pLfr f) 0x104) = s.rd (regAddr (pLfr f) 0x104)) : losNow f t = losNow f s := flag_congr same 8

/-- What leaves the receiver's state word and ACT_STATUS. -/
theorem unframed_of_touches {z : Nat → Bool} (h : Touches z s t) (sub : ∀ a, z a = true → framesOn f a = true)
    (lfr : z (regAddr (pLfr f) 0x104) = false) (act : z (regAddr (pAct f) 0x100) = false) (vaux : vauxKept s t) : Unframed f s t :=
  ⟨h.mono sub, fun los => (losNow_congr (h.regs _ lfr)).trans los, fun off => (actState_congr (h.regs _ act)).trans off,
    fun sync => (inSync_congr (h.regs _ lfr)).trans sync, vaux⟩

theorem unframed_settled {w : Bool} (h : Settled w s t) (vaux : vauxKept s t) : Unframed f s t := by
  have loose : Settled true s t := by
    cases w with
    | false => exact h.loose
    | true => exact h
  exact unframed_of_touches (tableZone_settled loose) (fun _ h => tableZone_framesOn (inside_orActive h)) (by cases f <;> decide)
    (by cases f <;> decide) vaux

theorem unframed_frameLost {cause : Nat} : Unframed f s (frameLost f cause s) := by
  have lost : Unframed f s (actLost f s) := by
    have acted {new : Nat} (cause : Nat) : Touches (orActive (clearsOn f)) s (setAct f new cause s) := (setAct_spec f new cause s).2.1
    have step {new cause : Nat} (st : actState f s ≠ aOff) : Unframed f s (setAct f new cause s) :=
      ⟨(acted cause).mono fun _ => inside_framesOn, fun los => (losNow_congr ((acted cause).regs _ (by cases f <;> decide))).trans los,
        fun off => absurd off st, fun sync => (inSync_congr ((acted cause).regs _ (by cases f <;> decide))).trans sync, vauxKept_setAct⟩
    unfold actLost
    dsimp only
    split
    · rename_i st
      exact step fun off => by rw [off] at st; revert st; decide
    · split
      · rename_i st
        exact step fun off => by rw [off] at st; revert st; decide
      · exact unframed_refl f s
  obtain ⟨zone, vaux⟩ := lossTold_spec f cause (actLost f s)
  rw [frameLost_eq]
  exact Unframed.after (unframed_of_touches zone (fun _ => tableZone_framesOn) (by cases f <;> decide) (by cases f <;> decide) vaux) lost

/-- A bit of the receiver's state word is set, counted and told. -/
def lineTold (f : AB) (bit i irq : Nat) (s : State) : State := raise (pLfr f) irq (lfrCount f i 1 (s.setFlag (regAddr (pLfr f) 0x104) bit true))

theorem lineTold_spec (f : AB) {bit i irq : Nat} (small : bit < 32) (few : i < 32) (s : State) :
    let t := lineTold f bit i irq s
    t.flag (regAddr (pLfr f) 0x104) bit = true ∧
      (∀ j, j < 32 → j ≠ bit → t.flag (regAddr (pLfr f) 0x104) j = s.flag (regAddr (pLfr f) 0x104) j) ∧
      keepsRegs [regAddr (pLfr f) 0x104, regAddr (pLfr f) 0x130] s t ∧ moves [.regs, .ctrs, .hdrs, .links] s t ∧
      (∀ p, gained (s.hdr p) (t.hdr p)) := by
  let a := s.setFlag (regAddr (pLfr f) 0x104) bit true
  have counted : keepsRegs [regAddr (pLfr f) 0x130] a (lfrCount f i 1 a) := by
    obtain ⟨-, regs, -, -⟩ := countAt_spec (pLfr f) 0x200 0x130 6 (if i = 4 ∨ i = 6 ∨ i = 9 ∨ i = 11 then 48 else 40) i 1 a
    rw [Nat.div_eq_of_lt few] at regs
    exact regs
  have same {x : Nat} (ne : x ≠ regAddr (pLfr f) 0x130) : (lineTold f bit i irq s).rd x = a.rd x :=
    (raise_rd _ _ _ _).trans (counted x (by simpa using ne))
  have ne : regAddr (pLfr f) 0x104 ≠ regAddr (pLfr f) 0x130 := by unfold regAddr; omega
  have parts : moves [.regs, .ctrs, .hdrs, .links] s (lineTold f bit i irq s) :=
    raise_moves.after rfl <| lfrCount_moves.after rfl <| setFlag_moves.within rfl
  have touched : Touches (fun _ => true) s (lineTold f bit i irq s) :=
    touches_raise.after <| Touches.after (touches_countWide rfl) (touches_setFlag rfl)
  refine ⟨(flag_congr (same ne) bit).trans (flag_setFlag_same s _ small true), fun j hj other => ?_, fun x hx => ?_, parts, touched.hdrs⟩
  · exact (flag_congr (same ne) j).trans (flag_setFlag_other s _ hj other true)
  · simp only [List.mem_cons, List.not_mem_nil, or_false, not_or] at hx
    exact (same hx.2).trans (rd_setFlag_other s hx.1 _ _)

theorem fld_of_flags {a lo w : Nat} (same : ∀ i, lo ≤ i → i < lo + w → t.flag a i = s.flag a i) :
    t.fld a lo w = s.fld a lo w := by
  refine Nat.eq_of_testBit_eq fun i => ?_
  rw [State.fld, State.fld, testBit_bits, testBit_bits]
  by_cases inside : i < w
  · have := same (lo + i) (by omega) (by omega)
    rw [decide_eq_true inside, Bool.true_and, Bool.true_and]
    exact this
  · rw [decide_eq_false inside, Bool.false_and, Bool.false_and]

theorem unframed_lineTold {bit i irq : Nat} (small : bit < 32) (high : 2 ≤ bit) (few : i < 32) : Unframed f s (lineTold f bit i irq s) := by
  obtain ⟨set, others, regs, parts, hdrs⟩ := lineTold_spec f (irq := irq) small few s
  have act : (lineTold f bit i irq s).act = s.act := parts.1 .act (by decide)
  have btx : (lineTold f bit i irq s).btx = s.btx := parts.1 .btx (by decide)
  have power : (lineTold f bit i irq s).power = s.power := parts.1 .power (by decide)
  refine ⟨⟨fun a out => regs a fun listed => ?_, hdrs, fun g => by rw [act], fun g => by rw [btx]⟩,
    fun los => ?_, fun off => ?_, fun sync => ?_, ?_⟩
  · have : framesOn f a = true := by
      simp only [List.mem_cons, List.not_mem_nil, or_false] at listed
      rcases listed with rfl | rfl <;> simp [framesOn]
    rw [this] at out
    cases out
  · by_cases same : bit = 8
    · exact same ▸ set
    · exact (others 8 (by decide) (Ne.symm same)).trans los
  · exact (actState_congr (regs _ (by cases f <;> decide))).trans off
  · have field : (lineTold f bit i irq s).fld (regAddr (pLfr f) 0x104) 0 2 = s.fld (regAddr (pLfr f) 0x104) 0 2 :=
      fld_of_flags fun j _ low => others j (by omega) (by omega)
    rw [inSync, field]
    exact sync
  · rw [vauxKept, power]

theorem declareLof_eq (f : AB) (cause : Nat) (s : State) : declareLof f cause s = frameLost f cause (lineTold f 9 15 1 s) := rfl

theorem unframed_declareLof {cause : Nat} : Unframed f s (declareLof f cause s) := by
  rw [declareLof_eq]
  exact unframed_frameLost.after (unframed_lineTold (by decide) (by decide) (by decide))

/-- A field of the receiver's rate or state word is written, which does not reach LOS and leaves no SYNC. -/
theorem unframed_setFld {off lo w n : Nat} (listed : off = 0x100 ∨ off = 0x104 ∧ lo + w ≤ 8 ∧ (2 ≤ lo ∨ lo = 0 ∧ w = 2 ∧ n = 0)) :
    Unframed f s (s.setFld (regAddr (pLfr f) off) lo w n) := by
  have inside : framesOn f (regAddr (pLfr f) off) = true := by
    rcases listed with rfl | ⟨rfl, -⟩ <;> simp [framesOn]
  have act : (s.setFld (regAddr (pLfr f) off) lo w n).rd (regAddr (pAct f) 0x100) = s.rd (regAddr (pAct f) 0x100) := by
    refine rd_setFld_other s ?_ _ _ _
    rcases listed with rfl | ⟨rfl, -⟩ <;> cases f <;> decide
  refine ⟨touches_setFld inside, fun los => ?_, fun off => (actState_congr act).trans off, fun sync => ?_, rfl⟩
  · rcases listed with rfl | ⟨rfl, low, -⟩
    · exact (losNow_congr (rd_setFld_other s (by unfold regAddr; omega) _ _ _)).trans los
    · exact (flag_setField_other s (.inr low) (by decide)).trans los
  · rcases listed with rfl | ⟨rfl, low, high | ⟨rfl, rfl, rfl⟩⟩
    · exact (inSync_congr (rd_setFld_other s (by unfold regAddr; omega) _ _ _)).trans sync
    · rw [inSync, fld_setFld_other s _ _ (.inl (by omega)) (by decide)]
      exact sync
    · rw [inSync, fld_setFld_same s _ _ (by decide)]
      rfl

theorem unframed_of_moves {l : List Part} (moved : moves l s t)
    (apart : [Part.regs, .hdrs, .act, .btx, .power].all (fun p => !l.contains p) = true) : Unframed f s t := by
  have power : vauxKept s t := vauxKept_of_moves moved (by
    have := List.all_eq_true.mp apart .power (by decide)
    simpa using this)
  have small : [Part.regs, .hdrs, .act, .btx].all (fun p => !l.contains p) = true := by
    refine List.all_eq_true.mpr fun p hp => List.all_eq_true.mp apart p ?_
    revert hp
    cases p <;> decide
  exact unframed_of_touches (z := fun _ => false) (touches_of_moves moved small) (fun _ h => by cases h) rfl rfl power

theorem unframed_toHunt : Unframed f s (toHunt f s) := by
  have lost {u : State} : Unframed f u (loseChains f u) := unframed_settled (settled_loseChains (w := true)) (vauxKept_of_moves loseChains_moves rfl)
  exact lost.after <| (unframed_of_moves setLfr_moves rfl).after <| (unframed_setFld (.inr ⟨rfl, by decide, .inl (by decide)⟩)).after <|
    unframed_setFld (.inr ⟨rfl, by decide, .inr ⟨rfl, rfl, rfl⟩⟩)

theorem unframed_raise {p i : Nat} : Unframed f s (raise p i s) :=
  unframed_settled (settled_raise (w := true)) (vauxKept_of_moves raise_moves rfl)

theorem unframed_startHunt : Unframed f s (startHunt f s) := by
  have rated {r : Nat} {u : State} : Unframed f u (setRate f r u) := by
    have rate : Unframed f u (u.setFld (regAddr (pLfr f) 0x100) 4 2 r) := unframed_setFld (.inl rfl)
    exact unframed_ite (unframed_refl f u) <| unframed_raise.after <| Unframed.after
      (unframed_ite (unframed_setFld (.inr ⟨rfl, by decide, .inr ⟨rfl, rfl, rfl⟩⟩)) (unframed_refl f _)) rate
  exact unframed_ite (unframed_refl f s) rated

theorem unframed_restartFramer : Unframed f s (restartFramer f s) := by
  have hunted : Unframed f s (startHunt f ((toHunt f s).setLfr f { (toHunt f s).lfr.get f with held := 0 })) :=
    unframed_startHunt.after <| (unframed_of_moves setLfr_moves rfl).after unframed_toHunt
  exact Unframed.after (unframed_ite (unframed_refl f _) unframed_declareLof) hunted

/-- LOS stands once it is declared. -/
theorem declareLos_spec (f : AB) (s : State) : Unframed f s (declareLos f s) ∧ losNow f (declareLos f s) = true := by
  let a := lineTold f 8 14 0 s
  have told : losNow f a = true := (lineTold_spec f (irq := 0) (by decide) (by decide) s).1
  have first : Unframed f s a := unframed_lineTold (by decide) (by decide) (by decide)
  have later : Unframed f a (if lofNow f (toHunt f a) then frameLost f 1 (toHunt f a) else declareLof f 1 (toHunt f a)) :=
    Unframed.after (unframed_ite unframed_frameLost unframed_declareLof) unframed_toHunt
  by_cases already : losNow f s = true
  · have run : declareLos f s = s := if_pos already
    rw [run]
    exact ⟨unframed_refl f s, already⟩
  · have run : declareLos f s = if lofNow f (toHunt f a) then frameLost f 1 (toHunt f a) else declareLof f 1 (toHunt f a) := if_neg already
    rw [run]
    exact ⟨later.after first, later.los told⟩

/-- The hunt leaves no SYNC. -/
theorem restartFramer_sync (f : AB) (s : State) : inSync f (restartFramer f s) = false := by
  have lost : inSync f (toHunt f s) = false := by
    rw [inSync, (toHunt_spec f s).1]
    rfl
  have hunted : Unframed f (toHunt f s) (startHunt f ((toHunt f s).setLfr f { (toHunt f s).lfr.get f with held := 0 })) :=
    unframed_startHunt.after (unframed_of_moves setLfr_moves rfl)
  exact (Unframed.after (unframed_ite (unframed_refl f _) unframed_declareLof) hunted).sync lost

end Sys2Proof.Machine

/-!
PROOFS. The cages of the modules (R329 to R344, O49): insertion and removal, the identity, diagnostics, the life record and its limit.
-/

namespace Sys2Proof.Machine

variable {s t u : State} {c : AB}

/-! ### A cage's block -/

theorem optGet_setOpt (c : AB) (x : OptSt) (s : State) : (s.setOpt c x).opt.get c = x := Pair.get_set_same _ _ _

theorem optGet_of_keeps {l : List Part} (kept : keeps l s t) (apart : Part.opt ∉ l) (d : AB) : t.opt.get d = s.opt.get d := by
  have same : t.opt = s.opt := kept .opt apart
  rw [same]

/-! ### Insertion (R329, R334) -/

/-- The module that is there, with its insertion seen. -/
def inserted (c : AB) (s : State) : State :=
  let s := s.setFlag (regAddr (pOpt c) 0x100) 0 true
  raise (pOpt c) 0 (s.setOpt c { s.opt.get c with seen := true })

theorem inserted_spec (c : AB) (s : State) :
    let t := inserted c s
    t.flag (regAddr (pOpt c) 0x100) 0 = true ∧ (t.opt.get c).seen = true ∧ intRawBit t (pOpt c) 0 = true ∧ actState c t = actState c s ∧
      t.power = s.power ∧ ∀ p, gained (s.hdr p) (t.hdr p) := by
  let a := s.setFlag (regAddr (pOpt c) 0x100) 0 true
  let b := a.setOpt c { a.opt.get c with seen := true }
  have kept := raise_keeps (pOpt c) 0 b
  have words : moves [.regs] s a := setFlag_moves
  have act : (raise (pOpt c) 0 b).rd (regAddr (pAct c) 0x100) = s.rd (regAddr (pAct c) 0x100) :=
    (raise_rd _ _ b _).trans (rd_setFlag_other s (by cases c <;> decide) _ _)
  have power : a.power = s.power := words.1 .power (by decide)
  have told : Touches (fun _ => true) s (raise (pOpt c) 0 b) := touches_raise.after <| Touches.after (touches_of_moves (setOpt_moves (s := a)) rfl)
    (touches_setFlag rfl)
  refine ⟨?_, ?_, raise_intRaw _ _ b (by decide), actState_congr act, (kept .power (by decide)).trans power, told.hdrs⟩
  · exact (flag_congr (raise_rd _ _ b _) 0).trans (flag_setFlag_same s _ (by decide) true)
  · have seen : ((raise (pOpt c) 0 b).opt.get c) = b.opt.get c := optGet_of_keeps kept (by decide) c
    change ((raise (pOpt c) 0 b).opt.get c).seen = true
    rw [seen]
    exact congrArg OptSt.seen (optGet_setOpt c _ a)

theorem moduleInsert_spec (on : s.running = true) (vaux : s.power.vauxLow = false) (empty : s.flag (regAddr (pOpt c) 0x100) 0 = false) :
    After (exec (.moduleInsert c) s) fun t => alike eventKept s t ∧ t.flag (regAddr (pOpt c) 0x100) 0 = true ∧ (t.opt.get c).seen = true ∧
      intRawBit t (pOpt c) 0 = true ∧ inSync c t = false ∧
      (actState c s = aOff → s.pstate (pAct c) = .active → actState c t = aO11) := by
  let a := inserted c s
  let b := restartFramer c a
  let d := leaveOff c b
  obtain ⟨present, seen, told, act, power, hdrs⟩ := inserted_spec c s
  have run : exec (.moduleInsert c) s = whenOn s (.next (lineSettle s d)) := by
    have here : ¬(s.flag (regAddr (pOpt c) 0x100) 0 = true) := by rw [empty]; exact Bool.false_ne_true
    have lit : ¬((!(s.setFlag (regAddr (pOpt c) 0x100) 0 true).running || (s.setFlag (regAddr (pOpt c) 0x100) 0 true).power.vauxLow) = true) := by
      change ¬((!s.running || s.power.vauxLow) = true)
      simp [on, vaux]
    refine Eq.trans ((if_neg here).trans (if_neg lit)) (whenOn_running on _).symm
  have hunts : Unframed c a b := unframed_restartFramer
  have lost : inSync c b = false := restartFramer_sync c a
  obtain ⟨-, acts, -⟩ := setAct_spec c aO11 15 b
  have zone : Touches (framesOn c) b d := touches_ite (acts.mono fun _ => inside_framesOn) (touches_refl _ b)
  have sync : inSync c d = false := by
    refine (inSync_congr ?_).trans lost
    exact ite_all (P := fun t => t.rd (regAddr (pLfr c) 0x104) = b.rd (regAddr (pLfr c) 0x104)) (acts.regs _ (by cases c <;> decide)) rfl
  have later : Touches tableZone d (lineSettle s d) := tableZone_settled settled_lineSettle
  have whole : Touches (framesOn c) a (lineSettle s d) :=
    Touches.after (later.mono fun _ h => tableZone_framesOn (inside_orActive h)) (zone.after hunts.touches)
  have parts : moves [.regs, .ctrs, .hdrs, .out, .free, .power, .nvs, .links, .buf, .mac, .tsu, .seqs, .lfr, .act, .btx, .psw, .keys, .omciUpQ] a
      (lineSettle s d) := lineSettle_moves.after rfl <| leaveOff_moves.after rfl <| restartFramer_moves.within rfl
  refine after_alike execModuleInsert_moves rfl on run ⟨?_, ?_, (whole.hdrs _).2 0 told, ?_, fun off active => ?_⟩
  · exact (flag_congr (whole.regs _ (by cases c <;> decide)) 0).trans present
  · rw [optGet_of_keeps parts.1 (by decide)]
    exact seen
  · exact (inSync_congr (later.regs _ (by cases c <;> decide))).trans sync
  · have off' : actState c b = aOff := hunts.off (act.trans off)
    have present' : modPresent c b = true := by
      have seated : b.flag (regAddr (pOpt c) 0x100) 0 = true := (flag_congr (hunts.touches.regs _ (by cases c <;> decide)) 0).trans present
      have fed : b.power.vauxLow = false := hunts.vaux.trans (by rw [power]; exact vaux)
      simp only [modPresent, seated, fed, Bool.not_false, Bool.and_self]
    have active' : b.pstate (pAct c) = .active := by
      have gain := gained_trans (hdrs (pAct c)) (hunts.touches.hdrs (pAct c))
      rw [State.pstate, gain.1]
      exact active
    have leaves : d = setAct c aO11 15 b := if_pos ⟨off', present', active'⟩
    have state : actState c d = aO11 := by
      rw [leaves, setAct_state (by decide), if_neg]
      rw [lost]
      exact fun h => Bool.false_ne_true h.2
    exact (actState_congr (later.regs _ (by cases c <;> decide))).trans state

/-! ### Removal (R334, R336, R341) -/

theorem forgetModule_spec (c : AB) (s : State) :
    let t := forgetModule c s
    modAccepted c t = false ∧ t.flag (regAddr (pOpt c) 0x100) 0 = s.flag (regAddr (pOpt c) 0x100) 0 ∧ (t.opt.get c).live = none ∧
      (t.opt.get c).leaving = (s.opt.get c).leaving ++ (s.opt.get c).live.toList ∧ Touches (· == regAddr (pOpt c) 0x100) s t := by
  let r := regAddr (pOpt c) 0x100
  let x := s.opt.get c
  let y : OptSt := { x with live := none, leaving := x.leaving ++ x.live.toList, reading := false, twoWire := none }
  let a := s.setOpt c y
  let b := a.setFld r 1 4 0
  let d := b.setFld r 8 2 0
  let e := d.setFld r 12 2 0
  have run : forgetModule c s = e.setFld r 16 4 0 := rfl
  have later {i : Nat} (low : i < 8) : (e.setFld r 16 4 0).flag r i = b.flag r i :=
    (flag_setField_other e (.inl (by omega)) (by omega)).trans <| (flag_setField_other d (.inl (by omega)) (by omega)).trans <|
      flag_setField_other b (.inl (by omega)) (by omega)
  have cleared : b.flag r 1 = false := by
    change bit (State.rd (State.wr a r (setBits (a.rd r) 1 4 0)) r) 1 = false
    rw [State.rd_wr_same, bit_setBits _ _ _ _ _ (by decide), if_pos (by decide)]
    rfl
  have words : moves [.regs] a (e.setFld r 16 4 0) :=
    setFld_moves.after rfl <| setFld_moves.after rfl <| setFld_moves.after rfl <| setFld_moves.within rfl
  have block : (e.setFld r 16 4 0).opt.get c = y := (optGet_of_keeps words.1 (by decide) c).trans (optGet_setOpt c y s)
  have step {u : State} {lo w n : Nat} : Touches (· == r) u (u.setFld r lo w n) := touches_setFld (beq_self_eq_true r)
  rw [run]
  refine ⟨(later (by decide)).trans cleared, (later (by decide)).trans (flag_setField_other a (.inl (by decide)) (by decide)), ?_, ?_, ?_⟩
  · rw [block]
  · rw [block]
  · exact step.after <| step.after <| step.after <| step.after <| touches_of_moves setOpt_moves rfl

/-- The module that has gone: its cage is empty, and TX_EN falls where it is not kept. -/
def unseated (c : AB) (s : State) : State :=
  let s := s.setFlag (regAddr (pOpt c) 0x100) 0 false
  let s := if s.flag (regAddr (pOpt c) 0x104) 1 then s else s.setFlag (regAddr (pOpt c) 0x104) 0 false
  raise (pOpt c) 1 s

theorem unseated_spec (c : AB) (s : State) :
    let t := unseated c s
    t.flag (regAddr (pOpt c) 0x100) 0 = false ∧ intRawBit t (pOpt c) 1 = true ∧ moves [.regs, .hdrs, .links] s t := by
  let a := s.setFlag (regAddr (pOpt c) 0x100) 0 false
  let b := if a.flag (regAddr (pOpt c) 0x104) 1 then a else a.setFlag (regAddr (pOpt c) 0x104) 0 false
  have kept : b.rd (regAddr (pOpt c) 0x100) = a.rd (regAddr (pOpt c) 0x100) :=
    ite_all (P := fun t => t.rd (regAddr (pOpt c) 0x100) = a.rd (regAddr (pOpt c) 0x100)) rfl
      (rd_setFlag_other a (by unfold regAddr; omega) _ _)
  have words : moves [.regs] s b := moves_trans (setFlag_moves.within rfl) (moves_ite moves_rfl (setFlag_moves.within rfl))
  refine ⟨?_, raise_intRaw _ _ b (by decide), raise_moves.after rfl <| words.within rfl⟩
  exact (flag_congr ((raise_rd _ _ b _).trans kept) 0).trans (flag_setFlag_same s _ (by decide) false)

/-- R341: a module that has gone leaves its feeder in OFF, with LOS. -/
theorem moduleGone_spec (c : AB) (s : State) :
    let t := moduleGone c s
    modAccepted c t = false ∧ t.flag (regAddr (pOpt c) 0x100) 0 = s.flag (regAddr (pOpt c) 0x100) 0 ∧ actState c t = aOff ∧
      losNow c t = true ∧ (t.opt.get c).live = none ∧ (t.opt.get c).leaving = (s.opt.get c).leaving ++ (s.opt.get c).live.toList ∧
      ∀ p, gained (s.hdr p) (t.hdr p) := by
  let a := abortAll c s
  let b := forgetModule c a
  let d := if actState c b = aOff then b else setAct c aOff 15 b
  let e := declareLos c d
  have aborted : Settled true s a := settled_abortAll
  have blocks : a.opt.get c = s.opt.get c := optGet_of_keeps abortAll_moves.1 (by decide) c
  obtain ⟨refused, present, live, leaving, forgot⟩ := forgetModule_spec c a
  obtain ⟨-, acts, -⟩ := setAct_spec c aOff 15 b
  have zone : Touches (framesOn c) b d := touches_ite (touches_refl _ b) (acts.mono fun _ => inside_framesOn)
  have off : actState c d = aOff := by
    by_cases st : actState c b = aOff
    · rw [show d = b from if_pos st]
      exact st
    · rw [show d = setAct c aOff 15 b from if_neg st, setAct_state (by decide)]
      exact if_neg fun h => absurd h.1 (by decide)
  obtain ⟨lost, los⟩ := declareLos_spec c d
  have hunts : Unframed c e (restartFramer c e) := unframed_restartFramer
  have whole : Touches (framesOn c) b (restartFramer c e) := (hunts.touches.after lost.touches).after zone
  have parts : moves [.regs, .ctrs, .hdrs, .out, .free, .power, .nvs, .links, .buf, .mac, .tsu, .seqs, .lfr, .act, .btx, .psw, .keys, .omciUpQ] b
      (restartFramer c e) := restartFramer_moves.after rfl <| declareLos_moves.after rfl <| moves_ite moves_rfl (setAct_moves.within rfl)
  have status : (restartFramer c e).rd (regAddr (pOpt c) 0x100) = b.rd (regAddr (pOpt c) 0x100) := whole.regs _ (by cases c <;> decide)
  have block : (restartFramer c e).opt.get c = b.opt.get c := optGet_of_keeps parts.1 (by decide) c
  have run : moduleGone c s = restartFramer c e := rfl
  rw [run]
  refine ⟨(flag_congr status 1).trans refused, (flag_congr status 0).trans (present.trans (flag_congr (optStatus_settled aborted (by decide)) 0)),
    hunts.off (lost.off off), hunts.los los, by rw [block, live], ?_,
    fun p => gained_trans (gained_trans (aborted.hdrs p) (forgot.hdrs p)) (whole.hdrs p)⟩
  rw [block, leaving, blocks]

theorem moduleRemove_spec (on : s.running = true) (vaux : s.power.vauxLow = false) (seated : s.flag (regAddr (pOpt c) 0x100) 0 = true) :
    After (exec (.moduleRemove c) s) fun t => alike eventKept s t ∧ t.flag (regAddr (pOpt c) 0x100) 0 = false ∧ modAccepted c t = false ∧
      actState c t = aOff ∧ losNow c t = true ∧ (t.opt.get c).live = none ∧ intRawBit t (pOpt c) 1 = true ∧
      (t.opt.get c).leaving = (s.opt.get c).leaving ++ (s.opt.get c).live.toList := by
  let a := unseated c s
  let b := moduleGone c a
  obtain ⟨empty, told, unseats⟩ := unseated_spec c s
  obtain ⟨refused, present, off, los, live, leaving, hdrs⟩ := moduleGone_spec c a
  have run : exec (.moduleRemove c) s = whenOn s (.next (lineSettle s b)) := by
    let v := s.setFlag (regAddr (pOpt c) 0x100) 0 false
    let w := if v.flag (regAddr (pOpt c) 0x104) 1 then v else v.setFlag (regAddr (pOpt c) 0x104) 0 false
    have here : ¬((!s.flag (regAddr (pOpt c) 0x100) 0) = true) := by rw [seated]; exact Bool.false_ne_true
    have runs : ¬((!v.running) = true) := by
      change ¬((!s.running) = true)
      rw [on]
      exact Bool.false_ne_true
    have fed : ¬(w.power.vauxLow = true) := by
      have same : w.power = s.power := ite_all (P := fun t => t.power = s.power) rfl rfl
      rw [same, vaux]
      exact Bool.false_ne_true
    exact ((if_neg here).trans <| (if_neg runs).trans (if_neg fed)).trans (whenOn_running on _).symm
  have settled : Settled true b (lineSettle s b) := settled_lineSettle
  have status : (lineSettle s b).rd (regAddr (pOpt c) 0x100) = b.rd (regAddr (pOpt c) 0x100) := optStatus_settled settled (by decide)
  have block : (lineSettle s b).opt.get c = b.opt.get c := optGet_of_keeps lineSettle_moves.1 (by decide) c
  have before : a.opt.get c = s.opt.get c := optGet_of_keeps unseats.1 (by decide) c
  refine after_alike execModuleRemove_moves rfl on run ⟨?_, (flag_congr status 1).trans refused, ?_, ?_, by rw [block, live], ?_, ?_⟩
  · exact (flag_congr status 0).trans (present.trans empty)
  · exact (actState_congr (actStatus_settled settled)).trans off
  · exact (losNow_congr (settled.regs _ (by cases c <;> decide) fun g => by cases c <;> cases g <;> decide)).trans los
  · exact settled.intRaw ((hdrs _).2 1 told)
  · rw [block, leaving, before]

/-! ### The identity is read -/

theorem idReadStart_spec (on : s.running = true) (present : modPresent c s = true) (free : cageFree c s = true) (fresh : modAccepted c s = false) :
    (After (exec (.idReadStart c) s) fun t => t.opt.get c = { s.opt.get c with reading := true } ∧ keeps [.opt] s t) ∧
      (s.fld (regAddr (pOpt c) 0x100) 16 4 ≠ 0 → After (exec (.idReadRetry c) s) fun t =>
        t.opt.get c = { s.opt.get c with reading := true } ∧ keeps [.opt] s t) := by
  let t := s.setOpt c { s.opt.get c with reading := true }
  have here : (modPresent c s && cageFree c s && !modAccepted c s) = true := by simp [present, free, fresh]
  have done : t.opt.get c = { s.opt.get c with reading := true } ∧ keeps [.opt] s t := ⟨optGet_setOpt c _ s, (setOpt_moves (s := s)).1⟩
  exact ⟨after_running on (congrArg (whenOn s) (if_pos here)) done, fun refused =>
    after_running on (congrArg (whenOn s) ((if_neg refused).trans (if_pos here))) done⟩

theorem bytesToWords_length (k : Nat) (l : List Byte) : (bytesToWords k l).length ≤ k := by
  induction k generalizing l with
  | zero => exact Nat.le_refl 0
  | succ k ih =>
    cases l with
    | nil => exact Nat.zero_le _
    | cons b l => exact Nat.succ_le_succ (ih _)

/-- The identity registers lie above the module's status and its rates. -/
theorem showIdentity_rd {i : IdImage} {a : Nat} (low : ∀ off, 0x120 ≤ off → off ≤ 0x150 → a ≠ regAddr (pOpt c) off) :
    (showIdentity c i s).rd a = s.rd a := by
  have wrote (off : Nat) (l : List Byte) (u : State) (from_ : 0x120 ≤ off) (to_ : off ≤ 0x140) :
      (writeWords (pOpt c) off (bytesToWords 4 l) u).rd a = u.rd a :=
    rd_wpWords_other _ 0 u fun k hk => low _ (by omega) (by have := bytesToWords_length 4 l; omega)
  unfold showIdentity
  dsimp only
  refine (State.rd_wr_other _ (low _ (by decide) (by decide)) _).trans ?_
  rw [wrote _ _ _ (by decide) (by decide), wrote _ _ _ (by decide) (by decide), wrote _ _ _ (by decide) (by decide)]

/-- What a read that ends shows of the module. -/
def identityRead (c : AB) (i : IdImage) (s : State) : State :=
  let s := s.setOpt c { s.opt.get c with reading := false }
  if i.acked then showIdentity c i s else s

theorem identityRead_spec (c : AB) (i : IdImage) (s : State) :
    let t := identityRead c i s
    t.opt.get c = { s.opt.get c with reading := false } ∧
      (∀ a, (∀ off, 0x120 ≤ off → off ≤ 0x150 → a ≠ regAddr (pOpt c) off) → t.rd a = s.rd a) ∧
      moves [.regs, .opt] s t := by
  let a := s.setOpt c { s.opt.get c with reading := false }
  have shown : moves [.regs] a (identityRead c i s) := moves_ite showIdentity_moves moves_rfl
  refine ⟨(optGet_of_keeps shown.1 (by decide) c).trans (optGet_setOpt c _ s), fun b low => ?_, shown.after rfl (setOpt_moves.within rfl)⟩
  exact ite_all (P := fun t => t.rd b = s.rd b) (showIdentity_rd low) rfl

theorem rejectOf_reading (i : IdImage) (s : State) : rejectOf c i (s.setOpt c { s.opt.get c with reading := false }) = rejectOf c i s := by
  have other : (s.setOpt c { s.opt.get c with reading := false }).opt.get c.other = s.opt.get c.other :=
    Pair.get_set_other _ (by cases c <;> decide) _
  unfold rejectOf
  rw [other]
  rfl

theorem rejectOf_lt (c : AB) (i : IdImage) (s : State) : rejectOf c i s < 16 := by
  unfold rejectOf
  dsimp only
  repeat' split
  all_goals decide

theorem idReadDone_refused {i : IdImage} (on : s.running = true) (reading : (s.opt.get c).reading = true) (refused : rejectOf c i s ≠ 0) :
    After (exec (.idReadDone c i) s) fun t => alike eventKept s t ∧ (t.opt.get c).reading = false ∧
      t.fld (regAddr (pOpt c) 0x100) 16 4 = rejectOf c i s ∧
      modAccepted c t = modAccepted c s ∧ intRawBit t (pOpt c) 2 = true := by
  let n := rejectOf c i s
  let a := identityRead c i s
  let b := a.setFld (regAddr (pOpt c) 0x100) 16 4 n
  let d := raise (pOpt c) 2 b
  obtain ⟨block, regs, shows⟩ := identityRead_spec c i s
  have run : exec (.idReadDone c i) s = whenOn s (.next (lineSettle s d)) := by
    have here : ¬((!(s.opt.get c).reading) = true) := by rw [reading]; exact Bool.false_ne_true
    have bad : ¬(rejectOf c i (s.setOpt c { s.opt.get c with reading := false }) = 0) := by rw [rejectOf_reading]; exact refused
    refine congrArg (whenOn s) ((if_neg here).trans ?_)
    refine (congrArg (fun x => Host.Outcome.next (lineSettle s x)) (if_neg bad)).trans ?_
    rw [rejectOf_reading]
    rfl
  have settled : Settled true d (lineSettle s d) := settled_lineSettle
  have status : (lineSettle s d).rd (regAddr (pOpt c) 0x100) = b.rd (regAddr (pOpt c) 0x100) :=
    (optStatus_settled settled (by decide)).trans (raise_rd _ _ b _)
  have shown : (lineSettle s d).opt.get c = a.opt.get c := by
    rw [optGet_of_keeps lineSettle_moves.1 (by decide), optGet_of_keeps (raise_keeps _ _ b) (by decide),
      optGet_of_keeps (setFld_moves (s := a)).1 (by decide)]
  have parts : moves [.regs, .ctrs, .hdrs, .out, .free, .power, .nvs, .links, .buf, .mac, .tsu, .seqs, .act, .btx, .psw, .opt, .omciUpQ] s
      (lineSettle s d) := lineSettle_moves.after rfl <| raise_moves.after rfl <| setFld_moves.after rfl <| shows.within rfl
  refine after_running on run ⟨alike_of_moves parts rfl, by rw [shown, block], ?_, ?_, settled.intRaw (raise_intRaw _ _ b (by decide))⟩
  · rw [fld_congr status, fld_setFld_same a _ _ (by decide)]
    exact Nat.mod_eq_of_lt (rejectOf_lt c i s)
  · refine (flag_congr status 1).trans ((flag_setField_other a (.inl (by decide)) (by decide)).trans (flag_congr (regs _ fun off low _ => ?_) 1))
    unfold regAddr
    omega

/-! ### The life record (R336, R522) -/

theorem storeLife_spec (r : LifeRec) (s : State) :
    keeps [.regs, .nvs] s (storeLife r s) ∧ keepsRegs [regAddr (pOpt .a) 0x1C4] s (storeLife r s) ∧
      (s.nvs.life.length < 256 → r ∈ (storeLife r s).nvs.life ∧ keepsRegs [] s (storeLife r s)) := by
  have stored {n : NvsSt} : keeps [.regs, .nvs] s (s.setNvs n) := keeps_mono (setNvs_moves (s := s)).1 (by decide)
  unfold storeLife
  dsimp only
  split
  · rename_i known
    refine ⟨stored, fun _ _ => rfl, fun _ => ⟨?_, fun _ _ => rfl⟩⟩
    obtain ⟨x, listed, same⟩ := List.any_eq_true.mp known
    exact List.mem_map.mpr ⟨x, listed, if_pos same⟩
  · split
    · exact ⟨stored, fun _ _ => rfl, fun _ => ⟨List.mem_append_right _ List.mem_cons_self, fun _ _ => rfl⟩⟩
    · rename_i full
      split
      · exact ⟨keeps_refl _ s, keepsRegs_refl _ s, fun room => absurd room full⟩
      · exact ⟨keeps_mono (keeps_trans (setNvs_moves (s := s)).1 (bumpFld_moves).1) (by decide),
          fun a ha => State.rd_wr_other _ (by simpa using ha) _, fun room => absurd room full⟩

/-- The identity of a cage's module has been read, and the live record is that of the module. -/
def namedLive (c : AB) (sn vendor : List Byte) (s : State) : Prop :=
  (s.opt.get c).reading = false ∧ ∃ r, (s.opt.get c).live = some r ∧ r.sn = sn ∧ r.vendor = vendor

variable {sn vendor : List Byte}

theorem namedLive_congr (same : t.opt.get c = s.opt.get c) (h : namedLive c sn vendor s) : namedLive c sn vendor t := by
  rw [namedLive, same]
  exact h

theorem writeLife_spec (d : AB) (s : State) :
    keeps [.regs, .nvs, .opt] s (writeLife d s) ∧ keepsRegs [regAddr (pOpt .a) 0x1C4] s (writeLife d s) ∧
      (namedLive c sn vendor s → namedLive c sn vendor (writeLife d s)) := by
  cases live : (s.opt.get d).live with
  | none =>
    have run : writeLife d s = s := by
      unfold writeLife
      dsimp only
      rw [live]
    rw [run]
    exact ⟨keeps_refl _ s, keepsRegs_refl _ s, id⟩
  | some r =>
    let v := storeLife (stampLife r s) s
    have run : writeLife d s = v.setOpt d { s.opt.get d with live := some (stampLife r s) } := by
      unfold writeLife
      dsimp only
      rw [live]
      rfl
    obtain ⟨parts, regs, -⟩ := storeLife_spec (stampLife r s) s
    rw [run]
    refine ⟨keeps_mono (keeps_trans parts (setOpt_moves (s := v)).1) (by decide), regs, ?_⟩
    rintro ⟨read, x, own, key⟩
    by_cases same : c = d
    · subst same
      obtain rfl : r = x := Option.some.inj (live.symm.trans own)
      exact ⟨(congrArg OptSt.reading (optGet_setOpt c _ v)).trans read, stampLife r s, congrArg OptSt.live (optGet_setOpt c _ v), key⟩
    · have other : (v.setOpt d { s.opt.get d with live := some (stampLife r s) }).opt.get c = s.opt.get c :=
        (Pair.get_set_other v.opt same _).trans (optGet_of_keeps parts (by decide) c)
      exact ⟨(congrArg OptSt.reading other).trans read, x, (congrArg OptSt.live other).trans own, key⟩

theorem writeLifeNow_spec (n : Nat) (s : State) :
    let t := writeOrDefer (.life n) s
    keeps [.regs, .nvs, .opt, .free, .hdrs, .links] s t ∧ keepsRegs [regAddr pNvs 0x140, regAddr (pOpt .a) 0x1C4] s t ∧
      (namedLive c sn vendor s → namedLive c sn vendor t) := by
  intro t
  by_cases room : capOpen s = true
  · obtain ⟨-, -, regs, parts⟩ := cappedStore_spec { s.nvs with pend := s.nvs.pend.erase (.life n) } s
    let v := cappedWrite (s.setNvs { s.nvs with pend := s.nvs.pend.erase (.life n) })
    obtain ⟨wrote, regs', named⟩ := writeLife_spec (c := c) (sn := sn) (vendor := vendor) (if n = 0 then .a else .b) v
    have run : t = writeLife (if n = 0 then .a else .b) v := if_pos room
    rw [run]
    refine ⟨keeps_mono (keeps_trans parts wrote) (by decide), fun a ha => ?_,
      fun h => named (namedLive_congr (optGet_of_keeps parts (by decide) c) h)⟩
    simp only [List.mem_cons, List.not_mem_nil, or_false, not_or] at ha
    exact (regs' a (by simpa using ha.2)).trans (regs a (by simpa using ha.1))
  · have run : t = deferred (nvQueue (.life n) s) := if_neg room
    obtain ⟨-, regs, parts⟩ := deferred_spec (nvQueue (.life n) s)
    have queued := (nvQueue_moves (x := .life n) (s := s)).1
    have whole := keeps_trans queued parts
    rw [run]
    exact ⟨keeps_mono whole (by decide), fun a _ => (regs a List.not_mem_nil).trans (congrFun (rd_of_keeps queued (by decide)) a),
      namedLive_congr (optGet_of_keeps whole (by decide) c)⟩

/-- LIFE follows the laser-on time of the live record (R340). -/
theorem updateLife_spec (c : AB) (s : State) :
    let t := updateLife c s
    (∀ r, (s.opt.get c).live = some r → (t.opt.get c).live = some { r with life := lifeOf (permille r.laserOn s) }) ∧
      t.opt.get c.other = s.opt.get c.other ∧ ((s.opt.get c).live = none → t = s) ∧ moves [.regs, .hdrs, .links, .opt] s t ∧
      (∀ a, a ≠ regAddr (pOpt c) 0x100 → t.rd a = s.rd a) ∧
      (∀ i, i < 8 ∨ 10 ≤ i → i < 32 → t.flag (regAddr (pOpt c) 0x100) i = s.flag (regAddr (pOpt c) 0x100) i) := by
  intro t
  have moved : moves [.regs, .hdrs, .links, .opt] s t := updateLife_moves
  cases live : (s.opt.get c).live with
  | none =>
    have same : t = s := by
      change updateLife c s = s
      unfold updateLife
      dsimp only
      rw [live]
    rw [same]
    exact ⟨fun r h => (by cases h), rfl, fun _ => rfl, moves_rfl, fun _ _ => rfl, fun _ _ _ => rfl⟩
  | some r =>
    let lv := lifeOf (permille r.laserOn s)
    let a := s.setOpt c { s.opt.get c with live := some { r with life := lv } }
    let b := a.setFld (regAddr (pOpt c) 0x100) 8 2 lv
    have run : t = [1, 2, 3].foldl (fun s i => if r.life < i ∧ i ≤ lv then raise (pOpt c) (4 + i) s else s) b := by
      change updateLife c s = _
      unfold updateLife
      dsimp only
      rw [live]
    have told : moves [.hdrs, .links] b t := by
      rw [run]
      exact moves_foldl (fun _ _ => moves_ite (raise_moves.within rfl) moves_rfl) moves_rfl
    have regs (x : Nat) : t.rd x = b.rd x := congrFun (rd_of_keeps told.1 (by decide)) x
    have block (d : AB) : t.opt.get d = a.opt.get d := optGet_of_keeps (keeps_trans (setFld_moves (s := a)).1 told.1) (by decide) d
    refine ⟨fun x own => ?_, ?_, fun h => (by cases h), moved, fun x ne => (regs x).trans (rd_setFld_other a ne _ _ _), fun i apart small => ?_⟩
    · obtain rfl : r = x := Option.some.inj own
      rw [block, optGet_setOpt]
    · rw [block]
      exact Pair.get_set_other _ (by cases c <;> decide) _
    · exact (flag_congr (regs _) i).trans (flag_setField_other a apart small)

theorem updateLife_reading (c : AB) (s : State) : ((updateLife c s).opt.get c).reading = (s.opt.get c).reading := by
  unfold updateLife
  dsimp only
  cases (s.opt.get c).live with
  | none => rfl
  | some r =>
    have told (u : State) (n : Nat) : moves [.hdrs, .links] u
        ([1, 2, 3].foldl (fun s i => if r.life < i ∧ i ≤ n then raise (pOpt c) (4 + i) s else s) u) :=
      moves_foldl (fun _ _ => moves_ite (raise_moves.within rfl) moves_rfl) moves_rfl
    rw [optGet_of_keeps (told _ _).1 (by decide), optGet_of_keeps (setFld_moves).1 (by decide), optGet_setOpt]

/-! ### A module is accepted (R329, R336) -/

theorem rateBits_lt (c : AB) (x y : Nat) (s : State) : rateBits c x y s < 2 ^ 2 := by
  have forced : s.fld (regAddr (pOpt c) 0x108) 0 2 < 2 ^ 2 := bits_lt _ _ _
  have own : declared x y < 2 ^ 2 := by
    unfold declared
    dsimp only
    repeat' split
    all_goals decide
  unfold rateBits
  split
  · exact own
  · rename_i same _
    exact forced

theorem findLife_key {r : LifeRec} (h : findLife sn vendor s = some r) : r.sn = sn ∧ r.vendor = vendor := by
  have key (x : LifeRec) (own : (x.sn == sn && x.vendor == vendor) = true) : x.sn = sn ∧ x.vendor = vendor := by
    simpa only [Bool.and_eq_true, beq_iff_eq] using own
  unfold findLife at h
  dsimp only at h
  rcases Option.or_eq_some_iff.mp h with left | ⟨-, stored⟩
  · exact key r (List.mem_filter.mp (List.mem_of_getLast? left)).2
  · exact key r (by simpa using List.find?_some stored)

/-- The record of the module, loaded from the store. -/
def recordLoaded (ok : Bool) (sn vendor : List Byte) (s : State) : Option LifeRec × State :=
  if ok then (findLife sn vendor s, s) else loadBadRecord sn vendor s

theorem recordLoaded_spec (ok : Bool) (sn vendor : List Byte) (s : State) :
    (∀ r, (recordLoaded ok sn vendor s).1 = some r → r.sn = sn ∧ r.vendor = vendor) ∧ moves [.regs] s (recordLoaded ok sn vendor s).2 ∧
      keepsRegs [regAddr (pOpt .a) 0x1C4] s (recordLoaded ok sn vendor s).2 := by
  unfold recordLoaded loadBadRecord
  dsimp only
  split
  · exact ⟨fun r h => findLife_key h, moves_rfl, keepsRegs_refl _ s⟩
  · split
    · exact ⟨fun r h => (by cases h), setFld_moves, setFld_keepsRegs _ _ _ _ s⟩
    · exact ⟨fun r h => findLife_key h, moves_rfl, keepsRegs_refl _ s⟩

/-- The status of a module that is accepted: no REJECT, its rates, and its diagnostics' scale. -/
def moduleRated (c : AB) (i : IdImage) (s : State) : State :=
  let a := regAddr (pOpt c) 0x100
  let b := byteAt i.a0
  let s := ((s.setFlag a 1 true).setFld a 16 4 0).setFld a 12 2 (rateBits c (b 12) (b 66) s)
  s.setFlag a 3 (b 92 / 16 % 2 == 1)

/-- A record goes live again: no copy of it waits any more. -/
def recordBack (r : LifeRec) (s : State) (c : AB) : State :=
  let x := s.opt.get c
  s.setOpt c { x with leaving := x.leaving.filter (fun y => !sameKey r y) }

/-- The record that is live from now on, with its insertion, and the key of the cage. -/
def recordLive (c : AB) (sn vendor : List Byte) (r : LifeRec) (s : State) : State :=
  let x := s.opt.get c
  let count := x.seen || s.nvs.cageKey.get c != sn ++ vendor
  let r := if count then { r with inserts := satAdd 65535 r.inserts 1 } else r
  let s := s.setOpt c { x with live := some r, seen := false }
  s.setNvs { s.nvs with cageKey := s.nvs.cageKey.set c (sn ++ vendor) }

theorem recordLive_spec {r : LifeRec} (key : r.sn = sn ∧ r.vendor = vendor) (read : (s.opt.get c).reading = false) :
    namedLive c sn vendor (recordLive c sn vendor r s) ∧ moves [.nvs, .opt] s (recordLive c sn vendor r s) := by
  have block := optGet_setOpt c { s.opt.get c with
    live := some (if (s.opt.get c).seen || s.nvs.cageKey.get c != sn ++ vendor then { r with inserts := satAdd 65535 r.inserts 1 } else r)
    seen := false } s
  refine ⟨⟨(congrArg OptSt.reading block).trans read, _, congrArg OptSt.live block, ?_⟩, setNvs_moves.after rfl <| setOpt_moves.within rfl⟩
  split
  · exact key
  · exact key

/-- The record, live or new, with its write where it is due. -/
def recordTaken (c : AB) (sn vendor : List Byte) (known : Option LifeRec) (s : State) : State :=
  let r := known.getD (newLife sn vendor s)
  let due := known.isNone || ((s.opt.get .a).leaving ++ (s.opt.get .b).leaving).any (sameKey r)
  let s := recordLive c sn vendor r (recordBack r (recordBack r s .a) .b)
  if due then writeOrDefer (.life c.num) s else s

theorem acceptModule_eq (c : AB) (i : IdImage) (s : State) :
    acceptModule c i s = startHunt c (updateLife c (recordTaken c ((i.a0.drop 68).take 16) ((i.a0.drop 20).take 16)
      (recordLoaded i.recordOk ((i.a0.drop 68).take 16) ((i.a0.drop 20).take 16) (moduleRated c i s)).1
      (recordLoaded i.recordOk ((i.a0.drop 68).take 16) ((i.a0.drop 20).take 16) (moduleRated c i s)).2)) := rfl

theorem recordBack_reading (r : LifeRec) (s : State) (d : AB) : ((recordBack r s d).opt.get c).reading = (s.opt.get c).reading := by
  by_cases same : c = d
  · subst same
    have block := optGet_setOpt c { s.opt.get c with leaving := (s.opt.get c).leaving.filter (fun y => !sameKey r y) } s
    have read := congrArg OptSt.reading block
    exact read
  · exact congrArg OptSt.reading (Pair.get_set_other s.opt same _)

theorem recordTaken_spec {known : Option LifeRec} (key : ∀ r, known = some r → r.sn = sn ∧ r.vendor = vendor)
    (read : (s.opt.get c).reading = false) :
    let t := recordTaken c sn vendor known s
    namedLive c sn vendor t ∧ keeps [.regs, .nvs, .opt, .free, .hdrs, .links] s t ∧
      keepsRegs [regAddr pNvs 0x140, regAddr (pOpt .a) 0x1C4] s t := by
  let r := known.getD (newLife sn vendor s)
  let a := recordBack r (recordBack r s .a) .b
  let b := recordLive c sn vendor r a
  have key' : r.sn = sn ∧ r.vendor = vendor := by
    cases known with
    | none => exact ⟨rfl, rfl⟩
    | some x => exact key x rfl
  have read' : (a.opt.get c).reading = false := (recordBack_reading r _ .b).trans ((recordBack_reading r s .a).trans read)
  obtain ⟨named, lives⟩ := recordLive_spec (c := c) (s := a) key' read'
  have before : moves [.nvs, .opt] s b := lives.after rfl <| setOpt_moves.after rfl <| setOpt_moves.within rfl
  obtain ⟨parts, regs, keepsName⟩ := writeLifeNow_spec (c := c) (sn := sn) (vendor := vendor) c.num b
  have same (x : Nat) : b.rd x = s.rd x := congrFun (rd_of_keeps before.1 (by decide)) x
  let P (t : State) : Prop := namedLive c sn vendor t ∧ keeps [.regs, .nvs, .opt, .free, .hdrs, .links] s t ∧
    keepsRegs [regAddr pNvs 0x140, regAddr (pOpt .a) 0x1C4] s t
  exact ite_all (P := P) ⟨keepsName named, keeps_mono (keeps_trans before.1 parts) (by decide), fun x hx => (regs x hx).trans (same x)⟩
    ⟨named, keeps_mono before.1 (by decide), fun x _ => same x⟩

theorem moduleRated_spec (c : AB) (i : IdImage) (s : State) :
    let t := moduleRated c i s
    modAccepted c t = true ∧ t.fld (regAddr (pOpt c) 0x100) 16 4 = 0 ∧
      t.fld (regAddr (pOpt c) 0x100) 12 2 = rateBits c (byteAt i.a0 12) (byteAt i.a0 66) s ∧ moves [.regs] s t := by
  let r := regAddr (pOpt c) 0x100
  let n := rateBits c (byteAt i.a0 12) (byteAt i.a0 66) s
  have few : n < 2 ^ 2 := rateBits_lt c _ _ s
  let a := s.setFlag r 1 true
  let b := a.setFld r 16 4 0
  let d := b.setFld r 12 2 n
  have run : moduleRated c i s = d.setFlag r 3 (byteAt i.a0 92 / 16 % 2 == 1) := rfl
  have last {lo w : Nat} (high : 4 ≤ lo) (fits : lo + w ≤ 32) : (d.setFlag r 3 (byteAt i.a0 92 / 16 % 2 == 1)).fld r lo w = d.fld r lo w :=
    fld_setFld_other d r _ (.inr high) fits
  rw [run]
  refine ⟨?_, ?_, ?_, setFlag_moves.after rfl <| setFld_moves.after rfl <| setFld_moves.after rfl <| setFlag_moves.within rfl⟩
  · refine (flag_setFlag_other d r (by decide) (by decide) _).trans <| (flag_setField_other b (.inl (by decide)) (by decide)).trans <|
      (flag_setField_other a (.inl (by decide)) (by decide)).trans (flag_setFlag_same s r (by decide) true)
  · exact (last (by decide) (by decide)).trans ((fld_setFld_other b r _ (.inr (by decide)) (by decide)).trans (fld_setFld_same a r _ (by decide)))
  · exact (last (by decide) (by decide)).trans ((fld_setFld_same b r _ (by decide)).trans (Nat.mod_eq_of_lt few))

/-- A module that is accepted: its status, its rates, and its live record. -/
theorem acceptModule_spec {i : IdImage} (read : (s.opt.get c).reading = false) :
    let t := acceptModule c i s
    modAccepted c t = true ∧ t.fld (regAddr (pOpt c) 0x100) 16 4 = 0 ∧
      t.fld (regAddr (pOpt c) 0x100) 12 2 = rateBits c (byteAt i.a0 12) (byteAt i.a0 66) s ∧
      namedLive c ((i.a0.drop 68).take 16) ((i.a0.drop 20).take 16) t ∧ keeps [.regs, .nvs, .opt, .free, .hdrs, .links] s t := by
  let sn := (i.a0.drop 68).take 16
  let vendor := (i.a0.drop 20).take 16
  let r := regAddr (pOpt c) 0x100
  let a := moduleRated c i s
  let b := recordLoaded i.recordOk sn vendor a
  let d := recordTaken c sn vendor b.1 b.2
  let e := updateLife c d
  obtain ⟨accepted, reject, rates, rated⟩ := moduleRated_spec c i s
  obtain ⟨key, loaded, regs⟩ := recordLoaded_spec i.recordOk sn vendor a
  have read' : (b.2.opt.get c).reading = false := by
    rw [optGet_of_keeps loaded.1 (by decide), optGet_of_keeps rated.1 (by decide)]
    exact read
  obtain ⟨⟨read'', x, live, names⟩, parts, regs'⟩ := recordTaken_spec (c := c) (s := b.2) (known := b.1) key read'
  obtain ⟨lives, -, -, updated, -, flags⟩ := updateLife_spec c d
  have hunt : moves [.regs, .hdrs, .links] e (startHunt c e) := startHunt_moves
  have status : (startHunt c e).rd r = e.rd r := (unframed_startHunt (s := e) (f := c)).touches.regs _ (by cases c <;> decide)
  have before : d.rd r = a.rd r := (regs' r (by cases c <;> decide)).trans (regs r (by cases c <;> decide))
  have flag (j : Nat) (apart : j < 8 ∨ 10 ≤ j) (small : j < 32) : (startHunt c e).flag r j = a.flag r j :=
    (flag_congr status j).trans ((flags j apart small).trans (flag_congr before j))
  have block : (startHunt c e).opt.get c = e.opt.get c := optGet_of_keeps hunt.1 (by decide) c
  have reading : (e.opt.get c).reading = (d.opt.get c).reading := updateLife_reading c d
  rw [acceptModule_eq]
  refine ⟨(flag 1 (.inl (by decide)) (by decide)).trans accepted, ?_, ?_,
    ⟨?_, { x with life := lifeOf (permille x.laserOn d) }, ?_, names⟩, ?_⟩
  · exact (fld_of_flags fun j low high => flag j (.inr (by omega)) (by omega)).trans reject
  · exact (fld_of_flags fun j low high => flag j (.inr (by omega)) (by omega)).trans rates
  · exact (congrArg OptSt.reading block).trans (reading.trans read'')
  · exact (congrArg OptSt.live block).trans (lives x live)
  · exact keeps_mono (keeps_trans (keeps_trans (keeps_trans rated.1 loaded.1) parts) (keeps_trans updated.1 hunt.1)) (by decide)

theorem idReadDone_accepted {i : IdImage} (on : s.running = true) (reading : (s.opt.get c).reading = true) (good : rejectOf c i s = 0) :
    After (exec (.idReadDone c i) s) fun t => alike eventKept s t ∧ (t.opt.get c).reading = false ∧ t.fld (regAddr (pOpt c) 0x100) 16 4 = 0 ∧
      modAccepted c t = true ∧ t.fld (regAddr (pOpt c) 0x100) 12 2 = rateBits c (byteAt i.a0 12) (byteAt i.a0 66) s ∧
      ∃ r, (t.opt.get c).live = some r ∧ r.sn = (i.a0.drop 68).take 16 ∧ r.vendor = (i.a0.drop 20).take 16 := by
  let a := identityRead c i s
  let b := acceptModule c i a
  obtain ⟨block, regs, shown⟩ := identityRead_spec c i s
  obtain ⟨accepted, reject, rates, ⟨read, named⟩, parts⟩ := acceptModule_spec (c := c) (i := i) (s := a) (by rw [block])
  have run : exec (.idReadDone c i) s = whenOn s (.next (lineSettle s b)) := by
    have here : ¬((!(s.opt.get c).reading) = true) := by rw [reading]; exact Bool.false_ne_true
    have fine : rejectOf c i (s.setOpt c { s.opt.get c with reading := false }) = 0 := by rw [rejectOf_reading]; exact good
    refine congrArg (whenOn s) ((if_neg here).trans ?_)
    exact congrArg (fun x => Host.Outcome.next (lineSettle s x)) (if_pos fine)
  have settled : Settled true b (lineSettle s b) := settled_lineSettle
  have status : (lineSettle s b).rd (regAddr (pOpt c) 0x100) = b.rd (regAddr (pOpt c) 0x100) := optStatus_settled settled (by decide)
  have same : (lineSettle s b).opt.get c = b.opt.get c := optGet_of_keeps lineSettle_moves.1 (by decide) c
  have cfg : rateBits c (byteAt i.a0 12) (byteAt i.a0 66) a = rateBits c (byteAt i.a0 12) (byteAt i.a0 66) s := by
    unfold rateBits
    rw [fld_congr (regs _ fun off low _ => by unfold regAddr; omega)]
  have whole := keeps_trans (keeps_trans shown.1 parts) (lineSettle_moves (old := s) (s := b)).1
  refine after_running on run ⟨fun p hp => whole p (by revert hp; cases p <;> decide), ?_, ?_, (flag_congr status 1).trans accepted, ?_, ?_⟩
  · rw [same]
    exact read
  · exact (fld_congr status _ _).trans reject
  · exact (fld_congr status _ _).trans (rates.trans cfg)
  · rw [same]
    exact named

/-! ### Diagnostics (R331, R332) -/

/-- The diagnostics registers as read. -/
def diagShown (c : AB) (l : List Byte) (s : State) : State :=
  let p := pOpt c
  let h := fun (i : Nat) => beAt l i 2
  let s := s.wp p 0x160 (word (h 0 + h 2 * 65536))
  let s := s.wp p 0x164 (word (h 4 + h 6 * 65536))
  let s := s.wp p 0x168 (word (h 8))
  let s := s.wp p 0x16C (word (h 10 + h 12 * 65536))
  s.setFlag (regAddr p 0x100) 4 false

theorem diagShown_spec (c : AB) (l : List Byte) (s : State) :
    let st := regAddr (pOpt c) 0x100
    let t := diagShown c l s
    t.rp (pOpt c) 0x160 = word (beAt l 0 2 + beAt l 2 2 * 65536) ∧ t.flag st 4 = false ∧
      keepsRegs [st, st + 0x60, st + 0x64, st + 0x68, st + 0x6C] s t ∧ moves [.regs] s t := by
  let a := s.wp (pOpt c) 0x160 (word (beAt l 0 2 + beAt l 2 2 * 65536))
  let b := a.wp (pOpt c) 0x164 (word (beAt l 4 2 + beAt l 6 2 * 65536))
  let d := b.wp (pOpt c) 0x168 (word (beAt l 8 2))
  let e := d.wp (pOpt c) 0x16C (word (beAt l 10 2 + beAt l 12 2 * 65536))
  have apart {off : Nat} (ne : off ≠ 0x160) : regAddr (pOpt c) 0x160 ≠ regAddr (pOpt c) off := by unfold regAddr; omega
  refine ⟨?_, flag_setFlag_same e _ (by decide) false, fun x hx => ?_,
    setFlag_moves.after rfl <| wp_moves.after rfl <| wp_moves.after rfl <| wp_moves.after rfl <| wp_moves.within rfl⟩
  · exact (rd_setFlag_other e (apart (by decide)) _ _).trans <| (State.rd_wr_other d (apart (by decide)) _).trans <|
      (State.rd_wr_other b (apart (by decide)) _).trans <| (State.rd_wr_other a (apart (by decide)) _).trans (State.rd_wr_same s _ _)
  · simp only [List.mem_cons, List.not_mem_nil, or_false, not_or] at hx
    obtain ⟨h0, h1, h2, h3, h4⟩ := hx
    exact (rd_setFlag_other e h0 _ _).trans <| (State.rd_wr_other d h4 _).trans <| (State.rd_wr_other b h3 _).trans <|
      (State.rd_wr_other a h2 _).trans (State.rd_wr_other s h1 _)

/-- The live record takes the temperature of its module, and the transfer has ended. -/
def diagKept (c : AB) (l : List Byte) (s : State) : State :=
  let x := s.opt.get c
  let t := wholeDegrees (beAt l 0 2)
  let live := x.live.map (fun r => { r with
    tmax := if r.tmax < t then t else r.tmax, tmin := if t < r.tmin then t else r.tmin })
  s.setOpt c { x with live := live, twoWire := none }

/-- The interrupts of an alarm and of a warning. -/
def diagTold (c : AB) (l : List Byte) (s : State) : State :=
  let s := if beAt l 10 2 = 0 then s else raise (pOpt c) 3 s
  if beAt l 12 2 = 0 then s else raise (pOpt c) 4 s

theorem diagTold_spec (c : AB) (l : List Byte) (s : State) :
    (beAt l 10 2 ≠ 0 → intRawBit (diagTold c l s) (pOpt c) 3 = true) ∧ keepsHdrs [pOpt c] s (diagTold c l s) ∧
      moves [.hdrs, .links] s (diagTold c l s) := by
  have step {i : Nat} (h : Prop) [Decidable h] (u : State) : keepsHdrs [pOpt c] u (if h then u else raise (pOpt c) i u) ∧
      moves [.hdrs, .links] u (if h then u else raise (pOpt c) i u) :=
    ⟨ite_all (P := keepsHdrs _ u) (fun _ _ => rfl) (raise_keepsHdrs _ _ u), moves_ite moves_rfl raise_moves⟩
  refine ⟨fun alarm => ?_, fun p hp => ((step _ _).1 p hp).trans ((step _ s).1 p hp), moves_trans (step _ s).2 (step _ _).2⟩
  have told : intRawBit (if beAt l 10 2 = 0 then s else raise (pOpt c) 3 s) (pOpt c) 3 = true := by
    rw [if_neg alarm]
    exact raise_intRaw _ _ s (by decide)
  exact ite_all (P := fun t => intRawBit t (pOpt c) 3 = true) told (raise_intRaw_mono _ _ told)

theorem diagPoll_read {l : List Byte} (on : s.running = true) (present : modPresent c s = true) (accepted : modAccepted c s = true) :
    let st := regAddr (pOpt c) 0x100
    After (exec (.diagPoll c (some l)) s) fun t => t.rp (pOpt c) 0x160 = word (beAt l 0 2 + beAt l 2 2 * 65536) ∧
      t.flag st 4 = false ∧ (t.opt.get c).twoWire = none ∧ (beAt l 10 2 ≠ 0 → intRawBit t (pOpt c) 3 = true) ∧
      keepsRegs [st, st + 0x60, st + 0x64, st + 0x68, st + 0x6C] s t ∧ keepsHdrs [pOpt c] s t ∧ keeps [.regs, .opt, .hdrs, .links] s t := by
  let a := diagShown c l s
  let b := diagKept c l a
  obtain ⟨shown, clear, regs, words⟩ := diagShown_spec c l s
  obtain ⟨told, hdrs, tells⟩ := diagTold_spec c l b
  have here : ¬((!(modPresent c s && modAccepted c s)) = true) := by simp [present, accepted]
  have run : exec (.diagPoll c (some l)) s = whenOn s (.next (diagTold c l b)) := congrArg (whenOn s) (if_neg here)
  have keptOpt : moves [.opt] a b := setOpt_moves
  have same (x : Nat) : (diagTold c l b).rd x = a.rd x := congrFun (rd_of_keeps (keeps_trans keptOpt.1 tells.1) (by decide)) x
  have block : (diagTold c l b).opt.get c = b.opt.get c := optGet_of_keeps tells.1 (by decide) c
  have first : keeps [.regs, .opt] s b := keeps_mono (keeps_trans words.1 keptOpt.1) (by decide)
  refine after_running on run ⟨(same _).trans shown, (flag_congr (same _) 4).trans clear, ?_, told, fun x hx => (same x).trans (regs x hx),
    fun p hp => (hdrs p hp).trans (keepsHdrs_of_keeps first (by decide) p List.not_mem_nil), keeps_mono (keeps_trans first tells.1) (by decide)⟩
  rw [block]
  have ended := congrArg OptSt.twoWire (optGet_setOpt c { a.opt.get c with
    live := (a.opt.get c).live.map (fun r => { r with
      tmax := if r.tmax < wholeDegrees (beAt l 0 2) then wholeDegrees (beAt l 0 2) else r.tmax
      tmin := if wholeDegrees (beAt l 0 2) < r.tmin then wholeDegrees (beAt l 0 2) else r.tmin })
    twoWire := none } a)
  exact ended

theorem diagPoll_failed (on : s.running = true) (present : modPresent c s = true) (accepted : modAccepted c s = true)
    (last : (s.opt.get c).twoWire = some 3) : After (exec (.diagPoll c none) s) fun t => keeps [.regs, .hdrs, .opt, .links] s t ∧
      t.flag (regAddr (pOpt c) 0x100) 4 = true ∧ (t.opt.get c).twoWire = none ∧ intRawBit t (pOpt c) 8 = true ∧
      keepsRegs [regAddr (pOpt c) 0x100] s t := by
  let a := s.setOpt c { s.opt.get c with twoWire := none }
  let b := a.setFlag (regAddr (pOpt c) 0x100) 4 true
  have here : ¬((!(modPresent c s && modAccepted c s)) = true) := by simp [present, accepted]
  have run : exec (.diagPoll c none) s = whenOn s (.next (raise (pOpt c) 8 b)) := by
    refine congrArg (whenOn s) ((if_neg here).trans ?_)
    dsimp only
    rw [last]
    rfl
  have told := raise_keeps (pOpt c) 8 b
  have words : moves [.regs] a b := setFlag_moves
  have block : (raise (pOpt c) 8 b).opt.get c = a.opt.get c := optGet_of_keeps (keeps_trans words.1 told) (by decide) c
  refine after_running on run ⟨keeps_mono (keeps_trans (keeps_trans (setOpt_moves (s := s)).1 words.1) told) (by decide), ?_, ?_,
    raise_intRaw _ _ b (by decide), fun x hx => (raise_rd _ _ b x).trans (rd_setFlag_other a (by simpa using hx) _ _)⟩
  · exact (flag_congr (raise_rd _ _ b _) 4).trans (flag_setFlag_same a _ (by decide) true)
  · rw [block]
    exact congrArg OptSt.twoWire (optGet_setOpt c _ s)

theorem twoWireRetry_spec {n : Nat} (on : s.running = true) (tried : (s.opt.get c).twoWire = some n) (few : n < 3) :
    After (exec (.twoWireRetry c) s) fun t => t.opt.get c = { s.opt.get c with twoWire := some (n + 1) } ∧ keeps [.opt] s t := by
  have run : exec (.twoWireRetry c) s = whenOn s (.next (s.setOpt c { s.opt.get c with twoWire := some (n + 1) })) := by
    simp only [exec, execTwoWireRetry, tried, few, if_true]
  exact after_running on run ⟨optGet_setOpt c _ s, (setOpt_moves (s := s)).1⟩

/-! ### Laser seconds and the record of a module that has left (R336, R340) -/

theorem laserSecond_spec {r : LifeRec} (on : s.running = true) (lit : txOn c s = true) (live : (s.opt.get c).live = some r) :
    After (exec (.laserSecond c) s) fun t => alike eventKept s t ∧ (t.opt.get c).live = some { r with
      laserOn := (r.laserOn + 1) % 2 ^ 32, life := lifeOf (permille ((r.laserOn + 1) % 2 ^ 32) s) } := by
  let a := s.setOpt c { s.opt.get c with live := some { r with laserOn := (r.laserOn + 1) % 2 ^ 32 } }
  have run : exec (.laserSecond c) s = whenOn s (.next (lineSettle s (updateLife c a))) := by
    simp only [exec, execLaserSecond, lit, live]
    rfl
  obtain ⟨lives, -⟩ := updateLife_spec c a
  have block : (lineSettle s (updateLife c a)).opt.get c = (updateLife c a).opt.get c := optGet_of_keeps lineSettle_moves.1 (by decide) c
  refine after_alike execLaserSecond_moves rfl on run ?_
  exact (congrArg OptSt.live block).trans (lives _ (congrArg OptSt.live (optGet_setOpt c _ s)))

theorem lifeRecordWrite_spec {r : LifeRec} (on : s.running = true) (waits : (s.opt.get c).leaving = [r]) (room : capOpen s = true)
    (space : s.nvs.life.length < 256) : After (exec (.lifeRecordWrite c) s) fun t =>
      keeps [.regs, .nvs, .opt, .free, .hdrs, .links] s t ∧ stampLife r s ∈ t.nvs.life ∧ (t.opt.get c).leaving = [] ∧
        keepsRegs [regAddr pNvs 0x140] s t := by
  let n : NvsSt := { s.nvs with pend := s.nvs.pend.erase (.left c.num) }
  let v := cappedWrite (s.setNvs n)
  let w := storeLife (stampLife r s) v
  obtain ⟨⟨wear, stamps, store⟩, -, regs, parts⟩ := cappedStore_spec n s
  have cage : (if c.num = 0 then AB.a else AB.b) = c := by cases c <;> rfl
  have block : v.opt = s.opt := parts .opt (by decide)
  have backup : v.backup = s.backup := parts .backup (by decide)
  have stamp : stampLife r v = stampLife r s := by
    unfold stampLife
    rw [backup]
  have life : v.nvs.life = s.nvs.life := (congrArg NvsSt.life store :)
  have left : commitItem (.left c.num) v = w.setOpt c { s.opt.get c with leaving := [] } := by
    change writeLeft (if c.num = 0 then AB.a else AB.b) v = _
    rw [cage]
    unfold writeLeft
    dsimp only
    rw [block, waits]
    dsimp only
    have same : w.opt = s.opt := (storeLife_spec (stampLife r s) v).1 .opt (by decide) |>.trans block
    change ({ storeLife (stampLife r v) v with opt := s.opt.set c _ } : State) = { w with opt := w.opt.set c _ }
    rw [stamp, same]
  have run : exec (.lifeRecordWrite c) s = whenOn s (.next (w.setOpt c { s.opt.get c with leaving := [] })) := by
    have saved : saveLeft c s = commitItem (.left c.num) v := by
      unfold saveLeft
      rw [waits]
      exact if_pos room
    simp only [exec, execLifeRecordWrite]
    rw [saved, left]
  obtain ⟨stored, -, fits⟩ := storeLife_spec (stampLife r s) v
  obtain ⟨listed, same⟩ := fits (by rw [life]; exact space)
  refine after_running on run ⟨keeps_mono (keeps_trans (keeps_trans parts stored) (setOpt_moves (s := w)).1) (by decide), listed,
    congrArg OptSt.leaving (optGet_setOpt c _ w), fun x hx => (same x List.not_mem_nil).trans (regs x hx)⟩

/-! ### The limit of laser life, and TX_EN -/

theorem bits_lifeLimit (old v : Word) : bits (mergeFields (fieldsAt (pOpt .a) 0x110) old v) 0 19 = bits v 0 19 := by
  have fields : mergeFields (fieldsAt (pOpt .a) 0x110) old v = setBits 0 0 19 (bits v 0 19) := rfl
  rw [fields, bits_setBits_same _ _ _ _ (by decide)]
  exact Nat.mod_eq_of_lt (bits_lt _ _ _)

/-- A new limit applies to both live records at once. -/
theorem limitApplied (s : State) :
    let t := updateLife .b (updateLife .a s)
    lifeLimit t = lifeLimit s ∧
      (∀ d r, (s.opt.get d).live = some r → (t.opt.get d).live = some { r with life := lifeOf (permille r.laserOn s) }) := by
  let a := updateLife .a s
  obtain ⟨livesA, otherA, -, -, regsA, -⟩ := updateLife_spec .a s
  obtain ⟨livesB, otherB, -, -, regsB, -⟩ := updateLife_spec .b a
  have limitA : lifeLimit a = lifeLimit s := fld_congr (regsA _ (by decide)) _ _
  have limitB : lifeLimit (updateLife .b a) = lifeLimit a := fld_congr (regsB _ (by decide)) _ _
  have same (n : Nat) : permille n a = permille n s := by
    unfold permille
    rw [limitA]
  refine ⟨limitB.trans limitA, fun d r live => ?_⟩
  cases d with
  | a => exact (congrArg OptSt.live otherB).trans (livesA r live)
  | b => exact (livesB r ((congrArg OptSt.live otherA).trans live)).trans (by rw [same])

theorem lifeLimitWrite_spec {m : AB} {v : Word} (on : s.running = true) (ok : admits m (pOpt c) 0x110 (lifeLimitHandler c) v s = true) :
    After (exec (.lifeLimitWrite m c v) s) fun t => alike lineKept s t ∧ t.last = .done ∧ lifeLimit t = bits v 0 19 ∧
      ∀ d r, (s.opt.get d).live = some r → (t.opt.get d).live = some { r with life := lifeOf (permille r.laserOn t) } := by
  obtain ⟨u, used, -, wrote⟩ := writeReg_used ok
  let a := storeReg (pOpt .a) 0x110 v u
  let b := updateLife .b (updateLife .a a)
  obtain ⟨value, -, stored⟩ := storeReg_spec (pOpt .a) 0x110 v u
  obtain ⟨limit, lives⟩ := limitApplied a
  have row : exec (.lifeLimitWrite m c v) s = whenOn s (.next (ended .ok 0 .none (lineSettle u b))) := by
    simp only [exec, execLifeLimitWrite]
    rw [wrote]
    rfl
  have settled : Settled true b (lineSettle u b) := settled_lineSettle
  have kept : lifeLimit (lineSettle u b) = lifeLimit b := fld_congr (settled.regs _ (by decide) fun g => by cases g <;> decide) _ _
  have shown : lifeLimit a = bits v 0 19 := (congrArg (bits · 0 19) value).trans (bits_lifeLimit _ _)
  have before (d : AB) : a.opt.get d = s.opt.get d := optGet_of_keeps (keeps_trans used.1 stored) (by decide) d
  have block (d : AB) : (lineSettle u b).opt.get d = b.opt.get d := optGet_of_keeps lineSettle_moves.1 (by decide) d
  refine after_alike execLifeLimitWrite_moves rfl on row ⟨rfl, kept.trans (limit.trans shown), fun d r live => ?_⟩
  have same : permille r.laserOn (lineSettle u b) = permille r.laserOn a := by
    unfold permille
    rw [kept, limit]
  change ((lineSettle u b).opt.get d).live = some { r with life := lifeOf (permille r.laserOn (lineSettle u b)) }
  rw [block, same]
  exact lives d r ((congrArg OptSt.live (before d)).trans live)

theorem txCtrlWrite_spec {m : AB} {v : Word} (on : s.running = true) (ok : admits m (pOpt c) 0x104 (txCtrlHandler c) v s = true) :
    After (exec (.txCtrlWrite m c v) s) fun t => alike (.opt :: lineKept) s t ∧ t.last = .done ∧
      t.rp (pOpt c) 0x104 = mergeFields (fieldsAt (pOpt c) 0x104) (s.rp (pOpt c) 0x104) v := by
  obtain ⟨u, -, same, wrote⟩ := writeReg_used ok
  let a := storeReg (pOpt c) 0x104 v u
  obtain ⟨value, -⟩ := storeReg_spec (pOpt c) 0x104 v u
  have row : exec (.txCtrlWrite m c v) s = whenOn s (.next (ended .ok 0 .none (lineSettle u a))) := by
    simp only [exec, execTxCtrlWrite]
    rw [wrote]
    rfl
  have settled : Settled true a (lineSettle u a) := settled_lineSettle
  have before : u.rp (pOpt c) 0x104 = s.rp (pOpt c) 0x104 := same _ (by cases c <;> decide)
  have shown : (lineSettle u a).rd (regAddr (pOpt c) 0x104) = a.rd (regAddr (pOpt c) 0x104) := optStatus_settled settled (by decide)
  refine after_alike execTxCtrlWrite_moves rfl on row ⟨rfl, ?_⟩
  rw [← before]
  exact shown.trans value

/-- Settles O49, by what each event of a cage does. -/
theorem modulesComeAndGo : Obligations.ModulesComeAndGo := by
  unfold Obligations.ModulesComeAndGo
  intro c s on vaux _
  exact ⟨fun empty => moduleInsert_spec on vaux empty, fun seated => moduleRemove_spec on vaux seated,
    fun present free fresh => idReadStart_spec on present free fresh,
    fun i reading => ⟨fun refused => idReadDone_refused on reading refused, fun good => idReadDone_accepted on reading good⟩,
    fun present accepted => ⟨fun l => diagPoll_read on present accepted, fun last => diagPoll_failed on present accepted last⟩,
    fun n tried few => twoWireRetry_spec on tried few, fun r lit live => laserSecond_spec on lit live,
    fun r waits room space => lifeRecordWrite_spec on waits room space, fun m v ok => lifeLimitWrite_spec on ok,
    fun m v ok => txCtrlWrite_spec on ok⟩

end Sys2Proof.Machine

/-!
PROOFS. The frame synchroniser (R239 to R246): a match leads towards SYNC, a miss leads back or is counted, and nothing that a frame of a
synchronised feeder carries reaches the synchroniser, LOF or the activation state. LOS (R239), its clearing, and SD (R249).
-/

namespace Sys2Proof.Machine

variable {s t u : State} {f : AB}

/-! ### What leaves the synchroniser alone -/

/-- A step leaves the synchroniser of a feeder, its LOF, its misses and its activation state, and takes no bit of INT_RAW away. -/
structure SyncKept (f : AB) (s t : State) : Prop where
  sync : lfrField f 0 2 t = lfrField f 0 2 s
  lof : lofNow f t = lofNow f s
  act : actState f t = actState f s
  misses : (t.lfr.get f).misses = (s.lfr.get f).misses
  intRaw : ∀ p i, intRawBit s p i = true → intRawBit t p i = true

theorem syncKept_refl (f : AB) (s : State) : SyncKept f s s := ⟨rfl, rfl, rfl, rfl, fun _ _ => id⟩

theorem SyncKept.after (step : SyncKept f t u) (h : SyncKept f s t) : SyncKept f s u :=
  ⟨step.sync.trans h.sync, step.lof.trans h.lof, step.act.trans h.act, step.misses.trans h.misses, fun p i x => step.intRaw p i (h.intRaw p i x)⟩

theorem syncKept_ite {c : Prop} [Decidable c] {a b : State} (ha : SyncKept f s a) (hb : SyncKept f s b) : SyncKept f s (if c then a else b) :=
  ite_all ha hb

theorem syncKept_foldl {α : Type} {xs : List α} {g : State → α → State} (each : ∀ u, ∀ x ∈ xs, SyncKept f u (g u x)) (s : State) :
    SyncKept f s (xs.foldl g s) := by
  induction xs generalizing s with
  | nil => exact syncKept_refl f s
  | cons x xs ih => exact (ih (fun u y later => each u y (List.mem_cons_of_mem x later)) _).after (each s x List.mem_cons_self)

theorem lofNow_congr (same : t.rd (regAddr (pLfr f) 0x104) = s.rd (regAddr (pLfr f) 0x104)) : lofNow f t = lofNow f s := flag_congr same 9

/-- What leaves the receiver's state word, ACT_STATUS and the misses. -/
theorem syncKept_of_touches {z : Nat → Bool} (h : Touches z s t) (lfr : z (regAddr (pLfr f) 0x104) = false)
    (act : z (regAddr (pAct f) 0x100) = false) (misses : (t.lfr.get f).misses = (s.lfr.get f).misses) : SyncKept f s t :=
  ⟨fld_congr (h.regs _ lfr) 0 2, lofNow_congr (h.regs _ lfr), actState_congr (h.regs _ act), misses, fun p i => (h.hdrs p).2 i⟩

theorem syncKept_settled {w : Bool} {l : List Part} (h : Settled w s t) (moved : moves l s t) (apart : l.contains .lfr = false) :
    SyncKept f s t := by
  have loose : Settled true s t := by
    cases w with
    | false => exact h.loose
    | true => exact h
  have lfr : t.lfr = s.lfr := part_of_moves .lfr moved apart
  exact syncKept_of_touches (tableZone_settled loose) (by cases f <;> decide) (by cases f <;> decide) (by rw [lfr])

theorem syncKept_of_moves {l : List Part} (moved : moves l s t)
    (apart : [Part.regs, .hdrs, .lfr].all (fun p => !l.contains p) = true) : SyncKept f s t := by
  have other : ∀ p ∈ [Part.regs, .hdrs, .lfr], p.same s t := fun p hp => moved.1 p fun hl => by
    have := List.all_eq_true.mp apart p hp
    rw [List.contains_iff_mem.mpr hl] at this
    cases this
  have regs : t.regs = s.regs := other .regs (by decide)
  have hdrs : t.hdrs = s.hdrs := other .hdrs (by decide)
  have lfr : t.lfr = s.lfr := other .lfr (by decide)
  have same (a : Nat) : t.rd a = s.rd a := congrArg (tblGet (resetWord a) a) regs
  exact ⟨fld_congr (same _) 0 2, lofNow_congr (same _), actState_congr (same _), by rw [lfr], fun p i => by
    rw [intRawBit, intRawBit, State.hdr, State.hdr, hdrs]
    exact id⟩

theorem syncKept_wr {a : Nat} {v : Word} (lfr : a ≠ regAddr (pLfr f) 0x104) (act : a ≠ regAddr (pAct f) 0x100) : SyncKept f s (s.wr a v) :=
  ⟨fld_congr (State.rd_wr_other s lfr.symm v) 0 2, lofNow_congr (State.rd_wr_other s lfr.symm v), actState_congr (State.rd_wr_other s act.symm v),
    rfl, fun _ _ => id⟩

/-- A flag that is no bit of the synchroniser's field, of LOF or of the activation state, wherever it stands. -/
theorem syncKept_setFlag {a i : Nat} {b : Bool} (high : 10 ≤ i) : SyncKept f s (s.setFlag a i b) := by
  have field (c : Nat) {lo w : Nat} (low : lo + w ≤ 10) : (s.setFlag a i b).fld c lo w = s.fld c lo w := by
    by_cases same : c = a
    · rw [same]
      exact fld_setFld_other s a _ (.inl (by omega)) (by omega)
    · exact congrArg (bits · lo w) (rd_setFlag_other s same i b)
  have lof : lofNow f (s.setFlag a i b) = lofNow f s := by
    by_cases same : regAddr (pLfr f) 0x104 = a
    · rw [lofNow, lofNow, same]
      exact flag_setFlag_other s a (i := i) (j := 9) (by decide) (by omega) b
    · exact lofNow_congr (rd_setFlag_other s same i b)
  exact ⟨field _ (by decide), lof, field _ (by decide), rfl, fun _ _ => id⟩

theorem syncKept_raise {p i : Nat} : SyncKept f s (raise p i s) :=
  syncKept_settled (settled_raise (w := true)) raise_moves rfl

theorem syncKept_setHdr {p : Nat} {h : Hdr} (raw : h.intRaw = (s.hdr p).intRaw) : SyncKept f s (s.setHdr p h) := by
  refine ⟨rfl, rfl, rfl, rfl, fun q i set => ?_⟩
  rw [intRawBit] at set ⊢
  by_cases same : q = p
  · rw [same, State.hdr_setHdr_same, raw, ← same]
    exact set
  · rw [State.hdr_setHdr_other s same]
    exact set

theorem syncKept_setLfr {g : AB} {x : LfrSt} (misses : x.misses = (s.lfr.get g).misses) : SyncKept f s (s.setLfr g x) := by
  refine ⟨rfl, rfl, rfl, ?_, fun _ _ => id⟩
  change ((s.lfr.set g x).get f).misses = _
  by_cases same : f = g
  · rw [same, Pair.get_set_same, misses]
  · rw [Pair.get_set_other _ same]

theorem lfr_setLfr (s : State) (f : AB) (x : LfrSt) : (s.setLfr f x).lfr.get f = x := Pair.get_set_same _ _ _

theorem syncKept_countWide {a w k h i p j : Nat} (lfr : h ≠ regAddr (pLfr f) 0x104) (act : h ≠ regAddr (pAct f) 0x100) :
    SyncKept f s (countWide a w k (some (h, i)) (some (p, j)) s) := by
  have counted {n : Nat} : SyncKept f s (s.setCtr a n) := syncKept_of_moves setCtr_moves rfl
  exact syncKept_ite (syncKept_raise.after <| (syncKept_wr lfr act).after counted) counted

/-! ### The errors that a read of the feeder's tables can meet -/

theorem syncKept_eccCount {i k : Nat} (few : i < 32) : SyncKept f s (eccCount i k s) := by
  refine syncKept_countWide ?_ ?_ <;> rw [Nat.div_eq_of_lt few] <;> cases f <;> decide

theorem syncKept_addLog {k : LogType} {page code : Nat} {detail w5 : Word} : SyncKept f s (addLog k page code detail w5 s) := by
  have bumped {off n : Nat} {u : State} (low : off < 0x1000) : SyncKept f u (u.bump (regAddr pLog off) n) := by
    refine syncKept_wr ?_ ?_ <;> cases f <;> simp only [regAddr, pLog, pLfr, pAct, AB.num] <;> omega
  have stored {x : NvsSt} {u : State} : SyncKept f u { u with nvs := x } := syncKept_of_moves (l := [.nvs]) with_nvs_moves rfl
  have logged {x : LogSt} {u : State} : SyncKept f u { u with log := x } := syncKept_of_moves (l := [.log]) with_log_moves rfl
  unfold addLog
  extract_lets seq e s1 s2 s3
  have counted : SyncKept f s s3 := (bumped (by decide)).after <| logged.after <| syncKept_ite (syncKept_refl f s) (bumped (by decide))
  exact syncKept_ite (stored.after counted) counted

theorem syncKept_recordFault {p code : Nat} {detail w5 : Word} : SyncKept f s (recordFault p code detail w5 s) := by
  refine syncKept_raise.after <| syncKept_addLog.after <| syncKept_setHdr ?_
  split <;> rfl

theorem syncKept_setEcc {x : EccSt} : SyncKept f s { s with ecc := x } := syncKept_of_moves (l := [.ecc]) with_ecc_moves rfl

theorem syncKept_startRowTest {l : MemLoc} : SyncKept f s (startRowTest l s) :=
  syncKept_ite (syncKept_refl f s) <| (syncKept_eccCount (i := 6) (by decide)).after <|
    SyncKept.after (syncKept_setHdr rfl) syncKept_setEcc

theorem syncKept_loseKey {feeder slot : Nat} : SyncKept f s (loseKey feeder slot s) := by
  have flagged : SyncKept f s (s.setFlag (regAddr pCry 0x100) (slot + 8 * feeder) false) := by
    refine syncKept_wr ?_ ?_ <;> cases f <;> decide
  unfold loseKey
  extract_lets g s1 old s2
  have lost : SyncKept f s1 s2 := syncKept_of_moves (l := [.act, .keys]) with_act_keys_moves rfl
  exact syncKept_ite (syncKept_refl f s) <| syncKept_raise.after <| syncKept_recordFault.after <| lost.after flagged

theorem syncKept_foundCe {l : MemLoc} {bit : Nat} : SyncKept f s (foundCe l bit s) := by
  unfold foundCe
  extract_lets s1 old s2 s3
  have counted : SyncKept f s s1 := syncKept_raise.after (syncKept_eccCount (by decide))
  have listed : SyncKept f s1 s2 := syncKept_setEcc
  have tested : SyncKept f s s3 := syncKept_startRowTest.after <| syncKept_recordFault.after <| listed.after counted
  exact syncKept_ite (syncKept_loseKey.after tested) tested

theorem syncKept_foundUe {l : MemLoc} {scrub : Bool} : SyncKept f s (foundUe l scrub s) := by
  unfold foundUe
  extract_lets again old s1 s2 s3
  have poisoned : SyncKept f s s1 := syncKept_setEcc
  have found : SyncKept f s s3 := syncKept_recordFault.after <| syncKept_raise.after <|
    (syncKept_eccCount (by split <;> decide)).after poisoned
  exact syncKept_ite found (syncKept_startRowTest.after found)

theorem syncKept_transit {mem : Nat} : SyncKept f s (transit mem s).2 := by
  unfold transit
  extract_lets r v l w ue old
  have flipped : SyncKept f s w := syncKept_raise.after <| (syncKept_setFlag (by decide)).after <| syncKept_of_moves takeFree_moves rfl
  split
  · split
    · exact syncKept_foundCe.after flipped
    · have met : SyncKept f s ue := syncKept_foundUe.after flipped
      exact syncKept_setEcc.after met
  · exact syncKept_refl f s

theorem syncKept_setSdu {g : AB} {e : Nat} {x : Option Sdu} : SyncKept f s (setSdu g e x s) := syncKept_setLfr rfl

theorem syncKept_dropSdu {g : AB} {e : Nat} : SyncKept f s (dropSdu g e s) := by
  have dropped {k : Nat} {u : State} : SyncKept f u (dropAt .lineReasm k 8 none 0 u) :=
    syncKept_settled (settled_dropAt (w := true)) dropAt_moves rfl
  unfold dropSdu
  split
  · exact syncKept_refl f s
  · exact syncKept_ite (syncKept_refl f s) (dropped.after syncKept_setSdu)

theorem syncKept_pushMark {g : AB} {d : XDest} : SyncKept f s (pushMark g d s) := syncKept_setLfr rfl

theorem syncKept_cutChain {g : AB} {e : Nat} {keep : Bool} : SyncKept f s (cutChain g e keep s) := by
  have cut : SyncKept f s (cutSdu g e keep s) := by
    unfold cutSdu
    split
    · exact syncKept_refl f s
    · exact syncKept_ite (syncKept_setSdu.after syncKept_dropSdu) (syncKept_setSdu.after syncKept_dropSdu)
  exact syncKept_ite cut syncKept_pushMark

/-- The tables that a frame from the line reads: the Port-ID entries, the keys and the Alloc-IDs of a feeder (Table 18-2). -/
def lineTable (mem : Nat) : Prop := mem = 0x68 ∨ mem = 0x69 ∨ mem = 0x6A

theorem syncKept_memEffect {l : MemLoc} {slice : Nat} (line : lineTable l.mem) : SyncKept f s (memEffect l slice s) := by
  obtain h | h | h := line
  all_goals simp only [memEffect, h, Nat.reduceLeDiff, Nat.reduceLT, Nat.reduceEqDiff, and_false, if_false, if_true]
  · exact (syncKept_setFlag (by decide)).after <| (syncKept_setFlag (by decide)).after <| syncKept_cutChain.after syncKept_cutChain
  · exact syncKept_loseKey
  · exact syncKept_setFlag (by decide)

theorem syncKept_poisonUse {l : MemLoc} {slice : Nat} (line : lineTable l.mem) : SyncKept f s (poisonUse l slice s) :=
  syncKept_recordFault.after <| (syncKept_eccCount (by decide)).after <| SyncKept.after (syncKept_memEffect line) syncKept_setEcc

theorem syncKept_readUpset {x : Upset} (line : lineTable x.loc.mem) : SyncKept f s (readUpset false x s) := by
  have cleared : SyncKept f s (clearUpset x s) := syncKept_setEcc
  unfold readUpset
  dsimp only
  split
  · exact syncKept_foundCe.after cleared
  · have found : SyncKept f s (foundUe x.loc false (clearUpset x s)) := syncKept_foundUe.after cleared
    rw [if_neg (by decide)]
    exact syncKept_ite ((syncKept_poisonUse line).after found) found

theorem syncKept_readRow {mem bank row slice : Nat} (line : lineTable mem) : SyncKept f s (readRow mem bank row slice s) := by
  have here {l : MemLoc} (h : (l.mem == mem && l.bank == bank && l.row == row) = true) : lineTable l.mem := by
    simp only [Bool.and_eq_true, beq_iff_eq] at h
    rw [h.1.1]
    exact line
  unfold readRow
  extract_lets at_ s1
  have read : SyncKept f s s1 := by
    refine syncKept_foldl (fun u x hx => syncKept_readUpset (here ?_)) s
    exact (Bool.and_eq_true_iff.mp (List.mem_filter.mp hx).2).1
  refine SyncKept.after (syncKept_foldl (fun u l hl => ?_) s1) read
  exact syncKept_ite (syncKept_poisonUse (here (List.mem_filter.mp hl).2)) (syncKept_refl f u)

/-! ### What a frame of a synchronised feeder carries (R246 to R248) -/

theorem syncKept_lfrCount {i k : Nat} (few : i < 32) : SyncKept f s (lfrCount f i k s) := by
  refine syncKept_countWide ?_ ?_ <;> rw [Nat.div_eq_of_lt few] <;> cases f <;> decide

theorem syncKept_actCount {i : Nat} (few : i < 32) : SyncKept f s (actCount f i s) := by
  refine syncKept_countWide ?_ ?_ <;> rw [Nat.div_eq_of_lt few] <;> cases f <;> decide

theorem syncKept_btxCount {i k : Nat} (few : i < 32) : SyncKept f s (btxCount f i k s) :=
  syncKept_settled (settled_btxCount (w := true) few) btxCount_moves rfl

theorem syncKept_keyedFrame {d : XDest} {mcast : Bool} {p : FsPay} {h : XHdr} : SyncKept f s (keyedFrame f d mcast p h s).2 := by
  unfold keyedFrame
  extract_lets mk slot u
  have read : SyncKept f s u := syncKept_readRow (.inr (.inl rfl))
  split
  · exact read
  · exact syncKept_refl f s

theorem syncKept_takeHeader {p : FsPay} {h : XHdr} : SyncKept f s (takeHeader f p h s) := by
  unfold takeHeader
  extract_lets a push o b
  have counted : SyncKept f s a := SyncKept.after (syncKept_lfrCount (i := 6) (by decide)) (syncKept_lfrCount (i := 5) (by decide))
  have pushed (d : XDest) (mcast : Bool) (u : State) : SyncKept f u (push (keyedFrame f d mcast p h u)) :=
    SyncKept.after (syncKept_setLfr rfl) syncKept_keyedFrame
  have read : SyncKept f s b := by
    unfold b
    split
    · exact SyncKept.after (syncKept_readRow (.inl rfl)) counted
    · exact counted
  refine syncKept_ite ((syncKept_lfrCount (by decide)).after counted) (syncKept_ite ((pushed _ _ _).after counted) ?_)
  split
  · exact (pushed _ _ _).after read
  · exact (syncKept_lfrCount (by decide)).after read

theorem syncKept_takeFound {x : FsPay × Option XHdr} : SyncKept f s (takeFound f s x) := by
  unfold takeFound
  split
  · exact syncKept_takeHeader
  · exact syncKept_pushMark

/-- The state of the delineation stands beside the synchroniser's. -/
theorem syncKept_delineated {n : Nat} : SyncKept f s (s.setFld (regAddr (pLfr f) 0x104) 4 2 n) :=
  ⟨fld_setFld_other s _ _ (.inl (by decide)) (by decide), flag_setField_other s (.inr (by decide)) (by decide),
    actState_congr (rd_setFld_other s (by cases f <;> decide) _ _ _), rfl, fun _ _ => id⟩

theorem syncKept_takePayload {p : Psbd} {at_ : Nat} : SyncKept f s (takePayload f p at_ s) := by
  unfold takePayload
  extract_lets x was cfg pay all d a b c y v
  have counted : SyncKept f s a := (syncKept_lfrCount (by decide)).after <| (syncKept_lfrCount (by decide)).after <|
    SyncKept.after (syncKept_lfrCount (i := 8) (by decide)) (syncKept_lfrCount (i := 7) (by decide))
  have found : SyncKept f s b := SyncKept.after (syncKept_foldl (fun _ _ _ => syncKept_takeFound) a) counted
  have told : SyncKept f s v := SyncKept.after (syncKept_setLfr rfl) (syncKept_delineated.after found)
  exact syncKept_ite ((syncKept_setFlag (by decide)).after told) <|
    syncKept_ite (syncKept_raise.after <| (syncKept_lfrCount (by decide)).after <| (syncKept_setFlag (by decide)).after told) told

theorem syncKept_acceptPloam {p : Ploam} : SyncKept f s (acceptPloam f s p) := by
  unfold acceptPloam
  extract_lets idx a v b old
  have logged : SyncKept f s a :=
    SyncKept.after (syncKept_settled (settled_logPloam (w := true)) logPloam_moves rfl) (syncKept_actCount (by decide))
  have passed : SyncKept f s b := syncKept_transit.after logged
  have lost : SyncKept f s (raise (pAct f) 2 (actCount f 3 b)) := syncKept_raise.after <| (syncKept_actCount (by decide)).after passed
  exact syncKept_ite (syncKept_refl f s) <| syncKept_ite (syncKept_actCount (by decide)) <| syncKept_ite lost <|
    syncKept_ite (SyncKept.after (syncKept_of_moves setActSt_moves rfl) passed) lost

theorem syncKept_stimulus : SyncKept f s (stimulus s) := by
  have lfr : (stimulus s).lfr = s.lfr := part_of_moves .lfr stimulus_moves rfl
  exact syncKept_of_touches concludes_stimulus.touches (by cases f <;> decide) (by cases f <;> decide) (by rw [lfr])

theorem syncKept_tsuCount {i : Nat} (few : i < 32) : SyncKept f s (tsuCount i s) := by
  refine syncKept_countWide ?_ ?_ <;> rw [Nat.div_eq_of_lt few] <;> cases f <;> decide

theorem syncKept_setTsu {x : TsuSt} : SyncKept f s (s.setTsu x) := syncKept_of_moves setTsu_moves rfl

theorem syncKept_adjustTime {first : Bool} {d : Int} : SyncKept f s (adjustTime first d s) := by
  have shown {v : Word} {u : State} : SyncKept f u (u.wp pTsu 0x128 v) := by
    refine syncKept_wr ?_ ?_ <;> cases f <;> decide
  have stepped {u : State} : SyncKept f u (stepTime d u) :=
    syncKept_raise.after <| (syncKept_tsuCount (by decide)).after <| shown.after syncKept_setTsu
  exact syncKept_ite (stepped.after syncKept_setTsu) syncKept_setTsu

theorem syncKept_applyLoad {err : Int} : SyncKept f s (applyLoad err s) := by
  have kept {u : State} : SyncKept f u (rtcFromTsu u) := by
    have stored {x : BackupSt} : SyncKept f u { u with backup := x } := syncKept_of_moves (l := [.backup]) with_backup_moves rfl
    refine SyncKept.after (syncKept_wr ?_ ?_) stored <;> cases f <;> decide
  unfold applyLoad
  extract_lets acquired a old b
  have adjusted : SyncKept f s a := syncKept_adjustTime
  have updated : SyncKept f s b :=
    SyncKept.after (syncKept_settled (settled_tsuUpdate (w := true)) tsuUpdate_moves rfl) (syncKept_setTsu.after adjusted)
  exact syncKept_ite (kept.after updated) updated

theorem syncKept_lineLoad {sfc arrival : Nat} : SyncKept f s (lineLoad f sfc arrival s) := by
  unfold lineLoad
  extract_lets a err b c
  have flagged {i : Nat} {v : Bool} {u : State} : SyncKept f u (u.setFlag a i v) := by
    refine syncKept_wr ?_ ?_ <;> cases f <;> decide
  have shown : SyncKept f s b := by
    refine syncKept_wr ?_ ?_ <;> cases f <;> decide
  have armed : SyncKept f s c := syncKept_raise.after <| (syncKept_tsuCount (by decide)).after <| flagged.after shown
  exact syncKept_ite (syncKept_refl f s) <| syncKept_ite (syncKept_ite (syncKept_applyLoad.after armed) armed) <|
    syncKept_ite (syncKept_raise.after <| (syncKept_tsuCount (by decide)).after <| flagged.after flagged) (syncKept_refl f s)

theorem syncKept_acceptAlloc {g : Grant} {id : Nat} {w : MapWalk} : SyncKept f s (acceptAlloc f g id w s).2 := by
  have refused {i : Nat} (few : i < 32) : SyncKept f s (raise (pBtx f) 1 (btxCount f i 1 s)) :=
    syncKept_raise.after (syncKept_btxCount few)
  unfold acceptAlloc
  extract_lets dflt a node b c old
  have read : SyncKept f s a := by
    unfold a
    split
    · exact syncKept_ite (syncKept_refl f s) (syncKept_readRow (.inr (.inr rfl)))
    · exact syncKept_refl f s
  have counted : SyncKept f s b := (syncKept_btxCount (by decide)).after read
  have granted : SyncKept f s c := syncKept_ite ((syncKept_btxCount (by decide)).after counted) counted
  have queued {x : BtxSt} {u : State} : SyncKept f u (u.setBtx f x) := syncKept_of_moves setBtx_moves rfl
  split
  · exact syncKept_refl f s
  · split
    · exact syncKept_refl f s
    · split
      · exact refused (by decide)
      · split
        · exact refused (by decide)
        · split
          · exact syncKept_refl f s
          · exact queued.after granted

theorem syncKept_answerGrant {o : Output} : SyncKept f s (answerGrant f o s) :=
  SyncKept.after (syncKept_of_moves emit_moves rfl) <| SyncKept.after (syncKept_btxCount (by decide)) <| syncKept_of_moves benCount_moves rfl

theorem syncKept_acceptGrant {x : MapWalk × State} {g : Grant} : SyncKept f x.2 (acceptGrant f x g).2 := by
  unfold acceptGrant
  extract_lets w a v p b old c r
  have sent {q : Ploamu} {u : State} : SyncKept f u (sentPloamu f q u) :=
    syncKept_settled (settled_sentPloamu (w := true)) sentPloamu_moves rfl
  have same : SyncKept f a a := syncKept_refl f a
  have ranged : SyncKept f a c := SyncKept.after (syncKept_of_moves setActSt_moves rfl) (syncKept_actCount (by decide))
  unfold r
  split
  · exact syncKept_acceptAlloc
  · split
    · exact syncKept_answerGrant.after <| sent.after <| SyncKept.after (syncKept_actCount (by decide)) (syncKept_of_moves takeFree_moves rfl)
    · exact same
  · split
    · exact syncKept_answerGrant.after ranged
    · exact same

theorem syncKept_acceptGrants {l : List Grant} : SyncKept f s (acceptGrants f l s) := by
  have walked (x : MapWalk × State) : SyncKept f x.2 (l.foldl (acceptGrant f) x).2 := by
    induction l generalizing x with
    | nil => exact syncKept_refl f x.2
    | cons g l ih => exact (ih _).after syncKept_acceptGrant
  exact walked (⟨0, []⟩, s)

/-- A frame of a synchronised feeder leaves the synchroniser alone. -/
theorem syncKept_takeFsFrame {p : Psbd} {hit : Bool} {at_ : Nat} : SyncKept f s (takeFsFrame f p hit at_ s) := by
  unfold takeFsFrame
  extract_lets a b old c d e g
  have first : SyncKept f s a := (syncKept_lfrCount (by decide)).after <|
    SyncKept.after (syncKept_lfrCount (i := 1) (by decide)) (syncKept_lfrCount (i := 0) (by decide))
  have counted : SyncKept f s b := (syncKept_lfrCount (by decide)).after <| (syncKept_lfrCount (by decide)).after first
  have summed : SyncKept f s c := SyncKept.after (syncKept_setLfr rfl) counted
  have loaded : SyncKept f s d := syncKept_ite (syncKept_lineLoad.after summed) summed
  have told : SyncKept f s e := SyncKept.after (syncKept_foldl (fun _ _ _ => syncKept_acceptPloam) d) loaded
  have woken : SyncKept f s g := syncKept_ite (syncKept_stimulus.after told) told
  exact syncKept_takePayload.after (syncKept_acceptGrants.after woken)

/-! ### The measure of a frame's start -/

theorem measureStandby_touches : Touches (fun _ => false) s (measureStandby f s) := by
  have noted {x : PswSt} {u : State} : Touches (fun _ => false) u { u with psw := x } := touches_of_moves (l := [.psw]) with_psw_moves rfl
  have recalled {u : State} : Settled true u (recallBursts f u) := settled_recallBursts
  have same {u : State} (a : Nat) : (recallBursts f u).rd a = u.rd a := congrFun (rd_of_keeps recallBursts_moves.1 (by decide)) a
  have held {u : State} : Touches (fun _ => false) u (recallBursts f u) := ⟨fun a _ => same a, recalled.hdrs, recalled.queue, recalled.profiles⟩
  unfold measureStandby
  extract_lets _ a _
  have measured : Touches (fun _ => false) s a := noted
  exact touches_ite (touches_refl _ s) (touches_ite (held.after (noted.after measured)) measured)

/-- What a frame that was found leaves before the synchroniser moves: its super-frame counter and, of a feeder that does not carry the
upstream, the drift of its start. -/
def measured (f : AB) (p : Psbd) (at_ : Nat) (s : State) : State := measureStandby f (takeSfc f p at_ s)

theorem measured_moves {p : Psbd} {at_ : Nat} :
    moves [.regs, .ctrs, .hdrs, .links, .lfr, .buf, .act, .btx, .psw, .omciUpQ] s (measured f p at_ s) :=
  measureStandby_moves.after rfl (takeSfc_moves.within rfl)

/-- The super-frame counter's registers and the half-range bits of the receiver's counters. -/
def startZone (f : AB) (a : Nat) : Bool := [regAddr (pLfr f) 0x11C, regAddr (pLfr f) 0x120, regAddr (pLfr f) 0x130].contains a

theorem measured_spec (f : AB) (p : Psbd) (at_ : Nat) (s : State) :
    let t := measured f p at_ s
    keepsRegs [regAddr (pLfr f) 0x11C, regAddr (pLfr f) 0x120, regAddr (pLfr f) 0x130] s t ∧
      (t.lfr.get f).matches_ = (s.lfr.get f).matches_ := by
  intro t
  let u := takeSfc f p at_ s
  have first : Touches (startZone f) s u ∧ (u.lfr.get f).matches_ = (s.lfr.get f).matches_ := by
    by_cases bad : p.sfcOk = false
    · have run : u = s := if_pos (by rw [bad]; rfl)
      rw [run]
      exact ⟨touches_refl _ s, rfl⟩
    · let a := if (s.lfr.get f).sfcKnown && p.sfc % 2 ^ 51 != (lfrSfc f s + 1) % 2 ^ 51 then lfrCount f 13 1 s else s
      let b := (a.wp (pLfr f) 0x11C (word (p.sfc % 2 ^ 51 / 2 ^ 32))).wp (pLfr f) 0x120 (word (p.sfc % 2 ^ 51))
      have run : u = b.setLfr f { b.lfr.get f with sfcKnown := true, arrival := some at_ } :=
        if_neg (by rw [Bool.not_eq_true', Bool.not_eq_false]; simpa using bad)
      have half : startZone f (regAddr (pLfr f) 0x130) = true := by simp [startZone]
      have counted : Touches (startZone f) s a := touches_ite (touches_countWide half) (touches_refl _ s)
      have shown : Touches (startZone f) s b :=
        Touches.after (touches_wr (by simp [startZone])) (Touches.after (touches_wr (by simp [startZone])) counted)
      have lfr : b.lfr = s.lfr := part_of_moves (m := [.regs, .ctrs, .hdrs, .links]) .lfr
        (wp_moves.after rfl <| wp_moves.after rfl <| moves_ite (lfrCount_moves.within rfl) moves_rfl) rfl
      rw [run]
      refine ⟨Touches.after (touches_of_moves setLfr_moves rfl) shown, ?_⟩
      change ((b.lfr.set f _).get f).matches_ = _
      rw [Pair.get_set_same, lfr]
  obtain ⟨touched, matched⟩ := first
  have lfr : t.lfr = u.lfr := part_of_moves .lfr (measureStandby_moves (f := f)) rfl
  refine ⟨fun a out => (measureStandby_touches.regs a rfl).trans (touched.regs a ?_), by rw [lfr]; exact matched⟩
  exact Bool.eq_false_iff.mpr fun listed => out (List.contains_iff_mem.mp listed)

/-! ### The step of the synchroniser (Table 8-3) -/

theorem syncStep_hunt (field : lfrField f 0 2 s = 0) (many : 2 ≤ bits (s.rp (pLfr f) 0x108) 0 4) :
    syncStep f true s = (s.setFld (regAddr (pLfr f) 0x104) 0 2 1).setLfr f { s.lfr.get f with matches_ := 1 } := by
  simp only [syncStep, field, Bool.not_true, Bool.false_eq_true, if_false]
  exact if_neg (by omega)

theorem syncStep_enters (field : lfrField f 0 2 s = 1) (enough : bits (s.rp (pLfr f) 0x108) 0 4 ≤ (s.lfr.get f).matches_ + 1) :
    syncStep f true s = enterSync f s := by
  simp only [syncStep, field, Bool.not_true, Bool.false_eq_true, if_false]
  exact if_pos enough

theorem syncStep_back (field : lfrField f 0 2 s = 1) :
    syncStep f false s = (s.setFld (regAddr (pLfr f) 0x104) 0 2 0).setLfr f { s.lfr.get f with matches_ := 0 } := by
  simp only [syncStep, field, Bool.not_false, if_true]

theorem syncStep_misses (sync : inSync f s = true) (few : (s.lfr.get f).misses + 1 < bits (s.rp (pLfr f) 0x108) 4 4) :
    syncStep f false s = s.setLfr f { s.lfr.get f with misses := (s.lfr.get f).misses + 1 } := by
  have field : lfrField f 0 2 s = 2 := beq_iff_eq.mp sync
  simp only [syncStep, field, Bool.false_eq_true, if_false]
  exact if_neg (by omega)

/-- The synchroniser's own part of the entry of SYNC. -/
def syncEntered (f : AB) (s : State) : State :=
  let s := (s.setFld (regAddr (pLfr f) 0x104) 0 2 2).setFlag (regAddr (pLfr f) 0x104) 9 false
  raise (pLfr f) 5 (s.setLfr f { s.lfr.get f with
    misses := 0, matches_ := 0, outFrames := 0, held := s.fld (regAddr (pLfr f) 0x100) 4 2 })

theorem syncEntered_spec (f : AB) (s : State) :
    let t := syncEntered f s
    inSync f t = true ∧ lofNow f t = false ∧ intRawBit t (pLfr f) 5 = true ∧ actState f t = actState f s ∧
      moves [.regs, .hdrs, .links, .lfr] s t := by
  intro t
  let a := s.setFld (regAddr (pLfr f) 0x104) 0 2 2
  let b := a.setFlag (regAddr (pLfr f) 0x104) 9 false
  have same (c : Nat) : t.rd c = b.rd c := raise_rd _ _ _ c
  refine ⟨?_, ?_, raise_intRaw _ _ _ (by decide), ?_, raise_moves.after rfl <| setLfr_moves.after rfl <| setFlag_moves.after rfl <|
    setFld_moves.within rfl⟩
  · have field : b.fld (regAddr (pLfr f) 0x104) 0 2 = 2 :=
      (fld_setFld_other a _ _ (.inl (by decide)) (by decide)).trans (fld_setFld_same s _ _ (by decide))
    exact beq_iff_eq.mpr ((fld_congr (same _) 0 2).trans field)
  · exact (lofNow_congr (same _)).trans (flag_setFlag_same a _ (by decide) false)
  · have apart : regAddr (pAct f) 0x100 ≠ regAddr (pLfr f) 0x104 := by cases f <;> decide
    exact actState_congr ((same _).trans ((rd_setFlag_other a apart _ _).trans (rd_setFld_other s apart _ _ _)))

theorem awakeMode_actMode {old new cause : Nat} (h : awakeMode s) : awakeMode (actMode f old new cause s) := by
  have back : awakeMode (attachBack cause s) := ite_all (awakeMode_modeTo Mode.noConfusion)
    (ite_all (awakeMode_modeTo Mode.noConfusion) (ite_all (awakeMode_modeTo Mode.noConfusion) h))
  unfold actMode
  refine ite_all ?_ (ite_all ?_ h)
  · cases s.power.mode with
    | attach x => exact awakeMode_modeTo (by decide)
    | holdover x => exact ite_all h awakeMode_lineReturn
    | service x => exact h
    | dormant => exact h
  · cases s.power.mode with
    | attach x => exact h
    | holdover x => exact back
    | service x => exact back
    | dormant => exact h

theorem awakeMode_setAct {new cause : Nat} (ne : new ≠ aO11) (h : awakeMode s) : awakeMode (setAct f new cause s) := by
  have acted : awakeMode (actMode f (actState f s) new cause (setActReg f new cause s)) :=
    awakeMode_actMode (awakeMode_of_moves setActReg_moves rfl h)
  rw [setAct_of_ne ne]
  obtain same | ⟨x, -, power⟩ := syncAttach_power (actMode f (actState f s) new cause (setActReg f new cause s))
  · rw [awakeMode, same]
    exact acted
  · rw [awakeMode, power]
    exact Mode.noConfusion

/-- In ATTACH the entry of SYNC takes a feeder in O1.1 to O1.2, and to no other state than O1.2 and O5. -/
theorem enterSync_spec {x : AttachSub} (mode : s.power.mode = .attach x) :
    let t := enterSync f s
    inSync f t = true ∧ lofNow f t = false ∧ intRawBit t (pLfr f) 5 = true ∧ awakeMode t ∧
      (keeperUp s = true → actState f s = aO11 → actState f t = aO12) := by
  intro t
  let e := syncEntered f s
  obtain ⟨sync, lof, told, act, moved⟩ := syncEntered_spec f s
  have power : e.power = s.power := part_of_moves .power moved rfl
  have keeper : e.keeper = s.keeper := part_of_moves .keeper moved rfl
  have up : keeperUp e = keeperUp s := by rw [keeperUp, keeperUp, State.running, State.running, power, keeper]
  have regained : regainCheck e = e := if_pos (by rw [power, mode]; exact Mode.noConfusion)
  have awake : awakeMode e := by
    rw [awakeMode, power, mode]
    exact Mode.noConfusion
  have run : t = if !keeperUp e then e else if actState f e = aO11 then setAct f aO12 2 e
      else if actState f e = aO6 then setAct f aO5 9 e else e := by
    have : t = if !keeperUp (regainCheck e) then regainCheck e else if actState f (regainCheck e) = aO11 then setAct f aO12 2 (regainCheck e)
      else if actState f (regainCheck e) = aO6 then setAct f aO5 9 (regainCheck e) else regainCheck e := rfl
    rw [this, regained]
  let P (t : State) : Prop := inSync f t = true ∧ lofNow f t = false ∧ intRawBit t (pLfr f) 5 = true ∧ awakeMode t
  have entered : P e := ⟨sync, lof, told, awake⟩
  have acted {new cause : Nat} (ne : new ≠ aO11) : P (setAct f new cause e) := by
    obtain ⟨-, zone, -⟩ := setAct_spec f new cause e
    have same := zone.regs (regAddr (pLfr f) 0x104) (by cases f <;> decide)
    exact ⟨(inSync_congr same).trans sync, (lofNow_congr same).trans lof, (zone.hdrs _).2 5 told, awakeMode_setAct ne awake⟩
  have all : P t := run ▸ ite_all (P := P) entered (ite_all (P := P) (acted (by decide)) (ite_all (P := P) (acted (by decide)) entered))
  obtain ⟨sync', lof', told', awake'⟩ := all
  refine ⟨sync', lof', told', awake', fun started st => ?_⟩
  rw [run, if_neg (by rw [up, started]; decide), if_pos (act.trans st), setAct_state (by decide)]
  exact if_neg fun h => absurd h.1 (by decide)

/-! ### The arrival of a PSBd (R239 to R246) -/

/-- The gate of a dozing feeder sees a frame that was found. -/
def gated (f : AB) (p : Psbd) (hit : Bool) (at_ : Nat) (s : State) : State :=
  if hit && p.sfcOk && s.power.mode == .service .doze && pswActive s == f then gatePsbd f (p.sfc % 2 ^ 51) at_ s else s

/-- In SYNC the frame is taken. -/
def carried (f : AB) (p : Psbd) (hit : Bool) (at_ : Nat) (s : State) : State :=
  if inSync f s then takeFsFrame f p hit at_ s else s

/-- What follows the step of the synchroniser. -/
def concluded (f : AB) (p : Psbd) (hit : Bool) (at_ : Nat) (old s : State) : State :=
  lineSettle old (carried f p hit at_ (gated f p hit at_ s))

theorem psbdArrival_off (p : Psbd) (off : rxOff f s = true ∨ losNow f s = true ∨ lfrRate f s = 0) (on : s.running = true) :
    exec (.psbdArrival f p) s = .next s := by
  have guard : (rxOff f s || losNow f s || lfrRate f s == 0) = true := by
    obtain h | h | h := off <;> simp [h]
  exact (whenOn_running on _).trans (if_pos guard)

/-- A PSBd of a receiver that hunts, and is on. -/
theorem psbdArrival_run (p : Psbd) (rx : rxOff f s = false) (los : losNow f s = false) (rate : lfrRate f s ≠ 0) :
    let hit := decide (p.errors ≤ bits (s.rp (pLfr f) 0x108) 8 3)
    let at_ := s.tsu.time + p.frac % (1000 * nsUnit)
    exec (.psbdArrival f p) s = whenOn s (.next (concluded f p hit at_ s (syncStep f hit (if hit then measured f p at_ s else s)))) := by
  have guard : ¬(rxOff f s || losNow f s || lfrRate f s == 0) = true := by
    rw [rx, los]
    simpa using rate
  exact congrArg (whenOn s) (if_neg guard)

theorem syncKept_lineSettle {old : State} : SyncKept f s (lineSettle old s) := syncKept_settled settled_lineSettle lineSettle_moves rfl

/-- Out of SYNC the gate only keeps the counter that it saw, and no frame is taken. -/
theorem concluded_unsynced {p : Psbd} {hit : Bool} {at_ : Nat} {old : State} (out : inSync f s = false) :
    let t := concluded f p hit at_ old s
    lfrField f 0 2 t = lfrField f 0 2 s ∧ (t.lfr.get f).matches_ = (s.lfr.get f).matches_ ∧ actState f t = actState f s := by
  intro t
  let g := gated f p hit at_ s
  have gate : moves [.act] s (gatePsbd f (p.sfc % 2 ^ 51) at_ s) := by
    unfold gatePsbd
    split
    · exact moves_rfl
    · rw [out, Bool.false_and, if_neg Bool.false_ne_true]
      exact setActSt_moves
  have held : moves [.act] s g := moves_ite gate moves_rfl
  have regs : g.regs = s.regs := part_of_moves .regs held rfl
  have lfr : g.lfr = s.lfr := part_of_moves .lfr held rfl
  have same (a : Nat) : g.rd a = s.rd a := congrArg (tblGet (resetWord a) a) regs
  have run : t = lineSettle old g := congrArg (lineSettle old) (if_neg (by rw [inSync_congr (same _), out]; decide))
  have settled : SyncKept f g (lineSettle old g) := syncKept_lineSettle
  have kept : (lineSettle old g).lfr = g.lfr := part_of_moves .lfr lineSettle_moves rfl
  rw [run]
  exact ⟨settled.sync.trans (fld_congr (same _) 0 2), by rw [kept, lfr], settled.act.trans (actState_congr (same _))⟩

/-- Where no gate looks at the frame, nothing that follows reaches the synchroniser. -/
theorem concluded_ungated {p : Psbd} {hit : Bool} {at_ : Nat} {old : State} (shut : hit = true → awakeMode s) :
    SyncKept f s (concluded f p hit at_ old s) := by
  have idle : gated f p hit at_ s = s := by
    refine if_neg fun h => ?_
    simp only [Bool.and_eq_true, beq_iff_eq] at h
    exact shut h.1.1.1 h.1.2
  unfold concluded
  rw [idle]
  exact syncKept_lineSettle.after (syncKept_ite syncKept_takeFsFrame (syncKept_refl f s))

/-- A match in FHUNT. -/
theorem psbd_hunt {p : Psbd} {at_ : Nat} {old : State} (field : lfrField f 0 2 s = 0) (many : 2 ≤ bits (s.rp (pLfr f) 0x108) 0 4) :
    let t := concluded f p true at_ old (syncStep f true (measured f p at_ s))
    lfrField f 0 2 t = 1 ∧ (t.lfr.get f).matches_ = 1 ∧ actState f t = actState f s := by
  intro t
  obtain ⟨regs, -⟩ := measured_spec f p at_ s
  let b := measured f p at_ s
  let c := (b.setFld (regAddr (pLfr f) 0x104) 0 2 1).setLfr f { b.lfr.get f with matches_ := 1 }
  have run : t = concluded f p true at_ old c := congrArg (concluded f p true at_ old)
    (syncStep_hunt ((fld_congr (regs _ (by cases f <;> decide)) 0 2).trans field)
      (le_of_le_of_eq many (congrArg (bits · 0 4) (regs _ (by cases f <;> decide)).symm)))
  have one : lfrField f 0 2 c = 1 := fld_setFld_same b _ _ (by decide)
  have act : actState f c = actState f s :=
    actState_congr ((rd_setFld_other b (by cases f <;> decide) _ _ _).trans (regs _ (by cases f <;> decide)))
  obtain ⟨sync, matched, acts⟩ := concluded_unsynced (f := f) (s := c) (p := p) (hit := true) (at_ := at_) (old := old) (by
    change (lfrField f 0 2 c == 2) = false
    rw [one]
    rfl)
  rw [run]
  exact ⟨sync.trans one, matched.trans (congrArg LfrSt.matches_ (lfr_setLfr _ f _)), acts.trans act⟩

/-- Enough matches in FPRESYNC, in ATTACH. -/
theorem psbd_enters {x : AttachSub} {p : Psbd} {at_ : Nat} {old : State} (field : lfrField f 0 2 s = 1)
    (enough : bits (s.rp (pLfr f) 0x108) 0 4 ≤ (s.lfr.get f).matches_ + 1) (mode : s.power.mode = .attach x) :
    let t := concluded f p true at_ old (syncStep f true (measured f p at_ s))
    inSync f t = true ∧ intRawBit t (pLfr f) 5 = true ∧ lofNow f t = false ∧
      (keeperUp s = true → actState f s = aO11 → actState f t = aO12) := by
  intro t
  obtain ⟨regs, matched⟩ := measured_spec f p at_ s
  let b := measured f p at_ s
  have power : b.power = s.power := part_of_moves .power measured_moves rfl
  have keeper : b.keeper = s.keeper := part_of_moves .keeper measured_moves rfl
  have up : keeperUp b = keeperUp s := by rw [keeperUp, keeperUp, State.running, State.running, power, keeper]
  have run : t = concluded f p true at_ old (enterSync f b) := by
    refine congrArg (concluded f p true at_ old) (syncStep_enters ((fld_congr (regs _ (by cases f <;> decide)) 0 2).trans field) ?_)
    rw [matched, State.rp, regs _ (by cases f <;> decide)]
    exact enough
  obtain ⟨sync, lof, told, awake, acts⟩ := enterSync_spec (f := f) (s := b) (x := x) (by rw [power, mode])
  have kept : SyncKept f (enterSync f b) (concluded f p true at_ old (enterSync f b)) := concluded_ungated fun _ => awake
  rw [run]
  refine ⟨?_, kept.intRaw _ _ told, kept.lof.trans lof, fun started st => ?_⟩
  · exact beq_iff_eq.mpr (kept.sync.trans (beq_iff_eq.mp sync))
  · exact kept.act.trans (acts (up.trans started) ((actState_congr (regs _ (by cases f <;> decide))).trans st))

/-- A miss in FPRESYNC. -/
theorem psbd_back {p : Psbd} {at_ : Nat} {old : State} (field : lfrField f 0 2 s = 1) :
    let t := concluded f p false at_ old (syncStep f false s)
    lfrField f 0 2 t = 0 ∧ (t.lfr.get f).matches_ = 0 ∧ actState f t = actState f s := by
  intro t
  let c := (s.setFld (regAddr (pLfr f) 0x104) 0 2 0).setLfr f { s.lfr.get f with matches_ := 0 }
  have run : t = concluded f p false at_ old c := congrArg (concluded f p false at_ old) (syncStep_back field)
  have zero : lfrField f 0 2 c = 0 := fld_setFld_same s _ _ (by decide)
  have act : actState f c = actState f s := actState_congr (rd_setFld_other s (by cases f <;> decide) _ _ _)
  obtain ⟨sync, matched, acts⟩ := concluded_unsynced (f := f) (s := c) (p := p) (hit := false) (at_ := at_) (old := old) (by
    change (lfrField f 0 2 c == 2) = false
    rw [zero]
    rfl)
  rw [run]
  exact ⟨sync.trans zero, matched.trans (congrArg LfrSt.matches_ (lfr_setLfr _ f _)), acts.trans act⟩

/-- A miss in FSYNC below the limit. -/
theorem psbd_misses {p : Psbd} {at_ : Nat} {old : State} (sync : inSync f s = true)
    (few : (s.lfr.get f).misses + 1 < bits (s.rp (pLfr f) 0x108) 4 4) :
    let t := concluded f p false at_ old (syncStep f false s)
    inSync f t = true ∧ (t.lfr.get f).misses = (s.lfr.get f).misses + 1 := by
  intro t
  let c := s.setLfr f { s.lfr.get f with misses := (s.lfr.get f).misses + 1 }
  have run : t = concluded f p false at_ old c := congrArg (concluded f p false at_ old) (syncStep_misses sync few)
  have kept : SyncKept f c (concluded f p false at_ old c) := concluded_ungated fun h => absurd h Bool.false_ne_true
  rw [run]
  exact ⟨beq_iff_eq.mpr (kept.sync.trans (beq_iff_eq.mp sync)), kept.misses.trans (congrArg LfrSt.misses (lfr_setLfr _ f _))⟩

/-! ### LOS (R239) -/

theorem toHunt_state (f : AB) (s : State) :
    let t := toHunt f s
    lfrField f 0 2 t = 0 ∧ lfrField f 4 2 t = 0 ∧ losNow f t = losNow f s ∧ lofNow f t = lofNow f s ∧ actState f t = actState f s ∧
      (∀ p i, intRawBit s p i = true → intRawBit t p i = true) := by
  intro t
  let a := s.setFld (regAddr (pLfr f) 0x104) 0 2 0
  let b := a.setFld (regAddr (pLfr f) 0x104) 4 2 0
  obtain ⟨field, settled⟩ := toHunt_spec f s
  have kept : SyncKept f (huntCleared f s) t := by
    have lost {g : State} : SyncKept f g (loseChains f g) :=
      syncKept_ite (syncKept_foldl (fun _ _ _ => syncKept_dropSdu) g) syncKept_pushMark
    exact lost
  have same : t.rd (regAddr (pLfr f) 0x104) = b.rd (regAddr (pLfr f) 0x104) :=
    settled.regs _ (by cases f <;> decide) fun g => by cases f <;> cases g <;> decide
  have flags {i : Nat} (high : 8 ≤ i) (small : i < 32) : t.flag (regAddr (pLfr f) 0x104) i = s.flag (regAddr (pLfr f) 0x104) i :=
    (flag_congr same i).trans ((flag_setField_other a (.inr (by omega)) small).trans (flag_setField_other s (.inr (by omega)) small))
  have hdrs : (huntCleared f s).hdrs = s.hdrs := part_of_moves .hdrs (huntCleared_spec f s).2.1 rfl
  refine ⟨field, (fld_congr same 4 2).trans (fld_setFld_same a _ _ (by decide)), flags (by decide) (by decide), flags (by decide) (by decide),
    kept.act.trans ?_, fun p i set => kept.intRaw p i ?_⟩
  · exact actState_congr ((huntCleared_spec f s).2.2 _ (by cases f <;> decide))
  · rw [intRawBit, State.hdr, hdrs]
    exact set

/-- The loss of the frames leaves the receiver's state word, and takes a feeder from O5 to O6. -/
theorem frameLost_spec (f : AB) (cause : Nat) (s : State) :
    let t := frameLost f cause s
    t.rd (regAddr (pLfr f) 0x104) = s.rd (regAddr (pLfr f) 0x104) ∧ (∀ p i, intRawBit s p i = true → intRawBit t p i = true) ∧
      (actState f s = aO5 → actState f t = aO6) := by
  intro t
  obtain ⟨told, -⟩ := lossTold_spec f cause (actLost f s)
  have lost : Touches (orActive (clearsOn f)) s (actLost f s) :=
    touches_ite (setAct_spec f aO11 16 s).2.1 (touches_ite (setAct_spec f aO6 7 s).2.1 (touches_refl _ s))
  refine ⟨(told.regs _ (by cases f <;> decide)).trans (lost.regs _ (by cases f <;> decide)),
    fun p i set => (told.hdrs p).2 i ((lost.hdrs p).2 i set), fun st => ?_⟩
  have taken : actLost f s = setAct f aO6 7 s := by
    unfold actLost
    dsimp only
    rw [st, if_neg (by decide), if_pos rfl]
  refine (actState_congr (told.regs _ (by cases f <;> decide))).trans ?_
  rw [taken, setAct_state (by decide)]
  exact if_neg fun h => absurd h.1 (by decide)

theorem losDeclare_spec (los : losNow f s = false) (old : State) :
    let t := lineSettle old (declareLos f s)
    losNow f t = true ∧ lfrField f 0 2 t = 0 ∧ lfrField f 4 2 t = 0 ∧ intRawBit t (pLfr f) 0 = true ∧ lofNow f t = true ∧
      (actState f s = aO5 → actState f t = aO6) := by
  intro t
  let a := lineTold f 8 14 0 s
  let b := toHunt f a
  let c := if lofNow f b then b else lineTold f 9 15 1 b
  let d := frameLost f 1 c
  obtain ⟨set, others, regs, -, -⟩ := lineTold_spec f (i := 14) (irq := 0) (bit := 8) (by decide) (by decide) s
  obtain ⟨field, delin, losB, lofB, actB, toldB⟩ := toHunt_state f a
  have first : losNow f b = true ∧ intRawBit b (pLfr f) 0 = true ∧ actState f b = actState f s :=
    ⟨losB.trans set, toldB _ _ (raise_intRaw _ _ _ (by decide)), actB.trans (actState_congr (regs _ (by cases f <;> decide)))⟩
  obtain ⟨los', told', act'⟩ := first
  have declared : losNow f c = true ∧ lofNow f c = true ∧ lfrField f 0 2 c = 0 ∧ lfrField f 4 2 c = 0 ∧ intRawBit c (pLfr f) 0 = true ∧
      actState f c = actState f s := by
    by_cases lof : lofNow f b = true
    · have same : c = b := if_pos lof
      rw [same]
      exact ⟨los', lof, field, delin, told', act'⟩
    · have same : c = lineTold f 9 15 1 b := if_neg lof
      obtain ⟨set9, others9, regs9, -, hdrs9⟩ := lineTold_spec f (i := 15) (irq := 1) (bit := 9) (by decide) (by decide) b
      have low {lo w : Nat} (small : lo + w ≤ 9) :
          (lineTold f 9 15 1 b).fld (regAddr (pLfr f) 0x104) lo w = b.fld (regAddr (pLfr f) 0x104) lo w :=
        fld_of_flags fun i _ h => others9 i (by omega) (by omega)
      rw [same]
      exact ⟨(others9 8 (by decide) (by decide)).trans los', set9, (low (by decide)).trans field, (low (by decide)).trans delin,
        (hdrs9 _).2 0 told', (actState_congr (regs9 _ (by cases f <;> decide))).trans act'⟩
  obtain ⟨losC, lofC, fieldC, delinC, toldC, actC⟩ := declared
  have run : declareLos f s = d := by
    have told : declareLos f s = if lofNow f b then frameLost f 1 b else declareLof f 1 b := if_neg (by rw [los]; decide)
    rw [told]
    unfold d c
    split <;> rfl
  obtain ⟨word, raw, lost⟩ := frameLost_spec f 1 c
  have settled : Settled true d (lineSettle old d) := settled_lineSettle
  have ends : t = lineSettle old d := congrArg (lineSettle old) run
  have same : (lineSettle old d).rd (regAddr (pLfr f) 0x104) = c.rd (regAddr (pLfr f) 0x104) :=
    (settled.regs _ (by cases f <;> decide) fun g => by cases f <;> cases g <;> decide).trans word
  rw [ends]
  exact ⟨(losNow_congr same).trans losC, (fld_congr same 0 2).trans fieldC, (fld_congr same 4 2).trans delinC, settled.intRaw (raw _ _ toldC),
    (lofNow_congr same).trans lofC, fun st => (actState_congr (actStatus_settled settled)).trans (lost (actC.trans st))⟩

theorem losClear_spec (f : AB) (s old : State) :
    let t := lineSettle old (s.setFlag (regAddr (pLfr f) 0x104) 8 false)
    losNow f t = false ∧ actState f t = actState f s := by
  intro t
  let a := s.setFlag (regAddr (pLfr f) 0x104) 8 false
  have settled : Settled true a t := settled_lineSettle
  exact ⟨(losNow_congr (settled.regs _ (by cases f <;> decide) fun g => by cases f <;> cases g <;> decide)).trans
    (flag_setFlag_same s _ (by decide) false),
    (actState_congr (actStatus_settled settled)).trans (actState_congr (rd_setFlag_other s (by cases f <;> decide) _ _))⟩

/-! ### SD (R249) -/

/-- The codewords of a second as they are shown. -/
def secondWord (n : Nat) : Word := word (if n > 65535 then 65535 else n)

/-- A second of the line is shown, and what it counted is cleared. -/
def secondShown (f : AB) (good : Nat) (s : State) : State :=
  (s.wp (pLfr f) 0x124 (secondWord (s.lfr.get f).secUncorr)).setLfr f { s.lfr.get f with secUncorr := 0, goodSecs := good }

theorem secondShown_spec (f : AB) (good : Nat) (s : State) :
    let t := secondShown f good s
    (t.lfr.get f).secUncorr = 0 ∧ t.flag (regAddr (pLfr f) 0x104) 11 = s.flag (regAddr (pLfr f) 0x104) 11 ∧
      keepsRegs [regAddr (pLfr f) 0x104, regAddr (pLfr f) 0x124] s t ∧ keepsHdrs [pLfr f] s t := by
  refine ⟨congrArg LfrSt.secUncorr (lfr_setLfr _ f _), flag_congr (State.rd_wr_other s (by cases f <;> decide) _) 11, fun a ha => ?_,
    fun _ _ => rfl⟩
  exact State.rd_wr_other s (fun h : a = regAddr (pLfr f) 0x124 => ha (List.mem_cons_of_mem _ (List.mem_singleton.mpr h))) _

theorem setFlag_kept {b : Bool} :
    keepsRegs [regAddr (pLfr f) 0x104, regAddr (pLfr f) 0x124] s (s.setFlag (regAddr (pLfr f) 0x104) 11 b) := fun a ha =>
  rd_setFlag_other s (fun h : a = regAddr (pLfr f) 0x104 => ha (List.mem_cons.mpr (.inl h))) _ _

theorem sdSecond_eq (f : AB) (s : State) : exec (.sdSecond f) s = whenOn s (
    if s.fld (regAddr (pLfr f) 0x114) 0 16 ≤ (s.lfr.get f).secUncorr then
      .next (if s.flag (regAddr (pLfr f) 0x104) 11 then secondShown f 0 s
        else raise (pLfr f) 3 ((secondShown f 0 s).setFlag (regAddr (pLfr f) 0x104) 11 true))
    else
      let u := secondShown f (satAdd 10 (s.lfr.get f).goodSecs 1) s
      .next (if s.flag (regAddr (pLfr f) 0x104) 11 && decide (10 ≤ (s.lfr.get f).goodSecs + 1) then
        u.setFlag (regAddr (pLfr f) 0x104) 11 false else u)) := by
  let w := s.wp (pLfr f) 0x124 (secondWord (s.lfr.get f).secUncorr)
  have field : w.fld (regAddr (pLfr f) 0x114) 0 16 = s.fld (regAddr (pLfr f) 0x114) 0 16 :=
    fld_congr (State.rd_wr_other s (by cases f <;> decide) _) 0 16
  have flag : w.flag (regAddr (pLfr f) 0x104) 11 = s.flag (regAddr (pLfr f) 0x104) 11 :=
    flag_congr (State.rd_wr_other s (by cases f <;> decide) _) 11
  rw [← field, ← flag]
  rfl

/-- A second with SD_UNCORR uncorrectable codewords or more. -/
theorem sdSecond_bad (on : s.running = true) (many : s.fld (regAddr (pLfr f) 0x114) 0 16 ≤ (s.lfr.get f).secUncorr) :
    After (exec (.sdSecond f) s) fun t => (t.lfr.get f).secUncorr = 0 ∧ t.flag (regAddr (pLfr f) 0x104) 11 = true ∧
      (s.flag (regAddr (pLfr f) 0x104) 11 = false → intRawBit t (pLfr f) 3 = true) ∧
      keepsRegs [regAddr (pLfr f) 0x104, regAddr (pLfr f) 0x124] s t ∧ keepsHdrs [pLfr f] s t := by
  let a := secondShown f 0 s
  obtain ⟨cleared, flag, regs, hdrs⟩ := secondShown_spec f 0 s
  refine after_running on ((sdSecond_eq f s).trans (congrArg (whenOn s) (if_pos many))) ?_
  by_cases sd : s.flag (regAddr (pLfr f) 0x104) 11 = true
  · rw [if_pos sd]
    exact ⟨cleared, flag.trans sd, fun low => absurd (sd.symm.trans low) Bool.false_ne_true.symm, regs, hdrs⟩
  · rw [if_neg sd]
    have same (c : Nat) := raise_rd (pLfr f) 3 (a.setFlag (regAddr (pLfr f) 0x104) 11 true) c
    have lfr : (raise (pLfr f) 3 (a.setFlag (regAddr (pLfr f) 0x104) 11 true)).lfr = a.lfr :=
      part_of_moves (m := [.regs, .hdrs, .links]) .lfr (raise_moves.after rfl <| setFlag_moves.within rfl) rfl
    refine ⟨by rw [lfr]; exact cleared, (flag_congr (same _) 11).trans (flag_setFlag_same a _ (by decide) true),
      fun _ => raise_intRaw _ _ _ (by decide), fun c hc => (same c).trans ((setFlag_kept c hc).trans (regs c hc)), fun q hq => ?_⟩
    exact (raise_keepsHdrs _ _ _ q hq).trans (hdrs q hq)

/-- A second below SD_UNCORR. -/
theorem sdSecond_good (on : s.running = true) (few : (s.lfr.get f).secUncorr < s.fld (regAddr (pLfr f) 0x114) 0 16) :
    After (exec (.sdSecond f) s) fun t => (t.lfr.get f).secUncorr = 0 ∧
      (9 ≤ (s.lfr.get f).goodSecs → t.flag (regAddr (pLfr f) 0x104) 11 = false) ∧
      keepsRegs [regAddr (pLfr f) 0x104, regAddr (pLfr f) 0x124] s t ∧ keepsHdrs [pLfr f] s t := by
  let a := secondShown f (satAdd 10 (s.lfr.get f).goodSecs 1) s
  obtain ⟨cleared, flag, regs, hdrs⟩ := secondShown_spec f (satAdd 10 (s.lfr.get f).goodSecs 1) s
  refine after_running on ((sdSecond_eq f s).trans (congrArg (whenOn s) (if_neg (by omega)))) ?_
  by_cases settles : (s.flag (regAddr (pLfr f) 0x104) 11 && decide (10 ≤ (s.lfr.get f).goodSecs + 1)) = true
  · rw [if_pos settles]
    exact ⟨cleared, fun _ => flag_setFlag_same a _ (by decide) false, fun c hc => (setFlag_kept c hc).trans (regs c hc), hdrs⟩
  · rw [if_neg settles]
    refine ⟨cleared, fun long => flag.trans (Bool.eq_false_iff.mpr fun sd => settles ?_), regs, hdrs⟩
    rw [sd, Bool.true_and, decide_eq_true_eq]
    omega

theorem attach_of_code {m : Mode} (h : m.code = 1) : ∃ x, m = .attach x := by
  cases m with
  | attach x => exact ⟨x, rfl⟩
  | dormant => cases h
  | service x => cases h
  | holdover x => cases h

/-- Settles O41, by the step of the synchroniser in each of its states and by what a frame leaves alone. -/
theorem framesAreSynchronised : Obligations.FramesAreSynchronised := by
  unfold Obligations.FramesAreSynchronised
  refine ⟨fun f p s on => ⟨fun off => psbdArrival_off p off on, fun rx los rate => ?_⟩, fun f s on => ⟨fun b los rx pin => ?_, ?_, ?_⟩⟩
  · have moved := execPsbdArrival_moves (f := f) (p := p) (s := s)
    have hits (h : p.errors ≤ bits (s.rp (pLfr f) 0x108) 8 3) := by
      have := psbdArrival_run p rx los rate
      rwa [decide_eq_true h] at this
    have missed (h : ¬p.errors ≤ bits (s.rp (pLfr f) 0x108) 8 3) := by
      have := psbdArrival_run p rx los rate
      rwa [decide_eq_false h] at this
    refine ⟨fun field hit many => ?_, fun field hit enough mode => ?_, fun field miss => ?_, fun sync miss few => ?_⟩
    · exact after_alike moved rfl on (hits hit) (psbd_hunt field many)
    · obtain ⟨x, attach⟩ := attach_of_code mode
      exact after_alike moved rfl on (hits hit) (psbd_enters field enough attach)
    · exact after_alike moved rfl on (missed miss) (psbd_back field)
    · exact after_alike moved rfl on (missed miss) (psbd_misses sync few)
  · have run : exec (.losDeclare f b) s = whenOn s (.next (lineSettle s (declareLos f s))) := by
      refine congrArg (whenOn s) (if_neg ?_)
      rintro (⟨by_, out⟩ | off)
      · exact absurd ((pin by_).symm.trans out) Bool.false_ne_true.symm
      · exact absurd (off.symm.trans rx) Bool.false_ne_true.symm
    exact after_alike execLosDeclare_moves rfl on run (losDeclare_spec los s)
  · exact after_alike execLosClear_moves rfl on rfl (losClear_spec f s s)
  · have moved : goes [.regs, .hdrs, .links, .lfr] s (exec (.sdSecond f) s) := execSdSecond_moves
    by_cases many : s.fld (regAddr (pLfr f) 0x114) 0 16 ≤ (s.lfr.get f).secUncorr
    · obtain ⟨t, next, kept, cleared, sd, told, regs, hdrs⟩ := after_goes moved (sdSecond_bad on many)
      exact ⟨t, next, cleared, fun _ => ⟨sd, told⟩, fun few => absurd many (by omega), regs, hdrs, keeps_mono kept (by decide)⟩
    · obtain ⟨t, next, kept, cleared, good, regs, hdrs⟩ := after_goes moved (sdSecond_good (f := f) on (by omega))
      exact ⟨t, next, cleared, fun h => absurd h many, fun _ => good, regs, hdrs, keeps_mono kept (by decide)⟩

end Sys2Proof.Machine
